-- ==== Sys2Proof/Word.lean ====
section
/-!
DEFINITION. The machine's words (01 R12, R13; 02 R25, R35; 03 R56).
-/

namespace Sys2Proof

/-- One byte of memory. -/
abbrev Byte := BitVec 8
/-- A 64-bit scalar register. -/
abbrev Word := BitVec 64
/-- A 32-bit slot of a bundle (02 R25). -/
abbrev SlotWord := BitVec 32
/-- A vector register: lane `n` is bits `[32 n + 31 : 32 n]` (03 R56). -/
abbrev VReg := BitVec 4096
/-- A mask register: bit `n` is lane `n` (04 R82). -/
abbrev Mask := BitVec 128
/-- A 128-byte line (17 R298). -/
abbrev Line := BitVec 1024

/-- An agent that issues bundles: a core's context (package core number, context), a cluster's scribe
or a die's command processor (01 R11, R14). -/
inductive Agent where
  | ctx (core k : Nat)
  | scribe (cluster : Nat)
  | cp (die : Nat)
  deriving DecidableEq, Repr

/-- The four spaces, in the order of the SP code (02 R34). -/
inductive Space where
  | m | ms | p | v
  deriving DecidableEq, Repr

/-- SP code to space (02 R34). -/
def Space.ofCode (c : BitVec 2) : Space :=
  if c = 0 then .m else if c = 1 then .ms else if c = 2 then .p else .v

end Sys2Proof
end

