-- ==== Sys2Proof/Config.lean ====
section
/-!
DEFINITION. What one device fixes, and the free values: constants without a body, of which nothing can be proved.
A free value stands where the spec leaves a value open and the machine goes on (log 4), or where each implementation or each part
decides it (log 13, 14).
-/

namespace Sys2Proof.Config

/-- Free 64-bit values, one for each reading of `State.fresh` (log 4). -/
opaque freeWord : Nat → BitVec 64
/-- Free bytes, one for each reading of `State.fresh` (log 4). -/
opaque freeByte : Nat → BitVec 8
/-- Free 32-bit elements, by reading of `State.fresh` and place (log 4). -/
opaque freeElem : Nat → Nat → BitVec 32

/-- The eight transform functions (07 R140; 08 R166). -/
inductive Fn where
  | sin | cos | exp2 | log2 | rcp | rsqrt | tanh | sigmoid
  deriving DecidableEq, Repr

/-- The FP32 result that the transform units return for a function and an input, away from the exact and special results; it counts only where it keeps
the bound of 07 R140 (07 R141, log 8). One function of the function and the input, so every unit returns the same bits. -/
opaque transform : Fn → BitVec 32 → BitVec 32

/-- Whether a signature verifies under the fused firmware key: RSASSA-PSS over the given digest (23 R402, log 13). -/
opaque fwVerify : BitVec 256 → List (BitVec 8) → Bool
/-- The fused minimum of the security version (23 R402, log 13). -/
opaque fusedMinimum : BitVec 32
/-- By how much a firmware image that runs raises the fused minimum (23 R402, log 13). -/
opaque fuseRaise : List (BitVec 8) → Nat
/-- The port sets that firmware assigns to the packages that a route reaches, one bit for each port (19 R346; 23 R402, log 13). -/
opaque routes : List (Nat × BitVec 48)
/-- What a port has counted, by port, counter and cc: how many frames a message takes, and on which port of its set, no rule says (23 R394, log 18). -/
opaque portCount : Nat → Nat → Nat → BitVec 64
/-- Measurement 1, the boot ROM's digest (23 R404, log 13). -/
opaque romDigest : BitVec 256
/-- Measurement 3 as firmware set the configuration (23 R404, log 13). -/
opaque configDigest : BitVec 256
/-- The stack window that firmware sets at boot: base and size (19 R348; 23 R402, log 13). -/
opaque stackWindow : BitVec 64 × BitVec 64
/-- The VFs to which firmware grants fabric rights (19 R346, log 13). -/
opaque fabricRights : BitVec 32
/-- The slot-0 certificate chain in DER (23 R403, log 13). -/
opaque certChain : List (BitVec 8)
/-- The identity key's signature over a digest (23 R403, log 13). -/
opaque sign : BitVec 256 → BitVec 3072
/-- The channel of its stack that holds a physical address, which reports show (22 R381, log 4). -/
opaque stackChannel : Nat → BitVec 7

/-- The line of the metadata space that holds a datum, by the sort of the datum (0 the tile tags, 1 the records and counters of coded regions) and its number: the layout
of that space is not architectural (17 R313, log 81). -/
opaque metaLine : Nat → Nat → BitVec 22

/-- The device's stepping, in ID[39:32] (23 R394, log 13). -/
opaque stepping : BitVec 8

/-- The non-pane units of a core that are enabled, laid out as UNITS[8:4]: S1, L1, V, X, Q (02 R48; 22 R378, log 14: every unit is). -/
def unitsEnabled (_core : Nat) : BitVec 9 := 0x1F0

end Sys2Proof.Config
end

