-- ==== Sys2Proof/Syntax.lean ====
section
/-!
DEFINITION. The instructions: one constructor per row of spec/opcode_table.json.
The encoded families (02 R34, R37, R39) carry their slot's header and fields; a row without an encoding is a step of
an engine, of the scheduler or of the outside world; the agent it concerns and the data that arrives are its operands, an `Ev` of the state
(Machine/Event.lean).
-/

namespace Sys2Proof

/-- What every non-lead slot carries beside its own fields: the stop bit and the guard (02 R31). -/
structure Hdr where
  stop : Bool
  g : BitVec 4
  deriving DecidableEq, Repr

/-- What every lead slot carries: stop bit, guard, pop mask, CK, Y and the hint H (02 R34, forms CF). -/
structure LHdr where
  stop : Bool
  g : BitVec 4
  pm : BitVec 4
  ck : Bool
  y : Bool
  hint : Bool
  deriving DecidableEq, Repr

/-- The instructions and steps of the device, in the order of spec/opcode_table.json. -/
inductive Instr where
  /-- NEXT: Lead slot with no transfer of control; its PM, CK and Y flags still act at bundle end (R69) -/
  | next (h : LHdr)
  /-- BR: Branches to the bundle address plus the signed 13-bit displacement when the guard reads true (R69) -/
  | br (h : LHdr) (disp : BitVec 13)
  /-- BRU: Branches when every lane of a mask is set, or when none is, and traps with 0x10 when the lanes disagree (R69) -/
  | bru (h : LHdr) (mk : BitVec 4) (nsel : Bool) (disp : BitVec 8)
  /-- JMPI: Jumps to the 4-aligned address in sA, or traps with 0x24 (R69) -/
  | jmpi (h : LHdr) (a : BitVec 5)
  /-- CALL: Pushes the next bundle address on the return store and branches by the displacement, or traps with 0x11 when the store is full (R69) -/
  | call (h : LHdr) (disp : BitVec 13)
  /-- CALLI: Pushes the next bundle address on the return store and jumps to the address in sA (R69) -/
  | calli (h : LHdr) (a : BitVec 5)
  /-- RET: Pops the return store and jumps there, or traps with 0x12 when the store is empty (R69) -/
  | ret (h : LHdr)
  /-- LOOP: Pushes a counted loop level with kernel count sA (R72) -/
  | loop (h : LHdr) (a : BitVec 5)
  /-- LOOP_PIPE: Pushes a pipelined loop level with kernel count sA and epilogue count sB, and sets f8 (R72) -/
  | loopPipe (h : LHdr) (a : BitVec 5) (b : BitVec 5)
  /-- SLOOP: Pushes a stream loop level bound to a queue head, with epilogue count sB, and sets f8 (R72) -/
  | sloop (h : LHdr) (k : BitVec 2) (b : BitVec 5)
  /-- LCLOSE: Closes the innermost loop level: counts, rotates, sets f8 and branches back, or pops the level (R73) -/
  | lclose (h : LHdr)
  /-- LEXIT: Pops the innermost loop level and branches to the target or to the level's END (R75) -/
  | lexit (h : LHdr) (disp : BitVec 13)
  /-- HALT: Ends the context after a checkpoint that releases its withheld effects (R76) -/
  | halt (h : LHdr)
  /-- TRAPI: Raises software trap 0x73 after a checkpoint, with the 13-bit code in %tdet0 (R77) -/
  | trapi (h : LHdr) (code : BitVec 13)
  /-- BKPT: Raises breakpoint trap 0x72 after a checkpoint, with the 13-bit code in %tdet0 (R77) -/
  | bkpt (h : LHdr) (code : BitVec 13)
  /-- ADD: Writes sA + sB, wrapping to 64 bits (R78) -/
  | add (h : Hdr) (d : BitVec 5) (a : BitVec 5) (b : BitVec 5)
  /-- ADD_SS: Writes the signed saturating sum of sA and sB (R78) -/
  | addSs (h : Hdr) (d : BitVec 5) (a : BitVec 5) (b : BitVec 5)
  /-- ADD_US: Writes the unsigned saturating sum of sA and sB (R78) -/
  | addUs (h : Hdr) (d : BitVec 5) (a : BitVec 5) (b : BitVec 5)
  /-- ADD_W: Writes the sign-extended 32-bit sum of sA and sB (R78) -/
  | addW (h : Hdr) (d : BitVec 5) (a : BitVec 5) (b : BitVec 5)
  /-- SUB: Writes sA − sB, wrapping to 64 bits (R78) -/
  | sub (h : Hdr) (d : BitVec 5) (a : BitVec 5) (b : BitVec 5)
  /-- SUB_SS: Writes the signed saturating difference of sA and sB (R78) -/
  | subSs (h : Hdr) (d : BitVec 5) (a : BitVec 5) (b : BitVec 5)
  /-- SUB_US: Writes the unsigned saturating difference of sA and sB (R78) -/
  | subUs (h : Hdr) (d : BitVec 5) (a : BitVec 5) (b : BitVec 5)
  /-- SUB_W: Writes the sign-extended 32-bit difference of sA and sB (R78) -/
  | subW (h : Hdr) (d : BitVec 5) (a : BitVec 5) (b : BitVec 5)
  /-- ADDI: Writes sA plus the sign-extended 10-bit immediate (R78) -/
  | addi (h : Hdr) (d : BitVec 5) (a : BitVec 5) (imm : BitVec 10)
  /-- MUL: Writes the low 64 bits of sA × sB (R78) -/
  | mul (h : Hdr) (d : BitVec 5) (a : BitVec 5) (b : BitVec 5)
  /-- MULH: Writes the high 64 bits of the signed product of sA and sB (R78) -/
  | mulh (h : Hdr) (d : BitVec 5) (a : BitVec 5) (b : BitVec 5)
  /-- MULH_U: Writes the high 64 bits of the unsigned product of sA and sB (R78) -/
  | mulhU (h : Hdr) (d : BitVec 5) (a : BitVec 5) (b : BitVec 5)
  /-- DIV: Writes the signed quotient of sA by sB, trapping with 0x15 on a zero divisor (R79) -/
  | div (h : Hdr) (d : BitVec 5) (a : BitVec 5) (b : BitVec 5)
  /-- DIV_U: Writes the unsigned quotient of sA by sB (R79) -/
  | divU (h : Hdr) (d : BitVec 5) (a : BitVec 5) (b : BitVec 5)
  /-- DIV_REM: Writes the signed remainder of sA by sB (R79) -/
  | divRem (h : Hdr) (d : BitVec 5) (a : BitVec 5) (b : BitVec 5)
  /-- DIV_U_REM: Writes the unsigned remainder of sA by sB (R79) -/
  | divURem (h : Hdr) (d : BitVec 5) (a : BitVec 5) (b : BitVec 5)
  /-- AND: Writes the bitwise AND of sA and sB (R78) -/
  | and (h : Hdr) (d : BitVec 5) (a : BitVec 5) (b : BitVec 5)
  /-- OR: Writes the bitwise OR of sA and sB (R78) -/
  | or (h : Hdr) (d : BitVec 5) (a : BitVec 5) (b : BitVec 5)
  /-- XOR: Writes the bitwise exclusive OR of sA and sB (R78) -/
  | xor (h : Hdr) (d : BitVec 5) (a : BitVec 5) (b : BitVec 5)
  /-- ANDN: Writes sA AND NOT sB (R78) -/
  | andn (h : Hdr) (d : BitVec 5) (a : BitVec 5) (b : BitVec 5)
  /-- ORN: Writes sA OR NOT sB (R78) -/
  | orn (h : Hdr) (d : BitVec 5) (a : BitVec 5) (b : BitVec 5)
  /-- XNOR: Writes the complement of sA XOR sB (R78) -/
  | xnor (h : Hdr) (d : BitVec 5) (a : BitVec 5) (b : BitVec 5)
  /-- SHL: Shifts sA left by the low six bits of sB (R78) -/
  | shl (h : Hdr) (d : BitVec 5) (a : BitVec 5) (b : BitVec 5)
  /-- SHR: Shifts sA right, filling zeros, by the low six bits of sB (R78) -/
  | shr (h : Hdr) (d : BitVec 5) (a : BitVec 5) (b : BitVec 5)
  /-- SAR: Shifts sA right arithmetically by the low six bits of sB (R78) -/
  | sar (h : Hdr) (d : BitVec 5) (a : BitVec 5) (b : BitVec 5)
  /-- ROR: Rotates sA right by the low six bits of sB (R78) -/
  | ror (h : Hdr) (d : BitVec 5) (a : BitVec 5) (b : BitVec 5)
  /-- SHLI: Shifts sA left by an immediate count (R78) -/
  | shli (h : Hdr) (d : BitVec 5) (a : BitVec 5) (n : BitVec 6)
  /-- SHRI: Shifts sA right, filling zeros, by an immediate count (R78) -/
  | shri (h : Hdr) (d : BitVec 5) (a : BitVec 5) (n : BitVec 6)
  /-- SARI: Shifts sA right arithmetically by an immediate count (R78) -/
  | sari (h : Hdr) (d : BitVec 5) (a : BitVec 5) (n : BitVec 6)
  /-- RORI: Rotates sA right by an immediate count (R78) -/
  | rori (h : Hdr) (d : BitVec 5) (a : BitVec 5) (n : BitVec 6)
  /-- MIN: Writes the signed minimum of sA and sB (R78) -/
  | min (h : Hdr) (d : BitVec 5) (a : BitVec 5) (b : BitVec 5)
  /-- MAX: Writes the signed maximum of sA and sB (R78) -/
  | max (h : Hdr) (d : BitVec 5) (a : BitVec 5) (b : BitVec 5)
  /-- MINU: Writes the unsigned minimum of sA and sB (R78) -/
  | minu (h : Hdr) (d : BitVec 5) (a : BitVec 5) (b : BitVec 5)
  /-- MAXU: Writes the unsigned maximum of sA and sB (R78) -/
  | maxu (h : Hdr) (d : BitVec 5) (a : BitVec 5) (b : BitVec 5)
  /-- POPC: Writes the population count of sA (R78) -/
  | popc (h : Hdr) (d : BitVec 5) (a : BitVec 5)
  /-- CLZ: Writes the number of leading zeros of sA (R78) -/
  | clz (h : Hdr) (d : BitVec 5) (a : BitVec 5)
  /-- CTZ: Writes the number of trailing zeros of sA (R78) -/
  | ctz (h : Hdr) (d : BitVec 5) (a : BitVec 5)
  /-- BITREV: Writes sA with its bits reversed (R78) -/
  | bitrev (h : Hdr) (d : BitVec 5) (a : BitVec 5)
  /-- BYTEREV: Writes sA with its bytes reversed (R78) -/
  | byterev (h : Hdr) (d : BitVec 5) (a : BitVec 5)
  /-- FLD: Extracts or inserts a byte, half or word field of a scalar register (R80) -/
  | fld (h : Hdr) (d : BitVec 5) (a : BitVec 5) (ins : Bool) (sg : Bool) (sz : BitVec 2) (pos : BitVec 6)
  /-- MOVI: Writes the sign-extended 15-bit immediate (R78) -/
  | movi (h : Hdr) (d : BitVec 5) (imm : BitVec 15)
  /-- MOVHI: Shifts sD left by 15 and ORs in the 15-bit immediate (R78) -/
  | movhi (h : Hdr) (d : BitVec 5) (imm : BitVec 15)
  /-- LEA: Writes sA + (sB << sh) (R78) -/
  | lea (h : Hdr) (d : BitVec 5) (a : BitVec 5) (b : BitVec 5) (sh : BitVec 3)
  /-- SEL: Writes sA when predicate fP is true, otherwise sB (R78) -/
  | sel (h : Hdr) (d : BitVec 5) (a : BitVec 5) (b : BitVec 5) (p : BitVec 4)
  /-- CMP: Compares two scalars by a condition and writes a predicate, optionally with its complement (R81) -/
  | cmp (h : Hdr) (fd : BitVec 4) (a : BitVec 5) (b : BitVec 5) (cc : BitVec 4) (pw : Bool)
  /-- CMPI: Compares a scalar with a 6-bit immediate and writes a predicate (R81) -/
  | cmpi (h : Hdr) (fd : BitVec 4) (a : BitVec 5) (cc : BitVec 4) (pw : Bool) (imm : BitVec 6)
  /-- PLOG: Combines two predicates or two masks through a 4-bit truth table (R82) -/
  | plog (h : Hdr) (fd : BitVec 4) (a : BitVec 4) (b : BitVec 4) (tt : BitVec 4) (pw : Bool) (mkx : Bool)
  /-- PMOV: Sets a predicate from a predicate or from a test of a scalar (R83) -/
  | pmov (h : Hdr) (fd : BitVec 4) (a : BitVec 5) (cc : BitVec 4) (pw : Bool)
  /-- FADD: Writes the rounded FP32 or FP64 sum of sA and sB (R84) -/
  | fadd (h : Hdr) (d : BitVec 5) (a : BitVec 5) (b : BitVec 5) (rz : Bool) (dbl : Bool)
  /-- FSUB: Writes the rounded FP32 or FP64 difference of sA and sB (R84) -/
  | fsub (h : Hdr) (d : BitVec 5) (a : BitVec 5) (b : BitVec 5) (rz : Bool) (dbl : Bool)
  /-- FMUL: Writes the rounded FP32 or FP64 product of sA and sB (R84) -/
  | fmul (h : Hdr) (d : BitVec 5) (a : BitVec 5) (b : BitVec 5) (rz : Bool) (dbl : Bool)
  /-- FFMA: Writes sA × sB + sD rounded once (R84) -/
  | ffma (h : Hdr) (d : BitVec 5) (a : BitVec 5) (b : BitVec 5) (rz : Bool) (dbl : Bool)
  /-- FMIN: Writes the smaller of two floating-point scalars (R84) -/
  | fmin (h : Hdr) (d : BitVec 5) (a : BitVec 5) (b : BitVec 5) (rz : Bool) (dbl : Bool)
  /-- FMAX: Writes the larger of two floating-point scalars (R84) -/
  | fmax (h : Hdr) (d : BitVec 5) (a : BitVec 5) (b : BitVec 5) (rz : Bool) (dbl : Bool)
  /-- FCMP: Compares two FP32 or FP64 scalars and writes a predicate (R85) -/
  | fcmp (h : Hdr) (fd : BitVec 4) (a : BitVec 5) (b : BitVec 5) (dbl : Bool) (cc : BitVec 3) (pw : Bool)
  /-- FICVT: Converts an INT64 scalar to FP32 or FP64 (R85) -/
  | ficvt (h : Hdr) (d : BitVec 4) (a : BitVec 5) (dbl : Bool)
  /-- FCVTI: Converts an FP32 or FP64 scalar to INT64 toward zero, saturating (R85) -/
  | fcvti (h : Hdr) (d : BitVec 4) (a : BitVec 5) (dbl : Bool)
  /-- FWIDEN: Converts FP32 to FP64 exactly (R85) -/
  | fwiden (h : Hdr) (d : BitVec 4) (a : BitVec 5)
  /-- FNARROW: Converts FP64 to FP32 by round to nearest even (R85) -/
  | fnarrow (h : Hdr) (d : BitVec 4) (a : BitVec 5)
  /-- RDSR: Reads a special register into sD (R87) -/
  | rdsr (h : Hdr) (d : BitVec 5) (num : BitVec 10)
  /-- WRSR: Writes sA to a special register, subject to privilege (R87) -/
  | wrsr (h : Hdr) (a : BitVec 5) (num : BitVec 10)
  /-- LDS: Loads 8 bytes into sD, landing at the class distance (R93) -/
  | lds (h : Hdr) (d : BitVec 5) (a : BitVec 5) (lc : BitVec 3) (sp : BitVec 2) (off : BitVec 5)
  /-- LDSP: Loads 16 bytes into an even-odd scalar pair (R93) -/
  | ldsp (h : Hdr) (d : BitVec 5) (a : BitVec 5) (lc : BitVec 3) (sp : BitVec 2) (off : BitVec 5)
  /-- LDSV: Loads 4 bytes and broadcasts them to every lane of vD (R93) -/
  | ldsv (h : Hdr) (d : BitVec 5) (a : BitVec 5) (lc : BitVec 3) (sp : BitVec 2) (off : BitVec 5)
  /-- STS: Withholds an 8-byte store of sD until the next checkpoint (R93) -/
  | sts (h : Hdr) (d : BitVec 5) (a : BitVec 5) (sp : BitVec 2) (off : BitVec 5)
  /-- LDV: Loads 512 bytes into vD (R93) -/
  | ldv (h : Hdr) (d : BitVec 5) (a : BitVec 5) (lc : BitVec 3) (sp : BitVec 2) (off : BitVec 5)
  /-- LDVS: Loads one zero-run chunk from the pad and lands it expanded in vD (R94) -/
  | ldvs (h : Hdr) (d : BitVec 5) (a : BitVec 5) (lc : BitVec 3) (off : BitVec 5)
  /-- LDVX: Gathers 128 words at sA plus four times each index lane (R93) -/
  | ldvx (h : Hdr) (d : BitVec 5) (a : BitVec 5) (lc : BitVec 3) (sp : BitVec 2) (ix : BitVec 5)
  /-- STV: Withholds a 512-byte store of a vector register (R93) -/
  | stv (h : Hdr) (d : BitVec 5) (a : BitVec 5) (sp : BitVec 2) (off : BitVec 5)
  /-- STVS: Withholds a masked store of narrow or FP64 elements of a vector register (R95) -/
  | stvs (h : Hdr) (vs : BitVec 5) (a : BitVec 5) (mk : BitVec 4) (fmt : BitVec 4) (sp : BitVec 2)
  /-- STVX: Withholds a scatter of 128 words at indexed addresses (R93) -/
  | stvx (h : Hdr) (d : BitVec 5) (a : BitVec 5) (sp : BitVec 2) (ix : BitVec 5)
  /-- PREF: Prefetches a line of space m into the L1 or its home slice (R96) -/
  | pref (h : Hdr) (home : Bool) (a : BitVec 5) (off : BitVec 5)
  /-- CHK: Compares two scalars and traps with 0x50 on inequality (R97) -/
  | chk (h : Hdr) (a : BitVec 5) (b : BitVec 5)
  /-- CHK_VEC: Compares two vector registers and traps with 0x50 on inequality (R97) -/
  | chkVec (h : Hdr) (a : BitVec 5) (b : BitVec 5)
  /-- CPCH_GO: Reserves a copy channel and withholds its start with a copy descriptor (R272) -/
  | cpchGo (h : Hdr) (a : BitVec 5) (b : BitVec 5)
  /-- CPCH_ST: Writes the status of a copy channel (R275) -/
  | cpchSt (h : Hdr) (d : BitVec 5) (a : BitVec 5)
  /-- CPCH_STOP: Withholds a stop that halts a channel at its next line boundary (R275) -/
  | cpchStop (h : Hdr) (a : BitVec 5)
  /-- MEMC_PHASE: Withholds a change of the own vault's carve between addressed space and L2 slice (R277) -/
  | memcPhase (h : Hdr) (a : BitVec 5) (b : BitVec 5)
  /-- MEMC_RINV: Withholds a range invalidation that writes back and purges lines over a scope, then arrives at a barrier (R278) -/
  | memcRinv (h : Hdr) (d : BitVec 5) (a : BitVec 5) (b : BitVec 5) (sc : BitVec 3)
  /-- MEMC_CREG: Withholds a write of a coded-region record and clears its counters (R279) -/
  | memcCreg (h : Hdr) (a : BitVec 5) (b : BitVec 5)
  /-- MEMC_CERR: Withholds a read-and-clear of a coded region's counters into a 32-byte record (R280) -/
  | memcCerr (h : Hdr) (a : BitVec 5) (b : BitVec 5)
  /-- COLL: Withholds the start of an in-place all-reduce over a collective group (R282) -/
  | coll (h : Hdr) (a : BitVec 5)
  /-- RING: Withholds the start of a ring transfer of chunks paced by ring semaphores (R284) -/
  | ring (h : Hdr) (a : BitVec 5)
  /-- RSEM_RD: Reads a ring semaphore of the die (R285) -/
  | rsemRd (h : Hdr) (d : BitVec 5) (a : BitVec 5)
  /-- RSEM_SET: Withholds a write of a ring semaphore's count (R285) -/
  | rsemSet (h : Hdr) (a : BitVec 5) (b : BitVec 5)
  /-- RSEM_ADD: Withholds an addition to a ring semaphore (R285) -/
  | rsemAdd (h : Hdr) (a : BitVec 5) (b : BitVec 5)
  /-- STAB_WR: Withholds a write of a schedule-table entry image (R286) -/
  | stabWr (h : Hdr) (a : BitVec 5) (b : BitVec 5)
  /-- STAB_RD: Reads one word of a schedule-table entry (R286) -/
  | stabRd (h : Hdr) (d : BitVec 5) (a : BitVec 5) (b : BitVec 5)
  /-- STAB_GO: Withholds a start of the schedule-table walker at an entry (R286) -/
  | stabGo (h : Hdr) (a : BitVec 5)
  /-- STAB_STOP: Withholds a stop of the walker before its next entry (R286) -/
  | stabStop (h : Hdr)
  /-- STAB_REG: Reads a walker register (R286) -/
  | stabReg (h : Hdr) (d : BitVec 5) (a : BitVec 5)
  /-- STAB_LINK: Withholds setting the downstream or upstream neighbour of the walker (R286) -/
  | stabLink (h : Hdr) (a : BitVec 5) (b : BitVec 5)
  /-- STAB_CLR: Withholds clearing the bubble counters and stash high-water mark (R286) -/
  | stabClr (h : Hdr)
  /-- VADD: Adds vector elements in the given format, rounding or saturating as X selects (R150) -/
  | vadd (h : Hdr) (d : BitVec 5) (a : BitVec 5) (b : BitVec 5) (fmt : BitVec 4) (x : Bool)
  /-- VSUB: Subtracts vector elements (R150) -/
  | vsub (h : Hdr) (d : BitVec 5) (a : BitVec 5) (b : BitVec 5) (fmt : BitVec 4) (x : Bool)
  /-- VMUL: Multiplies vector elements (R150) -/
  | vmul (h : Hdr) (d : BitVec 5) (a : BitVec 5) (b : BitVec 5) (fmt : BitVec 4) (x : Bool)
  /-- VFMA: Fused multiply-adds vector elements into vD (R150) -/
  | vfma (h : Hdr) (d : BitVec 5) (a : BitVec 5) (b : BitVec 5) (fmt : BitVec 4) (x : Bool)
  /-- VMIN: Writes the elementwise minimum (R150) -/
  | vmin (h : Hdr) (d : BitVec 5) (a : BitVec 5) (b : BitVec 5) (fmt : BitVec 4)
  /-- VMAX: Writes the elementwise maximum (R150) -/
  | vmax (h : Hdr) (d : BitVec 5) (a : BitVec 5) (b : BitVec 5) (fmt : BitVec 4)
  /-- VABS: Writes the elementwise absolute value (R150) -/
  | vabs (h : Hdr) (d : BitVec 5) (a : BitVec 5) (fmt : BitVec 4)
  /-- VNEG: Writes the elementwise negation (R150) -/
  | vneg (h : Hdr) (d : BitVec 5) (a : BitVec 5) (fmt : BitVec 4)
  /-- VAND: ANDs whole 32-bit lanes (R151) -/
  | vand (h : Hdr) (d : BitVec 5) (a : BitVec 5) (b : BitVec 5)
  /-- VOR: ORs whole 32-bit lanes (R151) -/
  | vor (h : Hdr) (d : BitVec 5) (a : BitVec 5) (b : BitVec 5)
  /-- VXOR: Exclusive-ORs whole 32-bit lanes (R151) -/
  | vxor (h : Hdr) (d : BitVec 5) (a : BitVec 5) (b : BitVec 5)
  /-- VANDN: Writes lane AND NOT lane (R151) -/
  | vandn (h : Hdr) (d : BitVec 5) (a : BitVec 5) (b : BitVec 5)
  /-- VORN: Writes lane OR NOT lane (R151) -/
  | vorn (h : Hdr) (d : BitVec 5) (a : BitVec 5) (b : BitVec 5)
  /-- VXNOR: Writes the complement of lane XOR lane (R151) -/
  | vxnor (h : Hdr) (d : BitVec 5) (a : BitVec 5) (b : BitVec 5)
  /-- VSHL: Shifts lanes left by a register or immediate count (R151) -/
  | vshl (h : Hdr) (d : BitVec 5) (a : BitVec 5) (b : BitVec 5) (x : Bool)
  /-- VSHR: Shifts lanes right filling zeros (R151) -/
  | vshr (h : Hdr) (d : BitVec 5) (a : BitVec 5) (b : BitVec 5) (x : Bool)
  /-- VSAR: Shifts lanes right filling bit 31 (R151) -/
  | vsar (h : Hdr) (d : BitVec 5) (a : BitVec 5) (b : BitVec 5) (x : Bool)
  /-- VCMP: Compares elements and writes a lane mask (R152) -/
  | vcmp (h : Hdr) (c1 : Bool) (d : BitVec 4) (a : BitVec 5) (b : BitVec 5) (fmt : BitVec 4) (x : Bool)
  /-- VSEL: Merges lanes of vA into vD under a mask (R153) -/
  | vsel (h : Hdr) (d : BitVec 5) (a : BitVec 5) (mk : BitVec 4) (fmt : BitVec 4)
  /-- VMASK_POPC: Counts the set bits of a mask into a scalar (R154) -/
  | vmaskPopc (h : Hdr) (d : BitVec 5) (a : BitVec 4)
  /-- VMASK_FFS: Writes the index of the lowest set bit of a mask, or 128 (R154) -/
  | vmaskFfs (h : Hdr) (d : BitVec 5) (a : BitVec 4)
  /-- VMASK_TOV: Expands a mask into all-ones or zero lanes (R154) -/
  | vmaskTov (h : Hdr) (d : BitVec 5) (a : BitVec 4)
  /-- VMASK_FROMV: Forms a mask from bit 31 of each lane (R154) -/
  | vmaskFromv (h : Hdr) (d : BitVec 4) (a : BitVec 5)
  /-- VMASK_FROMP: Sets every bit of a mask from a predicate (R154) -/
  | vmaskFromp (h : Hdr) (d : BitVec 4) (a : BitVec 4)
  /-- VSWZ: Swizzles lanes by XOR with a constant (R155) -/
  | vswz (h : Hdr) (d : BitVec 5) (a : BitVec 5) (c : BitVec 5) (fmt : BitVec 4)
  /-- VPERM: Permutes lanes by an index vector, optionally zeroing (R155) -/
  | vperm (h : Hdr) (d : BitVec 5) (a : BitVec 5) (b : BitVec 5) (fmt : BitVec 4) (x : Bool)
  /-- VBC: Broadcasts a scalar to every lane or pair (R155) -/
  | vbc (h : Hdr) (d : BitVec 5) (a : BitVec 5) (fmt : BitVec 4)
  /-- VBC_LANE: Broadcasts one lane of a vector register selected by a scalar (R155) -/
  | vbcLane (h : Hdr) (d : BitVec 5) (a : BitVec 5) (b : BitVec 5) (fmt : BitVec 4)
  /-- VRSUM: Reduces active lanes by sum in a fixed tree into a scalar (R156) -/
  | vrsum (h : Hdr) (d : BitVec 5) (a : BitVec 5) (mk : BitVec 4) (fmt : BitVec 4)
  /-- VRMAX: Reduces active lanes by maximum into a scalar (R156) -/
  | vrmax (h : Hdr) (d : BitVec 5) (a : BitVec 5) (mk : BitVec 4) (fmt : BitVec 4)
  /-- VRMIN: Reduces active lanes by minimum into a scalar (R156) -/
  | vrmin (h : Hdr) (d : BitVec 5) (a : BitVec 5) (mk : BitVec 4) (fmt : BitVec 4)
  /-- VCVT: Converts FP32 lanes to another format with the given rounding (R159) -/
  | vcvt (h : Hdr) (d : BitVec 5) (a : BitVec 5) (rnd : BitVec 5) (fmt : BitVec 4)
  /-- VCVF: Converts lanes of a format to FP32 (R159) -/
  | vcvf (h : Hdr) (d : BitVec 5) (a : BitVec 5) (rnd : BitVec 5) (fmt : BitVec 4)
  /-- VSXP: Encodes FP32 lanes into SX blocks in lane form (R160) -/
  | vsxp (h : Hdr) (d : BitVec 5) (a : BitVec 5) (rnd : BitVec 5) (fmt : BitVec 4) (x : Bool)
  /-- VPLN_SPLIT: Writes one plane of a register's elements as its plane image (R161) -/
  | vplnSplit (h : Hdr) (d : BitVec 5) (a : BitVec 5) (b32 : Bool) (pl : BitVec 2) (fmt : BitVec 4)
  /-- VPLN_JOIN: Writes a plane image's fields into lane form, keeping other bits (R161) -/
  | vplnJoin (h : Hdr) (d : BitVec 5) (a : BitVec 5) (b32 : Bool) (pl : BitVec 2) (fmt : BitVec 4)
  /-- VDIV: Divides vector elements (R150) -/
  | vdiv (h : Hdr) (d : BitVec 5) (a : BitVec 5) (b : BitVec 5) (fmt : BitVec 4) (x : Bool)
  /-- VUPD: Applies an adaptive or momentum optimiser update to 128 weights and their moments (R165) -/
  | vupd (h : Hdr) (d : BitVec 5) (a : BitVec 5) (b : BitVec 5) (fmt : BitVec 4) (x : Bool)
  /-- VIDX: Writes an arithmetic sequence into the lanes (R163) -/
  | vidx (h : Hdr) (d : BitVec 5) (a : BitVec 5) (b : BitVec 5) (fmt : BitVec 4)
  /-- VDOT: Accumulates exact packed dot products per lane with one rounding (R157) -/
  | vdot (h : Hdr) (d : BitVec 5) (a : BitVec 5) (b : BitVec 5) (fmt : BitVec 4) (x : Bool)
  /-- VRND: Rounds elements to integral values (R162) -/
  | vrnd (h : Hdr) (d : BitVec 5) (a : BitVec 5) (rnd : BitVec 5) (fmt : BitVec 4)
  /-- VHASH: Evaluates the keyed random-bit mixer per lane (R164) -/
  | vhash (h : Hdr) (d : BitVec 5) (a : BitVec 5) (b : BitVec 5) (fmt : BitVec 4) (x : Bool)
  /-- XSIN: Computes sine per lane (R166) -/
  | xsin (h : Hdr) (d : BitVec 5) (a : BitVec 5) (fmt : BitVec 4)
  /-- XCOS: Computes cosine per lane (R166) -/
  | xcos (h : Hdr) (d : BitVec 5) (a : BitVec 5) (fmt : BitVec 4)
  /-- XEX2: Computes 2^x per lane (R166) -/
  | xex2 (h : Hdr) (d : BitVec 5) (a : BitVec 5) (fmt : BitVec 4)
  /-- XLG2: Computes log2 per lane (R166) -/
  | xlg2 (h : Hdr) (d : BitVec 5) (a : BitVec 5) (fmt : BitVec 4)
  /-- XRCP: Computes the reciprocal per lane (R166) -/
  | xrcp (h : Hdr) (d : BitVec 5) (a : BitVec 5) (fmt : BitVec 4)
  /-- XRSQ: Computes the reciprocal square root per lane (R166) -/
  | xrsq (h : Hdr) (d : BitVec 5) (a : BitVec 5) (fmt : BitVec 4)
  /-- XTANH: Computes tanh per lane (R166) -/
  | xtanh (h : Hdr) (d : BitVec 5) (a : BitVec 5) (fmt : BitVec 4)
  /-- XSIGM: Computes the sigmoid per lane (R166) -/
  | xsigm (h : Hdr) (d : BitVec 5) (a : BitVec 5) (fmt : BitVec 4)
  /-- XTRN: Transposes lanes as a rows-by-columns matrix (R155) -/
  | xtrn (h : Hdr) (d : BitVec 5) (a : BitVec 5) (cols : BitVec 3) (fmt : BitVec 4)
  /-- XCVT: Converts FP32 lanes into a governor entry's current format, optionally measuring the error (R167) -/
  | xcvt (h : Hdr) (d : BitVec 5) (a : BitVec 5) (b : BitVec 5) (fmt : BitVec 4) (x : Bool)
  /-- XCMP: Compresses a register into a zero-run chunk in a register pair (R170) -/
  | xcmp (h : Hdr) (d : BitVec 5) (a : BitVec 5) (fmt : BitVec 4)
  /-- XEXD: Expands a zero-run chunk from a register pair into lanes (R170) -/
  | xexd (h : Hdr) (d : BitVec 5) (a : BitVec 5)
  /-- MXLD: Fetches a stationary tile into a quire bank of the named panes (R178) -/
  | mxld (h : Hdr) (pnm : BitVec 4) (a : BitVec 5) (fmt : BitVec 4) (lc : BitVec 3) (gw : BitVec 2) (qb : Bool) (tr : Bool)
  /-- MXA: Queues a pane product of a moving tile from memory against a quire bank into an accumulator tile (R181) -/
  | mxa (h : Hdr) (z : BitVec 3) (a : BitVec 5) (b : BitVec 5) (fmt : BitVec 4) (qb : Bool) (rv : Bool) (zs : Bool)
  /-- MXAV: Queues a pane product of one moving row from a vector register (R181) -/
  | mxav (h : Hdr) (z : BitVec 3) (a : BitVec 5) (fmt : BitVec 4) (qb : Bool) (rv : Bool) (zs : Bool)
  /-- MXRD: Reads accumulators times the combined scale into a vector register, rounded once (R184) -/
  | mxrd (h : Hdr) (z : BitVec 3) (a : BitVec 5) (b : BitVec 5) (fmt : BitVec 4) (rnd : BitVec 3)
  /-- MXRK: Queues a rank-mode operation counting which scores beat each score (R182) -/
  | mxrk (h : Hdr) (z : BitVec 3) (a : BitVec 5) (b : BitVec 5) (fmt : BitVec 4) (zs : Bool)
  /-- MXPN_RD: Writes the pane grant word (R186) -/
  | mxpnRd (h : Hdr) (d : BitVec 5)
  /-- MXPN_CLAIM: Adds logical panes to the context's pending claim (R186) -/
  | mxpnClaim (h : Hdr) (d : BitVec 5) (mk : BitVec 4)
  /-- MXPN_REL: Returns granted panes to the core's pool (R186) -/
  | mxpnRel (h : Hdr) (d : BitVec 5) (mk : BitVec 4)
  /-- MXSV_SAVE: Writes an accumulator tile image to memory (R185) -/
  | mxsvSave (h : Hdr) (z : BitVec 3) (a : BitVec 5) (b : BitVec 5)
  /-- MXSV_LD: Restores an accumulator tile from an image and clears its poison (R185) -/
  | mxsvLd (h : Hdr) (z : BitVec 3) (a : BitVec 5) (b : BitVec 5)
  /-- MXSV_ST: Writes the status word of an accumulator tile (R185) -/
  | mxsvSt (h : Hdr) (z : BitVec 3) (d : BitVec 5)
  /-- GOV_POL: Loads the governor policy block of the process (R188) -/
  | govPol (h : Hdr) (a : BitVec 5)
  /-- GOV_RD: Reads one word of a governor entry (R188) -/
  | govRd (h : Hdr) (d : BitVec 5) (a : BitVec 5) (b : BitVec 5)
  /-- GOV_SET: Sets a governor entry's format, bounds and mode at its effect cc (R188) -/
  | govSet (h : Hdr) (a : BitVec 5) (b : BitVec 5)
  /-- GOV_CLR: Clears a governor entry's accumulators and hysteresis count (R188) -/
  | govClr (h : Hdr) (a : BitVec 5)
  /-- GMEAS_MB: Adds a micro-batch gradient measurement to a layer (R189) -/
  | gmeasMb (h : Hdr) (a : BitVec 5) (b : BitVec 5)
  /-- GMEAS_TOT: Adds a total-gradient measurement to a layer (R189) -/
  | gmeasTot (h : Hdr) (a : BitVec 5) (b : BitVec 5)
  /-- GSTEP: Examines a range of governor entries and widens or narrows formats at its effect cc (R190) -/
  | gstep (h : Hdr) (d : BitVec 5) (a : BitVec 5) (b : BitVec 5)
  /-- QPUSH: Reserves space and withholds a push of sA onto a queue (R226) -/
  | qpush (h : Hdr) (a : BitVec 5) (b : BitVec 5) (eos : Bool)
  /-- QPUSH_FWD: Reserves space and withholds a push of a head's latched element onto a queue (R226) -/
  | qpushFwd (h : Hdr) (k : BitVec 2) (b : BitVec 5)
  /-- QBIND: Binds a queue head to a queue (R227) -/
  | qbind (h : Hdr) (k : BitVec 2) (a : BitVec 5)
  /-- QUNBIND: Ends a queue head's binding at the next release (R227) -/
  | qunbind (h : Hdr) (k : BitVec 2)
  /-- QRD: Reads the data of a head's latched element (R227) -/
  | qrd (h : Hdr) (d : BitVec 5) (k : BitVec 2)
  /-- QSTAT: Reads a head's latch, EOS and available count (R227) -/
  | qstat (h : Hdr) (d : BitVec 5) (k : BitVec 2)
  /-- WOP: Waits until a well role's count reaches CNT (R232) -/
  | wop (h : Hdr) (w : BitVec 4) (cnt : BitVec 6) (lim : BitVec 10)
  /-- WADV: Waits for CNT slots and advances the well role's pointer (R232) -/
  | wadv (h : Hdr) (w : BitVec 4) (cnt : BitVec 6) (lim : BitVec 10)
  /-- WBIND_C: Binds a well handle to a well's consumer role (R231) -/
  | wbindC (h : Hdr) (k : BitVec 4) (a : BitVec 5) (sp : BitVec 2)
  /-- WBIND_P: Binds a well handle to a well's producer role (R231) -/
  | wbindP (h : Hdr) (k : BitVec 4) (a : BitVec 5) (sp : BitVec 2)
  /-- WUNBIND: Ends a well handle's binding at the next release (R231) -/
  | wunbind (h : Hdr) (k : BitVec 4)
  /-- WSTAT: Reads a well role's own pointer and count (R231) -/
  | wstat (h : Hdr) (d : BitVec 5) (k : BitVec 4)
  /-- WADDR: Reads the address of the slot at the role's own pointer (R231) -/
  | waddr (h : Hdr) (d : BitVec 5) (k : BitVec 4)
  /-- MXSC: Loads a scale pair and sets the combined scale of the named panes when it lands (R183) -/
  | mxsc (h : Hdr) (pnm : BitVec 4) (a : BitVec 5) (lc : BitVec 3) (sp : BitVec 2)
  /-- BANK_ACQ: Waits for and acquires a mask of pad banks for the task (R234) -/
  | bankAcq (h : Hdr) (a : BitVec 5) (b : BitVec 5)
  /-- BANK_REL: Gives up pad banks once the checkpoint's pad stores have performed (R234) -/
  | bankRel (h : Hdr) (a : BitVec 5)
  /-- BANK_RD: Reads the banks owned by the task and by no task (R234) -/
  | bankRd (h : Hdr) (d : BitVec 5)
  /-- ATOM_SWAP: Atomically swaps a datum, performing at release (R235) -/
  | atomSwap (h : Hdr) (d : BitVec 5) (a : BitVec 5) (lc : BitVec 3) (sp : BitVec 2) (w4 : Bool)
  /-- ATOM_ADD: Atomically adds to a datum (R235) -/
  | atomAdd (h : Hdr) (d : BitVec 5) (a : BitVec 5) (lc : BitVec 3) (sp : BitVec 2) (w4 : Bool)
  /-- ATOM_AND: Atomically ANDs into a datum (R235) -/
  | atomAnd (h : Hdr) (d : BitVec 5) (a : BitVec 5) (lc : BitVec 3) (sp : BitVec 2) (w4 : Bool)
  /-- ATOM_OR: Atomically ORs into a datum (R235) -/
  | atomOr (h : Hdr) (d : BitVec 5) (a : BitVec 5) (lc : BitVec 3) (sp : BitVec 2) (w4 : Bool)
  /-- ATOM_XOR: Atomically exclusive-ORs into a datum (R235) -/
  | atomXor (h : Hdr) (d : BitVec 5) (a : BitVec 5) (lc : BitVec 3) (sp : BitVec 2) (w4 : Bool)
  /-- ATOM_MIN: Atomically takes the signed minimum (R235) -/
  | atomMin (h : Hdr) (d : BitVec 5) (a : BitVec 5) (lc : BitVec 3) (sp : BitVec 2) (w4 : Bool)
  /-- ATOM_MAX: Atomically takes the signed maximum (R235) -/
  | atomMax (h : Hdr) (d : BitVec 5) (a : BitVec 5) (lc : BitVec 3) (sp : BitVec 2) (w4 : Bool)
  /-- ATOM_MINU: Atomically takes the unsigned minimum (R235) -/
  | atomMinu (h : Hdr) (d : BitVec 5) (a : BitVec 5) (lc : BitVec 3) (sp : BitVec 2) (w4 : Bool)
  /-- ATOM_MAXU: Atomically takes the unsigned maximum (R235) -/
  | atomMaxu (h : Hdr) (d : BitVec 5) (a : BitVec 5) (lc : BitVec 3) (sp : BitVec 2) (w4 : Bool)
  /-- ATOM_CAS: Atomically compares and swaps a datum (R235) -/
  | atomCas (h : Hdr) (d : BitVec 5) (a : BitVec 5) (lc : BitVec 3) (sp : BitVec 2) (w4 : Bool)
  /-- ATOM_FADD: Atomically adds a floating-point value, rounded to nearest even (R235) -/
  | atomFadd (h : Hdr) (d : BitVec 5) (a : BitVec 5) (lc : BitVec 3) (sp : BitVec 2) (w4 : Bool)
  /-- BAR_ARR: Arrives at a barrier object at release (R238) -/
  | barArr (h : Hdr) (a : BitVec 5) (b : BitVec 5) (sc : BitVec 3)
  /-- BAR_SYNC: Arrives at a barrier object and waits for the round to complete (R238) -/
  | barSync (h : Hdr) (a : BitVec 5) (b : BitVec 5) (sc : BitVec 3)
  /-- BAR_WT: Waits until a barrier object's ROUNDS differs from a value (R238) -/
  | barWt (h : Hdr) (a : BitVec 5) (b : BitVec 5) (sc : BitVec 3)
  /-- DRAIN: Waits until every released effect has performed at the scope and counts failed remote effects (R239) -/
  | drain (h : Hdr) (d : BitVec 5) (sc : BitVec 3)
  /-- RTE_CLM: Claims slots at a claim object on the die at release; the grant lands in lc7 (R242) -/
  | rteClm (h : Hdr) (d : BitVec 5) (a : BitVec 5) (b : BitVec 5)
  /-- RTE_SND: Sends a 512-byte token to a claim object at release, for admission or refusal (R242) -/
  | rteSnd (h : Hdr) (vs : BitVec 5) (a : BitVec 5) (b : BitVec 5)
  /-- EVT_SIG: Withholds an addition of n to a cluster semaphore (R240) -/
  | evtSig (h : Hdr) (a : BitVec 5)
  /-- EVT_WAIT: Waits until an own-cluster semaphore reaches n and reserves n (R240) -/
  | evtWait (h : Hdr) (a : BitVec 5) (b : BitVec 5)
  /-- EVT_RD: Reads an own-cluster semaphore (R240) -/
  | evtRd (h : Hdr) (d : BitVec 5) (a : BitVec 5)
  /-- TASK: Reads a task descriptor and header, selects a variant and starts or refuses the task (R192) -/
  | task (h : Hdr) (d : BitVec 5) (a : BitVec 5)
  /-- DSPJ: Selects a bucket schedule from a dispatch table and jumps to it (R244) -/
  | dspj (h : Hdr) (d : BitVec 5) (a : BitVec 5) (b : BitVec 5)
  /-- CTX_RD: Reads one item of a target context (R289) -/
  | ctxRd (h : Hdr) (d : BitVec 5) (a : BitVec 5) (b : BitVec 5)
  /-- CTX_WR: Writes one item of a stopped target context (R289) -/
  | ctxWr (h : Hdr) (d : BitVec 5) (a : BitVec 5) (b : BitVec 5)
  /-- CSV_SAVE: Saves a stopped context's image to memory (R290) -/
  | csvSave (h : Hdr) (a : BitVec 5) (b : BitVec 5)
  /-- CSV_LD: Restores a saved image into a free hardware context, which becomes stopped (R290) -/
  | csvLd (h : Hdr) (a : BitVec 5) (b : BitVec 5)
  /-- CSV_FREE: Frees a stopped context, returning its panes and unbinding its heads and wells (R290) -/
  | csvFree (h : Hdr) (a : BitVec 5)
  /-- CSV_END: Removes a saved member from its task (R290) -/
  | csvEnd (h : Hdr) (b : BitVec 5)
  /-- TRET: Makes a stopped target context waiting, to resume at its recorded address (R291) -/
  | tret (h : Hdr) (a : BitVec 5)
  /-- TLBI_ALL: Invalidates all translations of the die or package (R292) -/
  | tlbiAll (h : Hdr) (pkg : Bool)
  /-- TLBI_VF: Invalidates the translations of one virtual function (R292) -/
  | tlbiVf (h : Hdr) (a : BitVec 5) (pkg : Bool)
  /-- TLBI_PG: Invalidates one virtual function's translation of one page (R292) -/
  | tlbiPg (h : Hdr) (a : BitVec 5) (b : BitVec 5) (pkg : Bool)
  /-- MON_CFG: Configures and clears a monitor counter (R293) -/
  | monCfg (h : Hdr) (a : BitVec 5) (b : BitVec 5)
  /-- MON_RD: Reads a monitor counter or histogram bin (R293) -/
  | monRd (h : Hdr) (d : BitVec 5) (a : BitVec 5)
  /-- MON_CLR: Clears a monitor counter (R293) -/
  | monClr (h : Hdr) (a : BitVec 5)
  /-- WSW_OUT: Stops every context of a virtual function and saves its monitor state (R294) -/
  | wswOut (h : Hdr) (a : BitVec 5) (b : BitVec 5)
  /-- WSW_IN: Loads a virtual function's monitor state (R294) -/
  | wswIn (h : Hdr) (a : BitVec 5) (b : BitVec 5)
  /-- DBG_STEP: Lets a stopped target pass one boundary (R295) -/
  | dbgStep (h : Hdr) (a : BitVec 5)
  /-- DBG_STOP: Requests a stop of a running target at its next boundary (R295) -/
  | dbgStop (h : Hdr) (a : BitVec 5)
  /-- DBG_BRK: Sets a breakpoint address of a target (R295) -/
  | dbgBrk (h : Hdr) (a : BitVec 5) (b : BitVec 5)
  /-- CFG_RD: Reads a configuration register (R296) -/
  | cfgRd (h : Hdr) (d : BitVec 5) (a : BitVec 5) (b : BitVec 5)
  /-- CFG_WR: Writes a configuration register that has no behaviour of its own (R296) -/
  | cfgWr (h : Hdr) (d : BitVec 5) (a : BitVec 5) (b : BitVec 5)
  /-- SCRIBE: A command processor's CFG write of a cluster's SCRIBE register starts that scribe at the named bundle (R249) -/
  | scribe
  /-- GOVTAB_ASSIGN: A CFG write assigns a governor table to a process and initialises its entries (R209) -/
  | govtabAssign
  /-- GOVTAB_RELEASE: A CFG write releases a governor table from a process (R207) -/
  | govtabRelease
  /-- QRES_BRING_IN: A CFG write makes a queue resident on a home cluster (R263) -/
  | qresBringIn
  /-- QRES_TAKE_OUT: A CFG write makes a queue non-resident unless it is pinned, bound or reserved (R263) -/
  | qresTakeOut
  /-- RELEASED_EFFECT_PERFORM: A released effect leaves the release queue and performs at its target (R120) -/
  | releasedEffectPerform
  /-- LOAD_LANDING: A load's data arrives in the landing buffer, ending any freeze waiting on it or raising its fault (R90) -/
  | loadLanding
  /-- DEFERRED_TRAP: A cause raised by an engine is taken by its starting context at its next boundary (R268) -/
  | deferredTrap
  /-- BOUNDARY_STOP: A requested stop takes effect at the context's next boundary without rollback (R366) -/
  | boundaryStop
  /-- BOUNDED_WAIT_EXPIRY: A bounded wait's count reaches its limit and the context traps with the wait's cause (R218) -/
  | boundedWaitExpiry
  /-- LAUNCH_ORDER_WAIT: An ORD wait expires the cc after every earlier incomplete task has raised 0x75, trapping with 0x38 (R251) -/
  | launchOrderWait
  /-- PANE_OPERATION_START: A pane operation starts at its scheduled start and copies its target tile into the shadow (R180) -/
  | paneOperationStart
  /-- PANE_OPERATION_COMPLETE: A pane operation completes and its tile becomes readable (R175) -/
  | paneOperationComplete
  /-- PANE_REPLAY: After a successful walk the pane restores its shadow and replays the operation (R202) -/
  | paneReplay
  /-- PANE_FETCH_FAILURE: A failed operand fetch restores the shadow, abandons queued operations and traps the context (R180) -/
  | paneFetchFailure
  /-- PANE_GRANT: Each cc the scribe grants free panes to pending claims in strict order (R206) -/
  | paneGrant
  /-- REENCODE_START: A re-encode of a stale region starts once bounded leases no longer cover it, or fails on other leases (R215) -/
  | reencodeStart
  /-- REENCODE_END: A re-encode writes every plane and tag of the region in the new encoding after 512 × P cc (R214) -/
  | reencodeEnd
  /-- REENCODE_FAILURE: A re-encode stops before any write and its waiting touches fail with 0x42 (R216) -/
  | reencodeFailure
  /-- GSTEP_EFFECT: At its effect cc a GSTEP applies all its format changes and clears accumulators (R190) -/
  | gstepEffect
  /-- GOV_EFFECT: At its effect cc a GOV set or clr changes the entry on every die's copy (R187) -/
  | govEffect
  /-- BANK_GIVE_UP: Released banks become acquirable after the releasing checkpoint's pad stores have performed (R262) -/
  | bankGiveUp
  /-- TASK_READY: A started task's contexts become ready 16 cc after TASK (R251) -/
  | taskReady
  /-- TASK_COMPLETE: A task completes when its last context's HALT release has performed (R251) -/
  | taskComplete
  /-- BUDGET_EXPIRED: The task clock first exceeds the budget and event 0x75 is raised (R254) -/
  | budgetExpired
  /-- YIELD_OVERRUN: A context front for YQ cc without a yield raises event 0x77 (R257) -/
  | yieldOverrun
  /-- COPY_LINE_WRITE: A copy channel writes one destination line and advances its well pointer (R273) -/
  | copyLineWrite
  /-- COPY_CHANNEL_COMPLETE: A copy channel completes, signals its semaphore and arrives at its barrier (R269) -/
  | copyChannelComplete
  /-- COPY_CHANNEL_HALT: A copy channel halts on a fault and raises a deferred trap (R276) -/
  | copyChannelHalt
  /-- CARVE_MOVE_END: A vault carve move ends after 16,384 × k + 64 cc and signals its semaphore (R277) -/
  | carveMoveEnd
  /-- RANGE_INVALIDATION_END: Every core in scope has purged the range and the barrier arrival is made (R278) -/
  | rangeInvalidationEnd
  /-- COLLECTIVE_CHUNK: A collective chunk arrives from the predecessor and is folded or written (R349) -/
  | collectiveChunk
  /-- COLLECTIVE_COMPLETE: A member's collective completes with the reduced buffers, purged L1 lines, signal and arrival (R282) -/
  | collectiveComplete
  /-- COLLECTIVE_HALT_NOTICE: A member receiving a halt notice halts with the same cause and passes the notice on (R282) -/
  | collectiveHaltNotice
  /-- RING_CHUNK: The ring engine takes a ring semaphore count and moves one chunk to the successor (R284) -/
  | ringChunk
  /-- RING_CHUNK_RECEIVE: The successor writes or folds a ring chunk and raises its ring semaphore (R284) -/
  | ringChunkReceive
  /-- WALKER_CYCLE: Each cc the idle walker tests its current entry and issues it or counts a bubble (R336) -/
  | walkerCycle
  /-- WALKER_ENTRY_COMPLETE: When an entry's tasks all complete the walker frees stash slots, sends free-slot updates and checks the budget (R338) -/
  | walkerEntryComplete
  /-- WELL_PUSH_LINE: A fabric well push line is written and advances PLINE and PPTR (R347) -/
  | wellPushLine
  /-- FREE_SLOT_UPDATE: A free-slot update from downstream adds to DSFREE (R340) -/
  | freeSlotUpdate
  /-- MIRROR_REQUEST: A mirror request is answered with the minimum free slots of the named well (R340) -/
  | mirrorRequest
  /-- MIRROR_REPLY: A mirror reply sets DSFREE and lets a pending stab.go perform (R341) -/
  | mirrorReply
  /-- CLAIM_SEND: A sent token reaches its claim object and is admitted into a slot or refused (R242) -/
  | claimSend
  /-- CLAIM_GRANT: A claim reaches its object and is granted a range of slots, landing in lc7 (R242) -/
  | claimGrant
  /-- ROUTE_REFUSAL: A refusal returns to the sender, is pushed to its refusal queue and raises event 0x64 (R242) -/
  | routeRefusal
  /-- STASH_REQUEST: A peer receives a stash request and grants or refuses a held slot (R343) -/
  | stashRequest
  /-- STASH_GRANT: A stash grant arrives and lets the pending push issue (R343) -/
  | stashGrant
  /-- STASH_REFUSAL: A stash refusal raises event 0x43 and leaves the push pending (R344) -/
  | stashRefusal
  /-- STASH_RELEASE: A peer frees a slot held for a peer (R343) -/
  | stashRelease
  /-- REMOTE_READ: A remote read performs as a strong access at the target (R347) -/
  | remoteRead
  /-- REMOTE_WRITE: A remote write performs as a strong access at the target or is refused (R347) -/
  | remoteWrite
  /-- REMOTE_RESPONSE: A remote response arrives at the requester (R347) -/
  | remoteResponse
  /-- LINK_FAILURE: The transport detects a lost route and fails its unacknowledged messages (R407) -/
  | linkFailure
  /-- MESSAGE_FAILURE: A semantic message fails and its sender is told with cause 0x44 or 0x21 (R407) -/
  | messageFailure
  /-- PAGE_TABLE_WALK: A translation walk completes, installs a translation or fails with its cause (R385) -/
  | pageTableWalk
  /-- L1_EVICTION: An L1 evicts a line at any time, writing its dirty bytes back to the home (R299) -/
  | l1Eviction
  /-- MEMORY_ERROR_DETECT: A stored word's code corrects a single-bit error or marks an uncorrectable word poisoned (R315) -/
  | memoryErrorDetect
  /-- ERROR_REPORT: A merged uncorrectable-error report is delivered as notice 0x54 and to owners' mailboxes (R380) -/
  | errorReport
  /-- NOTICE_DELIVERY: A notice is written to the scribe's notice well, a CPRING or a mailbox (R370) -/
  | noticeDelivery
  /-- STREAM_WAKE: A waiting command processor issues its next bundle the second cc after a tail write places it below the tail (R247) -/
  | streamWake
  /-- TAIL: The host writes a die's tail register; lower values are ignored (R247) -/
  | tail
  /-- STREAM: The host writes a stopped command processor's stream address, setting its HEAD and TAIL (R399) -/
  | stream
  /-- CPCTL_RUN: The host writes a CPCTL run bit to start or resume a command processor (R400) -/
  | cpctlRun
  /-- CPCTL_STOP: The host writes a CPCTL stop bit to stop a command processor at its next boundary (R400) -/
  | cpctlStop
  /-- QUIESCE_REQUEST: The host requests a quiesce that stops every command processor, context and walker (R398) -/
  | quiesceRequest
  /-- QUIESCE_WITHDRAW: The host withdraws a quiesce, clearing both bits once quiesced and otherwise being ignored (R400) -/
  | quiesceWithdraw
  /-- QUIESCE_COMPLETE: Every stop of a quiesce has taken effect and QUIESCE[1] reads 1 (R398) -/
  | quiesceComplete
  /-- HOST_REGISTER_WRITE: The host writes a PF or VF window register that has no behaviour of its own (R394) -/
  | hostRegisterWrite
  /-- FUNCTION_LEVEL_RESET: A VF's Function Level Reset stops and frees its contexts, removes its tasks and clears its mailbox (R398) -/
  | functionLevelReset
  /-- POWER_ON_RESET: Power-on resets the package fully and the boot ROM reads the firmware image (R389) -/
  | powerOnReset
  /-- BOOT_VERIFICATION: The boot ROM verifies the firmware signature and version, runs the firmware or stops with BOOTSTAT 3 (R402) -/
  | bootVerification
  /-- POWER_REMOVAL: Removing host power loses every state except fuses and boot flash (R389) -/
  | powerRemoval
  /-- THERMAL_WARNING: A die above 95 °C raises a thermal warning to the PF mailbox and sideband (R391) -/
  | thermalWarning
  /-- THERMTRIP: A die at 115 °C asserts THERMTRIP# (R391) -/
  | thermtrip
  /-- GET_VERSION: The SPDM responder answers GET_VERSION (R403) -/
  | getVersion
  /-- GET_CAPABILITIES: The SPDM responder answers GET_CAPABILITIES (R403) -/
  | getCapabilities
  /-- NEGOTIATE_ALGORITHMS: The SPDM responder offers only RSASSA-PSS 3072 and SHA-256 (R403) -/
  | negotiateAlgorithms
  /-- GET_DIGESTS: The SPDM responder returns the digests of certificate slot 0 (R403) -/
  | getDigests
  /-- GET_CERTIFICATE: The SPDM responder returns the slot-0 certificate chain (R403) -/
  | getCertificate
  /-- CHALLENGE: The SPDM responder answers a challenge signed with the identity key (R403) -/
  | challenge
  /-- GET_MEASUREMENTS: The SPDM responder returns the signed measurements (R404) -/
  | getMeasurements
  /-- UNSUPPORTED_REQUEST: Any other SPDM request is answered with ERROR UnsupportedRequest (R403) -/
  | unsupportedRequest
  /-- INSTRUCTION_STORE_FILL: A code line needed for issue arrives in the core's instruction store and ends the context's fetch freeze (R300) -/
  | instructionStoreFill
  /-- LINK_RETURN: A fabric port's link comes back up and its link state in FABCNT changes, while halted channels and failed messages stay as they were (R394) -/
  | linkReturn
  /-- SIDEBAND_REFRESH: Every 1 ms the die temperatures, rail currents and package power that the sideband reports are refreshed (R401) -/
  | sidebandRefresh
  deriving DecidableEq, Repr

end Sys2Proof
end

