-- ==== Sys2Proof/WellFormed.lean ====
section
/-!
DEFINITION. Well-formed instructions: which combinations of fields the spec reserves (trap 0x02), which format codes a family
does not accept (trap 0x07).
Rules: 02 R35, R36; 04 R68, R80-R83, R86, R89; 07 R128; 08 R147; 09 R171, R173; 12 R223; 15 R270, R278.
-/

namespace Sys2Proof

/-- Why an instruction is not well-formed: a reserved combination (0x02), or a format its family does not accept (0x07). -/
inductive Illness where
  | reserved
  | format
  deriving DecidableEq, Repr

namespace Fmt
/-! Format codes (03 R52). -/
abbrev fp32 : BitVec 4 := 0x0
abbrev bf16 : BitVec 4 := 0x1
abbrev fp16 : BitVec 4 := 0x2
abbrev fp8e4 : BitVec 4 := 0x3
abbrev fp8e5 : BitVec 4 := 0x4
abbrev fp6 : BitVec 4 := 0x5
abbrev sx8 : BitVec 4 := 0x6
abbrev sx5 : BitVec 4 := 0x7
abbrev sx3 : BitVec 4 := 0x8
abbrev i8 : BitVec 4 := 0x9
abbrev i4 : BitVec 4 := 0xA
abbrev i16 : BitVec 4 := 0xB
abbrev i32 : BitVec 4 := 0xC
abbrev fp64 : BitVec 4 := 0xD

/-- Not a reserved code (02 R36). -/
def any (f : BitVec 4) : Bool := f.toNat < 14
/-- FP: FP32, BF16, FP16 and FP64 (08 R147). -/
def fp (f : BitVec 4) : Bool := f == fp32 || f == bf16 || f == fp16 || f == fp64
/-- INT: INT32, INT16 and INT8 (08 R147). -/
def int (f : BitVec 4) : Bool := f == i32 || f == i16 || f == i8
def fpInt (f : BitVec 4) : Bool := fp f || int f
/-- The lane-moving families (08 R147). -/
def lane (f : BitVec 4) : Bool := f == fp32 || f == fp64
/-- The SX family (03 R58). -/
def sx (f : BitVec 4) : Bool := f == sx8 || f == sx5 || f == sx3
/-- The transform functions and VUPD (08 R147). -/
def xfn (f : BitVec 4) : Bool := f == fp32 || f == bf16 || f == fp16
/-- VIDX (08 R147). -/
def idx (f : BitVec 4) : Bool := f == fp32 || f == i32 || f == fp64
/-- VDOT (08 R147). -/
def dot (f : BitVec 4) : Bool := f == bf16 || f == fp16 || f == fp8e4 || f == fp8e5 || f == i16 || f == i8 || f == i4
/-- The ladder of the governor (01 R18; 09 R188). -/
def ladder (f : BitVec 4) : Bool := sx f || f == fp16
/-- Element formats of 32, 16 or 8 bits (04 R95; 08 R170). -/
def chunk (f : BitVec 4) : Bool :=
  f == fp32 || f == i32 || f == bf16 || f == fp16 || f == i16 || f == fp8e4 || f == fp8e5 || f == i8
/-- STVS (04 R95). -/
def stvs (f : BitVec 4) : Bool := chunk f || f == fp64
/-- Operand formats of the panes: those with a gang (09 R171). -/
def gang (f : BitVec 4) : Bool := any f && f != fp32 && f != i32 && f != fp64
/-- Destination formats of MXRD (09 R184). -/
def rd (f : BitVec 4) : Bool := any f && !sx f
/-- Own gang of a format: 1 the 2-bit, 2 the 4-bit, 3 the 8-bit, 4 the 16-bit gang (09 R171). -/
def gangOf (f : BitVec 4) : Nat :=
  if f == fp16 || f == i16 then 4 else if f == sx8 || f == i8 || f == bf16 then 3 else if f == sx3 then 1 else 2
/-- Planes that a format uses (03 R60). -/
def plane (f : BitVec 4) (p : BitVec 2) : Bool :=
  any f && (p == 0 || (p == 1 && (f == fp6 || f == sx5 || f == sx3)) || (p.toNat ≥ 2 && sx f))
end Fmt

/-- Reserved rounding fields: 0b00100 to 0b01111 (07 R128). -/
def rndReserved (r : BitVec 5) : Bool := 4 ≤ r.toNat && r.toNat < 16
/-- A stochastic rounding field (07 R128). -/
def rndStochastic (r : BitVec 5) : Bool := 16 ≤ r.toNat
/-- A pair write into f0 or f1 (02 R36). -/
def pairReserved (pw : Bool) (fd : BitVec 4) : Bool := pw && fd.toNat < 2
/-- Special register numbers that are assigned (04 R86). -/
def srAssigned (n : BitVec 10) : Bool :=
  let k := n.toNat
  k ≤ 0x012 || (0x018 ≤ k && k ≤ 0x01D) || (0x020 ≤ k && k ≤ 0x02F) || (0x030 ≤ k && k ≤ 0x032)
    || (0x034 ≤ k && k ≤ 0x037)

/-- First illness of a list of checks, reserved combinations before formats (02 R30). -/
def firstIll (res fmt : Bool) : Option Illness :=
  if res then some .reserved else if fmt then some .format else none
/-- The illness of an instruction taken by itself, if any. -/
def Instr.ill : Instr → Option Illness
  | .next _ => none
  | .br _ _ => none
  | .bru _ _ _ _ => none
  | .jmpi _ _ => none
  | .call _ _ => none
  | .calli _ _ => none
  | .ret _ => none
  | .loop _ _ => none
  | .loopPipe _ _ _ => none
  | .sloop _ _ _ => none
  | .lclose _ => none
  | .lexit _ _ => none
  | .halt _ => none
  | .trapi _ _ => none
  | .bkpt _ _ => none
  | .add _ _ _ _ => none
  | .addSs _ _ _ _ => none
  | .addUs _ _ _ _ => none
  | .addW _ _ _ _ => none
  | .sub _ _ _ _ => none
  | .subSs _ _ _ _ => none
  | .subUs _ _ _ _ => none
  | .subW _ _ _ _ => none
  | .addi _ _ _ _ => none
  | .mul _ _ _ _ => none
  | .mulh _ _ _ _ => none
  | .mulhU _ _ _ _ => none
  | .div _ _ _ _ => none
  | .divU _ _ _ _ => none
  | .divRem _ _ _ _ => none
  | .divURem _ _ _ _ => none
  | .and _ _ _ _ => none
  | .or _ _ _ _ => none
  | .xor _ _ _ _ => none
  | .andn _ _ _ _ => none
  | .orn _ _ _ _ => none
  | .xnor _ _ _ _ => none
  | .shl _ _ _ _ => none
  | .shr _ _ _ _ => none
  | .sar _ _ _ _ => none
  | .ror _ _ _ _ => none
  | .shli _ _ _ _ => none
  | .shri _ _ _ _ => none
  | .sari _ _ _ _ => none
  | .rori _ _ _ _ => none
  | .min _ _ _ _ => none
  | .max _ _ _ _ => none
  | .minu _ _ _ _ => none
  | .maxu _ _ _ _ => none
  | .popc _ _ _ => none
  | .clz _ _ _ => none
  | .ctz _ _ _ => none
  | .bitrev _ _ _ => none
  | .byterev _ _ _ => none
  | .fld _ _ _ ins sg sz pos => firstIll (sz == 3 || (ins && sg) || decide (pos.toNat + 8 * 2 ^ sz.toNat > 64)) false
  | .movi _ _ _ => none
  | .movhi _ _ _ => none
  | .lea _ _ _ _ _ => none
  | .sel _ _ _ _ _ => none
  | .cmp _ fd _ _ cc pw => firstIll (decide (12 ≤ cc.toNat) || pairReserved pw fd) false
  | .cmpi _ fd _ cc pw _ => firstIll (decide (12 ≤ cc.toNat) || pairReserved pw fd) false
  | .plog _ fd _ _ _ pw mkx => firstIll (if mkx then pw else pairReserved pw fd) false
  | .pmov _ fd a cc pw => firstIll (decide (5 ≤ cc.toNat) || (decide (cc.toNat < 2) && decide (16 ≤ a.toNat)) || pairReserved pw fd) false
  | .fadd _ _ _ _ _ _ => none
  | .fsub _ _ _ _ _ _ => none
  | .fmul _ _ _ _ _ _ => none
  | .ffma _ _ _ _ _ _ => none
  | .fmin _ _ _ _ _ _ => none
  | .fmax _ _ _ _ _ _ => none
  | .fcmp _ fd _ _ _ _ pw => firstIll (pairReserved pw fd) false
  | .ficvt _ _ _ _ => none
  | .fcvti _ _ _ _ => none
  | .fwiden _ _ _ => none
  | .fnarrow _ _ _ => none
  | .rdsr _ _ num => firstIll (!srAssigned num) false
  | .wrsr _ _ num => firstIll (!srAssigned num) false
  | .lds _ _ _ _ _ _ => none
  | .ldsp _ d _ _ _ _ => firstIll (d.toNat % 2 == 1) false
  | .ldsv _ _ _ _ _ _ => none
  | .sts _ _ _ _ _ => none
  | .ldv _ _ _ _ _ _ => none
  | .ldvs _ _ _ _ _ => none
  | .ldvx _ _ _ _ _ _ => none
  | .stv _ _ _ _ _ => none
  | .stvs _ _ _ _ fmt _ => firstIll false (!Fmt.stvs fmt)
  | .stvx _ _ _ _ _ => none
  | .pref _ _ _ _ => none
  | .chk _ _ _ => none
  | .chkVec _ _ _ => none
  | .cpchGo _ _ _ => none
  | .cpchSt _ _ _ => none
  | .cpchStop _ _ => none
  | .memcPhase _ _ _ => none
  | .memcRinv _ _ _ _ sc => firstIll (decide (5 ≤ sc.toNat)) false
  | .memcCreg _ _ _ => none
  | .memcCerr _ _ _ => none
  | .coll _ _ => none
  | .ring _ _ => none
  | .rsemRd _ _ _ => none
  | .rsemSet _ _ _ => none
  | .rsemAdd _ _ _ => none
  | .stabWr _ _ _ => none
  | .stabRd _ _ _ _ => none
  | .stabGo _ _ => none
  | .stabStop _ => none
  | .stabReg _ _ _ => none
  | .stabLink _ _ _ => none
  | .stabClr _ => none
  | .vadd _ _ _ _ fmt _ => firstIll false (!Fmt.fpInt fmt)
  | .vsub _ _ _ _ fmt _ => firstIll false (!Fmt.fpInt fmt)
  | .vmul _ _ _ _ fmt _ => firstIll false (!Fmt.fpInt fmt)
  | .vfma _ _ _ _ fmt _ => firstIll false (!Fmt.fpInt fmt)
  | .vmin _ _ _ _ fmt => firstIll false (!Fmt.fpInt fmt)
  | .vmax _ _ _ _ fmt => firstIll false (!Fmt.fpInt fmt)
  | .vabs _ _ _ fmt => firstIll false (!Fmt.fpInt fmt)
  | .vneg _ _ _ fmt => firstIll false (!Fmt.fpInt fmt)
  | .vand _ _ _ _ => none
  | .vor _ _ _ _ => none
  | .vxor _ _ _ _ => none
  | .vandn _ _ _ _ => none
  | .vorn _ _ _ _ => none
  | .vxnor _ _ _ _ => none
  | .vshl _ _ _ _ _ => none
  | .vshr _ _ _ _ _ => none
  | .vsar _ _ _ _ _ => none
  | .vcmp _ _ _ _ _ fmt _ => firstIll false (!Fmt.fpInt fmt)
  | .vsel _ _ _ _ fmt => firstIll false (!Fmt.lane fmt)
  | .vmaskPopc _ _ _ => none
  | .vmaskFfs _ _ _ => none
  | .vmaskTov _ _ _ => none
  | .vmaskFromv _ _ _ => none
  | .vmaskFromp _ _ _ => none
  | .vswz _ _ _ _ fmt => firstIll false (!Fmt.lane fmt)
  | .vperm _ _ _ _ fmt _ => firstIll false (!Fmt.lane fmt)
  | .vbc _ _ _ fmt => firstIll false (!Fmt.lane fmt)
  | .vbcLane _ _ _ _ fmt => firstIll false (!Fmt.lane fmt)
  | .vrsum _ _ _ _ fmt => firstIll false (!Fmt.fpInt fmt)
  | .vrmax _ _ _ _ fmt => firstIll false (!Fmt.fpInt fmt)
  | .vrmin _ _ _ _ fmt => firstIll false (!Fmt.fpInt fmt)
  | .vcvt _ _ _ rnd fmt => firstIll (rndReserved rnd || (rndStochastic rnd && fmt == Fmt.fp64)) (!Fmt.any fmt || Fmt.sx fmt)
  | .vcvf _ _ _ rnd fmt => firstIll (rndReserved rnd) (!Fmt.any fmt)
  | .vsxp _ _ _ rnd fmt _ => firstIll (rndReserved rnd) (!Fmt.sx fmt)
  | .vplnSplit _ _ _ b32 pl fmt => firstIll (Fmt.any fmt && (!Fmt.plane fmt pl || (b32 && !Fmt.sx fmt))) (!Fmt.any fmt)
  | .vplnJoin _ _ _ b32 pl fmt => firstIll (Fmt.any fmt && (!Fmt.plane fmt pl || (b32 && !Fmt.sx fmt))) (!Fmt.any fmt)
  | .vdiv _ _ _ _ fmt _ => firstIll false (!Fmt.fpInt fmt)
  | .vupd _ d _ b fmt _ => firstIll (decide (29 < d.toNat) || decide (28 < b.toNat)) (!Fmt.xfn fmt)
  | .vidx _ _ _ _ fmt => firstIll false (!Fmt.idx fmt)
  | .vdot _ _ _ _ fmt _ => firstIll false (!Fmt.dot fmt)
  | .vrnd _ _ _ rnd fmt => firstIll (rndReserved rnd || (rndStochastic rnd && fmt == Fmt.fp64)) (!Fmt.fp fmt)
  | .vhash _ _ _ _ fmt _ => firstIll false (!Fmt.lane fmt)
  | .xsin _ _ _ fmt => firstIll false (!Fmt.xfn fmt)
  | .xcos _ _ _ fmt => firstIll false (!Fmt.xfn fmt)
  | .xex2 _ _ _ fmt => firstIll false (!Fmt.xfn fmt)
  | .xlg2 _ _ _ fmt => firstIll false (!Fmt.xfn fmt)
  | .xrcp _ _ _ fmt => firstIll false (!Fmt.xfn fmt)
  | .xrsq _ _ _ fmt => firstIll false (!Fmt.xfn fmt)
  | .xtanh _ _ _ fmt => firstIll false (!Fmt.xfn fmt)
  | .xsigm _ _ _ fmt => firstIll false (!Fmt.xfn fmt)
  | .xtrn _ _ _ cols fmt => firstIll (fmt == Fmt.fp64 && cols == 7) (!Fmt.lane fmt)
  | .xcvt _ _ _ _ fmt _ => firstIll false (!Fmt.ladder fmt)
  | .xcmp _ d _ fmt => firstIll (d.toNat % 2 == 1) (!Fmt.chunk fmt)
  | .xexd _ _ a => firstIll (a.toNat % 2 == 1) false
  | .mxld _ pnm a fmt _ gw _ _ => firstIll (a.toNat % 2 == 1 || pnm == 0 || (Fmt.gang fmt && gw != 0 && decide (gw.toNat + 1 < Fmt.gangOf fmt))) (!Fmt.gang fmt)
  | .mxa _ _ _ _ fmt _ _ _ => firstIll false (!Fmt.gang fmt)
  | .mxav _ _ _ fmt _ _ _ => firstIll false (!Fmt.gang fmt)
  | .mxrd _ _ _ _ fmt rnd => firstIll (decide (5 ≤ rnd.toNat) || (rnd == 4 && fmt == Fmt.fp64)) (!Fmt.rd fmt)
  | .mxrk _ _ _ _ fmt _ => firstIll false (!Fmt.xfn fmt)
  | .mxpnRd _ _ => none
  | .mxpnClaim _ _ _ => none
  | .mxpnRel _ _ _ => none
  | .mxsvSave _ _ _ _ => none
  | .mxsvLd _ _ _ _ => none
  | .mxsvSt _ _ _ => none
  | .govPol _ _ => none
  | .govRd _ _ _ _ => none
  | .govSet _ _ _ => none
  | .govClr _ _ => none
  | .gmeasMb _ _ _ => none
  | .gmeasTot _ _ _ => none
  | .gstep _ _ _ _ => none
  | .qpush _ _ _ _ => none
  | .qpushFwd _ _ _ => none
  | .qbind _ _ _ => none
  | .qunbind _ _ => none
  | .qrd _ _ _ => none
  | .qstat _ _ _ => none
  | .wop _ _ _ _ => none
  | .wadv _ _ _ _ => none
  | .wbindC _ _ _ sp => firstIll (decide (sp.toNat < 2)) false
  | .wbindP _ _ _ sp => firstIll (decide (sp.toNat < 2)) false
  | .wunbind _ _ => none
  | .wstat _ _ _ => none
  | .waddr _ _ _ => none
  | .mxsc _ pnm _ _ _ => firstIll (pnm == 0) false
  | .bankAcq _ _ _ => none
  | .bankRel _ _ => none
  | .bankRd _ _ => none
  | .atomSwap _ _ _ _ _ _ => none
  | .atomAdd _ _ _ _ _ _ => none
  | .atomAnd _ _ _ _ _ _ => none
  | .atomOr _ _ _ _ _ _ => none
  | .atomXor _ _ _ _ _ _ => none
  | .atomMin _ _ _ _ _ _ => none
  | .atomMax _ _ _ _ _ _ => none
  | .atomMinu _ _ _ _ _ _ => none
  | .atomMaxu _ _ _ _ _ _ => none
  | .atomCas _ d _ _ _ _ => firstIll (d.toNat % 2 == 1) false
  | .atomFadd _ _ _ _ _ _ => none
  | .barArr _ _ _ sc => firstIll (decide (6 ≤ sc.toNat)) false
  | .barSync _ _ _ sc => firstIll (decide (6 ≤ sc.toNat)) false
  | .barWt _ _ _ sc => firstIll (decide (6 ≤ sc.toNat)) false
  | .drain _ _ sc => firstIll (decide (6 ≤ sc.toNat)) false
  | .rteClm _ _ _ _ => none
  | .rteSnd _ _ _ _ => none
  | .evtSig _ _ => none
  | .evtWait _ _ _ => none
  | .evtRd _ _ _ => none
  | .task _ _ _ => none
  | .dspj _ _ _ _ => none
  | .ctxRd _ _ _ _ => none
  | .ctxWr _ _ _ _ => none
  | .csvSave _ _ _ => none
  | .csvLd _ _ _ => none
  | .csvFree _ _ => none
  | .csvEnd _ _ => none
  | .tret _ _ => none
  | .tlbiAll _ _ => none
  | .tlbiVf _ _ _ => none
  | .tlbiPg _ _ _ _ => none
  | .monCfg _ _ _ => none
  | .monRd _ _ _ => none
  | .monClr _ _ => none
  | .wswOut _ _ _ => none
  | .wswIn _ _ _ => none
  | .dbgStep _ _ => none
  | .dbgStop _ _ => none
  | .dbgBrk _ _ _ => none
  | .cfgRd _ _ _ _ => none
  | .cfgWr _ _ _ _ => none
  | .scribe => none
  | .govtabAssign => none
  | .govtabRelease => none
  | .qresBringIn => none
  | .qresTakeOut => none
  | .releasedEffectPerform => none
  | .loadLanding => none
  | .deferredTrap => none
  | .boundaryStop => none
  | .boundedWaitExpiry => none
  | .launchOrderWait => none
  | .paneOperationStart => none
  | .paneOperationComplete => none
  | .paneReplay => none
  | .paneFetchFailure => none
  | .paneGrant => none
  | .reencodeStart => none
  | .reencodeEnd => none
  | .reencodeFailure => none
  | .gstepEffect => none
  | .govEffect => none
  | .bankGiveUp => none
  | .taskReady => none
  | .taskComplete => none
  | .budgetExpired => none
  | .yieldOverrun => none
  | .copyLineWrite => none
  | .copyChannelComplete => none
  | .copyChannelHalt => none
  | .carveMoveEnd => none
  | .rangeInvalidationEnd => none
  | .collectiveChunk => none
  | .collectiveComplete => none
  | .collectiveHaltNotice => none
  | .ringChunk => none
  | .ringChunkReceive => none
  | .walkerCycle => none
  | .walkerEntryComplete => none
  | .wellPushLine => none
  | .freeSlotUpdate => none
  | .mirrorRequest => none
  | .mirrorReply => none
  | .claimSend => none
  | .claimGrant => none
  | .routeRefusal => none
  | .stashRequest => none
  | .stashGrant => none
  | .stashRefusal => none
  | .stashRelease => none
  | .remoteRead => none
  | .remoteWrite => none
  | .remoteResponse => none
  | .linkFailure => none
  | .messageFailure => none
  | .pageTableWalk => none
  | .l1Eviction => none
  | .memoryErrorDetect => none
  | .errorReport => none
  | .noticeDelivery => none
  | .streamWake => none
  | .tail => none
  | .stream => none
  | .cpctlRun => none
  | .cpctlStop => none
  | .quiesceRequest => none
  | .quiesceWithdraw => none
  | .quiesceComplete => none
  | .hostRegisterWrite => none
  | .functionLevelReset => none
  | .powerOnReset => none
  | .bootVerification => none
  | .powerRemoval => none
  | .thermalWarning => none
  | .thermtrip => none
  | .getVersion => none
  | .getCapabilities => none
  | .negotiateAlgorithms => none
  | .getDigests => none
  | .getCertificate => none
  | .challenge => none
  | .getMeasurements => none
  | .unsupportedRequest => none
  | .instructionStoreFill => none
  | .linkReturn => none
  | .sidebandRefresh => none

/-- An instruction that no check of this file refuses. -/
def Instr.wf (i : Instr) : Bool := i.ill.isNone

end Sys2Proof
end

