-- ==== Sys2Proof/Decode.lean ====
section
/-!
DEFINITION. The decoder and the encoder of slot words (02 R31, R34, R35, R37; 04 R68; 08 R147; 09 R173; 12 R223; 15 R270).
`decode` is total: it refuses by name a word whose OP value is unassigned, a word with a reserved field that is not zero,
and an operation code that a family does not list. Combinations of fields that the spec reserves, and format codes that a family does not
accept, are left to `Instr.ill` (WellFormed), in the order of 02 R30.
-/

namespace Sys2Proof

/-- Why a word decodes to no instruction (02 R38, R35; 08 R148). -/
inductive DecodeErr where
  | unassigned
  | reserved
  | badFormat
  deriving DecidableEq, Repr

/-- The field of `n` bits whose lowest bit is bit `lo` (02 R34). -/
def fld (n lo x : Nat) : BitVec n := BitVec.ofNat n (x / 2 ^ lo)
/-- The single bit `lo`. -/
def flag (lo x : Nat) : Bool := x / 2 ^ lo % 2 == 1
/-- The header of a non-lead slot word (02 R31). -/
def hdrOf (w : Nat) : Hdr := { stop := flag 31 w, g := fld 4 20 w }
/-- The header of a lead slot word (02 R34, CF forms). -/
def lhdrOf (w : Nat) : LHdr :=
  { stop := flag 31 w, g := fld 4 20 w, pm := fld 4 16 w, ck := flag 15 w, y := flag 14 w, hint := flag 13 w }

/-- OP 0x00: NEXT. -/
def decodeOp00 (h : LHdr) (x : Nat) : Except DecodeErr Instr :=
  if x / 2 ^ 0 % 2 ^ 13 = 0 then .ok (.next h) else
  .error .reserved

/-- OP 0x01: BR. -/
def decodeOp01 (h : LHdr) (x : Nat) : Except DecodeErr Instr :=
  .ok (.br h (fld 13 0 x))

/-- OP 0x02: BRU. -/
def decodeOp02 (h : LHdr) (x : Nat) : Except DecodeErr Instr :=
  .ok (.bru h (fld 4 9 x) (flag 8 x) (fld 8 0 x))

/-- OP 0x03: JMPI. -/
def decodeOp03 (h : LHdr) (x : Nat) : Except DecodeErr Instr :=
  if x / 2 ^ 0 % 2 ^ 8 = 0 then .ok (.jmpi h (fld 5 8 x)) else
  .error .reserved

/-- OP 0x04: CALL. -/
def decodeOp04 (h : LHdr) (x : Nat) : Except DecodeErr Instr :=
  .ok (.call h (fld 13 0 x))

/-- OP 0x05: CALLI. -/
def decodeOp05 (h : LHdr) (x : Nat) : Except DecodeErr Instr :=
  if x / 2 ^ 0 % 2 ^ 8 = 0 then .ok (.calli h (fld 5 8 x)) else
  .error .reserved

/-- OP 0x06: RET. -/
def decodeOp06 (h : LHdr) (x : Nat) : Except DecodeErr Instr :=
  if x / 2 ^ 0 % 2 ^ 13 = 0 then .ok (.ret h) else
  .error .reserved

/-- OP 0x07: LOOP, LOOP_PIPE. -/
def decodeOp07 (h : LHdr) (x : Nat) : Except DecodeErr Instr :=
  if x / 2 ^ 0 % 2 ^ 8 = 0 then .ok (.loop h (fld 5 8 x)) else
  if x / 2 ^ 0 % 2 ^ 3 = 1 then .ok (.loopPipe h (fld 5 8 x) (fld 5 3 x)) else
  .error .reserved

/-- OP 0x08: SLOOP. -/
def decodeOp08 (h : LHdr) (x : Nat) : Except DecodeErr Instr :=
  if x / 2 ^ 0 % 2 ^ 3 = 0 ∧ x / 2 ^ 10 % 2 ^ 3 = 0 then .ok (.sloop h (fld 2 8 x) (fld 5 3 x)) else
  .error .reserved

/-- OP 0x09: LCLOSE. -/
def decodeOp09 (h : LHdr) (x : Nat) : Except DecodeErr Instr :=
  if x / 2 ^ 0 % 2 ^ 13 = 0 then .ok (.lclose h) else
  .error .reserved

/-- OP 0x0A: LEXIT. -/
def decodeOp0A (h : LHdr) (x : Nat) : Except DecodeErr Instr :=
  .ok (.lexit h (fld 13 0 x))

/-- OP 0x0B: HALT. -/
def decodeOp0B (h : LHdr) (x : Nat) : Except DecodeErr Instr :=
  if x / 2 ^ 0 % 2 ^ 13 = 0 then .ok (.halt h) else
  .error .reserved

/-- OP 0x0C: TRAPI. -/
def decodeOp0C (h : LHdr) (x : Nat) : Except DecodeErr Instr :=
  .ok (.trapi h (fld 13 0 x))

/-- OP 0x0D: BKPT. -/
def decodeOp0D (h : LHdr) (x : Nat) : Except DecodeErr Instr :=
  .ok (.bkpt h (fld 13 0 x))

/-- OP 0x10: ADD, ADD_SS, ADD_US, ADD_W. -/
def decodeOp10 (h : Hdr) (x : Nat) : Except DecodeErr Instr :=
  if x / 2 ^ 0 % 2 ^ 5 = 0 then .ok (.add h (fld 5 15 x) (fld 5 10 x) (fld 5 5 x)) else
  if x / 2 ^ 0 % 2 ^ 5 = 1 then .ok (.addSs h (fld 5 15 x) (fld 5 10 x) (fld 5 5 x)) else
  if x / 2 ^ 0 % 2 ^ 5 = 2 then .ok (.addUs h (fld 5 15 x) (fld 5 10 x) (fld 5 5 x)) else
  if x / 2 ^ 0 % 2 ^ 5 = 3 then .ok (.addW h (fld 5 15 x) (fld 5 10 x) (fld 5 5 x)) else
  .error .reserved

/-- OP 0x11: SUB, SUB_SS, SUB_US, SUB_W. -/
def decodeOp11 (h : Hdr) (x : Nat) : Except DecodeErr Instr :=
  if x / 2 ^ 0 % 2 ^ 5 = 0 then .ok (.sub h (fld 5 15 x) (fld 5 10 x) (fld 5 5 x)) else
  if x / 2 ^ 0 % 2 ^ 5 = 1 then .ok (.subSs h (fld 5 15 x) (fld 5 10 x) (fld 5 5 x)) else
  if x / 2 ^ 0 % 2 ^ 5 = 2 then .ok (.subUs h (fld 5 15 x) (fld 5 10 x) (fld 5 5 x)) else
  if x / 2 ^ 0 % 2 ^ 5 = 3 then .ok (.subW h (fld 5 15 x) (fld 5 10 x) (fld 5 5 x)) else
  .error .reserved

/-- OP 0x12: ADDI. -/
def decodeOp12 (h : Hdr) (x : Nat) : Except DecodeErr Instr :=
  .ok (.addi h (fld 5 15 x) (fld 5 10 x) (fld 10 0 x))

/-- OP 0x13: MUL. -/
def decodeOp13 (h : Hdr) (x : Nat) : Except DecodeErr Instr :=
  if x / 2 ^ 0 % 2 ^ 5 = 0 then .ok (.mul h (fld 5 15 x) (fld 5 10 x) (fld 5 5 x)) else
  .error .reserved

/-- OP 0x14: MULH, MULH_U. -/
def decodeOp14 (h : Hdr) (x : Nat) : Except DecodeErr Instr :=
  if x / 2 ^ 0 % 2 ^ 5 = 0 then .ok (.mulh h (fld 5 15 x) (fld 5 10 x) (fld 5 5 x)) else
  if x / 2 ^ 0 % 2 ^ 5 = 1 then .ok (.mulhU h (fld 5 15 x) (fld 5 10 x) (fld 5 5 x)) else
  .error .reserved

/-- OP 0x15: DIV, DIV_U, DIV_REM, DIV_U_REM. -/
def decodeOp15 (h : Hdr) (x : Nat) : Except DecodeErr Instr :=
  if x / 2 ^ 0 % 2 ^ 5 = 0 then .ok (.div h (fld 5 15 x) (fld 5 10 x) (fld 5 5 x)) else
  if x / 2 ^ 0 % 2 ^ 5 = 1 then .ok (.divU h (fld 5 15 x) (fld 5 10 x) (fld 5 5 x)) else
  if x / 2 ^ 0 % 2 ^ 5 = 2 then .ok (.divRem h (fld 5 15 x) (fld 5 10 x) (fld 5 5 x)) else
  if x / 2 ^ 0 % 2 ^ 5 = 3 then .ok (.divURem h (fld 5 15 x) (fld 5 10 x) (fld 5 5 x)) else
  .error .reserved

/-- OP 0x16: AND, OR, XOR, ANDN, ORN, XNOR. -/
def decodeOp16 (h : Hdr) (x : Nat) : Except DecodeErr Instr :=
  if x / 2 ^ 0 % 2 ^ 5 = 0 then .ok (.and h (fld 5 15 x) (fld 5 10 x) (fld 5 5 x)) else
  if x / 2 ^ 0 % 2 ^ 5 = 1 then .ok (.or h (fld 5 15 x) (fld 5 10 x) (fld 5 5 x)) else
  if x / 2 ^ 0 % 2 ^ 5 = 2 then .ok (.xor h (fld 5 15 x) (fld 5 10 x) (fld 5 5 x)) else
  if x / 2 ^ 0 % 2 ^ 5 = 3 then .ok (.andn h (fld 5 15 x) (fld 5 10 x) (fld 5 5 x)) else
  if x / 2 ^ 0 % 2 ^ 5 = 4 then .ok (.orn h (fld 5 15 x) (fld 5 10 x) (fld 5 5 x)) else
  if x / 2 ^ 0 % 2 ^ 5 = 5 then .ok (.xnor h (fld 5 15 x) (fld 5 10 x) (fld 5 5 x)) else
  .error .reserved

/-- OP 0x17: SHL, SHR, SAR, ROR. -/
def decodeOp17 (h : Hdr) (x : Nat) : Except DecodeErr Instr :=
  if x / 2 ^ 0 % 2 ^ 5 = 0 then .ok (.shl h (fld 5 15 x) (fld 5 10 x) (fld 5 5 x)) else
  if x / 2 ^ 0 % 2 ^ 5 = 1 then .ok (.shr h (fld 5 15 x) (fld 5 10 x) (fld 5 5 x)) else
  if x / 2 ^ 0 % 2 ^ 5 = 2 then .ok (.sar h (fld 5 15 x) (fld 5 10 x) (fld 5 5 x)) else
  if x / 2 ^ 0 % 2 ^ 5 = 3 then .ok (.ror h (fld 5 15 x) (fld 5 10 x) (fld 5 5 x)) else
  .error .reserved

/-- OP 0x18: SHLI, SHRI, SARI, RORI. -/
def decodeOp18 (h : Hdr) (x : Nat) : Except DecodeErr Instr :=
  if x / 2 ^ 6 % 2 ^ 4 = 0 then .ok (.shli h (fld 5 15 x) (fld 5 10 x) (fld 6 0 x)) else
  if x / 2 ^ 6 % 2 ^ 4 = 1 then .ok (.shri h (fld 5 15 x) (fld 5 10 x) (fld 6 0 x)) else
  if x / 2 ^ 6 % 2 ^ 4 = 2 then .ok (.sari h (fld 5 15 x) (fld 5 10 x) (fld 6 0 x)) else
  if x / 2 ^ 6 % 2 ^ 4 = 3 then .ok (.rori h (fld 5 15 x) (fld 5 10 x) (fld 6 0 x)) else
  .error .reserved

/-- OP 0x19: MIN, MAX, MINU, MAXU. -/
def decodeOp19 (h : Hdr) (x : Nat) : Except DecodeErr Instr :=
  if x / 2 ^ 0 % 2 ^ 5 = 0 then .ok (.min h (fld 5 15 x) (fld 5 10 x) (fld 5 5 x)) else
  if x / 2 ^ 0 % 2 ^ 5 = 1 then .ok (.max h (fld 5 15 x) (fld 5 10 x) (fld 5 5 x)) else
  if x / 2 ^ 0 % 2 ^ 5 = 2 then .ok (.minu h (fld 5 15 x) (fld 5 10 x) (fld 5 5 x)) else
  if x / 2 ^ 0 % 2 ^ 5 = 3 then .ok (.maxu h (fld 5 15 x) (fld 5 10 x) (fld 5 5 x)) else
  .error .reserved

/-- OP 0x1A: POPC, CLZ, CTZ, BITREV, BYTEREV. -/
def decodeOp1A (h : Hdr) (x : Nat) : Except DecodeErr Instr :=
  if x / 2 ^ 0 % 2 ^ 10 = 0 then .ok (.popc h (fld 5 15 x) (fld 5 10 x)) else
  if x / 2 ^ 0 % 2 ^ 10 = 1 then .ok (.clz h (fld 5 15 x) (fld 5 10 x)) else
  if x / 2 ^ 0 % 2 ^ 10 = 2 then .ok (.ctz h (fld 5 15 x) (fld 5 10 x)) else
  if x / 2 ^ 0 % 2 ^ 10 = 3 then .ok (.bitrev h (fld 5 15 x) (fld 5 10 x)) else
  if x / 2 ^ 0 % 2 ^ 10 = 4 then .ok (.byterev h (fld 5 15 x) (fld 5 10 x)) else
  .error .reserved

/-- OP 0x1B: FLD. -/
def decodeOp1B (h : Hdr) (x : Nat) : Except DecodeErr Instr :=
  .ok (.fld h (fld 5 15 x) (fld 5 10 x) (flag 9 x) (flag 8 x) (fld 2 6 x) (fld 6 0 x))

/-- OP 0x1C: MOVI. -/
def decodeOp1C (h : Hdr) (x : Nat) : Except DecodeErr Instr :=
  .ok (.movi h (fld 5 15 x) (fld 15 0 x))

/-- OP 0x1D: MOVHI. -/
def decodeOp1D (h : Hdr) (x : Nat) : Except DecodeErr Instr :=
  .ok (.movhi h (fld 5 15 x) (fld 15 0 x))

/-- OP 0x1E: LEA. -/
def decodeOp1E (h : Hdr) (x : Nat) : Except DecodeErr Instr :=
  if x / 2 ^ 3 % 2 ^ 2 = 0 then .ok (.lea h (fld 5 15 x) (fld 5 10 x) (fld 5 5 x) (fld 3 0 x)) else
  .error .reserved

/-- OP 0x1F: SEL. -/
def decodeOp1F (h : Hdr) (x : Nat) : Except DecodeErr Instr :=
  if x / 2 ^ 4 % 2 ^ 1 = 0 then .ok (.sel h (fld 5 15 x) (fld 5 10 x) (fld 5 5 x) (fld 4 0 x)) else
  .error .reserved

/-- OP 0x20: CMP. -/
def decodeOp20 (h : Hdr) (x : Nat) : Except DecodeErr Instr :=
  if x / 2 ^ 0 % 2 ^ 1 = 0 then .ok (.cmp h (fld 4 16 x) (fld 5 11 x) (fld 5 6 x) (fld 4 2 x) (flag 1 x)) else
  .error .reserved

/-- OP 0x21: CMPI. -/
def decodeOp21 (h : Hdr) (x : Nat) : Except DecodeErr Instr :=
  .ok (.cmpi h (fld 4 16 x) (fld 5 11 x) (fld 4 7 x) (flag 6 x) (fld 6 0 x))

/-- OP 0x22: PLOG. -/
def decodeOp22 (h : Hdr) (x : Nat) : Except DecodeErr Instr :=
  if x / 2 ^ 10 % 2 ^ 1 = 0 ∧ x / 2 ^ 15 % 2 ^ 1 = 0 then .ok (.plog h (fld 4 16 x) (fld 4 11 x) (fld 4 6 x) (fld 4 2 x) (flag 1 x) (flag 0 x)) else
  .error .reserved

/-- OP 0x23: PMOV. -/
def decodeOp23 (h : Hdr) (x : Nat) : Except DecodeErr Instr :=
  if x / 2 ^ 0 % 2 ^ 1 = 0 ∧ x / 2 ^ 6 % 2 ^ 5 = 0 then .ok (.pmov h (fld 4 16 x) (fld 5 11 x) (fld 4 2 x) (flag 1 x)) else
  .error .reserved

/-- OP 0x24: FADD, FSUB, FMUL, FFMA, FMIN, FMAX. -/
def decodeOp24 (h : Hdr) (x : Nat) : Except DecodeErr Instr :=
  if x / 2 ^ 0 % 2 ^ 3 = 0 then .ok (.fadd h (fld 5 15 x) (fld 5 10 x) (fld 5 5 x) (flag 4 x) (flag 3 x)) else
  if x / 2 ^ 0 % 2 ^ 3 = 1 then .ok (.fsub h (fld 5 15 x) (fld 5 10 x) (fld 5 5 x) (flag 4 x) (flag 3 x)) else
  if x / 2 ^ 0 % 2 ^ 3 = 2 then .ok (.fmul h (fld 5 15 x) (fld 5 10 x) (fld 5 5 x) (flag 4 x) (flag 3 x)) else
  if x / 2 ^ 0 % 2 ^ 3 = 3 then .ok (.ffma h (fld 5 15 x) (fld 5 10 x) (fld 5 5 x) (flag 4 x) (flag 3 x)) else
  if x / 2 ^ 0 % 2 ^ 3 = 4 then .ok (.fmin h (fld 5 15 x) (fld 5 10 x) (fld 5 5 x) (flag 4 x) (flag 3 x)) else
  if x / 2 ^ 0 % 2 ^ 3 = 5 then .ok (.fmax h (fld 5 15 x) (fld 5 10 x) (fld 5 5 x) (flag 4 x) (flag 3 x)) else
  .error .reserved

/-- OP 0x25: FCMP, FICVT, FCVTI, FWIDEN, FNARROW. -/
def decodeOp25 (h : Hdr) (x : Nat) : Except DecodeErr Instr :=
  if x / 2 ^ 0 % 2 ^ 1 = 0 then .ok (.fcmp h (fld 4 16 x) (fld 5 11 x) (fld 5 6 x) (flag 5 x) (fld 3 2 x) (flag 1 x)) else
  if x / 2 ^ 0 % 2 ^ 2 = 1 ∧ x / 2 ^ 3 % 2 ^ 8 = 0 then .ok (.ficvt h (fld 4 16 x) (fld 5 11 x) (flag 2 x)) else
  if x / 2 ^ 0 % 2 ^ 2 = 1 ∧ x / 2 ^ 3 % 2 ^ 8 = 1 then .ok (.fcvti h (fld 4 16 x) (fld 5 11 x) (flag 2 x)) else
  if x / 2 ^ 0 % 2 ^ 11 = 17 then .ok (.fwiden h (fld 4 16 x) (fld 5 11 x)) else
  if x / 2 ^ 0 % 2 ^ 11 = 21 then .ok (.fnarrow h (fld 4 16 x) (fld 5 11 x)) else
  .error .reserved

/-- OP 0x26: RDSR. -/
def decodeOp26 (h : Hdr) (x : Nat) : Except DecodeErr Instr :=
  if x / 2 ^ 10 % 2 ^ 5 = 0 then .ok (.rdsr h (fld 5 15 x) (fld 10 0 x)) else
  .error .reserved

/-- OP 0x27: WRSR. -/
def decodeOp27 (h : Hdr) (x : Nat) : Except DecodeErr Instr :=
  if x / 2 ^ 15 % 2 ^ 5 = 0 then .ok (.wrsr h (fld 5 10 x) (fld 10 0 x)) else
  .error .reserved

/-- OP 0x28: LDS. -/
def decodeOp28 (h : Hdr) (x : Nat) : Except DecodeErr Instr :=
  .ok (.lds h (fld 5 15 x) (fld 5 10 x) (fld 3 7 x) (fld 2 5 x) (fld 5 0 x))

/-- OP 0x29: LDSP. -/
def decodeOp29 (h : Hdr) (x : Nat) : Except DecodeErr Instr :=
  .ok (.ldsp h (fld 5 15 x) (fld 5 10 x) (fld 3 7 x) (fld 2 5 x) (fld 5 0 x))

/-- OP 0x2A: LDSV. -/
def decodeOp2A (h : Hdr) (x : Nat) : Except DecodeErr Instr :=
  .ok (.ldsv h (fld 5 15 x) (fld 5 10 x) (fld 3 7 x) (fld 2 5 x) (fld 5 0 x))

/-- OP 0x2B: STS. -/
def decodeOp2B (h : Hdr) (x : Nat) : Except DecodeErr Instr :=
  if x / 2 ^ 7 % 2 ^ 3 = 0 then .ok (.sts h (fld 5 15 x) (fld 5 10 x) (fld 2 5 x) (fld 5 0 x)) else
  .error .reserved

/-- OP 0x2C: LDV. -/
def decodeOp2C (h : Hdr) (x : Nat) : Except DecodeErr Instr :=
  .ok (.ldv h (fld 5 15 x) (fld 5 10 x) (fld 3 7 x) (fld 2 5 x) (fld 5 0 x))

/-- OP 0x2D: LDVS. -/
def decodeOp2D (h : Hdr) (x : Nat) : Except DecodeErr Instr :=
  if x / 2 ^ 5 % 2 ^ 2 = 2 then .ok (.ldvs h (fld 5 15 x) (fld 5 10 x) (fld 3 7 x) (fld 5 0 x)) else
  .error .reserved

/-- OP 0x2E: LDVX. -/
def decodeOp2E (h : Hdr) (x : Nat) : Except DecodeErr Instr :=
  .ok (.ldvx h (fld 5 15 x) (fld 5 10 x) (fld 3 7 x) (fld 2 5 x) (fld 5 0 x))

/-- OP 0x2F: STV. -/
def decodeOp2F (h : Hdr) (x : Nat) : Except DecodeErr Instr :=
  if x / 2 ^ 7 % 2 ^ 3 = 0 then .ok (.stv h (fld 5 15 x) (fld 5 10 x) (fld 2 5 x) (fld 5 0 x)) else
  .error .reserved

/-- OP 0x30: STVS. -/
def decodeOp30 (h : Hdr) (x : Nat) : Except DecodeErr Instr :=
  .ok (.stvs h (fld 5 15 x) (fld 5 10 x) (fld 4 6 x) (fld 4 2 x) (fld 2 0 x))

/-- OP 0x31: STVX. -/
def decodeOp31 (h : Hdr) (x : Nat) : Except DecodeErr Instr :=
  if x / 2 ^ 7 % 2 ^ 3 = 0 then .ok (.stvx h (fld 5 15 x) (fld 5 10 x) (fld 2 5 x) (fld 5 0 x)) else
  .error .reserved

/-- OP 0x32: PREF. -/
def decodeOp32 (h : Hdr) (x : Nat) : Except DecodeErr Instr :=
  if x / 2 ^ 5 % 2 ^ 5 = 0 ∧ x / 2 ^ 16 % 2 ^ 4 = 0 then .ok (.pref h (flag 15 x) (fld 5 10 x) (fld 5 0 x)) else
  .error .reserved

/-- OP 0x33: CHK, CHK_VEC. -/
def decodeOp33 (h : Hdr) (x : Nat) : Except DecodeErr Instr :=
  if x / 2 ^ 0 % 2 ^ 5 = 0 ∧ x / 2 ^ 15 % 2 ^ 5 = 0 then .ok (.chk h (fld 5 10 x) (fld 5 5 x)) else
  if x / 2 ^ 0 % 2 ^ 5 = 1 ∧ x / 2 ^ 15 % 2 ^ 5 = 0 then .ok (.chkVec h (fld 5 10 x) (fld 5 5 x)) else
  .error .reserved

/-- OP 0x34: CPCH_GO, CPCH_ST, CPCH_STOP. -/
def decodeOp34 (h : Hdr) (x : Nat) : Except DecodeErr Instr :=
  if x / 2 ^ 0 % 2 ^ 5 = 0 ∧ x / 2 ^ 15 % 2 ^ 5 = 0 then .ok (.cpchGo h (fld 5 10 x) (fld 5 5 x)) else
  if x / 2 ^ 0 % 2 ^ 10 = 1 then .ok (.cpchSt h (fld 5 15 x) (fld 5 10 x)) else
  if x / 2 ^ 0 % 2 ^ 10 = 2 ∧ x / 2 ^ 15 % 2 ^ 5 = 0 then .ok (.cpchStop h (fld 5 10 x)) else
  .error .reserved

/-- OP 0x35: MEMC_PHASE, MEMC_RINV, MEMC_CREG, MEMC_CERR. -/
def decodeOp35 (h : Hdr) (x : Nat) : Except DecodeErr Instr :=
  if x / 2 ^ 0 % 2 ^ 5 = 0 ∧ x / 2 ^ 15 % 2 ^ 5 = 0 then .ok (.memcPhase h (fld 5 10 x) (fld 5 5 x)) else
  if x / 2 ^ 0 % 2 ^ 2 = 1 then .ok (.memcRinv h (fld 5 15 x) (fld 5 10 x) (fld 5 5 x) (fld 3 2 x)) else
  if x / 2 ^ 0 % 2 ^ 5 = 2 ∧ x / 2 ^ 15 % 2 ^ 5 = 0 then .ok (.memcCreg h (fld 5 10 x) (fld 5 5 x)) else
  if x / 2 ^ 0 % 2 ^ 5 = 3 ∧ x / 2 ^ 15 % 2 ^ 5 = 0 then .ok (.memcCerr h (fld 5 10 x) (fld 5 5 x)) else
  .error .reserved

/-- OP 0x36: COLL, RING, RSEM_RD, RSEM_SET, RSEM_ADD. -/
def decodeOp36 (h : Hdr) (x : Nat) : Except DecodeErr Instr :=
  if x / 2 ^ 0 % 2 ^ 10 = 0 ∧ x / 2 ^ 15 % 2 ^ 5 = 0 then .ok (.coll h (fld 5 10 x)) else
  if x / 2 ^ 0 % 2 ^ 10 = 1 ∧ x / 2 ^ 15 % 2 ^ 5 = 0 then .ok (.ring h (fld 5 10 x)) else
  if x / 2 ^ 0 % 2 ^ 10 = 2 then .ok (.rsemRd h (fld 5 15 x) (fld 5 10 x)) else
  if x / 2 ^ 0 % 2 ^ 5 = 6 ∧ x / 2 ^ 15 % 2 ^ 5 = 0 then .ok (.rsemSet h (fld 5 10 x) (fld 5 5 x)) else
  if x / 2 ^ 0 % 2 ^ 5 = 10 ∧ x / 2 ^ 15 % 2 ^ 5 = 0 then .ok (.rsemAdd h (fld 5 10 x) (fld 5 5 x)) else
  .error .reserved

/-- OP 0x37: STAB_WR, STAB_RD, STAB_GO, STAB_STOP, STAB_REG, STAB_LINK, STAB_CLR. -/
def decodeOp37 (h : Hdr) (x : Nat) : Except DecodeErr Instr :=
  if x / 2 ^ 0 % 2 ^ 5 = 0 ∧ x / 2 ^ 15 % 2 ^ 5 = 0 then .ok (.stabWr h (fld 5 10 x) (fld 5 5 x)) else
  if x / 2 ^ 0 % 2 ^ 5 = 1 then .ok (.stabRd h (fld 5 15 x) (fld 5 10 x) (fld 5 5 x)) else
  if x / 2 ^ 0 % 2 ^ 10 = 2 ∧ x / 2 ^ 15 % 2 ^ 5 = 0 then .ok (.stabGo h (fld 5 10 x)) else
  if x / 2 ^ 0 % 2 ^ 20 = 3 then .ok (.stabStop h) else
  if x / 2 ^ 0 % 2 ^ 10 = 4 then .ok (.stabReg h (fld 5 15 x) (fld 5 10 x)) else
  if x / 2 ^ 0 % 2 ^ 5 = 5 ∧ x / 2 ^ 15 % 2 ^ 5 = 0 then .ok (.stabLink h (fld 5 10 x) (fld 5 5 x)) else
  if x / 2 ^ 0 % 2 ^ 20 = 6 then .ok (.stabClr h) else
  .error .reserved

/-- OP 0x38: VADD. -/
def decodeOp38 (h : Hdr) (x : Nat) : Except DecodeErr Instr :=
  .ok (.vadd h (fld 5 15 x) (fld 5 10 x) (fld 5 5 x) (fld 4 1 x) (flag 0 x))

/-- OP 0x39: VSUB. -/
def decodeOp39 (h : Hdr) (x : Nat) : Except DecodeErr Instr :=
  .ok (.vsub h (fld 5 15 x) (fld 5 10 x) (fld 5 5 x) (fld 4 1 x) (flag 0 x))

/-- OP 0x3A: VMUL. -/
def decodeOp3A (h : Hdr) (x : Nat) : Except DecodeErr Instr :=
  .ok (.vmul h (fld 5 15 x) (fld 5 10 x) (fld 5 5 x) (fld 4 1 x) (flag 0 x))

/-- OP 0x3B: VFMA. -/
def decodeOp3B (h : Hdr) (x : Nat) : Except DecodeErr Instr :=
  .ok (.vfma h (fld 5 15 x) (fld 5 10 x) (fld 5 5 x) (fld 4 1 x) (flag 0 x))

/-- OP 0x3C: VMIN, VMAX. -/
def decodeOp3C (h : Hdr) (x : Nat) : Except DecodeErr Instr :=
  if x / 2 ^ 0 % 2 ^ 1 = 0 then .ok (.vmin h (fld 5 15 x) (fld 5 10 x) (fld 5 5 x) (fld 4 1 x)) else
  if x / 2 ^ 0 % 2 ^ 1 = 1 then .ok (.vmax h (fld 5 15 x) (fld 5 10 x) (fld 5 5 x) (fld 4 1 x)) else
  .error .reserved

/-- OP 0x3D: VABS, VNEG. -/
def decodeOp3D (h : Hdr) (x : Nat) : Except DecodeErr Instr :=
  if x / 2 ^ 0 % 2 ^ 1 = 0 ∧ x / 2 ^ 5 % 2 ^ 5 = 0 then .ok (.vabs h (fld 5 15 x) (fld 5 10 x) (fld 4 1 x)) else
  if x / 2 ^ 0 % 2 ^ 1 = 1 ∧ x / 2 ^ 5 % 2 ^ 5 = 0 then .ok (.vneg h (fld 5 15 x) (fld 5 10 x) (fld 4 1 x)) else
  .error .reserved

/-- OP 0x3E: VAND, VOR, VXOR, VANDN, VORN, VXNOR. -/
def decodeOp3E (h : Hdr) (x : Nat) : Except DecodeErr Instr :=
  if x / 2 ^ 0 % 2 ^ 5 = 0 then .ok (.vand h (fld 5 15 x) (fld 5 10 x) (fld 5 5 x)) else
  if x / 2 ^ 0 % 2 ^ 5 = 2 then .ok (.vor h (fld 5 15 x) (fld 5 10 x) (fld 5 5 x)) else
  if x / 2 ^ 0 % 2 ^ 5 = 4 then .ok (.vxor h (fld 5 15 x) (fld 5 10 x) (fld 5 5 x)) else
  if x / 2 ^ 0 % 2 ^ 5 = 6 then .ok (.vandn h (fld 5 15 x) (fld 5 10 x) (fld 5 5 x)) else
  if x / 2 ^ 0 % 2 ^ 5 = 8 then .ok (.vorn h (fld 5 15 x) (fld 5 10 x) (fld 5 5 x)) else
  if x / 2 ^ 0 % 2 ^ 5 = 10 then .ok (.vxnor h (fld 5 15 x) (fld 5 10 x) (fld 5 5 x)) else
  if x % 2 = 0 then .error .badFormat else .error .reserved

/-- OP 0x3F: VSHL, VSHR, VSAR. -/
def decodeOp3F (h : Hdr) (x : Nat) : Except DecodeErr Instr :=
  if x / 2 ^ 1 % 2 ^ 4 = 0 then .ok (.vshl h (fld 5 15 x) (fld 5 10 x) (fld 5 5 x) (flag 0 x)) else
  if x / 2 ^ 1 % 2 ^ 4 = 1 then .ok (.vshr h (fld 5 15 x) (fld 5 10 x) (fld 5 5 x) (flag 0 x)) else
  if x / 2 ^ 1 % 2 ^ 4 = 2 then .ok (.vsar h (fld 5 15 x) (fld 5 10 x) (fld 5 5 x) (flag 0 x)) else
  .error .badFormat

/-- OP 0x40: VCMP. -/
def decodeOp40 (h : Hdr) (x : Nat) : Except DecodeErr Instr :=
  .ok (.vcmp h (flag 19 x) (fld 4 15 x) (fld 5 10 x) (fld 5 5 x) (fld 4 1 x) (flag 0 x))

/-- OP 0x41: VSEL. -/
def decodeOp41 (h : Hdr) (x : Nat) : Except DecodeErr Instr :=
  if x / 2 ^ 0 % 2 ^ 1 = 0 ∧ x / 2 ^ 9 % 2 ^ 1 = 0 then .ok (.vsel h (fld 5 15 x) (fld 5 10 x) (fld 4 5 x) (fld 4 1 x)) else
  .error .reserved

/-- OP 0x42: VMASK_POPC, VMASK_FFS, VMASK_TOV, VMASK_FROMV, VMASK_FROMP. -/
def decodeOp42 (h : Hdr) (x : Nat) : Except DecodeErr Instr :=
  if x / 2 ^ 0 % 2 ^ 10 = 0 ∧ x / 2 ^ 14 % 2 ^ 1 = 0 then .ok (.vmaskPopc h (fld 5 15 x) (fld 4 10 x)) else
  if x / 2 ^ 0 % 2 ^ 10 = 2 ∧ x / 2 ^ 14 % 2 ^ 1 = 0 then .ok (.vmaskFfs h (fld 5 15 x) (fld 4 10 x)) else
  if x / 2 ^ 0 % 2 ^ 10 = 4 ∧ x / 2 ^ 14 % 2 ^ 1 = 0 then .ok (.vmaskTov h (fld 5 15 x) (fld 4 10 x)) else
  if x / 2 ^ 0 % 2 ^ 10 = 6 ∧ x / 2 ^ 19 % 2 ^ 1 = 0 then .ok (.vmaskFromv h (fld 4 15 x) (fld 5 10 x)) else
  if x / 2 ^ 0 % 2 ^ 10 = 8 ∧ x / 2 ^ 14 % 2 ^ 1 = 0 ∧ x / 2 ^ 19 % 2 ^ 1 = 0 then .ok (.vmaskFromp h (fld 4 15 x) (fld 4 10 x)) else
  if x % 2 = 0 ∧ x / 2 ^ 5 % 2 ^ 5 = 0 ∧ 5 ≤ x / 2 % 16 then .error .badFormat else .error .reserved

/-- OP 0x43: VSWZ. -/
def decodeOp43 (h : Hdr) (x : Nat) : Except DecodeErr Instr :=
  if x / 2 ^ 0 % 2 ^ 1 = 0 then .ok (.vswz h (fld 5 15 x) (fld 5 10 x) (fld 5 5 x) (fld 4 1 x)) else
  .error .reserved

/-- OP 0x44: VPERM. -/
def decodeOp44 (h : Hdr) (x : Nat) : Except DecodeErr Instr :=
  .ok (.vperm h (fld 5 15 x) (fld 5 10 x) (fld 5 5 x) (fld 4 1 x) (flag 0 x))

/-- OP 0x45: VBC, VBC_LANE. -/
def decodeOp45 (h : Hdr) (x : Nat) : Except DecodeErr Instr :=
  if x / 2 ^ 0 % 2 ^ 1 = 0 ∧ x / 2 ^ 5 % 2 ^ 5 = 0 then .ok (.vbc h (fld 5 15 x) (fld 5 10 x) (fld 4 1 x)) else
  if x / 2 ^ 0 % 2 ^ 1 = 1 then .ok (.vbcLane h (fld 5 15 x) (fld 5 10 x) (fld 5 5 x) (fld 4 1 x)) else
  .error .reserved

/-- OP 0x46: VRSUM, VRMAX, VRMIN. -/
def decodeOp46 (h : Hdr) (x : Nat) : Except DecodeErr Instr :=
  if x / 2 ^ 0 % 2 ^ 1 = 0 ∧ x / 2 ^ 9 % 2 ^ 1 = 0 then .ok (.vrsum h (fld 5 15 x) (fld 5 10 x) (fld 4 5 x) (fld 4 1 x)) else
  if x / 2 ^ 0 % 2 ^ 1 = 1 ∧ x / 2 ^ 9 % 2 ^ 1 = 0 then .ok (.vrmax h (fld 5 15 x) (fld 5 10 x) (fld 4 5 x) (fld 4 1 x)) else
  if x / 2 ^ 0 % 2 ^ 1 = 0 ∧ x / 2 ^ 9 % 2 ^ 1 = 1 then .ok (.vrmin h (fld 5 15 x) (fld 5 10 x) (fld 4 5 x) (fld 4 1 x)) else
  .error .reserved

/-- OP 0x47: VCVT, VCVF. -/
def decodeOp47 (h : Hdr) (x : Nat) : Except DecodeErr Instr :=
  if x / 2 ^ 0 % 2 ^ 1 = 0 then .ok (.vcvt h (fld 5 15 x) (fld 5 10 x) (fld 5 5 x) (fld 4 1 x)) else
  if x / 2 ^ 0 % 2 ^ 1 = 1 then .ok (.vcvf h (fld 5 15 x) (fld 5 10 x) (fld 5 5 x) (fld 4 1 x)) else
  .error .reserved

/-- OP 0x48: VSXP. -/
def decodeOp48 (h : Hdr) (x : Nat) : Except DecodeErr Instr :=
  .ok (.vsxp h (fld 5 15 x) (fld 5 10 x) (fld 5 5 x) (fld 4 1 x) (flag 0 x))

/-- OP 0x49: VPLN_SPLIT, VPLN_JOIN. -/
def decodeOp49 (h : Hdr) (x : Nat) : Except DecodeErr Instr :=
  if x / 2 ^ 0 % 2 ^ 1 = 0 ∧ x / 2 ^ 8 % 2 ^ 2 = 0 then .ok (.vplnSplit h (fld 5 15 x) (fld 5 10 x) (flag 7 x) (fld 2 5 x) (fld 4 1 x)) else
  if x / 2 ^ 0 % 2 ^ 1 = 1 ∧ x / 2 ^ 8 % 2 ^ 2 = 0 then .ok (.vplnJoin h (fld 5 15 x) (fld 5 10 x) (flag 7 x) (fld 2 5 x) (fld 4 1 x)) else
  .error .reserved

/-- OP 0x4A: VDIV. -/
def decodeOp4A (h : Hdr) (x : Nat) : Except DecodeErr Instr :=
  .ok (.vdiv h (fld 5 15 x) (fld 5 10 x) (fld 5 5 x) (fld 4 1 x) (flag 0 x))

/-- OP 0x4B: VUPD. -/
def decodeOp4B (h : Hdr) (x : Nat) : Except DecodeErr Instr :=
  .ok (.vupd h (fld 5 15 x) (fld 5 10 x) (fld 5 5 x) (fld 4 1 x) (flag 0 x))

/-- OP 0x4C: VIDX. -/
def decodeOp4C (h : Hdr) (x : Nat) : Except DecodeErr Instr :=
  if x / 2 ^ 0 % 2 ^ 1 = 0 then .ok (.vidx h (fld 5 15 x) (fld 5 10 x) (fld 5 5 x) (fld 4 1 x)) else
  .error .reserved

/-- OP 0x4D: VDOT. -/
def decodeOp4D (h : Hdr) (x : Nat) : Except DecodeErr Instr :=
  .ok (.vdot h (fld 5 15 x) (fld 5 10 x) (fld 5 5 x) (fld 4 1 x) (flag 0 x))

/-- OP 0x4E: VRND. -/
def decodeOp4E (h : Hdr) (x : Nat) : Except DecodeErr Instr :=
  if x / 2 ^ 0 % 2 ^ 1 = 0 then .ok (.vrnd h (fld 5 15 x) (fld 5 10 x) (fld 5 5 x) (fld 4 1 x)) else
  .error .reserved

/-- OP 0x4F: VHASH. -/
def decodeOp4F (h : Hdr) (x : Nat) : Except DecodeErr Instr :=
  .ok (.vhash h (fld 5 15 x) (fld 5 10 x) (fld 5 5 x) (fld 4 1 x) (flag 0 x))

/-- OP 0x50: XSIN, XCOS. -/
def decodeOp50 (h : Hdr) (x : Nat) : Except DecodeErr Instr :=
  if x / 2 ^ 0 % 2 ^ 1 = 0 ∧ x / 2 ^ 5 % 2 ^ 5 = 0 then .ok (.xsin h (fld 5 15 x) (fld 5 10 x) (fld 4 1 x)) else
  if x / 2 ^ 0 % 2 ^ 1 = 1 ∧ x / 2 ^ 5 % 2 ^ 5 = 0 then .ok (.xcos h (fld 5 15 x) (fld 5 10 x) (fld 4 1 x)) else
  .error .reserved

/-- OP 0x51: XEX2, XLG2. -/
def decodeOp51 (h : Hdr) (x : Nat) : Except DecodeErr Instr :=
  if x / 2 ^ 0 % 2 ^ 1 = 0 ∧ x / 2 ^ 5 % 2 ^ 5 = 0 then .ok (.xex2 h (fld 5 15 x) (fld 5 10 x) (fld 4 1 x)) else
  if x / 2 ^ 0 % 2 ^ 1 = 1 ∧ x / 2 ^ 5 % 2 ^ 5 = 0 then .ok (.xlg2 h (fld 5 15 x) (fld 5 10 x) (fld 4 1 x)) else
  .error .reserved

/-- OP 0x52: XRCP, XRSQ. -/
def decodeOp52 (h : Hdr) (x : Nat) : Except DecodeErr Instr :=
  if x / 2 ^ 0 % 2 ^ 1 = 0 ∧ x / 2 ^ 5 % 2 ^ 5 = 0 then .ok (.xrcp h (fld 5 15 x) (fld 5 10 x) (fld 4 1 x)) else
  if x / 2 ^ 0 % 2 ^ 1 = 1 ∧ x / 2 ^ 5 % 2 ^ 5 = 0 then .ok (.xrsq h (fld 5 15 x) (fld 5 10 x) (fld 4 1 x)) else
  .error .reserved

/-- OP 0x53: XTANH, XSIGM. -/
def decodeOp53 (h : Hdr) (x : Nat) : Except DecodeErr Instr :=
  if x / 2 ^ 0 % 2 ^ 1 = 0 ∧ x / 2 ^ 5 % 2 ^ 5 = 0 then .ok (.xtanh h (fld 5 15 x) (fld 5 10 x) (fld 4 1 x)) else
  if x / 2 ^ 0 % 2 ^ 1 = 1 ∧ x / 2 ^ 5 % 2 ^ 5 = 0 then .ok (.xsigm h (fld 5 15 x) (fld 5 10 x) (fld 4 1 x)) else
  .error .reserved

/-- OP 0x54: XTRN. -/
def decodeOp54 (h : Hdr) (x : Nat) : Except DecodeErr Instr :=
  if x / 2 ^ 0 % 2 ^ 1 = 0 ∧ x / 2 ^ 8 % 2 ^ 2 = 0 then .ok (.xtrn h (fld 5 15 x) (fld 5 10 x) (fld 3 5 x) (fld 4 1 x)) else
  .error .reserved

/-- OP 0x55: XCVT. -/
def decodeOp55 (h : Hdr) (x : Nat) : Except DecodeErr Instr :=
  .ok (.xcvt h (fld 5 15 x) (fld 5 10 x) (fld 5 5 x) (fld 4 1 x) (flag 0 x))

/-- OP 0x56: XCMP. -/
def decodeOp56 (h : Hdr) (x : Nat) : Except DecodeErr Instr :=
  if x / 2 ^ 0 % 2 ^ 1 = 0 ∧ x / 2 ^ 5 % 2 ^ 5 = 0 then .ok (.xcmp h (fld 5 15 x) (fld 5 10 x) (fld 4 1 x)) else
  .error .reserved

/-- OP 0x57: XEXD. Its FMT accepts 0x0 only (02 R36; 08 R147), a check that comes after those of reserved bits and of an odd A (02 R30). -/
def decodeOp57 (h : Hdr) (x : Nat) : Except DecodeErr Instr :=
  if x / 2 ^ 0 % 2 ^ 10 = 0 then .ok (.xexd h (fld 5 15 x) (fld 5 10 x)) else
  if x / 2 ^ 0 % 2 ^ 1 = 0 ∧ x / 2 ^ 5 % 2 ^ 6 = 0 then .error .badFormat else
  .error .reserved

/-- OP 0x5C: MXLD. -/
def decodeOp5C (h : Hdr) (x : Nat) : Except DecodeErr Instr :=
  .ok (.mxld h (fld 4 16 x) (fld 5 11 x) (fld 4 7 x) (fld 3 4 x) (fld 2 2 x) (flag 1 x) (flag 0 x))

/-- OP 0x5D: MXA. -/
def decodeOp5D (h : Hdr) (x : Nat) : Except DecodeErr Instr :=
  .ok (.mxa h (fld 3 17 x) (fld 5 12 x) (fld 5 7 x) (fld 4 3 x) (flag 2 x) (flag 1 x) (flag 0 x))

/-- OP 0x5E: MXAV. -/
def decodeOp5E (h : Hdr) (x : Nat) : Except DecodeErr Instr :=
  if x / 2 ^ 7 % 2 ^ 5 = 0 then .ok (.mxav h (fld 3 17 x) (fld 5 12 x) (fld 4 3 x) (flag 2 x) (flag 1 x) (flag 0 x)) else
  .error .reserved

/-- OP 0x5F: MXRD. -/
def decodeOp5F (h : Hdr) (x : Nat) : Except DecodeErr Instr :=
  .ok (.mxrd h (fld 3 17 x) (fld 5 12 x) (fld 5 7 x) (fld 4 3 x) (fld 3 0 x))

/-- OP 0x60: MXRK. -/
def decodeOp60 (h : Hdr) (x : Nat) : Except DecodeErr Instr :=
  if x / 2 ^ 1 % 2 ^ 2 = 0 then .ok (.mxrk h (fld 3 17 x) (fld 5 12 x) (fld 5 7 x) (fld 4 3 x) (flag 0 x)) else
  .error .reserved

/-- OP 0x61: MXPN_RD, MXPN_CLAIM, MXPN_REL. -/
def decodeOp61 (h : Hdr) (x : Nat) : Except DecodeErr Instr :=
  if x / 2 ^ 0 % 2 ^ 15 = 0 then .ok (.mxpnRd h (fld 5 15 x)) else
  if x / 2 ^ 4 % 2 ^ 11 = 16 then .ok (.mxpnClaim h (fld 5 15 x) (fld 4 0 x)) else
  if x / 2 ^ 4 % 2 ^ 11 = 32 then .ok (.mxpnRel h (fld 5 15 x) (fld 4 0 x)) else
  .error .reserved

/-- OP 0x62: MXSV_SAVE, MXSV_LD, MXSV_ST. Their format code is 0x0; another is not accepted (09 R171). -/
def decodeOp62 (h : Hdr) (x : Nat) : Except DecodeErr Instr :=
  if x / 2 ^ 0 % 2 ^ 7 = 0 then .ok (.mxsvSave h (fld 3 17 x) (fld 5 12 x) (fld 5 7 x)) else
  if x / 2 ^ 0 % 2 ^ 7 = 1 then .ok (.mxsvLd h (fld 3 17 x) (fld 5 12 x) (fld 5 7 x)) else
  if x / 2 ^ 0 % 2 ^ 12 = 2 then .ok (.mxsvSt h (fld 3 17 x) (fld 5 12 x)) else
  if x % 8 < 2 ∨ (x % 8 = 2 ∧ x / 2 ^ 7 % 2 ^ 5 = 0) then .error .badFormat else
  .error .reserved

/-- OP 0x63: GOV_POL, GOV_RD, GOV_SET, GOV_CLR. -/
def decodeOp63 (h : Hdr) (x : Nat) : Except DecodeErr Instr :=
  if x / 2 ^ 0 % 2 ^ 10 = 0 ∧ x / 2 ^ 15 % 2 ^ 5 = 0 then .ok (.govPol h (fld 5 10 x)) else
  if x / 2 ^ 0 % 2 ^ 5 = 1 then .ok (.govRd h (fld 5 15 x) (fld 5 10 x) (fld 5 5 x)) else
  if x / 2 ^ 0 % 2 ^ 5 = 2 ∧ x / 2 ^ 15 % 2 ^ 5 = 0 then .ok (.govSet h (fld 5 10 x) (fld 5 5 x)) else
  if x / 2 ^ 0 % 2 ^ 10 = 3 ∧ x / 2 ^ 15 % 2 ^ 5 = 0 then .ok (.govClr h (fld 5 10 x)) else
  .error .reserved

/-- OP 0x64: GMEAS_MB, GMEAS_TOT. -/
def decodeOp64 (h : Hdr) (x : Nat) : Except DecodeErr Instr :=
  if x / 2 ^ 0 % 2 ^ 5 = 0 ∧ x / 2 ^ 15 % 2 ^ 5 = 0 then .ok (.gmeasMb h (fld 5 10 x) (fld 5 5 x)) else
  if x / 2 ^ 0 % 2 ^ 5 = 1 ∧ x / 2 ^ 15 % 2 ^ 5 = 0 then .ok (.gmeasTot h (fld 5 10 x) (fld 5 5 x)) else
  .error .reserved

/-- OP 0x65: GSTEP. -/
def decodeOp65 (h : Hdr) (x : Nat) : Except DecodeErr Instr :=
  if x / 2 ^ 0 % 2 ^ 5 = 0 then .ok (.gstep h (fld 5 15 x) (fld 5 10 x) (fld 5 5 x)) else
  .error .reserved

/-- OP 0x68: QPUSH, QPUSH_FWD. -/
def decodeOp68 (h : Hdr) (x : Nat) : Except DecodeErr Instr :=
  if x / 2 ^ 1 % 2 ^ 4 = 0 ∧ x / 2 ^ 15 % 2 ^ 5 = 0 then .ok (.qpush h (fld 5 10 x) (fld 5 5 x) (flag 0 x)) else
  if x / 2 ^ 0 % 2 ^ 5 = 2 ∧ x / 2 ^ 12 % 2 ^ 8 = 0 then .ok (.qpushFwd h (fld 2 10 x) (fld 5 5 x)) else
  .error .reserved

/-- OP 0x69: QBIND, QUNBIND, QRD, QSTAT. -/
def decodeOp69 (h : Hdr) (x : Nat) : Except DecodeErr Instr :=
  if x / 2 ^ 0 % 2 ^ 10 = 0 ∧ x / 2 ^ 17 % 2 ^ 3 = 0 then .ok (.qbind h (fld 2 15 x) (fld 5 10 x)) else
  if x / 2 ^ 0 % 2 ^ 15 = 1 ∧ x / 2 ^ 17 % 2 ^ 3 = 0 then .ok (.qunbind h (fld 2 15 x)) else
  if x / 2 ^ 0 % 2 ^ 5 = 2 ∧ x / 2 ^ 7 % 2 ^ 8 = 0 then .ok (.qrd h (fld 5 15 x) (fld 2 5 x)) else
  if x / 2 ^ 0 % 2 ^ 5 = 3 ∧ x / 2 ^ 7 % 2 ^ 8 = 0 then .ok (.qstat h (fld 5 15 x) (fld 2 5 x)) else
  .error .reserved

/-- OP 0x6A: WOP. -/
def decodeOp6A (h : Hdr) (x : Nat) : Except DecodeErr Instr :=
  .ok (.wop h (fld 4 16 x) (fld 6 10 x) (fld 10 0 x))

/-- OP 0x6B: WADV. -/
def decodeOp6B (h : Hdr) (x : Nat) : Except DecodeErr Instr :=
  .ok (.wadv h (fld 4 16 x) (fld 6 10 x) (fld 10 0 x))

/-- OP 0x6C: WBIND_C, WBIND_P, WUNBIND, WSTAT, WADDR. -/
def decodeOp6C (h : Hdr) (x : Nat) : Except DecodeErr Instr :=
  if x / 2 ^ 0 % 2 ^ 3 = 0 ∧ x / 2 ^ 5 % 2 ^ 5 = 0 ∧ x / 2 ^ 19 % 2 ^ 1 = 0 then .ok (.wbindC h (fld 4 15 x) (fld 5 10 x) (fld 2 3 x)) else
  if x / 2 ^ 0 % 2 ^ 3 = 1 ∧ x / 2 ^ 5 % 2 ^ 5 = 0 ∧ x / 2 ^ 19 % 2 ^ 1 = 0 then .ok (.wbindP h (fld 4 15 x) (fld 5 10 x) (fld 2 3 x)) else
  if x / 2 ^ 0 % 2 ^ 15 = 2 ∧ x / 2 ^ 19 % 2 ^ 1 = 0 then .ok (.wunbind h (fld 4 15 x)) else
  if x / 2 ^ 0 % 2 ^ 5 = 3 ∧ x / 2 ^ 9 % 2 ^ 6 = 0 then .ok (.wstat h (fld 5 15 x) (fld 4 5 x)) else
  if x / 2 ^ 0 % 2 ^ 5 = 4 ∧ x / 2 ^ 9 % 2 ^ 6 = 0 then .ok (.waddr h (fld 5 15 x) (fld 4 5 x)) else
  .error .reserved

/-- OP 0x6D: MXSC. Its format code is 0x0; another is not accepted (09 R171). -/
def decodeOp6D (h : Hdr) (x : Nat) : Except DecodeErr Instr :=
  if x / 2 ^ 2 % 2 ^ 2 = 0 ∧ x / 2 ^ 7 % 2 ^ 4 = 0 then .ok (.mxsc h (fld 4 16 x) (fld 5 11 x) (fld 3 4 x) (fld 2 0 x)) else
  if x / 2 ^ 2 % 2 ^ 2 = 0 ∧ x / 2 ^ 16 % 2 ^ 4 ≠ 0 then .error .badFormat else
  .error .reserved

/-- OP 0x6E: BANK_ACQ, BANK_REL, BANK_RD. -/
def decodeOp6E (h : Hdr) (x : Nat) : Except DecodeErr Instr :=
  if x / 2 ^ 0 % 2 ^ 5 = 0 ∧ x / 2 ^ 15 % 2 ^ 5 = 0 then .ok (.bankAcq h (fld 5 10 x) (fld 5 5 x)) else
  if x / 2 ^ 0 % 2 ^ 10 = 1 ∧ x / 2 ^ 15 % 2 ^ 5 = 0 then .ok (.bankRel h (fld 5 10 x)) else
  if x / 2 ^ 0 % 2 ^ 15 = 2 then .ok (.bankRd h (fld 5 15 x)) else
  .error .reserved

/-- OP 0x6F: ATOM_SWAP, ATOM_ADD, ATOM_AND, ATOM_OR, ATOM_XOR, ATOM_MIN, ATOM_MAX, ATOM_MINU, ATOM_MAXU, ATOM_CAS, ATOM_FADD. -/
def decodeOp6F (h : Hdr) (x : Nat) : Except DecodeErr Instr :=
  if x / 2 ^ 0 % 2 ^ 4 = 0 then .ok (.atomSwap h (fld 5 15 x) (fld 5 10 x) (fld 3 7 x) (fld 2 5 x) (flag 4 x)) else
  if x / 2 ^ 0 % 2 ^ 4 = 1 then .ok (.atomAdd h (fld 5 15 x) (fld 5 10 x) (fld 3 7 x) (fld 2 5 x) (flag 4 x)) else
  if x / 2 ^ 0 % 2 ^ 4 = 2 then .ok (.atomAnd h (fld 5 15 x) (fld 5 10 x) (fld 3 7 x) (fld 2 5 x) (flag 4 x)) else
  if x / 2 ^ 0 % 2 ^ 4 = 3 then .ok (.atomOr h (fld 5 15 x) (fld 5 10 x) (fld 3 7 x) (fld 2 5 x) (flag 4 x)) else
  if x / 2 ^ 0 % 2 ^ 4 = 4 then .ok (.atomXor h (fld 5 15 x) (fld 5 10 x) (fld 3 7 x) (fld 2 5 x) (flag 4 x)) else
  if x / 2 ^ 0 % 2 ^ 4 = 5 then .ok (.atomMin h (fld 5 15 x) (fld 5 10 x) (fld 3 7 x) (fld 2 5 x) (flag 4 x)) else
  if x / 2 ^ 0 % 2 ^ 4 = 6 then .ok (.atomMax h (fld 5 15 x) (fld 5 10 x) (fld 3 7 x) (fld 2 5 x) (flag 4 x)) else
  if x / 2 ^ 0 % 2 ^ 4 = 7 then .ok (.atomMinu h (fld 5 15 x) (fld 5 10 x) (fld 3 7 x) (fld 2 5 x) (flag 4 x)) else
  if x / 2 ^ 0 % 2 ^ 4 = 8 then .ok (.atomMaxu h (fld 5 15 x) (fld 5 10 x) (fld 3 7 x) (fld 2 5 x) (flag 4 x)) else
  if x / 2 ^ 0 % 2 ^ 4 = 9 then .ok (.atomCas h (fld 5 15 x) (fld 5 10 x) (fld 3 7 x) (fld 2 5 x) (flag 4 x)) else
  if x / 2 ^ 0 % 2 ^ 4 = 10 then .ok (.atomFadd h (fld 5 15 x) (fld 5 10 x) (fld 3 7 x) (fld 2 5 x) (flag 4 x)) else
  .error .reserved

/-- OP 0x70: BAR_ARR, BAR_SYNC, BAR_WT. -/
def decodeOp70 (h : Hdr) (x : Nat) : Except DecodeErr Instr :=
  if x / 2 ^ 0 % 2 ^ 2 = 0 ∧ x / 2 ^ 15 % 2 ^ 5 = 0 then .ok (.barArr h (fld 5 10 x) (fld 5 5 x) (fld 3 2 x)) else
  if x / 2 ^ 0 % 2 ^ 2 = 1 ∧ x / 2 ^ 15 % 2 ^ 5 = 0 then .ok (.barSync h (fld 5 10 x) (fld 5 5 x) (fld 3 2 x)) else
  if x / 2 ^ 0 % 2 ^ 2 = 2 ∧ x / 2 ^ 15 % 2 ^ 5 = 0 then .ok (.barWt h (fld 5 10 x) (fld 5 5 x) (fld 3 2 x)) else
  .error .reserved

/-- OP 0x71: DRAIN. -/
def decodeOp71 (h : Hdr) (x : Nat) : Except DecodeErr Instr :=
  if x / 2 ^ 0 % 2 ^ 2 = 0 ∧ x / 2 ^ 5 % 2 ^ 10 = 0 then .ok (.drain h (fld 5 15 x) (fld 3 2 x)) else
  .error .reserved

/-- OP 0x72: RTE_CLM, RTE_SND. -/
def decodeOp72 (h : Hdr) (x : Nat) : Except DecodeErr Instr :=
  if x / 2 ^ 0 % 2 ^ 5 = 0 then .ok (.rteClm h (fld 5 15 x) (fld 5 10 x) (fld 5 5 x)) else
  if x / 2 ^ 0 % 2 ^ 5 = 1 then .ok (.rteSnd h (fld 5 15 x) (fld 5 10 x) (fld 5 5 x)) else
  .error .reserved

/-- OP 0x73: EVT_SIG, EVT_WAIT, EVT_RD. -/
def decodeOp73 (h : Hdr) (x : Nat) : Except DecodeErr Instr :=
  if x / 2 ^ 0 % 2 ^ 10 = 0 ∧ x / 2 ^ 15 % 2 ^ 5 = 0 then .ok (.evtSig h (fld 5 10 x)) else
  if x / 2 ^ 0 % 2 ^ 5 = 1 ∧ x / 2 ^ 15 % 2 ^ 5 = 0 then .ok (.evtWait h (fld 5 10 x) (fld 5 5 x)) else
  if x / 2 ^ 0 % 2 ^ 10 = 2 then .ok (.evtRd h (fld 5 15 x) (fld 5 10 x)) else
  .error .reserved

/-- OP 0x74: TASK. -/
def decodeOp74 (h : Hdr) (x : Nat) : Except DecodeErr Instr :=
  if x / 2 ^ 0 % 2 ^ 10 = 0 then .ok (.task h (fld 5 15 x) (fld 5 10 x)) else
  .error .reserved

/-- OP 0x75: DSPJ. -/
def decodeOp75 (h : Hdr) (x : Nat) : Except DecodeErr Instr :=
  if x / 2 ^ 0 % 2 ^ 5 = 0 then .ok (.dspj h (fld 5 15 x) (fld 5 10 x) (fld 5 5 x)) else
  .error .reserved

/-- OP 0x76: CTX_RD, CTX_WR. -/
def decodeOp76 (h : Hdr) (x : Nat) : Except DecodeErr Instr :=
  if x / 2 ^ 0 % 2 ^ 5 = 0 then .ok (.ctxRd h (fld 5 15 x) (fld 5 10 x) (fld 5 5 x)) else
  if x / 2 ^ 0 % 2 ^ 5 = 1 then .ok (.ctxWr h (fld 5 15 x) (fld 5 10 x) (fld 5 5 x)) else
  .error .reserved

/-- OP 0x77: CSV_SAVE, CSV_LD, CSV_FREE, CSV_END. -/
def decodeOp77 (h : Hdr) (x : Nat) : Except DecodeErr Instr :=
  if x / 2 ^ 0 % 2 ^ 5 = 0 ∧ x / 2 ^ 15 % 2 ^ 5 = 0 then .ok (.csvSave h (fld 5 10 x) (fld 5 5 x)) else
  if x / 2 ^ 0 % 2 ^ 5 = 1 ∧ x / 2 ^ 15 % 2 ^ 5 = 0 then .ok (.csvLd h (fld 5 10 x) (fld 5 5 x)) else
  if x / 2 ^ 0 % 2 ^ 10 = 2 ∧ x / 2 ^ 15 % 2 ^ 5 = 0 then .ok (.csvFree h (fld 5 10 x)) else
  if x / 2 ^ 0 % 2 ^ 5 = 3 ∧ x / 2 ^ 10 % 2 ^ 10 = 0 then .ok (.csvEnd h (fld 5 5 x)) else
  .error .reserved

/-- OP 0x78: TRET. -/
def decodeOp78 (h : Hdr) (x : Nat) : Except DecodeErr Instr :=
  if x / 2 ^ 0 % 2 ^ 10 = 0 ∧ x / 2 ^ 15 % 2 ^ 5 = 0 then .ok (.tret h (fld 5 10 x)) else
  .error .reserved

/-- OP 0x79: TLBI_ALL, TLBI_VF, TLBI_PG. -/
def decodeOp79 (h : Hdr) (x : Nat) : Except DecodeErr Instr :=
  if x / 2 ^ 0 % 2 ^ 2 = 0 ∧ x / 2 ^ 3 % 2 ^ 17 = 0 then .ok (.tlbiAll h (flag 2 x)) else
  if x / 2 ^ 0 % 2 ^ 2 = 1 ∧ x / 2 ^ 3 % 2 ^ 7 = 0 ∧ x / 2 ^ 15 % 2 ^ 5 = 0 then .ok (.tlbiVf h (fld 5 10 x) (flag 2 x)) else
  if x / 2 ^ 0 % 2 ^ 2 = 2 ∧ x / 2 ^ 3 % 2 ^ 2 = 0 ∧ x / 2 ^ 15 % 2 ^ 5 = 0 then .ok (.tlbiPg h (fld 5 10 x) (fld 5 5 x) (flag 2 x)) else
  .error .reserved

/-- OP 0x7A: MON_CFG, MON_RD, MON_CLR. -/
def decodeOp7A (h : Hdr) (x : Nat) : Except DecodeErr Instr :=
  if x / 2 ^ 0 % 2 ^ 5 = 0 ∧ x / 2 ^ 15 % 2 ^ 5 = 0 then .ok (.monCfg h (fld 5 10 x) (fld 5 5 x)) else
  if x / 2 ^ 0 % 2 ^ 10 = 1 then .ok (.monRd h (fld 5 15 x) (fld 5 10 x)) else
  if x / 2 ^ 0 % 2 ^ 10 = 2 ∧ x / 2 ^ 15 % 2 ^ 5 = 0 then .ok (.monClr h (fld 5 10 x)) else
  .error .reserved

/-- OP 0x7B: WSW_OUT, WSW_IN. -/
def decodeOp7B (h : Hdr) (x : Nat) : Except DecodeErr Instr :=
  if x / 2 ^ 0 % 2 ^ 5 = 0 ∧ x / 2 ^ 15 % 2 ^ 5 = 0 then .ok (.wswOut h (fld 5 10 x) (fld 5 5 x)) else
  if x / 2 ^ 0 % 2 ^ 5 = 1 ∧ x / 2 ^ 15 % 2 ^ 5 = 0 then .ok (.wswIn h (fld 5 10 x) (fld 5 5 x)) else
  .error .reserved

/-- OP 0x7C: DBG_STEP, DBG_STOP, DBG_BRK. -/
def decodeOp7C (h : Hdr) (x : Nat) : Except DecodeErr Instr :=
  if x / 2 ^ 0 % 2 ^ 10 = 0 ∧ x / 2 ^ 15 % 2 ^ 5 = 0 then .ok (.dbgStep h (fld 5 10 x)) else
  if x / 2 ^ 0 % 2 ^ 10 = 1 ∧ x / 2 ^ 15 % 2 ^ 5 = 0 then .ok (.dbgStop h (fld 5 10 x)) else
  if x / 2 ^ 0 % 2 ^ 5 = 2 ∧ x / 2 ^ 15 % 2 ^ 5 = 0 then .ok (.dbgBrk h (fld 5 10 x) (fld 5 5 x)) else
  .error .reserved

/-- OP 0x7D: CFG_RD, CFG_WR. -/
def decodeOp7D (h : Hdr) (x : Nat) : Except DecodeErr Instr :=
  if x / 2 ^ 0 % 2 ^ 5 = 0 then .ok (.cfgRd h (fld 5 15 x) (fld 5 10 x) (fld 5 5 x)) else
  if x / 2 ^ 0 % 2 ^ 5 = 1 then .ok (.cfgWr h (fld 5 15 x) (fld 5 10 x) (fld 5 5 x)) else
  .error .reserved

/-- The family that an OP value names (02 R37, R38). -/
def decodeOp (op w : Nat) : Except DecodeErr Instr :=
  if op / 8 = 0 then
    if op = 0 then decodeOp00 (lhdrOf w) w else
    if op = 1 then decodeOp01 (lhdrOf w) w else
    if op = 2 then decodeOp02 (lhdrOf w) w else
    if op = 3 then decodeOp03 (lhdrOf w) w else
    if op = 4 then decodeOp04 (lhdrOf w) w else
    if op = 5 then decodeOp05 (lhdrOf w) w else
    if op = 6 then decodeOp06 (lhdrOf w) w else
    if op = 7 then decodeOp07 (lhdrOf w) w else
    .error .unassigned
  else
  if op / 8 = 1 then
    if op = 8 then decodeOp08 (lhdrOf w) w else
    if op = 9 then decodeOp09 (lhdrOf w) w else
    if op = 10 then decodeOp0A (lhdrOf w) w else
    if op = 11 then decodeOp0B (lhdrOf w) w else
    if op = 12 then decodeOp0C (lhdrOf w) w else
    if op = 13 then decodeOp0D (lhdrOf w) w else
    .error .unassigned
  else
  if op / 8 = 2 then
    if op = 16 then decodeOp10 (hdrOf w) w else
    if op = 17 then decodeOp11 (hdrOf w) w else
    if op = 18 then decodeOp12 (hdrOf w) w else
    if op = 19 then decodeOp13 (hdrOf w) w else
    if op = 20 then decodeOp14 (hdrOf w) w else
    if op = 21 then decodeOp15 (hdrOf w) w else
    if op = 22 then decodeOp16 (hdrOf w) w else
    if op = 23 then decodeOp17 (hdrOf w) w else
    .error .unassigned
  else
  if op / 8 = 3 then
    if op = 24 then decodeOp18 (hdrOf w) w else
    if op = 25 then decodeOp19 (hdrOf w) w else
    if op = 26 then decodeOp1A (hdrOf w) w else
    if op = 27 then decodeOp1B (hdrOf w) w else
    if op = 28 then decodeOp1C (hdrOf w) w else
    if op = 29 then decodeOp1D (hdrOf w) w else
    if op = 30 then decodeOp1E (hdrOf w) w else
    if op = 31 then decodeOp1F (hdrOf w) w else
    .error .unassigned
  else
  if op / 8 = 4 then
    if op = 32 then decodeOp20 (hdrOf w) w else
    if op = 33 then decodeOp21 (hdrOf w) w else
    if op = 34 then decodeOp22 (hdrOf w) w else
    if op = 35 then decodeOp23 (hdrOf w) w else
    if op = 36 then decodeOp24 (hdrOf w) w else
    if op = 37 then decodeOp25 (hdrOf w) w else
    if op = 38 then decodeOp26 (hdrOf w) w else
    if op = 39 then decodeOp27 (hdrOf w) w else
    .error .unassigned
  else
  if op / 8 = 5 then
    if op = 40 then decodeOp28 (hdrOf w) w else
    if op = 41 then decodeOp29 (hdrOf w) w else
    if op = 42 then decodeOp2A (hdrOf w) w else
    if op = 43 then decodeOp2B (hdrOf w) w else
    if op = 44 then decodeOp2C (hdrOf w) w else
    if op = 45 then decodeOp2D (hdrOf w) w else
    if op = 46 then decodeOp2E (hdrOf w) w else
    if op = 47 then decodeOp2F (hdrOf w) w else
    .error .unassigned
  else
  if op / 8 = 6 then
    if op = 48 then decodeOp30 (hdrOf w) w else
    if op = 49 then decodeOp31 (hdrOf w) w else
    if op = 50 then decodeOp32 (hdrOf w) w else
    if op = 51 then decodeOp33 (hdrOf w) w else
    if op = 52 then decodeOp34 (hdrOf w) w else
    if op = 53 then decodeOp35 (hdrOf w) w else
    if op = 54 then decodeOp36 (hdrOf w) w else
    if op = 55 then decodeOp37 (hdrOf w) w else
    .error .unassigned
  else
  if op / 8 = 7 then
    if op = 56 then decodeOp38 (hdrOf w) w else
    if op = 57 then decodeOp39 (hdrOf w) w else
    if op = 58 then decodeOp3A (hdrOf w) w else
    if op = 59 then decodeOp3B (hdrOf w) w else
    if op = 60 then decodeOp3C (hdrOf w) w else
    if op = 61 then decodeOp3D (hdrOf w) w else
    if op = 62 then decodeOp3E (hdrOf w) w else
    if op = 63 then decodeOp3F (hdrOf w) w else
    .error .unassigned
  else
  if op / 8 = 8 then
    if op = 64 then decodeOp40 (hdrOf w) w else
    if op = 65 then decodeOp41 (hdrOf w) w else
    if op = 66 then decodeOp42 (hdrOf w) w else
    if op = 67 then decodeOp43 (hdrOf w) w else
    if op = 68 then decodeOp44 (hdrOf w) w else
    if op = 69 then decodeOp45 (hdrOf w) w else
    if op = 70 then decodeOp46 (hdrOf w) w else
    if op = 71 then decodeOp47 (hdrOf w) w else
    .error .unassigned
  else
  if op / 8 = 9 then
    if op = 72 then decodeOp48 (hdrOf w) w else
    if op = 73 then decodeOp49 (hdrOf w) w else
    if op = 74 then decodeOp4A (hdrOf w) w else
    if op = 75 then decodeOp4B (hdrOf w) w else
    if op = 76 then decodeOp4C (hdrOf w) w else
    if op = 77 then decodeOp4D (hdrOf w) w else
    if op = 78 then decodeOp4E (hdrOf w) w else
    if op = 79 then decodeOp4F (hdrOf w) w else
    .error .unassigned
  else
  if op / 8 = 10 then
    if op = 80 then decodeOp50 (hdrOf w) w else
    if op = 81 then decodeOp51 (hdrOf w) w else
    if op = 82 then decodeOp52 (hdrOf w) w else
    if op = 83 then decodeOp53 (hdrOf w) w else
    if op = 84 then decodeOp54 (hdrOf w) w else
    if op = 85 then decodeOp55 (hdrOf w) w else
    if op = 86 then decodeOp56 (hdrOf w) w else
    if op = 87 then decodeOp57 (hdrOf w) w else
    .error .unassigned
  else
  if op / 8 = 11 then
    if op = 92 then decodeOp5C (hdrOf w) w else
    if op = 93 then decodeOp5D (hdrOf w) w else
    if op = 94 then decodeOp5E (hdrOf w) w else
    if op = 95 then decodeOp5F (hdrOf w) w else
    .error .unassigned
  else
  if op / 8 = 12 then
    if op = 96 then decodeOp60 (hdrOf w) w else
    if op = 97 then decodeOp61 (hdrOf w) w else
    if op = 98 then decodeOp62 (hdrOf w) w else
    if op = 99 then decodeOp63 (hdrOf w) w else
    if op = 100 then decodeOp64 (hdrOf w) w else
    if op = 101 then decodeOp65 (hdrOf w) w else
    .error .unassigned
  else
  if op / 8 = 13 then
    if op = 104 then decodeOp68 (hdrOf w) w else
    if op = 105 then decodeOp69 (hdrOf w) w else
    if op = 106 then decodeOp6A (hdrOf w) w else
    if op = 107 then decodeOp6B (hdrOf w) w else
    if op = 108 then decodeOp6C (hdrOf w) w else
    if op = 109 then decodeOp6D (hdrOf w) w else
    if op = 110 then decodeOp6E (hdrOf w) w else
    if op = 111 then decodeOp6F (hdrOf w) w else
    .error .unassigned
  else
  if op / 8 = 14 then
    if op = 112 then decodeOp70 (hdrOf w) w else
    if op = 113 then decodeOp71 (hdrOf w) w else
    if op = 114 then decodeOp72 (hdrOf w) w else
    if op = 115 then decodeOp73 (hdrOf w) w else
    if op = 116 then decodeOp74 (hdrOf w) w else
    if op = 117 then decodeOp75 (hdrOf w) w else
    if op = 118 then decodeOp76 (hdrOf w) w else
    if op = 119 then decodeOp77 (hdrOf w) w else
    .error .unassigned
  else
  if op / 8 = 15 then
    if op = 120 then decodeOp78 (hdrOf w) w else
    if op = 121 then decodeOp79 (hdrOf w) w else
    if op = 122 then decodeOp7A (hdrOf w) w else
    if op = 123 then decodeOp7B (hdrOf w) w else
    if op = 124 then decodeOp7C (hdrOf w) w else
    if op = 125 then decodeOp7D (hdrOf w) w else
    .error .unassigned
  else
  .error .unassigned

/-- The instruction that a slot word holds, or why it holds none. -/
def decode (w : SlotWord) : Except DecodeErr Instr := decodeOp (w.toNat / 2 ^ 24 % 128) w.toNat

/-- A non-lead slot word from its header, OP and low fields (02 R31). -/
def slotWord (h : Hdr) (op low : Nat) : Nat :=
  h.stop.toNat * 2 ^ 31 + op * 2 ^ 24 + h.g.toNat * 2 ^ 20 + low
/-- A lead slot word from its header, OP and low fields (02 R34). -/
def leadWord (h : LHdr) (op low : Nat) : Nat :=
  h.stop.toNat * 2 ^ 31 + op * 2 ^ 24 + h.g.toNat * 2 ^ 20 + h.pm.toNat * 2 ^ 16 + h.ck.toNat * 2 ^ 15
    + h.y.toNat * 2 ^ 14 + h.hint.toNat * 2 ^ 13 + low


/-! Low fields of a slot by layout: the fields from the highest down, each named with its lowest bit, and the fixed bits (02 R34). -/
def low (k : Nat) : Nat := k
def low_0b13 (a : BitVec 13) (k : Nat) : Nat := a.toNat + k
def low_9_8_0b4b1b8 (a : BitVec 4) (b : Bool) (c : BitVec 8) (k : Nat) : Nat := a.toNat * 2 ^ 9 + b.toNat * 2 ^ 8 + c.toNat + k
def low_8b5 (a : BitVec 5) (k : Nat) : Nat := a.toNat * 2 ^ 8 + k
def low_8_3b5b5 (a : BitVec 5) (b : BitVec 5) (k : Nat) : Nat := a.toNat * 2 ^ 8 + b.toNat * 2 ^ 3 + k
def low_8_3b2b5 (a : BitVec 2) (b : BitVec 5) (k : Nat) : Nat := a.toNat * 2 ^ 8 + b.toNat * 2 ^ 3 + k
def low_15_10_5b5b5b5 (a : BitVec 5) (b : BitVec 5) (c : BitVec 5) (k : Nat) : Nat := a.toNat * 2 ^ 15 + b.toNat * 2 ^ 10 + c.toNat * 2 ^ 5 + k
def low_15_10_0b5b5b10 (a : BitVec 5) (b : BitVec 5) (c : BitVec 10) (k : Nat) : Nat := a.toNat * 2 ^ 15 + b.toNat * 2 ^ 10 + c.toNat + k
def low_15_10_0b5b5b6 (a : BitVec 5) (b : BitVec 5) (c : BitVec 6) (k : Nat) : Nat := a.toNat * 2 ^ 15 + b.toNat * 2 ^ 10 + c.toNat + k
def low_15_10b5b5 (a : BitVec 5) (b : BitVec 5) (k : Nat) : Nat := a.toNat * 2 ^ 15 + b.toNat * 2 ^ 10 + k
def low_15_10_9_8_6_0b5b5b1b1b2b6 (a : BitVec 5) (b : BitVec 5) (c : Bool) (d : Bool) (e : BitVec 2) (f : BitVec 6) (k : Nat) : Nat := a.toNat * 2 ^ 15 + b.toNat * 2 ^ 10 + c.toNat * 2 ^ 9 + d.toNat * 2 ^ 8 + e.toNat * 2 ^ 6 + f.toNat + k
def low_15_0b5b15 (a : BitVec 5) (b : BitVec 15) (k : Nat) : Nat := a.toNat * 2 ^ 15 + b.toNat + k
def low_15_10_5_0b5b5b5b3 (a : BitVec 5) (b : BitVec 5) (c : BitVec 5) (d : BitVec 3) (k : Nat) : Nat := a.toNat * 2 ^ 15 + b.toNat * 2 ^ 10 + c.toNat * 2 ^ 5 + d.toNat + k
def low_15_10_5_0b5b5b5b4 (a : BitVec 5) (b : BitVec 5) (c : BitVec 5) (d : BitVec 4) (k : Nat) : Nat := a.toNat * 2 ^ 15 + b.toNat * 2 ^ 10 + c.toNat * 2 ^ 5 + d.toNat + k
def low_16_11_6_2_1b4b5b5b4b1 (a : BitVec 4) (b : BitVec 5) (c : BitVec 5) (d : BitVec 4) (e : Bool) (k : Nat) : Nat := a.toNat * 2 ^ 16 + b.toNat * 2 ^ 11 + c.toNat * 2 ^ 6 + d.toNat * 2 ^ 2 + e.toNat * 2 ^ 1 + k
def low_16_11_7_6_0b4b5b4b1b6 (a : BitVec 4) (b : BitVec 5) (c : BitVec 4) (d : Bool) (e : BitVec 6) (k : Nat) : Nat := a.toNat * 2 ^ 16 + b.toNat * 2 ^ 11 + c.toNat * 2 ^ 7 + d.toNat * 2 ^ 6 + e.toNat + k
def low_16_11_6_2_1_0b4b4b4b4b1b1 (a : BitVec 4) (b : BitVec 4) (c : BitVec 4) (d : BitVec 4) (e : Bool) (f : Bool) (k : Nat) : Nat := a.toNat * 2 ^ 16 + b.toNat * 2 ^ 11 + c.toNat * 2 ^ 6 + d.toNat * 2 ^ 2 + e.toNat * 2 ^ 1 + f.toNat + k
def low_16_11_2_1b4b5b4b1 (a : BitVec 4) (b : BitVec 5) (c : BitVec 4) (d : Bool) (k : Nat) : Nat := a.toNat * 2 ^ 16 + b.toNat * 2 ^ 11 + c.toNat * 2 ^ 2 + d.toNat * 2 ^ 1 + k
def low_15_10_5_4_3b5b5b5b1b1 (a : BitVec 5) (b : BitVec 5) (c : BitVec 5) (d : Bool) (e : Bool) (k : Nat) : Nat := a.toNat * 2 ^ 15 + b.toNat * 2 ^ 10 + c.toNat * 2 ^ 5 + d.toNat * 2 ^ 4 + e.toNat * 2 ^ 3 + k
def low_16_11_6_5_2_1b4b5b5b1b3b1 (a : BitVec 4) (b : BitVec 5) (c : BitVec 5) (d : Bool) (e : BitVec 3) (f : Bool) (k : Nat) : Nat := a.toNat * 2 ^ 16 + b.toNat * 2 ^ 11 + c.toNat * 2 ^ 6 + d.toNat * 2 ^ 5 + e.toNat * 2 ^ 2 + f.toNat * 2 ^ 1 + k
def low_16_11_2b4b5b1 (a : BitVec 4) (b : BitVec 5) (c : Bool) (k : Nat) : Nat := a.toNat * 2 ^ 16 + b.toNat * 2 ^ 11 + c.toNat * 2 ^ 2 + k
def low_16_11b4b5 (a : BitVec 4) (b : BitVec 5) (k : Nat) : Nat := a.toNat * 2 ^ 16 + b.toNat * 2 ^ 11 + k
def low_15_0b5b10 (a : BitVec 5) (b : BitVec 10) (k : Nat) : Nat := a.toNat * 2 ^ 15 + b.toNat + k
def low_10_0b5b10 (a : BitVec 5) (b : BitVec 10) (k : Nat) : Nat := a.toNat * 2 ^ 10 + b.toNat + k
def low_15_10_7_5_0b5b5b3b2b5 (a : BitVec 5) (b : BitVec 5) (c : BitVec 3) (d : BitVec 2) (e : BitVec 5) (k : Nat) : Nat := a.toNat * 2 ^ 15 + b.toNat * 2 ^ 10 + c.toNat * 2 ^ 7 + d.toNat * 2 ^ 5 + e.toNat + k
def low_15_10_5_0b5b5b2b5 (a : BitVec 5) (b : BitVec 5) (c : BitVec 2) (d : BitVec 5) (k : Nat) : Nat := a.toNat * 2 ^ 15 + b.toNat * 2 ^ 10 + c.toNat * 2 ^ 5 + d.toNat + k
def low_15_10_7_0b5b5b3b5 (a : BitVec 5) (b : BitVec 5) (c : BitVec 3) (d : BitVec 5) (k : Nat) : Nat := a.toNat * 2 ^ 15 + b.toNat * 2 ^ 10 + c.toNat * 2 ^ 7 + d.toNat + k
def low_15_10_6_2_0b5b5b4b4b2 (a : BitVec 5) (b : BitVec 5) (c : BitVec 4) (d : BitVec 4) (e : BitVec 2) (k : Nat) : Nat := a.toNat * 2 ^ 15 + b.toNat * 2 ^ 10 + c.toNat * 2 ^ 6 + d.toNat * 2 ^ 2 + e.toNat + k
def low_15_10_0b1b5b5 (a : Bool) (b : BitVec 5) (c : BitVec 5) (k : Nat) : Nat := a.toNat * 2 ^ 15 + b.toNat * 2 ^ 10 + c.toNat + k
def low_10_5b5b5 (a : BitVec 5) (b : BitVec 5) (k : Nat) : Nat := a.toNat * 2 ^ 10 + b.toNat * 2 ^ 5 + k
def low_10b5 (a : BitVec 5) (k : Nat) : Nat := a.toNat * 2 ^ 10 + k
def low_15_10_5_2b5b5b5b3 (a : BitVec 5) (b : BitVec 5) (c : BitVec 5) (d : BitVec 3) (k : Nat) : Nat := a.toNat * 2 ^ 15 + b.toNat * 2 ^ 10 + c.toNat * 2 ^ 5 + d.toNat * 2 ^ 2 + k
def low_15_10_5_1_0b5b5b5b4b1 (a : BitVec 5) (b : BitVec 5) (c : BitVec 5) (d : BitVec 4) (e : Bool) (k : Nat) : Nat := a.toNat * 2 ^ 15 + b.toNat * 2 ^ 10 + c.toNat * 2 ^ 5 + d.toNat * 2 ^ 1 + e.toNat + k
def low_15_10_5_1b5b5b5b4 (a : BitVec 5) (b : BitVec 5) (c : BitVec 5) (d : BitVec 4) (k : Nat) : Nat := a.toNat * 2 ^ 15 + b.toNat * 2 ^ 10 + c.toNat * 2 ^ 5 + d.toNat * 2 ^ 1 + k
def low_15_10_1b5b5b4 (a : BitVec 5) (b : BitVec 5) (c : BitVec 4) (k : Nat) : Nat := a.toNat * 2 ^ 15 + b.toNat * 2 ^ 10 + c.toNat * 2 ^ 1 + k
def low_15_10_5_0b5b5b5b1 (a : BitVec 5) (b : BitVec 5) (c : BitVec 5) (d : Bool) (k : Nat) : Nat := a.toNat * 2 ^ 15 + b.toNat * 2 ^ 10 + c.toNat * 2 ^ 5 + d.toNat + k
def low_19_15_10_5_1_0b1b4b5b5b4b1 (a : Bool) (b : BitVec 4) (c : BitVec 5) (d : BitVec 5) (e : BitVec 4) (f : Bool) (k : Nat) : Nat := a.toNat * 2 ^ 19 + b.toNat * 2 ^ 15 + c.toNat * 2 ^ 10 + d.toNat * 2 ^ 5 + e.toNat * 2 ^ 1 + f.toNat + k
def low_15_10_5_1b5b5b4b4 (a : BitVec 5) (b : BitVec 5) (c : BitVec 4) (d : BitVec 4) (k : Nat) : Nat := a.toNat * 2 ^ 15 + b.toNat * 2 ^ 10 + c.toNat * 2 ^ 5 + d.toNat * 2 ^ 1 + k
def low_15_10b5b4 (a : BitVec 5) (b : BitVec 4) (k : Nat) : Nat := a.toNat * 2 ^ 15 + b.toNat * 2 ^ 10 + k
def low_15_10b4b5 (a : BitVec 4) (b : BitVec 5) (k : Nat) : Nat := a.toNat * 2 ^ 15 + b.toNat * 2 ^ 10 + k
def low_15_10b4b4 (a : BitVec 4) (b : BitVec 4) (k : Nat) : Nat := a.toNat * 2 ^ 15 + b.toNat * 2 ^ 10 + k
def low_15_10_7_5_1b5b5b1b2b4 (a : BitVec 5) (b : BitVec 5) (c : Bool) (d : BitVec 2) (e : BitVec 4) (k : Nat) : Nat := a.toNat * 2 ^ 15 + b.toNat * 2 ^ 10 + c.toNat * 2 ^ 7 + d.toNat * 2 ^ 5 + e.toNat * 2 ^ 1 + k
def low_15_10_5_1b5b5b3b4 (a : BitVec 5) (b : BitVec 5) (c : BitVec 3) (d : BitVec 4) (k : Nat) : Nat := a.toNat * 2 ^ 15 + b.toNat * 2 ^ 10 + c.toNat * 2 ^ 5 + d.toNat * 2 ^ 1 + k
def low_16_11_7_4_2_1_0b4b5b4b3b2b1b1 (a : BitVec 4) (b : BitVec 5) (c : BitVec 4) (d : BitVec 3) (e : BitVec 2) (f : Bool) (g : Bool) (k : Nat) : Nat := a.toNat * 2 ^ 16 + b.toNat * 2 ^ 11 + c.toNat * 2 ^ 7 + d.toNat * 2 ^ 4 + e.toNat * 2 ^ 2 + f.toNat * 2 ^ 1 + g.toNat + k
def low_17_12_7_3_2_1_0b3b5b5b4b1b1b1 (a : BitVec 3) (b : BitVec 5) (c : BitVec 5) (d : BitVec 4) (e : Bool) (f : Bool) (g : Bool) (k : Nat) : Nat := a.toNat * 2 ^ 17 + b.toNat * 2 ^ 12 + c.toNat * 2 ^ 7 + d.toNat * 2 ^ 3 + e.toNat * 2 ^ 2 + f.toNat * 2 ^ 1 + g.toNat + k
def low_17_12_3_2_1_0b3b5b4b1b1b1 (a : BitVec 3) (b : BitVec 5) (c : BitVec 4) (d : Bool) (e : Bool) (f : Bool) (k : Nat) : Nat := a.toNat * 2 ^ 17 + b.toNat * 2 ^ 12 + c.toNat * 2 ^ 3 + d.toNat * 2 ^ 2 + e.toNat * 2 ^ 1 + f.toNat + k
def low_17_12_7_3_0b3b5b5b4b3 (a : BitVec 3) (b : BitVec 5) (c : BitVec 5) (d : BitVec 4) (e : BitVec 3) (k : Nat) : Nat := a.toNat * 2 ^ 17 + b.toNat * 2 ^ 12 + c.toNat * 2 ^ 7 + d.toNat * 2 ^ 3 + e.toNat + k
def low_17_12_7_3_0b3b5b5b4b1 (a : BitVec 3) (b : BitVec 5) (c : BitVec 5) (d : BitVec 4) (e : Bool) (k : Nat) : Nat := a.toNat * 2 ^ 17 + b.toNat * 2 ^ 12 + c.toNat * 2 ^ 7 + d.toNat * 2 ^ 3 + e.toNat + k
def low_15b5 (a : BitVec 5) (k : Nat) : Nat := a.toNat * 2 ^ 15 + k
def low_15_0b5b4 (a : BitVec 5) (b : BitVec 4) (k : Nat) : Nat := a.toNat * 2 ^ 15 + b.toNat + k
def low_17_12_7b3b5b5 (a : BitVec 3) (b : BitVec 5) (c : BitVec 5) (k : Nat) : Nat := a.toNat * 2 ^ 17 + b.toNat * 2 ^ 12 + c.toNat * 2 ^ 7 + k
def low_17_12b3b5 (a : BitVec 3) (b : BitVec 5) (k : Nat) : Nat := a.toNat * 2 ^ 17 + b.toNat * 2 ^ 12 + k
def low_10_5_0b5b5b1 (a : BitVec 5) (b : BitVec 5) (c : Bool) (k : Nat) : Nat := a.toNat * 2 ^ 10 + b.toNat * 2 ^ 5 + c.toNat + k
def low_10_5b2b5 (a : BitVec 2) (b : BitVec 5) (k : Nat) : Nat := a.toNat * 2 ^ 10 + b.toNat * 2 ^ 5 + k
def low_15_10b2b5 (a : BitVec 2) (b : BitVec 5) (k : Nat) : Nat := a.toNat * 2 ^ 15 + b.toNat * 2 ^ 10 + k
def low_15b2 (a : BitVec 2) (k : Nat) : Nat := a.toNat * 2 ^ 15 + k
def low_15_5b5b2 (a : BitVec 5) (b : BitVec 2) (k : Nat) : Nat := a.toNat * 2 ^ 15 + b.toNat * 2 ^ 5 + k
def low_16_10_0b4b6b10 (a : BitVec 4) (b : BitVec 6) (c : BitVec 10) (k : Nat) : Nat := a.toNat * 2 ^ 16 + b.toNat * 2 ^ 10 + c.toNat + k
def low_15_10_3b4b5b2 (a : BitVec 4) (b : BitVec 5) (c : BitVec 2) (k : Nat) : Nat := a.toNat * 2 ^ 15 + b.toNat * 2 ^ 10 + c.toNat * 2 ^ 3 + k
def low_15b4 (a : BitVec 4) (k : Nat) : Nat := a.toNat * 2 ^ 15 + k
def low_15_5b5b4 (a : BitVec 5) (b : BitVec 4) (k : Nat) : Nat := a.toNat * 2 ^ 15 + b.toNat * 2 ^ 5 + k
def low_16_11_4_0b4b5b3b2 (a : BitVec 4) (b : BitVec 5) (c : BitVec 3) (d : BitVec 2) (k : Nat) : Nat := a.toNat * 2 ^ 16 + b.toNat * 2 ^ 11 + c.toNat * 2 ^ 4 + d.toNat + k
def low_15_10_7_5_4b5b5b3b2b1 (a : BitVec 5) (b : BitVec 5) (c : BitVec 3) (d : BitVec 2) (e : Bool) (k : Nat) : Nat := a.toNat * 2 ^ 15 + b.toNat * 2 ^ 10 + c.toNat * 2 ^ 7 + d.toNat * 2 ^ 5 + e.toNat * 2 ^ 4 + k
def low_10_5_2b5b5b3 (a : BitVec 5) (b : BitVec 5) (c : BitVec 3) (k : Nat) : Nat := a.toNat * 2 ^ 10 + b.toNat * 2 ^ 5 + c.toNat * 2 ^ 2 + k
def low_15_2b5b3 (a : BitVec 5) (b : BitVec 3) (k : Nat) : Nat := a.toNat * 2 ^ 15 + b.toNat * 2 ^ 2 + k
def low_5b5 (a : BitVec 5) (k : Nat) : Nat := a.toNat * 2 ^ 5 + k
def low_2b1 (a : Bool) (k : Nat) : Nat := a.toNat * 2 ^ 2 + k
def low_10_2b5b1 (a : BitVec 5) (b : Bool) (k : Nat) : Nat := a.toNat * 2 ^ 10 + b.toNat * 2 ^ 2 + k
def low_10_5_2b5b5b1 (a : BitVec 5) (b : BitVec 5) (c : Bool) (k : Nat) : Nat := a.toNat * 2 ^ 10 + b.toNat * 2 ^ 5 + c.toNat * 2 ^ 2 + k

/-- The word of an encoded instruction as a number; a step without an encoding has none. -/
def encodeNat : Instr → Option Nat
  | .next h => some (leadWord h 0x00 (low 0))
  | .br h disp => some (leadWord h 0x01 (low_0b13 disp 0))
  | .bru h mk nsel disp => some (leadWord h 0x02 (low_9_8_0b4b1b8 mk nsel disp 0))
  | .jmpi h a => some (leadWord h 0x03 (low_8b5 a 0))
  | .call h disp => some (leadWord h 0x04 (low_0b13 disp 0))
  | .calli h a => some (leadWord h 0x05 (low_8b5 a 0))
  | .ret h => some (leadWord h 0x06 (low 0))
  | .loop h a => some (leadWord h 0x07 (low_8b5 a 0))
  | .loopPipe h a b => some (leadWord h 0x07 (low_8_3b5b5 a b 1))
  | .sloop h k b => some (leadWord h 0x08 (low_8_3b2b5 k b 0))
  | .lclose h => some (leadWord h 0x09 (low 0))
  | .lexit h disp => some (leadWord h 0x0A (low_0b13 disp 0))
  | .halt h => some (leadWord h 0x0B (low 0))
  | .trapi h code => some (leadWord h 0x0C (low_0b13 code 0))
  | .bkpt h code => some (leadWord h 0x0D (low_0b13 code 0))
  | .add h d a b => some (slotWord h 0x10 (low_15_10_5b5b5b5 d a b 0))
  | .addSs h d a b => some (slotWord h 0x10 (low_15_10_5b5b5b5 d a b 1))
  | .addUs h d a b => some (slotWord h 0x10 (low_15_10_5b5b5b5 d a b 2))
  | .addW h d a b => some (slotWord h 0x10 (low_15_10_5b5b5b5 d a b 3))
  | .sub h d a b => some (slotWord h 0x11 (low_15_10_5b5b5b5 d a b 0))
  | .subSs h d a b => some (slotWord h 0x11 (low_15_10_5b5b5b5 d a b 1))
  | .subUs h d a b => some (slotWord h 0x11 (low_15_10_5b5b5b5 d a b 2))
  | .subW h d a b => some (slotWord h 0x11 (low_15_10_5b5b5b5 d a b 3))
  | .addi h d a imm => some (slotWord h 0x12 (low_15_10_0b5b5b10 d a imm 0))
  | .mul h d a b => some (slotWord h 0x13 (low_15_10_5b5b5b5 d a b 0))
  | .mulh h d a b => some (slotWord h 0x14 (low_15_10_5b5b5b5 d a b 0))
  | .mulhU h d a b => some (slotWord h 0x14 (low_15_10_5b5b5b5 d a b 1))
  | .div h d a b => some (slotWord h 0x15 (low_15_10_5b5b5b5 d a b 0))
  | .divU h d a b => some (slotWord h 0x15 (low_15_10_5b5b5b5 d a b 1))
  | .divRem h d a b => some (slotWord h 0x15 (low_15_10_5b5b5b5 d a b 2))
  | .divURem h d a b => some (slotWord h 0x15 (low_15_10_5b5b5b5 d a b 3))
  | .and h d a b => some (slotWord h 0x16 (low_15_10_5b5b5b5 d a b 0))
  | .or h d a b => some (slotWord h 0x16 (low_15_10_5b5b5b5 d a b 1))
  | .xor h d a b => some (slotWord h 0x16 (low_15_10_5b5b5b5 d a b 2))
  | .andn h d a b => some (slotWord h 0x16 (low_15_10_5b5b5b5 d a b 3))
  | .orn h d a b => some (slotWord h 0x16 (low_15_10_5b5b5b5 d a b 4))
  | .xnor h d a b => some (slotWord h 0x16 (low_15_10_5b5b5b5 d a b 5))
  | .shl h d a b => some (slotWord h 0x17 (low_15_10_5b5b5b5 d a b 0))
  | .shr h d a b => some (slotWord h 0x17 (low_15_10_5b5b5b5 d a b 1))
  | .sar h d a b => some (slotWord h 0x17 (low_15_10_5b5b5b5 d a b 2))
  | .ror h d a b => some (slotWord h 0x17 (low_15_10_5b5b5b5 d a b 3))
  | .shli h d a n => some (slotWord h 0x18 (low_15_10_0b5b5b6 d a n 0))
  | .shri h d a n => some (slotWord h 0x18 (low_15_10_0b5b5b6 d a n 64))
  | .sari h d a n => some (slotWord h 0x18 (low_15_10_0b5b5b6 d a n 128))
  | .rori h d a n => some (slotWord h 0x18 (low_15_10_0b5b5b6 d a n 192))
  | .min h d a b => some (slotWord h 0x19 (low_15_10_5b5b5b5 d a b 0))
  | .max h d a b => some (slotWord h 0x19 (low_15_10_5b5b5b5 d a b 1))
  | .minu h d a b => some (slotWord h 0x19 (low_15_10_5b5b5b5 d a b 2))
  | .maxu h d a b => some (slotWord h 0x19 (low_15_10_5b5b5b5 d a b 3))
  | .popc h d a => some (slotWord h 0x1A (low_15_10b5b5 d a 0))
  | .clz h d a => some (slotWord h 0x1A (low_15_10b5b5 d a 1))
  | .ctz h d a => some (slotWord h 0x1A (low_15_10b5b5 d a 2))
  | .bitrev h d a => some (slotWord h 0x1A (low_15_10b5b5 d a 3))
  | .byterev h d a => some (slotWord h 0x1A (low_15_10b5b5 d a 4))
  | .fld h d a ins sg sz pos => some (slotWord h 0x1B (low_15_10_9_8_6_0b5b5b1b1b2b6 d a ins sg sz pos 0))
  | .movi h d imm => some (slotWord h 0x1C (low_15_0b5b15 d imm 0))
  | .movhi h d imm => some (slotWord h 0x1D (low_15_0b5b15 d imm 0))
  | .lea h d a b sh => some (slotWord h 0x1E (low_15_10_5_0b5b5b5b3 d a b sh 0))
  | .sel h d a b p => some (slotWord h 0x1F (low_15_10_5_0b5b5b5b4 d a b p 0))
  | .cmp h fd a b cc pw => some (slotWord h 0x20 (low_16_11_6_2_1b4b5b5b4b1 fd a b cc pw 0))
  | .cmpi h fd a cc pw imm => some (slotWord h 0x21 (low_16_11_7_6_0b4b5b4b1b6 fd a cc pw imm 0))
  | .plog h fd a b tt pw mkx => some (slotWord h 0x22 (low_16_11_6_2_1_0b4b4b4b4b1b1 fd a b tt pw mkx 0))
  | .pmov h fd a cc pw => some (slotWord h 0x23 (low_16_11_2_1b4b5b4b1 fd a cc pw 0))
  | .fadd h d a b rz dbl => some (slotWord h 0x24 (low_15_10_5_4_3b5b5b5b1b1 d a b rz dbl 0))
  | .fsub h d a b rz dbl => some (slotWord h 0x24 (low_15_10_5_4_3b5b5b5b1b1 d a b rz dbl 1))
  | .fmul h d a b rz dbl => some (slotWord h 0x24 (low_15_10_5_4_3b5b5b5b1b1 d a b rz dbl 2))
  | .ffma h d a b rz dbl => some (slotWord h 0x24 (low_15_10_5_4_3b5b5b5b1b1 d a b rz dbl 3))
  | .fmin h d a b rz dbl => some (slotWord h 0x24 (low_15_10_5_4_3b5b5b5b1b1 d a b rz dbl 4))
  | .fmax h d a b rz dbl => some (slotWord h 0x24 (low_15_10_5_4_3b5b5b5b1b1 d a b rz dbl 5))
  | .fcmp h fd a b dbl cc pw => some (slotWord h 0x25 (low_16_11_6_5_2_1b4b5b5b1b3b1 fd a b dbl cc pw 0))
  | .ficvt h d a dbl => some (slotWord h 0x25 (low_16_11_2b4b5b1 d a dbl 1))
  | .fcvti h d a dbl => some (slotWord h 0x25 (low_16_11_2b4b5b1 d a dbl 9))
  | .fwiden h d a => some (slotWord h 0x25 (low_16_11b4b5 d a 17))
  | .fnarrow h d a => some (slotWord h 0x25 (low_16_11b4b5 d a 21))
  | .rdsr h d num => some (slotWord h 0x26 (low_15_0b5b10 d num 0))
  | .wrsr h a num => some (slotWord h 0x27 (low_10_0b5b10 a num 0))
  | .lds h d a lc sp off => some (slotWord h 0x28 (low_15_10_7_5_0b5b5b3b2b5 d a lc sp off 0))
  | .ldsp h d a lc sp off => some (slotWord h 0x29 (low_15_10_7_5_0b5b5b3b2b5 d a lc sp off 0))
  | .ldsv h d a lc sp off => some (slotWord h 0x2A (low_15_10_7_5_0b5b5b3b2b5 d a lc sp off 0))
  | .sts h d a sp off => some (slotWord h 0x2B (low_15_10_5_0b5b5b2b5 d a sp off 0))
  | .ldv h d a lc sp off => some (slotWord h 0x2C (low_15_10_7_5_0b5b5b3b2b5 d a lc sp off 0))
  | .ldvs h d a lc off => some (slotWord h 0x2D (low_15_10_7_0b5b5b3b5 d a lc off 64))
  | .ldvx h d a lc sp ix => some (slotWord h 0x2E (low_15_10_7_5_0b5b5b3b2b5 d a lc sp ix 0))
  | .stv h d a sp off => some (slotWord h 0x2F (low_15_10_5_0b5b5b2b5 d a sp off 0))
  | .stvs h vs a mk fmt sp => some (slotWord h 0x30 (low_15_10_6_2_0b5b5b4b4b2 vs a mk fmt sp 0))
  | .stvx h d a sp ix => some (slotWord h 0x31 (low_15_10_5_0b5b5b2b5 d a sp ix 0))
  | .pref h home a off => some (slotWord h 0x32 (low_15_10_0b1b5b5 home a off 0))
  | .chk h a b => some (slotWord h 0x33 (low_10_5b5b5 a b 0))
  | .chkVec h a b => some (slotWord h 0x33 (low_10_5b5b5 a b 1))
  | .cpchGo h a b => some (slotWord h 0x34 (low_10_5b5b5 a b 0))
  | .cpchSt h d a => some (slotWord h 0x34 (low_15_10b5b5 d a 1))
  | .cpchStop h a => some (slotWord h 0x34 (low_10b5 a 2))
  | .memcPhase h a b => some (slotWord h 0x35 (low_10_5b5b5 a b 0))
  | .memcRinv h d a b sc => some (slotWord h 0x35 (low_15_10_5_2b5b5b5b3 d a b sc 1))
  | .memcCreg h a b => some (slotWord h 0x35 (low_10_5b5b5 a b 2))
  | .memcCerr h a b => some (slotWord h 0x35 (low_10_5b5b5 a b 3))
  | .coll h a => some (slotWord h 0x36 (low_10b5 a 0))
  | .ring h a => some (slotWord h 0x36 (low_10b5 a 1))
  | .rsemRd h d a => some (slotWord h 0x36 (low_15_10b5b5 d a 2))
  | .rsemSet h a b => some (slotWord h 0x36 (low_10_5b5b5 a b 6))
  | .rsemAdd h a b => some (slotWord h 0x36 (low_10_5b5b5 a b 10))
  | .stabWr h a b => some (slotWord h 0x37 (low_10_5b5b5 a b 0))
  | .stabRd h d a b => some (slotWord h 0x37 (low_15_10_5b5b5b5 d a b 1))
  | .stabGo h a => some (slotWord h 0x37 (low_10b5 a 2))
  | .stabStop h => some (slotWord h 0x37 (low 3))
  | .stabReg h d a => some (slotWord h 0x37 (low_15_10b5b5 d a 4))
  | .stabLink h a b => some (slotWord h 0x37 (low_10_5b5b5 a b 5))
  | .stabClr h => some (slotWord h 0x37 (low 6))
  | .vadd h d a b fmt x => some (slotWord h 0x38 (low_15_10_5_1_0b5b5b5b4b1 d a b fmt x 0))
  | .vsub h d a b fmt x => some (slotWord h 0x39 (low_15_10_5_1_0b5b5b5b4b1 d a b fmt x 0))
  | .vmul h d a b fmt x => some (slotWord h 0x3A (low_15_10_5_1_0b5b5b5b4b1 d a b fmt x 0))
  | .vfma h d a b fmt x => some (slotWord h 0x3B (low_15_10_5_1_0b5b5b5b4b1 d a b fmt x 0))
  | .vmin h d a b fmt => some (slotWord h 0x3C (low_15_10_5_1b5b5b5b4 d a b fmt 0))
  | .vmax h d a b fmt => some (slotWord h 0x3C (low_15_10_5_1b5b5b5b4 d a b fmt 1))
  | .vabs h d a fmt => some (slotWord h 0x3D (low_15_10_1b5b5b4 d a fmt 0))
  | .vneg h d a fmt => some (slotWord h 0x3D (low_15_10_1b5b5b4 d a fmt 1))
  | .vand h d a b => some (slotWord h 0x3E (low_15_10_5b5b5b5 d a b 0))
  | .vor h d a b => some (slotWord h 0x3E (low_15_10_5b5b5b5 d a b 2))
  | .vxor h d a b => some (slotWord h 0x3E (low_15_10_5b5b5b5 d a b 4))
  | .vandn h d a b => some (slotWord h 0x3E (low_15_10_5b5b5b5 d a b 6))
  | .vorn h d a b => some (slotWord h 0x3E (low_15_10_5b5b5b5 d a b 8))
  | .vxnor h d a b => some (slotWord h 0x3E (low_15_10_5b5b5b5 d a b 10))
  | .vshl h d a b x => some (slotWord h 0x3F (low_15_10_5_0b5b5b5b1 d a b x 0))
  | .vshr h d a b x => some (slotWord h 0x3F (low_15_10_5_0b5b5b5b1 d a b x 2))
  | .vsar h d a b x => some (slotWord h 0x3F (low_15_10_5_0b5b5b5b1 d a b x 4))
  | .vcmp h c1 d a b fmt x => some (slotWord h 0x40 (low_19_15_10_5_1_0b1b4b5b5b4b1 c1 d a b fmt x 0))
  | .vsel h d a mk fmt => some (slotWord h 0x41 (low_15_10_5_1b5b5b4b4 d a mk fmt 0))
  | .vmaskPopc h d a => some (slotWord h 0x42 (low_15_10b5b4 d a 0))
  | .vmaskFfs h d a => some (slotWord h 0x42 (low_15_10b5b4 d a 2))
  | .vmaskTov h d a => some (slotWord h 0x42 (low_15_10b5b4 d a 4))
  | .vmaskFromv h d a => some (slotWord h 0x42 (low_15_10b4b5 d a 6))
  | .vmaskFromp h d a => some (slotWord h 0x42 (low_15_10b4b4 d a 8))
  | .vswz h d a c fmt => some (slotWord h 0x43 (low_15_10_5_1b5b5b5b4 d a c fmt 0))
  | .vperm h d a b fmt x => some (slotWord h 0x44 (low_15_10_5_1_0b5b5b5b4b1 d a b fmt x 0))
  | .vbc h d a fmt => some (slotWord h 0x45 (low_15_10_1b5b5b4 d a fmt 0))
  | .vbcLane h d a b fmt => some (slotWord h 0x45 (low_15_10_5_1b5b5b5b4 d a b fmt 1))
  | .vrsum h d a mk fmt => some (slotWord h 0x46 (low_15_10_5_1b5b5b4b4 d a mk fmt 0))
  | .vrmax h d a mk fmt => some (slotWord h 0x46 (low_15_10_5_1b5b5b4b4 d a mk fmt 1))
  | .vrmin h d a mk fmt => some (slotWord h 0x46 (low_15_10_5_1b5b5b4b4 d a mk fmt 512))
  | .vcvt h d a rnd fmt => some (slotWord h 0x47 (low_15_10_5_1b5b5b5b4 d a rnd fmt 0))
  | .vcvf h d a rnd fmt => some (slotWord h 0x47 (low_15_10_5_1b5b5b5b4 d a rnd fmt 1))
  | .vsxp h d a rnd fmt x => some (slotWord h 0x48 (low_15_10_5_1_0b5b5b5b4b1 d a rnd fmt x 0))
  | .vplnSplit h d a b32 pl fmt => some (slotWord h 0x49 (low_15_10_7_5_1b5b5b1b2b4 d a b32 pl fmt 0))
  | .vplnJoin h d a b32 pl fmt => some (slotWord h 0x49 (low_15_10_7_5_1b5b5b1b2b4 d a b32 pl fmt 1))
  | .vdiv h d a b fmt x => some (slotWord h 0x4A (low_15_10_5_1_0b5b5b5b4b1 d a b fmt x 0))
  | .vupd h d a b fmt x => some (slotWord h 0x4B (low_15_10_5_1_0b5b5b5b4b1 d a b fmt x 0))
  | .vidx h d a b fmt => some (slotWord h 0x4C (low_15_10_5_1b5b5b5b4 d a b fmt 0))
  | .vdot h d a b fmt x => some (slotWord h 0x4D (low_15_10_5_1_0b5b5b5b4b1 d a b fmt x 0))
  | .vrnd h d a rnd fmt => some (slotWord h 0x4E (low_15_10_5_1b5b5b5b4 d a rnd fmt 0))
  | .vhash h d a b fmt x => some (slotWord h 0x4F (low_15_10_5_1_0b5b5b5b4b1 d a b fmt x 0))
  | .xsin h d a fmt => some (slotWord h 0x50 (low_15_10_1b5b5b4 d a fmt 0))
  | .xcos h d a fmt => some (slotWord h 0x50 (low_15_10_1b5b5b4 d a fmt 1))
  | .xex2 h d a fmt => some (slotWord h 0x51 (low_15_10_1b5b5b4 d a fmt 0))
  | .xlg2 h d a fmt => some (slotWord h 0x51 (low_15_10_1b5b5b4 d a fmt 1))
  | .xrcp h d a fmt => some (slotWord h 0x52 (low_15_10_1b5b5b4 d a fmt 0))
  | .xrsq h d a fmt => some (slotWord h 0x52 (low_15_10_1b5b5b4 d a fmt 1))
  | .xtanh h d a fmt => some (slotWord h 0x53 (low_15_10_1b5b5b4 d a fmt 0))
  | .xsigm h d a fmt => some (slotWord h 0x53 (low_15_10_1b5b5b4 d a fmt 1))
  | .xtrn h d a cols fmt => some (slotWord h 0x54 (low_15_10_5_1b5b5b3b4 d a cols fmt 0))
  | .xcvt h d a b fmt x => some (slotWord h 0x55 (low_15_10_5_1_0b5b5b5b4b1 d a b fmt x 0))
  | .xcmp h d a fmt => some (slotWord h 0x56 (low_15_10_1b5b5b4 d a fmt 0))
  | .xexd h d a => some (slotWord h 0x57 (low_15_10b5b5 d a 0))
  | .mxld h pnm a fmt lc gw qb tr => some (slotWord h 0x5C (low_16_11_7_4_2_1_0b4b5b4b3b2b1b1 pnm a fmt lc gw qb tr 0))
  | .mxa h z a b fmt qb rv zs => some (slotWord h 0x5D (low_17_12_7_3_2_1_0b3b5b5b4b1b1b1 z a b fmt qb rv zs 0))
  | .mxav h z a fmt qb rv zs => some (slotWord h 0x5E (low_17_12_3_2_1_0b3b5b4b1b1b1 z a fmt qb rv zs 0))
  | .mxrd h z a b fmt rnd => some (slotWord h 0x5F (low_17_12_7_3_0b3b5b5b4b3 z a b fmt rnd 0))
  | .mxrk h z a b fmt zs => some (slotWord h 0x60 (low_17_12_7_3_0b3b5b5b4b1 z a b fmt zs 0))
  | .mxpnRd h d => some (slotWord h 0x61 (low_15b5 d 0))
  | .mxpnClaim h d mk => some (slotWord h 0x61 (low_15_0b5b4 d mk 256))
  | .mxpnRel h d mk => some (slotWord h 0x61 (low_15_0b5b4 d mk 512))
  | .mxsvSave h z a b => some (slotWord h 0x62 (low_17_12_7b3b5b5 z a b 0))
  | .mxsvLd h z a b => some (slotWord h 0x62 (low_17_12_7b3b5b5 z a b 1))
  | .mxsvSt h z d => some (slotWord h 0x62 (low_17_12b3b5 z d 2))
  | .govPol h a => some (slotWord h 0x63 (low_10b5 a 0))
  | .govRd h d a b => some (slotWord h 0x63 (low_15_10_5b5b5b5 d a b 1))
  | .govSet h a b => some (slotWord h 0x63 (low_10_5b5b5 a b 2))
  | .govClr h a => some (slotWord h 0x63 (low_10b5 a 3))
  | .gmeasMb h a b => some (slotWord h 0x64 (low_10_5b5b5 a b 0))
  | .gmeasTot h a b => some (slotWord h 0x64 (low_10_5b5b5 a b 1))
  | .gstep h d a b => some (slotWord h 0x65 (low_15_10_5b5b5b5 d a b 0))
  | .qpush h a b eos => some (slotWord h 0x68 (low_10_5_0b5b5b1 a b eos 0))
  | .qpushFwd h k b => some (slotWord h 0x68 (low_10_5b2b5 k b 2))
  | .qbind h k a => some (slotWord h 0x69 (low_15_10b2b5 k a 0))
  | .qunbind h k => some (slotWord h 0x69 (low_15b2 k 1))
  | .qrd h d k => some (slotWord h 0x69 (low_15_5b5b2 d k 2))
  | .qstat h d k => some (slotWord h 0x69 (low_15_5b5b2 d k 3))
  | .wop h w cnt lim => some (slotWord h 0x6A (low_16_10_0b4b6b10 w cnt lim 0))
  | .wadv h w cnt lim => some (slotWord h 0x6B (low_16_10_0b4b6b10 w cnt lim 0))
  | .wbindC h k a sp => some (slotWord h 0x6C (low_15_10_3b4b5b2 k a sp 0))
  | .wbindP h k a sp => some (slotWord h 0x6C (low_15_10_3b4b5b2 k a sp 1))
  | .wunbind h k => some (slotWord h 0x6C (low_15b4 k 2))
  | .wstat h d k => some (slotWord h 0x6C (low_15_5b5b4 d k 3))
  | .waddr h d k => some (slotWord h 0x6C (low_15_5b5b4 d k 4))
  | .mxsc h pnm a lc sp => some (slotWord h 0x6D (low_16_11_4_0b4b5b3b2 pnm a lc sp 0))
  | .bankAcq h a b => some (slotWord h 0x6E (low_10_5b5b5 a b 0))
  | .bankRel h a => some (slotWord h 0x6E (low_10b5 a 1))
  | .bankRd h d => some (slotWord h 0x6E (low_15b5 d 2))
  | .atomSwap h d a lc sp w4 => some (slotWord h 0x6F (low_15_10_7_5_4b5b5b3b2b1 d a lc sp w4 0))
  | .atomAdd h d a lc sp w4 => some (slotWord h 0x6F (low_15_10_7_5_4b5b5b3b2b1 d a lc sp w4 1))
  | .atomAnd h d a lc sp w4 => some (slotWord h 0x6F (low_15_10_7_5_4b5b5b3b2b1 d a lc sp w4 2))
  | .atomOr h d a lc sp w4 => some (slotWord h 0x6F (low_15_10_7_5_4b5b5b3b2b1 d a lc sp w4 3))
  | .atomXor h d a lc sp w4 => some (slotWord h 0x6F (low_15_10_7_5_4b5b5b3b2b1 d a lc sp w4 4))
  | .atomMin h d a lc sp w4 => some (slotWord h 0x6F (low_15_10_7_5_4b5b5b3b2b1 d a lc sp w4 5))
  | .atomMax h d a lc sp w4 => some (slotWord h 0x6F (low_15_10_7_5_4b5b5b3b2b1 d a lc sp w4 6))
  | .atomMinu h d a lc sp w4 => some (slotWord h 0x6F (low_15_10_7_5_4b5b5b3b2b1 d a lc sp w4 7))
  | .atomMaxu h d a lc sp w4 => some (slotWord h 0x6F (low_15_10_7_5_4b5b5b3b2b1 d a lc sp w4 8))
  | .atomCas h d a lc sp w4 => some (slotWord h 0x6F (low_15_10_7_5_4b5b5b3b2b1 d a lc sp w4 9))
  | .atomFadd h d a lc sp w4 => some (slotWord h 0x6F (low_15_10_7_5_4b5b5b3b2b1 d a lc sp w4 10))
  | .barArr h a b sc => some (slotWord h 0x70 (low_10_5_2b5b5b3 a b sc 0))
  | .barSync h a b sc => some (slotWord h 0x70 (low_10_5_2b5b5b3 a b sc 1))
  | .barWt h a b sc => some (slotWord h 0x70 (low_10_5_2b5b5b3 a b sc 2))
  | .drain h d sc => some (slotWord h 0x71 (low_15_2b5b3 d sc 0))
  | .rteClm h d a b => some (slotWord h 0x72 (low_15_10_5b5b5b5 d a b 0))
  | .rteSnd h vs a b => some (slotWord h 0x72 (low_15_10_5b5b5b5 vs a b 1))
  | .evtSig h a => some (slotWord h 0x73 (low_10b5 a 0))
  | .evtWait h a b => some (slotWord h 0x73 (low_10_5b5b5 a b 1))
  | .evtRd h d a => some (slotWord h 0x73 (low_15_10b5b5 d a 2))
  | .task h d a => some (slotWord h 0x74 (low_15_10b5b5 d a 0))
  | .dspj h d a b => some (slotWord h 0x75 (low_15_10_5b5b5b5 d a b 0))
  | .ctxRd h d a b => some (slotWord h 0x76 (low_15_10_5b5b5b5 d a b 0))
  | .ctxWr h d a b => some (slotWord h 0x76 (low_15_10_5b5b5b5 d a b 1))
  | .csvSave h a b => some (slotWord h 0x77 (low_10_5b5b5 a b 0))
  | .csvLd h a b => some (slotWord h 0x77 (low_10_5b5b5 a b 1))
  | .csvFree h a => some (slotWord h 0x77 (low_10b5 a 2))
  | .csvEnd h b => some (slotWord h 0x77 (low_5b5 b 3))
  | .tret h a => some (slotWord h 0x78 (low_10b5 a 0))
  | .tlbiAll h pkg => some (slotWord h 0x79 (low_2b1 pkg 0))
  | .tlbiVf h a pkg => some (slotWord h 0x79 (low_10_2b5b1 a pkg 1))
  | .tlbiPg h a b pkg => some (slotWord h 0x79 (low_10_5_2b5b5b1 a b pkg 2))
  | .monCfg h a b => some (slotWord h 0x7A (low_10_5b5b5 a b 0))
  | .monRd h d a => some (slotWord h 0x7A (low_15_10b5b5 d a 1))
  | .monClr h a => some (slotWord h 0x7A (low_10b5 a 2))
  | .wswOut h a b => some (slotWord h 0x7B (low_10_5b5b5 a b 0))
  | .wswIn h a b => some (slotWord h 0x7B (low_10_5b5b5 a b 1))
  | .dbgStep h a => some (slotWord h 0x7C (low_10b5 a 0))
  | .dbgStop h a => some (slotWord h 0x7C (low_10b5 a 1))
  | .dbgBrk h a b => some (slotWord h 0x7C (low_10_5b5b5 a b 2))
  | .cfgRd h d a b => some (slotWord h 0x7D (low_15_10_5b5b5b5 d a b 0))
  | .cfgWr h d a b => some (slotWord h 0x7D (low_15_10_5b5b5b5 d a b 1))
  | .scribe => none
  | .govtabAssign => none
  | .govtabRelease => none
  | .qresBringIn => none
  | .qresTakeOut => none
  | .releasedEffectPerform => none
  | .loadLanding => none
  | .deferredTrap => none
  | .boundaryStop => none
  | .boundedWaitExpiry => none
  | .launchOrderWait => none
  | .paneOperationStart => none
  | .paneOperationComplete => none
  | .paneReplay => none
  | .paneFetchFailure => none
  | .paneGrant => none
  | .reencodeStart => none
  | .reencodeEnd => none
  | .reencodeFailure => none
  | .gstepEffect => none
  | .govEffect => none
  | .bankGiveUp => none
  | .taskReady => none
  | .taskComplete => none
  | .budgetExpired => none
  | .yieldOverrun => none
  | .copyLineWrite => none
  | .copyChannelComplete => none
  | .copyChannelHalt => none
  | .carveMoveEnd => none
  | .rangeInvalidationEnd => none
  | .collectiveChunk => none
  | .collectiveComplete => none
  | .collectiveHaltNotice => none
  | .ringChunk => none
  | .ringChunkReceive => none
  | .walkerCycle => none
  | .walkerEntryComplete => none
  | .wellPushLine => none
  | .freeSlotUpdate => none
  | .mirrorRequest => none
  | .mirrorReply => none
  | .claimSend => none
  | .claimGrant => none
  | .routeRefusal => none
  | .stashRequest => none
  | .stashGrant => none
  | .stashRefusal => none
  | .stashRelease => none
  | .remoteRead => none
  | .remoteWrite => none
  | .remoteResponse => none
  | .linkFailure => none
  | .messageFailure => none
  | .pageTableWalk => none
  | .l1Eviction => none
  | .memoryErrorDetect => none
  | .errorReport => none
  | .noticeDelivery => none
  | .streamWake => none
  | .tail => none
  | .stream => none
  | .cpctlRun => none
  | .cpctlStop => none
  | .quiesceRequest => none
  | .quiesceWithdraw => none
  | .quiesceComplete => none
  | .hostRegisterWrite => none
  | .functionLevelReset => none
  | .powerOnReset => none
  | .bootVerification => none
  | .powerRemoval => none
  | .thermalWarning => none
  | .thermtrip => none
  | .getVersion => none
  | .getCapabilities => none
  | .negotiateAlgorithms => none
  | .getDigests => none
  | .getCertificate => none
  | .challenge => none
  | .getMeasurements => none
  | .unsupportedRequest => none
  | .instructionStoreFill => none
  | .linkReturn => none
  | .sidebandRefresh => none

/-- The slot word of an instruction (zero for a step that has no encoding). -/
def encode (i : Instr) : SlotWord := BitVec.ofNat 32 ((encodeNat i).getD 0)

/-- The instruction that this decoder reads from a word of `nbits` bits numbered as spec/opcode_table.json numbers them.
Every instruction of this hardware is one 32-bit slot (02 R25); a row without an encoding has no word. -/
def decodeTableWord (nbits w : Nat) : Option Instr :=
  if nbits ≤ 32 then (decode (BitVec.ofNat 32 w)).toOption else none

/-- The slot words of a bundle laid out in memory, little-endian (00 R6; 02 R25). -/
def wordBytes (w : SlotWord) : List Byte :=
  [w.extractLsb' 0 8, w.extractLsb' 8 8, w.extractLsb' 16 8, w.extractLsb' 24 8]

/-- The slot word that four bytes of memory hold (00 R6). -/
def bytesWord (b0 b1 b2 b3 : Byte) : SlotWord := b3 ++ b2 ++ b1 ++ b0

end Sys2Proof
end

