-- ==== Sys2Proof/Machine/Tab.lean ====
section
/-!
DEFINITION. Sparse tables: a list of (key, value) pairs with strictly rising keys in which no value equals what an unlisted
key reads as. Equal tables are equal lists, so a state that holds them is plain data and is compared by its fields.
Used for memory, caches, queues, tasks and every bank of registers that is too large to write out.
-/

namespace Sys2Proof.Machine

/-- A sparse table of `α` by number. -/
abbrev SMap (α : Type) := List (Nat × α)

/-- The value at key `k`, `d` when it is not listed. -/
def SMap.get {α : Type} (d : α) : SMap α → Nat → α
  | [], _ => d
  | (j, x) :: r, k => if j = k then x else SMap.get d r k

/-- Forget key `k`. -/
def SMap.erase {α : Type} : SMap α → Nat → SMap α
  | [], _ => []
  | (j, x) :: r, k => if j = k then SMap.erase r k else (j, x) :: SMap.erase r k

/-- List `x` at key `k`, in key order. -/
def SMap.insert {α : Type} : SMap α → Nat → α → SMap α
  | [], k, x => [(k, x)]
  | (j, y) :: r, k, x =>
    if j = k then (k, x) :: r else if k < j then (k, x) :: (j, y) :: r else (j, y) :: SMap.insert r k x

/-- Make key `k` read as `x`: writing what an unlisted key reads as removes the entry. -/
def SMap.put {α : Type} [DecidableEq α] (d : α) (t : SMap α) (k : Nat) (x : α) : SMap α :=
  if x = d then t.erase k else t.insert k x

/-- Change the value at key `k`. -/
def SMap.upd {α : Type} [DecidableEq α] (d : α) (t : SMap α) (k : Nat) (f : α → α) : SMap α :=
  t.put d k (f (t.get d k))

/-- Keys rise strictly from `lo`. -/
def SMap.rising {α : Type} : Nat → SMap α → Bool
  | _, [] => true
  | lo, (j, _) :: r => decide (lo ≤ j) && SMap.rising (j + 1) r

/-- The canonical form: strictly rising keys, no value that equals the default. -/
def SMap.wf {α : Type} [DecidableEq α] (d : α) (t : SMap α) : Bool :=
  t.rising 0 && t.all (fun c => decide (c.2 ≠ d))

end Sys2Proof.Machine
end

