-- ==== Sys2Proof/Machine/Event.lean ====
section
/-!
DEFINITION. The operands of the steps that have no encoding: what an engine, the scheduler or the outside world hands to the row of the
opcode table that it performs. One constructor per such row; `Ev.instr` is that row's instruction.
-/

namespace Sys2Proof

/-- What the sideband reports: the temperature of each die, the current of each rail (the core rails by die, then the stack rail and the link rail), the package's
power (23 R390, R401). -/
structure Sensors where
  temps : Vector Nat 4 := Vector.replicate 4 0
  currents : Vector Nat 6 := Vector.replicate 6 0
  power : Nat := 0
  deriving DecidableEq, Repr

/-- What every semantic message carries beside its type: its source package and die, its destination die, its tag (19 R347). -/
structure MsgHdr where
  pkg : Nat
  die : Nat
  dest : Nat
  tag : Nat
  deriving DecidableEq, Repr

/-- One 64 KiB chunk of an all-reduce on its way round the ring, with the values its sender runs under, the sender's package and die and the message's tag
(15 R282; 19 R347, R349). `no` counts the operations of the group at the sender (log 63). -/
structure CollChunk where
  grp : Nat
  no : Nat
  op : Nat
  fmt : Nat
  nbuf : Nat
  lens : List Nat
  rank : Nat
  pkg : Nat
  die : Nat
  tag : Nat
  idx : Nat
  result : Bool
  bad : Bool
  bytes : List (BitVec 8)
  deriving DecidableEq, Repr

/-- One chunk of a RING operation at its successor, with the sender's package, die and tag, its process and function, and whether it met an uncorrectable
error on its way (15 R282, R284; 19 R347). `written` tells that its writes have performed. -/
structure RingChunk where
  pkg : Nat
  die : Nat
  tag : Nat
  proc : Nat
  vf : Nat
  bad : Bool := false
  written : Bool := false
  op : Nat
  fmt : Nat
  sem : Nat
  dst : BitVec 64
  bytes : List (BitVec 8)
  deriving DecidableEq, Repr

/-- A token of `rte.snd` at its claim object on die `dest`; `far` tells that it names its package, so that fabric rights decide (12 R242; 19 R347). -/
structure Token where
  who : Agent
  pkg : Nat
  die : Nat
  dest : Nat
  obj : BitVec 64
  tid : BitVec 32
  rq : Nat
  tag : Nat
  vf : Nat
  far : Bool
  payload : BitVec 4096
  deriving DecidableEq, Repr

/-- A claim of `rte.clm` at its claim object; `ref` names the landing entry that waits for it (12 R242). -/
structure Claim where
  who : Agent
  obj : BitVec 64
  tid : BitVec 32
  cnt : Nat
  ref : Nat
  deriving DecidableEq, Repr

/-- Agents of the package (01 R9). -/
def Agent.ok : Agent → Bool
  | .ctx c k => c < 512 && k < 8
  | .scribe c => c < 64
  | .cp d => d < 4

/-- A step without an encoding, with its operands. -/
inductive Ev where
  /-- SCRIBE (R249) -/
  | scribe (cl : Nat) (word : BitVec 64)
  /-- GOVTAB_ASSIGN (R209) -/
  | govtabAssign (tbl : Nat) (proc : Nat)
  /-- GOVTAB_RELEASE (R207) -/
  | govtabRelease (tbl : Nat) (proc : Nat)
  /-- QRES_BRING_IN (R263) -/
  | qresBringIn (proc : Nat) (q : Nat) (home : Nat)
  /-- QRES_TAKE_OUT (R263) -/
  | qresTakeOut (proc : Nat) (q : Nat)
  /-- RELEASED_EFFECT_PERFORM (R120) -/
  | releasedEffectPerform (who : Agent)
  /-- LOAD_LANDING (R90) -/
  | loadLanding (who : Agent) (id : Nat)
  /-- DEFERRED_TRAP (R268) -/
  | deferredTrap (who : Agent)
  /-- BOUNDARY_STOP (R366) -/
  | boundaryStop (who : Agent)
  /-- BOUNDED_WAIT_EXPIRY (R218) -/
  | boundedWaitExpiry (who : Agent)
  /-- LAUNCH_ORDER_WAIT (R251) -/
  | launchOrderWait (who : Agent)
  /-- PANE_OPERATION_START (R180) -/
  | paneOperationStart (core : Nat) (pane : Nat)
  /-- PANE_OPERATION_COMPLETE (R175) -/
  | paneOperationComplete (core : Nat) (pane : Nat)
  /-- PANE_REPLAY (R202) -/
  | paneReplay (core : Nat) (pane : Nat)
  /-- PANE_FETCH_FAILURE (R180) -/
  | paneFetchFailure (core : Nat) (pane : Nat)
  /-- PANE_GRANT (R206) -/
  | paneGrant (core : Nat)
  /-- REENCODE_START (R215) -/
  | reencodeStart (id : Nat)
  /-- REENCODE_END (R214) -/
  | reencodeEnd (id : Nat)
  /-- REENCODE_FAILURE (R216) -/
  | reencodeFailure (id : Nat)
  /-- GSTEP_EFFECT (R190) -/
  | gstepEffect (id : Nat)
  /-- GOV_EFFECT (R187) -/
  | govEffect (id : Nat)
  /-- BANK_GIVE_UP (R262) -/
  | bankGiveUp (cl : Nat) (tk : Nat) (mask : BitVec 32)
  /-- TASK_READY (R251) -/
  | taskReady (tk : Nat)
  /-- TASK_COMPLETE (R251) -/
  | taskComplete (tk : Nat)
  /-- BUDGET_EXPIRED (R254) -/
  | budgetExpired (tk : Nat)
  /-- YIELD_OVERRUN (R257) -/
  | yieldOverrun (core : Nat) (k : Nat)
  /-- COPY_LINE_WRITE (R273) -/
  | copyLineWrite (cl : Nat) (ch : Nat)
  /-- COPY_CHANNEL_COMPLETE (R269) -/
  | copyChannelComplete (cl : Nat) (ch : Nat)
  /-- COPY_CHANNEL_HALT (R276) -/
  | copyChannelHalt (cl : Nat) (ch : Nat) (cause : Nat) (reason : Nat) (addr : BitVec 64) (under : Nat)
  /-- CARVE_MOVE_END (R277) -/
  | carveMoveEnd (cl : Nat)
  /-- RANGE_INVALIDATION_END (R278) -/
  | rangeInvalidationEnd (id : Nat)
  /-- COLLECTIVE_CHUNK (R349) -/
  | collectiveChunk (die : Nat) (ck : CollChunk)
  /-- COLLECTIVE_COMPLETE (R282) -/
  | collectiveComplete (die : Nat)
  /-- COLLECTIVE_HALT_NOTICE (R282) -/
  | collectiveHaltNotice (h : MsgHdr) (coll : Bool) (grp : Nat) (no : Nat) (cause : Nat) (reason : Nat)
  /-- RING_CHUNK (R284) -/
  | ringChunk (die : Nat)
  /-- RING_CHUNK_RECEIVE (R284) -/
  | ringChunkReceive (die : Nat) (ck : RingChunk)
  /-- WALKER_CYCLE (R336) -/
  | walkerCycle
  /-- WALKER_ENTRY_COMPLETE (R338) -/
  | walkerEntryComplete
  /-- WELL_PUSH_LINE (R347) -/
  | wellPushLine (h : MsgHdr) (vf : Nat) (dst : Nat) (line : BitVec 1024)
  /-- FREE_SLOT_UPDATE (R340) -/
  | freeSlotUpdate (h : MsgHdr) (n : Nat)
  /-- MIRROR_REQUEST (R340) -/
  | mirrorRequest (h : MsgHdr) (wref : BitVec 32)
  /-- MIRROR_REPLY (R341) -/
  | mirrorReply (h : MsgHdr) (n : Nat)
  /-- CLAIM_SEND (R242) -/
  | claimSend (tok : Token)
  /-- CLAIM_GRANT (R242) -/
  | claimGrant (cla : Claim)
  /-- ROUTE_REFUSAL (R242) -/
  | routeRefusal (h : MsgHdr) (who : Agent) (rq : Nat) (tid : BitVec 32) (reason : Nat) (obj : BitVec 64)
  /-- STASH_REQUEST (R343) -/
  | stashRequest (h : MsgHdr)
  /-- STASH_GRANT (R343) -/
  | stashGrant (h : MsgHdr)
  /-- STASH_REFUSAL (R344) -/
  | stashRefusal (h : MsgHdr)
  /-- STASH_RELEASE (R343) -/
  | stashRelease (h : MsgHdr)
  /-- REMOTE_READ (R347) -/
  | remoteRead (h : MsgHdr) (vf : Nat) (addr : Nat) (len : Nat)
  /-- REMOTE_WRITE (R347) -/
  | remoteWrite (h : MsgHdr) (vf : Nat) (addr : Nat) (bytes : List (BitVec 8))
  /-- REMOTE_RESPONSE (R347) -/
  | remoteResponse (h : MsgHdr) (bytes : List (BitVec 8))
  /-- LINK_FAILURE (R407) -/
  | linkFailure (port : Nat)
  /-- MESSAGE_FAILURE (R407) -/
  | messageFailure (tag : Nat) (cause : Nat) (info : Nat := 0)
  /-- PAGE_TABLE_WALK (R385) -/
  | pageTableWalk (who : Agent) (acc : Nat) (va : BitVec 64)
  /-- L1_EVICTION (R299) -/
  | l1Eviction (core : Nat) (key : Nat)
  /-- MEMORY_ERROR_DETECT (R315) -/
  | memoryErrorDetect (who : Agent) (unit : Nat) (addr : Nat) (fatal : Bool)
  /-- ERROR_REPORT (R380) -/
  | errorReport (id : Nat)
  /-- NOTICE_DELIVERY (R370) -/
  | noticeDelivery
  /-- STREAM_WAKE (R247) -/
  | streamWake (die : Nat) (addr : BitVec 64)
  /-- TAIL (R247) -/
  | tail (die : Nat) (addr : BitVec 64)
  /-- STREAM (R399) -/
  | stream (die : Nat) (addr : BitVec 64)
  /-- CPCTL_RUN (R400) -/
  | cpctlRun (die : Nat)
  /-- CPCTL_STOP (R400) -/
  | cpctlStop (die : Nat)
  /-- QUIESCE_REQUEST (R398) -/
  | quiesceRequest
  /-- QUIESCE_WITHDRAW (R400) -/
  | quiesceWithdraw
  /-- QUIESCE_COMPLETE (R398) -/
  | quiesceComplete
  /-- HOST_REGISTER_WRITE (R394) -/
  | hostRegisterWrite (vf : Option Nat) (off : Nat) (val : BitVec 64)
  /-- FUNCTION_LEVEL_RESET (R398) -/
  | functionLevelReset (vf : Option Nat)
  /-- POWER_ON_RESET (R389) -/
  | powerOnReset
  /-- BOOT_VERIFICATION (R402) -/
  | bootVerification (image : List (BitVec 8)) (verifying : Bool)
  /-- POWER_REMOVAL (R389) -/
  | powerRemoval
  /-- THERMAL_WARNING (R391) -/
  | thermalWarning (die : Nat)
  /-- THERMTRIP (R391) -/
  | thermtrip (die : Nat)
  /-- GET_VERSION (R403) -/
  | getVersion
  /-- GET_CAPABILITIES (R403) -/
  | getCapabilities
  /-- NEGOTIATE_ALGORITHMS (R403) -/
  | negotiateAlgorithms
  /-- GET_DIGESTS (R403) -/
  | getDigests
  /-- GET_CERTIFICATE (R403) -/
  | getCertificate (slot : Nat) (off : Nat) (len : Nat)
  /-- CHALLENGE (R403) -/
  | challenge (slot : Nat) (nonce : BitVec 256)
  /-- GET_MEASUREMENTS (R404) -/
  | getMeasurements (index : Nat) (nonce : BitVec 256)
  /-- UNSUPPORTED_REQUEST (R403) -/
  | unsupportedRequest (code : Nat)
  /-- INSTRUCTION_STORE_FILL (R300) -/
  | instructionStoreFill (core : Nat) (line : Nat)
  /-- LINK_RETURN (R394) -/
  | linkReturn (port : Nat)
  /-- SIDEBAND_REFRESH (R401) -/
  | sidebandRefresh (vals : Sensors)
  deriving DecidableEq, Repr

/-- The instruction that a step performs. -/
def Ev.instr : Ev → Instr
  | .scribe .. => .scribe
  | .govtabAssign .. => .govtabAssign
  | .govtabRelease .. => .govtabRelease
  | .qresBringIn .. => .qresBringIn
  | .qresTakeOut .. => .qresTakeOut
  | .releasedEffectPerform .. => .releasedEffectPerform
  | .loadLanding .. => .loadLanding
  | .deferredTrap .. => .deferredTrap
  | .boundaryStop .. => .boundaryStop
  | .boundedWaitExpiry .. => .boundedWaitExpiry
  | .launchOrderWait .. => .launchOrderWait
  | .paneOperationStart .. => .paneOperationStart
  | .paneOperationComplete .. => .paneOperationComplete
  | .paneReplay .. => .paneReplay
  | .paneFetchFailure .. => .paneFetchFailure
  | .paneGrant .. => .paneGrant
  | .reencodeStart .. => .reencodeStart
  | .reencodeEnd .. => .reencodeEnd
  | .reencodeFailure .. => .reencodeFailure
  | .gstepEffect .. => .gstepEffect
  | .govEffect .. => .govEffect
  | .bankGiveUp .. => .bankGiveUp
  | .taskReady .. => .taskReady
  | .taskComplete .. => .taskComplete
  | .budgetExpired .. => .budgetExpired
  | .yieldOverrun .. => .yieldOverrun
  | .copyLineWrite .. => .copyLineWrite
  | .copyChannelComplete .. => .copyChannelComplete
  | .copyChannelHalt .. => .copyChannelHalt
  | .carveMoveEnd .. => .carveMoveEnd
  | .rangeInvalidationEnd .. => .rangeInvalidationEnd
  | .collectiveChunk .. => .collectiveChunk
  | .collectiveComplete .. => .collectiveComplete
  | .collectiveHaltNotice .. => .collectiveHaltNotice
  | .ringChunk .. => .ringChunk
  | .ringChunkReceive .. => .ringChunkReceive
  | .walkerCycle => .walkerCycle
  | .walkerEntryComplete => .walkerEntryComplete
  | .wellPushLine .. => .wellPushLine
  | .freeSlotUpdate .. => .freeSlotUpdate
  | .mirrorRequest .. => .mirrorRequest
  | .mirrorReply .. => .mirrorReply
  | .claimSend .. => .claimSend
  | .claimGrant .. => .claimGrant
  | .routeRefusal .. => .routeRefusal
  | .stashRequest .. => .stashRequest
  | .stashGrant .. => .stashGrant
  | .stashRefusal .. => .stashRefusal
  | .stashRelease .. => .stashRelease
  | .remoteRead .. => .remoteRead
  | .remoteWrite .. => .remoteWrite
  | .remoteResponse .. => .remoteResponse
  | .linkFailure .. => .linkFailure
  | .messageFailure .. => .messageFailure
  | .pageTableWalk .. => .pageTableWalk
  | .l1Eviction .. => .l1Eviction
  | .memoryErrorDetect .. => .memoryErrorDetect
  | .errorReport .. => .errorReport
  | .noticeDelivery => .noticeDelivery
  | .streamWake .. => .streamWake
  | .tail .. => .tail
  | .stream .. => .stream
  | .cpctlRun .. => .cpctlRun
  | .cpctlStop .. => .cpctlStop
  | .quiesceRequest => .quiesceRequest
  | .quiesceWithdraw => .quiesceWithdraw
  | .quiesceComplete => .quiesceComplete
  | .hostRegisterWrite .. => .hostRegisterWrite
  | .functionLevelReset .. => .functionLevelReset
  | .powerOnReset => .powerOnReset
  | .bootVerification .. => .bootVerification
  | .powerRemoval => .powerRemoval
  | .thermalWarning .. => .thermalWarning
  | .thermtrip .. => .thermtrip
  | .getVersion => .getVersion
  | .getCapabilities => .getCapabilities
  | .negotiateAlgorithms => .negotiateAlgorithms
  | .getDigests => .getDigests
  | .getCertificate .. => .getCertificate
  | .challenge .. => .challenge
  | .getMeasurements .. => .getMeasurements
  | .unsupportedRequest .. => .unsupportedRequest
  | .instructionStoreFill .. => .instructionStoreFill
  | .linkReturn .. => .linkReturn
  | .sidebandRefresh .. => .sidebandRefresh

/-- The type and the header of a semantic message as the step that it makes at its receiver; a halt notice travels as the chunks do (19 R347, log 18). -/
def Ev.message : Ev → Option (Nat × MsgHdr)
  | .wellPushLine h _ _ _ => some (1, h)
  | .freeSlotUpdate h _ => some (2, h)
  | .mirrorRequest h _ | .mirrorReply h _ => some (3, h)
  | .claimSend t => some (4, { pkg := t.pkg, die := t.die, dest := t.dest, tag := t.tag })
  | .routeRefusal h _ _ _ _ _ => some (4, h)
  | .stashRequest h | .stashGrant h | .stashRefusal h | .stashRelease h => some (5, h)
  | .collectiveChunk die ck => some (6, { pkg := ck.pkg, die := ck.die, dest := die, tag := ck.tag })
  | .ringChunkReceive die ck => some (6, { pkg := ck.pkg, die := ck.die, dest := die, tag := ck.tag })
  | .collectiveHaltNotice h _ _ _ _ _ => some (6, h)
  | .remoteRead h _ _ _ | .remoteWrite h _ _ _ | .remoteResponse h _ => some (7, h)
  | _ => none

/-- Whether a header names dies that a package has, a package and a tag of its width. -/
def MsgHdr.ok (h : MsgHdr) : Bool := decide (h.pkg < 2 ^ 16) && decide (h.die < 4) && decide (h.dest < 4) && decide (h.tag < 2 ^ 32)
/-- Whether a semantic message has such a header. -/
def Ev.hdrOk (e : Ev) : Bool := match e.message with
  | some (_, h) => h.ok
  | none => true

/-- Whether a step's operands name agents and units that the package has (01 R9; 11 R207; 12 R224; 15 R271; 19 R346; 23 R395). -/
def Ev.unitOk : Ev → Bool
  | .scribe cl _ => (decide (cl < 64))
  | .govtabAssign tbl proc => (decide (tbl < 32) && decide (proc < 1024))
  | .govtabRelease tbl proc => (decide (tbl < 32) && decide (proc < 1024))
  | .qresBringIn proc q home => (decide (proc < 1024) && decide (q < 4096) && decide (home < 64))
  | .qresTakeOut proc q => (decide (proc < 1024) && decide (q < 4096))
  | .releasedEffectPerform who => who.ok
  | .loadLanding who _ => who.ok
  | .deferredTrap who => who.ok
  | .boundaryStop who => who.ok
  | .boundedWaitExpiry who => who.ok
  | .launchOrderWait who => who.ok
  | .paneOperationStart core pane => (decide (core < 512) && decide (pane < 4))
  | .paneOperationComplete core pane => (decide (core < 512) && decide (pane < 4))
  | .paneReplay core pane => (decide (core < 512) && decide (pane < 4))
  | .paneFetchFailure core pane => (decide (core < 512) && decide (pane < 4))
  | .paneGrant core => (decide (core < 512))
  | .reencodeStart _ => true
  | .reencodeEnd _ => true
  | .reencodeFailure _ => true
  | .gstepEffect _ => true
  | .govEffect _ => true
  | .bankGiveUp cl _ _ => (decide (cl < 64))
  | .taskReady _ => true
  | .taskComplete _ => true
  | .budgetExpired _ => true
  | .yieldOverrun core k => (decide (core < 512) && decide (k < 8))
  | .copyLineWrite cl ch => (decide (cl < 64) && decide (ch < 16))
  | .copyChannelComplete cl ch => (decide (cl < 64) && decide (ch < 16))
  | .copyChannelHalt cl ch _ _ _ _ => (decide (cl < 64) && decide (ch < 16))
  | .carveMoveEnd cl => (decide (cl < 64))
  | .rangeInvalidationEnd _ => true
  | .collectiveChunk die _ => (decide (die < 4))
  | .collectiveComplete die => (decide (die < 4))
  | .collectiveHaltNotice .. => true
  | .ringChunk die => (decide (die < 4))
  | .ringChunkReceive die _ => (decide (die < 4))
  | .walkerCycle => true
  | .walkerEntryComplete => true
  | .wellPushLine .. => true
  | .freeSlotUpdate .. => true
  | .mirrorRequest .. => true
  | .mirrorReply .. => true
  | .claimSend tok => tok.who.ok
  | .claimGrant cla => cla.who.ok
  | .routeRefusal _ who _ _ _ _ => who.ok
  | .stashRequest _ => true
  | .stashGrant _ => true
  | .stashRefusal _ => true
  | .stashRelease _ => true
  | .remoteRead .. => true
  | .remoteWrite .. => true
  | .remoteResponse _ _ => true
  | .linkFailure port => (decide (port < 48))
  | .messageFailure .. => true
  | .pageTableWalk who acc _ => (who.ok && decide (acc < 5))
  | .l1Eviction core _ => (decide (core < 512))
  | .memoryErrorDetect who unit _ _ => (who.ok && (match who with | .ctx _ _ => decide (unit < 6) | _ => decide (unit < 4)))
  | .errorReport _ => true
  | .noticeDelivery => true
  | .streamWake die _ => (decide (die < 4))
  | .tail die _ => (decide (die < 4))
  | .stream die _ => (decide (die < 4))
  | .cpctlRun die => (decide (die < 4))
  | .cpctlStop die => (decide (die < 4))
  | .quiesceRequest => true
  | .quiesceWithdraw => true
  | .quiesceComplete => true
  | .hostRegisterWrite vf _ _ => (match vf with | none => true | some n => decide (n < 32))
  | .functionLevelReset vf => (vf.all (fun v => decide (v < 32)))
  | .powerOnReset => true
  | .bootVerification _ _ => true
  | .powerRemoval => true
  | .thermalWarning die => (decide (die < 4))
  | .thermtrip die => (decide (die < 4))
  | .getVersion => true
  | .getCapabilities => true
  | .negotiateAlgorithms => true
  | .getDigests => true
  | .getCertificate _ _ _ => true
  | .challenge _ _ => true
  | .getMeasurements _ _ => true
  | .unsupportedRequest _ => true
  | .instructionStoreFill core _ => (decide (core < 512))
  | .linkReturn port => (decide (port < 48))
  | .sidebandRefresh _ => true
/-- Whether a step's operands are such as the package can meet. -/
def Ev.ok (e : Ev) : Bool := e.unitOk && e.hdrOk

/-- Whether a step belongs after the contexts of its cc: an engine's writes and arrivals (12 R222; 21 R363), the completions of the cc, which its slots do not see
(14 R251). -/
def Ev.late : Ev → Bool
  | .collectiveChunk _ _ => true
  | .ringChunkReceive _ c => !c.written
  | .reencodeEnd _ => true
  | .rangeInvalidationEnd _ => true
  | .paneGrant _ => true
  | .taskComplete _ => true
  | _ => false
/-- Whether a step belongs after the walker too, which launches as a command processor does: the grants follow every TASK of the cc (11 R206; 19 R336). -/
def Ev.last : Ev → Bool
  | .paneGrant _ => true
  | _ => false

end Sys2Proof
end

