-- ==== Sys2Proof/Machine/State.lean ====
section
/-!
DEFINITION. The state of a package: every piece the spec names (INVENTORY.md, '## State', lists them with their rules),
and the state right after reset.
-/

namespace Sys2Proof.Machine

/-- Reasons a step stops with a fault. Every cause of the spec (22 R369) is TAKEN as a next state; this type holds only what the outside
world cannot do to the package. -/
inductive Fault where
  /-- Raised by a step without an encoding whose operands (`State.ev`) are another step's, or name an agent or unit that the package does
  not have (01 R9). Safe: the hardware has no such event. -/
  | noSuchUnit
  deriving DecidableEq, Repr

/-- Reasons a step has no meaning. -/
inductive Refusal where
  /-- Raised by an arm of `exec` whose instruction has no meaning yet. Safe: nothing can be proved of it. -/
  | notModelled (mnemonic : String)
  deriving DecidableEq, Repr

/-! ## Registers -/

/-- A well handle w0 to w15 (12 R231). `blk` is the block's address in its space; `own` the role's own pointer (R232). -/
structure WHandle where
  bound : Bool := false
  prod : Bool := false
  vault : Bool := false
  blk : BitVec 64 := 0
  own : BitVec 32 := 0
  deriving DecidableEq, Repr

/-- A queue head qh0 to qh3 (12 R227, R228): its queue and its position. The element latched there, with its EOS bit, is the queue's own element
at that position as soon as its push has performed (`State.latched`). -/
structure QHead where
  bound : Bool := false
  queue : BitVec 12 := 0
  pos : BitVec 32 := 0
  deriving DecidableEq, Repr

/-- Kinds of loop level (04 R71). -/
inductive LoopKind where
  | counted | pipelined | stream
  deriving DecidableEq, Repr

/-- A level of the loop stack (04 R71). -/
structure Level where
  kind : LoopKind := .counted
  kc : BitVec 64 := 0
  ec : BitVec 64 := 0
  idx : BitVec 64 := 0
  start : BitVec 64 := 0
  fin : BitVec 64 := 0
  head : BitVec 2 := 0
  done : Bool := false
  deriving DecidableEq, Repr

/-- The control registers of a context: what lead slots, WRSR, queue heads and well handles use (06 R118). `loops` is innermost
first, `rets` newest first. -/
structure Ctl where
  w : Vector WHandle 16 := Vector.replicate 16 {}
  qh : Vector QHead 4 := Vector.replicate 4 {}
  lc : Vector (BitVec 12) 8 := Vector.replicate 8 0
  rot : BitVec 4 := 0
  seed : BitVec 64 := 0
  loops : List Level := []
  rets : List (BitVec 57) := []
  pc : BitVec 64 := 0
  deriving DecidableEq, Repr

/-- A register set: the parts of a context that a checkpoint holds (06 R118). Physical numbers; f0 is bit 0. -/
structure Regs where
  s : Vector Word 32 := Vector.replicate 32 0
  v : Vector VReg 32 := Vector.replicate 32 0
  f : BitVec 16 := 1
  m : Vector Mask 16 := Vector.replicate 16 0
  c : Ctl := {}
  deriving DecidableEq, Repr

/-- A pending write of one register; `c` is the combined scale of a physical pane of the context's core (09 R183). -/
inductive RegWrite where
  | s (r : BitVec 5) (x : Word)
  | v (r : BitVec 5) (x : VReg)
  | f (r : BitVec 4) (x : Bool)
  | m (r : BitVec 4) (x : Mask)
  | c (pane : Nat) (x : BitVec 32)
  deriving DecidableEq, Repr

/-- The detail registers %tdet0 to %tdet3 (22 R368). -/
structure Det where
  d0 : BitVec 64 := 0
  d1 : BitVec 64 := 0
  d2 : BitVec 64 := 0
  d3 : BitVec 64 := 0
  deriving DecidableEq, Repr

/-- A cause with its details and the bundle that raised it (22 R366); `dfr` tells a deferred trap of an engine (R365), `cc` when it arrived
(R367). -/
structure TrapRec where
  cause : Nat
  det : Det := {}
  bund : BitVec 57 := 0
  dfr : Bool := false
  cc : Nat := 0
  deriving DecidableEq, Repr

/-- Entries of the result buffer, the landing buffer and the requests outstanding (06 R103, R106; 04 R91). -/
inductive FlightKind where
  | fixed  -- a result of fixed latency
  | load   -- a landing load, with its landing-buffer entry
  | fetch  -- an operand fetch of a pane operation (09 R177)
  | pref   -- a PREF, outstanding only (04 R96)
  | dead   -- a load rolled back, waiting for its data (06 R109)
  deriving DecidableEq, Repr

/-- What a load makes of the bytes that arrive: a scalar of `n` bytes, a pair of scalars, one word in every lane, whole lanes, or the
combined scale of physical panes (04 R93; 09 R183; 12 R235). -/
inductive LoadShape where
  | none
  | s (r : BitVec 5) (n : Nat)
  | pair (r q : BitVec 5)
  | bcast (r : BitVec 5)
  | vec (r : BitVec 5)
  | scale (panes : List Nat)
  deriving DecidableEq, Repr

/-- A result in flight. `buf` are the bytes of a load as they arrive, `waits` the answers still to come, `late` the cc it has held its
context frozen (15 R293), `born` the cc in which the slot of an atomic issued (17 R305). `dist` counts ic to the write; `distCk` is its distance at the checkpoint it belongs to (06 R117, R122). `cls` is
the class of 17 R307: 0 space p, 1 space v, 2 spaces m and ms. -/
structure Flight where
  id : Nat
  kind : FlightKind := .fixed
  writes : List RegWrite := []
  dist : Nat
  ck : Bool := false
  distCk : Nat := 0
  cls : Nat := 2
  arrived : Bool := true
  fault : Option TrapRec := none
  shape : LoadShape := .none
  buf : List Byte := []
  waits : Nat := 0
  late : Nat := 0
  born : Nat := 0
  deriving DecidableEq, Repr

/-! ## Memory places and withheld effects -/

/-- A location in a coded page: its frame, its region (process times 64 plus region), its decoded offset in the page, and the number of the page that its
access names, which orders the blocks of one access (20 R350; 21 R352). -/
structure CodedLoc where
  frame : Nat
  region : Nat
  off : Nat
  page : Nat := 0
  deriving DecidableEq, Repr

/-- Where an access performs (18 R316): `key` is the address in `State.mem`. -/
structure Loc where
  space : Space
  key : Nat
  coded : Option CodedLoc := none
  deriving DecidableEq, Repr

/-- Some consecutive bytes of a write. -/
structure Piece where
  loc : Loc
  bytes : List Byte
  deriving DecidableEq, Repr

/-- The eleven operations of ATOM (12 R235). -/
inductive AtomOp where
  | swap | add | and | or | xor | min | max | minu | maxu | cas | fadd
  deriving DecidableEq, Repr

/-- What a slot leaves for its checkpoint's release (06 R119; 12 R220; 15 R267). -/
inductive Effect where
  | store (kind : Nat) (va : BitVec 64) (mask : Mask) (ix data : VReg) (ps : List Piece)
  | qpush (q : Nat) (x : Word) (eos : Bool)
  | qpop (q : Nat)
  | qunbind (q : Nat)
  | wadv (blk cnt : Nat)
  | wcons (blk cnt : Nat)
  | wunbind (blk : Nat) (prod : Bool)
  | evtSig (cl sem n : Nat)
  | evtTake (cl sem n : Nat)
  | bankRel (cl : Nat) (mask : BitVec 32)
  | cpchGo (cl ch : Nat) (desc : BitVec 64) (fab : Bool)
  | cpchStop (cl ch : Nat)
  | phase (cl steps : Nat) (sem : Option Nat)
  | rinv (scope : Nat) (va : BitVec 64) (len : Nat) (bar : Option Loc) (barVa : BitVec 64) (bix : Nat)
  | creg (rk : Nat) (word : BitVec 64)
  | cerr (rk : Nat) (loc : List Piece)
  | coll (blk : BitVec 64)
  | ring (blk : BitVec 64)
  | rsem (die k : Nat) (add : Bool) (n : Nat)
  | stabWr (entry : Nat) (va : BitVec 64)
  | stabGo (entry : Nat)
  | stabStop
  | stabLink (up : Bool) (word : BitVec 64)
  | stabClr
  | atom (op : AtomOp) (w4 : Bool) (loc : Loc) (d e : Word) (ref : Nat)
  | arrive (loc : Loc) (idx : Nat) (sync : Bool) (sc : Nat)
  | barWait (sc : Nat)
  | drain
  | clm (obj : BitVec 64) (tid : BitVec 32) (cnt : Nat) (ref : Nat)
  | snd (obj : BitVec 64) (tid : BitVec 32) (rq pkg : Nat) (away : Bool) (payload : VReg)
  | halt
  deriving DecidableEq, Repr

/-- A withheld effect with the slot that made it (22 R377); `regs` are the registers the slot read. -/
structure Withheld where
  pos : Nat
  word : SlotWord
  bund : BitVec 57
  regs : List Word := []
  eff : Effect
  deriving DecidableEq, Repr

/-- A released effect on its way to its target (06 R120). -/
structure Released where
  id : Nat
  who : Agent
  w : Withheld
  deriving DecidableEq, Repr

/-- A wait that holds a context: its limit in cc (none: without end), its cause and details, its slot (12 R218); `stops` is the virtual function whose contexts a
`wsw.out` that waits has asked to stop (15 R294); `asks` are the bytes at fabric addresses that a slot waits for: address and length (17 R408). -/
structure Hold where
  limit : Option Nat := none
  cause : Nat := 0
  det : Det := {}
  pos : Nat := 0
  stops : Option Nat := none
  asks : Option (Nat × Nat) := none
  deriving DecidableEq, Repr

/-- What a context waits for after a bundle's release: a BAR's object, a DRAIN's effects, the effects before the trap of TRAPI or BKPT, those before the end of a
command processor or scribe that halts (04 R77; 12 R238, R239; 23 R400). -/
inductive PostKind where
  | sync | wt | drain | trap | halt
  deriving DecidableEq, Repr

/-- The wait after a bundle's release (04 R77; 12 R238, R239): `r` is the ROUNDS value to differ from, none until the BAR has acted at its object, where
it found it malformed if `bad`, and could not read it if `poison`; `want` is the value that a wt names, or the code of a trap; `ref` is the result of a DRAIN that waits for its count, or the cause of a trap. -/
structure PostWait where
  kind : PostKind
  loc : Loc := { space := .m, key := 0 }
  ea : BitVec 64 := 0
  r : Option (BitVec 32) := none
  want : BitVec 32 := 0
  bad : Bool := false
  poison : Bool := false
  scope : Nat := 0
  ref : Nat := 0
  pos : Nat := 0
  word : SlotWord := 0
  bund : BitVec 57 := 0
  deriving DecidableEq, Repr

/-- The outcome of the slots executed so far in the bundle being issued (06 R105; 12 R218). -/
inductive Verdict where
  | go
  | trap (t : TrapRec)
  | hold (h : Hold)
  deriving DecidableEq, Repr

/-- Who needs bytes at a fabric address before it acts: a slot of the agent's bundle, a released start, the ring engine of the agent's die, the walker (17 R408). -/
inductive FarUse where
  | slot
  | start (id : Nat)
  | ring
  | walker
  deriving DecidableEq, Repr

/-- Bytes at a fabric address that have been asked for: by whom, the request's number, the address, the length; the bytes that came, or the cause of the request's
failure (17 R408; 19 R348, R407). -/
structure FarRead where
  use_ : FarUse
  id : Nat
  key : Nat
  len : Nat
  got : Option (List Byte) := none
  cause : Nat := 0
  deriving DecidableEq, Repr

/-! ## Contexts -/

/-- States of a hardware context (14 R256). A scribe or command processor that runs is `front`. -/
inductive CtxSt where
  | free | waiting | front | stopped | halted
  deriving DecidableEq, Repr

/-- Intensity labels (14 R261). -/
inductive Label where
  | b | c | m
  deriving DecidableEq, Repr

/-- A context of a core, a scribe or a command processor. `waits` are the counts of the waits in progress by slot position (12 R218); `lostAt` and
`issuedAt` are one more than the cc of its last lost collision and its last issue cycle (14 R254, R260); a walk for its next fetch ends at
`fetchAt` (22 R387). -/
structure Ctx where
  st : CtxSt := .free
  task : Option Nat := none
  index : Nat := 0
  prio : Nat := 0
  live : Regs := {}
  stage : Ctl := {}
  ckpt : Regs := {}
  ckBund : BitVec 57 := 0
  flight : List Flight := []
  held : List Withheld := []
  icyc : BitVec 48 := 0
  frz : BitVec 48 := 0
  empty : Nat := 0
  tcause : BitVec 7 := 0
  tbund : BitVec 57 := 0
  tckpt : BitVec 57 := 0
  tdet : Det := {}
  pend : List TrapRec := []
  pendHeld : Option TrapRec := none
  stopReq : Option (Nat × BitVec 64) := none
  step : Bool := false
  brk : Vector (BitVec 64) 2 := Vector.replicate 2 0
  wait : Option Hold := none
  waits : List (Nat × Nat) := []
  post : Option PostWait := none
  failed : Nat := 0
  far : List FarRead := []
  wakeAt : Nat := 0
  fetchAt : Nat := 0
  owner : BitVec 18 := 0
  padwin : BitVec 23 := 0
  vaultwin : BitVec 49 := 0
  panes : Vector (Option Nat) 4 := Vector.replicate 4 none
  claim : BitVec 4 := 0
  claimCc : Nat := 0
  rel : BitVec 4 := 0
  tiles : BitVec 8 := 0
  label : Label := .b
  runs : Nat := 0
  mb : Nat := 0
  by_ : Nat := 0
  skip : Nat := 0
  waitFrom : Nat := 0
  runFrom : Nat := 0
  overrun : Bool := false
  lostAt : Nat := 0
  issuedAt : Nat := 0
  savedAt : Option (BitVec 64) := none
  lostImage : Bool := false
  deriving DecidableEq, Repr

/-! ## Cores: panes, caches, monitors -/

/-- A quire bank: the tile's elements in lane form, row by row (09 R178; 08 R145, R146). `iset`, `iFmt` and `iGang` are what the operations issued
so far leave there (R181). -/
structure Bank where
  valid : Bool := false
  fmt : BitVec 4 := 0
  gang : Nat := 0
  els : List (BitVec 32) := []
  iset : Bool := false
  iFmt : BitVec 4 := 0
  iGang : Nat := 0
  deriving DecidableEq, Repr

/-- Kinds of accumulator tile (09 R172). -/
inductive TileKind where
  | float | integer | rank
  deriving DecidableEq, Repr

/-- An accumulator tile (09 R172). `iRows`, `iWidth`, `iKind` are the shape that the operations issued so far leave (R181); `done` is the
done position of R176 in the context's ic. -/
structure Tile where
  rows : Nat := 0
  width : Nat := 0
  kind : TileKind := .float
  sat : Bool := false
  poison : Bool := false
  la : List (BitVec 64) := []
  iRows : Nat := 0
  iWidth : Nat := 0
  iKind : TileKind := .float
  done : Nat := 0
  deriving DecidableEq, Repr

/-- Pane operations (09 R175). -/
inductive PaneFam where
  | mxld | mxa | mxrk | save | restore
  deriving DecidableEq, Repr

/-- What a tile fetch reads: its region's descriptor as read, where the tile lies, its size, its format and block size (09 R174; 11 R199). -/
structure TileReq where
  daddr : BitVec 64 := 0
  desc : List Byte := []
  row0 : Nat := 0
  col0 : Nat := 0
  nr : Nat := 0
  nc : Nat := 0
  fmt : BitVec 4 := 0
  b32 : Bool := false
  tr : Bool := false
  deriving DecidableEq, Repr

/-- An operation issued to a pane and not yet complete (09 R175). `id` is the flight entry of its fetch; `buf` the bytes it fetched, `els` the row
of an MXAV; `occ` is its occupancy and `lat` the distance from its start to its done position; times are in cc; `va` is the address of a save; `replay` is the end of the
walk that a fetch of it missed for (R180; 11 R202). -/
structure PaneOp where
  id : Nat
  fam : PaneFam
  who : Agent
  tile : Nat := 0
  bank : Nat := 0
  fmt : BitVec 4 := 0
  gang : Nat := 0
  zs : Bool := false
  rv : Bool := false
  rows : Nat := 0
  width : Nat := 0
  kin : Nat := 0
  els : List (BitVec 32) := []
  req : Option TileReq := none
  buf : List Byte := []
  segs : List (Loc × Nat) := []
  startCc : Nat := 0
  occ : Nat := 0
  lat : Nat := 0
  doneCc : Nat := 0
  started : Bool := false
  replay : Option Nat := none
  fault : Option TrapRec := none
  bund : BitVec 57 := 0
  word : SlotWord := 0
  pos : Nat := 0
  va : BitVec 64 := 0
  deriving DecidableEq, Repr

/-- A physical pane (09 R172, R175; 11 R205). `owner` is its context and logical number; `f`, `u`, `y` are F(p), U(q), Y(q) of R175. -/
structure Pane where
  owner : Option (Nat × Nat) := none
  reserved : Bool := false
  b0 : Bank := {}
  b1 : Bank := {}
  t0 : Tile := {}
  t1 : Tile := {}
  c : BitVec 32 := 0x3F800000
  shadow : Option (Nat × Tile) := none
  ops : List PaneOp := []
  f : Nat := 0
  u0 : Nat := 0
  u1 : Nat := 0
  y0 : Nat := 0
  y1 : Nat := 0
  deriving DecidableEq, Repr

/-- A line of an L1 (17 R299, R315; 21 R354): bytes valid, dirty and poisoned, ownership, and the coded page it was decoded from. -/
structure L1Line where
  data : Line := 0
  valid : Mask := 0
  dirty : Mask := 0
  owned : Bool := false
  coded : Option CodedLoc := none
  bad : Mask := 0
  deriving DecidableEq, Repr

/-- A monitor counter (15 R293; 23 R405); `any` tells whether it has taken a sample since it was cleared. -/
structure Counter where
  cfg : BitVec 64 := 0
  value : BitVec 48 := 0
  any : Bool := false
  bins : Vector (BitVec 48) 16 := Vector.replicate 16 0
  deriving DecidableEq, Repr

/-- A translation held by a TLB (22 R386, R387). -/
structure TlbEntry where
  proc : Nat
  vf : Nat
  page : Nat
  size : Nat
  pa : Nat
  pte : BitVec 64
  deriving DecidableEq, Repr

/-- A core (14 R252, R259, R260; 17 R298). `lastB` is the context that position B held last (14 R260); `ibad` are the poisoned words of its instruction store,
by eighths of their line addresses (17 R315); `dtlb` and `ftlb` are its data and fetch TLBs, oldest first (22 R387). -/
structure CoreSt where
  posA : Option Nat := none
  posB : Option Nat := none
  lastB : Option Nat := none
  fair : Nat := 0
  share : Nat := 2
  yq : Nat := 1048576
  panes : Vector Pane 4 := Vector.replicate 4 {}
  l1 : SMap L1Line := []
  istore : SMap (Option Line) := []
  ibad : List Nat := []
  dtlb : List TlbEntry := []
  ftlb : List TlbEntry := []
  mon : Vector Counter 4 := Vector.replicate 4 {}
  deriving DecidableEq, Repr

/-! ## Clusters and dies -/

/-- States of a copy channel (15 R271). -/
inductive ChanSt where
  | idle | running | done | halted
  deriving DecidableEq, Repr

/-- What an engine's accesses translate and are checked with: OWNER, PADWIN and VAULTWIN as they stood in the context that started it (15 R296). -/
structure Ident where
  owner : BitVec 18 := 0
  padwin : BitVec 23 := 0
  vaultwin : BitVec 49 := 0
  deriving DecidableEq, Repr

/-- A copy channel (15 R271-R276). `desc` are its 64 descriptor bytes as read at T0, `region` those of the region they name; `enc` is the encoding
that its touch read (format, block size, revision); `raw` are source bytes read and not yet used, `out` bytes ready for the destination;
`waits` is the remote access whose answer it awaits. -/
structure Chan where
  st : ChanSt := .idle
  reserved : Option Agent := none
  cause : Nat := 0
  reason : Nat := 0
  done : Nat := 0
  desc : List Byte := []
  region : List Byte := []
  who : Agent := .cp 0
  id : Ident := {}
  task : Option Nat := none
  bund : BitVec 57 := 0
  stop : Bool := false
  nextCc : Nat := 0
  enc : BitVec 4 × Bool × BitVec 16 := (0, false, 0)
  srcPos : Nat := 0
  raw : List Byte := []
  out : List Byte := []
  well : Option Nat := none
  bar : Option Loc := none
  waits : Option Nat := none
  deriving DecidableEq, Repr

/-- A hardware semaphore: its count and what waits have reserved of it (12 R240). -/
structure Sem where
  count : BitVec 32 := 0
  resv : Nat := 0
  deriving DecidableEq, Repr

/-- A cluster (15 R249, R277, R296; 12 R234, R240; 17 R298). `slice` are the units that its L2 slice holds, oldest first: the number of the first line and
how many lines of capacity (17 R298, R306; 21 R353). -/
structure Cluster where
  scribeReg : BitVec 64 := 0
  steps : Nat := 0
  moveLo : Nat := 0
  moveHi : Nat := 0
  moveSteps : Nat := 0
  moveEnd : Nat := 0
  moving : Bool := false
  moveSem : Option Nat := none
  moveQ : List (Nat × Option Nat) := []
  banks : SMap Nat := []
  sems : SMap Sem := []
  chans : SMap Chan := []
  slice : List (Nat × Nat) := []
  seq : BitVec 32 := 0
  lost : BitVec 32 := 0
  deriving DecidableEq, Repr

/-- A pointer entry of a process's tables, of level 0 to 2, held by a die's walker cache: the process and its function, the level, the address bits that
lead to the entry, the entry (22 R387). -/
structure WalkNode where
  proc : Nat
  vf : Nat
  level : Nat
  path : Nat
  entry : Nat
  deriving DecidableEq, Repr

/-- A walk that holds a walker: its requester, the cluster whose walkers serve it, the cc in which it ends (22 R387). -/
structure Walk where
  who : Agent
  cl : Nat
  fin : Nat
  copy : Nat := 0
  deriving DecidableEq, Repr

/-- An operation of the ring engine (15 R281-R284; 19 R349). `no` counts the operations of its kind and group at its die (log 63); `own` are a collective's
buffers as they stood at T0; `next` counts the chunks sent, `wrote` those written; `pred` is the member that its chunks come from. -/
structure RingOp where
  coll : Bool := true
  blk : BitVec 64 := 0
  grp : Nat := 0
  no : Nat := 0
  op : Nat := 0
  fmt : Nat := 0
  nbuf : Nat := 0
  bufs : List Nat := []
  lens : List Nat := []
  own : List Byte := []
  first : Nat := 0
  nch : Nat := 0
  next : Nat := 0
  wrote : Nat := 0
  nextCc : Nat := 0
  src : Nat := 0
  dst : Nat := 0
  sem : Nat := 0
  bar : Option Loc := none
  barVa : Nat := 0
  bix : Nat := 0
  pred : Option (Nat × Nat) := none
  who : Agent := .cp 0
  id : Ident := {}
  task : Option Nat := none
  bund : BitVec 57 := 0
  deriving DecidableEq, Repr

/-- A die; `seen` is the tail as a command processor that waits at it has seen it (14 R247; 15 R283-R285, R293, R296; 22 R387; 23 R394, R404). `ringNo` counts
the operations of its ring engine by kind and group (log 63). -/
structure Die where
  tail : BitVec 64 := 0
  head : BitVec 64 := 0
  seen : BitVec 64 := 0
  stream : BitVec 64 := 0
  moved : Bool := false
  run : Bool := false
  cpring : BitVec 64 := 0
  cpprod : BitVec 32 := 0
  cpcons : BitVec 32 := 0
  seq : BitVec 32 := 0
  lost : BitVec 32 := 0
  cec : BitVec 64 := 0
  tlb : List TlbEntry := []
  wcache : List WalkNode := []
  walks : List Walk := []
  rsem : SMap (BitVec 16) := []
  ring : Option RingOp := none
  ringQ : List RingOp := []
  ringNo : SMap Nat := []
  group : SMap (BitVec 64) := []
  mon : Vector Counter 16 := Vector.replicate 16 {}
  log : List (BitVec 256) := []
  meas : BitVec 256 := 0
  trip : Bool := false
  deriving DecidableEq, Repr

/-! ## The governor -/

/-- A governor entry (11 R208). -/
structure GovEntry where
  fmt : BitVec 4 := 2
  floor : BitVec 4 := 2
  ceil : BitVec 4 := 2
  bs32 : Bool := false
  armed : Bool := false
  rnd : BitVec 5 := 0
  rev : BitVec 16 := 0
  reason : BitVec 2 := 0
  hc : BitVec 16 := 0
  sx : BitVec 64 := 0
  se : BitVec 64 := 0
  sat : BitVec 64 := 0
  retile : BitVec 32 := 0
  resat : BitVec 32 := 0
  deriving DecidableEq, Repr

/-- A layer's accumulators (11 R208, words 4 to 6). -/
structure GovLayer where
  g1 : BitVec 64 := 0
  g2 : BitVec 64 := 0
  n : BitVec 64 := 0
  deriving DecidableEq, Repr

/-- A governor table (11 R207, R209; 09 R188). -/
structure GovTable where
  proc : Option Nat := none
  kappa : Option (BitVec 64 × BitVec 16) := none
  entries : SMap GovEntry := []
  layers : SMap GovLayer := []
  deriving DecidableEq, Repr

/-- A change on its way to its effect cc (09 R187, R190). -/
inductive GovChange where
  | set (tbl x : Nat) (word : BitVec 64)
  | clr (tbl x : Nat)
  | step (tbl lo cnt : Nat) (who : Agent) (ref : Nat)
  deriving DecidableEq, Repr

/-! ## Shared objects -/

/-- A coded region's record and counters (15 R279, R280; 21 R361). -/
structure Region where
  bud : BitVec 2 := 0
  valid : Bool := false
  encodes : BitVec 64 := 0
  sats : BitVec 64 := 0
  sqerr : BitVec 64 := 0
  maxerr : BitVec 64 := 0
  deriving DecidableEq, Repr

/-- A queue of a process's queue table (12 R224-R228). `els` are the elements not yet popped for everyone, oldest first; `missed` tells who
waited for it while it was resident nowhere, and in which cc last; `told` is the cc of the last touch that raised 0x35 (R225; 14 R263). -/
structure Queue where
  present : Bool := false
  log2cap : Nat := 0
  pin : Bool := false
  waitlim : Nat := 0
  store : BitVec 64 := 0
  pushed : BitVec 32 := 0
  popped : BitVec 32 := 0
  els : List (BitVec 64 × Bool) := []
  resv : Nat := 0
  home : Option Nat := none
  head : Option (Agent × Nat) := none
  missed : List (Agent × Nat) := []
  told : Option Nat := none
  task : Option Nat := none
  deriving DecidableEq, Repr

/-- Who holds a role of a well: a handle of an agent, a copy channel, or the device itself (12 R231, R233; 22 R370). -/
inductive Binder where
  | handle (who : Agent) (k : Nat)
  | chan (cl ch : Nat)
  | device
  deriving DecidableEq, Repr

/-- The role bindings of a well block (12 R231). -/
structure WellBind where
  cons : Option Binder := none
  prod : Option Binder := none
  deriving DecidableEq, Repr

/-- Kinds of read lease (09 R179; 11 R215; 12 R229; 15 R282). -/
inductive LeaseKind where
  | fetch | reenc | well | coll
  deriving DecidableEq, Repr

/-- A read lease of the bytes from `lo` up to `hi`; `ref` names the fetch or engine that holds it. -/
structure Lease where
  kind : LeaseKind
  lo : Nat
  hi : Nat
  who : Agent
  ref : Nat
  deriving DecidableEq, Repr

/-- A started task (14 R250-R254; 09 R192-R193). `ctxs` are the keys of the hardware contexts that are its members; a member that left or was freed is
not among them. `moved` are the hardware contexts that restored members left, each with the one that it now has (15 R290). -/
structure Task where
  taskid : BitVec 32 := 0
  core : Nat := 0
  proc : Nat := 0
  owner : BitVec 18 := 0
  ctxs : List Nat := []
  units : BitVec 32 := 0
  cover : Nat := 0
  budget : Nat := 0
  clock : Nat := 0
  started : Bool := false
  readyAt : Nat := 0
  expired : Bool := false
  prio : Nat := 0
  launcher : Agent := .cp 0
  walker : Bool := false
  gone : Bool := false
  moved : List (Agent × Agent) := []
  deriving DecidableEq, Repr

/-- A saved member of a task, named by its image's address (15 R290; 20 R351). `who` is the hardware context that it was freed from; `restored` tells
that it has been restored from the image, `lostImage` that a later save has written another image at the address. `kept`, `banks` and `tiles` are its context, its quire banks and the numbers of the tiles in the image as they stood, of which a restore
uses what the image's layout has no place for (log 33). -/
structure Saved where
  image : BitVec 64
  task : Nat
  who : Agent
  restored : Bool := false
  lostImage : Bool := false
  kept : Ctx := {}
  banks : List (List (BitVec 32)) := []
  tiles : List Nat := []
  deriving DecidableEq, Repr

/-- A re-encode (11 R213-R216): the region's descriptor, the fetches that wait for it (agent, landing entry, what it reads, its latency). -/
structure Reenc where
  daddr : BitVec 64 := 0
  desc : List Byte := []
  proc : Nat := 0
  who : Agent := .cp 0
  id : Ident := {}
  tbl : Nat := 0
  entry : Nat := 0
  running : Bool := false
  waiters : List (Agent × Nat × TileReq × Nat) := []
  chans : List (Nat × Nat) := []
  fault : Option (BitVec 64 × Nat) := none
  fmt : BitVec 4 := 0
  b32 : Bool := false
  rev : BitVec 16 := 0
  rnd : BitVec 5 := 0
  deriving DecidableEq, Repr

/-- A range invalidation under way (15 R278). -/
structure Rinv where
  cores : List Nat := []
  va : BitVec 64 := 0
  len : Nat := 0
  id : Ident := {}
  bar : Option Loc := none
  barVa : BitVec 64 := 0
  bix : Nat := 0
  who : Agent := .cp 0
  task : Option Nat := none
  bund : BitVec 57 := 0
  deriving DecidableEq, Repr

/-! ## The schedule table -/

/-- A slot of the stash table (19 R343). -/
structure Stash where
  used : Bool := false
  mb : BitVec 16 := 0
  loc : Nat := 0
  bytes : Nat := 0
  peer : Bool := false
  pkg : Nat := 0
  deriving DecidableEq, Repr

/-- The walker, its table and its registers (15 R286, R287; 19 R333-R345). `ent` and `blk` are the current entry and its issue block as latched; `runEnt`,
`runNo` and `tasks` the entry that was issued last, busy until its tasks have completed; `goWait` a go that waits for the reply that `mirror` awaits. -/
structure Walker where
  table : SMap (BitVec 256) := []
  st : Nat := 0
  cur : Nat := 0
  cause : Nat := 0
  issued : BitVec 48 := 0
  bub : Vector (BitVec 48) 4 := Vector.replicate 4 0
  hwm : Nat := 0
  dsfree : Nat := 0
  dslink : BitVec 64 := 0
  uslink : BitVec 64 := 0
  newDs : Option (BitVec 64) := none
  newUs : Option (BitVec 64) := none
  stash : SMap Stash := []
  ent : Option (BitVec 256) := none
  blk : List Byte := []
  tasks : List Nat := []
  issueCc : Nat := 0
  busy : Bool := false
  popSlot : Option Nat := none
  runEnt : BitVec 256 := 0
  runNo : Nat := 0
  goWait : Option (Nat × Agent) := none
  mirror : Bool := false
  asked : Bool := false
  granted : Bool := false
  refusedPush : Bool := false
  deriving DecidableEq, Repr

/-! ## The host link, boot and what leaves the package -/

/-- A mailbox block (23 R396). -/
structure Mailbox where
  base : BitVec 64 := 0
  prod : BitVec 32 := 0
  cons : BitVec 32 := 0
  seq : BitVec 32 := 0
  lost : BitVec 32 := 0
  deriving DecidableEq, Repr

/-- A fabric port's counters and link state (23 R394). -/
structure Port where
  sent : BitVec 64 := 0
  recv : BitVec 64 := 0
  fec : BitVec 64 := 0
  bad : BitVec 64 := 0
  up : Bool := true
  deriving DecidableEq, Repr

/-- The PF and VF windows and the boot state (23 R394-R402). -/
structure HostRegs where
  boot : Nat := 0
  bootWhy : Nat := 0
  secver : BitVec 32 := 0
  proctab : BitVec 64 := 0
  quiesce : Bool := false
  quiesced : Bool := false
  mbox : Mailbox := {}
  vfRights : BitVec 32 := 0
  vfMbox : SMap Mailbox := []
  stkBase : BitVec 64 := 0
  stkSize : BitVec 64 := 0
  ports : SMap Port := []
  routes : SMap (BitVec 48) := []
  side : Sensors := {}
  m2 : BitVec 256 := 0
  m3 : BitVec 256 := 0
  deriving DecidableEq, Repr

/-- Where a notice goes (22 R370; 23 R396). -/
inductive NoticeTo where
  | scribe (cl : Nat)
  | cpring (die : Nat)
  | pf
  | vf (n : Nat)
  deriving DecidableEq, Repr

/-- A notice raised and not yet written: its record is complete but for SEQ and LOST (22 R371). -/
structure Notice where
  dest : NoticeTo
  cause : Nat
  kind : Nat
  source : BitVec 64 := 0
  taskid : BitVec 32 := 0
  bund : BitVec 64 := 0
  ckpt : BitVec 64 := 0
  det : Det := {}
  ext : List Byte := []
  deriving DecidableEq, Repr

/-- An uncorrectable-error report that is gathering detections (22 R380-R382): its lines, WHERE's unit, number and part, the owners by virtual function and
process, and the agent that detected it first. -/
structure Report where
  lo : Nat := 0
  hi : Nat := 0
  unit : Nat := 0
  num : Nat := 0
  sub : Nat := 0
  count : Nat := 0
  owners : List (Nat × Nat) := []
  who : Agent
  deriving DecidableEq, Repr

/-- What an SPDM responder of version 1.3 can do (23 R403). -/
structure SpdmCaps where
  cert : Bool
  chal : Bool
  measSig : Bool
  deriving DecidableEq, Repr
/-- The signature algorithm that the responder offers (23 R403). -/
inductive SpdmAsym where
  | rsassaPss3072
  deriving DecidableEq, Repr
/-- The hash algorithm that the responder offers (23 R403). -/
inductive SpdmHash where
  | sha256
  deriving DecidableEq, Repr

/-- What leaves the package: semantic messages to another package, as the step that each makes there (19 R347), interrupts (23 R397), SPDM answers (23 R403), signals of the board. -/
inductive Msg where
  | sem (pkg : Nat) (step : Ev)
  | msix (vf : Option Nat) (vector : Nat)
  | version (versions : List Nat)
  | capabilities (caps : SpdmCaps)
  | algorithms (asym : SpdmAsym) (hash : SpdmHash)
  | digests (d : BitVec 256)
  | certificate (bytes : List Byte)
  | challengeAuth (d nonce : BitVec 256) (sig : BitVec 3072)
  | measurements (ms : List (Nat × BitVec 256)) (nonce : BitVec 256) (sig : BitVec 3072)
  | unsupported (code : Nat)
  | thermtrip (die : Nat)
  | thermal (die : Nat)
  deriving DecidableEq, Repr

/-- What awaits the answer to a message: nothing but its context's count of failed effects; a landing entry, from a byte of it on; one that acts once the bytes have come, by
the number of the request; a copy channel; the chunk of a RING or of a collective, by its die, group and number; the walker (19 R347, R407). -/
inductive Awaiter where
  | effect
  | load (id off : Nat)
  | ask (id : Nat)
  | chan (cl ch : Nat)
  | ring (die grp no : Nat)
  | coll (die grp no : Nat)
  | walker
  deriving DecidableEq, Repr

/-- A message that its target has not yet answered: who sent it and what for, its bundle, its target's package and die, whether that is another package
(18 R323; 19 R347, R407). `bytes` are those of a write, `laid` the bytes of a read that its context's own writes give (18 R316); `va` is the virtual address of the
access, `lane` its vector lane, `det0` the slot that a load or a released write names, 4 for a tile fetch (04 R98; 22 R368, R369). -/
structure Remote where
  who : Agent
  purpose : Awaiter := .effect
  len : Nat := 0
  write : Bool := false
  bund : BitVec 57 := 0
  pkg : Nat := 0
  die : Nat := 0
  addr : Nat := 0
  away : Bool := true
  bytes : List Byte := []
  laid : List (Nat × Byte) := []
  va : BitVec 64 := 0
  lane : Nat := 0
  det0 : Option (BitVec 64) := none
  deriving DecidableEq, Repr

/-- The arrival of an engine at its barrier object: the agent that acts, the object with its address and index, the context that is told of a malformed object with
its task and its scribe, the engine's kind and number (12 R238; 15 R269; 22 R368). -/
structure EngArrival where
  actor : Agent
  loc : Loc
  va : Nat
  bix : Nat
  who : Agent
  task : Option Nat
  dest : NoticeTo
  kind : Nat
  no : Nat
  bund : BitVec 57
  deriving DecidableEq, Repr

/-- Agents and cores that still act in the current cc, in the order of 09 R189; `save` is a tile image that is written; `arrival` is an engine's arrival at its barrier object, after all contexts (12 R222);
`clocks` is the advance of the task clocks at its end (14 R254). -/
inductive Turn where
  | perform (who : Agent)
  | merge (core : Nat)
  | issue (who : Agent)
  | walker
  | chan (cl ch : Nat)
  | ring (die : Nat)
  | save (core q : Nat)
  | arrival (x : EngArrival)
  | clocks
  deriving DecidableEq, Repr

/-! ## The package -/

/-- The state of one package. `fuses` is by how much signed firmware has raised the fused minimum of the security version, which outlasts power (23 R389, R402). -/
structure State where
  cc : Nat := 0
  powered : Bool := true
  fuses : Nat := 0
  who : Agent := .cp 0
  pos : Nat := 0
  word : SlotWord := 0
  bpc : BitVec 64 := 0
  bnxt : BitVec 64 := 0
  ckb : Bool := false
  mark : Nat := 0
  hmark : Nat := 0
  srs : List (BitVec 10 × Word) := []
  verdict : Verdict := .go
  ids : Nat := 0
  fresh : Nat := 0
  ev : Ev := .noticeDelivery
  agenda : List (Nat × Ev) := []
  turns : List Turn := []
  ctxs : SMap Ctx := []
  cores : SMap CoreSt := []
  clusters : SMap Cluster := []
  dies : SMap Die := []
  relqs : SMap (List Released) := []
  mem : List Host.Cell := []
  poison : List Nat := []
  tags : SMap (BitVec 16) := []
  metaName : BitVec 64 := 0
  gov : SMap GovTable := []
  govQ : SMap GovChange := []
  regions : SMap Region := []
  queues : SMap Queue := []
  wells : SMap WellBind := []
  leases : List Lease := []
  tasks : SMap Task := []
  saved : List Saved := []
  reencs : SMap Reenc := []
  rinvs : SMap Rinv := []
  walker : Walker := {}
  pkgid : BitVec 16 := 0
  host : HostRegs := {}
  notices : List Notice := []
  reports : SMap Report := []
  remotes : SMap Remote := []
  outbox : List Msg := []
  deriving DecidableEq, Repr

/-- A byte of memory that nothing has written (log 3: DESIGN CHOICE). -/
def memDefault : Byte := 0

/-- A scribe or command processor after reset: stopped (14 R249; 23 R399). -/
def Ctx.stoppedReset : Ctx := { st := .stopped }

/-- What an unlisted agent key reads as: contexts of cores are free (14 R256), scribes and command processors are stopped. -/
def ctxDefault (key : Nat) : Ctx := if key < 4096 then {} else Ctx.stoppedReset

/-- The memory key of pad offset `off` of a cluster (17 R298). -/
def padKey (cl off : Nat) : Nat := 2 ^ 52 + cl * 2 ^ 22 + off
/-- The memory key of a space-v address (04 R88; 17 R298). -/
def vaultKey (a : Nat) : Nat := 2 ^ 53 + a

/-- The notice well's block of one cluster as the device creates it at reset (22 R370; 12 R229): BASE 0x3F_C000, SLOTS 128, SLOTB 128. -/
def noticeBlockCells (cl : Nat) : List Host.Cell :=
  [(padKey cl 0x3FBF81, 0xC0), (padKey cl 0x3FBF82, 0x3F), (padKey cl 0x3FBF88, 0x80), (padKey cl 0x3FBF8C, 0x80)]

/-- The clusters of the package in order. -/
def clusterList : List Nat := List.range 64

/-- The machine right after reset: every context free, every scribe and command processor stopped, every table empty but the notice
wells of R370. -/
def State.reset : State :=
  { mem := clusterList.flatMap noticeBlockCells
    leases := clusterList.map (fun c =>
      { kind := .well, lo := padKey c 0x3FBF90, hi := padKey c 0x3FBFC0, who := .scribe c, ref := padKey c 0x3FBF80 })
    wells := clusterList.map (fun c => (padKey c 0x3FBF80, { prod := some .device })) }

end Sys2Proof.Machine
end

