-- ==== Sys2Proof/Machine/Bits.lean ====
section
/-!
DEFINITION. Bit-field, lane and byte-order helpers (00 R5, R6; 03 R56, R61; 08 R145).
-/

namespace Sys2Proof.Machine

/-- `bits(x, hi, lo)` of 00 R7 on a number. -/
def bits (x hi lo : Nat) : Nat := x / 2 ^ lo % 2 ^ (hi + 1 - lo)
/-- `bits(x, hi, lo)` of a 64-bit word, as a number. -/
def wbits (x : Word) (hi lo : Nat) : Nat := bits x.toNat hi lo
/-- Bit `n` of a number. -/
def bit (x n : Nat) : Bool := x / 2 ^ n % 2 == 1
/-- The signed reading of the low `n` bits of `x`. -/
def sext (n x : Nat) : Int :=
  let y := x % 2 ^ n
  if y < 2 ^ (n - 1) then (y : Int) else (y : Int) - (2 : Int) ^ n
/-- A 64-bit word from an integer, wrapping. -/
def wordOf (x : Int) : Word := BitVec.ofInt 64 x
/-- Clamp to `[lo, hi]`. -/
def clampInt (lo hi x : Int) : Int := if x < lo then lo else if hi < x then hi else x

/-- The sum of `f k * 2^(w k)` for `k` below `n`: fields of width `w` packed from bit 0 up. -/
def packNat (w : Nat) (f : Nat → Nat) : Nat → Nat
  | 0 => 0
  | n + 1 => packNat w f n + f n * 2 ^ (w * n)

/-- Lane `i` of a vector register (03 R56). -/
def lane (v : VReg) (i : Nat) : BitVec 32 := v.extractLsb' (32 * i) 32
/-- FP64 lane `j`: lanes 2j and 2j+1 (03 R56). -/
def lane64 (v : VReg) (j : Nat) : BitVec 64 := v.extractLsb' (64 * j) 64
/-- The vector register whose lane `i` is `f i`. -/
def ofLanes (f : Nat → BitVec 32) : VReg := BitVec.ofNat 4096 (packNat 32 (fun k => (f k).toNat) 128)
/-- The vector register whose FP64 lane `j` is `f j`. -/
def ofLanes64 (f : Nat → BitVec 64) : VReg := BitVec.ofNat 4096 (packNat 64 (fun k => (f k).toNat) 64)
/-- The mask whose bit `i` is `f i`. -/
def ofMask (f : Nat → Bool) : Mask := BitVec.ofNat 128 (packNat 1 (fun k => (f k).toNat) 128)

/-- The bytes of a number, least significant first (00 R6). -/
def toBytes : Nat → Nat → List Byte
  | 0, _ => []
  | n + 1, x => BitVec.ofNat 8 x :: toBytes n (x / 256)
/-- The number that bytes hold, least significant first (00 R6). -/
def ofBytes : List Byte → Nat
  | [] => 0
  | b :: r => b.toNat + 256 * ofBytes r

/-- Little-endian field of `n` bytes at `off` of a byte string. -/
def field (bs : List Byte) (off n : Nat) : Nat := ofBytes ((bs.drop off).take n)
/-- Whether the bytes from `off`, `n` of them, are all zero. -/
def zeroBytes (bs : List Byte) (off n : Nat) : Bool := ((bs.drop off).take n).all (· == 0)
/-- The value of reserved bytes, `n` of them from `off`: of their groups of eight the first that is not zero (22 R369). -/
def reservedValue (bs : List Byte) (off n : Nat) : Nat :=
  (((List.range ((n + 7) / 8)).map (fun i => field bs (off + 8 * i) (Nat.min 8 (n - 8 * i)))).find? (fun x => x != 0)).getD 0
/-- A byte string with `new` written at `off`. -/
def patch (bs : List Byte) (off : Nat) (new : List Byte) : List Byte :=
  bs.take off ++ new ++ bs.drop (off + new.length)

/-- The smallest multiple of `m` that is not below `x`, divided by `m`. -/
def ceilDiv (x m : Nat) : Nat := (x + m - 1) / m

/-- CRC-32 of IEEE 802.3, reflected, over one byte (02 R48). -/
def crcByte (c : Nat) (b : Byte) : Nat :=
  let step := fun c => if c % 2 = 1 then (c / 2) ^^^ 0xEDB88320 else c / 2
  step (step (step (step (step (step (step (step (c ^^^ b.toNat))))))))
/-- CRC-32 with initial and final value 0xFFFF_FFFF (02 R48). -/
def crc32 (bs : List Byte) : Nat := (bs.foldl crcByte 0xFFFFFFFF) ^^^ 0xFFFFFFFF

end Sys2Proof.Machine
end

