-- ==== Sys2Proof/Machine/Float.lean ====
section
/-!
DEFINITION. Numbers and rounding: the formats bit by bit (03 R53-R59), exact values, the rounding modes (07 R128-R131), special
values (R132), conversions (R134), stochastic rounding (R136) and the keyed mixer (R137).
Every operation forms its exact result and rounds once (R129). Quotients and square roots are kept to at least 200 bits with
a sticky bit below them, which no rounding point of the device can tell from the exact value.
-/

namespace Sys2Proof.Machine

/-- A value: NaN, an infinity, or (-1)^neg * m * 2^e exactly; m = 0 is a zero with its sign. -/
inductive FVal where
  | nan
  | inf (neg : Bool)
  | fin (neg : Bool) (m : Nat) (e : Int)
  deriving DecidableEq, Repr

/-- Rounding modes (07 R128): nearest even, toward zero, up, down, stochastic with k bits. -/
inductive Rnd where
  | ne | tz | up | dn
  | st (k : Nat)
  deriving DecidableEq, Repr

/-- The mode of a five-bit rounding field; a reserved field never reaches it (07 R128). -/
def Rnd.ofCode (r : BitVec 5) : Rnd :=
  let n := r.toNat
  if n = 0 then .ne else if n = 1 then .tz else if n = 2 then .up else if n = 3 then .dn else .st (n % 16 + 1)

/-- How a format spends its top exponent (03 R53, R54): IEEE, FP8E4 (one NaN), FP6 (none). -/
inductive Top where
  | ieee | e4 | none
  deriving DecidableEq, Repr

/-- A binary floating-point format (03 R53). -/
structure FpFmt where
  ew : Nat
  mw : Nat
  bias : Nat
  top : Top
  deriving DecidableEq, Repr

def f64 : FpFmt := ⟨11, 52, 1023, .ieee⟩
def f32 : FpFmt := ⟨8, 23, 127, .ieee⟩
def fbf16 : FpFmt := ⟨8, 7, 127, .ieee⟩
def f16 : FpFmt := ⟨5, 10, 15, .ieee⟩
def f8e4 : FpFmt := ⟨4, 3, 7, .e4⟩
def f8e5 : FpFmt := ⟨5, 2, 15, .ieee⟩
def f6 : FpFmt := ⟨3, 2, 3, .none⟩

/-- Bits of an encoding. -/
def FpFmt.width (f : FpFmt) : Nat := 1 + f.ew + f.mw
/-- The canonical NaN (03 R55); FP6 has none and a NaN becomes +0 there (07 R134). -/
def FpFmt.canon (f : FpFmt) : Nat :=
  match f.top with
  | .ieee => (2 ^ f.ew - 1) * 2 ^ f.mw + 2 ^ (f.mw - 1)
  | .e4 => 0x7F
  | .none => 0
/-- The encoding of the largest finite magnitude (03 R53). -/
def FpFmt.maxBits (f : FpFmt) : Nat :=
  match f.top with
  | .ieee => (2 ^ f.ew - 1) * 2 ^ f.mw - 1
  | .e4 => 0x7E
  | .none => 2 ^ (f.ew + f.mw) - 1
/-- The exponent of the subnormal quantum. -/
def FpFmt.emin (f : FpFmt) : Int := 1 - (f.bias : Int) - f.mw
/-- The formats that overflow may take to an infinity: FP64, FP32, BF16 and FP16; FP8E5 holds one, but a finite result never rounds to it (07 R130, R134). -/
def FpFmt.hasInf (f : FpFmt) : Bool := decide (f.top = .ieee) && f.mw != 2

/-- Decode an encoding (03 R54). -/
def FpFmt.decode (f : FpFmt) (x : Nat) : FVal :=
  let neg := bit x (f.ew + f.mw)
  let e := bits x (f.ew + f.mw - 1) f.mw
  let m := x % 2 ^ f.mw
  if e = 2 ^ f.ew - 1 ∧ f.top = .ieee then (if m = 0 then .inf neg else .nan)
  else if e = 2 ^ f.ew - 1 ∧ f.top = .e4 ∧ m = 7 then .nan
  else if e = 0 then .fin neg m f.emin
  else .fin neg (m + 2 ^ f.mw) ((e : Int) - 1 + f.emin)

/-- floor(log2 (m * 2^e)) for m not 0. -/
def log2Of (m : Nat) (e : Int) : Int := (m.log2 : Int) + e

/-- Whether a magnitude whose excess over the lower candidate is D of d bits rounds away from zero (07 R129, R136). -/
def roundsAway (mode : Rnd) (neg : Bool) (lo d D rb : Nat) : Bool :=
  if D = 0 then false else
  match mode with
  | .ne => decide (2 ^ d < 2 * D) || (decide (2 * D = 2 ^ d) && lo % 2 == 1)
  | .tz => false
  | .up => !neg
  | .dn => neg
  | .st k =>
    if d ≤ k then decide (2 ^ d ≤ D + rb % 2 ^ 16 / 2 ^ (16 - d))
    else decide (2 ^ k ≤ D / 2 ^ (d - k) + rb % 2 ^ 16 / 2 ^ (16 - k))

/-- The magnitude m * 2^e rounded to a multiple of 2^q, in units of 2^q (07 R129). -/
def roundMag (mode : Rnd) (rb : Nat) (neg : Bool) (m : Nat) (e q : Int) : Nat :=
  if q ≤ e then m * 2 ^ (e - q).toNat
  else
    let d := (q - e).toNat
    let lo := m / 2 ^ d
    if roundsAway mode neg lo d (m % 2 ^ d) rb then lo + 1 else lo

/-- The quantum's exponent of a format at a magnitude: p bits, not below emin. -/
def quantum (p : Nat) (emin : Int) (m : Nat) (e : Int) : Int := max emin (log2Of m e + 1 - p)

/-- What overflow gives (07 R130): true where the result is the infinity, false where it is the largest finite magnitude. -/
def overflowsToInf (f : FpFmt) (mode : Rnd) (neg : Bool) : Bool :=
  f.hasInf && (match mode with
    | .ne => true
    | .st _ => true
    | .tz => false
    | .up => !neg
    | .dn => neg)

/-- A sign bit in front of an encoded magnitude. -/
def FpFmt.signed (f : FpFmt) (neg : Bool) (x : Nat) : Nat := (if neg then 2 ^ (f.ew + f.mw) else 0) + x
/-- What an infinity becomes: the infinity of a format that holds one, otherwise the largest finite magnitude (07 R134). -/
def FpFmt.infBits (f : FpFmt) (neg : Bool) : Nat :=
  f.signed neg (if f.top = .ieee then (2 ^ f.ew - 1) * 2 ^ f.mw else f.maxBits)

/-- A magnitude of `mag` quanta 2^q, with q as `quantum` gives it, as an encoding; none on overflow. -/
def FpFmt.pack (f : FpFmt) (mag : Nat) (q : Int) : Option Nat :=
  let (mag, q) := if mag = 2 ^ (f.mw + 1) then (2 ^ f.mw, q + 1) else (mag, q)
  let x := if mag < 2 ^ f.mw then mag else ((q - f.emin).toNat + 1) * 2 ^ f.mw + (mag - 2 ^ f.mw)
  if f.maxBits < x then none else some x

/-- Round a value into a format: its encoding, and whether the result counts as a saturation (07 R129-R131, R134). -/
def FpFmt.roundSat (f : FpFmt) (mode : Rnd) (rb : Nat) : FVal → Nat × Bool
  | .nan => (f.canon, false)
  | .inf neg => (f.infBits neg, decide (f.top ≠ .ieee))
  | .fin neg m e =>
    if m = 0 then (f.signed neg 0, false) else
    let q := quantum (f.mw + 1) f.emin m e
    match f.pack (roundMag mode rb neg m e q) q with
    | some x => (f.signed neg x, false)
    | none => if overflowsToInf f mode neg then (f.infBits neg, true) else (f.signed neg f.maxBits, true)

/-- Round a value into a format. -/
def FpFmt.round (f : FpFmt) (mode : Rnd) (rb : Nat) (x : FVal) : Nat := (f.roundSat mode rb x).1
/-- Round to nearest even into a format. -/
def FpFmt.rne (f : FpFmt) (x : FVal) : Nat := f.round .ne 0 x

/-! ## Exact arithmetic (07 R129, R132) -/

/-- The signed integer m of a finite value scaled to exponent e'. -/
def scaled (neg : Bool) (m : Nat) (e e' : Int) : Int :=
  let x : Int := (m * 2 ^ (e - e').toNat : Nat)
  if neg then -x else x

/-- A value from a signed integer times 2^e; zero takes the given sign. -/
def FVal.ofScaled (x e : Int) (zneg : Bool) : FVal :=
  if x = 0 then .fin zneg 0 0 else .fin (decide (x < 0)) x.natAbs e

/-- Exact sum; `dn` when the rounding is toward minus infinity (07 R132: the sign of an exact zero). -/
def FVal.add (dn : Bool) : FVal → FVal → FVal
  | .nan, _ => .nan
  | _, .nan => .nan
  | .inf a, .inf b => if a = b then .inf a else .nan
  | .inf a, .fin _ _ _ => .inf a
  | .fin _ _ _, .inf b => .inf b
  | .fin a m e, .fin b n k =>
    let l := min e k
    let z := if m = 0 ∧ n = 0 ∧ a = b then a else dn
    FVal.ofScaled (scaled a m e l + scaled b n k l) l z

/-- The negation of a value; a NaN stays one. -/
def FVal.neg : FVal → FVal
  | .nan => .nan
  | .inf a => .inf (!a)
  | .fin a m e => .fin (!a) m e
/-- The magnitude of a value. -/
def FVal.abs : FVal → FVal
  | .nan => .nan
  | .inf _ => .inf false
  | .fin _ m e => .fin false m e
/-- Exact difference. -/
def FVal.sub (dn : Bool) (a b : FVal) : FVal := FVal.add dn a b.neg

/-- Exact product. -/
def FVal.mul : FVal → FVal → FVal
  | .nan, _ => .nan
  | _, .nan => .nan
  | .inf a, .inf b => .inf (a != b)
  | .inf a, .fin b n _ => if n = 0 then .nan else .inf (a != b)
  | .fin a m _, .inf b => if m = 0 then .nan else .inf (a != b)
  | .fin a m e, .fin b n k => .fin (a != b) (m * n) (e + k)

/-- Exact product and sum, for one rounding. -/
def FVal.fma (dn : Bool) (a b c : FVal) : FVal := FVal.add dn (FVal.mul a b) c

/-- Quotient: at least 200 significant bits, the last of them sticky. -/
def FVal.div : FVal → FVal → FVal
  | .nan, _ => .nan
  | _, .nan => .nan
  | .inf _, .inf _ => .nan
  | .inf a, .fin b _ _ => .inf (a != b)
  | .fin a _ _, .inf b => .fin (a != b) 0 0
  | .fin a m e, .fin b n k =>
    if n = 0 then (if m = 0 then .nan else .inf (a != b))
    else if m = 0 then .fin (a != b) 0 0
    else
      let sh := 200 + n.log2
      let q := m * 2 ^ sh / n
      let st := if m * 2 ^ sh % n = 0 then 0 else 1
      .fin (a != b) (2 * q + st) (e - k - sh - 1)

/-- One step of the bit-by-bit integer square root: the largest r with r * r ≤ n among r plus lower bits. -/
def isqrtFrom (n : Nat) : Nat → Nat → Nat
  | 0, r => r
  | b + 1, r => if (r + 2 ^ b) * (r + 2 ^ b) ≤ n then isqrtFrom n b (r + 2 ^ b) else isqrtFrom n b r
/-- The integer square root. -/
def isqrt (n : Nat) : Nat := isqrtFrom n (n.log2 / 2 + 1) 0

/-- Square root: at least 200 significant bits, the last of them sticky; NaN below zero, zeros keep their sign (07 R132). -/
def FVal.sqrt : FVal → FVal
  | .nan => .nan
  | .inf a => if a then .nan else .inf false
  | .fin a m e =>
    if m = 0 then .fin a 0 0 else if a then .nan else
    let (m, e) := if e % 2 = 0 then (m, e) else (2 * m, e - 1)
    let x := m * 2 ^ 400
    let r := isqrt x
    .fin false (2 * r + (if r * r = x then 0 else 1)) (e / 2 - 201)

/-- Whether a value is a NaN. -/
def FVal.isNan : FVal → Bool
  | .nan => true
  | _ => false
/-- Whether a value is finite. -/
def FVal.isFin : FVal → Bool
  | .fin _ _ _ => true
  | _ => false
/-- Whether a value is a zero of either sign. -/
def FVal.isZero : FVal → Bool
  | .fin _ m _ => m == 0
  | _ => false
/-- The sign bit of a value that is no NaN. -/
def FVal.sign : FVal → Bool
  | .nan => false
  | .inf a => a
  | .fin a _ _ => a

/-- a < b for values that are no NaN; -0 equals +0. -/
def FVal.lt : FVal → FVal → Bool
  | .nan, _ => false
  | _, .nan => false
  | .inf a, .inf b => a && !b
  | .inf a, .fin _ _ _ => a
  | .fin _ _ _, .inf b => !b
  | .fin a m e, .fin b n k => let l := min e k; decide (scaled a m e l < scaled b n k l)
/-- a = b for values that are no NaN; -0 equals +0. -/
def FVal.eq (a b : FVal) : Bool := !a.isNan && !b.isNan && !a.lt b && !b.lt a
/-- a < b with -0 below +0 (07 R132, minimum and maximum). -/
def FVal.below (a b : FVal) : Bool := a.lt b || (a.eq b && a.sign && !b.sign)
/-- The smaller of two values, the canonical NaN when either is one (07 R132). -/
def FVal.min (a b : FVal) : FVal := if a.isNan || b.isNan then .nan else if b.below a then b else a
/-- The larger of two values (07 R132). -/
def FVal.max (a b : FVal) : FVal := if a.isNan || b.isNan then .nan else if a.below b then b else a
/-- An integer as a value. -/
def FVal.ofInt (x : Int) : FVal := .fin (decide (x < 0)) x.natAbs 0

/-- Round a value to an integer: (07 R129 with integers as the grid). -/
def FVal.toInt (mode : Rnd) (rb : Nat) (neg : Bool) (m : Nat) (e : Int) : Int :=
  let x : Int := roundMag mode rb neg m e 0
  if neg then -x else x

/-- Convert to an integer in [lo, hi]: NaN gives 0, infinities and results outside give the nearest bound; with whether it saturated
(07 R130, R134). -/
def FVal.toIntSat (mode : Rnd) (rb : Nat) (lo hi : Int) : FVal → Int × Bool
  | .nan => (0, false)
  | .inf neg => (if neg then lo else hi, true)
  | .fin neg m e =>
    let x := FVal.toInt mode rb neg m e
    (clampInt lo hi x, decide (x < lo) || decide (hi < x))

/-- Round to an integral value of the same format; a zero keeps the operand's sign (08 R162). -/
def FVal.integral (mode : Rnd) (rb : Nat) : FVal → FVal
  | .fin neg m e => .fin neg (roundMag mode rb neg m e 0) 0
  | x => x

/-! ## SX blocks (03 R58; 07 R135) -/

/-- Magnitude bits of an SX format (03 R58). -/
def sxBits (fmt : BitVec 4) : Nat := if fmt = Fmt.sx8 then 7 else if fmt = Fmt.sx5 then 4 else 2

/-- An SX element's value (03 R58, R59). -/
def sxDecode (fmt : BitVec 4) (E dl : Nat) (neg : Bool) (mag : Nat) : FVal :=
  if E = 255 then .nan else .fin neg mag ((E : Int) - 127 - dl - (sxBits fmt - 1))

/-- `rmag` of R135: the magnitude in steps of 2^(q - b + 1). -/
def rmag (b : Nat) (mode : Rnd) (x : FVal × Nat) (q : Int) : Nat :=
  match x.1 with
  | .fin neg m e => if m = 0 then 0 else roundMag mode x.2 neg m e (q - (b - 1))
  | _ => 0

/-- A block's shared exponent, its quad offsets, its signs and magnitudes, and the clamps (07 R135). -/
structure SxBlock where
  exp : Nat
  quads : List Nat
  elems : List (Bool × Nat)
  sats : Nat
  deriving DecidableEq, Repr

/-- Split a list into groups of `n`. -/
def groups {α : Type} (n : Nat) : Nat → List α → List (List α)
  | 0, _ => []
  | k + 1, l => l.take n :: groups n k (l.drop n)

/-- The largest magnitude's exponent of a block: floor(log2 a), none when every value is zero. -/
def topExp : List (FVal × Nat) → Option Int
  | [] => none
  | (x, _) :: r =>
    match x with
    | .fin _ m e => if m = 0 then topExp r else
      match topExp r with
      | none => some (log2Of m e)
      | some t => some (max t (log2Of m e))
    | _ => topExp r

/-- The quad offset of R135: the largest d in 0..3 for which every magnitude of the quad fits. -/
def quadOffset (b : Nat) (mode : Rnd) (E : Nat) (quad : List (FVal × Nat)) : Nat :=
  if quad.all (fun x => x.1.isZero) then 0 else
  let fits := fun (d : Nat) => quad.all (fun x => decide (rmag b mode x ((E : Int) - 127 - d) ≤ 2 ^ b - 1))
  if fits 3 then 3 else if fits 2 then 2 else if fits 1 then 1 else 0

/-- Encode a block of values with their random bits (07 R135). The inputs of a NaN block count no saturation (log 77). -/
def sxEncode (fmt : BitVec 4) (mode : Rnd) (xs : List (FVal × Nat)) : SxBlock :=
  let b := sxBits fmt
  if xs.any (fun x => x.1.isNan) then
    { exp := 255, quads := List.replicate (xs.length / 4) 0, elems := List.replicate xs.length (false, 0), sats := 0 }
  else
    let infs := xs.filter (fun x => match x.1 with | .inf _ => true | _ => false)
    let ys := xs.map (fun x => match x.1 with
      | .inf n => (FVal.fin n (2 ^ b - 1) (127 - (b - 1)), x.2)
      | _ => x)
    let E := match topExp ys with
      | none => 0
      | some e0 =>
        let e1 := if ys.any (fun x => decide (2 ^ b ≤ rmag b mode x e0)) then e0 + 1 else e0
        (clampInt 0 254 (e1 + 127)).toNat
    let qs := groups 4 (ys.length / 4) ys
    let ds := qs.map (quadOffset b mode E)
    let mags := (qs.zip ds).flatMap (fun p => p.1.map (fun x => (x.1.sign, rmag b mode x ((E : Int) - 127 - p.2))))
    { exp := E, quads := ds
      elems := mags.map (fun x => (x.1, Nat.min x.2 (2 ^ b - 1)))
      sats := infs.length + (mags.filter (fun x => decide (2 ^ b - 1 < x.2))).length }

/-! ## The mixer (07 R137) -/

/-- One multiplication and fold of the mixer. -/
def mixStep (v c sh : Nat) : Nat := let x := v * c % 2 ^ 64; x ^^^ (x / 2 ^ sh)

/-- H(seed, tid, idx, stream) (07 R137). -/
def mixer (seed tid idx stream : Nat) : Nat :=
  let h := seed % 2 ^ 64 ^^^ (tid % 2 ^ 32 * 2 ^ 16 + stream % 2 ^ 16)
  let h := mixStep h 0xD6A35B1E47C92F83 31
  let h := h ^^^ (idx % 2 ^ 48)
  let h := mixStep h 0x8B4EC2176F3DA905 29
  mixStep h 0xA5F13C8D9276E4B1 32

/-- The 16 random bits of an element (07 R137). -/
def randomBits (seed tid idx stream : Nat) : Nat := mixer seed tid idx stream / 2 ^ 48

end Sys2Proof.Machine
end

