-- ==== Sys2Proof/Machine/Transform.lean ====
section
/-!
DEFINITION. The transform functions (07 R140, R141; 08 R166): their exact and special results, the exact result elsewhere to more bits than any of
the stated bounds can tell, and the free FP32 value within the bound (log 8).
-/

namespace Sys2Proof.Machine

/-! ## Special functions (07 R140, R141) -/

/-- The exponent of a magnitude that is a power of two. -/
def isPow2 (m : Nat) (e : Int) : Option Int := if 2 ^ m.log2 = m then some (m.log2 + e) else none
/-- The integer that a finite value is, if it is one. -/
def asInt (neg : Bool) (m : Nat) (e : Int) : Option Int :=
  if 0 ≤ e then (if e ≤ 40 then some (scaled neg m e 0) else none)
  else if e < -200 then none
  else if m % 2 ^ (-e).toNat = 0 then some (if neg then -((m / 2 ^ (-e).toNat : Nat) : Int) else (m / 2 ^ (-e).toNat : Nat)) else none

/-- The exact and special results of R140; none where only a bound is architectural. -/
def specialResult (fn : Config.Fn) (x : FVal) : Option Nat :=
  let nan := f32.canon
  let one := f32.rne (.fin false 1 0)
  let zero := fun n => f32.signed n 0
  match fn, x with
  | _, .nan => some nan
  | .sin, .inf _ => some nan
  | .sin, .fin n m _ => if m = 0 then some (zero n) else none
  | .cos, .inf _ => some nan
  | .cos, .fin _ m _ => if m = 0 then some one else none
  | .exp2, .inf n => some (if n then zero false else f32.infBits false)
  | .exp2, .fin n m e =>
    if !FVal.lt x (.fin false 128 0) then some (f32.infBits false)
    else if FVal.lt x (.fin true 150 0) then some (zero false)
    else match asInt n m e with
      | some k => some (f32.rne (.fin false 1 k))
      | none => none
  | .log2, .inf n => some (if n then nan else f32.infBits false)
  | .log2, .fin n m e =>
    if m = 0 then some (f32.infBits true) else if n then some nan
    else (isPow2 m e).map (fun k => f32.rne (FVal.ofInt k))
  | .rcp, .inf n => some (zero n)
  | .rcp, .fin n m e =>
    if m = 0 then some (f32.infBits n) else
    match isPow2 m e with
    | some k => some (f32.rne (.fin n 1 (-k)))
    | none => none
  | .rsqrt, .inf n => some (if n then nan else zero false)
  | .rsqrt, .fin n m e =>
    if m = 0 then some (f32.infBits n) else if n then some nan else
    match isPow2 m e with
    | some k => if k % 2 = 0 then some (f32.rne (.fin false 1 (-(k / 2)))) else none
    | none => none
  | .tanh, .inf n => some (f32.rne (.fin n 1 0))
  | .tanh, .fin n m _ =>
    if m = 0 then some (zero n)
    else if FVal.lt x.abs (.fin false 1 (-12)) then some (f32.rne x)
    else if !FVal.lt x.abs (.fin false 9 0) then some (f32.rne (.fin n 1 0)) else none
  | .sigmoid, .inf n => some (if n then zero false else one)
  | .sigmoid, .fin _ m _ =>
    if m = 0 then some (f32.rne (.fin false 1 (-1)))
    else if !FVal.lt x (.fin false 17 0) then some one
    else if FVal.lt x (.fin true 104 0) then some (zero false) else none


/-! ## The exact results, in fixed point with 400 bits below the point -/

/-- One. -/
def fxOne : Int := 2 ^ 400
/-- ln 2. -/
def fxLn2 : Int := 0xb17217f7d1cf79abc9e3b39803f2f6af40f343267298b62d8a0d175b8baafa2be7b876206debac98559552fb4afa1b10ed2e
/-- pi / 2. -/
def fxHalfPi : Int := 0x1921fb54442d18469898cc51701b839a252049c1114cf98e804177d4c76273644a29410f31c6809bbdf2a33679a7486366056
/-- A product. -/
def fxMul (a b : Int) : Int := a * b / fxOne
/-- A finite value in fixed point. -/
def fxOf (n : Bool) (m : Nat) (e : Int) : Int :=
  let x : Int := if 0 ≤ e + 400 then (m * 2 ^ (e + 400).toNat : Nat) else (m / 2 ^ (-(e + 400)).toNat : Nat)
  if n then -x else x
/-- A fixed-point number as a value, its last bit sticky. -/
def fxVal (x : Int) : FVal := FVal.ofScaled (2 * x + 1) (-401) false
/-- 1 + y/k (1 + y/(k+1) (1 + ...)): the tail of the exponential series from term `k`, of `n` terms. -/
def expTail (y : Int) : Nat → Nat → Int
  | 0, _ => fxOne
  | n + 1, k => fxOne + fxMul y (expTail y n (k + 1)) / k
/-- The exponential of y: its fixed-point mantissa and the power of two that scales it. -/
def fxExp (y : Int) : Int × Int := (expTail (y % fxLn2) 80 1, y / fxLn2)
/-- The tail of the sine and cosine series from term `k`, with `y2` the square of the argument. -/
def trigTail (y2 : Int) : Nat → Nat → Int
  | 0, _ => fxOne
  | n + 1, k => fxOne - fxMul y2 (trigTail y2 n (k + 2)) / (k * (k + 1))
/-- Sine of x plus `q` quarter turns, by the quarter turn nearest to x. -/
def fxSin (x : Int) (q : Int) : Int :=
  let n := (2 * x + fxHalfPi) / (2 * fxHalfPi)
  let t := x - n * fxHalfPi
  let y2 := fxMul t t
  let sn := fxMul t (trigTail y2 60 2)
  let cs := trigTail y2 60 1
  let k := (n + q) % 4
  if k = 0 then sn else if k = 1 then cs else if k = 2 then -sn else -cs
/-- Bits of log2 of r in [1, 2), by repeated squaring. -/
def log2Bits : Nat → Nat → Nat → Nat
  | 0, _, acc => acc
  | n + 1, r, acc =>
    let r2 := r * r / 2 ^ 400
    if 2 ^ 401 ≤ r2 then log2Bits n (r2 / 2) (2 * acc + 1) else log2Bits n r2 (2 * acc)

/-- A transform function's exact result for a finite x that has no exact or special result. -/
def exactFn (fn : Config.Fn) (x : FVal) : FVal :=
  match x with
  | .fin n m e =>
    let v := fxOf n m e
    match fn with
    | .sin => fxVal (fxSin v 0)
    | .cos => fxVal (fxSin v 1)
    | .exp2 => FVal.mul (fxVal (expTail (fxMul (v % fxOne) fxLn2) 80 1)) (.fin false 1 (v / fxOne))
    | .log2 =>
      FVal.add false (FVal.ofInt (log2Of m e)) (.fin false (2 * log2Bits 160 (m * 2 ^ 400 / 2 ^ m.log2) 0 + 1) (-161))
    | .rcp => FVal.div (.fin false 1 0) x
    | .rsqrt => FVal.div (.fin false 1 0) (FVal.sqrt x)
    | .tanh =>
      let (y, k) := fxExp (2 * fxOf false m e)
      let y := FVal.mul (fxVal y) (.fin false 1 k)
      FVal.mul (.fin n 1 0) (FVal.div (FVal.sub false y (.fin false 1 0)) (FVal.add false y (.fin false 1 0)))
    | .sigmoid =>
      let (y, k) := fxExp (-v)
      FVal.div (.fin false 1 0) (FVal.add false (FVal.mul (fxVal y) (.fin false 1 k)) (.fin false 1 0))
  | x => x

/-! ## The bounds -/

/-- The unit in the last place of an FP32 result. -/
def ulpOf : FVal → FVal
  | .fin _ m e => .fin false 1 (if m = 0 then f32.emin else quantum 24 f32.emin m e)
  | _ => .fin false 0 0
/-- The distance that R140 allows a result `r` from the exact result, for an operand x. -/
def fnBound (fn : Config.Fn) (x r : FVal) : FVal :=
  let ulps := fun (k : Nat) => FVal.mul (.fin false k 0) (ulpOf r)
  match fn with
  | .sin => FVal.max (ulps 2) (.fin false 1 (-24))
  | .cos => FVal.max (ulps 2) (.fin false 1 (-24))
  | .exp2 => ulps 1
  | .log2 => if !FVal.lt x (.fin false 1 (-1)) && !FVal.lt (.fin false 2 0) x then .fin false 1 (-22) else ulps 1
  | .rcp => ulps 1
  | .rsqrt => ulps 1
  | .tanh => ulps 2
  | .sigmoid => FVal.max (ulps 2) (.fin false 1 (-30))
/-- Whether an FP32 result keeps the bound of R140. -/
def keepsBound (fn : Config.Fn) (x y r : FVal) : Bool :=
  r.isFin && !FVal.lt (fnBound fn x r) (FVal.sub false r y).abs

/-- A transform function of an FP32 value: its exact or special result; elsewhere a free value within the bound of R140, which is the exact result
rounded where the free choice would break the bound (07 R140, R141; log 8). -/
def transformFn (fn : Config.Fn) (x : FVal) : Nat :=
  (specialResult fn x).getD
    (let c := (Config.transform fn (BitVec.ofNat 32 (f32.rne x))).toNat
     let y := exactFn fn x
     if keepsBound fn x y (f32.decode c) then c else f32.rne y)

end Sys2Proof.Machine
end

