-- ==== Sys2Proof/Machine/Bytes.lean ====
section
/-!
DEFINITION. Bytes of memory at their single places, in one canonical form, and the marks of poisoned words (17 R315).
-/

namespace Sys2Proof.Machine

/-- One byte of memory at a key; a byte that nothing has written reads `memDefault` (log 3). -/
def readMem (m : List Host.Cell) (k : Nat) : Byte := SMap.get memDefault m k
/-- Write one byte of memory, in the canonical form. -/
def writeMem (m : List Host.Cell) (k : Nat) (b : Byte) : List Host.Cell := SMap.put memDefault m k b
/-- `n` bytes from key `k` up. -/
def readRange (m : List Host.Cell) (k : Nat) : Nat → List Byte
  | 0 => []
  | n + 1 => readMem m k :: readRange m (k + 1) n
/-- Write consecutive bytes from key `k` up. -/
def writeRange (m : List Host.Cell) (k : Nat) : List Byte → List Host.Cell
  | [] => m
  | b :: r => writeRange (writeMem m k b) (k + 1) r
/-- The canonical form of memory: strictly rising addresses, no entry equal to what an unlisted address reads as. -/
def Memory.wf (m : List Host.Cell) : Bool := SMap.wf memDefault m

namespace State

/-- A byte at its single place. -/
def byteAt (s : State) (k : Nat) : Byte := readMem s.mem k
/-- Consecutive bytes at their single place. -/
def bytesAt (s : State) (k n : Nat) : List Byte := readRange s.mem k n
/-- A little-endian number of `n` bytes. -/
def numAt (s : State) (k n : Nat) : Nat := ofBytes (s.bytesAt k n)

/-- Whether any of `n` bytes from `k` lies in a poisoned word (17 R315; a word is 8 aligned bytes, log 9). -/
def poisoned (s : State) (k n : Nat) : Bool := s.poison.any (fun w => decide (w * 8 < k + n ∧ k < w * 8 + 8))
/-- A write of every byte of a poisoned word clears its mark (17 R315). -/
def unpoison (s : State) (k n : Nat) : State :=
  if s.poison.isEmpty then s else { s with poison := s.poison.filter (fun w => !decide (k ≤ w * 8 ∧ w * 8 + 8 ≤ k + n)) }
/-- Mark the words that `n` bytes from `k` touch as poisoned. -/
def setPoison (s : State) (k n : Nat) : State :=
  let ws := (List.range (ceilDiv (k % 8 + n) 8)).map (fun j => k / 8 + j)
  { s with poison := ws.foldl (fun l w => if l.contains w then l else l ++ [w]) s.poison }
/-- Store bytes at their single place. -/
def storeAt (s : State) (k : Nat) (bs : List Byte) : State :=
  { s.unpoison k bs.length with mem := writeRange s.mem k bs }
/-- Store a little-endian number of `n` bytes. -/
def storeNum (s : State) (k n x : Nat) : State := s.storeAt k (toBytes n x)

end State

end Sys2Proof.Machine
end

