-- ==== Sys2Proof/Machine/Ops.lean ====
section
/-!
DEFINITION. The named operations over agents, registers, results in flight, notices, checkpoints and traps (04 R65-R67, R74; 06 R103-R124;
14 R256-R264; 22 R365-R373). Taking a trap is `State.takeTrap`; the return from one is `State.resume`.
-/

namespace Sys2Proof

/-! ## Agents (01 R11) -/

/-- The table key of an agent. -/
def Agent.key : Agent → Nat
  | .ctx c k => 8 * c + k
  | .scribe c => 4096 + c
  | .cp d => 4160 + d
/-- The package cluster of an agent; a command processor belongs to none. -/
def Agent.cluster? : Agent → Option Nat
  | .ctx c _ => some (c / 8)
  | .scribe c => some c
  | .cp _ => none
/-- The die of an agent. -/
def Agent.die : Agent → Nat
  | .ctx c _ => c / 128
  | .scribe c => c / 16
  | .cp d => d
/-- Whether an agent is a context of a core. -/
def Agent.onCore : Agent → Bool
  | .ctx _ _ => true
  | _ => false
/-- The package core of a core context. -/
def Agent.core : Agent → Nat
  | .ctx c _ => c
  | _ => 0
/-- The context number of a core context. -/
def Agent.ctxNo : Agent → Nat
  | .ctx _ k => k
  | _ => 0
/-- The agent of a table key. -/
def agentOf (key : Nat) : Agent :=
  if key < 4096 then .ctx (key / 8) (key % 8) else if key < 4160 then .scribe (key - 4096) else .cp (key - 4160)
/-- The release queue that an agent's effects enter: its core's, or its own (06 R120). -/
def Agent.relKey : Agent → Nat
  | .ctx c _ => c
  | .scribe c => 512 + c
  | .cp d => 576 + d

namespace Machine

/-- The outcome of a meaning. -/
abbrev Res := Host.Outcome State Fault Refusal

namespace State

/-! ## Access to the tables -/

/-- An agent's record. -/
def ctx (s : State) (a : Agent) : Ctx := s.ctxs.get (ctxDefault a.key) a.key
/-- Replace an agent's record. -/
def setCtx (s : State) (a : Agent) (c : Ctx) : State :=
  { s with ctxs := s.ctxs.put (ctxDefault a.key) a.key c }
/-- Change an agent's record. -/
def modCtx (s : State) (a : Agent) (f : Ctx → Ctx) : State := s.setCtx a (f (s.ctx a))
/-- The record of the agent that is issuing. -/
def me (s : State) : Ctx := s.ctx s.who
/-- Change the record of the agent that is issuing. -/
def modMe (s : State) (f : Ctx → Ctx) : State := s.modCtx s.who f
/-- A core. -/
def core (s : State) (n : Nat) : CoreSt := s.cores.get {} n
/-- Change a core. -/
def modCore (s : State) (n : Nat) (f : CoreSt → CoreSt) : State := { s with cores := s.cores.upd {} n f }
/-- A cluster. -/
def cluster (s : State) (n : Nat) : Cluster := s.clusters.get {} n
/-- Change a cluster. -/
def modCluster (s : State) (n : Nat) (f : Cluster → Cluster) : State :=
  { s with clusters := s.clusters.upd {} n f }
/-- A die. -/
def die (s : State) (n : Nat) : Die := s.dies.get {} n
/-- Change a die. -/
def modDie (s : State) (n : Nat) (f : Die → Die) : State := { s with dies := s.dies.upd {} n f }
/-- A task. -/
def task (s : State) (n : Nat) : Task := s.tasks.get {} n
/-- Change a task. -/
def modTask (s : State) (n : Nat) (f : Task → Task) : State := { s with tasks := s.tasks.upd {} n f }
/-- A queue of a process: key 4096 * process + number (12 R224). -/
def queue (s : State) (k : Nat) : Queue := s.queues.get {} k
/-- Change a queue. -/
def modQueue (s : State) (k : Nat) (f : Queue → Queue) : State := { s with queues := s.queues.upd {} k f }
/-- The bindings of a well block. -/
def well (s : State) (k : Nat) : WellBind := s.wells.get {} k
/-- Change the walker. -/
def modWalker (s : State) (f : Walker → Walker) : State := { s with walker := f s.walker }
/-- Change the host's registers. -/
def modHost (s : State) (f : HostRegs → HostRegs) : State := { s with host := f s.host }
/-- A message leaves the package. -/
def send (s : State) (m : Msg) : State := { s with outbox := s.outbox ++ [m] }
/-- A fresh number for an engine, a fetch or a landing entry. -/
def newId (s : State) : Nat × State := (s.ids, { s with ids := s.ids + 1 })

/-- Put an event into an agenda, after every event due no later (a queue in time order). -/
def agendaInsert (due : Nat) (e : Ev) : List (Nat × Ev) → List (Nat × Ev)
  | [] => [(due, e)]
  | (d, f) :: r => if d ≤ due then (d, f) :: agendaInsert due e r else (due, e) :: (d, f) :: r
/-- Schedule an event for a cc. -/
def at_ (s : State) (due : Nat) (e : Ev) : State := { s with agenda := agendaInsert due e s.agenda }
/-- Schedule an event `n` cc from now. -/
def after (s : State) (n : Nat) (e : Ev) : State := s.at_ (s.cc + n) e
/-- Withdraw every scheduled event that satisfies `p`. -/
def unschedule (s : State) (p : Ev → Bool) : State :=
  { s with agenda := s.agenda.filter (fun x => !p x.2) }

end State

/-! ## Registers and rotation (04 R66, R74) -/

/-- The physical register of a name sN or vN under rotation r (04 R74). -/
def physSV (r : BitVec 4) (n : BitVec 5) : BitVec 5 :=
  if n.toNat < 16 then n else BitVec.ofNat 5 (16 + (n.toNat - 16 + r.toNat) % 16)
/-- The physical register of a name fN under rotation r (04 R74). -/
def physF (r : BitVec 4) (n : BitVec 4) : BitVec 4 :=
  if n.toNat < 8 then n else BitVec.ofNat 4 (8 + (n.toNat - 8 + r.toNat) % 8)

namespace Regs

/-- Physical scalar register. -/
def getS (r : Regs) (n : BitVec 5) : Word := r.s.get n.toFin
/-- Physical vector register. -/
def getV (r : Regs) (n : BitVec 5) : VReg := r.v.get n.toFin
/-- Physical predicate; f0 is always true (02 R31). -/
def getF (r : Regs) (n : BitVec 4) : Bool := n == 0 || r.f.getLsbD n.toNat
/-- Mask register. -/
def getM (r : Regs) (n : BitVec 4) : Mask := r.m.get n.toFin

/-- Set one predicate bit. -/
def setF (r : Regs) (n : BitVec 4) (x : Bool) : Regs :=
  { r with f := (r.f &&& ~~~(BitVec.ofNat 16 (2 ^ n.toNat))) ||| (if x then BitVec.ofNat 16 (2 ^ n.toNat) else 0) }

/-- Write one register; writes to s0, f0 and m0 are discarded (04 R66). A write of a pane's scale is no write of a register. -/
def put (r : Regs) : RegWrite → Regs
  | .s n x => if n = 0 then r else { r with s := r.s.set n.toNat x n.isLt }
  | .v n x => { r with v := r.v.set n.toNat x n.isLt }
  | .f n x => if n = 0 then r else r.setF n x
  | .m n x => if n = 0 then r else { r with m := r.m.set n.toNat x n.isLt }
  | .c _ _ => r

/-- Write registers in order: of two writes to one register the later prevails (04 R66). -/
def putAll (r : Regs) (ws : List RegWrite) : Regs := ws.foldl put r

end Regs

namespace State

/-- The registers that slots of the bundle being issued read (02 R27). -/
def regs (s : State) : Regs := s.me.live
/-- The rotation that names are resolved under (04 R65, R74). -/
def rot (s : State) : BitVec 4 := s.regs.c.rot
/-- Scalar register by name. -/
def rs (s : State) (n : BitVec 5) : Word := s.regs.getS (physSV s.rot n)
/-- Vector register by name. -/
def rv (s : State) (n : BitVec 5) : VReg := s.regs.getV (physSV s.rot n)
/-- Predicate by name. -/
def rf (s : State) (n : BitVec 4) : Bool := s.regs.getF (physF s.rot n)
/-- Mask register. -/
def rm (s : State) (n : BitVec 4) : Mask := s.regs.getM n
/-- The pending write of a scalar by name. -/
def wS (s : State) (n : BitVec 5) (x : Word) : RegWrite := .s (physSV s.rot n) x
/-- The pending write of a vector register by name. -/
def wV (s : State) (n : BitVec 5) (x : VReg) : RegWrite := .v (physSV s.rot n) x
/-- The pending write of a predicate by name. -/
def wF (s : State) (n : BitVec 4) (x : Bool) : RegWrite := .f (physF s.rot n) x
/-- The pending write of a mask register. -/
def wM (_s : State) (n : BitVec 4) (x : Mask) : RegWrite := .m n x

/-- A slot's guard as it reads at issue (02 R31, R32). -/
def guard (s : State) (g : BitVec 4) : Bool := s.rf g

/-! ## Results in flight (04 R65; 06 R103, R106) -/

/-- Append a flight entry to an agent. -/
def addFlight (s : State) (a : Agent) (e : Flight) : State :=
  s.modCtx a (fun c => { c with flight := c.flight ++ [e] })
/-- A result of fixed latency `L`: written at the issue cycle `L` after this one (04 R65). -/
def result (s : State) (L : Nat) (ws : List RegWrite) : State :=
  s.addFlight s.who { id := 0, writes := ws, dist := L }

/-- Landing buffer entries in use (06 R106). -/
def landings (c : Ctx) : Nat := (c.flight.filter (fun e => e.kind == .load || e.kind == .dead)).length
/-- Requests outstanding in a class (04 R91; 17 R307). -/
def outstanding (c : Ctx) (cls : Nat) : Nat :=
  (c.flight.filter (fun e => e.kind != .fixed && !e.arrived && e.cls == cls)).length

/-- The register writes of bytes that arrived (04 R93; 09 R183; 12 R235). -/
def shapeWrites : LoadShape → List Byte → List RegWrite
  | .none, _ => []
  | .s r n, b => [.s r (BitVec.ofNat 64 (ofBytes (b.take n)))]
  | .pair r q, b => [.s r (BitVec.ofNat 64 (ofBytes (b.take 8))), .s q (BitVec.ofNat 64 (ofBytes ((b.drop 8).take 8)))]
  | .bcast r, b => [.v r (ofLanes (fun _ => BitVec.ofNat 32 (ofBytes (b.take 4))))]
  | .vec r, b => [.v r (BitVec.ofNat 4096 (ofBytes b))]
  | .scale ps, b => ps.map (fun p => .c p (BitVec.ofNat 32 (f32.rne (FVal.mul (f32.decode (ofBytes (b.take 4))) (f32.decode (ofBytes ((b.drop 4).take 4)))))))

/-- Every register write of a flight entry. -/
def entryWrites (e : Flight) : List RegWrite := e.writes ++ shapeWrites e.shape e.buf

/-- Apply an entry's writes: to the live set, and to the duplicate set when it belongs to the checkpoint (06 R117). -/
def landEntry (c : Ctx) (e : Flight) : Ctx :=
  { c with live := c.live.putAll (entryWrites e), ckpt := if e.ck then c.ckpt.putAll (entryWrites e) else c.ckpt }

/-- Set the combined scales that an entry writes, of panes that are still the context's (09 R183). -/
def landScales (s : State) (a : Agent) (ws : List RegWrite) : State :=
  ws.foldl (fun (s : State) w => match w with
    | .c p x => s.modCore a.core (fun k => { k with panes := k.panes.setIfInBounds p (
        let q := k.panes.getD p {}
        if q.owner.map (·.1) = some a.ctxNo then { q with c := x } else q) })
    | _ => s) s

/-- Write every result that is due and has arrived, in issue order, and drop it (04 R65, R66, R90). -/
def landDue (s : State) (a : Agent) : State :=
  let c := s.ctx a
  let due := c.flight.filter (fun e => e.dist == 0 && e.arrived && e.kind != .pref && e.kind != .fetch && e.kind != .dead)
  let keep := c.flight.filter (fun e => !(e.dist == 0 && e.arrived && e.kind != .pref && e.kind != .fetch && e.kind != .dead))
  let s := s.setCtx a (due.foldl landEntry { c with flight := keep })
  landScales s a (due.flatMap entryWrites)

/-- A load is due whose data has not arrived (04 R90). -/
def lateLanding (c : Ctx) : Bool := c.flight.any (fun e => e.kind == .load && e.dist == 0 && !e.arrived)

/-- One issue cycle passes for the results in flight (06 R103). -/
def ageFlight (c : Ctx) : Ctx := { c with flight := c.flight.map (fun e => { e with dist := e.dist - 1 }) }

/-! ## Virtual function, process and owner of an agent (15 R296; 22 R383) -/

/-- The process an agent translates with: OWNER's for a core context, 0 for scribes and command processors (22 R383). -/
def procOf (s : State) (a : Agent) : Nat := if a.onCore then bits (s.ctx a).owner.toNat 17 8 else 0
/-- The virtual function that owns an agent's work (15 R296). -/
def vfOf (s : State) (a : Agent) : Nat := bits (s.ctx a).owner.toNat 4 0
/-- The TASKID of an agent's task, or 0. -/
def taskidOf (s : State) (a : Agent) : BitVec 32 :=
  match (s.ctx a).task with
  | some t => (s.task t).taskid
  | none => 0

/-! ## Notices (22 R370, R371) -/

/-- SOURCE of a notice (22 R371). -/
def sourceOf (s : State) (a : Agent) : BitVec 64 :=
  BitVec.ofNat 64 (a.ctxNo + a.core * 2 ^ 3 + (a.cluster?.getD 0) * 2 ^ 12 + a.die * 2 ^ 18 + s.pkgid.toNat * 2 ^ 20
    + s.vfOf a * 2 ^ 36 + s.procOf a * 2 ^ 41)

/-- Where an agent's notices go: the scribe of a core context's cluster, the die's command-processor notice ring for a scribe
(14 R249), the PF mailbox for a command processor (14 R248). -/
def noticeDest : Agent → NoticeTo
  | .ctx c _ => .scribe (c / 8)
  | .scribe c => .cpring (c / 16)
  | .cp _ => .pf

/-- Raise a notice; it is written by the step NOTICE_DELIVERY. -/
def notify (s : State) (n : Notice) : State := { s with notices := s.notices ++ [n] }

/-- A notice about an agent. -/
def noticeOf (s : State) (a : Agent) (cause kind : Nat) (det : Det) : Notice :=
  { dest := noticeDest a, cause := cause, kind := kind, source := s.sourceOf a, taskid := s.taskidOf a, det := det }

/-- An event (kind E): a notice, and nothing stops (22 R365). -/
def event (s : State) (dest : NoticeTo) (a : Agent) (cause : Nat) (det : Det) : State :=
  s.notify { s.noticeOf a cause 3 det with dest := dest }

/-! ## Queue heads and wells under rollback (06 R118, R121; 12 R220) -/

/-- Give back what a discarded effect had reserved (12 R220; 15 R272). -/
def unreserve (s : State) : Effect → State
  | .qpush q _ _ => s.modQueue q (fun x => { x with resv := x.resv - 1 })
  | .evtTake cl k n => s.modCluster cl (fun c => { c with sems := c.sems.upd {} k (fun x => { x with resv := x.resv - n }) })
  | .cpchGo cl ch _ _ => s.modCluster cl (fun c => { c with chans := c.chans.upd {} ch (fun x => { x with reserved := none }) })
  | _ => s

/-- Whether an agent has released effects of a sort that have not performed (06 R120). -/
def released (s : State) (a : Agent) (p : Effect → Bool) : Bool := (s.relqs.get [] a.relKey).any (fun r => r.who == a && p r.w.eff)

/-- A queue-head binding of an agent that its registers no longer record is ended, unless its release has yet to perform, and one they record is
made (06 R118; 12 R227). -/
def resyncHeads (s : State) (a : Agent) : State :=
  let c := (s.ctx a).live.c
  let p := s.procOf a * 4096
  let bound := (List.range 4).filterMap (fun k => match c.qh[k]? with
    | some h => if h.bound then some (p + h.queue.toNat, k) else none
    | none => none)
  let qs := s.queues.map (fun (e : Nat × Queue) => (e.1, match e.2.head with
    | some (b, k) => if b = a ∧ !(bound.contains (e.1, k)) ∧ !(s.released a (fun x => x == .qunbind e.1)) then { e.2 with head := none } else e.2
    | none => e.2))
  bound.foldl (fun (s : State) b => s.modQueue b.1 (fun q => { q with head := some (a, b.2) })) { s with queues := qs }

/-- The memory key of a handle's well block. -/
def wellKey (_s : State) (a : Agent) (h : WHandle) : Nat :=
  if h.vault then vaultKey h.blk.toNat else padKey (a.cluster?.getD 0) h.blk.toNat

/-- The agent that a binding belongs to (12 R229, R231). -/
def binderAgent (s : State) (key : Nat) : Binder → Agent
  | .handle a _ => a
  | .chan cl ch => ((s.cluster cl).chans.get {} ch).who
  | .device => .scribe (key / 2 ^ 22 % 64)

/-- Set a well block's bindings: while a role is bound, its bytes 0x10 to 0x3F are under a read lease and BIND holds free values (log 4); unbound, BIND is
zero (12 R229). -/
def setWell (s : State) (key : Nat) (w : WellBind) : State :=
  if w = s.well key then s else
  let who := ((w.cons.or w.prod).map (s.binderAgent key)).getD (.cp 0)
  let bytes := if w = {} then List.replicate 32 0 else (List.range 32).map (fun i => Config.freeByte (s.fresh + i))
  let rest := s.leases.filter (fun x => !(x.kind == .well && x.ref == key))
  { s with wells := s.wells.put {} key w
           fresh := if w = {} then s.fresh else s.fresh + 32
           mem := writeRange s.mem (key + 0x20) bytes
           leases := if w = {} then rest else rest ++ [{ kind := .well, lo := key + 0x10, hi := key + 0x40, who := who, ref := key }] }

/-- End a role of a well if a given binder holds it (12 R231). -/
def unbindWell (s : State) (key : Nat) (prod : Bool) (b : Binder) : State :=
  let w := s.well key
  if prod then (if w.prod = some b then s.setWell key { w with prod := none } else s)
  else (if w.cons = some b then s.setWell key { w with cons := none } else s)

/-- A well role that the registers no longer record is ended, unless its release has yet to perform, and one they record is made
(06 R118; 12 R231). -/
def resyncWells (s : State) (a : Agent) : State :=
  let c := (s.ctx a).live.c
  let hs := (List.range 16).filterMap (fun k => match c.w[k]? with
    | some h => if h.bound then some (s.wellKey a h, h.prod, k) else none
    | none => none)
  let keepRole := fun (key : Nat) (prod : Bool) (b : Option Binder) => match b with
    | some (.handle x k) => if x = a ∧ !(hs.contains (key, prod, k)) ∧ !(s.released a (fun x => x == .wunbind key prod)) then none else b
    | _ => b
  let s := s.wells.foldl (fun (s : State) e => s.setWell e.1 { cons := keepRole e.1 false e.2.cons, prod := keepRole e.1 true e.2.prod }) s
  hs.foldl (fun (s : State) h =>
    let w := s.well h.1
    s.setWell h.1 (if h.2.1 then { w with prod := some (.handle a h.2.2) } else { w with cons := some (.handle a h.2.2) })) s

/-! ## Rollback and traps (06 R121, R122; 22 R366) -/

/-- Mark the tile of a logical tile number as poisoned. -/
def poisonTile (s : State) (a : Agent) (t : Nat) : State :=
  match (s.ctx a).panes[t / 2]? with
  | some (some p) => if h : p < 4 then
      s.modCore a.core (fun k =>
        let pn := k.panes[p]
        let pn := if t % 2 = 0 then { pn with t0 := { pn.t0 with poison := true } } else { pn with t1 := { pn.t1 with poison := true } }
        { k with panes := k.panes.set p pn h })
    else s
  | _ => s

/-- Flight entries after a rollback: those of the checkpoint go back to their distance at it, loads issued after it wait for their data only,
all other results are discarded (06 R109, R121, R122). -/
def rolledFlight (fs : List Flight) : List Flight :=
  fs.filterMap (fun e =>
    if e.ck then some { e with dist := e.distCk }
    else match e.kind with
      | .fixed => none
      | .load => if e.arrived then none else some { e with kind := .dead, writes := [], shape := .none, fault := none }
      | .dead => some e
      | .fetch => some { e with writes := [] }
      | .pref => some e)

/-- Roll a context back to its checkpoint (06 R121); a command processor's HEAD is its next bundle again (23 R394). A tile's done position and the times of its pane
stay where they are: the operations have started and run on (06 R121, R122; log 73). -/
def rollback (s : State) (a : Agent) : State :=
  let c := s.ctx a
  let s := c.held.foldl (fun s w => s.unreserve w.eff) s
  let s := (List.range 8).foldl (fun s t => if c.tiles.getLsbD t then s.poisonTile a t else s) s
  let s := s.modCtx a (fun c =>
    { c with live := c.ckpt, stage := c.ckpt.c, flight := rolledFlight c.flight, held := [], tiles := 0, tckpt := c.ckBund
             empty := 0, wait := none, waits := [] })
  let s := match a with
    | .cp d => s.modDie d (fun x => { x with head := c.ckpt.c.pc })
    | _ => s
  (s.resyncHeads a).resyncWells a

/-- A context leaves its front position (14 R258, R264). -/
def vacate (s : State) (a : Agent) : State :=
  match a with
  | .ctx c k => s.modCore c (fun x =>
      { x with posA := if x.posA = some k then none else x.posA
               posB := if x.posB = some k then none else x.posB
               lastB := if x.posB = some k then none else x.lastB })
  | .scribe _ => s
  | .cp d => s.modDie d (fun x => { x with run := false })

/-- The target word that names an agent (15 R288). -/
def targetWord (a : Agent) : BitVec 64 := BitVec.ofNat 64 (a.ctxNo + a.core % 8 * 2 ^ 3 + (a.cluster?.getD 0) % 16 * 2 ^ 6)
/-- The details of a stop's notice: the target word and the stop's own cause (22 R369, R370). -/
def stopDet (a : Agent) (cause : Nat) : Det := { d1 := targetWord a, d2 := BitVec.ofNat 64 cause }

/-- A stop: %tcause, %tbund and %tdet are set, the state is stopped, one notice is written (22 R366, R370). A boundary stop's notice has cause 0x70
and its own details. -/
def stopWith (s : State) (a : Agent) (t : TrapRec) (kind : Nat) : State :=
  let s := s.modCtx a (fun c =>
    { c with tcause := BitVec.ofNat 7 t.cause, tbund := t.bund, tdet := t.det, st := .stopped, step := false
             far := c.far.filter (fun f => f.use_ != .slot) })
  let s := s.vacate a
  let c := s.ctx a
  let ncause := if kind = 2 then 0x70 else t.cause
  let det := if kind = 2 then stopDet a t.cause else t.det
  s.notify { s.noticeOf a ncause kind det with bund := c.tbund.setWidth 64, ckpt := c.tckpt.setWidth 64 }

/-- Take a trap at a boundary: roll back to the checkpoint, set the details, stop (22 R366). A stop request pending at the boundary is
satisfied, and its notice is still written (R367). -/
def takeTrap (s : State) (a : Agent) (t : TrapRec) : State :=
  let s := s.rollback a
  let req := (s.ctx a).stopReq
  let s := (s.modCtx a (fun c => { c with stopReq := none })).stopWith a t (if t.dfr then 1 else 0)
  match req with
  | some (cause, _) =>
    let c := s.ctx a
    s.notify { s.noticeOf a 0x70 2 (stopDet a cause) with bund := c.tbund.setWidth 64, ckpt := c.tckpt.setWidth 64 }
  | none => s

/-- Make a stopped context waiting again, or set a stopped scribe or command processor running (14 R256; 15 R291; 22 R373; 23 R400). -/
def resume (s : State) (a : Agent) : State :=
  s.modCtx a (fun c => { c with st := if a.onCore then .waiting else .front, skip := 0, waitFrom := s.cc, savedAt := none })

/-- The detail word of a cause raised by the slot being executed: position, sub-reason, slot word (22 R368). -/
def slotDet (s : State) (sub : Nat) : BitVec 64 :=
  BitVec.ofNat 64 (s.pos + sub * 16 + s.word.toNat * 2 ^ 32)

/-- The record of a cause raised by the slot being executed. -/
def slotTrap (s : State) (cause : Nat) (sub : Nat := 0) (d1 d2 d3 : BitVec 64 := 0) : TrapRec :=
  { cause := cause, det := { d0 := s.slotDet sub, d1 := d1, d2 := d2, d3 := d3 }, bund := s.bpc.setWidth 57 }

/-- The slot being executed raises a trap: no slot of the bundle issues, and the context takes the trap (06 R105). The verdict tells the bundle's
issue which trap it was. -/
def raise (s : State) (t : TrapRec) : State := { s.takeTrap s.who t with verdict := .trap t }

/-- The slot being executed has an unmet wait: the bundle does not issue in this cc (12 R218). -/
def hold (s : State) (h : Hold) : State := { s with verdict := .hold { h with pos := s.pos } }

end State

/-- A meaning that raises a cause at issue. -/
def trapAt (s : State) (cause : Nat) (sub : Nat := 0) (d1 d2 d3 : BitVec 64 := 0) : Res :=
  .next (s.raise (s.slotTrap cause sub d1 d2 d3))

/-- The privileged encoded rows: OP 0x74 to 0x7D, and the sub-operations that the spec marks privileged (02 R29; 09 R173; 15 R270). -/
def privileged : Instr → Bool
  | .task .. | .dspj .. | .ctxRd .. | .ctxWr .. | .csvSave .. | .csvLd .. | .csvFree .. | .csvEnd .. | .tret .. | .tlbiAll ..
  | .tlbiVf .. | .tlbiPg .. | .monCfg .. | .monRd .. | .monClr .. | .wswOut .. | .wswIn .. | .dbgStep .. | .dbgStop .. | .dbgBrk ..
  | .cfgRd .. | .cfgWr .. | .govPol .. | .govSet .. | .govClr .. | .gstep .. | .stabWr .. | .stabGo .. | .stabStop .. | .stabLink ..
  | .stabClr .. | .memcCreg .. => true
  | _ => false

/-- Special registers that may not be written: those marked "—", and on a core those marked "scribe"; an unassigned number is not among them (04 R86, R87). -/
def srWriteDenied (onCore : Bool) (n : BitVec 10) : Bool :=
  let k := n.toNat
  (k == 9) || (0xB ≤ k && k ≤ 0x11) || (onCore && (k == 0xA || (0x18 ≤ k && k ≤ 0x1D) || (0x20 ≤ k && k ≤ 0x32) || (0x34 ≤ k && k ≤ 0x37)))

/-- The OP value of an instruction (02 R31). -/
def opOf (i : Instr) : Nat := bits (encode i).toNat 30 24

/-- The format field of a slot word, by form (02 R34). -/
def fmtOfWord (w : SlotWord) : Nat :=
  let x := w.toNat
  let op := bits x 30 24
  if op = 0x30 then bits x 5 2 else if op = 0x5C ∨ op = 0x6D then bits x 10 7
  else if 0x5D ≤ op ∧ op ≤ 0x62 then bits x 6 3 else bits x 4 1

/-- The classes of execution unit that a slot is routed to (02 R27, R29). -/
inductive UClass where
  | lead | s | l | v | x | m | q | priv
  deriving DecidableEq, Repr

/-- How an OP value is routed on a core or on a scribe or command processor; none: that processor lacks the unit (02 R28, R29). -/
def route (onCore : Bool) (op : Nat) : Option UClass :=
  if op < 0x10 then some .lead
  else if op < 0x28 then some .s
  else if op < 0x38 then some .l
  else if op = 0x6F then some .l
  else if 0x74 ≤ op then some (if onCore then .priv else .q)
  else if 0x63 ≤ op ∧ op ≤ 0x65 then some (if onCore then .m else .q)
  else if op = 0x6D then (if onCore then some .q else none)
  else if 0x68 ≤ op then some .q
  else if !onCore then none
  else if op < 0x50 then some .v
  else if op < 0x58 then some .x
  else some .m

namespace State
/-- The required unit map of the variant that an agent runs (02 R48, R49); without a task every unit is required. -/
def unitsOf (s : State) (a : Agent) : BitVec 32 :=
  match (s.ctx a).task with
  | some t => (s.task t).units
  | none => 0x1FF
end State

/-- Whether the running variant's unit map enables a unit class in its first position (02 R28 case 6). -/
def unitEnabled (u : BitVec 32) : UClass → Bool
  | .v => u.getLsbD 6
  | .x => u.getLsbD 7
  | .q => u.getLsbD 8
  | .m => bits u.toNat 3 0 != 0
  | _ => true

/-- A slot's unit: lacking on this processor (case 5), or not enabled by the variant (case 6) (02 R28). -/
def unitCheck (s : State) (i : Instr) : Option Nat :=
  match route s.who.onCore (opOf i) with
  | none => some 5
  | some u => if s.who.onCore && !unitEnabled (s.unitsOf s.who) u then some 6 else none

/-- The encoding checks of one slot that need no other slot: its unit, privilege, then reserved combinations, then formats (02 R30; 04 R87). -/
def slotCheck (s : State) (i : Instr) : Option TrapRec :=
  let denied := (s.who.onCore && privileged i) ||
    (match i with
     | .wrsr _ _ n => srWriteDenied s.who.onCore n
     | _ => false)
  match unitCheck s i with
  | some n => some (s.slotTrap 0x03 n)
  | none =>
  if denied then some (s.slotTrap 0x04) else
  match i.ill with
  | some .reserved => some (s.slotTrap 0x02)
  | some .format => some (s.slotTrap 0x07 0 (BitVec.ofNat 64 (fmtOfWord (encode i))))
  | _ => none

/-- A non-lead slot: its encoding checks are made whatever the guard reads; with a false guard it has no further effect (02 R30, R32). -/
def slotOp (i : Instr) (h : Hdr) (s : State) (k : State → Res) : Res :=
  let s := { s with word := encode i }
  match slotCheck s i with
  | some t => .next (s.raise t)
  | none => if s.guard h.g then k s else .next s

end Machine
end Sys2Proof
end

