-- ==== Sys2Proof/Machine/Memory.lean ====
section
/-!
DEFINITION. The physical map and homes (17 R298, R303, R304), page-table walks and translations (22 R383-R387), windows
(04 R88; 17 R302), latencies (17 R305, R306).
-/

namespace Sys2Proof.Machine

/-! ## The physical map (17 R303, R304) -/

/-- Ranges of the physical map. -/
inductive PaKind where
  | stack | metadata | reserved | host | fabric
  deriving DecidableEq, Repr

/-- The range that a physical address lies in (17 R303). -/
def paKind (pa : Nat) : PaKind :=
  if pa < 0x7FE0000000 then .stack else if pa < 0x8000000000 then .metadata
  else if pa < 2 ^ 50 then .reserved else if pa < 2 ^ 51 then .host else .fabric

/-- The coded block size in bytes of a region's budget code (15 R279; 21 R352). -/
def codedBytes (bud : BitVec 2) : Nat := if bud = 0 then 16 else if bud = 1 then 24 else if bud = 2 then 32 else 48

/-- The cluster whose L2 slice is a stack line's home (17 R304). -/
def homeCluster (pa : Nat) : Nat :=
  16 * bits pa 14 13 + ((bits pa 10 7 ^^^ bits pa 19 16) ^^^ (bits pa 23 20 ^^^ bits pa 27 24))

/-! ## Translation (22 R383-R387) -/

/-- What an access does, in the numbering of 22 R369: 0 load, 1 store, 2 fetch, 3 atomic, 4 engine. -/
inductive Acc where
  | load | store | fetch | atomic | engRd | engWr
  deriving DecidableEq, Repr

/-- The access code of the details of 0x20 and 0x21 (22 R369). -/
def Acc.code : Acc → Nat
  | .load => 0 | .store => 1 | .fetch => 2 | .atomic => 3 | .engRd => 4 | .engWr => 4

/-- Whether an entry grants the rights an access needs (22 R385): RD, WR, both for an atomic, EX for a fetch. -/
def granted (a : Acc) (pte : Nat) : Bool :=
  match a with
  | .load | .engRd => bit pte 2
  | .store | .engWr => bit pte 3
  | .atomic => bit pte 2 && bit pte 3
  | .fetch => bit pte 4

/-- A fault of an access: its cause and detail words 1 to 3 (22 R369). -/
structure AFault where
  cause : Nat
  d1 : BitVec 64 := 0
  d2 : BitVec 64 := 0
  d3 : BitVec 64 := 0
  deriving DecidableEq, Repr

/-- The details of 0x20, 0x21 and 0x22; those of 0x22 carry no access (22 R369). -/
def accFault (cause : Nat) (a : Acc) (va level lane : Nat) : AFault :=
  { cause := cause, d1 := BitVec.ofNat 64 va, d2 := BitVec.ofNat 64 (lane + level * 2 ^ 8 + (if cause = 0x22 then 0 else a.code * 2 ^ 12)) }
/-- What stands for bytes at a fabric address that have yet to come: no cause, the address and the length (17 R408). -/
def farAbsent (key n : Nat) : AFault := { cause := 0, d1 := BitVec.ofNat 64 key, d2 := BitVec.ofNat 64 n }
/-- The details of 0x26 (22 R369). -/
def walkFault (va level reason entry : Nat) : AFault :=
  { cause := 0x26, d1 := BitVec.ofNat 64 va, d2 := BitVec.ofNat 64 (level + reason * 2 ^ 4), d3 := BitVec.ofNat 64 entry }

/-- The index of a level of the walk (22 R384). -/
def walkIndex (va level : Nat) : Nat :=
  if level = 0 then bits va 56 55 else if level = 1 then bits va 54 42 else if level = 2 then bits va 41 29 else bits va 28 16

/-- The translation a leaf entry gives; a level-3 entry under a contiguous group gives 2 MiB (22 R386). -/
def leafEntry (s : State) (proc vf va level entry table : Nat) : TlbEntry :=
  let pa := bits entry 51 14 * 2 ^ 14
  if level = 2 then { proc := proc, vf := vf, page := va / 2 ^ 29, size := 29, pa := pa, pte := BitVec.ofNat 64 entry }
  else
    let g := bits va 28 16 / 32 * 32
    let es := (List.range 32).map (fun j => s.numAt (table + 8 * (g + j)) 8)
    let pa0 := bits (es.headD 0) 51 14 * 2 ^ 14
    let group := bit entry 5 && !bit entry 6 && pa0 % 2 ^ 21 == 0 &&
      (es.zipIdx).all (fun e => bit e.1 0 && bit e.1 5 && e.1 % 2 ^ 14 == entry % 2 ^ 14
        && bits e.1 51 14 * 2 ^ 14 == pa0 + e.2 * 2 ^ 16)
    if group then { proc := proc, vf := vf, page := va / 2 ^ 21, size := 21, pa := pa0, pte := BitVec.ofNat 64 entry }
    else { proc := proc, vf := vf, page := va / 2 ^ 16, size := 16, pa := pa, pte := BitVec.ofNat 64 entry }

/-- The first entry of the contiguous group of a level-3 entry that an uncorrectable error makes unreadable (22 R385, R386). -/
def groupPoison (s : State) (table va : Nat) : Option Nat :=
  let g := table + 8 * (bits va 28 16 / 32 * 32)
  ((List.range 32).find? (fun j => s.poisoned (g + 8 * j) 8)).map (fun j => s.numAt (g + 8 * j) 8)

/-- Whether the `n` bytes that an entry maps from `pa` lie wholly in one range that it may map: stack, host or fabric memory, and stack memory for a
coded frame (17 R303; 21 R352; 22 R385). -/
def mappable (pa n : Nat) (coded : Bool) : Bool :=
  let k := paKind pa
  k == paKind (pa + n - 1) && k != .metadata && k != .reserved && (!coded || k == .stack)

/-- A table address from its pointer entries of levels 0 to 2 that a walker cache holds (22 R387). -/
def cachedEntry (ws : List WalkNode) (proc vf va level : Nat) : Option Nat :=
  (ws.find? (fun w => w.proc == proc && w.vf == vf && w.level == level && w.path == va / 2 ^ (55 - 13 * level))).map (·.entry)

/-- One walk, from a level down with `fuel` levels left: what it finds, and the pointer entries that it read (22 R385). `ws` are the pointer entries
that the walker cache holds. -/
def walkFrom (s : State) (ws : List WalkNode) (proc vf : Nat) (a : Acc) (va : Nat) : Nat → Nat → Nat → Except AFault (TlbEntry × List WalkNode)
  | 0, _, _ => .error (walkFault va 3 3 0)
  | fuel + 1, level, table =>
    match cachedEntry ws proc vf va level with
    | some entry => walkFrom s ws proc vf a va fuel (level + 1) (bits entry 51 14 * 2 ^ 14)
    | none =>
    let ea := table + 8 * walkIndex va level
    let entry := s.numAt ea 8
    if s.poisoned ea 8 then .error (walkFault va level 7 entry)
    else if !bit entry 0 then .error (accFault (if a = .fetch then 0x22 else 0x20) a va level 0)
    else if bits entry 63 52 ≠ 0 ∨ bit entry 7 then .error (walkFault va level 2 entry)
    else if !bit entry 1 then
      if level = 3 ∨ bits entry 15 14 ≠ 0 ∨ bits entry 13 2 ≠ 0 then .error (walkFault va level 3 entry)
      else match walkFrom s ws proc vf a va fuel (level + 1) (bits entry 51 14 * 2 ^ 14) with
        | .error f => .error f
        | .ok (e, ns) => .ok (e, { proc := proc, vf := vf, level := level, path := va / 2 ^ (55 - 13 * level), entry := entry } :: ns)
    else if level < 2 then .error (walkFault va level 4 entry)
    else if level = 2 ∧ (bits entry 28 14 ≠ 0 ∨ bit entry 6 ∨ bit entry 5) then .error (walkFault va level 5 entry)
    else if level = 3 ∧ !bit entry 6 ∧ bits entry 15 14 ≠ 0 then .error (walkFault va level 5 entry)
    else
      let pa := bits entry 51 14 * 2 ^ 14
      let n := if bit entry 6 then 1024 * codedBytes (s.regions.get {} (proc * 64 + bits entry 13 8)).bud else if level = 2 then 2 ^ 29 else 2 ^ 16
      if !mappable pa n (bit entry 6) then .error (walkFault va level 6 entry)
      else if !granted a entry then .error (accFault 0x21 a va level 0)
      else if bit entry 6 ∧ !(s.regions.get {} (proc * 64 + bits entry 13 8)).valid then .error (accFault 0x21 a va level 0)
      else match (if level = 3 ∧ bit entry 5 ∧ !bit entry 6 then groupPoison s table va else none) with
        | some e => .error (walkFault va level 7 e)
        | none => .ok (leafEntry s proc vf va level entry table, [])

/-- The walk of a process's tables for an address, with the pointer entries that a walker cache holds (22 R383-R385). -/
def walk (s : State) (ws : List WalkNode) (proc vf : Nat) (a : Acc) (va : Nat) : Except AFault (TlbEntry × List WalkNode) :=
  let base := bits s.host.proctab.toNat 51 13 * 2 ^ 13
  let rec_ := s.numAt (base + 8 * proc) 8
  if !s.host.proctab.getLsbD 0 || !bit rec_ 0 then .error (walkFault va 0 1 rec_)
  else walkFrom s ws proc vf a va 4 0 (bits rec_ 51 5 * 2 ^ 5)

/-- A translation that a TLB holds (22 R387). -/
def tlbFind (t : List TlbEntry) (proc va : Nat) : Option TlbEntry :=
  t.find? (fun e => e.proc == proc && e.page == va / 2 ^ e.size)

/-- Put a new item at the end of a list of at most `cap` items that satisfy `p`, in place of the oldest of them (log 38). -/
def pushBounded {α : Type} (p : α → Bool) (cap : Nat) (t : List α) (x : α) : List α :=
  (if (t.filter p).length < cap then t else t.eraseP p) ++ [x]
/-- A translation enters a die's last-level TLB: 8,192 entries for 64 KiB and 2 MiB translations, 1,024 for 512 MiB blocks (22 R387). -/
def tlbInsert (t : List TlbEntry) (e : TlbEntry) : List TlbEntry :=
  if e.size = 29 then pushBounded (fun x => x.size == 29) 1024 t e else pushBounded (fun x => x.size != 29) 8192 t e
/-- The pointer entries of a walk enter a die's walker cache of 4,096 entries (22 R387). -/
def cacheNodes (t ns : List WalkNode) : List WalkNode := ns.foldl (pushBounded (fun _ => true) 4096) t

/-- The core whose own TLBs an access looks up: those of contexts of cores, but for the accesses of engines (22 R387). -/
def tlbCore (who : Agent) (a : Acc) : Option Nat :=
  if who.onCore && a != .engRd && a != .engWr then some who.core else none
/-- The translations that a core's own TLB for an access holds: its fetch TLB or its data TLB (22 R387). -/
def ownTlb (s : State) (who : Agent) (a : Acc) : List TlbEntry :=
  match tlbCore who a with
  | none => []
  | some c => if a = .fetch then (s.core c).ftlb else (s.core c).dtlb
/-- A translation enters a core's own TLB: 64 entries for data, 32 for fetches (22 R387). -/
def fillOwn (s : State) (who : Agent) (a : Acc) (e : TlbEntry) : State :=
  match tlbCore who a with
  | none => s
  | some c => s.modCore c (fun k => if a = .fetch then { k with ftlb := pushBounded (fun _ => true) 32 k.ftlb e }
      else { k with dtlb := pushBounded (fun _ => true) 64 k.dtlb e })

/-- The translations that the TLBs of a die hold: its last-level TLB's and its cores' (22 R387). -/
def heldEntries (s : State) (die : Nat) : List TlbEntry :=
  (s.die die).tlb ++ (s.cores.filter (fun c => c.1 / 128 == die)).flatMap (fun c => c.2.dtlb ++ c.2.ftlb)
/-- The TLBs and the walker cache of a die lose the translations and the pointer entries that satisfy a test (15 R292). -/
def forgetOn (s : State) (p : TlbEntry → Bool) (q : WalkNode → Bool) (die : Nat) : State :=
  let keep := fun (t : List TlbEntry) => t.filter (fun e => !p e)
  let s := s.modDie die (fun d => { d with tlb := keep d.tlb, wcache := d.wcache.filter (fun w => !q w) })
  { s with cores := s.cores.map (fun c => if c.1 / 128 = die then (c.1, { c.2 with dtlb := keep c.2.dtlb, ftlb := keep c.2.ftlb }) else c) }

/-- The cc of one walk: four reads at the typical reservoir stack latency, plus 64 (22 R387; log 7). -/
def walkTime : Nat := 1744
/-- The cluster whose twelve walkers serve an agent; a command processor and its engines use those of the die's first cluster (22 R387; log 38). -/
def walkCluster (who : Agent) : Nat := who.cluster?.getD (16 * who.die)
/-- The cc in which a new walk of an agent ends: it waits behind the agent's own earlier walk, which a walk of its copy engine is not, and for one of its cluster's
twelve walkers (22 R387). -/
def walkEnd (s : State) (who : Agent) : Nat :=
  let run := (s.die who.die).walks.filter (fun w => decide (s.cc < w.fin))
  let own := (run.filter (fun w => w.who == who && w.copy == 0)).foldl (fun m w => Nat.max m w.fin) s.cc
  let busy := ((run.filter (fun w => w.cl == walkCluster who)).map (·.fin)).mergeSort (fun x y => decide (y ≤ x))
  Nat.max own (busy.getD 11 s.cc) + walkTime
/-- A walk takes a walker of its die, and installs what it found (22 R385, R387). -/
def finishWalk (s : State) (who : Agent) (a : Acc) (e : TlbEntry) (ns : List WalkNode) : State :=
  fillOwn (s.modDie who.die (fun d =>
    { d with tlb := tlbInsert d.tlb e, wcache := cacheNodes d.wcache ns
             walks := d.walks.filter (fun w => decide (s.cc < w.fin)) ++ [{ who := who, cl := walkCluster who, fin := walkEnd s who }] })) who a e
/-- The cc that the walks which an agent made between two states add to its access (22 R387). -/
def walkDelay (s s' : State) (who : Agent) : Nat :=
  if (s'.die who.die).walks = (s.die who.die).walks then 0
  else ((s'.die who.die).walks.filter (fun w => w.who == who && !(s.die who.die).walks.contains w)).foldl (fun m w => Nat.max m (w.fin - s.cc)) 0

/-- Whether a walk that had begun by a cc still runs on a die (15 R292; 22 R387). -/
def walkRuns (s : State) (from_ die : Nat) : Bool := (s.die die).walks.any (fun w => decide (w.fin ≤ from_ + walkTime ∧ s.cc < w.fin))

/-- Where a translated address lies: the physical address, or the coded page and offset (21 R352). -/
def tlbLoc (sp : Space) (e : TlbEntry) (va : Nat) : Loc :=
  if e.pte.getLsbD 6 then
    { space := sp, key := e.pa, coded := some { frame := e.pa, region := e.proc * 64 + bits e.pte.toNat 13 8, off := va % 2 ^ 16, page := va / 2 ^ 16 } }
  else { space := sp, key := e.pa + va % 2 ^ e.size }

/-- Bits [63:56] of a space-m address all equal (04 R88). -/
def canonical (va : BitVec 64) : Bool := let t := bits va.toNat 63 56; t == 0 || t == 255

/-- Use a held translation, if it grants the access (22 R385; 15 R279). -/
def useEntry (s : State) (proc : Nat) (a : Acc) (sp : Space) (va : BitVec 64) (e : TlbEntry) : Except AFault Loc :=
  if !granted a e.pte.toNat then .error (accFault 0x21 a va.toNat (if e.size = 29 then 2 else 3) 0)
  else if e.pte.getLsbD 6 && !(s.regions.get {} (proc * 64 + bits e.pte.toNat 13 8)).valid then
    .error (accFault 0x21 a va.toNat 3 0)
  else .ok (tlbLoc sp e (va.toNat % 2 ^ 57))

/-- Translate one address of a process for an agent: a translation that its core's own TLB or its die's last-level TLB holds serves if it grants the access,
otherwise a walk is made and installed (22 R385, R387; 15 R279). -/
def translate (s : State) (who : Agent) (proc vf : Nat) (a : Acc) (sp : Space) (va : BitVec 64) : Except AFault (Loc × State) :=
  if !canonical va then .error (accFault (if a = .fetch then 0x22 else 0x20) a va.toNat 0 0) else
  let x := va.toNat % 2 ^ 57
  match tlbFind (ownTlb s who a) proc x with
  | some e => (useEntry s proc a sp va e).map (fun l => (l, s))
  | none =>
    match tlbFind (s.die who.die).tlb proc x with
    | some e => (useEntry s proc a sp va e).map (fun l => (l, fillOwn s who a e))
    | none =>
      match walk s (s.die who.die).wcache proc vf a x with
      | .error f => .error { f with d1 := va }
      | .ok (e, ns) => .ok (tlbLoc sp e x, finishWalk s who a e ns)

/-! ## Windows (04 R88; 17 R302) -/

/-- The PADWIN that the details of 0x23 show (15 R296; 22 R369). -/
def padWord (c : Ctx) : BitVec 64 := c.padwin.setWidth 64
/-- The VAULTWIN that the details of 0x23 show (15 R296; 22 R369). -/
def vaultWord (c : Ctx) : BitVec 64 := c.vaultwin.setWidth 64

/-- Whether `n` bytes at a space-p address pass an agent's window (04 R88; 17 R302). -/
def padPasses (s : State) (a : Agent) (ea n : Nat) : Bool :=
  ea + n ≤ 2 ^ 22 && (match a with
    | .cp _ => false
    | .scribe _ => true
    | .ctx _ _ =>
      let w := (s.ctx a).padwin.toNat
      let base := bits w 9 0 * 4096
      decide (base ≤ ea ∧ ea + n ≤ base + bits w 22 12 * 4096))

/-- Whether `n` bytes at a space-v address lie in a vault's addressed space and outside a moving range (04 R88; 15 R277). -/
def vaultPresent (s : State) (ea n : Nat) : Bool :=
  let c := s.cluster (bits ea 32 27)
  let off := ea % 2 ^ 27
  ea < 2 ^ 33 && decide (off + n ≤ c.steps * 2 ^ 23) && !(c.moving && decide (c.moveLo < off + n ∧ off < c.moveHi))

/-- Whether `n` bytes at a space-v address pass an agent's window (04 R88; 17 R302). -/
def vaultPasses (s : State) (a : Agent) (ea n : Nat) : Bool :=
  vaultPresent s ea n && (match a with
    | .ctx _ _ =>
      let w := (s.ctx a).vaultwin.toNat
      let cl := bits ea 32 27
      decide (bits w 5 0 ≤ cl ∧ cl ≤ bits w 13 8 ∧ ea % 2 ^ 27 + n ≤ bits w 30 16 * 4096)
    | _ => true)

/-- Whether an agent is a context whose windows are checked. -/
def windowFault (s : State) (a : Agent) (vault : Bool) (ea : BitVec 64) : AFault :=
  let c := s.ctx a
  { cause := 0x23, d1 := ea, d2 := if vault then vaultWord c else padWord c }

/-- Resolve `n` bytes at one address of a space, not crossing a page in spaces m and ms: the place, or the fault (04 R88). -/
def resolve (s : State) (a : Agent) (acc : Acc) (sp : Space) (ea : BitVec 64) (n : Nat) : Except AFault (Loc × State) :=
  match sp with
  | .p => if padPasses s a ea.toNat n then .ok ({ space := .p, key := padKey (a.cluster?.getD 0) ea.toNat }, s)
          else .error (windowFault s a false ea)
  | .v => if vaultPasses s a ea.toNat n then .ok ({ space := .v, key := vaultKey ea.toNat }, s)
          else .error (windowFault s a true ea)
  | _ => translate s a (s.procOf a) (s.vfOf a) acc sp ea

/-- Resolve a range as segments that each lie in one 128-byte line, in ascending order (04 R88; `fuel` bounds the lines). -/
def resolveRange (s : State) (a : Agent) (acc : Acc) (sp : Space) : Nat → BitVec 64 → Nat → Except AFault (List (Loc × Nat) × State)
  | 0, _, _ => .ok ([], s)
  | fuel + 1, ea, n =>
    if n = 0 then .ok ([], s) else
    let k := Nat.min n (128 - ea.toNat % 128)
    match resolve s a acc sp ea k with
    | .error f => .error f
    | .ok (l, s') =>
      match resolveRange s' a acc sp fuel (ea + BitVec.ofNat 64 k) (n - k) with
      | .error f => .error f
      | .ok (r, s'') => .ok ((l, k) :: r, s'')

/-- The identity that an engine takes from the context that starts it. -/
def identOf (s : State) (a : Agent) : Ident := let c := s.ctx a; { owner := c.owner, padwin := c.padwin, vaultwin := c.vaultwin }
/-- Change the walks of an agent on its die. -/
def modWalks (s : State) (a : Agent) (f : Nat → Nat) : State :=
  s.modDie a.die (fun d => { d with walks := d.walks.map (fun w => if w.who = a then { w with copy := f w.copy } else w) })
/-- Resolve under an engine's identity: as its context would with the OWNER and windows that it had. The engine requests its walks itself: they do not wait behind
the context's walks, nor the context's behind them (22 R387). -/
def asIdent {α : Type} (s : State) (a : Agent) (i : Ident) (f : State → Except AFault (α × State)) : Except AFault (α × State) :=
  let old := identOf s a
  let put := fun (s : State) (j : Ident) => s.modCtx a (fun c => { c with owner := j.owner, padwin := j.padwin, vaultwin := j.vaultwin })
  match f (modWalks (put s i) a (· + 1)) with
  | .error e => .error e
  | .ok (x, s) => .ok (x, modWalks (put s old) a (fun n => if n = 0 then 1 else n - 1))

/-! ## Latencies (17 R305, R306): the typical column, a timing choice (log 7) -/

/-- The vault or home-slice row from a die and cluster to a cluster. -/
def farLatency (die : Nat) (cl? : Option Nat) (target : Nat) (own : Nat) : Nat :=
  if cl? = some target then own else if target / 16 = die then 64 else 150

/-- The physical address of the first byte of a place's coded group (21 R353). -/
def groupBase (s : State) (c : CodedLoc) : Nat := c.frame + codedBytes (s.regions.get {} c.region).bud * (c.off / 1024 * 16)
/-- The cluster that homes the coded group of a place (21 R353). -/
def groupHome (s : State) (c : CodedLoc) : Nat := homeCluster (groupBase s c)
/-- The cluster whose slice is the home of a place of stack memory: its line's, or its coded group's (17 R304; 21 R353). -/
def placeHome (s : State) (l : Loc) : Nat :=
  match l.coded with
  | none => homeCluster l.key
  | some c => groupHome s c
/-- What a slice holds for a place as one unit, and its lines: a line, or a coded group of 2, 3, 4 or 6 lines (17 R304; 21 R353). -/
def sliceUnit (s : State) (l : Loc) : Nat × Nat :=
  match l.coded with
  | none => (l.key / 128, 1)
  | some c => (groupBase s c / 128, codedBytes (s.regions.get {} c.region).bud / 8)
/-- Sets of 16 ways of a vault's slice: what its addressed space of 8 MiB steps leaves, the wider one while it moves (15 R277; 17 R298, R301; log 71). -/
def sliceSets (c : Cluster) : Nat := (12 - (if c.moving then Nat.max c.steps c.moveSteps else c.steps)) * 4096
/-- Whether a place's home slice holds it (17 R301, R306). -/
def inSlice (s : State) (l : Loc) : Bool := (s.cluster (placeHome s l)).slice.contains (sliceUnit s l)
/-- Drop the oldest units of a set of a slice until its lines are at most `n` (17 R298; log 71). -/
def makeRoom (sets set n : Nat) : List (Nat × Nat) → List (Nat × Nat)
  | [] => []
  | u :: r => if u.1 % sets = set ∧ n < ((u :: r).filter (fun x => x.1 % sets == set)).foldl (fun m x => m + x.2) 0 then makeRoom sets set n r
    else u :: makeRoom sets set n r
/-- The home slice of a place now holds it, unless the carve has left the slice no capacity (17 R298, R301, R304, R306). -/
def State.touchSlice (s : State) (l : Loc) : State :=
  let u := sliceUnit s l
  s.modCluster (placeHome s l) (fun c =>
    let sets := sliceSets c
    if sets = 0 ∨ c.slice.contains u then c else { c with slice := makeRoom sets (u.1 % sets) (16 - u.2) c.slice ++ [u] })
/-- The metadata line of a datum enters its home slice, where it takes capacity from data (17 R313, log 81). -/
def State.touchMeta (s : State) (sort no : Nat) : State := s.touchSlice { space := .ms, key := 0x7FE0000000 + 128 * (Config.metaLine sort no).toNat }

/-- The latency of an access to a place by an agent (17 R306). -/
def latencyOf (s : State) (a : Agent) (l : Loc) (l1hit : Bool) : Nat :=
  let coded := if l.coded.isSome then 6 else 0
  match l.space with
  | .p => 6
  | .v => farLatency a.die a.cluster? (bits (l.key - 2 ^ 53) 32 27) 20
  | _ =>
    if l1hit then 5 else
    if inSlice s l then farLatency a.die a.cluster? (placeHome s l) 24 + coded else 420 + coded

end Sys2Proof.Machine
end

