-- ==== Sys2Proof/Machine/Codec.lean ====
section
/-!
DEFINITION. The home codec: coded blocks (21 R352-R356), encoding (R357), decoding (R358, R359), merges with their counters and events
(R361, R362, R364; 18 R331; 20 R350).
-/

namespace Sys2Proof.Machine

/-- Widths of the eight coefficients, in the order of R355: s3, d3, d2a, d2b, d1a to d1d. -/
def coefWidths (bud : BitVec 2) (special : Bool) : List Nat :=
  let w := if bud = 0 then (24, 16, 12, 8) else if bud = 1 then (32, 24, 20, 16) else if bud = 2 then (40, 32, 28, 24) else (56, 48, 44, 40)
  [w.1, w.2.1, w.2.2.1, w.2.2.1, w.2.2.2, w.2.2.2, w.2.2.2, w.2.2.2].map (fun x => if special then x - 2 else x)

/-- `st` of R357: sum and difference of a pair. -/
def stPair (a b : Int) : Int × Int := let d := a - b; (b + d / 2, d)
/-- `ist` of R358. -/
def istPair (s d : Int) : Int × Int := let b := s - d / 2; (b + d, b)

/-- `rsb` of R357, searching down from `r`. -/
def rsbFrom (c : Int) : Nat → Nat
  | 0 => 0
  | r + 1 => if -((2 : Int) ^ (65 - (r + 1))) ≤ c ∧ c < (2 : Int) ^ (65 - (r + 1)) then r + 1 else rsbFrom c r
/-- `rsb` of R357. -/
def rsb (c : Int) : Nat := rsbFrom c 65

/-- `keep` of R357: the field and whether it saturated. -/
def keepCoef (c : Int) (sh w : Nat) : Int × Nat :=
  let t := c * 2 ^ sh
  let D := 66 - w
  let m : Int := ((t.natAbs + 2 ^ (D - 1)) / 2 ^ D : Nat)
  let q := if t < 0 then -m else m
  if (2 : Int) ^ (w - 1) - 1 < q then ((2 : Int) ^ (w - 1) - 1, 1) else (q, 0)
/-- `unkeep` of R358. -/
def unkeepCoef (q : Int) (sh w : Nat) : Int :=
  if w + sh ≤ 66 then q * 2 ^ (66 - w - sh) else q / 2 ^ (w + sh - 66)

/-- The two's complement of a field, on `w` bits. -/
def fieldOf (q : Int) (w : Nat) : Nat := (q % (2 : Int) ^ w).toNat

/-- Fields packed from a bit position up. -/
def packFields : Nat → List (Int × Nat) → Nat
  | _, [] => 0
  | p, (q, w) :: r => fieldOf q w * 2 ^ p + packFields (p + w) r
/-- Signed fields read from a bit position up. -/
def readFields (x : Nat) : Nat → List Nat → List Int
  | _, [] => []
  | p, w :: r => sext w (x / 2 ^ p) :: readFields x (p + w) r

/-- The canonical NaN of FP64 (03 R55). -/
def nan64 : BitVec 64 := 0x7FF8000000000000

/-- The exponent field of an element for EMAX: at least 1 (R357). -/
def expField (x : BitVec 64) : Nat := Nat.max (wbits x 62 52) 1
/-- The fixed-point value of an element under EMAX (R357). -/
def fixedOf (emax : Nat) (x : BitVec 64) : Int :=
  let m := wbits x 51 0 + (if wbits x 62 52 = 0 then 0 else 2 ^ 52)
  let k := expField x + 2
  let a : Int := (if emax ≤ k then m * 2 ^ (k - emax) else m / 2 ^ (emax - k) : Nat)
  if x.getLsbD 63 then -a else a

/-- The kind code of a non-finite element in MAP (R355). -/
def mapCode (x : BitVec 64) : Nat :=
  if wbits x 62 52 = 2047 then (if wbits x 51 0 ≠ 0 then 3 else if x.getLsbD 63 then 2 else 1) else 0

/-- Encode eight elements: the block's bits and the saturations (R357). -/
def encodeBlock (bud : BitVec 2) (v : List (BitVec 64)) : Nat × Nat :=
  let kmap := packNat 2 (fun i => mapCode (v.getD i 0)) 8
  let x := fun i => if mapCode (v.getD i 0) = 0 then v.getD i 0 else 0
  let isZero := (List.range 8).all (fun i => wbits (x i) 62 0 == 0)
  if kmap = 0 ∧ isZero then (packNat 1 (fun i => wbits (v.getD i 0) 63 63) 8, 0) else
  let special := kmap ≠ 0
  let kind := if special then 2 else 1
  let map := if special then kmap * 2 ^ 32 else 0
  if isZero then (kind * 2 ^ 30 + map, 0) else
  let emax := (List.range 8).foldl (fun e i => if wbits (x i) 62 0 = 0 then e else Nat.max e (expField (x i))) 1
  let F := fun i => fixedOf emax (x i)
  let p0 := stPair (F 0) (F 1)
  let p1 := stPair (F 2) (F 3)
  let p2 := stPair (F 4) (F 5)
  let p3 := stPair (F 6) (F 7)
  let q0 := stPair p0.1 p1.1
  let q1 := stPair p2.1 p3.1
  let r := stPair q0.1 q1.1
  let sh1 := Nat.min 31 (Nat.min (Nat.min (rsb p0.2) (rsb p1.2)) (Nat.min (rsb p2.2) (rsb p3.2)))
  let sh2 := Nat.min 31 (Nat.min (rsb q0.2) (rsb q1.2))
  let sh3 := Nat.min 31 (rsb r.2)
  let ws := coefWidths bud special
  let cs := [(r.1, 10), (r.2, sh3), (q0.2, sh2), (q1.2, sh2), (p0.2, sh1), (p1.2, sh1), (p2.2, sh1), (p3.2, sh1)]
  let ks := (cs.zip ws).map (fun c => (keepCoef c.1.1 c.1.2 c.2, c.2))
  let head := kind * 2 ^ 30 + emax * 2 ^ 19 + sh1 * 2 ^ 14 + sh2 * 2 ^ 9 + sh3 * 2 ^ 4
  (head + map + packFields (if special then 48 else 32) (ks.map (fun k => (k.1.1, k.2))), (ks.map (fun k => k.1.2)).sum)

/-- Whether a block is malformed (R359). -/
def malformedBlock (bud : BitVec 2) (x : Nat) : Bool :=
  let kind := bits x 31 30
  let emax := bits x 29 19
  if kind = 3 then true
  else if kind = 0 then bits x 29 8 != 0 || bits x (8 * codedBytes bud - 1) 32 != 0
  else if kind = 1 then emax == 0 || emax == 2047 || bits x 3 0 != 0
  else bits x 47 32 == 0 || emax == 2047 || bits x 3 0 != 0
    || (emax == 0 && (bits x 18 4 != 0 || bits x (8 * codedBytes bud - 1) 48 != 0))

/-- Decode a block: its eight elements, and how many R358 clamped. A malformed block gives canonical NaNs (R359). -/
def decodeBlock (bud : BitVec 2) (x : Nat) : List (BitVec 64) × Nat :=
  if malformedBlock bud x then (List.replicate 8 nan64, 0) else
  let kind := bits x 31 30
  if kind = 0 then ((List.range 8).map (fun i => if bit x i then 0x8000000000000000 else 0), 0) else
  let special : Bool := kind = 2
  let ws := coefWidths bud special
  let cs := readFields x (if special then 48 else 32) ws
  let emax := bits x 29 19
  let sh1 := bits x 18 14
  let sh2 := bits x 13 9
  let sh3 := bits x 8 4
  let u := fun i sh => unkeepCoef (cs.getD i 0) sh (ws.getD i 0)
  let r := istPair (u 0 10) (u 1 sh3)
  let q0 := istPair r.1 (u 2 sh2)
  let q1 := istPair r.2 (u 3 sh2)
  let p0 := istPair q0.1 (u 4 sh1)
  let p1 := istPair q0.2 (u 5 sh1)
  let p2 := istPair q1.1 (u 6 sh1)
  let p3 := istPair q1.2 (u 7 sh1)
  let G := [p0.1, p0.2, p1.1, p1.2, p2.1, p2.2, p3.1, p3.2]
  let one := fun (i : Nat) =>
    let k := if special then bits x (33 + 2 * i) (32 + 2 * i) else 0
    let g := G.getD i 0
    if k = 1 then ((0x7FF0000000000000 : BitVec 64), 0) else if k = 2 then (0xFFF0000000000000, 0)
    else if k = 3 then (nan64, 0) else if g = 0 then (0, 0) else
      let y := f64.roundSat .tz 0 (.fin (decide (g < 0)) g.natAbs ((emax : Int) - 1077))
      let z := f64.roundSat .ne 0 (.fin (decide (g < 0)) g.natAbs ((emax : Int) - 1077))
      if z.2 then (BitVec.ofNat 64 y.1, 1) else (BitVec.ofNat 64 z.1, 0)
  let ys := (List.range 8).map one
  (ys.map (·.1), (ys.map (·.2)).sum)

/-- The physical address of the block that holds a coded place (R352). -/
def blockPa (s : State) (c : CodedLoc) : Nat := c.frame + codedBytes (s.regions.get {} c.region).bud * (c.off / 64)
/-- An event 0x41 to the scribe of the accessing agent's cluster, or of the group's home cluster when the agent belongs to none (R359, R362). -/
def codecEvent (s : State) (who : Agent) (c : CodedLoc) (reason sats : Nat) : State :=
  s.event (.scribe (who.cluster?.getD (groupHome s c))) who 0x41
    { d0 := BitVec.ofNat 64 sats, d1 := BitVec.ofNat 64 reason, d2 := BitVec.ofNat 64 (c.region % 64), d3 := BitVec.ofNat 64 (blockPa s c) }

/-- The 64 decoded bytes of the block that holds a place, with the event of a malformed block (R358, R359). -/
def readBlock (s : State) (who : Agent) (c : CodedLoc) : List Byte × State :=
  let bud := (s.regions.get {} c.region).bud
  let x := s.numAt (blockPa s c) (codedBytes bud)
  let ys := (decodeBlock bud x).1
  (ys.flatMap (fun y => toBytes 8 y.toNat), if malformedBlock bud x then codecEvent s who c 2 0 else s)

/-- The exact error terms of an encode: the sum of squares and the largest magnitude, as values (R361). -/
def errorTerms (ms ys : List (BitVec 64)) : FVal × FVal :=
  (ms.zip ys).foldl (fun t p =>
    let m := f64.decode p.1.toNat
    let y := f64.decode p.2.toNat
    if m.isFin && y.isFin then
      let e := FVal.sub false y m
      (FVal.add false t.1 (FVal.mul e e), FVal.max t.2 e.abs)
    else t) (.fin false 0 0, .fin false 0 0)

/-- Add to a counter, holding at 2^64 - 1 (R361). -/
def satAdd64 (a : BitVec 64) (n : Nat) : BitVec 64 := BitVec.ofNat 64 (Nat.min (2 ^ 64 - 1) (a.toNat + n))

/-- One merge into a block: `bs` are its 64 bytes, with none where a byte is not written (R331, R350, R361, R362, R364). -/
def mergeBlock (s : State) (who : Agent) (c : CodedLoc) (bs : List (Option Byte)) : State :=
  let reg := s.regions.get {} c.region
  let pa := blockPa s c
  let n := codedBytes reg.bud
  let full := bs.all (·.isSome)
  let bad := s.poisoned pa n && !full
  let old := readBlock s who c
  let s := old.2
  let merged := (List.range 64).map (fun i => ((bs[i]?).join).getD (old.1.getD i 0))
  let ms := (List.range 8).map (fun i => BitVec.ofNat 64 (field merged (8 * i) 8))
  let enc := encodeBlock reg.bud ms
  let dec := decodeBlock reg.bud enc.1
  let sat := enc.2 + dec.2
  let err := errorTerms ms dec.1
  let reg' := { reg with
    encodes := satAdd64 reg.encodes 1
    sats := satAdd64 reg.sats sat
    sqerr := if bad then reg.sqerr else BitVec.ofNat 64 (f64.rne (FVal.add false (f64.decode reg.sqerr.toNat) err.1))
    maxerr := if bad then reg.maxerr else
      BitVec.ofNat 64 (f64.rne (FVal.max (f64.decode reg.maxerr.toNat) (f64.decode (f64.rne err.2)))) }
  let s := s.storeNum pa n enc.1
  let s := if bad then s.setPoison pa n else s
  let s := ({ s with regions := s.regions.put {} c.region reg' }).touchMeta 1 c.region
  if reg.sats = 0 ∧ 0 < sat then codecEvent s who c 1 sat else s

/-- Merge bytes that lie from a coded place up, one merge per block, in ascending order (R350). `fuel` bounds the blocks. -/
def mergeBytes (s : State) (who : Agent) : Nat → CodedLoc → List Byte → State
  | 0, _, _ => s
  | fuel + 1, c, bs =>
    if bs.isEmpty then s else
    let lo := c.off % 64
    let k := Nat.min bs.length (64 - lo)
    let slot := (List.range 64).map (fun i => if lo ≤ i ∧ i < lo + k then bs[i - lo]? else none)
    mergeBytes (mergeBlock s who c slot) who fuel { c with off := c.off + k } (bs.drop k)

/-- Decoded bytes from a coded place up (R358). -/
def codedBytesAt (s : State) (who : Agent) : Nat → CodedLoc → Nat → List Byte × State
  | 0, _, _ => ([], s)
  | fuel + 1, c, n =>
    if n = 0 then ([], s) else
    let lo := c.off % 64
    let k := Nat.min n (64 - lo)
    let b := readBlock s who c
    let r := codedBytesAt b.2 who fuel { c with off := c.off + k } (n - k)
    ((b.1.drop lo).take k ++ r.1, r.2)

end Sys2Proof.Machine
end

