-- ==== Sys2Proof/Machine/Access.lean ====
section
/-!
DEFINITION. How accesses perform: the home slice and its codec (17 R308, R309; 18 R331), the L1 (17 R299, R310), read leases (09 R179;
18 R330), released writes (04 R92, R98), remote accesses (19 R347, R348).
-/

namespace Sys2Proof.Machine

/-! ## Places in line form -/

/-- A place as one number: its memory key, or for a coded page a number of its decoded place (21 R354). -/
def linOf (l : Loc) : Nat :=
  match l.coded with
  | none => l.key
  | some c => 2 ^ 60 + c.frame / 2 ^ 14 * 2 ^ 16 + c.off
/-- The L1's tag of a place (17 R299; 21 R354). -/
def lineKey (l : Loc) : Nat := linOf l / 128
/-- The address that reports show: a physical address, a pad offset or a space-v address (22 R369, R381). -/
def Loc.addr (s : State) (l : Loc) : Nat :=
  match l.space with
  | .p => l.key % 2 ^ 22
  | .v => l.key - 2 ^ 53
  | _ => match l.coded with
    | none => l.key
    | some c => blockPa s c
/-- The place `n` bytes further on. -/
def Loc.plus (l : Loc) (n : Nat) : Loc :=
  match l.coded with
  | none => { l with key := l.key + n }
  | some c => { l with coded := some { c with off := c.off + n } }

/-! ## The home (17 R304, R308) -/

namespace State

/-- Whether a place's bytes carry a poison mark at their single place (17 R315; 21 R364). -/
def poisonedAt (s : State) (l : Loc) (n : Nat) : Bool :=
  match l.coded with
  | none => s.poisoned l.key n
  | some c =>
    let m := codedBytes (s.regions.get {} c.region).bud
    s.poisoned (blockPa s c) (m * (ceilDiv (c.off % 64 + n) 64))

/-- Bytes at their single place, decoded in a coded page (18 R316, R331). Only stack memory is cached in a slice (17 R303). -/
def homeRead (s : State) (who : Agent) (l : Loc) (n : Nat) : List Byte × State :=
  match l.coded with
  | none => (s.bytesAt l.key n, if paKind l.key = .stack then s.touchSlice l else s)
  | some c => let r := codedBytesAt s who (n / 64 + 2) c n; (r.1, r.2.touchSlice l)

/-- Write bytes at their single place; in a coded page, one merge per block (18 R331; 20 R350). -/
def homeWrite (s : State) (who : Agent) (l : Loc) (bs : List Byte) : State :=
  match l.coded with
  | none => let s := s.storeAt l.key bs; if paKind l.key = .stack then s.touchSlice l else s
  | some c => (mergeBytes s who (bs.length / 64 + 2) c bs).touchSlice l

/-! ## The L1 (17 R299, R308-R310) -/

/-- The runs of set bits of a mask from `i` up, as (start, length); `fuel` bounds the bits. -/
def maskRuns (m : Nat) : Nat → Nat → Nat → List (Nat × Nat)
  | 0, i, n => if n = 0 then [] else [(i - n, n)]
  | fuel + 1, i, n =>
    if bit m i then maskRuns m fuel (i + 1) (n + 1)
    else if n = 0 then maskRuns m fuel (i + 1) 0 else (i - n, n) :: maskRuns m fuel (i + 1) 0

/-- The place of the first byte of an L1 line. -/
def lineLoc (key : Nat) (ln : L1Line) : Loc :=
  match ln.coded with
  | none => { space := .m, key := key * 128 }
  | some c => { space := .m, key := c.frame, coded := some c }

/-- The offsets in a line of the words that a mask names in part. -/
def badWords (m : Mask) : List Nat := ((List.range 16).filter (fun i => bits m.toNat (8 * i + 7) (8 * i) != 0)).map (fun i => 8 * i)

/-- Write the dirty bytes of one L1 line to its home in one step: in a coded line one merge per block that holds a dirty byte (17 R308; 21 R354).
Marks of poisoned words travel (17 R315). -/
def writeBackLine (s : State) (core key : Nat) (who : Agent) : State :=
  let ln := (s.core core).l1.get {} key
  if ln.dirty = 0 then s else
  let loc := lineLoc key ln
  let bs := toBytes 128 ln.data.toNat
  let runs := maskRuns ln.dirty.toNat 128 0 0
  let s := match ln.coded with
    | none => runs.foldl (fun (s : State) (r : Nat × Nat) =>
        let s := s.homeWrite who (loc.plus r.1) ((bs.drop r.1).take r.2)
        (badWords (ln.bad &&& ln.dirty)).foldl (fun (s : State) o => if decide (r.1 < o + 8 ∧ o < r.1 + r.2) then s.setPoison (key * 128 + o) 1 else s) s) s
    | some c => [0, 64].foldl (fun (s : State) o =>
        let slot := (List.range 64).map (fun i => if ln.dirty.getLsbD (o + i) then bs[o + i]? else none)
        let b := { c with off := c.off + o }
        if !slot.any (·.isSome) then s else
        let s := mergeBlock s who b slot
        if (badWords (ln.bad &&& ln.dirty)).any (fun w => decide (o ≤ w ∧ w < o + 64)) then s.setPoison (blockPa s b) (codedBytes (s.regions.get ({} : Region) b.region).bud)
        else s) s
  s.modCore core (fun k => { k with l1 := k.l1.put {} key { ln with dirty := 0 } })

/-- Write back every dirty byte of a core's L1 (17 R308, R311). -/
def writeBackAll (s : State) (core : Nat) (who : Agent) : State :=
  (s.core core).l1.foldl (fun (s : State) e => s.writeBackLine core e.1 who) s

/-- Evict one line, writing its dirty bytes back (17 R299). -/
def evictLine (s : State) (core key : Nat) (who : Agent) : State :=
  (s.writeBackLine core key who).modCore core (fun k => { k with l1 := k.l1.erase key })

/-- The home recalls a line from every core but one that owns it (17 R310). -/
def recallLine (s : State) (but : Option Nat) (key : Nat) : State :=
  s.cores.foldl (fun (s : State) e =>
    if some e.1 ≠ but ∧ ((s.core e.1).l1.get {} key).owned then
      (s.writeBackLine e.1 key (.ctx e.1 0)).modCore e.1 (fun k => { k with l1 := k.l1.upd {} key (fun l => { l with owned := false }) })
    else s) s

/-- Install a line in a core's L1: a full set of 10 ways first evicts one of its lines (17 R298, R299), the one of the lowest line number, a choice (log 39). -/
def installLine (s : State) (core key : Nat) (ln : L1Line) (who : Agent) : State :=
  let ways := (s.core core).l1.filter (fun e => e.1 % 512 == key % 512)
  let s := if ways.any (fun e => e.1 == key) ∨ ways.length < 10 then s else
    match ways with
    | e :: _ => s.evictLine core e.1 who
    | [] => s
  s.modCore core (fun k => { k with l1 := k.l1.put {} key ln })

/-- The bytes of a line that an access of `n` bytes at a place touches. -/
def lineMask (l : Loc) (n : Nat) : Mask := BitVec.ofNat 128 ((2 ^ n - 1) * 2 ^ (linOf l % 128))

/-- The place of the line that holds a place. -/
def lineStart (l : Loc) : Loc :=
  match l.coded with
  | none => { l with key := l.key / 128 * 128 }
  | some c => { l with coded := some { c with off := c.off / 128 * 128 } }

/-- Fill a line from its home; the L1 keeps its own valid bytes (17 R299). -/
def fillLine (s : State) (core : Nat) (l : Loc) (who : Agent) : State :=
  let key := lineKey l
  let s := s.recallLine (some core) key
  let st := lineStart l
  let r := s.homeRead who st 128
  let old := (r.2.core core).l1.get {} key
  let own := toBytes 128 old.data.toNat
  let data := (List.range 128).map (fun i => if old.valid.getLsbD i then own.getD i 0 else r.1.getD i 0)
  let bad := packNat 1 (fun i =>
    if old.valid.getLsbD i then (old.bad.getLsbD i).toNat else (s.poisonedAt (st.plus i) 1).toNat) 128
  r.2.installLine core key
    { old with data := BitVec.ofNat 1024 (ofBytes data), valid := BitVec.allOnes 128, bad := BitVec.ofNat 128 bad, coded := st.coded } who

/-- Whether a load of `n` bytes within one line hits the L1 (17 R299). -/
def l1Hit (s : State) (core : Nat) (l : Loc) (n : Nat) : Bool :=
  let m := lineMask l n
  ((s.core core).l1.get {} (lineKey l)).valid &&& m == m

/-- A load of `n` bytes within one line through the L1: the bytes, and whether any is poisoned. -/
def l1Read (s : State) (core : Nat) (l : Loc) (n : Nat) (who : Agent) : List Byte × Bool × State :=
  let s := if s.l1Hit core l n then s else s.fillLine core l who
  let ln := (s.core core).l1.get {} (lineKey l)
  (((toBytes 128 ln.data.toNat).drop (linOf l % 128)).take n, ln.bad &&& lineMask l n != 0, s)

/-- Clear the poison marks of the words that a write covers wholly (17 R315). -/
def clearBad (bad : Mask) (o n : Nat) : Mask :=
  BitVec.ofNat 128 (packNat 1 (fun i =>
    (bad.getLsbD i && !decide (o ≤ i / 8 * 8 ∧ i / 8 * 8 + 8 ≤ o + n)).toNat) 128)

/-- A store within one line through the L1: a miss allocates with only the stored bytes valid (17 R299). -/
def l1Write (s : State) (core : Nat) (l : Loc) (bs : List Byte) (who : Agent) : State :=
  let key := lineKey l
  let old := (s.core core).l1.get {} key
  let o := linOf l % 128
  let m := lineMask l bs.length
  s.installLine core key
    { old with data := BitVec.ofNat 1024 (ofBytes (patch (toBytes 128 old.data.toNat) o bs))
               valid := old.valid ||| m, dirty := old.dirty ||| m, coded := (lineStart l).coded
               bad := clearBad old.bad o bs.length } who

/-- Before a strong access, tile fetch or engine access to a line: the issuing core's dirty bytes are taken at the home, and an owner is
recalled (17 R309, R310). -/
def beforeStrong (s : State) (who : Agent) (l : Loc) : State :=
  let key := lineKey l
  let s := if who.onCore then s.writeBackLine who.core key who else s
  s.recallLine none key

end State

/-! ## Remote accesses (19 R346-R348, R407) -/

/-- The package that a fabric address names (19 R348). -/
def fabricPkg (pa : Nat) : Nat := bits pa 50 35
/-- The die of a remote place; the stack window is reached through die 0. -/
def fabricDie (pa : Nat) : Nat := if bits pa 34 33 = 0 then 0 else bits pa 32 27 / 16
/-- The header of what answers a message. -/
def hdrBack (s : State) (h : MsgHdr) : MsgHdr := { pkg := s.pkgid.toNat, die := h.dest, dest := h.die, tag := h.tag }
/-- The address of a write that a context made at a fabric address and that has not been acknowledged. -/
def Remote.piece (r : Remote) : Option Piece :=
  if r.write ∧ r.purpose = .effect then some { loc := { space := .ms, key := r.addr }, bytes := r.bytes } else none

namespace State
/-- Whether a route reaches a package: firmware assigned it ports, and one of them is up (19 R346, R407). -/
def routeUp (s : State) (pkg : Nat) : Bool :=
  (List.range 48).any (fun p => (s.host.routes.get 0 pkg).getLsbD p && (s.host.ports.get {} p).up)

/-- A message leaves for a package: it makes its step there. Where no route reaches it, the message fails with 0x44 (19 R348, R407). One to this package arrives
`n` cc later. -/
def sendStep (s : State) (n pkg tag : Nat) (e : Ev) : State :=
  if pkg = s.pkgid.toNat then s.after n e
  else if s.routeUp pkg then s.send (.sem pkg e)
  else s.after 1 (.messageFailure tag 0x44)
/-- What answers a message leaves: within this package it comes `n` cc later. It counts as acknowledged when it leaves; to a package that no route reaches it fails, which
the command processor of the die that answers is told (19 R348, R407; log 86). -/
def reply (s : State) (h : MsgHdr) (n : Nat) (e : Ev) : State :=
  if h.pkg = s.pkgid.toNat then s.after n e
  else if s.routeUp h.pkg then s.send (.sem h.pkg e)
  else s.event (.cpring h.dest) (.cp h.dest) 0x44 { d1 := BitVec.ofNat 64 (h.pkg + h.die * 2 ^ 16) }
/-- A number for a message's tag (19 R347). -/
def newTag (s : State) : Nat × State := let (n, s) := s.newId; (n % 2 ^ 32, s)
/-- Record a message that awaits its answer and send it, as the step that it makes with its header at a package and die. -/
def sendAwaited (s : State) (n : Nat) (rem : Remote) (from_ pkg die : Nat) (e : MsgHdr → Ev) : State :=
  let (tag, s) := s.newTag
  let s := { s with remotes := s.remotes.insert tag { rem with pkg := pkg, die := die, away := pkg != s.pkgid.toNat } }
  s.sendStep n pkg tag (e { pkg := s.pkgid.toNat, die := from_, dest := die, tag := tag })
/-- Send a message whose receipt only its sender's transport needs to know of, as the step that it makes with its header at a package and die: within this package it
is not lost (19 R347, R407). -/
def sendAway (s : State) (n : Nat) (rem : Remote) (from_ pkg die : Nat) (e : MsgHdr → Ev) : State :=
  if pkg = s.pkgid.toNat then
    let (tag, s) := s.newTag
    s.after n (e { pkg := pkg, die := from_, dest := die, tag := tag })
  else s.sendAwaited n rem from_ pkg die e

/-- The virtual function that a remote access is made for, 32 for scribes and command processors (19 R346, R348; 23 R393). -/
def accessVf (s : State) (a : Agent) : Nat := if a.onCore then s.vfOf a else 32
/-- A remote read of `n` bytes leaves, for a virtual function. -/
def remoteRead (s : State) (rem : Remote) (pa n : Nat) (vf : Nat := s.accessVf rem.who) : State :=
  s.sendAwaited 1 { rem with len := n, addr := pa } rem.who.die (fabricPkg pa) (fabricDie pa) (fun h => .remoteRead h vf pa n)
/-- A remote write leaves. -/
def remoteWrite (s : State) (rem : Remote) (pa : Nat) (bs : List Byte) : State :=
  s.sendAwaited 1 { rem with write := true, len := bs.length, bytes := bs, addr := pa } rem.who.die (fabricPkg pa) (fabricDie pa)
    (fun h => .remoteWrite h (s.accessVf rem.who) pa bs)
end State

/-- Whether this package, as a target, lets a virtual function of another access it; 32 stands for scribes and command processors (19 R346, R348). -/
def rightsOk (s : State) (vf : Nat) : Bool := vf == 32 || s.host.vfRights.getLsbD vf

/-- Whether a place is a fabric address. -/
def Loc.fabric (l : Loc) : Bool := (l.space == .m || l.space == .ms) && l.coded.isNone && paKind l.key == .fabric
/-- Whether a place is host memory (17 R303, R408). -/
def Loc.host (l : Loc) : Bool := (l.space == .m || l.space == .ms) && l.coded.isNone && paKind l.key == .host

/-! ## Reads -/

/-- Bytes at a fabric address that are needed before an agent acts: those that have come for it, the fault of the access, or that they have yet to come
(17 R408; 19 R348; 22 R369). -/
def farRead (s : State) (a : Agent) (u : FarUse) (acc : Acc) (va : BitVec 64) (l : Loc) (n : Nat) : Except AFault (List Byte) :=
  match (s.ctx a).far.find? (fun f => f.use_ == u && f.key == l.key && f.len == n) with
  | none => .error (farAbsent l.key n)
  | some f => match f.got with
    | some bs => .ok bs
    | none =>
      if f.cause = 0 then .error (farAbsent l.key n)
      else if f.cause = 0x51 then .error { cause := 0x51, d1 := BitVec.ofNat 64 l.key, d2 := va }
      else if f.cause = 0x44 then .error { cause := 0x44, d1 := BitVec.ofNat 64 (fabricPkg l.key + fabricDie l.key * 2 ^ 16) }
      else .error (accFault f.cause acc va.toNat 0 0)

/-- Read `n` bytes within one line at their target, as an agent's load of the place's space does: bytes, poison, latency (18 R316; 17 R306, R408). -/
def readTarget (s : State) (who : Agent) (l : Loc) (n : Nat) : List Byte × Bool × Nat × State :=
  match l.space with
  | .p => (s.bytesAt l.key n, s.poisoned l.key n, latencyOf s who l false, s)
  | .v => (s.bytesAt l.key n, s.poisoned l.key n, latencyOf s who l false, s)
  | sp =>
    if l.host then (s.bytesAt l.key n, s.poisoned l.key n, latencyOf s who l false, s)
    else if sp = .m ∧ who.onCore then
      let lat := latencyOf s who l (s.l1Hit who.core l n)
      let r := s.l1Read who.core l n who
      (r.1, r.2.1, lat, r.2.2)
    else
      let lat := latencyOf s who l false
      let s := s.beforeStrong who l
      let r := s.homeRead who l n
      (r.1, s.poisonedAt l n, lat, r.2)

/-- The writes of an effect, in order. -/
def Effect.pieces : Effect → List Piece
  | .store _ _ _ _ _ ps => ps
  | _ => []
/-- The places that an effect may write, with their lengths, when the bytes are not known before it performs. -/
def Effect.opaquePlaces : Effect → List (Loc × Nat)
  | .atom _ w4 l _ _ _ => [(l, if w4 then 4 else 8)]
  | .cerr _ ps => ps.map (fun p => (p.loc, p.bytes.length))
  | .arrive l _ _ _ => [(l, 64)]
  | _ => []

/-- The places that a claim writes at its object, and those that a token may write: the object, its slots and its ids (12 R241, R242). -/
def routedPlaces (s : State) (obj : BitVec 64) (token : Bool) : List (Loc × Nat) :=
  let at_ := fun (ea : Nat) => ({ space := .v, key := vaultKey ea } : Loc)
  let f := fun (o n : Nat) => s.numAt (vaultKey (obj.toNat + o)) n
  let cap := f 0 2
  (at_ obj.toNat, 64) :: (if token then [(at_ (f 16 8), cap * f 8 4), (at_ (f 24 8), cap * 4)] else [])
/-- The places that the claims and tokens which an agent has released to objects of this package may write, until they have acted (18 R320). -/
def ownRouted (s : State) (a : Agent) : List (Loc × Nat) :=
  ((s.relqs.get [] a.relKey).filter (fun r => r.who == a)).flatMap (fun r => match r.w.eff with
    | .clm obj _ _ _ => routedPlaces s obj false
    | .snd obj _ _ pkg away _ => if away ∧ pkg ≠ s.pkgid.toNat then [] else routedPlaces s obj true
    | _ => [])
  ++ s.agenda.flatMap (fun x => match x.2 with
    | .claimGrant c => if c.who = a then routedPlaces s c.obj false else []
    | .claimSend t => if t.who = a ∧ t.pkg = s.pkgid.toNat then routedPlaces s t.obj true else []
    | _ => [])

/-- An agent's writes to fabric addresses that have left and are not yet acknowledged, oldest first (18 R316, R320). -/
def farPieces (s : State) (a : Agent) : List Piece :=
  (s.remotes.filter (fun r => r.2.who == a)).filterMap (fun r => r.2.piece)

/-- An agent's own writes that have not performed, oldest first: released, then withheld before this bundle (04 R92; 06 R120). -/
def ownPieces (s : State) (a : Agent) : List Piece :=
  ((s.relqs.get [] a.relKey).filter (fun r => r.who == a)).flatMap (fun r => r.w.eff.pieces)
    ++ ((s.ctx a).held.take s.hmark).flatMap (fun w => w.eff.pieces)

/-- The writes that an agent has released and that have not performed, oldest first; a remote one performs when it is acknowledged (18 R316, R330). -/
def releasedPieces (s : State) (a : Agent) : List Piece :=
  farPieces s a ++ ((s.relqs.get [] a.relKey).filter (fun r => r.who == a)).flatMap (fun r => r.w.eff.pieces)

/-- Bytes read at a place with an agent's own unperformed writes over them, the youngest prevailing (04 R92). -/
def overlay (l : Loc) (bs : List Byte) (ps : List Piece) : List Byte :=
  let lo := linOf l
  ps.foldl (fun bs p =>
    let plo := linOf p.loc
    if decide (plo < lo + bs.length ∧ lo < plo + p.bytes.length) then
      bs.zipIdx.map (fun b => if plo ≤ lo + b.2 ∧ lo + b.2 < plo + p.bytes.length then p.bytes.getD (lo + b.2 - plo) b.1 else b.1)
    else bs) bs

/-- The bytes at a place that pieces give, the youngest prevailing: their offsets and values (04 R92). -/
def laidBytes (l : Loc) (n : Nat) (ps : List Piece) : List (Nat × Byte) :=
  (List.range n).filterMap (fun o =>
    let k := linOf l + o
    (ps.reverse.find? (fun p => decide (linOf p.loc ≤ k ∧ k < linOf p.loc + p.bytes.length))).map (fun p => (o, p.bytes.getD (k - linOf p.loc) 0)))

namespace State
/-- Ask for bytes at a fabric address, address and length, once (17 R408); the writes that the agent has released lie over them (18 R316, R320). -/
def askFar (s : State) (a : Agent) (u : FarUse) (bund : BitVec 57) (x : Nat × Nat) (vf : Nat := s.accessVf a) : State :=
  if (s.ctx a).far.any (fun f => f.use_ == u && f.key == x.1 && f.len == x.2) then s else
  let (id, s) := s.newId
  let s := s.modCtx a (fun c => { c with far := c.far ++ [{ use_ := u, id := id, key := x.1, len := x.2 }] })
  s.remoteRead { who := a, purpose := .ask id, bund := bund, laid := laidBytes { space := .ms, key := x.1 } x.2 (releasedPieces s a) } x.1 x.2 vf
/-- The bytes that were asked for have been used. -/
def dropFar (s : State) (a : Agent) (u : FarUse) : State :=
  if (s.ctx a).far.any (fun f => f.use_ == u) then s.modCtx a (fun c => { c with far := c.far.filter (fun f => f.use_ != u) }) else s
end State

/-- Whether an agent has released an effect on these bytes whose result is not known before it performs (18 R320), an RTE claim or send among them: the load waits. -/
def ownUnknown (s : State) (a : Agent) (l : Loc) (n : Nat) : Bool :=
  let lo := linOf l
  let meets := fun (p : Loc × Nat) => decide (linOf p.1 < lo + n ∧ lo < linOf p.1 + p.2)
  (s.relqs.get [] a.relKey).any (fun r => r.who == a && r.w.eff.opaquePlaces.any meets) || (l.space == .v && (ownRouted s a).any meets)

/-- The bytes of a collective's buffers load as free values before it completes (15 R282, log 4). -/
def openBytes (s : State) (l : Loc) (bs : List Byte) : List Byte × State :=
  match s.leases.filter (fun x => x.kind == .coll) with
  | [] => (bs, s)
  | cs =>
    (bs.zipIdx.map (fun b => if cs.any (fun x => decide (x.lo ≤ linOf l + b.2 ∧ linOf l + b.2 < x.hi)) then Config.freeByte (s.fresh + b.2) else b.1),
      { s with fresh := s.fresh + bs.length })

/-- Read a list of segments of a load: their bytes joined, poison, the greatest latency (04 R92, R93). -/
def readSegs (s : State) (who : Agent) : List (Loc × Nat) → List Byte × Bool × Nat × State
  | [] => ([], false, 0, s)
  | (l, n) :: r =>
    let a := readTarget s who l n
    let o := openBytes a.2.2.2 l a.1
    let b := readSegs o.2 who r
    (overlay l o.1 (ownPieces s who) ++ b.1, a.2.1 || b.2.1, Nat.max a.2.2.1 b.2.2.1, b.2.2.2)

/-! ## Leases (09 R179; 18 R330) -/

/-- The lease that a write of `n` bytes at a place meets; a fetch's own context's earlier releases never meet it (09 R179). -/
def leaseMet (s : State) (who : Agent) (id : Nat) (l : Loc) (n : Nat) : Option Lease :=
  let lo := linOf l
  s.leases.find? (fun x => decide (x.lo < lo + n ∧ lo < x.hi) && !(x.kind == .fetch && x.who == who && decide (id < x.ref)))

/-- The first lease that a list of pieces meets, with the place written. -/
def leaseOf (s : State) (who : Agent) (id : Nat) : List Piece → Option (Lease × Loc)
  | [] => none
  | p :: r => match leaseMet s who id p.loc p.bytes.length with
    | some x => some (x, p.loc)
    | none => leaseOf s who id r

/-- The place of a cause among those that arrive in one cc: by slot position, then by engine number (22 R367, R368). -/
def arrivalKey (t : TrapRec) : Nat := if t.dfr then 16 + wbits t.det.d0 11 8 else wbits t.det.d0 2 0

/-- A cause among those that have arrived, in their order (22 R367). -/
def insertArrival (t : TrapRec) : List TrapRec → List TrapRec
  | [] => [t]
  | u :: r => if u.cc = t.cc ∧ arrivalKey t < arrivalKey u then t :: u :: r else u :: insertArrival t r

/-- Whether a cause that has arrived is taken at a boundary of cc `cc`: a released write's lease violation at the first boundary after the cc in which it would have
performed (04 R98). -/
def causeDue (cc : Nat) (t : TrapRec) : Bool := t.dfr || t.cause != 0x34 || decide (t.cc < cc)
/-- A cause for a stopped agent: the first to arrive is held pending, in the order of those that arrive together, and each is reported by a notice (22 R367). -/
def State.holdPending (s : State) (a : Agent) (t : TrapRec) : State :=
  let s := s.notify { s.noticeOf a t.cause 1 t.det with bund := t.bund.setWidth 64, ckpt := (s.ctx a).tckpt.setWidth 64 }
  s.modCtx a (fun c => { c with pendHeld := match c.pendHeld with
    | some u => if u.cc = t.cc ∧ arrivalKey t < arrivalKey u then some t else some u
    | none => some t })
/-- A cause that arrives for an agent, taken at its next boundary; while it is stopped, one is held pending (22 R366, R367). An agent that has ended is told by an
event (22 R365). -/
def State.deliver (s : State) (a : Agent) (t : TrapRec) : State :=
  let t := { t with cc := s.cc }
  let c := s.ctx a
  if c.st = .free ∨ c.st = .halted then s.notify (s.noticeOf a t.cause 3 t.det)
  else if c.st = .stopped then s.holdPending a t
  else s.modCtx a (fun c => { c with pend := insertArrival t c.pend })

/-- %tdet0 of a deferred trap: engine kind, engine number, halt reason (22 R368). -/
def engDet (kind no reason : Nat) : BitVec 64 := BitVec.ofNat 64 (kind + no * 2 ^ 8 + reason * 2 ^ 12)

/-- A cause that an engine raises for the context that started it: a deferred trap, or, when that context has halted or has been freed, an event to
`dest` with the task's TASKID (15 R268). -/
def State.engineTrap (s : State) (a : Agent) (task : Option Nat) (dest : NoticeTo) (t : TrapRec) : State :=
  let a := match task with
    | some k => (((s.task k).moved.find? (fun m => m.1 == a)).map (·.2)).getD a
    | none => a
  let c := s.ctx a
  if c.task = task ∧ c.st ≠ .free ∧ c.st ≠ .halted then s.deliver a { t with dfr := true }
  else s.notify { s.noticeOf a t.cause 3 t.det with dest := dest, taskid := match task with
    | some k => (s.task k).taskid
    | none => 0 }

/-- The holder of a lease as the details of a violation name it: core and context (22 R369). -/
def leaseHolder (x : Lease) : BitVec 64 := BitVec.ofNat 64 (x.who.core + x.who.ctxNo * 2 ^ 9)
/-- %tdet0 that names the slot of a withheld effect (22 R368). -/
def Withheld.slotDet (w : Withheld) : BitVec 64 := BitVec.ofNat 64 (w.pos + w.word.toNat * 2 ^ 32)
/-- The details of a released write's lease violation: the writing slot (04 R98; 22 R368, R369). -/
def leaseTrap (s : State) (w : Withheld) (x : Lease) (l : Loc) : TrapRec :=
  { cause := 0x34
    det := { d0 := w.slotDet, d1 := BitVec.ofNat 64 (Loc.addr s l)
             d2 := leaseHolder x }
    bund := w.bund }

/-! ## Writes -/

/-- The coded bytes of a list of pieces: decoded place and byte, in write order. -/
def codedWrites (ps : List Piece) : List (CodedLoc × Byte) :=
  ps.flatMap (fun p => match p.loc.coded with
    | some c => p.bytes.zipIdx.map (fun b => ({ c with off := c.off + b.2 }, b.1))
    | none => [])

/-- Perform the coded bytes of one access as one merge per block, in ascending block address, which is a decoded address (20 R350; 21 R352). -/
def mergeAccess (s : State) (who : Agent) (ws : List (CodedLoc × Byte)) : State :=
  let at_ := fun (c : CodedLoc) => c.page * 2 ^ 16 + c.off
  let blocks := (ws.map (fun w => { w.1 with off := w.1.off / 64 * 64 })).mergeSort (fun a b => decide (at_ a ≤ at_ b))
  let blocks := blocks.foldl (fun (bs : List CodedLoc) c => if bs.any (fun b => b.frame == c.frame && b.off == c.off) then bs else bs ++ [c]) []
  blocks.foldl (fun s c =>
    let mine := ws.filter (fun w => w.1.frame == c.frame && w.1.off / 64 * 64 == c.off)
    let slot := mine.foldl (fun (a : List (Option Byte)) w => a.set (w.1.off % 64) (some w.2)) (List.replicate 64 none)
    mergeBlock s who c slot) s

/-- A strong write of pieces at the home, or to host memory (17 R308, R309, R408). -/
def strongWrite (s : State) (who : Agent) (ps : List Piece) : State :=
  let s := ps.foldl (fun s p => if p.loc.host then s else s.beforeStrong who p.loc) s
  let s := ps.foldl (fun s p => match p.loc.coded with
    | some _ => s
    | none => s.homeWrite who p.loc p.bytes) s
  let cs := codedWrites ps
  if cs.isEmpty then s else mergeAccess s who cs

/-- An engine's read of `n` bytes within one line: as a strong access, with the starting core's bytes already written back (17 R311). -/
def engineRead (s : State) (who : Agent) (l : Loc) (n : Nat) : List Byte × Bool × State :=
  match l.space with
  | .p | .v => (s.bytesAt l.key n, s.poisoned l.key n, s)
  | _ =>
    if l.host then (s.bytesAt l.key n, s.poisoned l.key n, s) else
    let s := s.recallLine none (lineKey l)
    let r := s.homeRead who l n
    (r.1, s.poisonedAt l n, r.2)

/-- An engine's write within one line (17 R311); to a fabric address it leaves as a remote write, `rem` its record (18 R316). The caller has made the lease check. -/
def engineWrite (s : State) (who : Agent) (l : Loc) (bs : List Byte) (rem : Remote := { who := who }) : State :=
  match l.space with
  | .p | .v => s.storeAt l.key bs
  | _ =>
    if l.host then s.storeAt l.key bs
    else if l.fabric then s.remoteWrite rem l.key bs
    else (s.recallLine none (lineKey l)).homeWrite who l bs

end Sys2Proof.Machine
end

