-- ==== Sys2Proof/Machine/Issue.lean ====
section
/-!
DEFINITION. What issuing a bundle does around its slots: monitor samples (15 R293), withheld effects (06 R119; 12 R220), queue heads as slots
read them (12 R227, R228), the end of a bundle with its pops, checkpoint, yield and halt (02 R34; 06 R115-R120; 14 R256-R261).
-/

namespace Sys2Proof.Machine

/-! ## Monitors (15 R293) -/

/-- The histogram bin of a sample. -/
def sampleBin (v : Nat) : Nat := if v = 0 then 0 else Nat.min (v.log2 + 1) 15

/-- One sample into one counter: the counter, and whether a count or bin wrapped. -/
def Counter.take (c : Counter) (v : Nat) : Counter × Bool :=
  let mode := bits c.cfg.toNat 9 8
  if mode = 0 then ({ c with value := c.value + BitVec.ofNat 48 v, any := true }, decide (2 ^ 48 ≤ c.value.toNat + v))
  else if mode = 1 then ({ c with value := if c.any then BitVec.ofNat 48 (Nat.min c.value.toNat v) else BitVec.ofNat 48 v, any := true }, false)
  else if mode = 2 then ({ c with value := BitVec.ofNat 48 (Nat.max c.value.toNat v), any := true }, false)
  else
    let b := sampleBin v
    let x := c.bins.getD b 0
    ({ c with bins := c.bins.setIfInBounds b (x + 1), any := true }, x == BitVec.allOnes 48)

namespace State

/-- The event of a counter that wraps, to the virtual function that its filter names; of one without a filter, to the scribe of the agent concerned (15 R293; 22 R370; 23
R396). -/
def monitorWrap (s : State) (a : Agent) (cfg : BitVec 64) (sel : Nat) : State :=
  s.event (if cfg.getLsbD 15 then .vf (bits cfg.toNat 14 10) else noticeDest a) a 0x76 { d1 := BitVec.ofNat 64 sel }

/-- A sample `v` of source `src` by an agent, into the counters of its core and die (15 R293). -/
def sample (s : State) (a : Agent) (src v : Nat) : State :=
  let core := (List.range 4).foldl (fun (s : State) k =>
    let c := (s.core a.core).mon.getD k {}
    if a.onCore ∧ bits c.cfg.toNat 7 0 = src then
      let r := c.take v
      let s := s.modCore a.core (fun x => { x with mon := x.mon.setIfInBounds k r.1 })
      if r.2 then s.monitorWrap a c.cfg (k + (a.core % 8) * 2 ^ 5) else s
    else s) s
  (List.range 16).foldl (fun (s : State) k =>
    let c := (s.die a.die).mon.getD k {}
    if bits c.cfg.toNat 7 0 = src ∧ (!c.cfg.getLsbD 15 ∨ bits c.cfg.toNat 14 10 = s.vfOf a) then
      let r := c.take v
      let s := s.modDie a.die (fun x => { x with mon := x.mon.setIfInBounds k r.1 })
      if r.2 then s.monitorWrap a c.cfg (k + 2 ^ 4) else s
    else s) core

/-! ## Free values (log 4) -/

/-- Fresh free 32-bit elements. -/
def freeElems (s : State) (n : Nat) : List (BitVec 32) × State :=
  ((List.range n).map (Config.freeElem s.fresh), { s with fresh := s.fresh + 1 })

/-! ## Queues as a head sees them (12 R224, R228) -/

/-- The key of a queue of an agent's process. -/
def queueKey (s : State) (a : Agent) (q : Nat) : Nat := s.procOf a * 4096 + q
/-- The element latched in a head: its queue's element at the head's position, once its push has performed (12 R228). -/
def latched (s : State) (a : Agent) (h : QHead) : Option (BitVec 64 × Bool) :=
  if h.bound then
    let q := s.queue (s.queueKey a h.queue.toNat)
    q.els[(h.pos - q.popped).toNat]?
  else none
/-- Elements available from a head's own position (12 R227). -/
def available (s : State) (a : Agent) (h : QHead) : Nat :=
  ((s.queue (s.queueKey a h.queue.toNat)).pushed - h.pos).toNat
/-- Head qhK as the slots of the bundle read it. -/
def head (s : State) (k : BitVec 2) : QHead := s.regs.c.qh.get k.toFin

/-- The wait for an element in a head, as a queue wait (12 R228; 22 R369). -/
def queueHold (s : State) (k : BitVec 2) (sub : Nat := 0) : Hold :=
  let h := s.head k
  { limit := some (s.queue (s.queueKey s.who h.queue.toNat)).waitlim, cause := 0x32
    det := { d0 := s.slotDet sub, d1 := h.queue.setWidth 64, d2 := k.setWidth 64, d3 := BitVec.ofNat 64 (s.available s.who h) }
    pos := s.pos }

end State

/-! ## Withheld effects (06 R119) -/

/-- Whether an effect takes an entry of the withheld-store buffer (06 R119): every withheld effect does, that of an EVT wait, which R119 does not list,
among them (log 72); a pop, a consumer advance and the end of a
binding, which act for the context at once, do not. -/
def Effect.takesEntry : Effect → Bool
  | .qpop _ => false
  | .qunbind _ => false
  | .wcons _ _ => false
  | .wunbind _ _ => false
  | .bankRel _ _ => false
  | .halt => false
  | _ => true

/-- Entries of the withheld-store buffer in use. -/
def withheldEntries (c : Ctx) : Nat := (c.held.filter (fun w => w.eff.takesEntry)).length

namespace State
/-- Withhold an effect of the slot being executed. -/
def addHeld (s : State) (e : Effect) (regs : List Word) : State :=
  s.modMe (fun c => { c with held := c.held ++ [{ pos := s.pos, word := s.word, bund := s.bpc.setWidth 57, regs := regs, eff := e }] })
end State

/-- A slot withholds an effect; a 257th entry traps (06 R119). -/
def withhold (s : State) (e : Effect) (regs : List Word) : Res :=
  if e.takesEntry && decide (256 ≤ withheldEntries s.me) then trapAt s 0x53 else .next (s.addHeld e regs)

/-! ## Freezes of a stated length (12 R218) -/

/-- The cc that the wait of a slot position has counted (12 R218). -/
def waitCount (ws : List (Nat × Nat)) (pos : Nat) : Nat := ((ws.find? (fun w => w.1 == pos)).map (·.2)).getD 0

/-- A slot that freezes its context for `n` cc before it acts (log 7). -/
def freezeFor (s : State) (n : Nat) (k : State → Res) : Res :=
  if waitCount s.me.waits s.pos < n then .next (s.hold {}) else k s

/-! ## The control registers that the next bundle reads (02 R27; 04 R74, R86, R87) -/

/-- Set the IDX of a loop level that is present (04 R87). -/
def setLoopIdx (c : Ctl) (k : Nat) (x : BitVec 64) : Ctl :=
  let n := c.loops.length
  if k < n then { c with loops := c.loops.modify (n - 1 - k) (fun l => { l with idx := x }) } else c
/-- Set a return-store entry within the depth (04 R87). -/
def setRas (c : Ctl) (k : Nat) (x : BitVec 64) : Ctl := { c with rets := c.rets.modify k (fun _ => x.setWidth 57) }

/-- The control registers after a write of special register `n` (04 R87). -/
def writeCtl (c : Ctl) (n : BitVec 10) (x : Word) : Ctl :=
  let k := n.toNat
  if k < 8 then { c with lc := c.lc.setIfInBounds k (BitVec.ofNat 12 (Nat.min x.toNat 4095)) }
  else if k = 0x008 then { c with rot := x.setWidth 4 }
  else if k = 0x012 then { c with seed := x }
  else if 0x018 ≤ k ∧ k ≤ 0x01D then setLoopIdx c (k - 0x018) x
  else if 0x020 ≤ k ∧ k ≤ 0x02F then setRas c (k - 0x020) x
  else c

namespace State
/-- Change the control registers as the next bundle will read them. -/
def modStage (s : State) (f : Ctl → Ctl) : State := s.modMe (fun c => { c with stage := f c.stage })

/-- A result that the lead slot leaves: written before any other slot's result of the same issue cycle (04 R66). -/
def leadResult (s : State) (w : RegWrite) : State :=
  s.modMe (fun c => { c with flight := c.flight.take s.mark ++ { id := 0, writes := [w], dist := 1 } :: c.flight.drop s.mark })

/-! ## The end of a bundle -/

/-- Pop the heads that the lead slot's PM field names (02 R34; 12 R228). -/
def popHeads (s : State) (pm : BitVec 4) : State :=
  (List.range 4).foldl (fun (s : State) k =>
    if pm.getLsbD k then
      let h := s.regs.c.qh.getD k {}
      let s := s.modStage (fun c => if c.qh.getD k {} = h then { c with qh := c.qh.setIfInBounds k { h with pos := h.pos + 1 } } else c)
      s.addHeld (.qpop (s.queueKey s.who h.queue.toNat)) []
    else s) s

/-- Who owns a bank on an agent's behalf: its task, or an agent that runs no task. -/
def bankOwner (s : State) (a : Agent) : Nat := match (s.ctx a).task with
  | some t => 2 * t + 1
  | none => 2 * a.key + 2
/-- Whether a released effect is a giving up of banks. -/
def gives (r : Released) : Bool := match r.w.eff with
  | .bankRel _ _ => true
  | _ => false
/-- Whether a released effect writes, or may write, a pad. -/
def padStore (r : Released) : Bool := r.w.eff.pieces.any (fun p => p.loc.space == .p) || r.w.eff.opaquePlaces.any (fun p => p.1.space == .p)
/-- The entries of a release queue that give up banks and that no store of the banks' owner into a pad stands before; `busy` are the owners with such a
store so far (12 R234; 14 R262). -/
def banksReady (owner : Agent → Nat) (busy : List Nat) : List Released → List Released
  | [] => []
  | r :: rs =>
    let o := owner r.who
    if gives r then (if busy.contains o then banksReady owner busy rs else r :: banksReady owner busy rs)
    else banksReady owner (if padStore r then o :: busy else busy) rs
/-- Banks whose stores have performed are given up: they are acquirable from the next cc on (12 R234; 14 R262). -/
def settleBanks (s : State) (key : Nat) : State :=
  let q := s.relqs.get [] key
  (banksReady (bankOwner s) [] q).foldl (fun (s : State) r =>
    let s := { s with relqs := s.relqs.put [] key ((s.relqs.get [] key).filter (fun x => x.id != r.id)) }
    match r.w.eff with
    | .bankRel cl mask => s.after 1 (.bankGiveUp cl (bankOwner s r.who) mask)
    | _ => s) s

/-- Whether an effect acts once every other effect of its release has (12 R234; 14 R251). -/
def actsLast : Effect → Bool
  | .bankRel _ _ => true
  | .halt => true
  | _ => false

/-- Release every withheld effect of an agent, in bundle and slot order (06 R117); banks are given up after the release's stores, and the context
ends last (12 R228, R234). -/
def release (s : State) (a : Agent) : State :=
  let c := s.ctx a
  let sorted := c.held.filter (fun w => !actsLast w.eff) ++ c.held.filter (fun w => actsLast w.eff)
  let rs := sorted.zipIdx.map (fun w => ({ id := s.ids + w.2, who := a, w := w.1 } : Released))
  let s := { s with ids := s.ids + rs.length
                    relqs := if rs.isEmpty then s.relqs else s.relqs.put [] a.relKey (s.relqs.get [] a.relKey ++ rs) }
  settleBanks (s.modCtx a (fun c => { c with held := [] })) a.relKey

/-- The control registers as a release leaves them: bindings that an unbind ended are gone (12 R227, R231). -/
def endBindings (s : State) (a : Agent) (c : Ctl) (held : List Withheld) : Ctl :=
  { c with
    qh := c.qh.map (fun h => if h.bound && held.any (fun w => w.eff == .qunbind (s.queueKey a h.queue.toNat)) then {} else h)
    w := c.w.map (fun h => if h.bound && held.any (fun w => w.eff == .wunbind (s.wellKey a h) h.prod) then {} else h) }

/-- Establish a checkpoint after a bundle (06 R117, R118). -/
def establish (s : State) (a : Agent) (bund : BitVec 57) : State :=
  let s := s.modCtx a (fun c => { c with live := { c.live with c := endBindings s a c.live.c c.held } })
  let s := s.modCtx a (fun c =>
    { c with ckpt := c.live, ckBund := bund, tiles := 0, flight := c.flight.map (fun e => { e with ck := true, distCk := e.dist }) })
  s.release a

/-- Whether a remote effect of an agent that a scope covers has neither performed nor failed: within the package from `.core` on, beyond it at `.fab`
(12 R239; 13 R245; 18 R322, R323). -/
def remotePending (s : State) (a : Agent) (scope : Nat) : Bool :=
  s.remotes.any (fun r => r.2.who == a && r.2.write && r.2.purpose == .effect && (if r.2.away then scope == 5 else decide (1 ≤ scope)))
/-- Whether an agent's STAB go waits for its mirror reply (19 R341). -/
def goPending (s : State) (a : Agent) : Bool := match s.walker.goWait with
  | some (_, b) => b == a
  | none => false
/-- Whether a claim that an agent released has yet to act at its object (18 R318). -/
def claimPending (s : State) (a : Agent) : Bool := s.agenda.any (fun x => match x.2 with
  | .claimGrant c => c.who == a
  | _ => false)
/-- Whether effects that an agent released have not performed (06 R120). -/
def unperformed (s : State) (a : Agent) : Bool := (s.relqs.get [] a.relKey).any (fun r => r.who == a) || goPending s a || claimPending s a

/-- The label that four yield runs give (14 R261). -/
def labelOf (mb b : Nat) : Label :=
  if 0 < mb ∧ b ≤ 16 * mb then .c else if 256 * mb < b ∧ 0 < b then .m else .b
/-- A yield run ends (14 R257, R261). -/
def endRun (c : Ctx) : Ctx :=
  if c.runs < 4 then { c with runs := c.runs + 1, label := if c.runs + 1 = 4 then labelOf c.mb c.by_ else c.label } else c

/-- A context yields: it becomes waiting in this cc, and its position falls vacant (14 R258). -/
def yieldCtx (s : State) (a : Agent) : State :=
  let s := s.modCtx a (fun c => { endRun c with st := .waiting, skip := 0, waitFrom := s.cc, overrun := false })
  s.modCore a.core (fun x => { x with posA := if x.posA = some a.ctxNo then none else x.posA
                                      posB := if x.posB = some a.ctxNo then none else x.posB })

/-- A boundary stop of a context: nothing rolls back (22 R366). -/
def boundaryStopAt (s : State) (a : Agent) (cause : Nat) (det : Det) : State :=
  let c := s.ctx a
  (s.modCtx a (fun c => { c with stopReq := none, step := false })).stopWith a
    { cause := cause, det := det, bund := c.live.c.pc.setWidth 57 } 2

/-- Whether a pane operation that a context issued is running (14 R261). -/
def paneBusy (s : State) (a : Agent) : Bool :=
  (s.core a.core).panes.toList.any (fun p => p.ops.any (fun o => o.who == a && o.started))

/-- The bundle being issued ends: transfer of control, the special registers that its WRSR slots write (04 R66), onto the loop levels and return addresses as the lead
slot leaves them, a choice (04 R87, log 83), pops, its ic, its checkpoint, its empty issue cycles, its yield. `post` acts after the
checkpoint's release. -/
def endBundle (s : State) (h : LHdr) (pc : BitVec 64) (cost : Nat) (post : State → State := id) : Res :=
  let a := s.who
  let s := s.popHeads h.pm
  let busy := s.paneBusy a
  let s := s.modMe (fun c =>
    let c := { c with live := { c.live with c := { s.srs.foldl (fun (k : Ctl) w => writeCtl k w.1 w.2) c.stage with pc := pc } }, icyc := c.icyc + 1, empty := Nat.max cost c.empty
                      wait := none, waits := [], issuedAt := s.cc + 1, far := c.far.filter (fun f => f.use_ != .slot)
                      mb := if busy ∧ c.runs < 4 then c.mb + 1 else c.mb }
    { ageFlight c with stage := c.live.c })
  let s := s.sample a 0x01 1
  let s := match a with
    | .cp d => s.modDie d (fun x => { x with head := pc })
    | _ => s
  let s := if s.ckb then s.establish a (s.bpc.setWidth 57) else s
  let s := post s
  let s := if h.y ∧ a.onCore ∧ (s.ctx a).st = .front then s.yieldCtx a else s
  let c := s.ctx a
  if c.step ∧ c.empty = 0 ∧ c.st ≠ .halted ∧ c.st ≠ .stopped then .next (s.boundaryStopAt a 0x71 {}) else .next s

end State

/-! ## The lead slot (02 R32; 04 R68-R77) -/

/-- Whether a lead slot makes its bundle a checkpoint bundle, whatever its guard reads (06 R115). -/
def leadCheckpoint (i : Instr) (h : LHdr) : Bool :=
  h.ck || (match i with
    | .halt _ | .trapi _ _ | .bkpt _ _ => true
    | _ => false)

/-- The lowest head of a pop mask that satisfies `p`. -/
def firstHead (pm : BitVec 4) (p : BitVec 2 → Bool) : Option (BitVec 2) :=
  ((List.range 4).map (BitVec.ofNat 2)).find? (fun k => pm.getLsbD k.toNat && p k)

/-- A lead slot: its encoding checks, its pops' checks and waits, then its family's action when the guard reads true (02 R32; 12 R227, R228). `skipped`
is the cost of a transfer whose guard reads false. -/
def leadOp (i : Instr) (h : LHdr) (s : State) (skipped : Nat) (k : State → Res) : Res :=
  let s := { s with word := encode i, pos := 0, ckb := s.ckb || leadCheckpoint i h }
  match i.ill with
  | some .reserved => trapAt s 0x02
  | some .format => trapAt s 0x07
  | none =>
  match firstHead h.pm (fun q => !(s.head q).bound) with
  | some q => trapAt s 0x16 0 (q.setWidth 64)
  | none =>
  match firstHead h.pm (fun q => (s.latched s.who (s.head q)).isNone) with
  | some q => .next (s.hold (s.queueHold q))
  | none => if s.guard h.g then k s else s.endBundle h s.bnxt skipped

end Sys2Proof.Machine
end

