-- ==== Sys2Proof/Machine/Operands.lean ====
section
/-!
DEFINITION. Operand forms: immediates (02 R34; 04 R78, R80), effective addresses (04 R88, R89), lanes of a format (03 R56; 08 R145), lists
of a vector's elements.
-/

namespace Sys2Proof.Machine

/-- The signed 10-bit immediate of ADDI (04 R78). -/
def imm10 (i : BitVec 10) : Word := i.signExtend 64
/-- The signed 15-bit immediate of MOVI (04 R78). -/
def imm15 (i : BitVec 15) : Word := i.signExtend 64
/-- The signed 6-bit immediate of CMPI (04 R81). -/
def imm6 (i : BitVec 6) : Word := i.signExtend 64

/-- The effective address sA + OFF5 * g of form LS (04 R88). -/
def effAddr (s : State) (a off : BitVec 5) (g : Nat) : BitVec 64 := s.rs a + off.signExtend 64 * BitVec.ofNat 64 g

/-- A lane's address sA + 4 * zext(vI[i]) of LDVX and STVX (04 R93). -/
def laneAddr (s : State) (a ix : BitVec 5) (i : Nat) : BitVec 64 := s.rs a + 4 * (lane (s.rv ix) i).setWidth 64

/-- The width in bits of a scalar field access (04 R80). -/
def fldWidth (sz : BitVec 2) : Nat := 8 * 2 ^ sz.toNat
/-- FLD's result (04 R80). -/
def fldValue (x d : Word) (ins sg : Bool) (sz : BitVec 2) (p : BitVec 6) : Word :=
  let W := fldWidth sz
  let P := p.toNat
  if ins then
    let m : Word := BitVec.ofNat 64 ((2 ^ W - 1) * 2 ^ P)
    (d &&& ~~~m) ||| (BitVec.ofNat 64 (x.toNat % 2 ^ W * 2 ^ P))
  else
    let f := wbits x (P + W - 1) P
    if sg then wordOf (sext W f) else BitVec.ofNat 64 f

/-- The element width in bits of a format in lane form (03 R52, R56). -/
def fmtBits (f : BitVec 4) : Nat :=
  if f = Fmt.fp64 then 64 else if f = Fmt.fp32 ∨ f = Fmt.i32 then 32
  else if f = Fmt.bf16 ∨ f = Fmt.fp16 ∨ f = Fmt.i16 then 16
  else if f = Fmt.i4 then 4 else if f = Fmt.fp6 then 6 else 8

/-- The binary format of a floating-point code (03 R52, R53). -/
def fpFmt (f : BitVec 4) : FpFmt :=
  if f = Fmt.fp64 then f64 else if f = Fmt.bf16 then fbf16 else if f = Fmt.fp16 then f16
  else if f = Fmt.fp8e4 then f8e4 else if f = Fmt.fp8e5 then f8e5 else if f = Fmt.fp6 then f6 else f32

/-- Elements of a register in a format: 128 lanes, or 64 pairs in FP64 (03 R56). -/
def elemCount (f : BitVec 4) : Nat := if f = Fmt.fp64 then 64 else 128
/-- Element `i` of a register as a number of its format's bits (08 R145). -/
def elem (f : BitVec 4) (v : VReg) (i : Nat) : Nat :=
  if f = Fmt.fp64 then (lane64 v i).toNat else (lane v i).toNat % 2 ^ fmtBits f
/-- An element in lane form: zero above a floating-point element, sign copies above an integer one (08 R145). -/
def laneOut (f : BitVec 4) (x : Nat) : BitVec 32 :=
  if Fmt.int f ∨ f = Fmt.i4 then BitVec.ofInt 32 (sext (fmtBits f) x) else BitVec.ofNat 32 (x % 2 ^ fmtBits f)
/-- The register whose element `i` is `g i`, in lane form (08 R145). -/
def ofElems (f : BitVec 4) (g : Nat → Nat) : VReg :=
  if f = Fmt.fp64 then ofLanes64 (fun i => BitVec.ofNat 64 (g i)) else ofLanes (fun i => laneOut f (g i))

/-- Whether an element is active under a mask: its lane's bit, or the even lane's in FP64 (08 R152, R153). -/
def activeElem (f : BitVec 4) (m : Mask) (i : Nat) : Bool := if f = Fmt.fp64 then m.getLsbD (2 * i) else m.getLsbD i

end Sys2Proof.Machine
end

