-- ==== Sys2Proof/Machine/Flags.lean ====
section
/-!
DEFINITION. Predicates and conditions: the only flags of this machine are f0 to f15 and the masks (02 R31; 04 R78: no family raises a flag).
Conditions of CMP and CMPI (04 R81), truth tables (R82), tests of PMOV (R83), floating-point conditions (R85).
-/

namespace Sys2Proof.Machine

/-- The condition CC of CMP and CMPI (04 R81). -/
def intCond (cc : BitVec 4) (a b : Word) : Bool :=
  match cc.toNat with
  | 0 => a == b
  | 1 => a != b
  | 2 => a.slt b
  | 3 => !a.slt b
  | 4 => !b.slt a
  | 5 => b.slt a
  | 6 => a.ult b
  | 7 => !a.ult b
  | 8 => !b.ult a
  | 9 => b.ult a
  | 10 => a &&& b != 0
  | _ => a &&& b == 0

/-- A floating-point condition on decoded operands (04 R85; 07 R132). -/
def fpCond (cc : BitVec 3) (a b : FVal) : Bool :=
  let un := a.isNan || b.isNan
  match cc.toNat with
  | 0 => !un && a.eq b
  | 1 => un || !a.eq b
  | 2 => !un && a.lt b
  | 3 => !un && !b.lt a
  | 4 => !un && b.lt a
  | 5 => !un && !a.lt b
  | 6 => un
  | _ => !un

/-- The truth table of PLOG on one position (04 R82). -/
def truthTable (tt : BitVec 4) (a b : Bool) : Bool := tt.getLsbD (2 * a.toNat + b.toNat)

/-- The writes of a predicate result: fFD, and with a pair write its complement to f(FD xor 1) (04 R81). -/
def predWrites (s : State) (fd : BitVec 4) (pw x : Bool) : List RegWrite :=
  if pw then [s.wF fd x, s.wF (fd ^^^ 1) (!x)] else [s.wF fd x]

end Sys2Proof.Machine
end

