-- ==== Sys2Proof/Machine/Planes.lean ====
section
/-!
DEFINITION. Elements between their forms: a lane as a value and back (03 R54-R59; 07 R134; 08 R145, R146), SX blocks in lane form (08 R160),
planes and plane images (03 R60, R61; 08 R161), zero-run chunks (08 R169, R170).
-/

namespace Sys2Proof.Machine

/-! ## Lanes and values -/

/-- Whether a format code is an integer format, INT4 included (03 R57). -/
def isInt (f : BitVec 4) : Bool := Fmt.int f || f == Fmt.i4
/-- The bounds of an integer format (03 R57). -/
def intLo (f : BitVec 4) : Int := -(2 ^ (fmtBits f - 1) : Nat)
/-- The largest value of an integer format (03 R57). -/
def intHi (f : BitVec 4) : Int := (2 ^ (fmtBits f - 1) : Nat) - 1

/-- The value of an SX lane (08 R146). -/
def sxLane (f : BitVec 4) (w : BitVec 32) : FVal :=
  sxDecode f (bits w.toNat 23 16) (bits w.toNat 9 8) (w.getLsbD 7) (w.toNat % 2 ^ sxBits f)
/-- An SX lane from its fields (08 R146). -/
def sxPack (e dl : Nat) (neg : Bool) (mag : Nat) : BitVec 32 :=
  BitVec.ofNat 32 (e * 2 ^ 16 + dl * 2 ^ 8 + neg.toNat * 2 ^ 7 + mag)

/-- The value of a 32-bit lane in a format other than FP64 (03 R54, R57, R58). -/
def laneVal (f : BitVec 4) (w : BitVec 32) : FVal :=
  if Fmt.sx f then sxLane f w
  else if isInt f then FVal.ofInt (sext (fmtBits f) w.toNat)
  else (fpFmt f).decode (w.toNat % 2 ^ fmtBits f)

/-- A value as a lane of a format other than SX and FP64, and whether the conversion saturated (07 R130, R134). -/
def valLane (f : BitVec 4) (mode : Rnd) (rb : Nat) (x : FVal) : BitVec 32 × Bool :=
  if isInt f then
    let r := x.toIntSat mode rb (intLo f) (intHi f)
    (BitVec.ofInt 32 r.1, r.2)
  else
    let r := (fpFmt f).roundSat mode rb x
    (BitVec.ofNat 32 r.1, r.2)

/-- FP32 values as an SX register in blocks of `n`: the lanes and the number of saturations (08 R160). -/
def sxLanes (f : BitVec 4) (mode : Rnd) (n : Nat) (xs : List (FVal × Nat)) : List (BitVec 32) × Nat :=
  let bs := (groups n (xs.length / n) xs).map (sxEncode f mode)
  (bs.flatMap (fun b => b.elems.zipIdx.map (fun e => sxPack b.exp (b.quads.getD (e.2 / 4) 0) e.1.1 e.1.2)), (bs.map (·.sats)).sum)

/-- The lanes of a register as a list. -/
def lanesOf (v : VReg) : List (BitVec 32) := (List.range 128).map (lane v)
/-- A register from a list of lanes, zero beyond it. -/
def ofLaneList (l : List (BitVec 32)) : VReg := BitVec.ofNat 4096 (ofBytes (l.flatMap (fun w => toBytes 4 w.toNat)))
/-- The random bits of an element at lane `e`: bits [31:16] of the destination's lane (08 R158). -/
def rbLane (d : VReg) (e : Nat) : Nat := bits (lane d e).toNat 31 16

/-! ## Planes (03 R60, R61; 08 R161) -/

/-- The field width of a plane (03 R60). -/
def planeWidth (f : BitVec 4) (p : BitVec 2) : Nat :=
  if p = 2 then 8 else if p = 3 then 2
  else if p = 1 then (if f = Fmt.fp6 then 2 else 1)
  else if f = Fmt.fp6 ∨ f = Fmt.sx5 then 4 else if f = Fmt.sx3 then 2 else fmtBits f

/-- Elements that one field of a plane covers (03 R60, R61). -/
def planeSpan (p : BitVec 2) (n : Nat) : Nat := if p = 2 then n else if p = 3 then 4 else 1

/-- The field of a lane that a plane holds (03 R60; 08 R145, R146). -/
def planeField (f : BitVec 4) (p : BitVec 2) (w : BitVec 32) : Nat :=
  let x := w.toNat
  if p = 2 then bits x 23 16
  else if p = 3 then bits x 9 8
  else if f = Fmt.fp6 then (if p = 0 then bits x 5 2 else bits x 1 0)
  else if f = Fmt.sx8 then bits x 7 0
  else if f = Fmt.sx5 then (if p = 0 then bits x 7 7 * 8 + bits x 3 1 else bits x 0 0)
  else if f = Fmt.sx3 then (if p = 0 then bits x 7 7 * 2 + bits x 1 1 else bits x 0 0)
  else x % 2 ^ fmtBits f

/-- The bits of a lane that a plane holds (08 R161). -/
def planeMask (f : BitVec 4) (p : BitVec 2) : BitVec 32 :=
  if p = 2 then 0x00FF0000
  else if p = 3 then 0x00000300
  else if f = Fmt.fp6 then (if p = 0 then 0x3C else 0x03)
  else if f = Fmt.sx8 then 0xFF
  else if f = Fmt.sx5 then (if p = 0 then 0x8E else 0x01)
  else if f = Fmt.sx3 then (if p = 0 then 0x82 else 0x01)
  else BitVec.allOnes 32

/-- A lane's bits for a field of a plane (08 R161). -/
def fieldBits (f : BitVec 4) (p : BitVec 2) (x : Nat) : BitVec 32 :=
  if p = 2 then BitVec.ofNat 32 (x * 2 ^ 16)
  else if p = 3 then BitVec.ofNat 32 (x * 2 ^ 8)
  else if f = Fmt.fp6 then (if p = 0 then BitVec.ofNat 32 (x * 4) else BitVec.ofNat 32 x)
  else if f = Fmt.sx5 then (if p = 0 then BitVec.ofNat 32 (x / 8 * 2 ^ 7 + x % 8 * 2) else BitVec.ofNat 32 x)
  else if f = Fmt.sx3 then (if p = 0 then BitVec.ofNat 32 (x / 2 * 2 ^ 7 + x % 2 * 2) else BitVec.ofNat 32 x)
  else if f = Fmt.sx8 then BitVec.ofNat 32 x
  else laneOut f x

/-- A lane with a plane's field written into it, every other bit kept (08 R161). -/
def joinField (f : BitVec 4) (p : BitVec 2) (w : BitVec 32) (x : Nat) : BitVec 32 :=
  (w &&& ~~~(planeMask f p)) ||| (fieldBits f p x &&& planeMask f p)

/-- The plane image of lanes: fields of the plane packed from bit 0 (03 R61; 08 R161). -/
def planeImage (f : BitVec 4) (p : BitVec 2) (n : Nat) (v : VReg) : VReg :=
  if f = Fmt.fp64 then v else
  let k := planeSpan p n
  BitVec.ofNat 4096 (packNat (planeWidth f p) (fun x => planeField f p (lane v (k * x))) (128 / k))
/-- The lanes of `d` with a plane image joined into them (08 R161). -/
def planeJoin (f : BitVec 4) (p : BitVec 2) (n : Nat) (img d : VReg) : VReg :=
  if f = Fmt.fp64 then img else
  let w := planeWidth f p
  ofLanes (fun i => let x := i / planeSpan p n; joinField f p (lane d i) (bits img.toNat (w * x + w - 1) (w * x)))

/-! ## Zero-run chunks (08 R169, R170) -/

/-- The width code of a chunk for a format (08 R170). -/
def chunkCode (f : BitVec 4) : Nat :=
  if f = Fmt.fp32 ∨ f = Fmt.i32 then 0 else if f = Fmt.bf16 ∨ f = Fmt.fp16 ∨ f = Fmt.i16 then 1 else 2
/-- Bytes of an element by width code (08 R169). -/
def chunkBytes (w : Nat) : Nat := if w = 0 then 4 else if w = 1 then 2 else 1
/-- Lines of a chunk of `nz` elements (08 R169). -/
def chunkLines (nz w : Nat) : Nat := ceilDiv (32 + nz * chunkBytes w) 128

/-- The chunk of 128 elements, zero-filled to 1,024 bytes (08 R169, R170). -/
def chunkOf (w : Nat) (els : List Nat) : List Byte :=
  let b := chunkBytes w
  let xs := els.map (fun x => x % 2 ^ (8 * b))
  let nz := xs.filter (· ≠ 0)
  let map := packNat 1 (fun i => if xs.getD i 0 = 0 then 0 else 1) 128
  let head := toBytes 16 map ++ [BitVec.ofNat 8 w, 0] ++ toBytes 2 (chunkLines nz.length w) ++ List.replicate 12 0
  let data := nz.flatMap (toBytes b)
  (head ++ data ++ List.replicate 1024 0).take 1024

/-- Whether a chunk's header is malformed (08 R169). -/
def chunkBad (bs : List Byte) : Bool :=
  let w := field bs 16 1
  2 < w || field bs 17 1 != 0 || !zeroBytes bs 20 12 || field bs 18 2 != chunkLines (popcountNat (field bs 0 16)) w
where
  popcountNat (x : Nat) : Nat := ((List.range 128).filter (fun i => bit x i)).length

/-- The elements of a chunk: nonzero ones taken in order, zero where MAP is 0 (08 R170). -/
def chunkExpand (map w : Nat) : Nat → List Byte → List (BitVec 32)
  | 0, _ => []
  | k + 1, data =>
    if bit map (127 - k) then BitVec.ofNat 32 (ofBytes (data.take (chunkBytes w))) :: chunkExpand map w k (data.drop (chunkBytes w))
    else 0 :: chunkExpand map w k data
/-- The 128 lanes of a chunk (08 R170). -/
def chunkLanes (bs : List Byte) : List (BitVec 32) := chunkExpand (field bs 0 16) (field bs 16 1) 128 (bs.drop 32)

end Sys2Proof.Machine
end

