-- ==== Sys2Proof/Machine/Vector.lean ====
section
/-!
DEFINITION. Meanings of the vector families of lane arithmetic, logic, compares, selects, moves, reductions, indices and hashes (08 R150-R157,
R163-R165). Each leaves its results in flight, written at the latency of R147.
-/

namespace Sys2Proof.Machine

/-- A slot whose only effect is one vector result. -/
def vecOp (i : Instr) (h : Hdr) (L : Nat) (d : BitVec 5) (s : State) (f : State → VReg) : Res :=
  slotOp i h s (fun s => .next (s.result L [s.wV d (f s)]))

/-- A latency with its FP64 value in brackets (08 R147). -/
def latOf (f : BitVec 4) (n dbl : Nat) : Nat := if f = Fmt.fp64 then dbl else n

/-- `finish` of R150 for integers: clamp or wrap (08 R150). -/
def finishInt (f : BitVec 4) (sat : Bool) (x : Int) : Nat :=
  (if sat then clampInt (intLo f) (intHi f) x else x) % 2 ^ fmtBits f |>.toNat
/-- `finish` of R150 for floating point: one rounding (08 R150). -/
def finishFp (f : BitVec 4) (rz : Bool) (x : FVal) : Nat := (fpFmt f).round (if rz then .tz else .ne) 0 x
/-- Element `i` as a signed integer (03 R57). -/
def elemInt (f : BitVec 4) (v : VReg) (i : Nat) : Int := sext (fmtBits f) (elem f v i)
/-- Element `i` as a floating-point value (03 R54). -/
def elemFp (f : BitVec 4) (v : VReg) (i : Nat) : FVal := (fpFmt f).decode (elem f v i)

/-- The elementwise operations of R150 on vA, vB and the old vD. -/
def lanewise (f : BitVec 4) (x : Bool) (a b c : VReg) (onInt : Int → Int → Int → Int) (onFp : FVal → FVal → FVal → FVal) : VReg :=
  ofElems f (fun i =>
    if Fmt.int f then finishInt f x (onInt (elemInt f a i) (elemInt f b i) (elemInt f c i))
    else finishFp f x (onFp (elemFp f a i) (elemFp f b i) (elemFp f c i)))

/-- VADD (08 R150). -/
def execVadd (h : Hdr) (d a b : BitVec 5) (fmt : BitVec 4) (x : Bool) (s : State) : Res :=
  vecOp (.vadd h d a b fmt x) h (latOf fmt 2 3) d s (fun s =>
    lanewise fmt x (s.rv a) (s.rv b) (s.rv d) (fun p q _ => p + q) (fun p q _ => FVal.add false p q))
/-- VSUB (08 R150). -/
def execVsub (h : Hdr) (d a b : BitVec 5) (fmt : BitVec 4) (x : Bool) (s : State) : Res :=
  vecOp (.vsub h d a b fmt x) h (latOf fmt 2 3) d s (fun s =>
    lanewise fmt x (s.rv a) (s.rv b) (s.rv d) (fun p q _ => p - q) (fun p q _ => FVal.sub false p q))
/-- VMUL (08 R150). -/
def execVmul (h : Hdr) (d a b : BitVec 5) (fmt : BitVec 4) (x : Bool) (s : State) : Res :=
  vecOp (.vmul h d a b fmt x) h (latOf fmt 4 5) d s (fun s =>
    lanewise fmt x (s.rv a) (s.rv b) (s.rv d) (fun p q _ => p * q) (fun p q _ => FVal.mul p q))
/-- VFMA (08 R150). -/
def execVfma (h : Hdr) (d a b : BitVec 5) (fmt : BitVec 4) (x : Bool) (s : State) : Res :=
  vecOp (.vfma h d a b fmt x) h (latOf fmt 4 5) d s (fun s =>
    lanewise fmt x (s.rv a) (s.rv b) (s.rv d) (fun p q r => p * q + r) (fun p q r => FVal.fma false p q r))
/-- VDIV: an integer quotient rounds toward zero and is 0 for a zero divisor (08 R150). -/
def execVdiv (h : Hdr) (d a b : BitVec 5) (fmt : BitVec 4) (x : Bool) (s : State) : Res :=
  vecOp (.vdiv h d a b fmt x) h (latOf fmt 12 20) d s (fun s =>
    lanewise fmt x (s.rv a) (s.rv b) (s.rv d) (fun p q _ => p.tdiv q) (fun p q _ => FVal.div p q))
/-- VMIN (08 R150). -/
def execVmin (h : Hdr) (d a b : BitVec 5) (fmt : BitVec 4) (s : State) : Res :=
  vecOp (.vmin h d a b fmt) h 2 d s (fun s =>
    lanewise fmt false (s.rv a) (s.rv b) (s.rv d) (fun p q _ => if q < p then q else p) (fun p q _ => FVal.min p q))
/-- VMAX (08 R150). -/
def execVmax (h : Hdr) (d a b : BitVec 5) (fmt : BitVec 4) (s : State) : Res :=
  vecOp (.vmax h d a b fmt) h 2 d s (fun s =>
    lanewise fmt false (s.rv a) (s.rv b) (s.rv d) (fun p q _ => if p < q then q else p) (fun p q _ => FVal.max p q))
/-- VABS (08 R150). -/
def execVabs (h : Hdr) (d a : BitVec 5) (fmt : BitVec 4) (s : State) : Res :=
  vecOp (.vabs h d a fmt) h 2 d s (fun s =>
    lanewise fmt false (s.rv a) (s.rv a) (s.rv d) (fun p _ _ => (p.natAbs : Int)) (fun p _ _ => p.abs))
/-- VNEG (08 R150). -/
def execVneg (h : Hdr) (d a : BitVec 5) (fmt : BitVec 4) (s : State) : Res :=
  vecOp (.vneg h d a fmt) h 2 d s (fun s =>
    lanewise fmt false (s.rv a) (s.rv a) (s.rv d) (fun p _ _ => -p) (fun p _ _ => p.neg))

/-- VAND (08 R151). -/
def execVand (h : Hdr) (d a b : BitVec 5) (s : State) : Res := vecOp (.vand h d a b) h 2 d s (fun s => s.rv a &&& s.rv b)
/-- VOR (08 R151). -/
def execVor (h : Hdr) (d a b : BitVec 5) (s : State) : Res := vecOp (.vor h d a b) h 2 d s (fun s => s.rv a ||| s.rv b)
/-- VXOR (08 R151). -/
def execVxor (h : Hdr) (d a b : BitVec 5) (s : State) : Res := vecOp (.vxor h d a b) h 2 d s (fun s => s.rv a ^^^ s.rv b)
/-- VANDN (08 R151). -/
def execVandn (h : Hdr) (d a b : BitVec 5) (s : State) : Res := vecOp (.vandn h d a b) h 2 d s (fun s => s.rv a &&& ~~~(s.rv b))
/-- VORN (08 R151). -/
def execVorn (h : Hdr) (d a b : BitVec 5) (s : State) : Res := vecOp (.vorn h d a b) h 2 d s (fun s => s.rv a ||| ~~~(s.rv b))
/-- VXNOR (08 R151). -/
def execVxnor (h : Hdr) (d a b : BitVec 5) (s : State) : Res := vecOp (.vxnor h d a b) h 2 d s (fun s => ~~~(s.rv a ^^^ s.rv b))

/-- A lane shift by vB's low five bits or by an immediate count (08 R151). -/
def laneShift (s : State) (a b : BitVec 5) (x : Bool) (f : BitVec 32 → Nat → BitVec 32) : VReg :=
  let va := s.rv a
  let vb := s.rv b
  ofLanes (fun i => f (lane va i) (if x then b.toNat else (lane vb i).toNat % 32))
/-- VSHL (08 R151). -/
def execVshl (h : Hdr) (d a b : BitVec 5) (x : Bool) (s : State) : Res :=
  vecOp (.vshl h d a b x) h 2 d s (fun s => laneShift s a b x (fun w k => w <<< k))
/-- VSHR (08 R151). -/
def execVshr (h : Hdr) (d a b : BitVec 5) (x : Bool) (s : State) : Res :=
  vecOp (.vshr h d a b x) h 2 d s (fun s => laneShift s a b x (fun w k => w >>> k))
/-- VSAR (08 R151). -/
def execVsar (h : Hdr) (d a b : BitVec 5) (x : Bool) (s : State) : Res :=
  vecOp (.vsar h d a b x) h 2 d s (fun s => laneShift s a b x (fun w k => w.sshiftRight k))

/-- VCMP's condition C on element `i` (08 R152). -/
def vcmpElem (c : Nat) (f : BitVec 4) (a b : VReg) (i : Nat) : Bool :=
  if Fmt.int f then
    let x := elemInt f a i
    let y := elemInt f b i
    if c = 0 then decide (x = y) else if c = 1 then decide (x < y) else if c = 2 then decide (x ≤ y) else decide (x ≠ y)
  else
    let x := elemFp f a i
    let y := elemFp f b i
    if c = 0 then fpCond 0 x y else if c = 1 then fpCond 2 x y else if c = 2 then fpCond 3 x y else fpCond 6 x y
/-- VCMP (08 R152). -/
def execVcmp (h : Hdr) (c1 : Bool) (d : BitVec 4) (a b : BitVec 5) (fmt : BitVec 4) (x : Bool) (s : State) : Res :=
  slotOp (.vcmp h c1 d a b fmt x) h s (fun s =>
    let va := s.rv a
    let vb := s.rv b
    let c := 2 * c1.toNat + x.toNat
    .next (s.result 2 [s.wM d (ofMask (fun i => vcmpElem c fmt va vb (if fmt = Fmt.fp64 then i / 2 else i)))]))

/-- VSEL (08 R153). -/
def execVsel (h : Hdr) (d a : BitVec 5) (mk fmt : BitVec 4) (s : State) : Res :=
  vecOp (.vsel h d a mk fmt) h 2 d s (fun s =>
    let m := s.rm mk
    let va := s.rv a
    let vd := s.rv d
    ofLanes (fun i => if m.getLsbD (if fmt = Fmt.fp64 then 2 * (i / 2) else i) then lane va i else lane vd i))

/-- VMASK.POPC (08 R154). -/
def execVmaskPopc (h : Hdr) (d : BitVec 5) (a : BitVec 4) (s : State) : Res :=
  slotOp (.vmaskPopc h d a) h s (fun s =>
    .next (s.result 2 [s.wS d (BitVec.ofNat 64 ((List.range 128).filter (fun i => (s.rm a).getLsbD i)).length)]))
/-- VMASK.FFS (08 R154). -/
def execVmaskFfs (h : Hdr) (d : BitVec 5) (a : BitVec 4) (s : State) : Res :=
  slotOp (.vmaskFfs h d a) h s (fun s =>
    .next (s.result 2 [s.wS d (BitVec.ofNat 64 (((List.range 128).find? (fun i => (s.rm a).getLsbD i)).getD 128))]))
/-- VMASK.TOV (08 R154). -/
def execVmaskTov (h : Hdr) (d : BitVec 5) (a : BitVec 4) (s : State) : Res :=
  vecOp (.vmaskTov h d a) h 2 d s (fun s => let m := s.rm a; ofLanes (fun i => if m.getLsbD i then BitVec.allOnes 32 else 0))
/-- VMASK.FROMV (08 R154). -/
def execVmaskFromv (h : Hdr) (d : BitVec 4) (a : BitVec 5) (s : State) : Res :=
  slotOp (.vmaskFromv h d a) h s (fun s => let v := s.rv a; .next (s.result 2 [s.wM d (ofMask (fun i => v.getLsbD (32 * i + 31)))]))
/-- VMASK.FROMP (08 R154). -/
def execVmaskFromp (h : Hdr) (d a : BitVec 4) (s : State) : Res :=
  slotOp (.vmaskFromp h d a) h s (fun s => .next (s.result 2 [s.wM d (if s.rf a then BitVec.allOnes 128 else 0)]))

/-- A register whose lane or pair `i` is lane or pair `g i` of `v` (08 R155). -/
def moveElems (f : BitVec 4) (v : VReg) (g : Nat → Nat) : VReg :=
  if f = Fmt.fp64 then ofLanes64 (fun j => lane64 v (g j)) else ofLanes (fun i => lane v (g i))

/-- VSWZ (08 R155). -/
def execVswz (h : Hdr) (d a c : BitVec 5) (fmt : BitVec 4) (s : State) : Res :=
  vecOp (.vswz h d a c fmt) h 2 d s (fun s => moveElems fmt (s.rv a) (fun i => i ^^^ c.toNat))
/-- VPERM (08 R155). -/
def execVperm (h : Hdr) (d a b : BitVec 5) (fmt : BitVec 4) (x : Bool) (s : State) : Res :=
  vecOp (.vperm h d a b fmt x) h 4 d s (fun s =>
    let va := s.rv a
    let vb := s.rv b
    if fmt = Fmt.fp64 then
      ofLanes64 (fun j => let t := (lane vb (2 * j)).toNat; if x && bit t 6 then 0 else lane64 va (t % 64))
    else ofLanes (fun i => let t := (lane vb i).toNat; if x && bit t 7 then 0 else lane va (t % 128)))
/-- VBC from a scalar (08 R155). -/
def execVbc (h : Hdr) (d a : BitVec 5) (fmt : BitVec 4) (s : State) : Res :=
  vecOp (.vbc h d a fmt) h 2 d s (fun s =>
    let x := s.rs a
    if fmt = Fmt.fp64 then ofLanes64 (fun _ => x) else ofLanes (fun _ => x.setWidth 32))
/-- VBC from a lane (08 R155). -/
def execVbcLane (h : Hdr) (d a b : BitVec 5) (fmt : BitVec 4) (s : State) : Res :=
  vecOp (.vbcLane h d a b fmt) h 2 d s (fun s =>
    let n := (s.rs b).toNat
    moveElems fmt (s.rv a) (fun _ => if fmt = Fmt.fp64 then n % 64 else n % 128))
/-- XTRN (08 R155). -/
def execXtrn (h : Hdr) (d a : BitVec 5) (cols : BitVec 3) (fmt : BitVec 4) (s : State) : Res :=
  vecOp (.xtrn h d a cols fmt) h 4 d s (fun s =>
    let n := elemCount fmt
    let c := 2 ^ cols.toNat
    let r := n / c
    moveElems fmt (s.rv a) (fun i => i % r * c + i / r))

/-! ## Reductions (07 R142; 08 R156) -/

/-- One level of the pairwise tree. -/
def pairUp {α : Type} (op : α → α → α) : List α → List α
  | a :: b :: r => op a b :: pairUp op r
  | l => l
/-- The fixed pairwise tree of R142; `fuel` bounds the levels. -/
def treeFold {α : Type} (op : α → α → α) : Nat → List α → List α
  | 0, l => l
  | k + 1, l => treeFold op k (pairUp op l)

/-- The reduction operations. -/
inductive Red where
  | sum | max | min
  deriving DecidableEq, Repr

/-- The reduction of a register's active integer elements (07 R142). -/
def reduceInt (f : BitVec 4) (o : Red) (m : Mask) (v : VReg) : Word :=
  let ident : Int := match o with
    | .sum => 0
    | .max => intLo f
    | .min => intHi f
  let op : Int → Int → Int := match o with
    | .sum => (· + ·)
    | .max => fun x y => if x < y then y else x
    | .min => fun x y => if y < x then y else x
  let xs := (List.range 128).map (fun i => if m.getLsbD i then elemInt f v i else ident)
  wordOf ((treeFold op 7 xs).headD 0)
/-- The reduction of a register's active floating-point elements; every node rounds (07 R142). -/
def reduceFp (f : BitVec 4) (o : Red) (m : Mask) (v : VReg) : Word :=
  let F := fpFmt f
  let ident : Nat := match o with
    | .sum => F.signed true 0
    | .max => F.infBits true
    | .min => F.infBits false
  let op : Nat → Nat → Nat := fun x y => match o with
    | .sum => F.rne (FVal.add false (F.decode x) (F.decode y))
    | .max => F.rne (FVal.max (F.decode x) (F.decode y))
    | .min => F.rne (FVal.min (F.decode x) (F.decode y))
  let xs := (List.range (elemCount f)).map (fun i => if activeElem f m i then elem f v i else ident)
  BitVec.ofNat 64 ((treeFold op 7 xs).headD 0)
/-- VRED (08 R156). -/
def vredOp (i : Instr) (h : Hdr) (o : Red) (d a : BitVec 5) (mk fmt : BitVec 4) (s : State) : Res :=
  slotOp i h s (fun s =>
    let m := s.rm mk
    let v := s.rv a
    .next (s.result 8 [s.wS d (if Fmt.int fmt then reduceInt fmt o m v else reduceFp fmt o m v)]))
/-- VRSUM (08 R156). -/
def execVrsum (h : Hdr) (d a : BitVec 5) (mk fmt : BitVec 4) (s : State) : Res := vredOp (.vrsum h d a mk fmt) h .sum d a mk fmt s
/-- VRMAX (08 R156). -/
def execVrmax (h : Hdr) (d a : BitVec 5) (mk fmt : BitVec 4) (s : State) : Res := vredOp (.vrmax h d a mk fmt) h .max d a mk fmt s
/-- VRMIN (08 R156). -/
def execVrmin (h : Hdr) (d a : BitVec 5) (mk fmt : BitVec 4) (s : State) : Res := vredOp (.vrmin h d a mk fmt) h .min d a mk fmt s

/-! ## Dot products (07 R143; 08 R157) -/

/-- The exact sum of values: the first, then each next (07 R132 for its sign when it is zero). -/
def sumVals : List FVal → FVal
  | [] => .fin false 0 0
  | x :: r => r.foldl (FVal.add false) x

/-- One lane of VDOT (08 R157). -/
def dotLane (f : BitVec 4) (z : Bool) (a b acc : BitVec 32) : BitVec 32 :=
  let w := fmtBits f
  let ks := List.range (32 / w)
  let el := fun (x : BitVec 32) (k : Nat) => bits x.toNat (w * k + w - 1) (w * k)
  if isInt f then
    let p := (ks.map (fun k => sext w (el a k) * sext w (el b k))).sum
    BitVec.ofInt 32 (clampInt (intLo Fmt.i32) (intHi Fmt.i32) ((if z then 0 else sext 32 acc.toNat) + p))
  else
    let p := sumVals (ks.map (fun k => FVal.mul ((fpFmt f).decode (el a k)) ((fpFmt f).decode (el b k))))
    BitVec.ofNat 32 (f32.rne (FVal.add false (if z then .fin false 0 0 else f32.decode acc.toNat) p))
/-- VDOT (08 R157). -/
def execVdot (h : Hdr) (d a b : BitVec 5) (fmt : BitVec 4) (x : Bool) (s : State) : Res :=
  vecOp (.vdot h d a b fmt x) h 6 d s (fun s =>
    let va := s.rv a
    let vb := s.rv b
    let vd := s.rv d
    ofLanes (fun i => dotLane fmt x (lane va i) (lane vb i) (lane vd i)))

/-! ## Indices and keyed random bits (08 R163, R164) -/

/-- VIDX (08 R163). -/
def execVidx (h : Hdr) (d a b : BitVec 5) (fmt : BitVec 4) (s : State) : Res :=
  vecOp (.vidx h d a b fmt) h 2 d s (fun s =>
    let x := s.rs a
    let y := s.rs b
    if fmt = Fmt.fp64 then ofLanes64 (fun j => x + BitVec.ofNat 64 j * y) else ofLanes (fun i => (x + BitVec.ofNat 64 i * y).setWidth 32))
/-- VHASH; with X the index comes from a vector register (08 R164). -/
def execVhash (h : Hdr) (d a b : BitVec 5) (fmt : BitVec 4) (x : Bool) (s : State) : Res :=
  vecOp (.vhash h d a b fmt x) h 6 d s (fun s =>
    let seed := s.regs.c.seed.toNat
    let tid := wbits (s.rs a) 47 16
    let str := wbits (s.rs a) 15 0
    let vb := s.rv b
    let sb := (s.rs b).toNat
    if fmt = Fmt.fp64 then
      ofLanes64 (fun j => BitVec.ofNat 64 (mixer seed tid (if x then (lane64 vb j).toNat % 2 ^ 48 else (sb + j) % 2 ^ 48) str))
    else ofLanes (fun i => BitVec.ofNat 32 (mixer seed tid (if x then (lane vb i).toNat else (sb + i) % 2 ^ 48) str / 2 ^ 32)))

/-! ## The optimiser update (08 R165) -/

/-- rne32 of R165: one rounding to FP32. -/
def r32 (x : FVal) : FVal := f32.decode (f32.rne x)
/-- fma32 of R165. -/
def fma32 (a b c : FVal) : FVal := r32 (FVal.fma false a b c)

/-- One lane of VUPD: the new weight and moments (08 R165). -/
def updLane (mom : Bool) (lr wd b1 b2 eps bc1 bc2 g w m q : FVal) : FVal × FVal × FVal :=
  let one := FVal.fin false 1 0
  if mom then
    let m := fma32 b1 m (fma32 wd w g)
    (fma32 lr.neg m w, m, q)
  else
    let m := fma32 b1 m (r32 (FVal.mul (r32 (FVal.sub false one b1)) g))
    let q := fma32 b2 q (r32 (FVal.mul (r32 (FVal.sub false one b2)) (r32 (FVal.mul g g))))
    let den := r32 (FVal.add false (r32 (FVal.sqrt (r32 (FVal.mul q bc2)))) eps)
    let u := r32 (FVal.div (r32 (FVal.mul m bc1)) den)
    (fma32 lr.neg (r32 (FVal.add false u (r32 (FVal.mul wd w)))) w, m, q)

/-- VUPD (08 R165). -/
def execVupd (h : Hdr) (d a b : BitVec 5) (fmt : BitVec 4) (x : Bool) (s : State) : Res :=
  slotOp (.vupd h d a b fmt x) h s (fun s =>
    let lo := fun (r : BitVec 5) => f32.decode (wbits (s.rs r) 31 0)
    let hi := fun (r : BitVec 5) => f32.decode (wbits (s.rs r) 63 32)
    let vg := s.rv a
    let vw := s.rv d
    let vm := s.rv (d + 1)
    let vq := s.rv (d + 2)
    let ls := (List.range 128).map (fun i =>
      updLane x (lo b) (hi b) (lo (b + 1)) (hi (b + 1)) (lo (b + 2)) (hi (b + 2)) (lo (b + 3))
        (laneVal fmt (lane vg i)) (f32.decode (lane vw i).toNat) (f32.decode (lane vm i).toNat) (f32.decode (lane vq i).toNat))
    let out := fun (g : FVal × FVal × FVal → FVal) => ofLaneList (ls.map (fun l => BitVec.ofNat 32 (f32.rne (g l))))
    .next (s.result 24 ([s.wV d (out (·.1)), s.wV (d + 1) (out (·.2.1))] ++ if x then [] else [s.wV (d + 2) (out (·.2.2))])))

end Sys2Proof.Machine
end

