-- ==== Sys2Proof/Machine/Convert.lean ====
section
/-!
DEFINITION. Meanings of the conversion families (08 R158-R162) and of the transform unit (07 R140, R141; 08 R166, R170).
-/

namespace Sys2Proof.Machine

/-- VCVT: FP32 lanes to another format (08 R159). -/
def vcvtReg (f : BitVec 4) (mode : Rnd) (v d : VReg) : VReg :=
  if f = Fmt.fp64 then ofLanes64 (fun j => BitVec.ofNat 64 (f64.rne (f32.decode (lane v (2 * j)).toNat)))
  else ofLanes (fun e => (valLane f mode (rbLane d e) (f32.decode (lane v e).toNat)).1)
/-- VCVF: lanes of a format to FP32 (08 R159). -/
def vcvfReg (f : BitVec 4) (mode : Rnd) (v d : VReg) : VReg :=
  if f = Fmt.fp64 then
    ofLanes (fun e => if e % 2 = 0 then BitVec.ofNat 32 (f32.round mode (rbLane d e) (f64.decode (lane64 v (e / 2)).toNat)) else 0)
  else ofLanes (fun e => BitVec.ofNat 32 (f32.round mode (rbLane d e) (laneVal f (lane v e))))

/-- VCVT (08 R159). -/
def execVcvt (h : Hdr) (d a rnd : BitVec 5) (fmt : BitVec 4) (s : State) : Res :=
  vecOp (.vcvt h d a rnd fmt) h 4 d s (fun s => vcvtReg fmt (Rnd.ofCode rnd) (s.rv a) (s.rv d))
/-- VCVF (08 R159). -/
def execVcvf (h : Hdr) (d a rnd : BitVec 5) (fmt : BitVec 4) (s : State) : Res :=
  vecOp (.vcvf h d a rnd fmt) h 4 d s (fun s => vcvfReg fmt (Rnd.ofCode rnd) (s.rv a) (s.rv d))

/-- FP32 lanes with their random bits (08 R158). -/
def fp32Lanes (v d : VReg) : List (FVal × Nat) := (List.range 128).map (fun e => (f32.decode (lane v e).toNat, rbLane d e))
/-- The block size that a modifier selects (08 R160). -/
def blockSize (b32 : Bool) : Nat := if b32 then 32 else 16

/-- VSXP (08 R160). -/
def execVsxp (h : Hdr) (d a rnd : BitVec 5) (fmt : BitVec 4) (x : Bool) (s : State) : Res :=
  vecOp (.vsxp h d a rnd fmt x) h 6 d s (fun s =>
    ofLaneList (sxLanes fmt (Rnd.ofCode rnd) (blockSize x) (fp32Lanes (s.rv a) (s.rv d))).1)

/-- VPLN split (08 R161). -/
def execVplnSplit (h : Hdr) (d a : BitVec 5) (b32 : Bool) (pl : BitVec 2) (fmt : BitVec 4) (s : State) : Res :=
  vecOp (.vplnSplit h d a b32 pl fmt) h 4 d s (fun s => planeImage fmt pl (blockSize b32) (s.rv a))
/-- VPLN join (08 R161). -/
def execVplnJoin (h : Hdr) (d a : BitVec 5) (b32 : Bool) (pl : BitVec 2) (fmt : BitVec 4) (s : State) : Res :=
  vecOp (.vplnJoin h d a b32 pl fmt) h 4 d s (fun s => planeJoin fmt pl (blockSize b32) (s.rv a) (s.rv d))

/-- VRND (08 R162). -/
def execVrnd (h : Hdr) (d a rnd : BitVec 5) (fmt : BitVec 4) (s : State) : Res :=
  vecOp (.vrnd h d a rnd fmt) h 4 d s (fun s =>
    let v := s.rv a
    let vd := s.rv d
    ofElems fmt (fun e => (fpFmt fmt).rne ((elemFp fmt v e).integral (Rnd.ofCode rnd) (rbLane vd e))))

/-! ## Transform slots (08 R166) -/

/-- One transform lane: widened exactly, computed in FP32, rounded once more into FMT (08 R166). -/
def transformLane (fn : Config.Fn) (f : BitVec 4) (w : BitVec 32) : BitVec 32 :=
  let r := transformFn fn (laneVal f w)
  if f = Fmt.fp32 then BitVec.ofNat 32 r else (valLane f .ne 0 (f32.decode r)).1
/-- A transform slot (08 R166). -/
def xfnOp (i : Instr) (h : Hdr) (fn : Config.Fn) (L : Nat) (d a : BitVec 5) (fmt : BitVec 4) (s : State) : Res :=
  vecOp i h L d s (fun s => let v := s.rv a; ofLanes (fun e => transformLane fn fmt (lane v e)))

/-- XSIN (08 R166). -/
def execXsin (h : Hdr) (d a : BitVec 5) (fmt : BitVec 4) (s : State) : Res := xfnOp (.xsin h d a fmt) h .sin 16 d a fmt s
/-- XCOS (08 R166). -/
def execXcos (h : Hdr) (d a : BitVec 5) (fmt : BitVec 4) (s : State) : Res := xfnOp (.xcos h d a fmt) h .cos 16 d a fmt s
/-- XEX2 (08 R166). -/
def execXex2 (h : Hdr) (d a : BitVec 5) (fmt : BitVec 4) (s : State) : Res := xfnOp (.xex2 h d a fmt) h .exp2 12 d a fmt s
/-- XLG2 (08 R166). -/
def execXlg2 (h : Hdr) (d a : BitVec 5) (fmt : BitVec 4) (s : State) : Res := xfnOp (.xlg2 h d a fmt) h .log2 12 d a fmt s
/-- XRCP (08 R166). -/
def execXrcp (h : Hdr) (d a : BitVec 5) (fmt : BitVec 4) (s : State) : Res := xfnOp (.xrcp h d a fmt) h .rcp 10 d a fmt s
/-- XRSQ (08 R166). -/
def execXrsq (h : Hdr) (d a : BitVec 5) (fmt : BitVec 4) (s : State) : Res := xfnOp (.xrsq h d a fmt) h .rsqrt 10 d a fmt s
/-- XTANH (08 R166). -/
def execXtanh (h : Hdr) (d a : BitVec 5) (fmt : BitVec 4) (s : State) : Res := xfnOp (.xtanh h d a fmt) h .tanh 14 d a fmt s
/-- XSIGM (08 R166). -/
def execXsigm (h : Hdr) (d a : BitVec 5) (fmt : BitVec 4) (s : State) : Res := xfnOp (.xsigm h d a fmt) h .sigmoid 14 d a fmt s

/-! ## Zero-run chunks in registers (08 R170) -/

/-- XCMP (08 R170). -/
def execXcmp (h : Hdr) (d a : BitVec 5) (fmt : BitVec 4) (s : State) : Res :=
  slotOp (.xcmp h d a fmt) h s (fun s =>
    let c := chunkOf (chunkCode fmt) ((lanesOf (s.rv a)).map (·.toNat))
    .next (s.result 8 [s.wV d (BitVec.ofNat 4096 (ofBytes (c.take 512))), s.wV (d + 1) (BitVec.ofNat 4096 (ofBytes (c.drop 512)))]))
/-- XEXD: a malformed chunk traps at issue (08 R170). It lies in two registers and has no address: %tdet1 shows 0, a choice (22 R369, log 88). -/
def execXexd (h : Hdr) (d a : BitVec 5) (s : State) : Res :=
  slotOp (.xexd h d a) h s (fun s =>
    let c := toBytes 512 (s.rv a).toNat ++ toBytes 512 (s.rv (a + 1)).toNat
    if chunkBad c then trapAt s 0x46 else .next (s.result 8 [s.wV d (ofLaneList (chunkLanes c))]))

end Sys2Proof.Machine
end

