-- ==== Sys2Proof/Machine/LoadStore.lean ====
section
/-!
DEFINITION. Meanings of the load/store families (04 R88-R97). A load performs at issue and lands at its class's distance once its data
has arrived; a store is withheld to the next checkpoint with the places that its checks at issue gave it.
-/

namespace Sys2Proof.Machine

/-- The class of outstanding requests of a space (17 R307). -/
def spaceClass : Space → Nat
  | .p => 0
  | .v => 1
  | _ => 2

/-- The trap that an access fault gives at issue (04 R98). -/
def faultRec (s : State) (f : AFault) : TrapRec := s.slotTrap f.cause 0 f.d1 f.d2 f.d3
/-- The wait of a slot for bytes at a fabric address (17 R408). -/
def farHold (f : AFault) : Hold := { asks := some (f.d1.toNat, f.d2.toNat) }
/-- A fault of what a slot reads before it acts: bytes that have yet to come are awaited, any other cause is raised (04 R98; 17 R408). -/
def faultAt (s : State) (f : AFault) : Res := if f.cause = 0 then .next (s.hold (farHold f)) else .next (s.raise (faultRec s f))
/-- A cause found while a slot reads ahead of its effect: it is raised, or the bytes that have yet to come are awaited (04 R98; 17 R408). -/
def raiseOrWait (s : State) (t : TrapRec) : Res :=
  if t.cause = 0 then .next (s.hold { asks := some (t.det.d1.toNat, t.det.d2.toNat) }) else .next (s.raise t)
/-- An access fault of lane `n` of a vector access (22 R369: the lowest failing lane). -/
def AFault.atLane (f : AFault) (n : Nat) : AFault :=
  if f.cause = 0x20 ∨ f.cause = 0x21 ∨ f.cause = 0x22 then { f with d2 := f.d2 + BitVec.ofNat 64 n } else f
/-- Misalignment (04 R88). -/
def misaligned (ea : BitVec 64) : AFault := { cause := 0x24, d1 := ea }

/-- Resolve an access of consecutive bytes: alignment, then its space's checks of every byte (04 R88). -/
def resolveAccess (s : State) (acc : Acc) (sp : Space) (ea : BitVec 64) (n al : Nat) : Except AFault (List (Loc × Nat) × State) :=
  if ea.toNat % al ≠ 0 then .error (misaligned ea) else
  match resolveRange s s.who acc sp (n / 128 + 2) ea n with
  | .error f => .error (f.atLane (if n = 512 then (f.d1 - ea).toNat / 4 % 128 else 0))
  | .ok r => .ok r

/-- Resolve the lanes of a gather or scatter, from lane `i` up: 4 bytes each (04 R93). -/
def resolveLanes (s : State) (acc : Acc) (sp : Space) (addr : Nat → BitVec 64) : Nat → Nat → Except AFault (List (Loc × Nat) × State)
  | 0, _ => .ok ([], s)
  | k + 1, i =>
    let ea := addr i
    if ea.toNat % 4 ≠ 0 then .error (misaligned ea) else
    match resolve s s.who acc sp ea 4 with
    | .error f => .error (f.atLane i)
    | .ok (l, s') =>
      match resolveLanes s' acc sp addr k (i + 1) with
      | .error f => .error f
      | .ok (r, s'') => .ok ((l, 4) :: r, s'')

/-- Bytes of lines that an access requests beyond the L1 and the pad (14 R261). -/
def lineTraffic (s : State) (a : Agent) (segs : List (Loc × Nat)) : Nat :=
  let far := segs.filter (fun x => x.1.space != .p && !x.1.fabric && !x.1.host
    && !(x.1.space == .m && a.onCore && s.l1Hit a.core x.1 x.2))
  128 * (far.map (fun x => (x.1.space == .v, lineKey x.1))).dedup.length
/-- Bytes of lines that a store requests: those of its lines that it writes at a slice, a vault or a stack; a space-m store of a core requests none, its L1
allocates the line and fetches nothing (14 R261; 17 R299). -/
def storeTraffic (s : State) (a : Agent) (ps : List Piece) : Nat :=
  lineTraffic s a ((ps.filter (fun p => !(p.loc.space == .m && a.onCore))).map (fun p => (p.loc, p.bytes.length)))
/-- Count line traffic towards a context's label (14 R261). -/
def addTraffic (s : State) (a : Agent) (n : Nat) : State :=
  s.modCtx a (fun c => if c.runs < 4 then { c with by_ := c.by_ + n } else c)

/-- The offsets in a load's bytes at which its segments lie. -/
def segOffsets : Nat → List (Loc × Nat) → List (Loc × Nat × Nat)
  | _, [] => []
  | o, (l, n) :: r => (l, n, o) :: segOffsets (o + n) r

/-- Issue a load of resolved segments: it reads at issue (04 R92), its data arrives after its latency and the `walk` cc that its translation took, and it
lands at distance max(%lc, 1) (R90). Bytes at a fabric address are asked for; those that this agent's own writes hold that have not performed are taken from
them (18 R316, R320). `va` gives the address of each byte. A load of bytes that this agent has released an atomic or an engine record to waits until that has performed (18 R320). -/
def issueLoad (s : State) (lc : BitVec 3) (sp : Space) (va : Nat → BitVec 64) (segs : List (Loc × Nat)) (shape : LoadShape) (walk : Nat := 0) : Res :=
  if segs.any (fun x => ownUnknown s s.who x.1 x.2) then .next (s.hold {}) else
  let near := segs.filter (fun x => !x.1.fabric)
  let traffic := lineTraffic s s.who segs
  let r := readSegs s s.who near
  let s1 := addTraffic r.2.2.2 s.who traffic
  let (id, s1) := s1.newId
  let far := (segOffsets 0 segs).filter (fun x => x.1.fabric)
  let bytes := if far.isEmpty then r.1 else
    (segOffsets 0 segs).foldl (fun b x => if x.1.fabric then b else patch b x.2.2 (readSegs s s.who [(x.1, x.2.1)]).1)
      (List.replicate (segs.map (·.2)).sum 0)
  let err := if r.2.1 then
      (match (segOffsets 0 segs).find? (fun x => !x.1.fabric && (readSegs s s.who [(x.1, x.2.1)]).2.1) with
       | some (l, _, o) => some (s.slotTrap 0x51 0 (BitVec.ofNat 64 (Loc.addr s l)) (va o))
       | none => some (s.slotTrap 0x51 0 0 (va 0)))
    else none
  let rem : Remote := { who := s.who, purpose := .load id 0, bund := s.bpc.setWidth 57, det0 := some (s.slotDet 0) }
  let lane := fun (o : Nat) => match shape with
    | .vec _ => o / 4
    | _ => 0
  let d := (s.regs.c.lc.get lc.toFin).toNat
  let s1 := s1.addFlight s.who
    { id := id, kind := .load, dist := Nat.max d 1, cls := spaceClass sp, arrived := false, fault := err, shape := shape, buf := bytes
      waits := 1 + far.length }
  let s1 := far.foldl (fun (s : State) x =>
    s.remoteRead { rem with purpose := .load id x.2.2, va := va x.2.2, lane := lane x.2.2
                            laid := laidBytes x.1 x.2.1 (farPieces s s.who ++ ownPieces s s.who) } x.1.key x.2.1) s1
  .next (s1.after (Nat.max r.2.2.1 1 + walk) (.loadLanding s.who id))

/-- A load of `n` consecutive bytes (04 R89, R93). -/
def loadOp (i : Instr) (h : Hdr) (a : BitVec 5) (lc : BitVec 3) (spc : BitVec 2) (off : BitVec 5) (n g al : Nat) (s : State)
    (shape : State → LoadShape) : Res :=
  slotOp i h s (fun s =>
    let sp := Space.ofCode spc
    let ea := effAddr s a off g
    match resolveAccess s .load sp ea n al with
    | .error f => .next (s.raise (faultRec s f))
    | .ok (segs, s') => issueLoad s' lc sp (fun o => ea + BitVec.ofNat 64 o) segs (shape s) (walkDelay s s' s.who))

/-- LDS (04 R93). -/
def execLds (h : Hdr) (d a : BitVec 5) (lc : BitVec 3) (sp : BitVec 2) (off : BitVec 5) (s : State) : Res :=
  loadOp (.lds h d a lc sp off) h a lc sp off 8 8 8 s (fun s => .s (physSV s.rot d) 8)
/-- LDSP (04 R93). -/
def execLdsp (h : Hdr) (d a : BitVec 5) (lc : BitVec 3) (sp : BitVec 2) (off : BitVec 5) (s : State) : Res :=
  loadOp (.ldsp h d a lc sp off) h a lc sp off 16 16 16 s (fun s => .pair (physSV s.rot d) (physSV s.rot (d + 1)))
/-- LDSV (04 R93). -/
def execLdsv (h : Hdr) (d a : BitVec 5) (lc : BitVec 3) (sp : BitVec 2) (off : BitVec 5) (s : State) : Res :=
  loadOp (.ldsv h d a lc sp off) h a lc sp off 4 4 4 s (fun s => .bcast (physSV s.rot d))
/-- LDV (04 R93). -/
def execLdv (h : Hdr) (d a : BitVec 5) (lc : BitVec 3) (sp : BitVec 2) (off : BitVec 5) (s : State) : Res :=
  loadOp (.ldv h d a lc sp off) h a lc sp off 512 512 128 s (fun s => .vec (physSV s.rot d))
/-- LDVX (04 R93). -/
def execLdvx (h : Hdr) (d a : BitVec 5) (lc : BitVec 3) (sp : BitVec 2) (ix : BitVec 5) (s : State) : Res :=
  slotOp (.ldvx h d a lc sp ix) h s (fun s =>
    match resolveLanes s .load (Space.ofCode sp) (laneAddr s a ix) 128 0 with
    | .error f => .next (s.raise (faultRec s f))
    | .ok (segs, s') => issueLoad s' lc (Space.ofCode sp) (fun o => laneAddr s a ix (o / 4)) segs (.vec (physSV s.rot d)) (walkDelay s s' s.who))

/-- The whole chunk at a pad address, as LDVS reads it: the first line, then the lines it names, each checked against the window (08 R170). Of a chunk that the first
line shows to be malformed no other line is read (log 77). -/
def chunkSegs (s : State) (ea : BitVec 64) : Except AFault (List (Loc × Nat)) :=
  match resolve s s.who .load .p ea 128 with
  | .error f => .error f
  | .ok (l, _) =>
    let first := overlay l (s.bytesAt l.key 128) (ownPieces s s.who)
    let w := field first 16 1
    let n := Nat.min 8 (field first 18 2)
    if chunkBad first ∨ 2 < w then .ok [(l, 128)] else
    match (List.range (n - 1)).find? (fun k => !padPasses s s.who (ea.toNat + 128 * (k + 1)) 128) with
    | some k => .error (windowFault s s.who false (ea + BitVec.ofNat 64 (128 * (k + 1))))
    | none => .ok ((List.range n).map (fun k => (l.plus (128 * k), 128)))

/-- LDVS: the chunk lands expanded; one that does not decode traps with 0x46 when it would land (04 R94; 08 R170). -/
def execLdvs (h : Hdr) (d a : BitVec 5) (lc : BitVec 3) (off : BitVec 5) (s : State) : Res :=
  slotOp (.ldvs h d a lc off) h s (fun s =>
    let ea := effAddr s a off 128
    if ea.toNat % 128 ≠ 0 then .next (s.raise (faultRec s (misaligned ea))) else
    match chunkSegs s ea with
    | .error f => .next (s.raise (faultRec s f))
    | .ok segs =>
      if segs.any (fun x => ownUnknown s s.who x.1 x.2) then .next (s.hold {}) else
      let r := readSegs s s.who segs
      let (id, s1) := s.newId
      let lat := r.2.2.1 + segs.length - 1
      let err := if r.2.1 then some (s.slotTrap 0x51 0 ea ea) else if chunkBad r.1 then some (s.slotTrap 0x46 0 ea) else none
      let dist := Nat.max (s.regs.c.lc.get lc.toFin).toNat 1
      let s1 := s1.addFlight s.who
        { id := id, kind := .load, dist := dist, cls := 0, arrived := false, fault := err, shape := .vec (physSV s.rot d)
          buf := if chunkBad r.1 then [] else (chunkLanes r.1).flatMap (fun w => toBytes 4 w.toNat), waits := 1 }
      .next (s1.after lat (.loadLanding s.who id)))

/-! ## Stores (04 R92, R93, R95) -/

/-- The pieces of a store: a byte string cut at its segments. -/
def cutPieces : List (Loc × Nat) → List Byte → List Piece
  | [], _ => []
  | (l, n) :: r, bs => { loc := l, bytes := bs.take n } :: cutPieces r (bs.drop n)

/-- A store of consecutive bytes, withheld (04 R92). -/
def storeOp (i : Instr) (h : Hdr) (a : BitVec 5) (spc : BitVec 2) (off : BitVec 5) (n g al kind : Nat) (s : State)
    (data : State → List Byte) (reg : State → VReg) : Res :=
  slotOp i h s (fun s =>
    let ea := effAddr s a off g
    match resolveAccess s .store (Space.ofCode spc) ea n al with
    | .error f => .next (s.raise (faultRec s f))
    | .ok (segs, s') =>
      let ps := cutPieces segs (data s)
      withhold (addTraffic s' s.who (storeTraffic s' s.who ps)) (.store kind ea 0 0 (reg s) ps) [])

/-- STS (04 R93). -/
def execSts (h : Hdr) (d a : BitVec 5) (sp : BitVec 2) (off : BitVec 5) (s : State) : Res :=
  storeOp (.sts h d a sp off) h a sp off 8 8 8 1 s (fun s => toBytes 8 (s.rs d).toNat) (fun s => (s.rs d).setWidth 4096)
/-- STV (04 R93). -/
def execStv (h : Hdr) (d a : BitVec 5) (sp : BitVec 2) (off : BitVec 5) (s : State) : Res :=
  storeOp (.stv h d a sp off) h a sp off 512 512 128 2 s (fun s => toBytes 512 (s.rv d).toNat) (fun s => s.rv d)
/-- STVX: of two lanes that name one address the higher remains (04 R93). -/
def execStvx (h : Hdr) (d a : BitVec 5) (sp : BitVec 2) (ix : BitVec 5) (s : State) : Res :=
  slotOp (.stvx h d a sp ix) h s (fun s =>
    match resolveLanes s .store (Space.ofCode sp) (laneAddr s a ix) 128 0 with
    | .error f => .next (s.raise (faultRec s f))
    | .ok (segs, s') =>
      let ps := cutPieces segs (toBytes 512 (s.rv d).toNat)
      withhold (addTraffic s' s.who (storeTraffic s' s.who ps)) (.store 4 (s.rs a) 0 (s.rv ix) (s.rv d) ps) [])

/-- Bytes of an element that STVS stores (04 R95). -/
def stvsBytes (f : BitVec 4) : Nat := fmtBits f / 8
/-- Resolve the active elements of a masked store, ascending: their places and bytes, each run of neighbours within one line as one piece
(04 R95). A fault of element j of FP64 is told as lane 2j (log 77). -/
def resolveStvs (s : State) (sp : Space) (ea : BitVec 64) (f : BitVec 4) (m : Mask) (v : VReg) :
    Nat → Nat → Except AFault (List Piece × State)
  | 0, _ => .ok ([], s)
  | k + 1, i =>
    if !activeElem f m i then resolveStvs s sp ea f m v k (i + 1) else
    let n := stvsBytes f
    let a := ea + BitVec.ofNat 64 (n * i)
    match resolve s s.who .store sp a n with
    | .error x => .error (x.atLane (if f = Fmt.fp64 then 2 * i else i))
    | .ok (l, s') =>
      match resolveStvs s' sp ea f m v k (i + 1) with
      | .error x => .error x
      | .ok (ps, s'') =>
        let bs := toBytes n (elem f v i)
        match ps with
        | p :: r =>
          if linOf p.loc = linOf l + n ∧ linOf l / 128 = linOf p.loc / 128 ∧ p.loc.space = l.space
          then .ok ({ loc := l, bytes := bs ++ p.bytes } :: r, s'') else .ok ({ loc := l, bytes := bs } :: ps, s'')
        | [] => .ok ([{ loc := l, bytes := bs }], s'')

/-- STVS: a store with no active lane has no effect (04 R95). -/
def execStvs (h : Hdr) (vs a : BitVec 5) (mk fmt : BitVec 4) (sp : BitVec 2) (s : State) : Res :=
  slotOp (.stvs h vs a mk fmt sp) h s (fun s =>
    let m := s.rm mk
    let ea := s.rs a
    if (List.range (elemCount fmt)).all (fun i => !activeElem fmt m i) then .next s
    else if ea.toNat % stvsBytes fmt ≠ 0 then .next (s.raise (faultRec s (misaligned ea)))
    else match resolveStvs s (Space.ofCode sp) ea fmt m (s.rv vs) (elemCount fmt) 0 with
      | .error f => .next (s.raise (faultRec s f))
      | .ok (ps, s') => withhold (addTraffic s' s.who (storeTraffic s' s.who ps)) (.store 3 ea m 0 (s.rv vs) ps) [])

/-! ## Released writes (04 R98; 09 R179; 18 R316) -/

/-- The virtual address of byte `o`, in write order, of a withheld store or counter record (04 R93, R95; 15 R280). -/
def Withheld.byteAddr (w : Withheld) (o : Nat) : BitVec 64 :=
  match w.eff with
  | .store 3 va m _ _ _ =>
    let f := BitVec.ofNat 4 (fmtOfWord w.word)
    let n := stvsBytes f
    va + BitVec.ofNat 64 (n * ((List.range (elemCount f)).filter (activeElem f m)).getD (o / n) 0 + o % n)
  | .store 4 va _ ix _ _ => va + 4 * (lane ix (o / 4)).setWidth 64 + BitVec.ofNat 64 (o % 4)
  | .store _ va _ _ _ _ => va + BitVec.ofNat 64 o
  | _ => w.regs.getD 1 0 + BitVec.ofNat 64 o

/-- The vector lane of byte `o`, in write order, of a withheld store; a store that is no vector's has lane 0 (04 R93, R95; 22 R369). -/
def Withheld.byteLane (w : Withheld) (o : Nat) : Nat :=
  match w.eff with
  | .store 3 _ m _ _ _ =>
    let f := BitVec.ofNat 4 (fmtOfWord w.word)
    ((List.range (elemCount f)).filter (activeElem f m)).getD (o / stvsBytes f) 0 * (if f = Fmt.fp64 then 2 else 1)
  | .store k _ _ _ _ _ => if k = 1 then 0 else o / 4
  | _ => 0

/-- Perform the pieces of one released write, none of which meets a lease (18 R316). -/
def performPieces (s : State) (who : Agent) (w : Withheld) (ps : List Piece) : State :=
  let inL1 := fun (p : Piece) => who.onCore && p.loc.space == .m && !p.loc.fabric && !p.loc.host
  let rest := ps.filter (fun p => !inL1 p && !p.loc.fabric)
  let s := (ps.filter inL1).foldl (fun s p => s.l1Write who.core p.loc p.bytes who) s
  let s := if rest.isEmpty then s else strongWrite s who rest
  (ps.foldl (fun (r : State × Nat) p =>
    (if p.loc.fabric then r.1.remoteWrite { who := who, bund := w.bund, va := w.byteAddr r.2, lane := w.byteLane r.2, det0 := some w.slotDet } p.loc.key p.bytes else r.1,
      r.2 + p.bytes.length)) (s, 0)).1

/-- A released write performs, or meets a lease and does not (04 R98; 09 R179). -/
def performWrite (s : State) (who : Agent) (id : Nat) (w : Withheld) (ps : List Piece) : State :=
  match leaseOf s who id ps with
  | some (x, l) => s.deliver who (leaseTrap s w x l)
  | none => performPieces s who w ps

/-! ## PREF and CHK (04 R96, R97) -/

/-- PREF: never traps on its address; counts as outstanding until its line arrives (04 R96). One of a host or fabric address, which nothing caches, is dropped at once
and counts no longer, a choice (17 R303, log 82). -/
def execPref (h : Hdr) (home : Bool) (a off : BitVec 5) (s : State) : Res :=
  slotOp (.pref h home a off) h s (fun s =>
    let ea := effAddr s a off 128
    let line := BitVec.ofNat 64 (ea.toNat / 128 * 128)
    match resolve s s.who .load .m line 128 with
    | .error _ => .next s
    | .ok (l, s') =>
      if l.fabric ∨ l.host then .next s' else
      let lat := latencyOf s' s.who l (!home && s.who.onCore && s'.l1Hit s.who.core l 128)
      let s1 := if home ∨ !s.who.onCore then s'.touchSlice l
        else if s'.l1Hit s.who.core l 128 then s' else s'.fillLine s.who.core l s.who
      let (id, s1) := s1.newId
      let s1 := s1.addFlight s.who { id := id, kind := .pref, dist := 0, cls := 2, arrived := false, waits := 1 }
      .next (s1.after (lat + walkDelay s s' s.who) (.loadLanding s.who id)))

/-- CHK (04 R97). -/
def execChk (h : Hdr) (a b : BitVec 5) (s : State) : Res :=
  slotOp (.chk h a b) h s (fun s =>
    if s.rs a = s.rs b then .next s else trapAt s 0x50 0 (BitVec.ofNat 64 (a.toNat + b.toNat * 2 ^ 8)))
/-- CHK.VEC (04 R97). -/
def execChkVec (h : Hdr) (a b : BitVec 5) (s : State) : Res :=
  slotOp (.chkVec h a b) h s (fun s =>
    if s.rv a = s.rv b then .next s else trapAt s 0x50 0 (BitVec.ofNat 64 (a.toNat + b.toNat * 2 ^ 8 + 2 ^ 16)))

end Sys2Proof.Machine
end

