-- ==== Sys2Proof/Machine/Exceptions.lean ====
section
/-!
DEFINITION. The steps of a context's boundary that take no slot: a cause that has arrived is taken (22 R366, R367; 15 R268), a boundary stop
takes effect (22 R366), a bounded wait expires (12 R218; 14 R251), a line of the instruction store is filled (17 R300).
-/

namespace Sys2Proof.Machine

/-- A step without an encoding: its operands are the state's, and they name agents and units that the package has. -/
def evStep (s : State) (k : Ev → Option Res) : Res :=
  if s.ev.ok then (k s.ev).getD (.fault .noSuchUnit) else .fault .noSuchUnit

/-- DEFERRED_TRAP: the pending cause, else the first cause that has arrived and is due, is taken; the causes behind it find the context stopped
(15 R268; 22 R367, R373). -/
def execDeferredTrap (s : State) : Res :=
  evStep s (fun
    | .deferredTrap a => some (
      let rest := fun (s : State) (r : List TrapRec) => r.foldl (fun (s : State) t => s.holdPending a t) s
      match (s.ctx a).pendHeld, (s.ctx a).pend with
      | some t, r => .next (rest ((s.modCtx a (fun c => { c with pendHeld := none, pend := [] })).takeTrap a { t with dfr := false }) r)
      | none, u :: r =>
        let t := ((u :: r).find? (causeDue s.cc)).getD u
        .next (rest ((s.modCtx a (fun c => { c with pend := [] })).takeTrap a t) ((u :: r).erase t))
      | none, [] => .next s)
    | _ => none)

/-- The details of a stop that was asked for with a word: %tdet0, but for a world switch the virtual function in %tdet1, and for a stop of a command processor
the cause in %tdet2 (22 R369; 23 R400). -/
def stopWord (cause : Nat) (x : BitVec 64) : Det :=
  if cause = 0x74 then { d1 := x } else if cause = 0x70 then { d0 := x, d2 := 0x70 } else { d0 := x }
/-- BOUNDARY_STOP: a stop request takes effect (15 R294, R295; 22 R366). -/
def execBoundaryStop (s : State) : Res :=
  evStep s (fun
    | .boundaryStop a => some (
      match (s.ctx a).stopReq with
      | some (cause, x) => .next (s.boundaryStopAt a cause (stopWord cause x))
      | none => .next s)
    | _ => none)

/-- The trap of the wait that a context's bundle, or its last BAR, is held by (12 R218, R238). -/
def expireWait (s : State) (a : Agent) : Res :=
  match (s.ctx a).wait with
  | some h =>
    let bund := match (s.ctx a).post with
      | some p => p.bund
      | none => (s.ctx a).live.c.pc.setWidth 57
    .next ((s.modCtx a (fun c => { c with post := none })).takeTrap a { cause := h.cause, det := h.det, bund := bund })
  | none => .next s

/-- BOUNDED_WAIT_EXPIRY (12 R218). -/
def execBoundedWaitExpiry (s : State) : Res :=
  evStep s (fun
    | .boundedWaitExpiry a => some (expireWait s a)
    | _ => none)
/-- LAUNCH_ORDER_WAIT (14 R251): the details carry the TASKID of the oldest earlier task that is incomplete. -/
def execLaunchOrderWait (s : State) : Res :=
  evStep s (fun
    | .launchOrderWait a => some (expireWait s a)
    | _ => none)

/-! ## Fetch (02 R25, R26; 17 R300) -/

/-- The place of a line from its number (17 R299); a coded page's region is that of the translation that gave it. -/
def lineOf (s : State) (die line : Nat) : Loc :=
  if line < 2 ^ 53 then { space := .m, key := line * 128 } else
  let x := line * 128 - 2 ^ 60
  let frame := x / 2 ^ 16 * 2 ^ 14
  let region := match (heldEntries s die).find? (fun e => e.pa == frame && e.pte.getLsbD 6) with
    | some e => e.proc * 64 + bits e.pte.toNat 13 8
    | none => 0
  { space := .m, key := frame, coded := some { frame := frame, region := region, off := x % 2 ^ 16 } }

/-- Bytes that a fetch reads at their home. -/
def fetchBytes (s : State) (a : Agent) (l : Loc) (n : Nat) : List Byte × State :=
  if l.host then (s.bytesAt l.key n, s) else
  let s := s.recallLine (if a.onCore then some a.core else none) (lineKey l)
  s.homeRead a l n

/-- Fill a line of a core's instruction store of 4 ways by 128 sets from its home: of 4 other lines of its set one leaves (17 R298, R300; log 71), and the marks
of poisoned words travel with the line (17 R315). -/
def fillStore (s : State) (core line : Nat) : State :=
  let l := lineOf s (core / 128) line
  let r := fetchBytes s (.ctx core 0) l 128
  let marks := ((List.range 16).filter (fun i => s.poisonedAt (l.plus (8 * i)) 8)).map (fun i => 16 * line + i)
  r.2.modCore core (fun c =>
    let set := (c.istore.filter (fun e => e.1 % 128 == line % 128 && e.1 != line)).map (·.1)
    let out := if set.length < 4 then none else set.head?
    { c with istore := (match out with
               | some k => c.istore.erase k
               | none => c.istore).insert line (some (BitVec.ofNat 1024 (ofBytes r.1)))
             ibad := c.ibad.filter (fun w => w / 16 != line && out != some (w / 16)) ++ marks })

/-- INSTRUCTION_STORE_FILL (17 R300). -/
def execInstructionStoreFill (s : State) : Res :=
  evStep s (fun
    | .instructionStoreFill core line => some (.next (fillStore s core line))
    | _ => none)

/-! ## Landing (04 R90; 06 R106, R109) -/

/-- A tile fetch has its last line: its leases end, its operations take its bytes, or its fault (09 R178-R180). -/
def landFetch (s : State) (a : Agent) (e : Flight) : State :=
  let s : State := { s with leases := s.leases.filter (fun (x : Lease) => !(x.kind == .fetch && x.ref == e.id)) }
  let give := fun (o : PaneOp) => if o.id = e.id then { o with buf := e.buf, fault := e.fault.map (fun (t : TrapRec) => { t with bund := o.bund }) } else o
  let s := s.modCore a.core (fun k => { k with panes := k.panes.map (fun p => { p with ops := p.ops.map give }) })
  match e.fault, (List.range 4).find? (fun q => ((s.core a.core).panes.getD q {}).ops.any (fun o => o.id == e.id)) with
  | some _, some q => s.at_ s.cc (.paneFetchFailure a.core q)
  | _, _ => s

/-- An answer arrives for a flight entry: the entry has arrived when the last answer has. A load that an engine's answer failed is told then, and its landing
discarded; an error in loaded data is raised when the data lands (04 R98; 08 R170; 12 R239). -/
def arrive (s : State) (a : Agent) (id : Nat) (put : Flight → Flight := fun e => e) : State :=
  let hit := fun (e : Flight) => e.id == id && e.kind != .fixed && !e.arrived
  match (s.ctx a).flight.find? hit with
  | none => s
  | some e0 =>
    let e := put { e0 with waits := e0.waits - 1 }
    let done := e.waits = 0
    let e := { e with arrived := decide done }
    let told := e.fault.filter (·.dfr)
    let drop := decide done && (e.kind == .dead || e.kind == .pref || e.kind == .fetch || told.isSome)
    let s := s.modCtx a (fun c => { c with flight := c.flight.flatMap (fun x => if hit x then (if drop then [] else [e]) else [x]) })
    let s := if done ∧ e.kind = .fetch then landFetch s a e else s
    match told with
    | some t => if done ∧ e.kind = .load then s.deliver a t else s
    | none => s

/-- Whether a load's data lands with an error in this issue cycle (04 R98; 08 R170). -/
def landsBad (e : Flight) : Bool := e.kind == .load && e.dist == 0 && e.arrived && e.fault.isSome
/-- The errors of the loads that `p` picks reach their context, and their landings are discarded. -/
def landErrors (s : State) (a : Agent) (p : Flight → Bool) : State :=
  match (s.ctx a).flight.filter p with
  | [] => s
  | es => es.foldl (fun (s : State) e => match e.fault with
      | some t => s.deliver a t
      | none => s) (s.modCtx a (fun c => { c with flight := c.flight.filter (fun e => !p e) }))

/-- LOAD_LANDING: a load's data, or a prefetched line, arrives (04 R90, R96, R98; 06 R109). -/
def execLoadLanding (s : State) : Res :=
  evStep s (fun
    | .loadLanding a id => some (.next (arrive s a id))
    | _ => none)

end Sys2Proof.Machine
end

