-- ==== Sys2Proof/Machine/Governor.lean ====
section
/-!
DEFINITION. The governor store (11 R207-R211) and its families: GOV, GMEAS, GSTEP (09 R187-R190), XCVT (08 R167, R168), the assignment of tables
(15 R296). The four dies' copies of a table are always equal and are held once.
-/

namespace Sys2Proof.Machine

/-! ## Tables and entries -/

/-- The governor table of a process (11 R207). -/
def govTableOf (s : State) (proc : Nat) : Option Nat := (s.gov.find? (fun t => t.2.proc == some proc)).map (·.1)
/-- A governor table. -/
def govTable (s : State) (t : Nat) : GovTable := s.gov.get {} t
/-- A governor entry (11 R208, R209). -/
def govEntry (s : State) (t x : Nat) : GovEntry := (govTable s t).entries.get {} x
/-- Change a table. -/
def modGov (s : State) (t : Nat) (f : GovTable → GovTable) : State := { s with gov := s.gov.upd {} t f }
/-- Change an entry. -/
def modEntry (s : State) (t x : Nat) (f : GovEntry → GovEntry) : State :=
  modGov s t (fun g => { g with entries := g.entries.upd {} x f })

/-- FP64 addition by RNE (09 R189). -/
def addF64 (a b : BitVec 64) : BitVec 64 := BitVec.ofNat 64 (f64.rne (FVal.add false (f64.decode a.toNat) (f64.decode b.toNat)))
/-- FP64 subtraction by RNE. -/
def subF64 (a b : BitVec 64) : BitVec 64 := BitVec.ofNat 64 (f64.rne (FVal.sub false (f64.decode a.toNat) (f64.decode b.toNat)))
/-- FP64 multiplication by RNE. -/
def mulF64 (a b : BitVec 64) : BitVec 64 := BitVec.ofNat 64 (f64.rne (FVal.mul (f64.decode a.toNat) (f64.decode b.toNat)))
/-- FP64 division by RNE. -/
def divF64 (a b : BitVec 64) : BitVec 64 := BitVec.ofNat 64 (f64.rne (FVal.div (f64.decode a.toNat) (f64.decode b.toNat)))
/-- An integer as FP64 by RNE. -/
def natF64 (n : Nat) : BitVec 64 := BitVec.ofNat 64 (f64.rne (FVal.ofInt n))
/-- a < b in FP64. -/
def ltF64 (a b : BitVec 64) : Bool := (f64.decode a.toNat).lt (f64.decode b.toNat)
/-- a = 0 in FP64. -/
def zeroF64 (a : BitVec 64) : Bool := (f64.decode a.toNat).isZero

/-- Word 0 of an entry (11 R208). -/
def govWord0 (g : GovEntry) : BitVec 64 :=
  BitVec.ofNat 64 (g.fmt.toNat + g.floor.toNat * 2 ^ 4 + g.ceil.toNat * 2 ^ 8 + g.bs32.toNat * 2 ^ 12 + g.armed.toNat * 2 ^ 13
    + g.rnd.toNat * 2 ^ 14 + g.rev.toNat * 2 ^ 20 + g.reason.toNat * 2 ^ 36 + g.hc.toNat * 2 ^ 48)
/-- Word `w` of entry `x` (11 R208). -/
def govWord (s : State) (t x w : Nat) : BitVec 64 :=
  let g := govEntry s t x
  let l := (govTable s t).layers.get {} (x / 4)
  match w with
  | 0 => govWord0 g
  | 1 => g.sx
  | 2 => g.se
  | 3 => g.sat
  | 4 => l.g1
  | 5 => l.g2
  | 6 => l.n
  | _ => BitVec.ofNat 64 (g.retile.toNat + g.resat.toNat * 2 ^ 32)

/-- The details of 0x63: the entry and the format it holds (22 R369). -/
def govTrap (s : State) (entry held : Nat) : Res := trapAt s 0x63 0 (BitVec.ofNat 64 entry) (BitVec.ofNat 64 held)
/-- 0x63 for an entry of the issuing process's table, if any. -/
def govTrapAt (s : State) (entry : Nat) : Res :=
  match govTableOf s (s.procOf s.who) with
  | some t => govTrap s entry (if entry < 4096 then (govEntry s t entry).fmt.toNat else 0)
  | none => govTrap s entry 0

/-- Schedule a change of the governor for its effect cc (09 R187; 11 R210). -/
def govSchedule (s : State) (n : Nat) (c : GovChange) (e : Nat → Ev) : State :=
  let (id, s) := s.newId
  ({ s with govQ := s.govQ.insert id c }).after n (e id)

/-! ## GOV (09 R188) -/

/-- GOV pol: a policy block with κ not finite and positive, with H = 0 or with a reserved byte traps (09 R188); the context freezes until one at a fabric address has come (17 R408). -/
def execGovPol (h : Hdr) (a : BitVec 5) (s : State) : Res :=
  slotOp (.govPol h a) h s (fun s =>
    let ea := s.rs a
    if ea.toNat % 16 ≠ 0 then trapAt s 0x24 0 ea else
    match govTableOf s (s.procOf s.who) with
    | none => govTrap s 0 0
    | some t =>
    match resolve s s.who .load .m ea 16 with
    | .error f => .next (s.raise (faultRec s f))
    | .ok (l, s) =>
      let put := fun (s : State) (bs : List Byte) (s' : State) =>
        let kappa := BitVec.ofNat 64 (field bs 0 8)
        let hyst := BitVec.ofNat 16 (field bs 8 2)
        let k := f64.decode kappa.toNat
        if !k.isFin || k.isZero || k.sign || hyst == 0 || !zeroBytes bs 10 6 then govTrap s 0 0
        else .next (modGov s' t (fun g => { g with kappa := some (kappa, hyst) }))
      if l.fabric then
        match farRead s s.who .slot .load ea l 16 with
        | .error f => faultAt s f
        | .ok bs => put s bs s
      else freezeFor s (latencyOf s s.who l false) (fun s =>
        let r := readSegs s s.who [(l, 16)]
        if r.2.1 then trapAt s 0x51 0 (BitVec.ofNat 64 (Loc.addr s l)) ea else put s r.1 r.2.2.2))

/-- GOV rd (09 R188; 11 R208). -/
def execGovRd (h : Hdr) (d a b : BitVec 5) (s : State) : Res :=
  slotOp (.govRd h d a b) h s (fun s =>
    let x := (s.rs a).toNat
    match govTableOf s (s.procOf s.who) with
    | none => govTrap s x 0
    | some t =>
      if 4096 ≤ x then govTrapAt s x
      else .next (s.result 8 [s.wS d (govWord s t x (wbits (s.rs b) 2 0))]))

/-- Whether a set word is valid: reserved bits, rounding, ladder formats in order (09 R188). -/
def setWordOk (w : Word) : Bool :=
  let f := w.extractLsb' 0 4
  let lo := w.extractLsb' 4 4
  let hi := w.extractLsb' 8 4
  wbits w 63 19 == 0 && !rndReserved (w.extractLsb' 14 5) && Fmt.ladder f && Fmt.ladder lo && Fmt.ladder hi
    && decide (ladderRank lo ≤ ladderRank f ∧ ladderRank f ≤ ladderRank hi)
where
  ladderRank (f : BitVec 4) : Nat := if f = Fmt.sx3 then 0 else if f = Fmt.sx5 then 1 else if f = Fmt.sx8 then 2 else 3

/-- rank(f) of R190. -/
def rankOf (f : BitVec 4) : Nat := setWordOk.ladderRank f
/-- The format one step wider (09 R190). -/
def widerFmt (f : BitVec 4) : BitVec 4 := if f = Fmt.sx3 then Fmt.sx5 else if f = Fmt.sx5 then Fmt.sx8 else Fmt.fp16
/-- The format one step narrower (09 R190). -/
def narrowerFmt (f : BitVec 4) : BitVec 4 := if f = Fmt.fp16 then Fmt.sx8 else if f = Fmt.sx8 then Fmt.sx5 else Fmt.sx3
/-- factor(f) of R190. -/
def stepFactor (f : BitVec 4) : Nat := if f = Fmt.sx5 then 16 else if f = Fmt.sx8 then 64 else 256

/-- GOV set: the entry changes at issue cc + 4 (09 R187, R188). -/
def execGovSet (h : Hdr) (a b : BitVec 5) (s : State) : Res :=
  slotOp (.govSet h a b) h s (fun s =>
    let x := (s.rs a).toNat
    match govTableOf s (s.procOf s.who) with
    | none => govTrap s x 0
    | some t =>
      if 4096 ≤ x ∨ !setWordOk (s.rs b) then govTrapAt s x
      else .next (govSchedule s 4 (.set t x (s.rs b)) .govEffect))

/-- GOV clr (09 R187, R188). -/
def execGovClr (h : Hdr) (a : BitVec 5) (s : State) : Res :=
  slotOp (.govClr h a) h s (fun s =>
    let x := (s.rs a).toNat
    match govTableOf s (s.procOf s.who) with
    | none => govTrap s x 0
    | some t => if 4096 ≤ x then govTrapAt s x else .next (govSchedule s 4 (.clr t x) .govEffect))

/-- Clear an entry's accumulators and hysteresis count (09 R188; 11 R209). -/
def clearEntry (g : GovEntry) : GovEntry := { g with sx := 0, se := 0, sat := 0, hc := 0 }

/-- An entry after GOV set (09 R188). -/
def setEntry (w : Word) (g : GovEntry) : GovEntry :=
  let f := w.extractLsb' 0 4
  let bs := w.getLsbD 12
  let changed := f != g.fmt || bs != g.bs32
  clearEntry { g with
    fmt := f, floor := w.extractLsb' 4 4, ceil := w.extractLsb' 8 4, bs32 := bs, armed := w.getLsbD 13, rnd := w.extractLsb' 14 5
    rev := if changed then g.rev + 1 else g.rev, reason := if changed then 3 else g.reason }

/-- GOV_EFFECT: a GOV set or clr takes effect at the start of its cc (09 R187). -/
def execGovEffect (s : State) : Res :=
  evStep s (fun
    | .govEffect id => some (
      match s.govQ.find? (fun e => e.1 == id) with
      | some (_, .set t x w) => .next (modEntry { s with govQ := s.govQ.erase id } t x (setEntry w))
      | some (_, .clr t x) => .next (modEntry { s with govQ := s.govQ.erase id } t x clearEntry)
      | _ => .next s)
    | _ => none)

/-! ## GMEAS (09 R189) -/

/-- A measurement applies in the slot's issue cc. -/
def measure (i : Instr) (h : Hdr) (a b : BitVec 5) (s : State) (f : Word → GovLayer → GovLayer) : Res :=
  slotOp i h s (fun s =>
    let l := (s.rs a).toNat
    match govTableOf s (s.procOf s.who) with
    | none => govTrap s (4 * l) 0
    | some t =>
      if 1024 ≤ l then govTrapAt s (4 * l)
      else .next (modGov s t (fun g => { g with layers := g.layers.upd {} l (f (s.rs b)) })))

/-- GMEAS mb (09 R189). -/
def execGmeasMb (h : Hdr) (a b : BitVec 5) (s : State) : Res :=
  measure (.gmeasMb h a b) h a b s (fun x l => { l with g1 := addF64 l.g1 x, n := l.n + 1 })
/-- GMEAS tot (09 R189). -/
def execGmeasTot (h : Hdr) (a b : BitVec 5) (s : State) : Res :=
  measure (.gmeasTot h a b) h a b s (fun x l => { l with g2 := addF64 l.g2 x })

/-! ## GSTEP (09 R190) -/

/-- GSTEP: checked at issue; its changes take effect together at issue cc + 4 + ceil(count / 16) (09 R187, R190). -/
def execGstep (h : Hdr) (d a b : BitVec 5) (s : State) : Res :=
  slotOp (.gstep h d a b) h s (fun s =>
    let x := (s.rs a).toNat
    let n := (s.rs b).toNat
    match govTableOf s (s.procOf s.who) with
    | none => govTrap s x 0
    | some t =>
      if n = 0 ∨ 4096 < n ∨ 4096 < x + n then govTrapAt s x
      else if (govTable s t).kappa.isNone then govTrap s x 0xFF
      else
        let k := ceilDiv n 16
        let (ref, s) := s.newId
        let s := s.addFlight s.who { id := ref, writes := [s.wS d 0], dist := 5 + k, arrived := false }
        .next (govSchedule s (4 + k) (.step t x n s.who ref) .gstepEffect))

/-- The decision of R190 for one armed entry: the entry, and whether its format changed. -/
def stepEntry (kappa : BitVec 64) (hyst : BitVec 16) (l : GovLayer) (g : GovEntry) : GovEntry × Bool :=
  let done := fun (g : GovEntry) => { g with sx := 0, se := 0, sat := 0 }
  if zeroF64 g.sx ∨ zeroF64 l.g2 ∨ l.n.toNat < 2 then (done { g with hc := 0 }, false) else
  let e := divF64 g.se g.sx
  let nu := divF64 (subF64 (mulF64 (natF64 l.n.toNat) l.g1) l.g2) l.g2
  let lim := mulF64 (natF64 4) nu
  let narrow := mulF64 (mulF64 e (natF64 (stepFactor g.fmt))) kappa
  if ltF64 lim (mulF64 e kappa) ∧ rankOf g.fmt < rankOf g.ceil then
    (done { g with fmt := widerFmt g.fmt, hc := 0, rev := g.rev + 1, reason := 2 }, true)
  else if rankOf g.floor < rankOf g.fmt ∧ (ltF64 narrow nu ∨ (f64.decode narrow.toNat).eq (f64.decode nu.toNat)) then
    if hyst ≤ g.hc + 1 ∨ g.hc = 0xFFFF then (done { g with fmt := narrowerFmt g.fmt, hc := 0, rev := g.rev + 1, reason := 1 }, true)
    else (done { g with hc := g.hc + 1 }, false)
  else (done { g with hc := 0 }, false)

/-- GSTEP over its range: accumulators and policy as they stand in its effect cc (log 80), then the changes together (09 R190). -/
def govStep (s : State) (t lo cnt : Nat) : State × Nat :=
  let tab := govTable s t
  match tab.kappa with
  | none => (s, 0)
  | some (kappa, hyst) =>
    let armed := (List.range cnt).map (· + lo) |>.filter (fun x => (tab.entries.get {} x).armed)
    let rs := armed.map (fun x => (x, stepEntry kappa hyst (tab.layers.get {} (x / 4)) (tab.entries.get {} x)))
    let s := rs.foldl (fun (s : State) r => modEntry s t r.1 (fun _ => r.2.1)) s
    let s := modGov s t (fun g => { g with layers := armed.foldl (fun ls x => ls.put {} (x / 4) {}) g.layers })
    (s, (rs.filter (fun r => r.2.2)).length)

/-- Fill a result of fixed latency whose value was to come. -/
def fillResult (s : State) (a : Agent) (ref : Nat) (x : Word) : State :=
  s.modCtx a (fun c => { c with flight := c.flight.map (fun e => if e.id = ref ∧ e.kind = .fixed ∧ !e.arrived then
    { e with arrived := true, writes := e.writes.map (fun w => match w with
        | .s r _ => .s r x
        | w => w) } else e) })

/-- GSTEP_EFFECT (09 R190). -/
def execGstepEffect (s : State) : Res :=
  evStep s (fun
    | .gstepEffect id => some (
      match s.govQ.find? (fun e => e.1 == id) with
      | some (_, .step t lo cnt a ref) =>
        let r := govStep { s with govQ := s.govQ.erase id } t lo cnt
        .next (fillResult r.1 a ref (BitVec.ofNat 64 r.2))
      | _ => .next s)
    | _ => none)

/-! ## XCVT (08 R167, R168) -/

/-- The converted lanes, and the saturations that the measurement counts (08 R167). An Inf input that stays Inf in FP16 is counted, as 08 R167 counts the results that come from
an Inf input; the list of 07 R130 does not name it: a choice (log 77). -/
def xcvtLanes (g : GovEntry) (f : BitVec 4) (v d : VReg) : List (BitVec 32) × Nat :=
  let mode := Rnd.ofCode g.rnd
  let xs := fp32Lanes v d
  if f = Fmt.fp16 then
    let rs := xs.map (fun x => valLane f mode x.2 x.1)
    let infs := (xs.filter (fun x => match x.1 with
      | .inf _ => true
      | _ => false)).length
    (rs.map (·.1), (rs.filter (·.2)).length + infs)
  else sxLanes f mode (blockSize g.bs32) xs

/-- The measurement of a conversion: the exact sums of x² and of (x - q)² over the lanes where both are finite (08 R167). -/
def xcvtError (f : BitVec 4) (v : VReg) (q : List (BitVec 32)) : FVal × FVal :=
  let ls := (lanesOf v).zip q |>.filterMap (fun p =>
    let x := f32.decode p.1.toNat
    let y := laneVal f p.2
    if x.isFin ∧ y.isFin then some (x, FVal.sub false x y) else none)
  (sumVals (ls.map (fun p => FVal.mul p.1 p.1)), sumVals (ls.map (fun p => FVal.mul p.2 p.2)))

/-- Add an exact value to an FP64 accumulator, rounded once (08 R167). -/
def addExact (a : BitVec 64) (x : FVal) : BitVec 64 := BitVec.ofNat 64 (f64.rne (FVal.add false (f64.decode a.toNat) x))

/-- XCVT (08 R167, R168): its measurement applies in its issue cc. -/
def execXcvt (h : Hdr) (d a b : BitVec 5) (fmt : BitVec 4) (x : Bool) (s : State) : Res :=
  slotOp (.xcvt h d a b fmt x) h s (fun s =>
    let n := (s.rs b).toNat
    match govTableOf s (s.procOf s.who) with
    | none => govTrap s n 0
    | some t =>
      if 4096 ≤ n then govTrapAt s n else
      let g := govEntry s t n
      if g.fmt ≠ fmt then govTrapAt s n else
      let r := xcvtLanes g fmt (s.rv a) (s.rv d)
      let s1 := s.result 6 [s.wV d (ofLaneList r.1)]
      if !x then .next s1 else
      let e := xcvtError fmt (s.rv a) r.1
      .next (modEntry s1 t n (fun g => { g with sx := addExact g.sx e.1, se := addExact g.se e.2, sat := satAdd64 g.sat r.2 })))

/-! ## Assignment (11 R207, R209; 15 R296) -/

/-- Assign a table to a process: every entry as R209 states, no policy. -/
def govAssign (s : State) (tbl proc : Nat) : State :=
  let s := { s with gov := s.gov.map (fun (e : Nat × GovTable) => if e.2.proc = some proc then (e.1, { e.2 with proc := none }) else e) }
  { s with gov := s.gov.insert tbl { proc := some proc } }
/-- Release a table. -/
def govRelease (s : State) (tbl proc : Nat) : State :=
  if (govTable s tbl).proc = some proc then { s with gov := s.gov.erase tbl } else s

/-- GOVTAB_ASSIGN (11 R209; 15 R296). -/
def execGovtabAssign (s : State) : Res :=
  evStep s (fun
    | .govtabAssign t p => some (.next (govAssign s t p))
    | _ => none)
/-- GOVTAB_RELEASE (11 R207; 15 R296). -/
def execGovtabRelease (s : State) : Res :=
  evStep s (fun
    | .govtabRelease t p => some (.next (govRelease s t p))
    | _ => none)

end Sys2Proof.Machine
end

