-- ==== Sys2Proof/Machine/Region.lean ====
section
/-!
DEFINITION. Tensor regions: descriptors (11 R199, R200), elements in planes (03 R60-R63), what a tile fetch reads (09 R174, R178, R179; 18 R330),
tile tags (11 R212, R213).
-/

namespace Sys2Proof.Machine

/-- A region descriptor (11 R199). -/
structure RegionDesc where
  rows : Nat
  rowlen : Nat
  gov : Option Nat
  ifmt : BitVec 4
  ib32 : Bool
  space : Space
  tid : Nat
  seed : Nat
  bases : List Nat
  deriving DecidableEq, Repr

/-- A descriptor's fields, none when a reserved field is not zero or a field lies outside its range (11 R199, R200). -/
def parseDesc (bs : List Byte) : Option RegionDesc :=
  let rows := field bs 0 4
  let rowlen := field bs 4 4
  let e := field bs 8 2
  let i := field bs 10 1
  let sp := field bs 11 1
  let f := BitVec.ofNat 4 i
  let ok := decide (1 ≤ rows ∧ rows ≤ 2 ^ 20 ∧ 32 ≤ rowlen ∧ rowlen ≤ 2 ^ 20 ∧ rowlen % 32 = 0) && bits e 14 12 == 0 && bits i 7 5 == 0
    && bits sp 7 2 == 0 && zeroBytes bs 24 8 && (if bit e 15 then Fmt.ladder f else f == 0)
  if ok then some { rows := rows, rowlen := rowlen, gov := if bit e 15 then some (e % 4096) else none, ifmt := f, ib32 := bit i 4
                    space := Space.ofCode (BitVec.ofNat 2 sp), tid := field bs 12 4, seed := field bs 16 8
                    bases := (List.range 4).map (fun p => field bs (32 + 8 * p) 8) }
  else none

/-- The planes that a format uses (03 R60). -/
def planesUsed (f : BitVec 4) : List (BitVec 2) :=
  if f = Fmt.fp6 then [0, 1] else if f = Fmt.sx8 then [0, 2, 3] else if f = Fmt.sx5 ∨ f = Fmt.sx3 then [0, 1, 2, 3] else [0]

/-- Bytes of a plane that holds `n` elements (03 R61, R63). -/
def planeBytes (f : BitVec 4) (b32 : Bool) (p : BitVec 2) (n : Nat) : Nat :=
  ceilDiv (ceilDiv n (planeSpan p (blockSize b32)) * planeWidth f p) 8

/-- The bytes of a plane that `n` elements from element `e` on lie in: offset and count. -/
def planeRange (f : BitVec 4) (b32 : Bool) (p : BitVec 2) (e n : Nat) : Nat × Nat :=
  let k := planeSpan p (blockSize b32)
  let w := planeWidth f p
  let lo := e / k * w / 8
  let hi := ((e + n - 1) / k * w + w - 1) / 8
  (lo, hi + 1 - lo)

/-- The lanes of `n` elements from element `e` on, from the bytes of each plane in use, each with its offset in the plane. -/
def lanesFrom (f : BitVec 4) (b32 : Bool) (e n : Nat) (ps : List (BitVec 2 × Nat × List Byte)) : List (BitVec 32) :=
  let img := ps.map (fun p => (p.1, p.2.1 * 8, ofBytes p.2.2))
  (List.range n).map (fun j => img.foldl (fun (x : BitVec 32) p =>
    let w := planeWidth f p.1
    let b := (e + j) / planeSpan p.1 (blockSize b32) * w - p.2.1
    joinField f p.1 x (bits p.2.2 (b + w - 1) b)) 0)

/-! ## What a tile fetch reads (09 R174; 11 R200) -/

/-- The rows of a tile that lie in its region, with the elements that they take: row index, first element, count. -/
def tileRows (d : RegionDesc) (q : TileReq) : List (Nat × Nat × Nat) :=
  let nr := if q.tr then q.nc else q.nr
  let nc := if q.tr then q.nr else q.nc
  let n := Nat.min nc (d.rowlen - q.col0)
  if n = 0 then [] else
  (List.range nr).filterMap (fun i => if q.row0 + i < d.rows then some (i, (q.row0 + i) * d.rowlen + q.col0, n) else none)

/-- The pieces of a tile in the order they are read: each row's part of each plane, as address and bytes. -/
def tilePieces (d : RegionDesc) (q : TileReq) : List (Nat × Nat) :=
  (tileRows d q).flatMap (fun r => (planesUsed q.fmt).map (fun p =>
    let g := planeRange q.fmt q.b32 p r.2.1 r.2.2
    (d.bases.getD p.toNat 0 + g.1, g.2)))

/-- Rows of lanes read from a tile's bytes, in the order of `tilePieces`. -/
def readRows (d : RegionDesc) (q : TileReq) : List (Nat × Nat × Nat) → List Byte → List (Nat × List (BitVec 32))
  | [], _ => []
  | r :: rs, bs =>
    let ps := (planesUsed q.fmt).foldl (fun (acc : List (BitVec 2 × Nat × List Byte) × List Byte) p =>
      let g := planeRange q.fmt q.b32 p r.2.1 r.2.2
      (acc.1 ++ [(p, g.1, acc.2.take g.2)], acc.2.drop g.2)) ([], bs)
    (r.1, lanesFrom q.fmt q.b32 r.2.1 r.2.2 ps.1) :: readRows d q rs ps.2

/-- The tile of a fetch, row by row in lane form: elements beyond the region read as zero, transposed when asked (09 R174, R178). -/
def tileLanes (q : TileReq) (buf : List Byte) : List (BitVec 32) :=
  match parseDesc q.desc with
  | none => []
  | some d =>
    let rows := readRows d q (tileRows d q) buf
    let at_ := fun (i j : Nat) => match rows.find? (fun r => r.1 == i) with
      | some r => r.2.getD j 0
      | none => 0
    (List.range q.nr).flatMap (fun i => (List.range q.nc).map (fun j => if q.tr then at_ j i else at_ i j))

/-! ## Reading at a fetch's issue (09 R179; 17 R309; 18 R330) -/

/-- Bytes within one line as a tile fetch takes them: at the home after the issuing core's dirty bytes, with the effects that its context has
released and that have not performed over them. -/
def fetchSeg (s : State) (who : Agent) (l : Loc) (n : Nat) : List Byte × Bool × Nat × State :=
  let lat := latencyOf s who l false
  let own := releasedPieces s who
  match l.space with
  | .p | .v => (overlay l (s.bytesAt l.key n) own, s.poisoned l.key n, lat, s)
  | _ =>
    if l.host then (overlay l (s.bytesAt l.key n) own, s.poisoned l.key n, lat, s) else
    let s := s.beforeStrong who l
    let r := s.homeRead who l n
    (overlay l r.1 own, s.poisonedAt l n, lat, r.2)

/-- A fetch of segments: bytes, whether any is poisoned, the greatest latency (11 R201; 15 R282). -/
def fetchSegs (s : State) (who : Agent) : List (Loc × Nat) → List Byte × Bool × Nat × State
  | [] => ([], false, 0, s)
  | (l, n) :: r =>
    let a := if l.fabric then (List.replicate n 0, false, 0, s) else fetchSeg s who l n
    let o := openBytes a.2.2.2 l a.1
    let b := fetchSegs o.2 who r
    (o.1 ++ b.1, a.2.1 || b.2.1, Nat.max a.2.2.1 b.2.2.1, b.2.2.2)

/-- The addresses at which the segments of consecutive pieces lie, each within one line; `fuel` bounds the lines of a piece. -/
def pieceAddrs : List (Nat × Nat) → List Nat
  | [] => []
  | (ea, n) :: r => (List.range ((ea % 128 + n + 127) / 128)).map (fun j => if j = 0 then ea else (ea / 128 + j) * 128) ++ pieceAddrs r
/-- The fault of a read that meets an uncorrectable error: the physical and the virtual address of the first segment that holds one (17 R315; 22 R369). -/
def poisonFault (s : State) (segs : List (Loc × Nat)) (eas : List Nat) : AFault :=
  match (segs.zip eas).find? (fun g => s.poisonedAt g.1.1 g.1.2) with
  | some g => { cause := 0x51, d1 := BitVec.ofNat 64 (Loc.addr s g.1.1), d2 := BitVec.ofNat 64 g.2 }
  | none => { cause := 0x51, d2 := BitVec.ofNat 64 (eas.headD 0) }
/-- The cc from a fetch's issue to its last line: the greatest latency of its segments, and one more for each further four distinct lines (11 R201). -/
def fetchTime (lat : Nat) (segs : List (Loc × Nat)) : Nat := Nat.max 1 (lat + ceilDiv (segs.map (fun g => lineKey g.1)).dedup.length 4 - 1)

/-- Resolve pieces in order into segments that each lie in one line. -/
def resolvePieces (s : State) (who : Agent) (acc : Acc) (sp : Space) : List (Nat × Nat) → Except AFault (List (Loc × Nat) × State)
  | [] => .ok ([], s)
  | (ea, n) :: r =>
    match resolveRange s who acc sp (n / 128 + 2) (BitVec.ofNat 64 ea) n with
    | .error f => .error f
    | .ok (l, s) =>
      match resolvePieces s who acc sp r with
      | .error f => .error f
      | .ok (l', s) => .ok (l ++ l', s)

/-! ## Tags (11 R212, R213) -/

/-- The number of the tile that holds a place: 4 KiB of a stack, a vault or a pad (11 R212; 15 R296). -/
def tileNo (l : Loc) : Nat := linOf l / 4096
/-- A tile's tag. -/
def tagWord (b32 : Bool) (f : BitVec 4) (rev : BitVec 16) : BitVec 16 :=
  BitVec.ofNat 16 (2 ^ 15 + b32.toNat * 2 ^ 12 + f.toNat * 2 ^ 8 + rev.toNat % 2 ^ 8)
/-- The tag of a tile. -/
def tagOf (s : State) (l : Loc) : BitVec 16 := s.tags.get 0 (tileNo l)

/-- The tiles of the planes that an encoding uses over a whole region, as addresses (11 R213). -/
def regionTiles (d : RegionDesc) (f : BitVec 4) (b32 : Bool) : List Nat :=
  (planesUsed f).flatMap (fun p =>
    (List.range (ceilDiv (planeBytes f b32 p (d.rows * d.rowlen)) 4096)).map (fun j => d.bases.getD p.toNat 0 + 4096 * j))

/-- Give a tile a tag; its metadata line is written (11 R212; 17 R313). -/
def setTag (s : State) (l : Loc) (t : BitVec 16) : State := ({ s with tags := s.tags.put 0 (tileNo l) t }).touchMeta 0 (tileNo l)
/-- The metadata lines of the tags of a region's tiles are read (11 R213; 17 R313). -/
def touchTags (s : State) (who : Agent) (d : RegionDesc) (f : BitVec 4) (b32 : Bool) : State :=
  (regionTiles d f b32).foldl (fun (s : State) ea =>
    match resolve s who .engRd d.space (BitVec.ofNat 64 ea) 1 with
    | .ok (l, _) => s.touchMeta 0 (tileNo l)
    | .error _ => s) s

/-- Whether every tile of a region carries the tag of its entry's encoding (11 R213). A tile whose place cannot be found is not fresh. -/
def regionFresh (s : State) (who : Agent) (d : RegionDesc) (g : GovEntry) : Bool :=
  (regionTiles d g.fmt g.bs32).all (fun ea =>
    match resolve s who .engRd d.space (BitVec.ofNat 64 ea) 1 with
    | .error _ => false
    | .ok (l, _) => tagOf s l == tagWord g.bs32 g.fmt g.rev)

/-- A base of a plane in use that is not 4 KiB-aligned (11 R200). -/
def baseMisaligned (d : RegionDesc) (f : BitVec 4) : Option Nat :=
  ((planesUsed f).map (fun p => d.bases.getD p.toNat 0)).find? (fun b => b % 4096 != 0)

end Sys2Proof.Machine
end

