-- ==== Sys2Proof/Machine/Panes.lean ====
section
/-!
DEFINITION. Panes: grants (11 R205, R206; 06 R126), operations in their queues and how they start, complete, replay and fail (09 R175, R180;
11 R202), products (09 R181; 11 R203, R204), ranks (09 R182), tile images (09 R185).
-/

namespace Sys2Proof.Machine

/-! ## Panes of a core -/

/-- A physical pane. -/
def paneOf (s : State) (core p : Nat) : Pane := (s.core core).panes.getD p {}
/-- Change a physical pane. -/
def modPane (s : State) (core p : Nat) (f : Pane → Pane) : State :=
  s.modCore core (fun c => { c with panes := c.panes.setIfInBounds p (f (c.panes.getD p {})) })

/-- The coverage level of the task of an agent (06 R125). -/
def coverOf (s : State) (a : Agent) : Nat :=
  match (s.ctx a).task with
  | some t => (s.task t).cover
  | none => 0

/-- The physical panes that a logical pane runs on: both of its pair under coverage level 3 (06 R126; 11 R206). -/
def physPanes (s : State) (a : Agent) (p : Nat) : List Nat :=
  match (s.ctx a).panes.getD p none with
  | none => []
  | some q => if coverOf s a = 3 then [q / 2 * 2, q / 2 * 2 + 1] else [q]

/-- A tile of a pane. -/
def Pane.tile (p : Pane) (t : Nat) : Tile := if t = 0 then p.t0 else p.t1
/-- Replace a tile of a pane. -/
def Pane.setTile (p : Pane) (t : Nat) (x : Tile) : Pane := if t = 0 then { p with t0 := x } else { p with t1 := x }
/-- A quire bank of a pane. -/
def Pane.bank (p : Pane) (q : Nat) : Bank := if q = 0 then p.b0 else p.b1
/-- Replace a quire bank of a pane. -/
def Pane.setBank (p : Pane) (q : Nat) (x : Bank) : Pane := if q = 0 then { p with b0 := x } else { p with b1 := x }

/-- The stationary shape of a gang: K and N (09 R171). Gangs are numbered as `Fmt.gangOf` numbers them. -/
def gangShape (g : Nat) : Nat × Nat := if g = 1 then (96, 192) else if g = 2 then (96, 96) else if g = 3 then (48, 48) else (24, 24)
/-- The kind of a format's tile (09 R171). -/
def fmtKind (f : BitVec 4) : TileKind := if isInt f then .integer else .float

/-! ## Products (09 R181; 11 R203, R204) -/

/-- A BF16 chunk sum at its window (11 R204). -/
def windowSum (ps : List FVal) : FVal :=
  if ps.any (fun p => !p.isFin) then sumVals ps else
  let mags := ps.filterMap (fun p => match p with
    | .fin n m e => if m = 0 then none else some (n, m, e)
    | _ => none)
  match mags with
  | [] => .fin false 0 0
  | h :: _ =>
    let t := mags.foldl (fun (t : Int) p => max t (log2Of p.2.1 p.2.2)) (log2Of h.2.1 h.2.2)
    let q := t - 95
    let part := fun (p : Bool × Nat × Int) => roundMag .tz 0 p.1 p.2.1 p.2.2 q
    let s : Int := (mags.map (fun p => let x : Int := part p; if p.1 then -x else x)).sum
    let sticky := mags.any (fun p => decide (p.2.2 < q) && p.2.1 % 2 ^ (q - p.2.2).toNat != 0)
    let big := mags.foldl (fun (b : Bool × Nat × Int) p =>
      if (FVal.fin false b.2.1 b.2.2).lt (.fin false p.2.1 p.2.2) then p else b) h
    let neg := if s = 0 then big.1 else decide (s < 0)
    if sticky then FVal.ofScaled (4 * s + (if neg then -1 else 1)) (q - 2) false else FVal.ofScaled s q false

/-- One chunk's exact integer sum. -/
def chunkInt (f fw : BitVec 4) (ps : List (BitVec 32 × BitVec 32)) : Int :=
  (ps.map (fun p => sext (fmtBits f) p.1.toNat * sext (fmtBits fw) p.2.toNat)).sum
/-- One chunk's floating-point sum: exact, but for BF16 (09 R181; 11 R203). -/
def chunkFloat (f fw : BitVec 4) (ps : List (BitVec 32 × BitVec 32)) : FVal :=
  let xs := ps.map (fun p => FVal.mul (laneVal f p.1) (laneVal fw p.2))
  if f = Fmt.bf16 ∨ fw = Fmt.bf16 then windowSum xs else sumVals xs

/-- One accumulator after its chunks of up to 16, and whether it was clamped (09 R181). -/
def accumulate (f fw : BitVec 4) (acc : BitVec 64) (ps : List (BitVec 32 × BitVec 32)) : BitVec 64 × Bool :=
  (groups 16 (ceilDiv ps.length 16) ps).foldl (fun (a : BitVec 64 × Bool) c =>
    if isInt f then
      let x := a.1.toInt + chunkInt f fw c
      let y := clampInt (-(2 ^ 63)) (2 ^ 63 - 1) x
      (BitVec.ofInt 64 y, a.2 || decide (x ≠ y))
    else (addExact a.1 (chunkFloat f fw c), a.2)) (acc, false)

/-- The tile after a product: `x` the moving rows, `w` the stationary tile (09 R181). -/
def product (f fw : BitVec 4) (rv : Bool) (rows width kin N : Nat) (x w : List (BitVec 32)) (t : Tile) : Tile :=
  let xa := x.toArray
  let wa := w.toArray
  let la := t.la.toArray
  let rs := (List.range rows).flatMap (fun r => (List.range width).map (fun n =>
    let ps := (List.range kin).map (fun j => (xa.getD (r * kin + j) 0, wa.getD (if rv then n * N + j else j * N + n) 0))
    accumulate f fw (la.getD (r * width + n) 0) ps))
  { t with la := rs.map (·.1), sat := t.sat || rs.any (·.2) }

/-- Whether score `f` of a row comes before score `e` (09 R182). -/
def beats (x y : FVal) (f e : Nat) : Bool :=
  (!x.isNan && y.isNan) || (!x.isNan && !y.isNan && (y.lt x || (x.eq y && decide (f < e)))) || (x.isNan && y.isNan && decide (f < e))
/-- The tile after ranking (09 R182). -/
def rankTile (f : BitVec 4) (rows E : Nat) (x : List (BitVec 32)) (t : Tile) : Tile :=
  let xa := (x.map (laneVal f)).toArray
  let la := t.la.toArray
  { t with la := (List.range rows).flatMap (fun r => (List.range E).map (fun e =>
      la.getD (r * E + e) 0 + BitVec.ofNat 64 ((List.range E).filter (fun g =>
        g != e && beats (xa.getD (r * E + g) .nan) (xa.getD (r * E + e) .nan) g e)).length)) }

/-! ## Tile images (09 R185) -/

/-- The status word of a tile. -/
def tileStatus (t : Tile) : Nat :=
  t.rows + t.width * 2 ^ 10 + (match t.kind with | .float => 0 | .integer => 1 | .rank => 2) * 2 ^ 18 + t.sat.toNat * 2 ^ 20
    + t.poison.toNat * 2 ^ 21
/-- The image of a tile (09 R185). -/
def tileImage (t : Tile) : List Byte :=
  toBytes 8 (tileStatus t) ++ List.replicate 56 0 ++ t.la.flatMap (fun x => toBytes 8 x.toNat)
/-- Whether a tile image's header is malformed: its reserved bytes, KIND and size, and a bit of STATUS that the status mode never writes (09 R185; log 75). -/
def tileImageBad (bs : List Byte) : Bool :=
  let w := field bs 0 8
  !zeroBytes bs 8 56 || bits w 63 22 != 0 || bits w 19 18 == 3 || decide (9216 < bits w 9 0 * bits w 17 10)
/-- The field of a tile image's header that makes it malformed (09 R185; 22 R369). -/
def tileImageValue (bs : List Byte) : Nat := if zeroBytes bs 8 56 then field bs 0 8 else reservedValue bs 8 56
/-- The tile that an image holds (09 R185). -/
def tileOfImage (bs : List Byte) (t : Tile) : Tile :=
  let w := field bs 0 8
  let k := bits w 19 18
  { t with rows := bits w 9 0, width := bits w 17 10, kind := if k = 0 then .float else if k = 1 then .integer else .rank
           sat := bit w 20, la := (List.range (bits w 9 0 * bits w 17 10)).map (fun o => BitVec.ofNat 64 (field bs (64 + 8 * o) 8)) }

/-! ## Grants (11 R205, R206) -/

/-- A free physical pane (11 R205). -/
def paneFree (s : State) (core q : Nat) : Bool := (paneOf s core q).owner.isNone && !(paneOf s core q).reserved
/-- A pane as a grant leaves it: nothing of its previous owner (09 R186). -/
def freshPane (ctx log : Nat) : Pane := { owner := some (ctx, log) }

/-- Grant logical pane `p` to a context: the lowest free physical pane, or pair (11 R206). -/
def grantOne (s : State) (a : Agent) (p : Nat) : State :=
  let pick := if coverOf s a = 3 then
      ((List.range 2).find? (fun i => paneFree s a.core (2 * i) && paneFree s a.core (2 * i + 1))).map (fun i => [2 * i, 2 * i + 1])
    else ((List.range 4).find? (paneFree s a.core)).map (fun q => [q])
  match pick with
  | none => s
  | some qs =>
    let s := qs.foldl (fun (s : State) q => modPane s a.core q (fun _ => freshPane a.ctxNo p)) s
    s.modCtx a (fun c => { c with panes := c.panes.setIfInBounds p qs.head? })

/-- The logical panes of a mask in ascending order. -/
def maskPanes (m : BitVec 4) : List Nat := (List.range 4).filter (fun p => m.getLsbD p)

/-- Whether a claim can be granted (11 R206). -/
def claimFits (s : State) (a : Agent) (m : BitVec 4) : Bool :=
  let n := (maskPanes m).length
  if coverOf s a = 3 then
    decide (n ≤ ((List.range 2).filter (fun i => paneFree s a.core (2 * i) && paneFree s a.core (2 * i + 1))).length)
  else decide (n ≤ ((List.range 4).filter (paneFree s a.core)).length)

/-- Grant the pending claims of a core in their order, up to the first that does not fit (11 R206). -/
def grantClaims (s : State) (core : Nat) : State :=
  let cs := (List.range 8).filter (fun k => (s.ctx (.ctx core k)).claim != 0)
  let before := fun (j k : Nat) =>
    let x := s.ctx (.ctx core j)
    let y := s.ctx (.ctx core k)
    decide (y.prio < x.prio) || (x.prio == y.prio && (decide (x.claimCc < y.claimCc) || (x.claimCc == y.claimCc && decide (j ≤ k))))
  let r := (cs.mergeSort before).foldl (fun (r : State × Bool) k =>
    let a := Agent.ctx core k
    let m := (r.1.ctx a).claim
    if r.2 && claimFits r.1 a m then
      (((maskPanes m).foldl (fun (s : State) p => grantOne s a p) r.1).modCtx a (fun c => { c with claim := 0 }), true)
    else (r.1, false)) (s, true)
  r.1

/-- PANE_GRANT: after every TASK of its cc (11 R206; `Ev.late`). -/
def execPaneGrant (s : State) : Res :=
  evStep s (fun
    | .paneGrant core => some (.next (grantClaims s core))
    | _ => none)

/-- Return a physical pane to the pool, its tiles and banks lost; with `keep` it becomes reserved for the scribe's next TASK (11 R205). -/
def returnPane (s : State) (core q : Nat) (keep : Bool) : State :=
  modPane s core q (fun _ => { reserved := keep })

/-- Return the physical panes of a logical pane to the pool. -/
def releasePane (s : State) (a : Agent) (p : Nat) : State :=
  let s' := (physPanes s a p).foldl (fun (s : State) q => returnPane s a.core q false) s
  s'.modCtx a (fun c => { c with panes := c.panes.setIfInBounds p none })

/-- At a bundle boundary, the panes that MXPN released leave the context (09 R186). -/
def applyReleases (s : State) (a : Agent) : State :=
  let m := (s.ctx a).rel
  if m = 0 then s else
  let s := (maskPanes m).foldl (fun (s : State) p => releasePane s a p) s
  let s := s.modCtx a (fun c => { c with rel := 0 })
  s.at_ s.cc (.paneGrant a.core)

/-! ## Operations in a pane (09 R175, R180) -/

/-- Whether a fetch has not arrived. -/
def fetchPending (s : State) (a : Agent) (id : Nat) : Bool :=
  (s.ctx a).flight.any (fun e => e.id == id && e.kind == .fetch && !e.arrived)

/-- Put an operation into a pane's queue and schedule its start. -/
def queueOp (s : State) (core q : Nat) (o : PaneOp) : State :=
  (modPane s core q (fun p => { p with ops := p.ops ++ [o] })).at_ (Nat.max o.startCc (s.cc + 1)) (.paneOperationStart core q)

/-- Whether the operations ahead of one in its pane let it start in cc `cc`. Those that work on the array have started, will not replay, and
their occupancy has passed; an MXLD waits only for the readers of its bank and for its own order there, and a product waits for its bank
(09 R175, R176; 11 R202). -/
def mayStart (cc : Nat) (o : PaneOp) (ahead : List PaneOp) : Bool :=
  ahead.all (fun x =>
    let passed := x.started && x.replay.isNone && decide (x.doneCc ≤ cc + x.lat - x.occ)
    match o.fam, x.fam with
    | .mxld, .mxld => x.bank != o.bank || (x.started && x.replay.isNone)
    | .mxld, .mxa => x.bank != o.bank || passed
    | .mxld, _ => true
    | .mxa, .mxld => x.bank != o.bank
    | _, .mxld => true
    | .save, _ => x.tile != o.tile && passed
    | _, _ => passed)

/-- Whether a fetch that will replay lets its operation begin before its data (09 R180). -/
def dataReady (s : State) (o : PaneOp) : Bool := o.replay.isSome || !fetchPending s o.who o.id

/-- The first operation that may start in this cc, with those ahead of it and behind it. -/
def nextStart (s : State) : List PaneOp → List PaneOp → Option (List PaneOp × PaneOp × List PaneOp)
  | _, [] => none
  | acc, o :: r =>
    if !o.started && decide (o.startCc ≤ s.cc) && o.fault.isNone && dataReady s o && mayStart s.cc o acc then some (acc, o, r)
    else nextStart s (acc ++ [o]) r

/-- The tile that an operation leaves (09 R181, R182, R185). -/
def opTile (p : Pane) (o : PaneOp) : Tile :=
  let t := p.tile o.tile
  let base := if o.zs then { t with rows := o.rows, width := o.width, kind := if o.fam = .mxrk then .rank else fmtKind o.fmt, sat := false
                                    la := List.replicate (o.rows * o.width) 0 } else t
  let x := match o.req with
    | some q => tileLanes q o.buf
    | none => o.els
  match o.fam with
  | .mxa =>
    let b := p.bank o.bank
    let g := if b.valid then b.gang else Fmt.gangOf o.fmt
    let fw := if b.valid then b.fmt else o.fmt
    product o.fmt fw o.rv o.rows o.width o.kin (gangShape g).2 x b.els base
  | .mxrk => rankTile o.fmt o.rows o.width x base
  | .restore => tileOfImage o.buf t
  | _ => t

/-- An operation starts: its target is copied to the pane's shadow, and its work on the tile begins (09 R180); a save takes the tile as it stands, which an operation
that starts after its occupancy may change before its image is written (09 R175, R185). -/
def startOp (s : State) (core q : Nat) (ahead : List PaneOp) (o : PaneOp) (behind : List PaneOp) : State :=
  let o := { o with started := true, doneCc := s.cc + o.lat }
  let s := modPane s core q (fun p =>
    let p := { p with ops := ahead ++ o :: behind }
    match o.fam with
    | .mxa | .mxrk | .restore => { (p.setTile o.tile (opTile p o)) with shadow := some (o.tile, p.tile o.tile) }
    | .save => { p with ops := ahead ++ { o with buf := tileImage (p.tile o.tile) } :: behind }
    | _ => p)
  s.after o.lat (.paneOperationComplete core q)

/-- The trap of a restore whose image is malformed (09 R185). -/
def badImageTrap (o : PaneOp) : TrapRec :=
  { cause := 0x02, det := { d0 := BitVec.ofNat 64 (o.pos + o.word.toNat * 2 ^ 32), d1 := BitVec.ofNat 64 (tileImageValue o.buf) }, bund := o.bund }
/-- Whether an MXLD of a pane completes in this cc: what waits for it may start behind it (09 R175). -/
def loadEnds (s : State) (ops : List PaneOp) : Bool := ops.any (fun o => o.fam == .mxld && o.started && o.replay.isNone && o.doneCc == s.cc)

/-- PANE_OPERATION_START (09 R175, R180): an operation whose time has come starts once its operands have arrived and the operations ahead of it
allow it; while others wait, the pane is looked at again, behind the MXLD that completes in this cc or in the next cc. A restore of a malformed image traps when it
lands (R185). -/
def execPaneOperationStart (s : State) : Res :=
  evStep s (fun
    | .paneOperationStart core q => some (
      match nextStart s [] (paneOf s core q).ops with
      | some (ahead, o, behind) =>
        if o.fam = .restore ∧ tileImageBad o.buf then
          .next ((modPane s core q (fun p => { p with ops := ahead ++ { o with fault := some (badImageTrap o) } :: behind })).at_ s.cc (.paneFetchFailure core q)) else
        let s := startOp s core q ahead o behind
        .next (if behind.any (fun x => !x.started) || ahead.any (fun x => !x.started) then s.at_ s.cc (.paneOperationStart core q) else s)
      | none =>
        if !(paneOf s core q).ops.any (fun x => !x.started && decide (x.startCc ≤ s.cc)) then .next s
        else if loadEnds s (paneOf s core q).ops then .next (s.at_ s.cc (.paneOperationStart core q))
        else .next (s.after 1 (.paneOperationStart core q)))
    | _ => none)

/-- The write of a tile image performs, or meets a lease (09 R179, R185). -/
def saveImage (s : State) (o : PaneOp) (bs : List Byte) : State :=
  let ps := cutPieces o.segs bs
  let w : Withheld := { pos := o.pos, word := o.word, bund := o.bund, regs := [0, o.va], eff := .drain }
  match leaseOf s o.who o.id ps with
  | some (x, l) => s.deliver o.who (leaseTrap s w x l)
  | none => (ps.foldl (fun (r : State × Nat) p =>
      (engineWrite r.1 o.who p.loc p.bytes { who := o.who, bund := o.bund, va := w.byteAddr r.2, det0 := some w.slotDet }, r.2 + p.bytes.length)) (s, 0)).1

/-- Whether a save waits: for a store that its context released before it and that has not performed, one on its way to a fabric address among them (09 R185). -/
def saveWaits (s : State) (o : PaneOp) : Bool :=
  o.fam == .save && ((s.relqs.get [] o.who.relKey).any (fun r => r.who == o.who && decide (r.id < o.id)) || s.remotePending o.who 5)
/-- Whether a turn performs a released effect before a core's, or is its own, in the order of a cc (12 R222; 21 R363). -/
def performsBefore (core : Nat) : Turn → Bool
  | .perform b => decide (b.die < core / 128 ∨ (b.die = core / 128 ∧ b.relKey ≤ core))
  | _ => false
/-- A turn right behind the last one that satisfies a test. -/
def turnBehind (p : Turn → Bool) (t : Turn) : List Turn → List Turn
  | [] => [t]
  | u :: r => if (u :: r).any p then u :: turnBehind p t r else t :: u :: r

/-- PANE_OPERATION_COMPLETE: an operation whose time has passed leaves its pane (09 R175, R178, R185); a save writes in its core's place among the writes of the cc
(12 R222; 21 R363). -/
def execPaneOperationComplete (s : State) : Res :=
  evStep s (fun
    | .paneOperationComplete core q => some (
      let p := paneOf s core q
      let ended := p.ops.filter (fun o => o.started && o.replay.isNone && decide (o.doneCc ≤ s.cc))
      match ended.find? (fun o => !saveWaits s o) with
      | none => .next (if ended.isEmpty then s else s.after 1 (.paneOperationComplete core q))
      | some o =>
        if o.fam = .save ∧ s.turns.any (performsBefore core) then .next { s with turns := turnBehind (performsBefore core) (.save core q) s.turns } else
        let s := modPane s core q (fun p => { p with ops := p.ops.filter (fun x => x != o) })
        match o.fam, o.req with
        | .mxld, some r =>
          .next (modPane s core q (fun p =>
            p.setBank o.bank { p.bank o.bank with valid := true, fmt := o.fmt, gang := o.gang, els := tileLanes r o.buf }))
        | .save, _ => .next (saveImage s o o.buf)
        | _, _ => .next s)
    | _ => none)

/-- PANE_REPLAY: the walk that a fetch missed for has succeeded; the operation restarts from its shadow in this cc (09 R180; 11 R202). -/
def execPaneReplay (s : State) : Res :=
  evStep s (fun
    | .paneReplay core q => some (
      let p := paneOf s core q
      match p.ops.find? (fun o => o.replay == some s.cc) with
      | none => .next s
      | some o =>
        let back := { o with replay := none, started := false, startCc := s.cc }
        let s := modPane s core q (fun p =>
          let p := { p with ops := p.ops.map (fun x => if x = o then back else x) }
          match p.shadow with
          | some (t, x) => if o.started ∧ t = o.tile ∧ o.fam ≠ .mxld ∧ o.fam ≠ .save then p.setTile t { x with
              poison := (p.tile t).poison, iRows := (p.tile t).iRows, iWidth := (p.tile t).iWidth, iKind := (p.tile t).iKind, done := (p.tile t).done } else p
          | none => p)
        .next (s.at_ s.cc (.paneOperationStart core q)))
    | _ => none)

/-- End the leases of a fetch. -/
def endLeases (s : State) (k : LeaseKind) (ref : Nat) : State :=
  { s with leases := s.leases.filter (fun x => !(x.kind == k && x.ref == ref)) }

/-- What the operations still in a pane leave of a tile's shape (09 R181). -/
def settleTile (ops : List PaneOp) (no : Nat) (t : Tile) : Tile :=
  (ops.filter (fun o => o.tile == no && !o.started && o.fam != .mxld && o.fam != .save && (o.zs || o.fam == .restore))).foldl (fun (t : Tile) o =>
    { t with iRows := o.rows, iWidth := o.width
             iKind := if o.fam = .restore then (if o.kin = 0 then .float else if o.kin = 1 then .integer else .rank)
                      else if o.fam = .mxrk then .rank else fmtKind o.fmt })
    { t with iRows := t.rows, iWidth := t.width, iKind := t.kind }
/-- What the operations still in a pane leave in a bank (09 R181). -/
def settleBank (ops : List PaneOp) (no : Nat) (b : Bank) : Bank :=
  (ops.filter (fun o => o.fam == .mxld && o.bank == no)).foldl (fun (b : Bank) o => { b with iset := true, iFmt := o.fmt, iGang := o.gang })
    { b with iset := b.valid, iFmt := b.fmt, iGang := b.gang }
/-- A pane whose queue has lost operations. -/
def settlePane (p : Pane) (ops : List PaneOp) : Pane :=
  { p with ops := ops, t0 := settleTile ops 0 p.t0, t1 := settleTile ops 1 p.t1, b0 := settleBank ops 0 p.b0, b1 := settleBank ops 1 p.b1 }

/-- PANE_FETCH_FAILURE: the pane restores its shadow, the operation is abandoned with every operation behind it, an MXLD alone; the context that
issued it traps (09 R178, R180). The fetch of an MXLD that other panes still hold goes on, under its lease (09 R179). A bank whose MXLD failed holds free values
(log 4). -/
def execPaneFetchFailure (s : State) : Res :=
  evStep s (fun
    | .paneFetchFailure core q => some (
      match (paneOf s core q).ops.find? (fun o => o.fault.isSome) with
      | none => .next s
      | some o =>
        let s := endLeases s .fetch o.id
        let s := match o.fault with
          | some t => s.deliver o.who (if t.dfr ∧ t.det.d0 = 4 then { t with det := { t.det with d0 := BitVec.ofNat 64 (4 + q * 2 ^ 8) } } else t)
          | none => s
        if o.fam = .mxld then
          let r := s.freeElems ((gangShape o.gang).1 * (gangShape o.gang).2)
          .next ((List.range 4).foldl (fun (s : State) k =>
            if (paneOf s core k).ops.any (fun x => x.id == o.id) then
              modPane s core k (fun p =>
                { p.setBank o.bank { p.bank o.bank with valid := true, fmt := o.fmt, gang := o.gang, els := r.1 } with
                  ops := p.ops.filter (fun x => x.id != o.id) })
            else s) r.2)
        else
          let gone := (List.range 4).flatMap (fun k => (paneOf s core k).ops.dropWhile (fun x => x.id != o.id))
          let s := (List.range 4).foldl (fun (s : State) k =>
            if (paneOf s core k).ops.any (fun x => x.id == o.id) then
              modPane s core k (fun p =>
                let p := match p.shadow with
                  | some (t, x) => if o.started ∧ t = o.tile then p.setTile t { x with poison := (p.tile t).poison, done := (p.tile t).done } else p
                  | none => p
                settlePane p (p.ops.takeWhile (fun x => x.id != o.id)))
            else s) s
          .next (gone.foldl (fun (s : State) x =>
            if (List.range 4).any (fun k => (paneOf s core k).ops.any (fun y => y.id == x.id)) then s else endLeases s .fetch x.id) s))
    | _ => none)

end Sys2Proof.Machine
end

