-- ==== Sys2Proof/Machine/Reencode.lean ====
section
/-!
DEFINITION. Re-encoding a governed region after its entry has changed: the touch that finds it stale, the start with its exclusions, the end with
its transform and tags, the failure (11 R213-R217).
-/

namespace Sys2Proof.Machine

/-- The cc that a channel's first line takes beyond its start: the levels of its endpoints (15 R274; log 7). -/
def firstLine : Nat := 24

/-! ## Extents -/

/-- The tiles of the planes of an encoding over a region: plane, address, bytes of the plane in the tile (11 R213, R214). -/
def encTiles (d : RegionDesc) (f : BitVec 4) (b32 : Bool) : List (BitVec 2 × Nat × Nat) :=
  (planesUsed f).flatMap (fun p =>
    let n := planeBytes f b32 p (d.rows * d.rowlen)
    (List.range (ceilDiv n 4096)).map (fun j => (p, d.bases.getD p.toNat 0 + 4096 * j, Nat.min 4096 (n - 4096 * j))))

/-- Resolve pieces that each lie in one tile. -/
def resolveTiles (s : State) (who : Agent) (acc : Acc) (sp : Space) : List (Nat × Nat) → Except AFault (List (Loc × Nat) × State)
  | [] => .ok ([], s)
  | (ea, n) :: r =>
    if ea % 4096 ≠ 0 then .error { cause := 0x24, d1 := BitVec.ofNat 64 ea } else
    match resolve s who acc sp (BitVec.ofNat 64 ea) n with
    | .error f => .error f
    | .ok (l, s) =>
      if l.fabric then .error (accFault 0x21 acc ea 0 0) else
      match resolveTiles s who acc sp r with
      | .error f => .error f
      | .ok (ls, s) => .ok ((l, n) :: ls, s)

/-- A range that lies in one page, cut at its lines (20 R350). -/
def lineCut (l : Loc) (n : Nat) : List (Loc × Nat) :=
  let o := linOf l % 128
  (List.range (ceilDiv (o + n) 128)).map (fun j => if j = 0 then (l, Nat.min (128 - o) n) else (l.plus (128 * j - o), Nat.min 128 (n + o - 128 * j)))

/-- An engine's read of ranges, line by line. -/
def engReadAll (s : State) (who : Agent) (segs : List (Loc × Nat)) : List Byte × State :=
  (segs.flatMap (fun g => lineCut g.1 g.2)).foldl (fun (r : List Byte × State) g =>
    let x := engineRead r.2 who g.1 g.2
    (r.1 ++ x.1, x.2.2)) ([], s)

/-- An engine's write of ranges, line by line; `rem` is the record of what leaves for a fabric address, its `va` that of the first byte. -/
def engWriteAll (s : State) (who : Agent) (segs : List (Loc × Nat)) (bs : List Byte) (rem : Remote := { who := who }) : State :=
  ((segs.flatMap (fun g => lineCut g.1 g.2)).foldl (fun (r : State × List Byte) g =>
    (engineWrite r.1 who g.1 (r.2.take g.2) { rem with va := rem.va + BitVec.ofNat 64 (bs.length - r.2.length) }, r.2.drop g.2)) (s, bs)).1

/-- Add leases over ranges. -/
def addLeases (s : State) (k : LeaseKind) (who : Agent) (ref : Nat) (segs : List (Loc × Nat)) : State :=
  { s with leases := s.leases ++ segs.map (fun g => { kind := k, lo := linOf g.1, hi := linOf g.1 + g.2, who := who, ref := ref }) }

/-- The first byte of a list of ranges that a lease of a given sort covers, with that lease: its range is the first that one covers in part. -/
def leaseOver (s : State) (p : Lease → Bool) (segs : List (Loc × Nat)) : Option (Lease × Loc) :=
  segs.findSome? (fun g => (s.leases.find? (fun x => p x && decide (x.lo < linOf g.1 + g.2 ∧ linOf g.1 < x.hi))).map (fun x => (x, g.1.plus (x.lo - linOf g.1))))
/-- The first byte of a list of ranges that a lease of a given sort covers. -/
def leasedBy (s : State) (p : Lease → Bool) (segs : List (Loc × Nat)) : Option Loc := (leaseOver s p segs).map (·.2)

/-! ## Touches (11 R213, R215) -/

/-- The encoding that a region's bytes have (11 R214). -/
def sourceEnc (s : State) (r : Reenc) (d : RegionDesc) : BitVec 4 × Bool :=
  match asIdent s r.who r.id (fun s => resolve s r.who .engRd d.space (BitVec.ofNat 64 (d.bases.getD 0 0)) 1) with
  | .ok (l, _) =>
    let t := tagOf s l
    if t.getLsbD 15 then (t.extractLsb' 8 4, t.getLsbD 12) else (d.ifmt, d.ib32)
  | .error _ => (d.ifmt, d.ib32)

/-- The planes that the old and the new encoding of a re-encode use (11 R214). -/
def reencPlanes (s : State) (r : Reenc) : List (BitVec 2) :=
  match parseDesc r.desc with
  | some d => planesUsed r.fmt ++ planesUsed (sourceEnc s r d).1
  | none => []
/-- The descriptors of two re-encodes' regions, when both lie in one space of one process: space p is each cluster's own (11 R199, R213; 17 R302). -/
def sameSpace (a b : Reenc) : Option (RegionDesc × RegionDesc) :=
  match parseDesc a.desc, parseDesc b.desc with
  | some d, some e => if a.proc = b.proc ∧ d.space = e.space ∧ (d.space ≠ .p ∨ a.who.cluster? = b.who.cluster?) then some (d, e) else none
  | _, _ => none
/-- Whether two re-encodes are of one region: its extent, its entry, its space and the bases of the planes in use (11 R199, R213). -/
def sameRegion (s : State) (a b : Reenc) : Bool :=
  match sameSpace a b with
  | some (d, e) => d.rows == e.rows && d.rowlen == e.rowlen && d.gov == e.gov &&
      (reencPlanes s a).all (fun p => d.bases.getD p.toNat 0 == e.bases.getD p.toNat 0)
  | none => false
/-- Whether the regions of two re-encodes share the base of a plane in use (11 R215). -/
def sharePlane (s : State) (a b : Reenc) : Bool :=
  match sameSpace a b with
  | some (d, e) => (reencPlanes s a).any (fun p => (reencPlanes s b).any (fun q => d.bases.getD p.toNat 0 == e.bases.getD q.toNat 0))
  | none => false
/-- A touch that finds its region stale: it joins the re-encode of the region to the encoding it read, or starts one in this cc. -/
def touchStale (s : State) (who : Agent) (tbl x : Nat) (daddr : BitVec 64) (desc : List Byte) (join : Reenc → Reenc) : State :=
  let g := govEntry s tbl x
  let r : Reenc := { daddr := daddr, desc := desc, proc := s.procOf who, who := who, id := identOf s who, tbl := tbl, entry := x, fmt := g.fmt, b32 := g.bs32
                     rev := g.rev, rnd := g.rnd }
  match s.reencs.find? (fun e => sameRegion s r e.2 && e.2.fmt == r.fmt && e.2.b32 == r.b32 && e.2.rev == r.rev && e.2.fault.isNone) with
  | some (id, e) => { s with reencs := s.reencs.insert id (join e) }
  | none =>
    let (id, s) := s.newId
    { s with reencs := s.reencs.insert id (join r) }.at_ s.cc (.reencodeStart id)

/-! ## The three steps -/

/-- A re-encode stops before any write (11 R216). -/
def failReenc (s : State) (id : Nat) (r : Reenc) (addr : BitVec 64) (cause : Nat) : State :=
  { s with reencs := s.reencs.insert id { r with fault := some (addr, cause) } }.at_ s.cc (.reencodeFailure id)

/-- The agent that a re-encode's accesses are made as: that of the cluster whose vault or slice holds BASE0, whose copy engine it uses (11 R215); for a region in space
p, of which the rule names none, the pad's own cluster, a choice (log 85). -/
def reencAgent (s : State) (so : List (Loc × Nat)) : Agent :=
  match so.head? with
  | some (l, _) => .scribe (match l.space with
    | .p => (l.key - 2 ^ 52) / 2 ^ 22 % 64
    | .v => (l.key - 2 ^ 53) / 2 ^ 27 % 64
    | _ => placeHome s l)
  | none => .scribe 0
/-- The fetches that a re-encode does not wait for: those that wait for it, or for one that began later (11 R215; log 49). -/
def notAwaited (s : State) (id : Nat) : List Nat := (s.reencs.filter (fun e => decide (id ≤ e.1))).flatMap (fun e => e.2.waiters.map (fun w => w.2.1))
/-- Whether an earlier re-encode of a plane of the region has yet to end (11 R215; log 49). -/
def reencBehind (s : State) (id : Nat) (r : Reenc) : Bool :=
  s.reencs.any (fun e => decide (e.1 < id) && e.2.fault.isNone && sharePlane s e.2 r)
/-- A re-encode has ended: the channels that wait for it get their data after the time that they had at their start (11 R215; 15 R274). -/
def wakeChans (s : State) (r : Reenc) : State :=
  r.chans.foldl (fun (s : State) c => s.modCluster c.1 (fun x => { x with chans := x.chans.upd {} c.2 (fun h => { h with nextCc := Nat.max h.nextCc (s.cc + firstLine) }) })) s
/-- The first word of a range that an uncorrectable error makes unreadable (17 R315). -/
def poisonWord (s : State) (l : Loc) (n : Nat) : Loc :=
  l.plus (((List.range (ceilDiv n 8)).find? (fun i => s.poisonedAt (l.plus (8 * i)) 8)).getD 0 * 8)

/-- A fetch that waited reads its tile as the re-encode leaves it; its data arrives after the time it had at its issue (11 R215). -/
def refetch (s : State) (w : Agent × Nat × TileReq × Nat) : State :=
  let (a, id, q, lat) := w
  let set := fun (s : State) (put : Flight → Flight) =>
    (s.modCtx a (fun c => { c with flight := c.flight.map (fun e => if e.id = id ∧ e.kind = .fetch then put e else e) })).after lat (.loadLanding a id)
  let trap := fun (f : AFault) => ({ cause := f.cause, det := { d0 := 4, d1 := f.d1, d2 := f.d2, d3 := f.d3 }, dfr := true } : TrapRec)
  match parseDesc q.desc with
  | none => s
  | some d =>
    match resolvePieces s a .engRd d.space (tilePieces d q) with
    | .error f => set s (fun e => { e with fault := some (trap f) })
    | .ok (segs, s) =>
      let r := fetchSegs s a segs
      let bad := if r.2.1 then some (trap (poisonFault s segs (pieceAddrs (tilePieces d q)))) else none
      set r.2.2.2 (fun e => { e with buf := r.1, fault := bad.or e.fault })

/-- REENCODE_START (11 R215, R216): it waits for bounded leases but those of its waiters, and for earlier re-encodes of its planes, which may leave its
region fresh; a lease of another kind, a page of either encoding or an unreadable word fails it. -/
def execReencodeStart (s : State) : Res :=
  evStep s (fun
    | .reencodeStart id => some (
      match s.reencs.find? (fun e => e.1 == id) with
      | none => .next s
      | some (_, r) =>
        match parseDesc r.desc with
        | none => .next s
        | some d =>
          let src := sourceEnc s r d
          let old := encTiles d src.1 src.2
          let new := encTiles d r.fmt r.b32
          match asIdent s r.who r.id (fun s => resolveTiles s r.who .engRd d.space (old.map (·.2))) with
          | .error f => .next (failReenc s id r f.d1 f.cause)
          | .ok (so, s) =>
            match asIdent s r.who r.id (fun s => resolveTiles s r.who .engWr d.space (new.map (·.2))) with
            | .error f => .next (failReenc s id r f.d1 f.cause)
            | .ok (sn, s) =>
              let mine := notAwaited s id
              if reencBehind s id r || (leasedBy s (fun x => x.kind == .reenc || (x.kind == .fetch && !mine.contains x.ref)) (so ++ sn)).isSome then
                .next (s.after 1 (.reencodeStart id))
              else if sn.all (fun g => tagOf s g.1 == tagWord r.b32 r.fmt r.rev) then
                .next (r.waiters.foldl refetch (wakeChans { s with reencs := s.reencs.erase id } r))
              else match leasedBy s (fun x => x.kind == .well || x.kind == .coll) (so ++ sn) with
                | some l => .next (failReenc s id r (BitVec.ofNat 64 (Loc.addr s l)) 0x34)
                | none =>
                  match so.find? (fun g => s.poisonedAt g.1 g.2) with
                  | some g => .next (failReenc s id r (BitVec.ofNat 64 (Loc.addr s (poisonWord s g.1 g.2))) 0x51)
                  | none =>
                    let s := addLeases { s with reencs := s.reencs.insert id { r with running := true } } .reenc r.who id (so ++ sn)
                    .next (s.after (512 * new.length) (.reencodeEnd id)))
    | _ => none)

/-- The elements of a region in its new encoding, and the results clamped (11 R214). -/
def reencodeLanes (r : Reenc) (d : RegionDesc) (fs : BitVec 4) (lanes : List (BitVec 32)) : List (BitVec 32) × Nat :=
  let mode := if rankOf r.fmt < rankOf fs then Rnd.ofCode r.rnd else .ne
  let xs := lanes.zipIdx.map (fun l => (laneVal fs l.1, mixer d.seed d.tid l.2 r.rev.toNat / 2 ^ 48))
  if r.fmt = Fmt.fp16 then
    let ys := xs.map (fun x => valLane r.fmt mode x.2 x.1)
    (ys.map (·.1), (ys.filter (·.2)).length)
  else sxLanes r.fmt mode (blockSize r.b32) xs

/-- The bytes of a plane of lanes (03 R60, R61, R63). -/
def planeImageBytes (f : BitVec 4) (b32 : Bool) (p : BitVec 2) (lanes : List (BitVec 32)) : List Byte :=
  let a := lanes.toArray
  let k := planeSpan p (blockSize b32)
  toBytes (planeBytes f b32 p lanes.length)
    (packNat (planeWidth f p) (fun x => planeField f p (a.getD (k * x) 0)) (ceilDiv lanes.length k))

/-- A 32-bit count that holds at its maximum. -/
def holdAdd32 (a : BitVec 32) (n : Nat) : BitVec 32 := BitVec.ofNat 32 (Nat.min (2 ^ 32 - 1) (a.toNat + n))

/-- Read the elements of a region in an encoding. -/
def regionLanes (s : State) (who : Agent) (d : RegionDesc) (f : BitVec 4) (b32 : Bool) (tiles : List (BitVec 2 × Nat × Nat)) (segs : List (Loc × Nat)) :
    List (BitVec 32) × State :=
  let r := (planesUsed f).foldl (fun (acc : List (BitVec 2 × Nat × List Byte) × State) p =>
    let mine := (tiles.zip segs).filter (fun x => x.1.1 == p)
    let x := engReadAll acc.2 who (mine.map (·.2))
    (acc.1 ++ [(p, 0, x.1)], x.2)) ([], s)
  (lanesFrom f b32 0 (d.rows * d.rowlen) r.1, r.2)

/-- Write a region's elements in an encoding and tag its tiles (11 R214). -/
def writeRegion (s : State) (who : Agent) (f : BitVec 4) (b32 : Bool) (rev : BitVec 16) (tiles : List (BitVec 2 × Nat × Nat)) (segs : List (Loc × Nat))
    (lanes : List (BitVec 32)) : State :=
  let s := (planesUsed f).foldl (fun (s : State) p =>
    engWriteAll s who (((tiles.zip segs).filter (fun x => x.1.1 == p)).map (·.2)) (planeImageBytes f b32 p lanes)) s
  segs.foldl (fun (s : State) g => setTag s g.1 (tagWord b32 f rev)) s

/-- The transform of a re-encode: every read precedes every write (11 R214). -/
def reencodeRegion (s : State) (r : Reenc) (d : RegionDesc) (src : BitVec 4 × Bool) (so sn : List (Loc × Nat)) : State :=
  let old := encTiles d src.1 src.2
  let new := encTiles d r.fmt r.b32
  let who := reencAgent s so
  let x := regionLanes s who d src.1 src.2 old so
  let y := reencodeLanes r d src.1 x.1
  let s := so.foldl (fun (s : State) g => setTag s g.1 (tagOf s g.1 &&& 0x7FFF)) x.2
  let s := writeRegion s who r.fmt r.b32 r.rev new sn y.1
  modEntry s r.tbl r.entry (fun g => { g with retile := holdAdd32 g.retile new.length, resat := holdAdd32 g.resat y.2 })

/-- REENCODE_END (11 R214, R215). -/
def execReencodeEnd (s : State) : Res :=
  evStep s (fun
    | .reencodeEnd id => some (
      match s.reencs.find? (fun e => e.1 == id) with
      | none => .next s
      | some (_, r) =>
        match parseDesc r.desc with
        | none => .next s
        | some d =>
          let s := endLeases s .reenc id
          let src := sourceEnc s r d
          match asIdent s r.who r.id (fun s => resolveTiles s r.who .engRd d.space ((encTiles d src.1 src.2).map (·.2))) with
          | .error f => .next (failReenc s id r f.d1 f.cause)
          | .ok (so, s) =>
            match asIdent s r.who r.id (fun s => resolveTiles s r.who .engWr d.space ((encTiles d r.fmt r.b32).map (·.2))) with
            | .error f => .next (failReenc s id r f.d1 f.cause)
            | .ok (sn, s) =>
              let s := reencodeRegion { s with reencs := s.reencs.erase id } r d src so sn
              .next (r.waiters.foldl refetch (wakeChans s r)))
    | _ => none)

/-- The trap of a failed re-encode (11 R216; 22 R368, R369). -/
def reencTrap (r : Reenc) (addr : BitVec 64) (cause : Nat) : TrapRec :=
  { cause := 0x42, det := { d0 := 3, d1 := r.daddr, d2 := addr, d3 := BitVec.ofNat 64 cause }, dfr := true }

/-- The operations of a fetch fail with a fault: the pane's own step abandons them (09 R180). -/
def failFetch (s : State) (a : Agent) (id : Nat) (t : TrapRec) : State :=
  let s := s.modCtx a (fun c => { c with flight := c.flight.filter (fun e => !(e.id == id && e.kind == .fetch)) })
  let hit := (List.range 4).filter (fun q => (paneOf s a.core q).ops.any (fun o => o.id == id))
  let s := hit.foldl (fun (s : State) q => modPane s a.core q (fun p =>
    { p with ops := p.ops.map (fun o => if o.id = id then { o with fault := some { t with bund := o.bund } } else o) })) s
  match hit with
  | q :: _ => s.at_ s.cc (.paneFetchFailure a.core q)
  | [] => endLeases s .fetch id

/-- REENCODE_FAILURE: every touch that waits fails with 0x42; the region and its tags are unchanged (11 R216). -/
def execReencodeFailure (s : State) : Res :=
  evStep s (fun
    | .reencodeFailure id => some (
      match s.reencs.find? (fun e => e.1 == id) with
      | some (_, r) =>
        let f := r.fault.getD (0, 0)
        let s := endLeases { s with reencs := s.reencs.erase id } .reenc id
        let s := r.waiters.foldl (fun (s : State) w => failFetch s w.1 w.2.1 (reencTrap r f.1 f.2)) s
        .next (r.chans.foldl (fun (s : State) c => s.at_ s.cc (.copyChannelHalt c.1 c.2 0x42 0 f.1 f.2)) s)
      | none => .next s)
    | _ => none)

end Sys2Proof.Machine
end

