-- ==== Sys2Proof/Machine/Queues.lean ====
section
/-!
DEFINITION. Meanings of the queue families QPUSH and QBIND, and the swapping of queues (12 R224-R228; 14 R263).
-/

namespace Sys2Proof.Machine

/-! ## The queue table (12 R224, R225) -/

/-- The capacity of a queue (12 R224). -/
def Queue.cap (q : Queue) : Nat := 2 ^ q.log2cap
/-- Free space of a queue, less the reservations made on it (12 R224, R226). -/
def Queue.space (q : Queue) : Nat := q.cap - (q.pushed - q.popped).toNat - q.resv
/-- A value with a reserved bit that is not zero, or out of its range (12 R223). -/
def badOperand (s : State) (x : Word) : Res := trapAt s 0x02 0 x
/-- The wait of a slot that touches a queue other than through a bound head (12 R225-R227; 22 R369). -/
def touchHold (s : State) (key : Nat) (k : Nat) : Hold :=
  let q := s.queue key
  { limit := some q.waitlim, cause := 0x32
    det := { d0 := s.slotDet 0, d1 := BitVec.ofNat 64 (key % 4096), d2 := BitVec.ofNat 64 k, d3 := (q.pushed - q.popped).setWidth 64 }, pos := s.pos }
/-- A slot that touches a queue: none of that number traps, one that is resident nowhere is waited for (12 R225). -/
def touchQueue (s : State) (key : Nat) (k : Nat) (go : Res) : Res :=
  let q := s.queue key
  if !q.present then trapAt s 0x32 1 (BitVec.ofNat 64 (key % 4096))
  else if q.home.isNone then .next (s.hold (touchHold s key k))
  else go

/-! ## QPUSH (12 R226) -/

/-- A push to the queue that `b` names: its checks, then what `go` does with the queue's key (12 R225, R226). -/
def pushChecks (s : State) (b : Word) (go : Nat → Res) : Res :=
  if wbits b 63 12 ≠ 0 then badOperand s b else
  let key := s.queueKey s.who (wbits b 11 0)
  if !(s.queue key).present then trapAt s 0x32 1 (BitVec.ofNat 64 (key % 4096)) else go key
/-- Reserve space in a queue and withhold the push (12 R220, R226). -/
def pushOp (s : State) (b : Word) (k : Nat) (x : Word) (eos : Bool) (rd : List Word) : Res :=
  pushChecks s b (fun key => touchQueue s key k (
    if (s.queue key).space = 0 then .next (s.hold (touchHold s key k))
    else withhold (s.modQueue key (fun q => { q with resv := q.resv + 1 })) (.qpush key x eos) rd))

/-- QPUSH of a register (12 R226). -/
def execQpush (h : Hdr) (a b : BitVec 5) (eos : Bool) (s : State) : Res :=
  slotOp (.qpush h a b eos) h s (fun s => pushOp s (s.rs b) 0 (s.rs a) eos [s.rs a, s.rs b])
/-- QPUSH of the element latched in a head, which it does not pop; before it waits for one, the queue that it names is checked (12 R225, R226, R228). -/
def execQpushFwd (h : Hdr) (k : BitVec 2) (b : BitVec 5) (s : State) : Res :=
  slotOp (.qpushFwd h k b) h s (fun s =>
    if !(s.head k).bound then trapAt s 0x16 0 (k.setWidth 64) else
    match s.latched s.who (s.head k) with
    | none => pushChecks s (s.rs b) (fun _ => .next (s.hold (s.queueHold k)))
    | some e => pushOp s (s.rs b) k.toNat e.1 e.2 [e.1, s.rs b])

/-! ## QBIND (12 R227) -/

/-- Pops that an agent has made of a queue and that have not performed. -/
def popsPending (s : State) (a : Agent) (key : Nat) : Nat :=
  ((s.ctx a).held.filter (fun w => w.eff == .qpop key)).length
    + ((s.relqs.get [] a.relKey).filter (fun r => r.who == a && r.w.eff == .qpop key)).length

/-- End a head's binding at once (12 R227). -/
def dropHead (s : State) (k : BitVec 2) : State :=
  let h := s.head k
  if h.bound then
    let key := s.queueKey s.who h.queue.toNat
    let s := s.modMe (fun c => { c with held := c.held.filter (fun w => w.eff != .qunbind key) })
    s.modQueue key (fun q => if q.head = some (s.who, k.toNat) then { q with head := none } else q)
  else s

/-- QBIND bind: a queue bound to another head is waited for (12 R227). -/
def execQbind (h : Hdr) (k : BitVec 2) (a : BitVec 5) (s : State) : Res :=
  slotOp (.qbind h k a) h s (fun s =>
    let n := wbits (s.rs a) 11 0
    let key := s.queueKey s.who n
    touchQueue s key k.toNat (
      let other := match (s.queue key).head with
        | some b => b != (s.who, k.toNat)
        | none => false
      if other then .next (s.hold (touchHold s key k.toNat))
      else
        let pos := (s.queue key).popped + BitVec.ofNat 32 (popsPending s s.who key)
        let s := dropHead s k
        let s := s.modQueue key (fun q => { q with head := some (s.who, k.toNat) })
        .next (s.modStage (fun c => { c with qh := c.qh.set k.toNat { bound := true, queue := BitVec.ofNat 12 n, pos := pos } k.isLt }))))

/-- QBIND unbind: the binding ends at the next release (12 R227). -/
def execQunbind (h : Hdr) (k : BitVec 2) (s : State) : Res :=
  slotOp (.qunbind h k) h s (fun s =>
    let q := s.head k
    if !q.bound then trapAt s 0x16 0 (k.setWidth 64)
    else withhold s (.qunbind (s.queueKey s.who q.queue.toNat)) [])

/-- QBIND rd (12 R227, R228). -/
def execQrd (h : Hdr) (d : BitVec 5) (k : BitVec 2) (s : State) : Res :=
  slotOp (.qrd h d k) h s (fun s =>
    if !(s.head k).bound then trapAt s 0x16 0 (k.setWidth 64) else
    match s.latched s.who (s.head k) with
    | none => .next (s.hold (s.queueHold k))
    | some e => .next (s.result 2 [s.wS d e.1]))

/-- QBIND stat (12 R227). -/
def execQstat (h : Hdr) (d : BitVec 5) (k : BitVec 2) (s : State) : Res :=
  slotOp (.qstat h d k) h s (fun s =>
    let q := s.head k
    if !q.bound then trapAt s 0x16 0 (k.setWidth 64) else
    let e := s.latched s.who q
    let x := e.isSome.toNat + (match e with
      | some y => y.2.toNat * 2
      | none => 0) + s.available s.who q * 2 ^ 16
    .next (s.result 2 [s.wS d (BitVec.ofNat 64 x)]))

/-! ## The performing side (12 R226, R228) -/

/-- A pop performs: its space is free for producers (12 R220). -/
def performPop (s : State) (key : Nat) : State :=
  s.modQueue key (fun q => { q with popped := q.popped + 1, els := q.els.drop 1 })
/-- An unbind performs: the queue may be bound again (12 R227). -/
def performQunbind (s : State) (a : Agent) (key : Nat) : State :=
  let c := (s.ctx a).live.c
  s.modQueue key (fun q => match q.head with
    | some (b, k) =>
      let h := c.qh.getD k {}
      if b = a ∧ !(h.bound && s.queueKey a h.queue.toNat == key) then { q with head := none } else q
    | none => q)

/-! ## Swapping (14 R263; 15 R296) -/

/-- The addresses of an element in a queue's backing storage (12 R224). -/
def elementAddr (q : Queue) (i : Nat) : BitVec 64 := q.store + BitVec.ofNat 64 (16 * (i % q.cap))

/-- Read `n` elements from a queue's storage, from index `i` on. -/
def readElements (s : State) (proc vf : Nat) (who : Agent) (q : Queue) : Nat → Nat → Except AFault (List (BitVec 64 × Bool) × State)
  | 0, _ => .ok ([], s)
  | n + 1, i =>
    match translate s who proc vf .engRd .m (elementAddr q i) with
    | .error f => .error f
    | .ok (l, s) =>
      if l.fabric then .error (accFault 0x21 .engRd (elementAddr q i).toNat 0 0) else
      let r := engineRead s who l 16
      match readElements r.2.2 proc vf who q n (i + 1) with
      | .error f => .error f
      | .ok (es, s) => .ok ((BitVec.ofNat 64 (field r.1 0 8), bit (field r.1 8 1) 0) :: es, s)

/-- Write elements to a queue's storage, from index `i` on. -/
def writeElements (s : State) (proc vf : Nat) (who : Agent) (q : Queue) : List (BitVec 64 × Bool) → Nat → Except AFault State
  | [], _ => .ok s
  | e :: es, i =>
    match translate s who proc vf .engWr .m (elementAddr q i) with
    | .error f => .error f
    | .ok (l, s) =>
      let s := engineWrite s who l (toBytes 8 e.1.toNat ++ [BitVec.ofNat 8 e.2.toNat] ++ List.replicate 7 0)
      writeElements s proc vf who q es (i + 1)

/-- An element enters a queue at its end, and its 16 bytes are written at its index of the backing storage where that is mapped (12 R224, R226; log 36). -/
def pushElement (s : State) (a : Agent) (key : Nat) (x : Word) (eos : Bool) : State :=
  let q := s.queue key
  let s := match writeElements s (key / 4096) (s.vfOf a) a q [(x, eos)] q.pushed.toNat with
    | .ok s => s
    | .error _ => s
  s.modQueue key (fun q => { q with pushed := q.pushed + 1, els := q.els ++ [(x, eos)] })
/-- A push performs, and its reservation ends (12 R220, R226). -/
def performPush (s : State) (a : Agent) (key : Nat) (x : Word) (eos : Bool) : State :=
  (pushElement s a key x eos).modQueue key (fun q => { q with resv := q.resv - 1 })

/-- Queues that are resident on a cluster (12 R225). -/
def residents (s : State) (cl : Nat) : Nat := (s.queues.filter (fun e => e.2.present && e.2.home == some cl)).length

/-- Bring a queue in: it becomes resident on its home with the elements of its storage (14 R263). None where the device refuses. -/
def bringIn (s : State) (who : Agent) (proc q home : Nat) : Option (Except AFault State) :=
  let key := proc * 4096 + q
  let x := s.queue key
  if !x.present then none
  else if x.home = some home then some (.ok s)
  else if x.home.isSome ∨ 64 ≤ residents s home then none
  else match readElements s proc (s.vfOf who) who x (x.pushed - x.popped).toNat x.popped.toNat with
    | .error f => some (.error f)
    | .ok (es, s) => some (.ok (s.modQueue key (fun y => { y with els := es, home := some home, missed := [] })))

/-- Whether PIN keeps a queue resident: until its task has ended (12 R225). -/
def pinned (s : State) (x : Queue) : Bool := x.pin && (match x.task with
  | some t => !(s.task t).gone
  | none => true)
/-- Whether a context or a saved member has popped a queue and not yet released the pop (14 R263). -/
def popsHeld (s : State) (key : Nat) : Bool :=
  let pops := fun (c : Ctx) => c.held.any (fun w => w.eff == .qpop key)
  s.ctxs.any (fun e => pops e.2) || s.saved.any (fun m => !m.restored && pops m.kept)
/-- Take a queue out: refused for a pinned queue, a bound one, or one with a reservation that has not been released (14 R263). -/
def takeOut (s : State) (who : Agent) (proc q : Nat) : Option (Except AFault State) :=
  let key := proc * 4096 + q
  let x := s.queue key
  match x.home with
  | none => none
  | some _ =>
    if !x.present ∨ pinned s x ∨ x.head.isSome ∨ 0 < x.resv ∨ popsHeld s key then none
    else match writeElements s proc (s.vfOf who) who x x.els x.popped.toNat with
      | .error f => some (.error f)
      | .ok s => some (.ok (s.modQueue key (fun y => { y with els := [], home := none, missed := [] })))

/-- QRES_BRING_IN (14 R263): where the device refuses, nothing changes. -/
def execQresBringIn (s : State) : Res :=
  evStep s (fun
    | .qresBringIn proc q home => some (.next (match bringIn s (.scribe home) proc q home with
      | some (.ok s) => s
      | _ => s))
    | _ => none)
/-- QRES_TAKE_OUT (14 R263). -/
def execQresTakeOut (s : State) : Res :=
  evStep s (fun
    | .qresTakeOut proc q => some (.next (match takeOut s (.scribe ((s.queue (proc * 4096 + q)).home.getD 0)) proc q with
      | some (.ok s) => s
      | _ => s))
    | _ => none)

end Sys2Proof.Machine
end

