-- ==== Sys2Proof/Machine/Wells.lean ====
section
/-!
DEFINITION. Meanings of the well families WOP, WADV and WBIND (12 R229-R233).
-/

namespace Sys2Proof.Machine

/-! ## The block (12 R229) -/

/-- A field of a well block. -/
def wellField (s : State) (key off n : Nat) : Nat := s.numAt (key + off) n
/-- BASE of a well. -/
def wellBase (s : State) (key : Nat) : Nat := wellField s key 0 8
/-- SLOTS of a well. -/
def wellSlots (s : State) (key : Nat) : Nat := wellField s key 8 4
/-- SLOTB of a well. -/
def wellSlotB (s : State) (key : Nat) : Nat := wellField s key 0xC 4
/-- PPTR of a well. -/
def wellP (s : State) (key : Nat) : BitVec 32 := BitVec.ofNat 32 (wellField s key 0x10 4)
/-- CPTR of a well. -/
def wellC (s : State) (key : Nat) : BitVec 32 := BitVec.ofNat 32 (wellField s key 0x14 4)

/-- A power of two from 1 to 65,536. -/
def slotsOk (n : Nat) : Bool := decide (1 ≤ n ∧ n ≤ 65536) && 2 ^ n.log2 == n
/-- The first field of a well block that a bind refuses (12 R229). -/
def wellBad (s : State) (key : Nat) : Option Nat :=
  if !slotsOk (wellSlots s key) then some (wellSlots s key)
  else if wellSlotB s key < 128 ∨ 1048576 < wellSlotB s key ∨ wellSlotB s key % 128 ≠ 0 then some (wellSlotB s key)
  else if wellBase s key % 128 ≠ 0 then some (wellBase s key)
  else if wellField s key 0x1A 2 ≠ 0 then some (wellField s key 0x1A 2)
  else none

/-- PPTR | CPTR << 32, as the details of 0x30 and 0x31 show (22 R369). -/
def wellPointers (s : State) (key : Nat) : BitVec 64 := BitVec.ofNat 64 ((wellP s key).toNat + (wellC s key).toNat * 2 ^ 32)
/-- The cause of a well wait by role (12 R232). -/
def wellCause (prod : Bool) : Nat := if prod then 0x31 else 0x30

/-- The handle wK as slots read it. -/
def handle (s : State) (k : BitVec 4) : WHandle := s.regs.c.w.get k.toFin
/-- The count of a handle: filled slots for a consumer, free slots for a producer (12 R232). -/
def wellCount (s : State) (h : WHandle) : BitVec 32 :=
  let key := s.wellKey s.who h
  if h.prod then BitVec.ofNat 32 (wellSlots s key) - (h.own - wellC s key) else wellP s key - h.own
/-- The limit that a LIM field encodes (12 R219). -/
def limOf (lim : BitVec 10) : Nat := bits lim.toNat 6 0 * 4 ^ bits lim.toNat 9 7

/-! ## WOP and WADV (12 R232) -/

/-- Wait until a well's count is at least CNT (12 R218, R232). -/
def wellWait (s : State) (k : BitVec 4) (cnt : BitVec 6) (lim : BitVec 10) (go : WHandle → Res) : Res :=
  let h := handle s k
  if !h.bound then trapAt s 0x30
  else if (wellCount s h).toNat < cnt.toNat then
    .next (s.hold { limit := some (limOf lim), cause := wellCause h.prod
                    det := { d0 := s.slotDet 0, d1 := h.blk, d2 := wellPointers s (s.wellKey s.who h) } })
  else go h

/-- WOP (12 R232). -/
def execWop (h : Hdr) (w : BitVec 4) (cnt : BitVec 6) (lim : BitVec 10) (s : State) : Res :=
  slotOp (.wop h w cnt lim) h s (fun s => wellWait s w cnt lim (fun _ => .next s))
/-- WADV: a consumer's own pointer moves at bundle end, a producer's slots are reserved (12 R220, R232). -/
def execWadv (h : Hdr) (w : BitVec 4) (cnt : BitVec 6) (lim : BitVec 10) (s : State) : Res :=
  slotOp (.wadv h w cnt lim) h s (fun s => wellWait s w cnt lim (fun x =>
    if cnt = 0 then .next s else
    let key := s.wellKey s.who x
    let s := s.modStage (fun c => { c with w := c.w.set w.toNat { x with own := x.own + cnt.setWidth 32 } w.isLt })
    withhold s (if x.prod then .wadv key cnt.toNat else .wcons key cnt.toNat) []))

/-! ## WBIND (12 R231) -/

/-- Advances of a role of a well that an agent has made and that have not performed. -/
def advancesPending (s : State) (a : Agent) (key : Nat) (prod : Bool) : Nat :=
  let n := fun (e : Effect) => match e with
    | .wadv k c => if prod && k == key then c else 0
    | .wcons k c => if !prod && k == key then c else 0
    | _ => 0
  ((s.ctx a).held.map (fun w => n w.eff)).sum + (((s.relqs.get [] a.relKey).filter (fun r => r.who == a)).map (fun r => n r.w.eff)).sum

/-- End a handle's binding at once (12 R231). -/
def dropHandle (s : State) (k : BitVec 4) : State :=
  let h := handle s k
  if h.bound then
    let key := s.wellKey s.who h
    let s := s.modMe (fun c => { c with held := c.held.filter (fun w => w.eff != .wunbind key h.prod) })
    s.unbindWell key h.prod (.handle s.who k.toNat)
  else s

/-- The details of a bind of a role that is bound elsewhere (12 R231; 22 R369). -/
def boundElsewhere (s : State) (key : Nat) (prod : Bool) (ea : Word) : TrapRec := s.slotTrap (wellCause prod) 0 ea (wellPointers s key) 1

/-- Bind a handle to a role of the well block at `ea` (12 R229, R231). -/
def bindOp (s : State) (k : BitVec 4) (prod : Bool) (sp : BitVec 2) (ea : Word) : Res :=
  let space := Space.ofCode sp
  if ea.toNat % 64 ≠ 0 then .next (s.raise (faultRec s (misaligned ea))) else
  match resolve s s.who .atomic space ea 64 with
  | .error f => .next (s.raise (faultRec s f))
  | .ok (l, s) =>
    let key := l.key
    if s.poisoned key 64 then trapAt s 0x51 0 (BitVec.ofNat 64 (Loc.addr s l)) ea else
    match wellBad s key with
    | some x => trapAt s 0x02 0 (BitVec.ofNat 64 x)
    | none =>
      let me := Binder.handle s.who k.toNat
      let role := if prod then (s.well key).prod else (s.well key).cons
      if role.isSome ∧ role ≠ some me then .next (s.raise (boundElsewhere s key prod ea)) else
      let own := (if prod then wellP s key else wellC s key) + BitVec.ofNat 32 (advancesPending s s.who key prod)
      let s := dropHandle s k
      let w := s.well key
      let s := s.setWell key (if prod then { w with prod := some me } else { w with cons := some me })
      .next (s.modStage (fun c => { c with w := c.w.set k.toNat { bound := true, prod := prod, vault := sp == 3, blk := ea, own := own } k.isLt }))

/-- WBIND.C (12 R231). -/
def execWbindC (h : Hdr) (k : BitVec 4) (a : BitVec 5) (sp : BitVec 2) (s : State) : Res :=
  slotOp (.wbindC h k a sp) h s (fun s => bindOp s k false sp (s.rs a))
/-- WBIND.P (12 R231). -/
def execWbindP (h : Hdr) (k : BitVec 4) (a : BitVec 5) (sp : BitVec 2) (s : State) : Res :=
  slotOp (.wbindP h k a sp) h s (fun s => bindOp s k true sp (s.rs a))
/-- WUNBIND: the binding ends at the next release (12 R231). An unbound handle stays unbound. -/
def execWunbind (h : Hdr) (k : BitVec 4) (s : State) : Res :=
  slotOp (.wunbind h k) h s (fun s =>
    let x := handle s k
    if !x.bound then .next s else withhold s (.wunbind (s.wellKey s.who x) x.prod) [])
/-- WSTAT (12 R231). -/
def execWstat (h : Hdr) (d : BitVec 5) (k : BitVec 4) (s : State) : Res :=
  slotOp (.wstat h d k) h s (fun s =>
    let x := handle s k
    if !x.bound then trapAt s 0x30
    else .next (s.result 2 [s.wS d (BitVec.ofNat 64 (x.own.toNat + (wellCount s x).toNat * 2 ^ 32))]))
/-- WADDR (12 R229, R231). -/
def execWaddr (h : Hdr) (d : BitVec 5) (k : BitVec 4) (s : State) : Res :=
  slotOp (.waddr h d k) h s (fun s =>
    let x := handle s k
    if !x.bound then trapAt s 0x30 else
    let key := s.wellKey s.who x
    .next (s.result 2 [s.wS d (BitVec.ofNat 64 (wellBase s key + x.own.toNat % wellSlots s key * wellSlotB s key))]))

/-! ## The performing side (12 R232) -/

/-- A producer advance performs (12 R232). -/
def performAdvance (s : State) (key cnt : Nat) : State :=
  let p := wellP s key + BitVec.ofNat 32 cnt
  let s := s.storeNum (key + 0x10) 4 p.toNat
  let filled := (p - wellC s key).toNat
  let s := s.storeNum (key + 0x1C) 4 (Nat.max (wellField s key 0x1C 4) filled)
  s.storeNum (key + 0x18) 2 0
/-- A consumer advance performs (12 R232). -/
def performConsume (s : State) (key cnt : Nat) : State := s.storeNum (key + 0x14) 4 (wellC s key + BitVec.ofNat 32 cnt).toNat
/-- An unbind performs: the role may be bound again (12 R231). -/
def performWunbind (s : State) (a : Agent) (key : Nat) (prod : Bool) : State :=
  let c := (s.ctx a).live.c
  let w := s.well key
  match (if prod then w.prod else w.cons) with
  | some (.handle b k) =>
    let h := c.w.getD k {}
    if b = a ∧ !(h.bound && h.prod == prod && s.wellKey a h == key) then s.unbindWell key prod (.handle b k) else s
  | _ => s

end Sys2Proof.Machine
end

