-- ==== Sys2Proof/Machine/Sync.lean ====
section
/-!
DEFINITION. Meanings of BANK, ATOM, BAR, DRAIN and EVT (12 R234-R240; 14 R262; 17 R310; 18 R322-R326).
-/

namespace Sys2Proof.Machine

/-! ## Pad banks (12 R234) -/

/-- The banks of a cluster that satisfy a test of their owner, 0 for none. -/
def banksWhere (s : State) (cl : Nat) (p : Nat → Bool) : Nat := packNat 1 (fun b => (p ((s.cluster cl).banks.get 0 b)).toNat) 32
/-- An operation on the issuing agent's own cluster; a command processor belongs to none (17 R302). -/
def ownCluster (s : State) (ea : Word) (k : Nat → Res) : Res := match s.who.cluster? with
  | some c => k c
  | none => .next (s.raise (faultRec s (windowFault s s.who false ea)))

/-- BANK acq: all or nothing, at issue (12 R234). -/
def execBankAcq (h : Hdr) (a b : BitVec 5) (s : State) : Res :=
  slotOp (.bankAcq h a b) h s (fun s =>
    if wbits (s.rs a) 63 32 ≠ 0 then badOperand s (s.rs a) else if wbits (s.rs b) 63 24 ≠ 0 then badOperand s (s.rs b) else
    ownCluster s (s.rs a) (fun cl =>
      let m := wbits (s.rs a) 31 0
      let me := State.bankOwner s s.who
      let held := m &&& banksWhere s cl (fun o => o != 0 && o != me)
      if held ≠ 0 then .next (s.hold { limit := some (wbits (s.rs b) 23 0), cause := 0x33, det := { d0 := s.slotDet 0, d1 := BitVec.ofNat 64 held } })
      else .next (s.modCluster cl (fun c =>
        { c with banks := (List.range 32).foldl (fun bs k => if bit m k then bs.put 0 k me else bs) c.banks }))))
/-- BANK rel: only in a checkpoint bundle (12 R234). -/
def execBankRel (h : Hdr) (a : BitVec 5) (s : State) : Res :=
  slotOp (.bankRel h a) h s (fun s =>
    if !s.ckb then trapAt s 0x02
    else ownCluster s (s.rs a) (fun cl => withhold s (.bankRel cl ((s.rs a).setWidth 32)) []))
/-- BANK rd (12 R234). -/
def execBankRd (h : Hdr) (d : BitVec 5) (s : State) : Res :=
  slotOp (.bankRd h d) h s (fun s =>
    ownCluster s 0 (fun cl =>
      let me := State.bankOwner s s.who
      .next (s.result 2 [s.wS d (BitVec.ofNat 64 (banksWhere s cl (· == me) + banksWhere s cl (· == 0) * 2 ^ 32))])))

/-- Give up the banks of a mask that an owner holds. -/
def giveBanks (s : State) (cl owner : Nat) (m : BitVec 32) : State :=
  s.modCluster cl (fun c => { c with banks := c.banks.filter (fun b => !(m.getLsbD b.1 && b.2 == owner)) })
/-- BANK_GIVE_UP (14 R262). -/
def execBankGiveUp (s : State) : Res :=
  evStep s (fun
    | .bankGiveUp cl owner m => some (.next (giveBanks s cl owner m))
    | _ => none)

/-! ## Reads and writes in one step (12 R236; 17 R310) -/

/-- Bytes within one line of space m, owned in a core's L1: the old bytes, whether any is poisoned, and the state with the line owned. -/
def ownLine (s : State) (a : Agent) (l : Loc) (n : Nat) : List Byte × Bool × State :=
  let key := lineKey l
  let s := if ((s.core a.core).l1.get {} key).owned then s else
    let s := s.evictLine a.core key a
    let s := s.fillLine a.core l a
    s.modCore a.core (fun k => { k with l1 := k.l1.upd {} key (fun x => { x with owned := true }) })
  s.l1Read a.core l n a

/-- Replace bytes at a place in one indivisible step: the old bytes, whether they were poisoned, the state. Poisoned bytes are left, as are those for which `f` gives
no new ones. -/
def readModify (s : State) (a : Agent) (l : Loc) (n : Nat) (f : List Byte → Option (List Byte)) : List Byte × Bool × State :=
  if l.space = .m ∧ a.onCore ∧ !l.host then
    let r := ownLine s a l n
    (r.1, r.2.1, match (if r.2.1 then none else f r.1) with
      | some w => r.2.2.l1Write a.core l w a
      | none => r.2.2)
  else
    let r := readTarget s a (if l.space = .m then { l with space := .ms } else l) n
    let s := r.2.2.2
    (r.1, r.2.1, match (if r.2.1 then none else f r.1) with
      | some w => match l.space with
        | .p | .v => s.storeAt l.key w
        | _ => if l.host then s.storeAt l.key w else s.homeWrite a l w
      | none => s)

/-! ## ATOM (12 R235, R236) -/

/-- The new value of an atomic, as a number of the datum's width (12 R235). -/
def atomNew (op : AtomOp) (w4 : Bool) (old d e : Nat) : Nat :=
  let n := if w4 then 32 else 64
  let f := if w4 then f32 else f64
  match op with
  | .swap => d
  | .add => (old + d) % 2 ^ n
  | .and => old &&& d
  | .or => old ||| d
  | .xor => old ^^^ d
  | .min => if sext n d < sext n old then d else old
  | .max => if sext n old < sext n d then d else old
  | .minu => Nat.min old d
  | .maxu => Nat.max old d
  | .cas => if old = d then e else old
  | .fadd => f.rne (FVal.add false (f.decode old) (f.decode d))

/-- An ATOM slot: its checks, its entry in the landing buffer, its withheld effect (12 R235, R236). -/
def atomOp (i : Instr) (h : Hdr) (op : AtomOp) (d a : BitVec 5) (lc : BitVec 3) (spc : BitVec 2) (w4 : Bool) (s : State) : Res :=
  slotOp i h s (fun s =>
    let n := if w4 then 4 else 8
    let sp := Space.ofCode spc
    let ea := s.rs a
    if ea.toNat % n ≠ 0 then .next (s.raise (faultRec s (misaligned ea))) else
    match resolve s s.who .atomic sp ea n with
    | .error f => .next (s.raise (faultRec s f))
    | .ok (l, s) =>
      if l.coded.isSome then trapAt s 0x25 0 ea
      else if l.fabric then .next (s.raise (faultRec s (accFault 0x21 .atomic ea.toNat 0 0)))
      else
        let low := fun (x : Word) => if w4 then x &&& 0xFFFFFFFF else x
        let x := low (s.rs d)
        let y := if op = .cas then low (s.rs (d + 1)) else 0
        let (ref, s) := s.newId
        let s := s.addFlight s.who
          { id := ref, kind := .load, dist := Nat.max (s.regs.c.lc.get lc.toFin).toNat 1, cls := spaceClass sp, arrived := false
            shape := .s (physSV s.rot d) 8, waits := 1, born := s.cc }
        withhold s (.atom op w4 l x y ref) [s.rs a, s.rs d, if op = .cas then s.rs (d + 1) else 0])

/-- ATOM swap (12 R235). -/
def execAtomSwap (h : Hdr) (d a : BitVec 5) (lc : BitVec 3) (sp : BitVec 2) (w4 : Bool) (s : State) : Res :=
  atomOp (.atomSwap h d a lc sp w4) h .swap d a lc sp w4 s
/-- ATOM add (12 R235). -/
def execAtomAdd (h : Hdr) (d a : BitVec 5) (lc : BitVec 3) (sp : BitVec 2) (w4 : Bool) (s : State) : Res :=
  atomOp (.atomAdd h d a lc sp w4) h .add d a lc sp w4 s
/-- ATOM and (12 R235). -/
def execAtomAnd (h : Hdr) (d a : BitVec 5) (lc : BitVec 3) (sp : BitVec 2) (w4 : Bool) (s : State) : Res :=
  atomOp (.atomAnd h d a lc sp w4) h .and d a lc sp w4 s
/-- ATOM or (12 R235). -/
def execAtomOr (h : Hdr) (d a : BitVec 5) (lc : BitVec 3) (sp : BitVec 2) (w4 : Bool) (s : State) : Res :=
  atomOp (.atomOr h d a lc sp w4) h .or d a lc sp w4 s
/-- ATOM xor (12 R235). -/
def execAtomXor (h : Hdr) (d a : BitVec 5) (lc : BitVec 3) (sp : BitVec 2) (w4 : Bool) (s : State) : Res :=
  atomOp (.atomXor h d a lc sp w4) h .xor d a lc sp w4 s
/-- ATOM min (12 R235). -/
def execAtomMin (h : Hdr) (d a : BitVec 5) (lc : BitVec 3) (sp : BitVec 2) (w4 : Bool) (s : State) : Res :=
  atomOp (.atomMin h d a lc sp w4) h .min d a lc sp w4 s
/-- ATOM max (12 R235). -/
def execAtomMax (h : Hdr) (d a : BitVec 5) (lc : BitVec 3) (sp : BitVec 2) (w4 : Bool) (s : State) : Res :=
  atomOp (.atomMax h d a lc sp w4) h .max d a lc sp w4 s
/-- ATOM minu (12 R235). -/
def execAtomMinu (h : Hdr) (d a : BitVec 5) (lc : BitVec 3) (sp : BitVec 2) (w4 : Bool) (s : State) : Res :=
  atomOp (.atomMinu h d a lc sp w4) h .minu d a lc sp w4 s
/-- ATOM maxu (12 R235). -/
def execAtomMaxu (h : Hdr) (d a : BitVec 5) (lc : BitVec 3) (sp : BitVec 2) (w4 : Bool) (s : State) : Res :=
  atomOp (.atomMaxu h d a lc sp w4) h .maxu d a lc sp w4 s
/-- ATOM cas (12 R235). -/
def execAtomCas (h : Hdr) (d a : BitVec 5) (lc : BitVec 3) (sp : BitVec 2) (w4 : Bool) (s : State) : Res :=
  atomOp (.atomCas h d a lc sp w4) h .cas d a lc sp w4 s
/-- ATOM fadd (12 R235). -/
def execAtomFadd (h : Hdr) (d a : BitVec 5) (lc : BitVec 3) (sp : BitVec 2) (w4 : Bool) (s : State) : Res :=
  atomOp (.atomFadd h d a lc sp w4) h .fadd d a lc sp w4 s

/-- Change the landing entry of a reference. -/
def modLanding (s : State) (a : Agent) (ref : Nat) (f : Flight → Flight) : State :=
  s.modCtx a (fun c => { c with flight := c.flight.map (fun e => if e.id = ref ∧ e.kind ≠ .fixed then f e else e) })
/-- A landing is discarded: its register keeps its value (12 R236). -/
def dropLanding (s : State) (a : Agent) (ref : Nat) : State :=
  s.modCtx a (fun c => { c with flight := c.flight.filter (fun e => !(e.id == ref && e.kind != .fixed)) })

/-- The cc in which the slot of a landing entry issued. -/
def bornOf (s : State) (a : Agent) (ref : Nat) : Nat := (((s.ctx a).flight.find? (fun e => e.id == ref && e.kind != .fixed)).map (·.born)).getD s.cc
/-- An atomic performs, or meets a lease: then it neither reads nor writes (12 R236). Its return's latency runs from its slot's issue (17 R305). -/
def performAtom (s : State) (a : Agent) (id : Nat) (w : Withheld) (op : AtomOp) (w4 : Bool) (l : Loc) (d e : Word) (ref : Nat) : State :=
  let n := if w4 then 4 else 8
  match leaseMet s a id l n with
  | some x => (dropLanding s a ref).deliver a (leaseTrap s w x l)
  | none =>
    let lat := latencyOf s a l (l.space == .m && a.onCore && s.l1Hit a.core l n)
    let r := readModify s a l n (fun bs => some (toBytes n (atomNew op w4 (ofBytes bs) d.toNat e.toNat)))
    let s := modLanding r.2.2 a ref (fun x =>
      { x with buf := toBytes 8 (ofBytes r.1)
               fault := if r.2.1 then some { cause := 0x51, det := { d0 := w.slotDet
                                                                     d1 := BitVec.ofNat 64 (Loc.addr s l), d2 := w.regs.headD 0 }, bund := w.bund } else none })
    s.after (Nat.max (lat - (s.cc - bornOf s a ref)) 1) (.loadLanding a ref)

/-! ## BAR (12 R237, R238) -/

/-- Whether a barrier object is malformed (12 R238). -/
def objectBad (o : List Byte) : Bool :=
  field o 0 2 == 0 || decide (256 < field o 0 2) || field o 2 2 != 0 || field o 7 1 != 0 || !zeroBytes o 16 16
/-- `arrive(i)` on an object's bytes (12 R238). -/
def arriveBytes (o : List Byte) (i : Nat) : List Byte :=
  let n := field o 0 2
  let map := field o 32 32
  if n ≤ i ∨ bit map i then patch o 12 (toBytes 4 (Nat.min (field o 12 4 + 1) (2 ^ 32 - 1)))
  else
    let map := map + 2 ^ i
    if map % 2 ^ n = 2 ^ n - 1 then patch (patch o 32 (List.replicate 32 0)) 8 (toBytes 4 ((field o 8 4 + 1) % 2 ^ 32))
    else patch o 32 (toBytes 32 map)

/-- What an arrival found at its object and left: whether it was malformed, whether a word of it is poisoned, ROUNDS and MAP[63:0] just before. -/
structure Arrived where
  bad : Bool
  poison : Bool
  rounds : BitVec 32
  map : BitVec 64
  s : State
/-- An arrival performs at its object: it changes nothing in a malformed one, nor in one that it cannot read, but it is an access of it (12 R238; 17 R315; 21 R359). -/
def arriveAt (s : State) (a : Agent) (l : Loc) (i : Nat) : Arrived :=
  let r := readModify s a l 64 (fun o => if objectBad o then none else some (arriveBytes o i))
  { bad := objectBad r.1, poison := r.2.1, rounds := BitVec.ofNat 32 (field r.1 8 4), map := BitVec.ofNat 64 (field r.1 32 8), s := r.2.2 }

/-- The place of a barrier object; a fabric address is refused as ATOM refuses it (12 R236, R237). -/
def objectOp (s : State) (acc : Acc) (sp : BitVec 2) (ea : Word) (k : Loc → State → Res) : Res :=
  if ea.toNat % 64 ≠ 0 then .next (s.raise (faultRec s (misaligned ea))) else
  match resolve s s.who acc (Space.ofCode sp) ea 64 with
  | .error f => .next (s.raise (faultRec s f))
  | .ok (l, s) => if l.fabric then .next (s.raise (faultRec s (accFault 0x21 acc ea.toNat 0 0))) else k l s

/-- The object's bytes as the device sees them in a cc: no access, so it raises no codec event (log 72). -/
def objectNow (s : State) (a : Agent) (l : Loc) : List Byte := (readTarget s a (if l.space = .m then { l with space := .ms } else l) 64).1

/-- What a BAR slot leaves to wait for after its bundle (12 R238). -/
def postBar (s : State) (kind : PostKind) (l : Loc) (ea : Word) (want : BitVec 32) (sc : Nat) : State :=
  s.modMe (fun c => { c with post := some { kind := kind, loc := l, ea := ea, want := want, scope := sc, pos := s.pos, word := s.word, bund := s.bpc.setWidth 57 } })

/-- BAR arr and sync: an arrival at release (12 R238). -/
def arriveOp (i : Instr) (h : Hdr) (a b : BitVec 5) (sc : BitVec 3) (sync : Bool) (s : State) : Res :=
  slotOp i h s (fun s =>
    let x := s.rs b
    if wbits x 63 10 ≠ 0 then badOperand s x else
    objectOp s .atomic (x.extractLsb' 8 2) (s.rs a) (fun l s =>
      let s := if sync then postBar s .sync l (s.rs a) 0 sc.toNat else s
      withhold s (.arrive l (wbits x 7 0) sync sc.toNat) [s.rs a, x]))
/-- BAR arr (12 R238). -/
def execBarArr (h : Hdr) (a b : BitVec 5) (sc : BitVec 3) (s : State) : Res := arriveOp (.barArr h a b sc) h a b sc false s
/-- BAR sync (12 R238). -/
def execBarSync (h : Hdr) (a b : BitVec 5) (sc : BitVec 3) (s : State) : Res := arriveOp (.barSync h a b sc) h a b sc true s
/-- BAR wt (12 R238). -/
def execBarWt (h : Hdr) (a b : BitVec 5) (sc : BitVec 3) (s : State) : Res :=
  slotOp (.barWt h a b sc) h s (fun s =>
    let x := s.rs b
    if wbits x 63 34 ≠ 0 then badOperand s x else
    objectOp s .load (x.extractLsb' 32 2) (s.rs a) (fun l s =>
      withhold (postBar s .wt l (s.rs a) (x.setWidth 32) sc.toNat) (.barWait sc.toNat) [s.rs a, x]))

/-- From `.clu` on, DRAIN and BAR first write back the L1 of the context's core (18 R322). -/
def writeBackFor (s : State) (a : Agent) (sc : Nat) : State := if 2 ≤ sc ∧ a.onCore then s.writeBackAll a.core a else s
/-- Whether a context waits after the bundle of a released BAR. -/
def awaits (w : Withheld) (p : PostWait) : Bool := p.kind != .drain && p.pos == w.pos && p.bund == w.bund
/-- A released BAR has acted: `f` gives the context that waits for it the ROUNDS value to differ from, and whether the object was malformed or unreadable. -/
def barActed (s : State) (a : Agent) (w : Withheld) (f : PostWait → PostWait) : State :=
  s.modCtx a (fun c => { c with post := c.post.map (fun p => if awaits w p then f p else p) })
/-- A released arrival performs; at a malformed object the context traps instead (12 R238), as it does at one that it cannot read (17 R315). -/
def performArrive (s : State) (a : Agent) (w : Withheld) (l : Loc) (i : Nat) (sc : Nat) : State :=
  let s := writeBackFor s a sc
  let r := arriveAt s a l i
  if ((s.ctx a).post.map (awaits w)).getD false then barActed r.s a w (fun p => { p with r := some r.rounds, bad := r.bad, poison := r.poison })
  else if r.poison then
    r.s.deliver a { cause := 0x51, det := { d0 := w.slotDet, d1 := BitVec.ofNat 64 (Loc.addr s l), d2 := w.regs.headD 0 }, bund := w.bund }
  else if r.bad then
    r.s.deliver a { cause := 0x36, det := { d0 := w.slotDet + 16, d1 := w.regs.headD 0, d2 := r.rounds.setWidth 64, d3 := r.map }, bund := w.bund }
  else r.s
/-- A released wt begins its wait (12 R238; 17 R315). -/
def performBarWait (s : State) (a : Agent) (w : Withheld) (sc : Nat) : State :=
  let s := writeBackFor s a sc
  barActed s a w (fun p => { p with r := some p.want, bad := objectBad (objectNow s a p.loc), poison := s.poisonedAt p.loc 64 })

/-! ## DRAIN (12 R239) -/

/-- A released DRAIN performs in its place: the L1 is written back (12 R239; 18 R322). -/
def performDrain (s : State) (a : Agent) : State := match (s.ctx a).post with
  | some p => if p.kind = .drain then writeBackFor s a p.scope else s
  | none => s
/-- DRAIN: it waits after its release; sD receives the remote effects that failed (12 R239). -/
def execDrain (h : Hdr) (d : BitVec 5) (sc : BitVec 3) (s : State) : Res :=
  slotOp (.drain h d sc) h s (fun s =>
    let (ref, s) := s.newId
    let s := s.addFlight s.who { id := ref, writes := [s.wS d 0], dist := 1, arrived := false }
    let s := s.modMe (fun c =>
      { c with post := some { kind := .drain, scope := sc.toNat, ref := ref, pos := s.pos, word := s.word, bund := s.bpc.setWidth 57 } })
    withhold s .drain [])

/-! ## EVT (12 R240) -/

/-- A semaphore of a cluster. -/
def semOf (s : State) (cl k : Nat) : Sem := (s.cluster cl).sems.get {} k
/-- Change a semaphore. -/
def modSem (s : State) (cl k : Nat) (f : Sem → Sem) : State := s.modCluster cl (fun c => { c with sems := c.sems.upd {} k f })
/-- A signal performs: the count holds at its maximum (12 R240). -/
def semSignal (s : State) (cl k n : Nat) : State :=
  modSem s cl k (fun x => { x with count := BitVec.ofNat 32 (Nat.min (2 ^ 32 - 1) (x.count.toNat + n)) })

/-- A reserved bit of sA of EVT; for sig and wait, n = 0 too (12 R240). -/
def evtBad (x : Word) (counted : Bool) : Bool := wbits x 7 6 != 0 || wbits x 63 22 != 0 || (counted && wbits x 15 8 == 0)
/-- An EVT wait or rd acts on its own cluster: the cluster field names it, or is 0 (12 R240; 16, its worked program). -/
def evtOwn (s : State) (x : Word) (k : Nat → Res) : Res :=
  ownCluster s x (fun cl =>
    if wbits x 21 16 ≠ 0 ∧ wbits x 21 16 ≠ cl then .next (s.raise (faultRec s (windowFault s s.who true x))) else k cl)

/-- EVT sig (12 R240). -/
def execEvtSig (h : Hdr) (a : BitVec 5) (s : State) : Res :=
  slotOp (.evtSig h a) h s (fun s =>
    let x := s.rs a
    let cl := wbits x 21 16
    let w := s.me.vaultwin.toNat
    if evtBad x true then badOperand s x
    else if s.who.onCore ∧ s.who.cluster? ≠ some cl ∧ (cl < bits w 5 0 ∨ bits w 13 8 < cl) then
      .next (s.raise (faultRec s (windowFault s s.who true x)))
    else withhold s (.evtSig cl (wbits x 5 0) (wbits x 15 8)) [x])
/-- EVT wait: it reserves n at issue (12 R220, R240). -/
def execEvtWait (h : Hdr) (a b : BitVec 5) (s : State) : Res :=
  slotOp (.evtWait h a b) h s (fun s =>
    let x := s.rs a
    if evtBad x true then badOperand s x else
    evtOwn s x (fun cl =>
      let k := wbits x 5 0
      let n := wbits x 15 8
      let m := semOf s cl k
      if m.count.toNat < m.resv + n then
        .next (s.hold { limit := some (wbits (s.rs b) 23 0), cause := 0x37, det := { d0 := s.slotDet 0, d1 := BitVec.ofNat 64 k, d2 := m.count.setWidth 64 } })
      else withhold (modSem s cl k (fun m => { m with resv := m.resv + n })) (.evtTake cl k n) [x, s.rs b]))
/-- EVT rd (12 R240). -/
def execEvtRd (h : Hdr) (d a : BitVec 5) (s : State) : Res :=
  slotOp (.evtRd h d a) h s (fun s =>
    let x := s.rs a
    if evtBad x false then badOperand s x else
    evtOwn s x (fun cl => .next (s.result 2 [s.wS d ((semOf s cl (wbits x 5 0)).count.setWidth 64)])))

/-- A wait's counts are taken at release (12 R220). -/
def performTake (s : State) (cl k n : Nat) : State :=
  modSem s cl k (fun m => { count := m.count - BitVec.ofNat 32 n, resv := m.resv - n })

end Sys2Proof.Machine
end

