-- ==== Sys2Proof/Machine/Routing.lean ====
section
/-!
DEFINITION. Routing tokens to expert buffers: RTE, the claim object, the admission unit (12 R241-R243; 13 R245, R246).
-/

namespace Sys2Proof.Machine

/-- The details of a space-v address that does not pass (12 R242; 22 R369). -/
def vaultTrap (s : State) (ea : Word) : Res := .next (s.raise (faultRec s (windowFault s s.who true ea)))

/-- RTE clm: the claim leaves at release (12 R242). -/
def execRteClm (h : Hdr) (d a b : BitVec 5) (s : State) : Res :=
  slotOp (.rteClm h d a b) h s (fun s =>
    let ea := s.rs a
    let x := s.rs b
    if ea.toNat % 64 ≠ 0 then .next (s.raise (faultRec s (misaligned ea)))
    else if !vaultPasses s s.who ea.toNat 64 ∨ bits ea.toNat 32 27 / 16 ≠ s.who.die then vaultTrap s ea
    else if wbits x 63 48 ≠ 0 ∨ wbits x 47 32 = 0 then badOperand s x
    else
      let (ref, s) := s.newId
      let s := s.addFlight s.who
        { id := ref, kind := .load, dist := Nat.max (s.regs.c.lc.getD 7 0).toNat 1, cls := 1, arrived := false, shape := .s (physSV s.rot d) 8, waits := 1 }
      withhold s (.clm ea (x.setWidth 32) (wbits x 47 32) ref) [ea, x])

/-- RTE snd: the token leaves at release (12 R242). -/
def execRteSnd (h : Hdr) (vs a b : BitVec 5) (s : State) : Res :=
  slotOp (.rteSnd h vs a b) h s (fun s =>
    let ea := s.rs a
    let x := s.rs b
    let away := x.getLsbD 60
    if ea.toNat % 64 ≠ 0 then .next (s.raise (faultRec s (misaligned ea)))
    else if wbits x 63 61 ≠ 0 then badOperand s x
    else if wbits ea 63 33 ≠ 0 ∨ (!away && !vaultPasses s s.who ea.toNat 64) then vaultTrap s ea
    else withhold s (.snd ea (x.setWidth 32) (wbits x 43 32) (wbits x 59 44) away (s.rv vs)) [ea, x])

/-! ## On the way (12 R242; 13 R245, R246) -/

/-- The cc that a claim or token takes to its object, one figure for each object's distance so that a context's own arrive in release order (log 7). -/
def routeTime (die : Nat) (obj : BitVec 64) : Nat := if bits obj.toNat 32 27 / 16 = die then 48 else 150

/-- A claim leaves. -/
def performClaim (s : State) (a : Agent) (obj : BitVec 64) (tid : BitVec 32) (cnt ref : Nat) : State :=
  s.after (routeTime a.die obj) (.claimGrant { who := a, obj := obj, tid := tid, cnt := cnt, ref := ref })

/-- A token leaves; its admission or refusal is awaited (13 R245). -/
def performSend (s : State) (a : Agent) (w : Withheld) (obj : BitVec 64) (tid : BitVec 32) (rq pkg : Nat) (away : Bool) (payload : VReg) : State :=
  s.sendAwaited (routeTime a.die obj) { who := a, write := true, bund := w.bund, addr := obj.toNat, len := 0, va := obj } a.die
    (if away then pkg else s.pkgid.toNat) (bits obj.toNat 32 27 / 16)
    (fun h => .claimSend { who := a, pkg := h.pkg, die := h.die, dest := h.dest, obj := obj, tid := tid, rq := rq, tag := h.tag, vf := s.accessVf a, far := away
                           payload := payload })

/-! ## At the object (12 R241-R243) -/

/-- Whether a claim object is malformed (12 R242). -/
def claimBad (o : List Byte) : Bool :=
  bits (field o 0 4) 31 16 != 0 || !zeroBytes o 32 32 || field o 8 4 == 0 || field o 8 4 % 512 != 0

/-- The order in which claims and sends of one cc reach an object: source die, source package, token id (12 R243). -/
def routeKey : Ev → Option (BitVec 64 × Nat × Nat × Nat)
  | .claimSend t => some (t.obj, t.die, t.pkg, t.tid.toNat)
  | .claimGrant c => some (c.obj, c.who.die, 0, c.tid.toNat)
  | _ => none
/-- The place of a claim or send in that order; a claim is of this package. -/
def routePlace (s : State) (e : Ev) : Option (BitVec 64 × Nat × Nat × Nat) :=
  match e, routeKey e with
  | .claimGrant _, some (o, d, _, t) => some (o, d, s.pkgid.toNat, t)
  | _, k => k
/-- Whether another claim or send due in this cc comes before one at the same object. -/
def laterInOrder (s : State) (e : Ev) : Bool :=
  match routePlace s e with
  | none => false
  | some (o, d, p, t) => s.agenda.any (fun x => decide (x.1 ≤ s.cc) && (match routePlace s x.2 with
      | some (o', d', p', t') => o' == o && (decide (d' < d) || (d' == d && (decide (p' < p) || (p' == p && decide (t' < t)))))
      | none => false))

/-- Count a refusal at an object (12 R242). -/
def countRefused (s : State) (key : Nat) : State := s.storeNum (key + 12) 4 (Nat.min (s.numAt (key + 12) 4 + 1) (2 ^ 32 - 1))

/-- The event of a refused token or claim, to the scribe of the context that sent it (12 R242; 22 R369). -/
def refusalEvent (s : State) (a : Agent) (tid : BitVec 32) (reason : Nat) (obj : BitVec 64) : State :=
  s.event (State.noticeDest a) a 0x64 { d1 := tid.setWidth 64, d2 := BitVec.ofNat 64 reason, d3 := obj }

/-- The claim acts at its object: a contiguous range of slots, whose first and length land (12 R242). -/
def grantClaim (s : State) (c : Claim) : State :=
  let key := vaultKey c.obj.toNat
  let o := s.bytesAt key 64
  let count := field o 4 4
  let bad := claimBad o
  let granted := if bad then 0 else Nat.min c.cnt (bits (field o 0 4) 15 0 - count)
  let s := if bad then refusalEvent (countRefused s key) c.who c.tid 2 c.obj
    else s.storeNum (key + 4) 4 (count + granted)
  (modLanding s c.who c.ref (fun e => { e with buf := toBytes 8 (count + granted * 2 ^ 32) })).after 48 (.loadLanding c.who c.ref)

/-- CLAIM_GRANT (12 R242, R243). -/
def execClaimGrant (s : State) : Res :=
  evStep s (fun
    | .claimGrant c => some (.next (if laterInOrder s (.claimGrant c) then s.at_ s.cc (.claimGrant c) else grantClaim s c))
    | _ => none)

/-- The header of a token (19 R347). -/
def tokenHdr (t : Token) : MsgHdr := { pkg := t.pkg, die := t.die, dest := t.dest, tag := t.tag }
/-- The sender learns that its token was admitted (13 R245). -/
def tokenAdmitted (s : State) (t : Token) : State :=
  if t.pkg = s.pkgid.toNat then { s with remotes := s.remotes.erase t.tag } else s.reply (tokenHdr t) 0 (.remoteResponse (hdrBack s (tokenHdr t)) [])
/-- The sender learns that its token was refused (12 R242). -/
def tokenRefused (s : State) (t : Token) (reason : Nat) : State :=
  s.reply (tokenHdr t) 0 (.routeRefusal (hdrBack s (tokenHdr t)) t.who t.rq t.tid reason t.obj)

/-- Whether the slot and the id of an admitted token, at the addresses that the object gives, have a place in present vaults (12 R241). -/
def slotPresent (s : State) (base ids : Nat) : Bool := vaultPresent s base 512 && vaultPresent s ids 4

/-- The admission unit: a token is written and counted, or refused (12 R242). One whose slot or id would lie in no present vault is refused as a malformed object's is,
with reason 2, and counted: a choice, the spec names no outcome (12 R242; 13 R245; log 87). -/
def takeToken (s : State) (t : Token) : State :=
  let key := vaultKey t.obj.toNat
  let o := s.bytesAt key 64
  let count := field o 4 4
  let slot := field o 16 8 + count * field o 8 4
  let idAt := field o 24 8 + 4 * count
  if claimBad o then tokenRefused (countRefused s key) t 2
  else if bits (field o 0 4) 15 0 ≤ count then tokenRefused (countRefused s key) t 1
  else if !slotPresent s slot idAt then tokenRefused (countRefused s key) t 2
  else
    let s := s.storeAt (vaultKey slot) (toBytes 512 t.payload.toNat)
    let s := s.storeNum (vaultKey idAt) 4 t.tid.toNat
    tokenAdmitted (s.storeNum (key + 4) 4 (count + 1)) t

/-- CLAIM_SEND (12 R242, R243; 13 R246). A token that names its package needs fabric rights there, and an object that exists (19 R348). -/
def execClaimSend (s : State) : Res :=
  evStep s (fun
    | .claimSend t => some (
      if laterInOrder s (.claimSend t) then .next (s.at_ s.cc (.claimSend t))
      else if (t.far ∨ t.pkg ≠ s.pkgid.toNat) ∧ !(rightsOk s t.vf && vaultPresent s t.obj.toNat 64) then
        .next (s.reply (tokenHdr t) 1 (.messageFailure t.tag 0x21))
      else .next (takeToken s t))
    | _ => none)

/-- ROUTE_REFUSAL: the element enters the refusal queue unreserved, the event is raised, the failed effect is counted (12 R242; 13 R245). The reason
of the details carries bit 8 when the queue had no space; a queue that is absent or not resident counts as one without space, a choice (log 27). -/
def execRouteRefusal (s : State) : Res :=
  evStep s (fun
    | .routeRefusal h a rq tid reason obj => some (
      let key := s.queueKey a rq
      let q := s.queue key
      let fits := q.present && q.home.isSome && decide (0 < q.space)
      let x := BitVec.ofNat 64 (tid.toNat + reason % 2 ^ 16 * 2 ^ 32 + h.pkg % 2 ^ 16 * 2 ^ 48)
      let s := if fits then pushElement s a key x false else s
      let s := { s with remotes := s.remotes.erase h.tag }
      let s := s.modCtx a (fun c => { c with failed := c.failed + 1 })
      .next (refusalEvent s a tid (if fits then reason else reason + 2 ^ 8) obj))
    | _ => none)

end Sys2Proof.Machine
end

