-- ==== Sys2Proof/Machine/Scheduling.lean ====
section
/-!
DEFINITION. Front positions: which waiting context takes a vacancy (14 R257, R258); who acts in a cc, in the order of 09 R189 and 12 R222.
-/

namespace Sys2Proof.Machine

/-- Whether two labels complement each other (14 R258). -/
def complements : Label → Label → Bool
  | .c, .m | .m, .c => true
  | _, _ => false

/-- The waiting contexts of a core in ascending order (14 R256). -/
def waitingOf (s : State) (core : Nat) : List Nat :=
  (List.range 8).filter (fun k => decide ((s.ctx (.ctx core k)).st = .waiting))

/-- The context that takes a vacancy (14 R258). -/
def pickFront (s : State) (core : Nat) (other : Option Nat) : Option Nat :=
  let rec_ := fun k => s.ctx (.ctx core k)
  let cands := waitingOf s core
  let due := cands.filter (fun k => decide (2 ≤ (rec_ k).skip))
  let top := cands.foldl (fun m k => Nat.max m (rec_ k).prio) 0
  let high := cands.filter (fun k => (rec_ k).prio == top)
  let fit := match other with
    | some o => high.filter (fun k => complements (rec_ k).label (rec_ o).label)
    | none => []
  let ks := if !due.isEmpty then due else if !fit.isEmpty then fit else high
  ks.foldl (fun (b : Option Nat) k => match b with
    | none => some k
    | some j => if (rec_ k).waitFrom < (rec_ j).waitFrom then some k else some j) none

/-- A context takes a front position, from which it issues from cc `from_` on; its yield quantum is watched (14 R257, R258). -/
def takePosition (s : State) (core k : Nat) (posA : Bool) (from_ : Nat) : State :=
  let s := (waitingOf s core).foldl (fun (s : State) j =>
    if j ≠ k ∧ (s.ctx (.ctx core j)).waitFrom < s.cc then s.modCtx (.ctx core j) (fun c => { c with skip := c.skip + 1 }) else s) s
  let s := s.modCtx (.ctx core k) (fun c => { c with st := .front, skip := 0, runFrom := from_, overrun := false })
  let s := s.modCore core (fun c =>
    if posA then { c with posA := some k }
    else { c with posB := some k, fair := if c.lastB = some k then c.fair else 0, lastB := some k })
  s.at_ (from_ + (s.core core).yq) (.yieldOverrun core k)

/-- Fill the vacancies of a core, position A first (14 R258). -/
def fillVacancies (s : State) (core from_ : Nat) : State :=
  let c := s.core core
  let s := match c.posA with
    | some _ => s
    | none => match pickFront s core c.posB with
      | some k => takePosition s core k true from_
      | none => s
  let c := s.core core
  match c.posB with
  | some _ => s
  | none => match pickFront s core c.posA with
    | some k => takePosition s core k false from_
    | none => s

/-- A new yield quantum holds for the runs that last: their overruns are looked for anew (14 R257; 15 R296). -/
def watchYields (s : State) (core : Nat) : State :=
  ((s.core core).posA.toList ++ (s.core core).posB.toList).foldl (fun (s : State) k =>
    s.at_ (Nat.max s.cc ((s.ctx (.ctx core k)).runFrom + (s.core core).yq)) (.yieldOverrun core k)) s

/-- YIELD_OVERRUN: the context has been front for YQ cc of one run without a yield bundle (14 R257). -/
def execYieldOverrun (s : State) : Res :=
  evStep s (fun
    | .yieldOverrun core k => some (
      let a := Agent.ctx core k
      let c := s.ctx a
      if c.st ≠ .front ∨ c.overrun then .next s
      else if s.cc < c.runFrom + (s.core core).yq then .next (s.at_ (c.runFrom + (s.core core).yq) (.yieldOverrun core k))
      else
        let s := s.modCtx a (fun c => { c with overrun := true })
        .next (s.event (.scribe (core / 8)) a 0x77
          { d1 := BitVec.ofNat 64 (core + k * 2 ^ 16), d2 := (s.taskidOf a).setWidth 64 }))
    | _ => none)

/-! ## Turns (09 R189; 12 R222) -/

/-- The contexts, scribe and command processor turns of a die, in the order of 09 R189. -/
def issueTurns (s : State) (d : Nat) : List Turn :=
  let cores := s.cores.filterMap (fun e => if e.1 / 128 = d ∧ (e.2.posA.isSome ∨ e.2.posB.isSome) then some (Turn.merge e.1) else none)
  let scribes := s.ctxs.filterMap (fun e =>
    if 4096 + 16 * d ≤ e.1 ∧ e.1 < 4096 + 16 * (d + 1) ∧ e.2.st = .front then some (Turn.issue (.scribe (e.1 - 4096))) else none)
  let cp := if (s.ctx (.cp d)).st = .front then [Turn.issue (.cp d)] else []
  cores ++ scribes ++ cp

/-- The release queues of a die that perform an effect, in the order of 09 R189. -/
def performTurns (s : State) (d : Nat) : List Turn :=
  s.relqs.filterMap (fun e => match e.2 with
    | r :: _ => if r.who.die = d then some (Turn.perform r.who) else none
    | [] => none)

/-- The engines that act in a cc: the walker last, after every event that alters its conditions (12 R222; 19 R337). Then the task clocks advance (14 R254). -/
def engineTurns (s : State) : List Turn :=
  s.clusters.flatMap (fun c => c.2.chans.filterMap (fun h => if h.2.st = .running then some (Turn.chan c.1 h.1) else none)) ++
  (if s.walker.st = 1 ∨ s.walker.st = 2 then [Turn.walker] else []) ++ (if s.tasks.isEmpty then [] else [Turn.clocks])
/-- The ring engines that act in a cc: their changes apply before those of contexts (15 R285). -/
def ringTurns (s : State) : List Turn := s.dies.filterMap (fun d => if d.2.ring.isSome || !d.2.ringQ.isEmpty then some (Turn.ring d.1) else none)

/-- Everything that acts in a cc. -/
def turnsOf (s : State) : List Turn :=
  ringTurns s ++ (List.range 4).flatMap (performTurns s) ++ (List.range 4).flatMap (issueTurns s) ++ engineTurns s

end Sys2Proof.Machine
end

