-- ==== Sys2Proof/Machine/Tasks.lean ====
section
/-!
DEFINITION. Meanings of TASK and DSPJ, and the life of a task: launch, start, clock, end (02 R47-R51; 09 R191-R194; 12 R244; 14 R250-R255).
-/

namespace Sys2Proof.Machine

/-! ## The descriptor and the image (09 R191; 02 R47-R50) -/

/-- The bytes of segments from an address on: each as the agent's load reads it, one at a fabric address once it has come for `u` (17 R408). -/
def imageParts (s : State) (a : Agent) (u : FarUse) : Nat → List (Loc × Nat) → Except AFault (List Byte × State)
  | _, [] => .ok ([], s)
  | ea, (l, n) :: r =>
    let va := BitVec.ofNat 64 ea
    let x := readSegs s a [(l, n)]
    let part := if l.fabric then (farRead s a u .load va l n).map (fun bs => (bs, s))
      else if x.2.1 then .error { cause := 0x51, d1 := BitVec.ofNat 64 (Loc.addr s l), d2 := va } else .ok (x.1, x.2.2.2)
    match part with
    | .error f => .error f
    | .ok (bs, s) => (imageParts s a u (ea + n) r).map (fun y => (bs ++ y.1, y.2))
/-- Bytes that a launch reads, through the checks of a space-m load; the fault's words. -/
def readImage (s : State) (a : Agent) (ea n : Nat) (u : FarUse := .slot) : Except AFault (List Byte × State) :=
  match resolveRange s a .load .m (n / 128 + 2) (BitVec.ofNat 64 ea) n with
  | .error f => .error f
  | .ok (segs, s) => imageParts s a u ea segs

/-- The first reserved field of a task descriptor that is not zero, or its KEYS value above 4 (09 R191). -/
def descBad (d : List Byte) : Option Nat :=
  let core := field d 8 1
  let prio := field d 9 1
  let keys := field d 10 1
  if bits core 7 3 ≠ 0 then some core
  else if bits prio 7 2 ≠ 0 then some prio
  else if 4 < keys then some keys
  else if field d 11 1 ≠ 0 then some (field d 11 1)
  else match (List.range 4).find? (fun i => bits (field d (12 + 2 * i) 2) 15 12 != 0) with
    | some i => some (field d (12 + 2 * i) 2)
    | none =>
      if bits (field d 0x18 8) 63 48 ≠ 0 then some (field d 0x18 8)
      else if field d 0x30 8 ≠ 0 then some (field d 0x30 8)
      else if field d 0x38 8 ≠ 0 then some (field d 0x38 8)
      else none

/-- A variant that a program offers: the whole program when it has no table (02 R49; 09 R192). -/
structure Variant where
  key : Nat
  panes : Nat
  units : Nat
  entry : Nat
  budget : Nat
  deriving DecidableEq, Repr

/-- Variant `v` of a table (02 R49). -/
def variantAt (t : List Byte) (v : Nat) : Variant :=
  { key := field t (24 * v) 2, panes := field t (24 * v + 2) 1, units := field t (24 * v + 4) 4, entry := field t (24 * v + 8) 4
    budget := field t (24 * v + 16) 8 }
/-- Whether a variant has a reserved field that is not zero (02 R49). -/
def variantReserved (t : List Byte) (v : Nat) : Bool :=
  field t (24 * v + 3) 1 != 0 || bits (field t (24 * v + 4) 4) 31 9 != 0 || field t (24 * v + 12) 4 != 0
    || bits (field t (24 * v + 16) 8) 63 48 != 0

/-- Set bits of a pane map. -/
def paneCount (units : Nat) : Nat := ((List.range 4).filter (bit units)).length

/-- The offset of a program's code, after its tables and records (02 R47). -/
def codeStart (h : List Byte) : Nat := field h 0x1C 4 + 24 * field h 0xC 1 + 16 * (field h 0xD 1 + field h 0xE 2)
/-- Whether an entry offset is not 4-aligned or lies outside the code range (02 R50). -/
def entryBad (h : List Byte) (e : Nat) : Bool :=
  e % 4 != 0 || decide (e < codeStart h ∨ codeStart h + field h 0x30 4 ≤ e)

/-- The first of the checks 1 to 13 of R50 that a header and its variant table fail. -/
def headerBad (h t : List Byte) : Option Nat :=
  let n := field h 0xC 1
  let vs := (List.range n).map (variantAt t)
  let checks : List Bool :=
    [ field h 0 4 != 0x50514C48
    , field h 4 2 != 2
    , field h 0x3C 4 != crc32 (h.take 0x3C)
    , bits (field h 8 4) 31 9 != 0 || bits (field h 0x10 8) 63 48 != 0 || field h 0x34 8 != 0
        || (!t.isEmpty && (List.range n).any (variantReserved t))
    , decide (3 < field h 6 1)
    , field h 7 1 == 0 || decide (8 < field h 7 1)
    , decide (16 < n)
    , vs.any (fun v => decide (4 < v.panes ∨ paneCount v.units < v.panes))
    , field h 0x1C 4 % 8 != 0 || decide (field h 0x1C 4 < 0x40) || entryBad h (field h 0x20 4) || vs.any (fun v => entryBad h v.entry)
    , n != 0 && (field h 0x10 8 != vs.foldl (fun m v => Nat.max m v.budget) 0 || field h 8 4 != vs.foldl (fun u v => u ||| v.units) 0)
    , decide (16 < field h 0xD 1)
    , decide (4096 < field h 0xE 2)
    , field h 0x18 4 == 0 ]
  ((List.range 13).find? (fun k => checks.getD k false)).map (· + 1)

/-- Whether a queue record fails the layout of R224. -/
def queueRecBad (r : List Byte) : Bool :=
  bits (field r 0 2) 15 12 != 0 || decide (field r 2 1 < 1 ∨ 12 < field r 2 1) || bits (field r 3 1) 7 1 != 0
    || bits (field r 4 4) 31 24 != 0 || field r 8 8 % 16 != 0
/-- Whether the queue records of an image fail check 14 of R50. -/
def queueRecsBad (s : State) (proc : Nat) (rs : List (List Byte)) : Bool :=
  let nos := rs.map (fun r => bits (field r 0 2) 11 0)
  rs.any queueRecBad || nos.dedup.length != nos.length || nos.any (fun q => (s.queue (proc * 4096 + q)).present)
/-- Whether a well record fails check 15 of R50 (12 R230). -/
def wellRecBad (contexts : Nat) (r : List Byte) : Bool :=
  bits (field r 0 1) 7 4 != 0 || decide (contexts ≤ field r 1 1) || decide (1 < field r 2 1) || (field r 3 1 != 2 && field r 3 1 != 3)
    || field r 4 4 != 0

/-- Sixteen-byte records. -/
def records (bs : List Byte) (n : Nat) : List (List Byte) := (List.range n).map (fun i => (bs.drop (16 * i)).take 16)

/-- A program that a launch has read and checked. -/
structure Program where
  addr : Nat
  head : List Byte
  vs : List Variant
  wells : List (List Byte)
  queues : List (List Byte)

/-- A failed check of R50 (22 R369). -/
def badHeader (s : State) (addr n : Nat) : TrapRec := s.slotTrap 0x65 0 (BitVec.ofNat 64 addr) (BitVec.ofNat 64 n)

/-- Read a program's header, its variant table and its records, and make the checks of R50. A table that VARIANTS or VTAB misplaces is not read (log 22). -/
def readProgram (s : State) (a : Agent) (addr : Nat) (u : FarUse := .slot) : Except TrapRec (Program × State) :=
  let flt := fun (f : AFault) => faultRec s f
  if addr % 64 ≠ 0 then .error (flt (misaligned (BitVec.ofNat 64 addr))) else
  match readImage s a addr 64 u with
  | .error f => .error (flt f)
  | .ok (h, s1) =>
  let n := field h 0xC 1
  let vtab := field h 0x1C 4
  match (headerBad h []).filter (fun k => decide (k ≤ 3)) with
  | some k => .error (badHeader s addr k)
  | none =>
  match (if n ≤ 16 ∧ vtab % 8 = 0 ∧ 0x40 ≤ vtab then readImage s1 a (addr + vtab) (24 * n) u else .ok ([], s1)) with
  | .error f => .error (flt f)
  | .ok (t, s2) =>
  match headerBad h t with
  | some k => .error (badHeader s addr k)
  | none =>
  let wq := field h 0xD 1 + field h 0xE 2
  match readImage s2 a (addr + vtab + 24 * n) (16 * wq) u with
  | .error f => .error (flt f)
  | .ok (rs, s3) =>
  let ws := records rs (field h 0xD 1)
  let qs := records (rs.drop (16 * field h 0xD 1)) (field h 0xE 2)
  if queueRecsBad s3 (s3.procOf a) qs then .error (badHeader s addr 14)
  else if ws.any (wellRecBad (field h 7 1)) then .error (badHeader s addr 15)
  else .ok ({ addr := addr, head := h, vs := (List.range n).map (variantAt t), wells := ws, queues := qs }, s3)

/-! ## Selection and admission (09 R192; 14 R253) -/

/-- The whole program as a variant, when it has none (09 R192). -/
def wholeProgram (h : List Byte) : Variant :=
  { key := 0, panes := paneCount (field h 8 4), units := field h 8 4, entry := field h 0x20 4, budget := bits (field h 0x10 8) 47 0 }

/-- A pane that a TASK may take: reserved, or free (09 R193). -/
def paneTakable (s : State) (core q : Nat) : Bool := (paneOf s core q).owner.isNone

/-- The physical panes that a TASK takes, one for each logical pane (the lower of its pair under coverage level 3): reserved ones first (09 R193). -/
def panePicks (s : State) (core cover n : Nat) : Option (List Nat) :=
  let rsv := fun (q : Nat) => (paneOf s core q).reserved
  let order := if cover = 3 then
      let ps := (List.range 2).filter (fun i => paneTakable s core (2 * i) && paneTakable s core (2 * i + 1))
      let w := fun (i : Nat) => (rsv (2 * i)).toNat + (rsv (2 * i + 1)).toNat
      (ps.filter (fun i => w i == 2) ++ ps.filter (fun i => w i == 1) ++ ps.filter (fun i => w i == 0)).map (2 * ·)
    else
      let ps := (List.range 4).filter (paneTakable s core)
      ps.filter rsv ++ ps.filter (fun q => !rsv q)
  if n ≤ order.length then some (order.take n) else none

/-- The free hardware contexts of a core: those that belong to no started task (14 R256). -/
def freeCtxs (s : State) (core : Nat) : List Nat :=
  (List.range 8).filter (fun k => let c := s.ctx (.ctx core k); decide (c.st = .free) && c.task.isNone)
/-- The resident contexts of a core (14 R253). -/
def residentCtxs (s : State) (core : Nat) : Nat :=
  ((List.range 8).filter (fun k => let c := s.ctx (.ctx core k); c.task.isSome && decide (c.st ≠ .halted))).length
/-- Whether an image's pinned queues can be made resident on a cluster (09 R192; 12 R225). -/
def queuesFit (s : State) (cl : Nat) (p : Program) : Bool :=
  decide (residents s cl + (p.queues.filter (fun r => bit (field r 3 1) 0)).length ≤ 64)

/-- What a launch decides: a variant to start with its panes, or a refusal reason (09 R192; 14 R253). -/
def decideLaunch (s : State) (cl core : Nat) (key : Nat) (p : Program) : (Nat × Variant × List Nat) ⊕ Nat :=
  let n := field p.head 7 1
  let cover := field p.head 6 1
  let vs := if p.vs.isEmpty then [(0, wholeProgram p.head)] else ((p.vs.zipIdx.map (fun x => (x.2, x.1))).filter (fun v => v.2.key == key))
  if vs.isEmpty then .inr 1 else
  match vs.findSome? (fun v => (panePicks s core cover v.2.panes).map (fun q => (v.1, v.2, q))) with
  | none => .inr 2
  | some x =>
    if (freeCtxs s core).length < n then .inr 3
    else if !queuesFit s cl p then .inr 5
    else if (s.core core).share < residentCtxs s core + n then .inr 4
    else .inl x

/-! ## Starting (09 R192, R193; 02 R51) -/

/-- Bind the wells of an image's records as WBIND binds them, each to a handle of its context (12 R230, R231). -/
def bindRecords (acting : Agent) (core : Nat) (ctxs : List Nat) : List (List Byte) → State → Except TrapRec State
  | [], s => .ok s
  | r :: rs, s =>
    let a := Agent.ctx core (ctxs.getD (field r 1 1) 0)
    let k := field r 0 1
    let prod := field r 2 1 == 1
    let ea := BitVec.ofNat 64 (field r 8 8)
    if ea.toNat % 64 ≠ 0 then .error (faultRec s (misaligned ea)) else
    match resolve s acting .atomic (if field r 3 1 = 2 then .p else .v) ea 64 with
    | .error f => .error (faultRec s f)
    | .ok (l, s) =>
      let key := l.key
      if s.poisoned key 64 then .error (s.slotTrap 0x51 0 (BitVec.ofNat 64 (Loc.addr s l)) ea) else
      match wellBad s key with
      | some x => .error (s.slotTrap 0x02 0 (BitVec.ofNat 64 x))
      | none =>
        let me := Binder.handle a k
        let role := if prod then (s.well key).prod else (s.well key).cons
        if role.isSome ∧ role ≠ some me then .error (boundElsewhere s key prod ea) else
        let old := (s.ctx a).live.c.w.getD k {}
        let s := if old.bound then s.unbindWell (s.wellKey a old) old.prod me else s
        let w := s.well key
        let s := s.setWell key (if prod then { w with prod := some me } else { w with cons := some me })
        let x : WHandle := { bound := true, prod := prod, vault := field r 3 1 == 3, blk := ea, own := if prod then wellP s key else wellC s key }
        bindRecords acting core ctxs rs (s.modCtx a (fun c => { c with live := { c.live with c := { c.live.c with w := c.live.c.w.setIfInBounds k x } } }))

/-- A hardware context as a started task's member of index `i` finds it (02 R51; 06 R116; 09 R192); what belongs to the hardware context stays. -/
def memberCtx (old : Ctx) (tk i prio : Nat) (l : Ctx) (arg seed entry : BitVec 64) (lc : Nat) : Ctx :=
  let regs : Regs := {
    s := (Vector.replicate 32 0).set 1 arg |>.set 2 (BitVec.ofNat 64 i)
    c := { lc := Vector.ofFn (fun (k : Fin 8) => BitVec.ofNat 12 (bits lc (12 * k.val + 11) (12 * k.val))), seed := seed, pc := entry } }
  { task := some tk, index := i, prio := prio, live := regs, stage := regs.c, ckpt := regs, ckBund := entry.setWidth 57
    flight := old.flight.filter (fun e => e.kind == .fetch), brk := old.brk, owner := l.owner, padwin := l.padwin, vaultwin := l.vaultwin }

/-- A queue as its record creates it: empty, and resident on the launching cluster when it is pinned (12 R224, R225). -/
def recordQueue (tk cl : Nat) (r : List Byte) : Queue :=
  let pin := bit (field r 3 1) 0
  { present := true, log2cap := field r 2 1, pin := pin, waitlim := bits (field r 4 4) 23 0, store := BitVec.ofNat 64 (field r 8 8)
    home := if pin then some cl else none, task := some tk }

/-- Give a TASK's panes to the context of index 0 and return the reserved panes it does not take (09 R193; 11 R205, R206). -/
def takePanes (s : State) (core k cover : Nat) (picks : List Nat) : State :=
  let a := Agent.ctx core k
  let s := picks.zipIdx.foldl (fun (s : State) q =>
    let s := (if cover = 3 then [q.1, q.1 + 1] else [q.1]).foldl (fun (s : State) p => modPane s core p (fun _ => freshPane k q.2)) s
    s.modCtx a (fun c => { c with panes := c.panes.setIfInBounds q.2 (some q.1) })) s
  (List.range 4).foldl (fun (s : State) p => if (paneOf s core p).reserved then returnPane s core p false else s) s

/-- The start of a program extends its die's measurement when the digest of its header is not in the die's log of 512 (23 R404). -/
def measureStart (s : State) (die : Nat) (head : List Byte) : State :=
  let d := sha256 (head.take 64)
  let x := s.die die
  if x.log.contains d then s
  else s.modDie die (fun x => { x with meas := extend x.meas d, log := if x.log.length < 512 then x.log ++ [d] else x.log })

/-- Start a task (09 R192; 14 R251): its contexts become ready 16 cc from now. -/
def startTask (s : State) (launcher acting : Agent) (cl core : Nat) (d : List Byte) (p : Program) (v : Variant) (picks : List Nat) : Except TrapRec State :=
  let n := field p.head 7 1
  let cover := field p.head 6 1
  let ks := (freeCtxs s core).take n
  let (tk, s1) := s.newId
  let t : Task :=
    { taskid := BitVec.ofNat 32 (field d 0x14 4), core := core, proc := s.procOf launcher, owner := (s.ctx launcher).owner
      ctxs := ks.map (fun k => 8 * core + k), units := BitVec.ofNat 32 v.units, cover := cover, budget := bits v.budget 47 0
      started := true, readyAt := s.cc + 16, prio := field d 9 1, launcher := launcher }
  let s1 := { s1 with tasks := s1.tasks.insert tk t }
  let entry := BitVec.ofNat 64 (p.addr + v.entry)
  let s1 := ks.zipIdx.foldl (fun (s : State) k => s.modCtx (.ctx core k.1) (fun c =>
    memberCtx c tk k.2 (field d 9 1) (s.ctx launcher) (BitVec.ofNat 64 (field d 0x20 8)) (BitVec.ofNat 64 (field d 0x28 8)) entry (field p.head 0x24 12))) s1
  match bindRecords acting core ks p.wells s1 with
  | .error t => .error t
  | .ok s2 =>
    let s2 := ks.foldl (fun (s : State) k => s.modCtx (.ctx core k) (fun c => { c with ckpt := c.live, stage := c.live.c })) s2
    let s2 := p.queues.foldl (fun (s : State) r => s.modQueue (s.procOf launcher * 4096 + bits (field r 0 2) 11 0) (fun _ => recordQueue tk cl r)) s2
    let s2 := measureStart (takePanes s2 core (ks.headD 0) cover picks) (core / 128) p.head
    .ok ((s2.at_ s2.cc (.paneGrant core)).after 16 (.taskReady tk))

/-! ## TASK (09 R192-R194; 14 R250, R251) -/

/-- The status word of R194. -/
def taskStatus (started : Bool) (reason variant panes : Nat) (taskid : Nat) : Word :=
  BitVec.ofNat 64 (started.toNat + reason * 2 + variant * 2 ^ 4 + panes * 2 ^ 8 + taskid * 2 ^ 16)

/-- The earlier tasks of an agent's launch queue that have not completed, oldest first (14 R251). -/
def earlierTasks (s : State) (a : Agent) : List Task :=
  (s.tasks.filter (fun e => e.2.launcher == a && !e.2.walker && e.2.started && !e.2.gone)).map (·.2)

/-- The key that a descriptor's governor entries form, read in the issue cc; the entry that has no table (09 R187, R192). -/
def taskKey (s : State) (a : Agent) (d : List Byte) : Nat ⊕ Nat :=
  let n := field d 10 1
  let x := fun (i : Nat) => bits (field d (12 + 2 * i) 2) 11 0
  if n = 0 then .inl 0 else
  match govTableOf s (s.procOf a) with
  | none => .inr (x 0)
  | some t => .inl (packNat 4 (fun i => (govEntry s t (x i)).fmt.toNat) n)

/-- The launch of a task whose descriptor has been read: the status it writes, and the state; or the trap of the launcher. `acting` is the scribe
of the target cluster (14 R250). -/
def launch (s : State) (a acting : Agent) (cl : Nat) (d : List Byte) (u : FarUse := .slot) : Except TrapRec (Word × State) :=
  match descBad d with
  | some x => .error (s.slotTrap 0x02 0 (BitVec.ofNat 64 x))
  | none =>
  match readProgram s a (field d 0 8) u with
  | .error t => .error t
  | .ok (p, s) =>
  match taskKey s a d with
  | .inr x => .error (s.slotTrap 0x63 0 (BitVec.ofNat 64 x))
  | .inl key =>
  let core := 8 * cl + field d 8 1
  let tid := field d 0x14 4
  match decideLaunch s cl core key p with
  | .inr r =>
    let s := if r = 1 then s.event (.scribe cl) a 0x60 { d1 := BitVec.ofNat 64 tid, d2 := BitVec.ofNat 64 key } else s
    .ok (taskStatus false r 0 0 tid, s)
  | .inl (i, v, picks) =>
    match startTask s a acting cl core d p v picks with
    | .error t => .error t
    | .ok s => .ok (taskStatus true 0 i v.panes tid, s)

/-- TASK (09 R191-R194; 14 R250, R251). -/
def execTask (h : Hdr) (d a : BitVec 5) (s : State) : Res :=
  slotOp (.task h d a) h s (fun s =>
    let w := s.rs a
    let clu := wbits w 3 0
    let clusterBound := match s.who with
      | .cp _ => true
      | _ => false
    if w.getLsbD 5 ∨ (!clusterBound ∧ clu ≠ 0) then badOperand s w else
    let early := earlierTasks s s.who
    match early with
    | t :: _ =>
      if w.getLsbD 4 then
        .next (s.hold { limit := if early.all (fun t => t.expired) then some 0 else none, cause := 0x38, det := { d0 := s.slotDet 0, d1 := t.taskid.setWidth 64 } })
      else go s w clu
    | [] => go s w clu)
where
  go (s : State) (w : Word) (clu : Nat) : Res :=
    let cl := match s.who with
      | .cp q => 16 * q + clu
      | x => x.cluster?.getD 0
    match readImage s s.who (w.toNat / 64 * 64) 64 with
    | .error f => faultAt s f
    | .ok (bs, s1) =>
      match launch s1 s1.who (.scribe cl) cl bs with
      | .error t => raiseOrWait s t
      | .ok (x, s2) => .next (s2.result 8 [s2.wS d x])

/-! ## DSPJ (12 R244) -/

/-- The buckets and targets of a dispatch table. -/
def dispatchEntries (t : List Byte) : List (Nat × Nat) := (List.range 8).map (fun i => (field t (16 * i) 4, field t (16 * i + 8) 8))
/-- Whether the used entries of a table come first with strictly ascending buckets. -/
def dispatchOrdered : Nat → List (Nat × Nat) → Bool
  | _, [] => true
  | b, e :: r => if e.1 = 0 then r.all (fun x => x.1 == 0) else decide (b < e.1) && dispatchOrdered e.1 r

/-- The details of 0x62: the count and the top bucket (22 R369). -/
def bucketTrap (s : State) (n : Word) (es : List (Nat × Nat)) : Res :=
  trapAt s 0x62 0 n (BitVec.ofNat 64 (es.foldl (fun m e => Nat.max m e.1) 0))

/-- What DSPJ makes of a table that it has read (12 R244; 04 R70). -/
def dispatch (s : State) (d : BitVec 5) (n : Word) (bs : List Byte) : Res :=
  let es := dispatchEntries bs
  match (List.range 8).find? (fun i => field bs (16 * i + 4) 4 != 0) with
  | some i => trapAt s 0x02 0 (BitVec.ofNat 64 (field bs (16 * i + 4) 4))
  | none =>
  if !dispatchOrdered 0 es then bucketTrap s n es
  else if n = 0 then .next (s.result 1 [s.wS d 0])
  else match es.find? (fun e => e.1 != 0 && decide (n.toNat ≤ e.1)) with
    | none => bucketTrap s n es
    | some e =>
      if e.2 % 4 ≠ 0 then trapAt s 0x24 0 (BitVec.ofNat 64 e.2)
      else .next (({ s with bnxt := BitVec.ofNat 64 e.2 }.modMe (fun c => { c with empty := 4 })).result 1 [s.wS d (BitVec.ofNat 64 e.1)])

/-- DSPJ: the scribe freezes until the table has been read; its target is the next bundle, after four empty cycles (12 R244; 04 R70; 17 R408). -/
def execDspj (h : Hdr) (d a b : BitVec 5) (s : State) : Res :=
  slotOp (.dspj h d a b) h s (fun s =>
    let ea := s.rs a
    let n := s.rs b
    match resolveAccess s .load .m ea 128 128 with
    | .error f => .next (s.raise (faultRec s f))
    | .ok (segs, s) =>
      match segs with
      | [(l, _)] =>
        if l.fabric then
          match farRead s s.who .slot .load ea l 128 with
          | .error f => faultAt s f
          | .ok bs => dispatch s d n bs
        else freezeFor s (latencyOf s s.who l false) (fun s =>
          let r := readSegs s s.who segs
          if r.2.1 then trapAt r.2.2.2 0x51 0 (BitVec.ofNat 64 (Loc.addr s l)) ea else dispatch r.2.2.2 d n r.1)
      | _ => .next s)

/-! ## The life of a task (14 R251, R254, R256) -/

/-- TASK_READY: the contexts of a started task become waiting; a position that is empty is taken in this cc (14 R251, R258). One that was asked to stop meanwhile
stops (log 69). -/
def execTaskReady (s : State) : Res :=
  evStep s (fun
    | .taskReady tk => some (
      let t := s.task tk
      let s := t.ctxs.foldl (fun (s : State) k =>
        let a := agentOf k
        if (s.ctx a).task = some tk ∧ (s.ctx a).st = .free then
          s.modCtx a (fun c => { c with st := .waiting, skip := 0, waitFrom := s.cc })
        else s) s
      let s := fillVacancies s t.core s.cc
      let s := t.ctxs.foldl (fun (s : State) k => if (s.ctx (agentOf k)).stopReq.isSome then s.at_ s.cc (.boundaryStop (agentOf k)) else s) s
      .next { s with turns := turnsOf s })
    | _ => none)

/-- Whether a task has completed: no saved member, every member halted, the last HALT performed (14 R251; 20 R351). -/
def taskDone (s : State) (tk : Nat) : Bool :=
  let t := s.task tk
  t.started && !t.gone && !s.saved.any (fun m => m.task == tk) && t.ctxs.all (fun k =>
    let a := agentOf k
    decide ((s.ctx a).st = .halted) && !s.released a (fun e => e == .halt))

/-- Check a task for its completion in this cc. -/
def checkTask (s : State) (tk : Option Nat) : State :=
  match tk with
  | some k => if taskDone s k then s.at_ s.cc (.taskComplete k) else s
  | none => s

/-- A hardware context that has become free: what belongs to it stays, and so do its counters, which CTX reads until a task starts in it (05 R99; 15 R290, R296). Its
registers read 0 (log 20). -/
def freedCtx (c : Ctx) : Ctx :=
  { icyc := c.icyc, frz := c.frz, flight := c.flight.filter (fun e => e.kind == .fetch), brk := c.brk, owner := c.owner, padwin := c.padwin, vaultwin := c.vaultwin }

/-- TASK_COMPLETE: the task's contexts are free, their panes reserved for the scribe's next TASK, its banks given up (09 R193; 12 R234; 14 R251). -/
def execTaskComplete (s : State) : Res :=
  evStep s (fun
    | .taskComplete tk => some (
      if !taskDone s tk then .next s else
      let t := s.task tk
      let s := t.ctxs.foldl (fun (s : State) k =>
        let a := agentOf k
        let s := (List.range 4).foldl (fun (s : State) q =>
          if (paneOf s a.core q).owner.map (·.1) = some a.ctxNo then
            modPane s a.core q (fun p => { ({ reserved := true } : Pane) with ops := p.ops })
          else s) s
        s.modCtx a freedCtx) s
      let s := (List.range 64).foldl (fun (s : State) cl =>
        if (s.cluster cl).banks.any (fun b => b.2 == 2 * tk + 1) then giveBanks s cl (2 * tk + 1) (BitVec.allOnes 32) else s) s
      let s := s.modTask tk (fun t => { t with gone := true })
      .next (if t.walker then s.at_ s.cc .walkerEntryComplete else s))
    | _ => none)

/-- BUDGET_EXPIRED, in the cc in which the task clock first exceeds the budget: one event for each task, to the scribe of its cluster (14 R254; 22 R369). -/
def execBudgetExpired (s : State) : Res :=
  evStep s (fun
    | .budgetExpired tk => some (
      let t := s.task tk
      if !t.started ∨ t.expired then .next s else
      let s := s.modTask tk (fun t => { t with expired := true })
      let a : Agent := match t.ctxs with
        | k :: _ => agentOf k
        | [] => .scribe (t.core / 8)
      .next (s.notify { s.noticeOf a 0x75 3 { d1 := t.taskid.setWidth 64, d2 := BitVec.ofNat 64 (t.budget + 1) } with
        dest := .scribe (t.core / 8), taskid := t.taskid }))
    | _ => none)

end Sys2Proof.Machine
end

