-- ==== Sys2Proof/Machine/Channels.lean ====
section
/-!
DEFINITION. Copy channels: CPCH and the steps of a channel that runs (15 R266-R276; 12 R233), what an engine does when it completes (R269), the places
that fabric addresses name (19 R348).
-/

namespace Sys2Proof.Machine

/-! ## Fabric addresses (19 R348) -/

/-- Whether a global fabric address keeps the limits that its own fields set (19 R348). -/
def fabricOk (pa : Nat) : Bool :=
  bits pa 63 51 == 1 && bits pa 34 33 != 3 && (bits pa 34 33 != 2 || bits pa 26 22 == 0)

/-- The place in this package that `n` bytes at a fabric address name, none where the access is refused: the vault's addressed space, a pad,
or the stack window that firmware set (19 R348; 23 R402). -/
def fabricPlace (s : State) (pa n : Nat) : Option Loc :=
  if !fabricOk pa then none else
  let off := bits pa 32 0
  match bits pa 34 33 with
  | 0 =>
    let b := s.host.stkBase.toNat
    if off + n ≤ s.host.stkSize.toNat ∧ b + off + n ≤ 0x7FE0000000 then some { space := .ms, key := b + off } else none
  | 1 => if vaultPresent s off n then some { space := .v, key := vaultKey off } else none
  | _ => if bits off 21 0 + n ≤ 2 ^ 22 then some { space := .p, key := padKey (bits off 32 27) (bits off 21 0) } else none

/-! ## Completion of an engine (15 R269) -/

/-- The names of a completion in a descriptor: the semaphore's cluster and byte, the barrier object's place. -/
structure Finish where
  cl : Nat
  sem : Nat
  bar : Option Loc

/-- An engine arrives at its barrier object; a malformed or unreadable one is told to the starting context (12 R238; 15 R269; 17 R315; 22 R368). -/
def engineArrive (s : State) (x : EngArrival) : State :=
  let r := arriveAt s x.actor x.loc x.bix
  let tell := fun (cause : Nat) (det : Det) => r.s.engineTrap x.who x.task x.dest { cause := cause, det := det, bund := x.bund }
  let d0 := engDet x.kind x.no 1
  if r.poison then tell 0x51 { d0 := engDet x.kind x.no 0, d1 := BitVec.ofNat 64 (Loc.addr s x.loc), d2 := BitVec.ofNat 64 x.va }
  else if r.bad then tell 0x36 { d0 := d0, d1 := BitVec.ofNat 64 x.va, d2 := r.rounds.setWidth 64, d3 := r.map }
  else r.s
/-- The place of an engine's arrival among those of a cc: by cluster, then by channel (12 R222). -/
def EngArrival.place (x : EngArrival) : Nat := x.actor.cluster?.getD (16 * x.actor.die) * 32 + (if x.kind = 1 then x.no else 31)
/-- Put an engine's arrival among the turns of a cc, before the walker's (12 R222; 19 R337). -/
def addArrival (x : EngArrival) : List Turn → List Turn
  | [] => [.arrival x]
  | t :: r => match t with
    | .walker | .clocks => .arrival x :: t :: r
    | .arrival y => if x.place < y.place then .arrival x :: t :: r else t :: addArrival x r
    | _ => t :: addArrival x r

/-- An engine completes: its semaphore at once, as a signal applies before the waits of its cc (12 R240), then its barrier arrival, after all contexts (12 R222;
15 R269). `x` makes the arrival at a place. -/
def engineFinish (s : State) (f : Finish) (x : Loc → EngArrival) : State :=
  let s := if bit f.sem 6 then semSignal s f.cl (f.sem % 64) 1 else s
  match f.bar with
  | some l => { s with turns := addArrival (x l) s.turns }
  | none => s

/-! ## The slots (15 R272, R275) -/

/-- A copy channel of a cluster. -/
def chanOf (s : State) (cl ch : Nat) : Chan := (s.cluster cl).chans.get {} ch
/-- Change a copy channel. -/
def modChan (s : State) (cl ch : Nat) (f : Chan → Chan) : State := s.modCluster cl (fun c => { c with chans := c.chans.upd {} ch f })

/-- The state code that a channel shows: a reserved one reads as running (15 R275). -/
def chanCode (c : Chan) : Nat :=
  if c.reserved.isSome then 1 else match c.st with
    | .idle => 0
    | .running => 1
    | .done => 2
    | .halted => 3

/-- CPCH go: it reserves its channel at issue and withholds the start (15 R267, R272). -/
def execCpchGo (h : Hdr) (a b : BitVec 5) (s : State) : Res :=
  slotOp (.cpchGo h a b) h s (fun s =>
    let x := s.rs b
    if wbits x 63 5 ≠ 0 then badOperand s x else
    ownCluster s (s.rs a) (fun cl =>
      let ch := wbits x 3 0
      let c := chanOf s cl ch
      if chanCode c = 1 then trapAt s 0x40 1 (BitVec.ofNat 64 c.done)
      else if (s.rs a).toNat % 64 ≠ 0 then .next (s.raise (faultRec s (misaligned (s.rs a))))
      else withhold (modChan s cl ch (fun c => { c with reserved := some s.who })) (.cpchGo cl ch (s.rs a) (x.getLsbD 4)) [s.rs a, x]))

/-- CPCH st (15 R275). -/
def execCpchSt (h : Hdr) (d a : BitVec 5) (s : State) : Res :=
  slotOp (.cpchSt h d a) h s (fun s =>
    ownCluster s (s.rs a) (fun cl =>
      let c := chanOf s cl (wbits (s.rs a) 3 0)
      .next (s.result 2 [s.wS d (BitVec.ofNat 64 (chanCode c + c.cause * 2 ^ 2 + c.reason * 2 ^ 9 + c.done % 2 ^ 48 * 2 ^ 16))])))

/-- Whether a channel works, or is reserved, for a context of another task (15 R275); agents that run no task are their own. -/
def otherTask (s : State) (c : Chan) : Bool :=
  let mine := s.me.task
  let same := fun (who : Agent) (t : Option Nat) => t == mine && (mine.isSome || who == s.who)
  match c.st, c.reserved with
  | .running, _ => !same c.who c.task
  | _, some r => !same r (s.ctx r).task
  | _, none => false

/-- CPCH stop: withheld (15 R275). -/
def execCpchStop (h : Hdr) (a : BitVec 5) (s : State) : Res :=
  slotOp (.cpchStop h a) h s (fun s =>
    ownCluster s (s.rs a) (fun cl =>
      let ch := wbits (s.rs a) 3 0
      if otherTask s (chanOf s cl ch) then trapAt s 0x78 0 (s.rs a) else withhold s (.cpchStop cl ch) [s.rs a]))

/-! ## Halts (15 R275, R276) -/

/-- A channel schedules its own halt: the step COPY_CHANNEL_HALT takes it in this cc. -/
def haltSoon (s : State) (cl ch cause reason : Nat) (addr : Nat) (under : Nat := 0) : State :=
  s.at_ s.cc (.copyChannelHalt cl ch cause reason (BitVec.ofNat 64 addr) under)
/-- A halt for an access fault of a channel address: reason 3 with the underlying cause, but for a poisoned word and a message that failed (15 R276). -/
def haltFault (s : State) (cl ch : Nat) (f : AFault) : State :=
  if f.cause = 0x51 then haltSoon s cl ch 0x51 0 f.d1.toNat f.d2.toNat
  else if f.cause = 0x44 then haltSoon s cl ch 0x44 0 0 f.d1.toNat
  else haltSoon s cl ch 0x40 3 f.d1.toNat f.cause

/-- End the producer role that a channel holds (15 R273). -/
def dropChanWell (s : State) (cl ch : Nat) : State :=
  match (chanOf s cl ch).well with
  | some key => modChan (s.unbindWell key true (.chan cl ch)) cl ch (fun c => { c with well := none })
  | none => s

/-- The details of a channel's halt by cause (22 R369). -/
def chanDet (s : State) (ch : Nat) (c : Chan) (cause reason : Nat) (addr : BitVec 64) (under : Nat) : Det :=
  let d0 := engDet 1 ch reason
  let u := BitVec.ofNat 64 under
  let done := BitVec.ofNat 64 c.done
  if cause = 0x40 then { d0 := d0, d1 := done, d2 := addr, d3 := u }
  else if cause = 0x31 then { d0 := d0, d1 := addr, d2 := wellPointers s under, d3 := 1 }
  else if cause = 0x42 then { d0 := d0, d1 := BitVec.ofNat 64 (field c.desc (if bits (field c.desc 0x16 1) 1 0 = 2 then 8 else 0) 8), d2 := addr, d3 := u }
  else if cause = 0x44 then { d0 := d0, d1 := u, d2 := done }
  else { d0 := d0, d1 := addr, d2 := u }

/-- COPY_CHANNEL_HALT: the channel keeps exactly what it has delivered; the starting context is told, but for a stop that software asked for (15 R275,
R276). -/
def execCopyChannelHalt (s : State) : Res :=
  evStep s (fun
    | .copyChannelHalt cl ch cause reason addr under => some (
      let c := chanOf s cl ch
      if c.st ≠ .running then .next s else
      let s := dropChanWell s cl ch
      let s := modChan s cl ch (fun c =>
        { c with st := .halted, cause := cause, reason := reason, raw := [], out := [], waits := none, stop := false })
      if cause = 0x40 ∧ reason = 4 then .next s else
      .next (s.engineTrap c.who c.task (.scribe cl) { cause := cause, det := chanDet s ch c cause reason addr under, bund := c.bund }))
    | _ => none)

/-! ## T0 (15 R271, R272) -/

/-- Whether a copy descriptor has a reserved field or a combination that R271 does not allow. -/
def copyDescBad (d : List Byte) : Bool :=
  let sc := field d 0x14 1
  let dc := field d 0x15 1
  let x := field d 0x16 1
  let xf := bits x 1 0
  let len := field d 0x10 4
  let rnd := field d 0x17 1
  bits sc 7 4 != 0 || bits dc 7 5 != 0 || bits x 7 4 != 0 || bits rnd 7 5 != 0 || bits (field d 0x18 1) 7 4 != 0 || bit (field d 0x19 1) 7
    || field d 0x1A 2 != 0 || bits (field d 0x38 2) 15 10 != 0 || !zeroBytes d 0x3A 6
    || len % 128 != 0 || decide (len < 128 ∨ 2 ^ 31 < len)
    || (bit sc 3 != (xf == 3)) || (bit dc 3 != (xf == 2))
    || (bit dc 4 && (decide (1 < xf) || bits dc 1 0 < 2))
    || (xf == 1 && (bits x 3 2 == 3 || len % (128 * chunkBytes (bits x 3 2)) != 0))
    || (xf == 2 && rndReserved (BitVec.ofNat 5 rnd))
    || (decide (2 ≤ xf) && bits (field d 0x28 8) 47 0 % 32 != 0)

/-- The formats that a channel encodes and decodes in an ungoverned region (15 R271). -/
def copyFmt (f : BitVec 4) : Bool := Fmt.ladder f || f == Fmt.bf16 || f == Fmt.fp8e4 || f == Fmt.fp8e5 || f == Fmt.fp6

/-- The place of `n` bytes at an address of a channel: a global fabric address, or an address of its space under the context's checks; lines and blocks
are aligned to `al` (15 R271, R272). -/
def chanPlace (s : State) (c : Chan) (acc : Acc) (ctl ea n al : Nat) : Except AFault (Loc × State) :=
  let va := BitVec.ofNat 64 ea
  if ea % al ≠ 0 then .error (misaligned va)
  else if bit ctl 2 then
    if fabricOk ea then .ok ({ space := .ms, key := ea }, s) else .error (accFault 0x21 acc ea 0 0)
  else asIdent s c.who c.id (fun s => resolve s c.who acc (Space.ofCode (BitVec.ofNat 2 (bits ctl 1 0))) va n)

/-- The place of a barrier object that an engine's descriptor names, checked for every byte (15 R272). -/
def barPlace (s : State) (who : Agent) (id : Ident) (va sp : Nat) : Except AFault (Option Loc × State) :=
  if va = 0 then .ok (none, s) else
  match asIdent s who id (fun s => resolve s who .atomic (Space.ofCode (BitVec.ofNat 2 sp)) (BitVec.ofNat 64 va) 64) with
  | .error f => .error f
  | .ok (l, s) => if l.fabric then .error (accFault 0x21 .atomic va 0 0) else .ok (some l, s)

/-- Read an engine's descriptor of `n` bytes in space m (15 R272, R281); the access is the starting agent's, or its engine's. One at a fabric address is read once its
bytes have come for `u` (17 R408). -/
def readEngineDesc (s : State) (who : Agent) (u : FarUse) (id : Ident) (va n : Nat) (by_ : Agent := who) : Except AFault (List Byte × State) :=
  match asIdent s who id (fun s => resolve s who .engRd .m (BitVec.ofNat 64 va) n) with
  | .error f => .error f
  | .ok (l, s) =>
    if l.fabric then (farRead s by_ u .engRd (BitVec.ofNat 64 va) l n).map (fun bs => (bs, s)) else
    let r := engineRead s by_ l n
    if r.2.1 then .error { cause := 0x51, d1 := BitVec.ofNat 64 (Loc.addr s l), d2 := BitVec.ofNat 64 va } else .ok (r.1, r.2.2)

/-- Bind the producer role of the channel's destination well (15 R273); a failure halts the channel. -/
def bindChanWell (s : State) (cl ch : Nat) (l : Loc) : State :=
  let c := chanOf s cl ch
  let ea := field c.desc 8 8
  let key := l.key
  if s.poisoned key 64 then haltSoon s cl ch 0x51 0 (Loc.addr s l) ea else
  match wellBad s key with
  | some _ => haltSoon s cl ch 0x40 2 ea 0x02
  | none =>
    if (s.well key).prod.isSome then haltSoon s cl ch 0x31 0 ea key
    else if field c.desc 0x10 4 % wellSlotB s key ≠ 0 then haltSoon s cl ch 0x40 2 ea
    else modChan (s.setWell key { s.well key with prod := some (.chan cl ch) }) cl ch (fun c => { c with well := some key })

/-- The touch of a channel's region: its descriptor, its encoding, and the re-encode that it waits for when it is stale (11 R213, R217; 15 R272). -/
def chanRegion (s : State) (cl ch : Nat) (u : FarUse) : State :=
  let c := chanOf s cl ch
  let va := field c.desc (if bits (field c.desc 0x16 1) 1 0 = 2 then 8 else 0) 8
  let n := field c.desc 0x10 4 / 4
  let elem := bits (field c.desc 0x28 8) 47 0
  if va % 64 ≠ 0 then haltSoon s cl ch 0x40 2 va 0x24 else
  match readEngineDesc s c.who u c.id va 64 with
  | .error f => haltFault s cl ch f
  | .ok (bs, s) =>
    match parseDesc bs with
    | none => haltSoon s cl ch 0x40 2 va 0x02
    | some d =>
      let proc := bits c.id.owner.toNat 17 8
      let table := if c.who.onCore then govTableOf s proc else govTableOf s 0
      let enc : Option (BitVec 4 × Bool × BitVec 16) := match d.gov with
        | none => some (BitVec.ofNat 4 (field c.desc 0x18 1), d.ib32, 0)
        | some x => table.map (fun t => let g := govEntry s t x; (g.fmt, g.bs32, g.rev))
      match enc with
      | none => haltSoon s cl ch 0x40 2 va 0x63
      | some e =>
        if !copyFmt e.1 then haltSoon s cl ch 0x40 2 va else
        match baseMisaligned d e.1 with
        | some b => haltSoon s cl ch 0x40 2 b 0x24
        | none =>
          if d.rows * d.rowlen < elem + n then haltSoon s cl ch 0x40 2 va else
          let s := modChan s cl ch (fun c => { c with region := bs, enc := e })
          match d.gov, table with
          | some x, some t =>
            match asIdent s c.who c.id (fun s =>
                .ok ((), if regionFresh s c.who d (govEntry s t x) then s
                  else touchStale s c.who t x (BitVec.ofNat 64 va) bs (fun r => { r with chans := r.chans ++ [(cl, ch)] }))) with
            | .ok (_, s) => s
            | .error _ => s
          | _, _ => s

/-- A channel starts at T0: every check of R272 comes before its first write. -/
def startChannel (s : State) (a : Agent) (w : Withheld) (cl ch : Nat) (desc : BitVec 64) (fab : Bool) (u : FarUse) : State :=
  let id := identOf s a
  let s := modChan s cl ch (fun _ =>
    { st := .running, who := a, id := id, task := (s.ctx a).task, bund := w.bund, nextCc := s.cc + firstLine })
  match readEngineDesc s a u id desc.toNat 64 with
  | .error f => haltFault s cl ch f
  | .ok (d, s) =>
    let s := modChan s cl ch (fun c => { c with desc := d })
    let c := chanOf s cl ch
    let sc := field d 0x14 1
    let dc := field d 0x15 1
    let xf := bits (field d 0x16 1) 1 0
    let bar := field d 0x30 8
    if copyDescBad d ∨ (bit sc 2 || bit dc 2) != fab then haltSoon s cl ch 0x40 2 desc.toNat
    else if bar % 64 ≠ 0 then haltSoon s cl ch 0x40 2 bar 0x24 else
    match barPlace s a id bar (bits (field d 0x38 2) 9 8) with
    | .error f => haltFault s cl ch f
    | .ok (bl, s) =>
      let s := modChan s cl ch (fun c => { c with bar := bl })
      if 2 ≤ xf then chanRegion s cl ch u
      else if bit dc 4 then
        match chanPlace s c .atomic dc (field d 8 8) 64 64 with
        | .error f => haltFault s cl ch f
        | .ok (l, s) =>
          if !l.fabric then bindChanWell s cl ch l
          else if fabricPkg l.key ≠ s.pkgid.toNat then s
          else match fabricPlace s l.key 64 with
            | some l => bindChanWell s cl ch l
            | none => haltFault s cl ch (accFault 0x21 .atomic (field d 8 8) 0 0)
      else s

/-- The bytes at a fabric address that a released start needs and lacks: a descriptor (15 R272, R286; 17 R408). -/
def startAsks (s : State) (a : Agent) (id : Nat) : Effect → Option (Nat × Nat)
  | .cpchGo _ _ desc _ =>
    let i := identOf s a
    match readEngineDesc s a (.start id) i desc.toNat 64 with
    | .error f => if f.cause = 0 then some (f.d1.toNat, f.d2.toNat) else none
    | .ok (d, s) =>
      let xf := bits (field d 0x16 1) 1 0
      let va := field d (if xf = 2 then 8 else 0) 8
      if xf < 2 ∨ copyDescBad d ∨ va % 64 ≠ 0 then none else
      match readEngineDesc s a (.start id) i va 64 with
      | .error f => if f.cause = 0 then some (f.d1.toNat, f.d2.toNat) else none
      | .ok _ => none
  | .stabWr _ va =>
    match readEngineDesc s a (.start id) (identOf s a) va.toNat 32 with
    | .error f => if f.cause = 0 then some (f.d1.toNat, f.d2.toNat) else none
    | .ok _ => none
  | _ => none

/-! ## Lines (15 R272, R273; 12 R233) -/

/-- The region that a channel works on. -/
def chanDesc (c : Chan) : Option RegionDesc := parseDesc c.region
/-- The pieces of 32 elements of a region from element `e` on, plane by plane (03 R60-R63). -/
def elemPieces (d : RegionDesc) (f : BitVec 4) (b32 : Bool) (e : Nat) : List (BitVec 2 × Nat × Nat) :=
  (planesUsed f).map (fun p => let g := planeRange f b32 p e 32; (p, d.bases.getD p.toNat 0 + g.1, g.2))

/-- 32 FP32 values as elements of a region: SX blocks by R135, the others by R134, with the random bits of their element numbers (15 R272). -/
def encodeElems (desc : List Byte) (f : BitVec 4) (b32 : Bool) (e : Nat) (xs : List FVal) : List (BitVec 32) :=
  let mode := Rnd.ofCode (BitVec.ofNat 5 (field desc 0x17 1))
  let rb := fun (i : Nat) => randomBits (field desc 0x20 8) (field desc 0x1C 4) (e + i) (bits (field desc 0x28 8) 63 48)
  let ys := xs.zipIdx.map (fun x => (x.1, rb x.2))
  if Fmt.sx f then (sxLanes f mode (blockSize b32) ys).1 else ys.map (fun y => (valLane f mode y.2 y.1).1)

/-- The bytes of the fields of a plane for 32 elements that start a block (03 R60, R61). -/
def elemBytes (f : BitVec 4) (b32 : Bool) (p : BitVec 2) (lanes : List (BitVec 32)) : List Byte := planeImageBytes f b32 p lanes

/-- Write line `l` of an XF 2 copy: 32 values into every plane of the region, whose tiles are tagged (11 R217; 15 R272). -/
def writeElems (s : State) (cl ch : Nat) (c : Chan) (src : List Byte) : State :=
  match chanDesc c with
  | none => s
  | some d =>
    let f := c.enc.1
    let b32 := c.enc.2.1
    let e := bits (field c.desc 0x28 8) 47 0 + c.done / 4
    let lanes := encodeElems c.desc f b32 e ((List.range 32).map (fun i => f32.decode (field src (4 * i) 4)))
    let ps := elemPieces d f b32 e
    match asIdent s c.who c.id (fun s => resolvePieces s c.who .engWr d.space (ps.map (fun p => p.2))) with
    | .error x => haltFault s cl ch x
    | .ok (segs, s) =>
      if segs.any (fun g => g.1.fabric) then haltFault s cl ch (accFault 0x21 .engWr (ps.headD (0, 0, 0)).2.1 0 0) else
      let bytes := ps.flatMap (fun p => elemBytes f b32 p.1 lanes)
      match leaseOf s (.scribe cl) s.ids (cutPieces segs bytes) with
      | some (x, l) => haltSoon s cl ch 0x34 0 (Loc.addr s l) (x.who.core + x.who.ctxNo * 2 ^ 9)
      | none =>
        let s := engWriteAll s c.who segs bytes
        let s := if d.gov.isSome then
            segs.foldl (fun (s : State) g => setTag s g.1 (tagWord b32 f c.enc.2.2)) s
          else s
        modChan s cl ch (fun c => { c with done := c.done + 128, raw := [] })

/-- Read the 32 elements of line `l` of an XF 3 copy as FP32 bytes (15 R272). -/
def readElems (s : State) (cl ch : Nat) (c : Chan) : State :=
  match chanDesc c with
  | none => s
  | some d =>
    let f := c.enc.1
    let b32 := c.enc.2.1
    let e := bits (field c.desc 0x28 8) 47 0 + c.srcPos / 4
    let ps := elemPieces d f b32 e
    match asIdent s c.who c.id (fun s => resolvePieces s c.who .engRd d.space (ps.map (fun p => p.2))) with
    | .error x => haltFault s cl ch x
    | .ok (segs, s) =>
      match segs.find? (fun g => g.1.fabric || (engineRead s c.who g.1 g.2).2.1) with
      | some g =>
        if g.1.fabric then haltFault s cl ch (accFault 0x21 .engRd (ps.headD (0, 0, 0)).2.1 0 0)
        else haltSoon s cl ch 0x51 0 (Loc.addr s g.1) (ps.headD (0, 0, 0)).2.1
      | none =>
        let r := engReadAll s c.who segs
        let imgs := (ps.foldl (fun (acc : List (BitVec 2 × Nat × List Byte) × List Byte) p =>
          (acc.1 ++ [(p.1, (planeRange f b32 p.1 e 32).1, acc.2.take p.2.2)], acc.2.drop p.2.2)) ([], r.1)).1
        let xs := (lanesFrom f b32 e 32 imgs).map (fun w => f32.rne (laneVal f w))
        modChan r.2 cl ch (fun c => { c with out := xs.flatMap (toBytes 4), srcPos := c.srcPos + 128 })

/-- Read the source line at the channel's source position into `raw`; a fabric line is asked for and awaited (15 R273). -/
def readLine (s : State) (cl ch : Nat) (c : Chan) : State :=
  let ea := field c.desc 0 8 + c.srcPos
  match chanPlace s c .engRd (field c.desc 0x14 1) ea 128 128 with
  | .error f => haltFault s cl ch f
  | .ok (l, s) =>
    if l.fabric then
      modChan (s.remoteRead { who := c.who, purpose := .chan cl ch, bund := c.bund } l.key 128) cl ch (fun c => { c with waits := some s.newTag.1 })
    else
      let r := engineRead s c.who l 128
      if r.2.1 then haltSoon s cl ch 0x51 0 (Loc.addr s l) ea
      else modChan r.2.2 cl ch (fun c => { c with raw := c.raw ++ r.1, srcPos := c.srcPos + 128 })

/-- Whether a channel's source bytes suffice for its next destination line (15 R272): a whole chunk for XF 1. -/
def rawEnough (c : Chan) : Bool :=
  let xf := bits (field c.desc 0x16 1) 1 0
  if xf = 1 then decide (128 ≤ c.raw.length) && (chunkBad c.raw || decide (128 * field c.raw 18 2 ≤ c.raw.length)) else decide (128 ≤ c.raw.length)

/-- Turn the source bytes of a channel into destination bytes: as they are, or a chunk expanded; a malformed chunk, or one of another width, halts the
channel (15 R272). -/
def useRaw (s : State) (cl ch : Nat) (c : Chan) : State :=
  if bits (field c.desc 0x16 1) 1 0 = 1 then
    let w := bits (field c.desc 0x16 1) 3 2
    if chunkBad c.raw ∨ field c.raw 16 1 ≠ w then haltSoon s cl ch 0x46 0 (field c.desc 0 8 + c.srcPos - c.raw.length)
    else modChan s cl ch (fun c => { c with out := (chunkLanes c.raw).flatMap (fun x => toBytes (chunkBytes w) x.toNat), raw := [] })
  else modChan s cl ch (fun c => { c with out := c.raw.take 128, raw := c.raw.drop 128 })

/-- Advance the write pointer of a well after a line was written into it: PLINE, and at the end of a slot PPTR (12 R233). -/
def lineDelivered (s : State) (who : Agent) (key : Nat) : State :=
  let n := wellField s key 0x18 2 + 1
  if n * 128 < wellSlotB s key then s.storeNum (key + 0x18) 2 n
  else
    let s := performAdvance s key 1
    s.sample who 0x05 (wellP s key - wellC s key).toNat

/-- Whether the slot at a well's write pointer may take a line: it is begun, or free (15 R273). -/
def slotFree (s : State) (key : Nat) : Bool :=
  wellField s key 0x18 2 != 0 || decide (1 ≤ (BitVec.ofNat 32 (wellSlots s key) - (wellP s key - wellC s key)).toNat)
/-- The address of the next line at a well's write pointer (12 R229, R233). -/
def pointerAddr (s : State) (key : Nat) : Nat :=
  wellBase s key + (wellP s key).toNat % wellSlots s key * wellSlotB s key + 128 * wellField s key 0x18 2

/-- Write the next destination line (15 R273). -/
def writeLine (s : State) (cl ch : Nat) (c : Chan) : State :=
  let dc := field c.desc 0x15 1
  let line := c.out.take 128
  let done := fun (s : State) => modChan s cl ch (fun c => { c with done := c.done + 128, out := c.out.drop 128 })
  let put := fun (s : State) (l : Loc) (k : State → State) =>
    match leaseMet s (.scribe cl) s.ids l 128 with
    | some x => haltSoon s cl ch 0x34 0 (Loc.addr s l) (x.who.core + x.who.ctxNo * 2 ^ 9)
    | none => k (done (engineWrite s c.who l line))
  match c.well with
  | some key =>
    if !slotFree s key then s else
    let ea := pointerAddr s key
    let k := fun (s : State) => lineDelivered s c.who key
    if bit dc 2 then
      let pad := decide (key < 2 ^ 53)
      let at_ : Loc := { space := if pad then .p else .v, key := if pad then key / 2 ^ 22 * 2 ^ 22 + ea % 2 ^ 22 else vaultKey ea }
      if pad ∨ vaultPresent s ea 128 then put s at_ k else haltFault s cl ch (accFault 0x21 .engWr ea 0 0)
    else match chanPlace s c .engWr dc ea 128 128 with
      | .error f => haltFault s cl ch f
      | .ok (l, s) => put s l k
  | none =>
    let ea := if bit dc 4 then field c.desc 8 8 else field c.desc 8 8 + c.done
    match chanPlace s c .engWr dc ea 128 (if bit dc 4 then 64 else 128) with
    | .error f => haltFault s cl ch f
    | .ok (l, s) =>
      if l.fabric then
        let rem : Remote := { who := c.who, purpose := .chan cl ch, write := true, bund := c.bund, len := 128, addr := l.key }
        let s' := if bit dc 4 then
            s.sendAwaited 1 rem (cl / 16) (fabricPkg l.key) (fabricDie l.key) (fun h => .wellPushLine h (s.accessVf c.who) l.key (BitVec.ofNat 1024 (ofBytes line)))
          else s.remoteWrite rem l.key line
        modChan s' cl ch (fun c => { c with waits := some s.newTag.1 })
      else put s l id

/-- A channel waits for the re-encode that its touch started or joined (11 R213, R215). -/
def chanTouching (s : State) (cl ch : Nat) : Bool := s.reencs.any (fun r => r.2.chans.contains (cl, ch))

/-- COPY_LINE_WRITE: one cc of a running channel (15 R272-R275). A line is read and written every second cc; a fabric line waits for its answer. -/
def execCopyLineWrite (s : State) : Res :=
  evStep s (fun
    | .copyLineWrite cl ch => some (
      let c := chanOf s cl ch
      if c.st ≠ .running ∨ c.waits.isSome ∨ s.cc < c.nextCc ∨ s.agenda.any (fun x => match x.2 with
          | .copyChannelHalt l h _ _ _ _ => l == cl && h == ch
          | .copyChannelComplete l h => l == cl && h == ch
          | _ => false) then .next s
      else if c.stop then .next (haltSoon s cl ch 0x40 4 0)
      else if chanTouching s cl ch then .next s
      else
        let xf := bits (field c.desc 0x16 1) 1 0
        let len := field c.desc 0x10 4
        if len ≤ c.done then .next (s.after 1 (.copyChannelComplete cl ch)) else
        let fill := fun (s : State) =>
          let c := chanOf s cl ch
          if !c.out.isEmpty ∨ c.waits.isSome then s
          else if xf = 3 then readElems s cl ch c
          else if rawEnough c then (if xf = 2 then s else useRaw s cl ch c)
          else readLine s cl ch c
        let s := (List.range 7).foldl (fun (s : State) _ => fill s) s
        let c1 := chanOf s cl ch
        let s := if c1.waits.isSome then s
          else if xf = 2 then (if rawEnough c1 then writeElems s cl ch c1 c1.raw else s)
          else if c1.out.isEmpty then s else writeLine s cl ch c1
        let c2 := chanOf s cl ch
        .next (if c2.done = c.done then s else modChan s cl ch (fun c => { c with nextCc := s.cc + 2 })))
    | _ => none)

/-- COPY_CHANNEL_COMPLETE (15 R269). -/
def execCopyChannelComplete (s : State) : Res :=
  evStep s (fun
    | .copyChannelComplete cl ch => some (
      let c := chanOf s cl ch
      if c.st ≠ .running then .next s else
      let s := dropChanWell s cl ch
      let s := modChan s cl ch (fun c => { c with st := .done, raw := [], out := [] })
      .next (engineFinish s { cl := cl, sem := field c.desc 0x19 1, bar := c.bar } (fun l =>
        { actor := .scribe cl, loc := l, va := field c.desc 0x30 8, bix := bits (field c.desc 0x38 2) 7 0, who := c.who, task := c.task, dest := .scribe cl
          kind := 1, no := ch, bund := c.bund })))
    | _ => none)

end Sys2Proof.Machine
end

