-- ==== Sys2Proof/Machine/Engines.lean ====
section
/-!
DEFINITION. Meanings of MEMC: the vault carve (15 R277), range invalidation (R278), coded-region records and counters (R279, R280).
-/

namespace Sys2Proof.Machine

/-! ## The vault carve (15 R277) -/

/-- MEMC phase (15 R277). -/
def execMemcPhase (h : Hdr) (a b : BitVec 5) (s : State) : Res :=
  slotOp (.memcPhase h a b) h s (fun s =>
    let x := s.rs a
    let y := s.rs b
    if 12 < x.toNat then badOperand s x
    else if wbits y 63 7 ≠ 0 then badOperand s y
    else ownCluster s x (fun cl =>
      if s.who.onCore ∧ !s.me.vaultwin.getLsbD 48 then trapAt s 0x21
      else withhold s (.phase cl x.toNat (if y.getLsbD 6 then some (wbits y 5 0) else none)) [x, y]))

/-- A move starts: from now its range is refused (15 R277). -/
def startMove (s : State) (cl steps : Nat) (sem : Option Nat) : State :=
  let c := s.cluster cl
  let lo := Nat.min c.steps steps
  let hi := Nat.max c.steps steps
  let fin := s.cc + 16384 * (hi - lo) + 64
  let s := s.modCluster cl (fun c => { c with
    moveLo := lo * 2 ^ 23, moveHi := hi * 2 ^ 23, moveSteps := steps, moveEnd := fin, moving := true, moveSem := sem
    slice := if lo = hi then c.slice else [] })
  s.at_ fin (.carveMoveEnd cl)
/-- A phase performs: a vault that is moving takes it at the end of the earlier moves (15 R277). -/
def performPhase (s : State) (cl steps : Nat) (sem : Option Nat) : State :=
  if (s.cluster cl).moving then s.modCluster cl (fun c => { c with moveQ := c.moveQ ++ [(steps, sem)] }) else startMove s cl steps sem

/-- Forget the bytes of a range of memory keys: they read as nothing has been written there; the tags of its tiles become invalid (17 R314). -/
def forgetRange (s : State) (lo hi : Nat) : State :=
  let tags := (s.tags.filter (fun t => decide (lo / 4096 ≤ t.1 ∧ t.1 < hi / 4096))).map (·.1)
  { s with tags := tags.foldl (fun (m : SMap (BitVec 16)) k => m.upd 0 k (· &&& 0x7FFF)) s.tags
           mem := s.mem.filter (fun c => !decide (lo ≤ c.1 ∧ c.1 < hi))
           poison := s.poison.filter (fun w => !decide (lo ≤ w * 8 ∧ w * 8 < hi)) }

/-- CARVE_MOVE_END: the boundary is the new one, the moved range holds zeros, the semaphore is signalled, the next move starts (15 R277). -/
def execCarveMoveEnd (s : State) : Res :=
  evStep s (fun
    | .carveMoveEnd cl => some (
      let c := s.cluster cl
      if !c.moving ∨ s.cc < c.moveEnd then .next s else
      let s := forgetRange s (vaultKey (cl * 2 ^ 27 + c.moveLo)) (vaultKey (cl * 2 ^ 27 + c.moveHi))
      let s := s.modCluster cl (fun c => { c with
        steps := c.moveSteps, slice := if c.moveSteps = c.steps then c.slice else []
        moveLo := 0, moveHi := 0, moveSteps := 0, moveEnd := 0, moving := false, moveSem := none })
      let s := match c.moveSem with
        | some k => semSignal s cl k 1
        | none => s
      match c.moveQ with
      | (n, k) :: r => .next (startMove (s.modCluster cl (fun c => { c with moveQ := r })) cl n k)
      | [] => .next s)
    | _ => none)

/-! ## Range invalidation (15 R278) -/

/-- The cores of a scope (15 R278): a scribe or command processor has no core of its own. -/
def scopeCores (a : Agent) (scope : Nat) : List Nat :=
  if scope < 2 then (if a.onCore then [a.core] else [])
  else if scope = 2 then (match a.cluster? with
    | some c => (List.range 8).map (fun k => 8 * c + k)
    | none => [])
  else if scope = 3 then (List.range 128).map (fun k => 128 * a.die + k)
  else List.range 512

/-- MEMC rinv: the barrier object is checked at issue (15 R267, R278). -/
def execMemcRinv (h : Hdr) (d a b : BitVec 5) (sc : BitVec 3) (s : State) : Res :=
  slotOp (.memcRinv h d a b sc) h s (fun s =>
    let bar := s.rs d
    let x := s.rs b
    let rd := [s.rs d, s.rs a, x]
    if wbits x 63 50 ≠ 0 then badOperand s x
    else if bar = 0 then withhold s (.rinv sc.toNat (s.rs a) (wbits x 39 0) none 0 (wbits x 47 40)) rd
    else objectOp s .atomic (x.extractLsb' 48 2) bar (fun l s =>
      withhold s (.rinv sc.toNat (s.rs a) (wbits x 39 0) (some l) bar (wbits x 47 40)) rd))

/-- A range invalidation starts (15 R278). -/
def startRinv (s : State) (a : Agent) (w : Withheld) (scope : Nat) (va : BitVec 64) (len : Nat) (bar : Option Loc) (barVa : BitVec 64) (bix : Nat) : State :=
  let (id, s) := s.newId
  let r : Rinv := { cores := if len = 0 then [] else scopeCores a scope, va := va, len := len, id := identOf s a, bar := bar, barVa := barVa, bix := bix
                    who := a, task := (s.ctx a).task, bund := w.bund }
  { s with rinvs := s.rinvs.insert id r }.after (if len = 0 then 0 else 64 + ceilDiv len 1024) (.rangeInvalidationEnd id)

/-- The places of a virtual range, page by page, as line numbers from and up to; a page without a translation holds no line (15 R278). -/
def rangeLines (s : State) (a : Agent) (proc vf : Nat) : Nat → Nat → Nat → List (Nat × Nat)
  | 0, _, _ => []
  | fuel + 1, va, hi =>
    if hi ≤ va then [] else
    let top := Nat.min hi ((va / 2 ^ 16 + 1) * 2 ^ 16)
    let ea := BitVec.ofNat 64 va
    let l := match translate s a proc vf .engRd .m ea with
      | .ok (l, _) => some l
      | .error _ => match translate s a proc vf .fetch .m ea with
        | .ok (l, _) => some l
        | .error _ => none
    match l with
    | some l => (linOf l / 128, (linOf l + (top - va) + 127) / 128) :: rangeLines s a proc vf fuel top hi
    | none => rangeLines s a proc vf fuel top hi

/-- A core purges the lines of a range from its L1, after writing their dirty bytes back, and from its instruction store (15 R278). -/
def purgeCore (s : State) (core : Nat) (ls : List (Nat × Nat)) : State :=
  let hit := fun (k : Nat) => ls.any (fun r => decide (r.1 ≤ k ∧ k < r.2))
  let keys := ((s.core core).l1.filter (fun e => hit e.1)).map (·.1)
  let s := keys.foldl (fun (s : State) k => s.evictLine core k (.ctx core 0)) s
  s.modCore core (fun c => { c with istore := c.istore.filter (fun e => !hit e.1) })

/-- RANGE_INVALIDATION_END: every core in scope has purged the range; the arrival is made (15 R278). -/
def execRangeInvalidationEnd (s : State) : Res :=
  evStep s (fun
    | .rangeInvalidationEnd id => some (
      match s.rinvs.find? (fun e => e.1 == id) with
      | none => .next s
      | some (_, r) =>
        let s := { s with rinvs := s.rinvs.erase id }
        let proc := if r.who.onCore then bits r.id.owner.toNat 17 8 else 0
        let ls := rangeLines s r.who proc (bits r.id.owner.toNat 4 0) (r.len / 2 ^ 16 + 2) r.va.toNat (r.va.toNat + r.len)
        let s := r.cores.foldl (fun (s : State) c => if (s.core c).l1.isEmpty ∧ (s.core c).istore.isEmpty then s else purgeCore s c ls) s
        let cl := r.who.cluster?.getD (16 * r.who.die)
        .next (engineFinish s { cl := cl, sem := 0, bar := r.bar } (fun l =>
          { actor := .scribe cl, loc := l, va := r.barVa.toNat, bix := r.bix, who := r.who, task := r.task, dest := .scribe cl, kind := 6, no := 0, bund := r.bund })))
    | _ => none)

/-! ## Coded regions (15 R279, R280) -/

/-- MEMC creg (15 R279). -/
def execMemcCreg (h : Hdr) (a b : BitVec 5) (s : State) : Res :=
  slotOp (.memcCreg h a b) h s (fun s =>
    if wbits (s.rs a) 63 6 ≠ 0 then badOperand s (s.rs a)
    else if wbits (s.rs b) 63 3 ≠ 0 then badOperand s (s.rs b)
    else withhold s (.creg (s.procOf s.who * 64 + wbits (s.rs a) 5 0) (s.rs b)) [s.rs a, s.rs b])
/-- A record takes its new value, its counters cleared (15 R279). -/
def performCreg (s : State) (rk : Nat) (word : BitVec 64) : State :=
  { s with regions := s.regions.put {} rk { bud := word.extractLsb' 0 2, valid := word.getLsbD 2 } }

/-- MEMC cerr: its address is checked at issue (15 R280). -/
def execMemcCerr (h : Hdr) (a b : BitVec 5) (s : State) : Res :=
  slotOp (.memcCerr h a b) h s (fun s =>
    let x := s.rs a
    let ea := s.rs b
    if wbits x 63 10 ≠ 0 ∨ wbits x 7 6 ≠ 0 then badOperand s x else
    match resolveAccess s .store (Space.ofCode (x.extractLsb' 8 2)) ea 32 32 with
    | .error f => .next (s.raise (faultRec s f))
    | .ok (segs, s) => withhold s (.cerr (s.procOf s.who * 64 + wbits x 5 0) (cutPieces segs (List.replicate 32 0))) [x, ea])

/-- The record of a region's counters (15 R280). -/
def counterBytes (r : Region) : List Byte := toBytes 8 r.encodes.toNat ++ toBytes 8 r.sats.toNat ++ toBytes 8 r.sqerr.toNat ++ toBytes 8 r.maxerr.toNat

/-- The counters are read and cleared in one step, and their record is written (15 R280). -/
def performCerr (s : State) (a : Agent) (id : Nat) (w : Withheld) (rk : Nat) (ps : List Piece) : State :=
  match leaseOf s a id ps with
  | some (x, l) => s.deliver a (leaseTrap s w x l)
  | none =>
    let bs := counterBytes (s.regions.get {} rk)
    let s := ({ s with regions := s.regions.upd {} rk (fun r => { r with encodes := 0, sats := 0, sqerr := 0, maxerr := 0 }) }).touchMeta 1 rk
    performPieces s a w (cutPieces (ps.map (fun p => (p.loc, p.bytes.length))) bs)

end Sys2Proof.Machine
end

