-- ==== Sys2Proof/Machine/Ring.lean ====
section
/-!
DEFINITION. The ring-reduction engines: COLL, RING, RSEM and their chunks (15 R281-R285; 18 R332; 19 R349).
-/

namespace Sys2Proof.Machine

/-! ## The slots -/

/-- An engine start whose block's address is checked at issue (15 R267). -/
def blockStart (i : Instr) (h : Hdr) (a : BitVec 5) (al : Nat) (s : State) (e : BitVec 64 → Effect) : Res :=
  slotOp i h s (fun s =>
    if (s.rs a).toNat % al ≠ 0 then .next (s.raise (faultRec s (misaligned (s.rs a)))) else withhold s (e (s.rs a)) [s.rs a])
/-- COLL (15 R282). -/
def execColl (h : Hdr) (a : BitVec 5) (s : State) : Res := blockStart (.coll h a) h a 128 s .coll
/-- RING (15 R284). -/
def execRing (h : Hdr) (a : BitVec 5) (s : State) : Res := blockStart (.ring h a) h a 64 s .ring

/-- A ring semaphore of a die (15 R284). -/
def ringSem (s : State) (die k : Nat) : BitVec 16 := (s.die die).rsem.get 0 k
/-- Set a ring semaphore. -/
def setRingSem (s : State) (die k n : Nat) : State := s.modDie die (fun d => { d with rsem := d.rsem.put 0 k (BitVec.ofNat 16 n) })
/-- A ring semaphore takes a new count or an addition, which holds at 65,535 (15 R285). -/
def performRsem (s : State) (die k : Nat) (add : Bool) (n : Nat) : State :=
  setRingSem s die k (if add then Nat.min 65535 ((ringSem s die k).toNat + n) else n)

/-- The cc that an RSEM read takes (15 R270: at most 120; log 7). -/
def rsemTime : Nat := 64
/-- RSEM rd: the context freezes until the count arrives (15 R270, R285). -/
def execRsemRd (h : Hdr) (d a : BitVec 5) (s : State) : Res :=
  slotOp (.rsemRd h d a) h s (fun s =>
    let x := s.rs a
    if wbits x 63 8 ≠ 0 then badOperand s x
    else freezeFor s rsemTime (fun s => .next (s.result 1 [s.wS d ((ringSem s s.who.die (wbits x 7 0)).setWidth 64)])))
/-- RSEM set (15 R285). -/
def execRsemSet (h : Hdr) (a b : BitVec 5) (s : State) : Res :=
  slotOp (.rsemSet h a b) h s (fun s =>
    let x := s.rs a
    if wbits x 63 8 ≠ 0 then badOperand s x else withhold s (.rsem s.who.die (wbits x 7 0) false (wbits (s.rs b) 15 0)) [x, s.rs b])
/-- RSEM add (15 R285). -/
def execRsemAdd (h : Hdr) (a b : BitVec 5) (s : State) : Res :=
  slotOp (.rsemAdd h a b) h s (fun s =>
    let x := s.rs a
    if wbits x 63 8 ≠ 0 then badOperand s x else withhold s (.rsem s.who.die (wbits x 7 0) true (wbits (s.rs b) 15 0)) [x, s.rs b])

/-! ## Groups (15 R282, R296) -/

/-- A die's GROUP register: member count, own rank, successor package and die. -/
def groupOf (s : State) (die g : Nat) : Nat × Nat × Nat × Nat :=
  let w := (s.die die).group.get 0 g
  (wbits w 15 0 + 1, wbits w 31 16, wbits w 47 32, wbits w 49 48)

/-- The chunks of a collective's buffers: buffer, offset in it, length, offset among all buffers (15 R283). -/
def chunkTable (lens : List Nat) : List (Nat × Nat × Nat × Nat) :=
  (lens.zipIdx.foldl (fun (acc : List (Nat × Nat × Nat × Nat) × Nat) l =>
    (acc.1 ++ (List.range (ceilDiv l.1 65536)).map (fun j => (l.2, 65536 * j, Nat.min 65536 (l.1 - 65536 * j), acc.2 + 65536 * j)), acc.2 + l.1)) ([], 0)).1

/-- The bytes of an element of a collective, none for a format that it does not take (15 R281). -/
def collWidth (f : Nat) : Option Nat :=
  let c := BitVec.ofNat 4 f
  if 16 ≤ f then none
  else if c = Fmt.fp32 ∨ c = Fmt.i32 then some 4
  else if c = Fmt.bf16 ∨ c = Fmt.fp16 then some 2
  else if c = Fmt.fp64 then some 8 else none

/-- op on two elements in FMT: a float step rounds by RNE, an integer sum wraps (15 R281, R282). -/
def collElem (op f x y : Nat) : Nat :=
  let c := BitVec.ofNat 4 f
  if c = Fmt.i32 then
    (if op = 0 then (x + y) % 2 ^ 32 else
      let less := decide (sext 32 x < sext 32 y)
      if op = 1 then (if less then y else x) else (if less then x else y))
  else
    let F := fpFmt c
    let a := F.decode x
    let b := F.decode y
    F.rne (if op = 0 then FVal.add false a b else if op = 1 then FVal.max a b else FVal.min a b)
/-- op on two byte strings, element by element. -/
def collBytes (op f : Nat) (a b : List Byte) : List Byte :=
  let w := (collWidth f).getD 4
  (List.range (a.length / w)).flatMap (fun i => toBytes w (collElem op f (field a (w * i) w) (field b (w * i) w)))

/-- A byte range of a process's space m as segments that each lie in one 64 KiB page, for an engine that acts as an agent; `fuel` bounds the pages. -/
def pageSegs (s : State) (who : Agent) (proc vf : Nat) (acc : Acc) : Nat → Nat → Nat → Except AFault (List (Loc × Nat) × State)
  | 0, _, _ => .ok ([], s)
  | fuel + 1, ea, n =>
    if n = 0 then .ok ([], s) else
    let k := Nat.min n (2 ^ 16 - ea % 2 ^ 16)
    match translate s who proc vf acc .m (BitVec.ofNat 64 ea) with
    | .error f => .error f
    | .ok (l, s) =>
      if l.fabric then .error (accFault 0x21 acc ea 0 0) else
      match pageSegs s who proc vf acc fuel (ea + k) (n - k) with
      | .error f => .error f
      | .ok (r, s) => .ok ((l, k) :: r, s)

/-- The process of an engine's identity. -/
def idProc (a : Agent) (i : Ident) : Nat := if a.onCore then bits i.owner.toNat 17 8 else 0
/-- The virtual function of an engine's identity. -/
def idVf (i : Ident) : Nat := bits i.owner.toNat 4 0
/-- A range of an operation's context; the engine itself belongs to its die, to no cluster (15 R269; 21 R359). -/
def opSegs (s : State) (o : RingOp) (acc : Acc) (ea n : Nat) : Except AFault (List (Loc × Nat) × State) :=
  pageSegs s (.cp o.who.die) (idProc o.who o.id) (idVf o.id) acc (n / 2 ^ 16 + 2) ea n

/-! ## Messages and halts (15 R282, R284; 19 R347, R407) -/

/-- Answer a message: its bytes, or the cause of its refusal with what its details hold besides (19 R347, R348). -/
def answer (s : State) (h : MsgHdr) (fault : Nat) (bs : List Byte) (info : Nat := 0) : State :=
  s.reply h 1 (if fault = 0 then .remoteResponse (hdrBack s h) bs else .messageFailure h.tag fault info)

/-- What the messages of an operation are sent for. -/
def ringPurpose (die : Nat) (o : RingOp) : Awaiter := if o.coll then .coll die o.grp o.no else .ring die o.grp o.no
/-- A message of an operation to a member. -/
def sendMember (s : State) (n die : Nat) (o : RingOp) (dst : Nat × Nat) (e : MsgHdr → Ev) : State :=
  s.sendAway n { who := o.who, purpose := ringPurpose die o, bund := o.bund } die dst.1 dst.2 e

/-- The members of a group next to a die's, as far as the die knows them: its successor, and the member that names it or sends to it. -/
def neighbours (s : State) (die : Nat) (o : RingOp) : List (Nat × Nat) :=
  let g := groupOf s die o.grp
  let local_ := (List.range 4).filter (fun d => d != die && (groupOf s d o.grp).2.2 == (s.pkgid.toNat, die))
  let pred := match o.pred with
    | some p => [p]
    | none => local_.map (fun d => (s.pkgid.toNat, d))
  (g.2.2 :: pred).dedup.filter (fun n => n != (s.pkgid.toNat, die))

/-- A halt notice travels to a member: it names the operation that halted (log 63). -/
def sendHalt (s : State) (die : Nat) (o : RingOp) (cause reason : Nat) (dst : Nat × Nat) : State :=
  sendMember s 1 die o dst (fun h => .collectiveHaltNotice h o.coll o.grp o.no cause reason)

/-- End the operation of a die's ring engine: its leases end, its messages are no longer awaited, and the next operation in release order may start. -/
def dropRing (s : State) (die : Nat) : State :=
  let s := endLeases s .coll die
  let s := { s with remotes := s.remotes.filter (fun r => match r.2.purpose with
    | .ring d _ _ | .coll d _ _ => d != die
    | _ => true) }
  s.modDie die (fun d => { d with ring := none })

/-- The details of a halted operation (22 R368, R369). -/
def ringDet (s : State) (die : Nat) (o : RingOp) (cause reason chunk under : Nat) : Det :=
  let d0 := engDet (if o.coll then 8 else 2) die reason
  if cause = 0x44 then
    let g := groupOf s die o.grp
    { d0 := d0, d1 := BitVec.ofNat 64 (g.2.2.1 + g.2.2.2 * 2 ^ 16), d2 := BitVec.ofNat 64 o.wrote }
  else { d0 := d0, d1 := BitVec.ofNat 64 (o.grp + reason * 2 ^ 8), d2 := BitVec.ofNat 64 chunk, d3 := BitVec.ofNat 64 under }

/-- The cluster whose semaphore and scribe an operation's context has; a command processor's operation uses the first of its die. -/
def opCluster (o : RingOp) : Nat := o.who.cluster?.getD (16 * o.who.die)

/-- An operation halts: the starting context is told, the members `ns` receive the notice (15 R282). -/
def haltTelling (s : State) (die : Nat) (o : RingOp) (ns : List (Nat × Nat)) (cause reason chunk under : Nat) : State :=
  let t : TrapRec := { cause := cause, det := ringDet s die o cause reason chunk under, bund := o.bund }
  let s := (dropRing s die).engineTrap o.who o.task (.scribe (opCluster o)) t
  ns.foldl (fun (s : State) n => sendHalt s die o cause reason n) s
/-- An operation halts: its neighbours receive the notice. -/
def haltRing (s : State) (die : Nat) (o : RingOp) (cause reason : Nat) (chunk under : Nat := 0) : State :=
  haltTelling s die o (neighbours s die o) cause reason chunk under

/-! ## Chunks of a collective (19 R349) -/

/-- The cc of one chunk hop within a package (15 R283: at most 520; log 7). -/
def hopTime : Nat := 512

/-- The chunk that a member sends on. -/
def mkChunk (s : State) (die : Nat) (o : RingOp) (idx : Nat) (result : Bool) (bytes : List Byte) (tag : Nat) : CollChunk :=
  { grp := o.grp, no := o.no, op := o.op, fmt := o.fmt, nbuf := o.nbuf, lens := o.lens, rank := (groupOf s die o.grp).2.1, pkg := s.pkgid.toNat, die := die
    tag := tag, idx := idx, result := result, bad := false, bytes := bytes }
/-- Send a chunk to the successor; within the package it arrives after one hop. -/
def sendColl (s : State) (die : Nat) (o : RingOp) (idx : Nat) (result : Bool) (bytes : List Byte) : State :=
  let dst := (groupOf s die o.grp).2.2
  sendMember s hopTime die o dst (fun h => .collectiveChunk dst.2 (mkChunk s die o idx result bytes h.tag))

/-- Whether die `b` of this package follows die `a` in a ring of a group: `a` names it as its successor, their member counts agree and its rank is the next one
(15 R282). A ring of one has no other die. -/
def ringLinked (s : State) (grp a b : Nat) : Bool :=
  let g := groupOf s a grp
  let h := groupOf s b grp
  decide (1 < g.1) && g.2.2 == (s.pkgid.toNat, b) && g.1 == h.1 && h.2.1 == (g.2.1 + 1) % g.1
/-- The dies of this package that belong to a die's ring of a group, as their registers link them: grown from the die itself. -/
def ringMembers (s : State) (die grp : Nat) : List Nat :=
  let grow := fun (ms : List Nat) => (List.range 4).filter (fun d => ms.any (fun m => m == d || ringLinked s grp m d || ringLinked s grp d m))
  grow (grow (grow [die]))
/-- Whether a die runs an operation of a group whose every chunk has been written there. -/
def wroteAll (s : State) (d grp no : Nat) : Bool := match (s.die d).ring with
  | some o => o.coll && o.grp == grp && o.no == no && decide ((chunkTable o.lens).length ≤ o.wrote)
  | none => false

/-- A member of a group that spans packages tells its successor that every member has written its last chunk. The one of this package learns of it; what has left for
another package is acknowledged before the sender completes (15 R282; 18 R332; 19 R407; log 63). -/
def sendDone (s : State) (die : Nat) (o : RingOp) : State :=
  let s' := sendColl s die o (chunkTable o.lens).length true []
  if (groupOf s die o.grp).2.2.1 = s.pkgid.toNat then s'.after 1 (.collectiveComplete die) else s'
/-- A member has written a chunk. No member completes before every element of every member holds its result: those of one package complete together; in a group that
spans packages the result reaches rank members − 2 last, which then tells the others round the ring (15 R282; 18 R332; 19 R349; log 63). -/
def doneIf (s : State) (die : Nat) (o : RingOp) : State :=
  let g := groupOf s die o.grp
  let ms := ringMembers s die o.grp
  if ms.length = g.1 then
    if ms.all (fun d => wroteAll s d o.grp o.no) then ms.foldl (fun (s : State) d => s.after 1 (.collectiveComplete d)) s else s
  else if g.2.1 + 2 = g.1 ∧ wroteAll s die o.grp o.no then sendDone s die o else s
/-- A member learns that every member has written its last chunk: it completes, and tells its successor unless that one told first. -/
def takeDone (s : State) (die : Nat) (o : RingOp) (ck : CollChunk) : State :=
  let g := groupOf s die o.grp
  let s := answer s { pkg := ck.pkg, die := ck.die, dest := die, tag := ck.tag } 0 []
  if (g.2.1 + 1) % g.1 + 2 = g.1 then s.after 1 (.collectiveComplete die) else sendDone s die o

/-- A result chunk is written into the member's buffer (15 R282; 19 R349). -/
def writeChunk (s : State) (die : Nat) (o : RingOp) (c : Nat × Nat × Nat × Nat) (idx : Nat) (bytes : List Byte) : State :=
  match opSegs s o .engWr (o.bufs.getD c.1 0 + c.2.1) c.2.2.1 with
  | .error f => haltRing s die o 0x45 4 idx f.cause
  | .ok (segs, s) =>
    let s := engWriteAll s (.cp die) segs bytes
    doneIf (s.modDie die (fun d => { d with ring := d.ring.map (fun o => { o with wrote := o.wrote + 1 }) })) die o

/-- A chunk arrives at a member whose collective runs (15 R282; 19 R349). -/
def takeChunk (s : State) (die : Nat) (o : RingOp) (ck : CollChunk) : State :=
  let g := groupOf s die o.grp
  let n := g.1
  let r := g.2.1
  let s := s.modDie die (fun d => { d with ring := d.ring.map (fun o => { o with pred := some (ck.pkg, ck.die) }) })
  let o := { o with pred := some (ck.pkg, ck.die) }
  if ck.bad then haltRing s die o 0x45 3 ck.idx
  else if ck.grp ≠ o.grp ∨ ck.op ≠ o.op ∨ ck.fmt ≠ o.fmt ∨ ck.nbuf ≠ o.nbuf ∨ ck.lens ≠ o.lens ∨ (ck.rank + 1) % n ≠ r then haltRing s die o 0x45 2 ck.idx
  else
    match (chunkTable o.lens)[ck.idx]? with
    | none =>
      if ck.result ∧ ck.idx = (chunkTable o.lens).length ∧ wroteAll s die o.grp o.no then takeDone s die o ck else haltRing s die o 0x45 2 ck.idx
    | some c =>
      if ck.result then
        let s := if r + 2 < n then sendColl s die o ck.idx true ck.bytes else s
        writeChunk s die o c ck.idx ck.bytes
      else
        let sum := collBytes o.op o.fmt ck.bytes ((o.own.drop c.2.2.2).take c.2.2.1)
        if r + 1 < n then sendColl s die o ck.idx false sum
        else writeChunk (sendColl s die o ck.idx true sum) die o c ck.idx sum

/-- How many operations of a kind a die has started in a group (log 63). -/
def ringCount (s : State) (die : Nat) (coll : Bool) (grp : Nat) : Nat := (s.die die).ringNo.get 0 (if coll then grp else 64 + grp)

/-- COLLECTIVE_CHUNK: it reaches the collective that it belongs to, of which the member's T0 may be yet to come; one that names another group halts the collective
that runs; one of a collective that has ended is nothing (15 R282, log 63). -/
def execCollectiveChunk (s : State) : Res :=
  evStep s (fun
    | .collectiveChunk die ck => some (
      let early := decide (ringCount s die true ck.grp ≤ ck.no)
      match (s.die die).ring with
      | some o =>
        if o.coll ∧ (if o.grp = ck.grp then o.no = ck.no else early = true) then .next (takeChunk s die o ck)
        else .next (if early then s.after 1 (.collectiveChunk die ck) else s)
      | none => .next (if early then s.after 1 (.collectiveChunk die ck) else s))
    | _ => none)

/-- The member of rank 0 sends chunk k at step k; a group of one member has its result at once (19 R349). -/
def collTurn (s : State) (die : Nat) (o : RingOp) : State :=
  let g := groupOf s die o.grp
  let cs := chunkTable o.lens
  if cs.isEmpty then
    (s.modDie die (fun d => { d with ring := d.ring.map (fun o => { o with nextCc := s.cc + hopTime }) })).after 1 (.collectiveComplete die)
  else match cs[o.next]? with
    | none => s
    | some c =>
      if g.2.1 ≠ 0 then s else
      let x := (o.own.drop c.2.2.2).take c.2.2.1
      let s := s.modDie die (fun d => { d with ring := d.ring.map (fun o => { o with next := o.next + 1, nextCc := s.cc + hopTime }) })
      if g.1 = 1 then s.at_ s.cc (.collectiveChunk die (mkChunk s die o o.next true x 0)) else sendColl s die o o.next false x

/-! ## T0 (15 R281, R282, R284) -/

/-- A field of a collective block that R281 does not allow. -/
def collBlockBad (b : List Byte) : Bool :=
  let n := field b 3 1
  decide (63 < field b 0 1 ∨ 2 < field b 1 1 ∨ n < 1 ∨ 4 < n) || (collWidth (field b 2 1)).isNone || bit (field b 4 1) 7 || !zeroBytes b 5 3
    || (List.range n).any (fun i => field b (8 + 8 * i) 8 % 128 != 0 || field b (0x28 + 4 * i) 4 % 128 != 0 || decide (2 ^ 31 < field b (0x28 + 4 * i) 4))
    || field b 0x38 8 % 64 != 0 || bits (field b 0x40 2) 15 10 != 0 || !zeroBytes b 0x42 62
/-- A field of a ring block that R284 does not allow. -/
def ringBlockBad (b : List Byte) : Bool :=
  let n := field b 4 2
  decide (63 < field b 0 1 ∨ 3 < field b 1 1 ∨ n < 1 ∨ 256 < n + field b 3 1) || (field b 1 1 != 3 && (collWidth (field b 2 1)).isNone)
    || bit (field b 0x18 1) 7 || field b 0x20 8 % 64 != 0 || bits (field b 0x28 2) 15 10 != 0
    || !zeroBytes b 6 2 || !zeroBytes b 0x19 7 || !zeroBytes b 0x2A 22

/-- The places of every buffer of a collective, checked for reading and writing. -/
def bufferSegs (s : State) (o : RingOp) : List (Nat × Nat) → Except AFault (List (Loc × Nat) × State)
  | [] => .ok ([], s)
  | (ea, n) :: r =>
    match opSegs s o .engRd ea n with
    | .error f => .error f
    | .ok (l, s) =>
      match opSegs s o .engWr ea n with
      | .error f => .error f
      | .ok (_, s) =>
        match bufferSegs s o r with
        | .error f => .error f
        | .ok (ls, s) => .ok (l ++ ls, s)

/-- A collective takes its buffers at T0, and the member of rank 0 sends its first chunk (15 R282, R283; 19 R349). -/
def startColl (s : State) (die : Nat) (o : RingOp) (b : List Byte) : State :=
  let n := field b 3 1
  let o := { o with nbuf := n, bufs := (List.range n).map (fun i => field b (8 + 8 * i) 8), lens := (List.range n).map (fun i => field b (0x28 + 4 * i) 4) }
  match bufferSegs s o (o.bufs.zip o.lens) with
  | .error f => haltRing s die o 0x45 4 0 f.cause
  | .ok (segs, s) =>
    match segs.find? (fun x => s.poisonedAt x.1 x.2) with
    | some _ => haltRing s die o 0x45 4 0 0x51
    | none =>
      let r := engReadAll s (.cp die) segs
      let o := { o with own := r.1 }
      collTurn (addLeases (r.2.modDie die (fun d => { d with ring := some o })) .coll o.who die segs) die o

/-- A die's ring engine takes up an operation: T0 (15 R267, R281-R284). One whose block lies at a fabric address stays first in the queue until its bytes have come
(17 R408). -/
def startRing (s : State) (die : Nat) (o : RingOp) : State :=
  let o := { o with nextCc := s.cc + 1 }
  let s := s.modDie die (fun d => { d with ring := some o })
  match readEngineDesc s o.who .ring o.id o.blk.toNat (if o.coll then 128 else 64) (.cp die) with
  | .error f =>
    if f.cause = 0 then
      (s.modDie die (fun d => { d with ring := none, ringQ := o :: d.ringQ })).askFar (.cp die) .ring o.bund (f.d1.toNat, f.d2.toNat)
        (if o.who.onCore then idVf o.id else 32)
    else haltTelling (s.dropFar (.cp die) .ring) die o [] 0x45 4 0 f.cause
  | .ok (b, s) =>
    let s := s.dropFar (.cp die) .ring
    let barAt := if o.coll then 0x38 else 0x20
    let grp := field b 0 1
    let o := { o with grp := grp, no := ringCount s die o.coll grp, op := field b 1 1, fmt := field b 2 1, sem := field b (if o.coll then 4 else 0x18) 1
                      barVa := field b barAt 8, bix := bits (field b (barAt + 8) 2) 7 0 }
    if 63 < grp then haltTelling s die o [] 0x45 1 0 0 else
    let s := s.modDie die (fun d => { d with ring := some o, ringNo := d.ringNo.put 0 (if o.coll then grp else 64 + grp) (o.no + 1) })
    let g := groupOf s die grp
    if (if o.coll then collBlockBad b else ringBlockBad b) ∨ g.1 ≤ g.2.1 then haltRing s die o 0x45 1 else
    match barPlace s o.who o.id o.barVa (bits (field b (barAt + 8) 2) 9 8) with
    | .error f => haltRing s die o 0x45 4 0 f.cause
    | .ok (bl, s) =>
      let o := { o with bar := bl }
      if o.coll then startColl s die o b
      else s.modDie die (fun d => { d with ring := some { o with first := field b 3 1, nch := field b 4 2, src := field b 8 8, dst := field b 0x10 8 } })

/-- A released COLL or RING reaches its die's engine, which runs one operation at a time in release order (15 R283). -/
def enqueueRing (s : State) (a : Agent) (w : Withheld) (coll : Bool) (blk : BitVec 64) : State :=
  let o : RingOp := { coll := coll, blk := blk, who := a, id := identOf s a, task := (s.ctx a).task, bund := w.bund }
  let d := s.die a.die
  if d.ring.isNone ∧ d.ringQ.isEmpty then startRing s a.die o else s.modDie a.die (fun d => { d with ringQ := d.ringQ ++ [o] })

/-- The next operation starts when the engine is free. -/
def nextRing (s : State) (die : Nat) : State :=
  let d := s.die die
  match d.ring, d.ringQ with
  | none, o :: r => startRing (s.modDie die (fun d => { d with ringQ := r })) die o
  | _, _ => s

/-! ## Completion (15 R269, R282) -/

/-- The completion of a die's operation: its semaphore, its barrier, where the engine acts as its die's agent (21 R359), then the next operation (15 R269). -/
def finishRing (s : State) (die : Nat) (o : RingOp) : State :=
  nextRing (engineFinish (dropRing s die) { cl := opCluster o, sem := o.sem, bar := o.bar } (fun l =>
    { actor := .cp die, loc := l, va := o.barVa, bix := o.bix, who := o.who, task := o.task, dest := .scribe (opCluster o)
      kind := if o.coll then 8 else 2, no := die, bund := o.bund })) die

/-- COLLECTIVE_COMPLETE: the member's lines of its buffers leave the L1 of the core that started it, then it completes (15 R269, R282; 18 R332). -/
def execCollectiveComplete (s : State) : Res :=
  evStep s (fun
    | .collectiveComplete die => some (
      match (s.die die).ring with
      | none => .next s
      | some o =>
        if !o.coll ∨ o.wrote < (chunkTable o.lens).length then .next s else
        let s := if !o.who.onCore then s else
          match bufferSegs s o (o.bufs.zip o.lens) with
          | .error _ => s
          | .ok (segs, s) =>
            let ls := segs.map (fun g => (linOf g.1 / 128, (linOf g.1 + g.2 + 127) / 128))
            s.modCore o.who.core (fun c => { c with l1 := c.l1.filter (fun e => !ls.any (fun r => decide (r.1 ≤ e.1 ∧ e.1 < r.2))) })
        .next (finishRing s die o))
    | _ => none)

/-- COLLECTIVE_HALT_NOTICE: the member's operation halts with the same cause and reason and passes the notice on; a collective that it has yet to start does so at
its T0 (15 R282, log 63). -/
def execCollectiveHaltNotice (s : State) : Res :=
  evStep s (fun
    | .collectiveHaltNotice h coll grp no cause reason => some (
      let die := h.dest
      match (s.die die).ring.filter (fun o => o.coll == coll && o.grp == grp && o.no == no) with
      | some o => .next (nextRing (haltRing s die o cause reason) die)
      | none => .next (if coll && decide (ringCount s die true grp ≤ no) then s.after 1 (.collectiveHaltNotice h coll grp no cause reason) else s))
    | _ => none)

/-! ## One cc of a ring engine (15 R284; 19 R349) -/

/-- A RING operation takes the next chunk's semaphore, reads the chunk and sends it to its successor (15 R284). -/
def ringTurn (s : State) (die : Nat) (o : RingOp) : State :=
  if o.wrote = o.nch then finishRing s die o
  else if o.nch ≤ o.next then s
  else
    let k := o.next
    let m := ringSem s die (o.first + k)
    if m = 0 then s else
    let s := setRingSem s die (o.first + k) (m.toNat - 1)
    match opSegs s o .engRd (o.src + 65536 * k) 65536 with
    | .error f => nextRing (haltRing s die o 0x45 4 k f.cause) die
    | .ok (segs, s) =>
      if segs.any (fun x => s.poisonedAt x.1 x.2) then nextRing (haltRing s die o 0x45 3 k) die else
      let r := engReadAll s (.cp die) segs
      let dst := (groupOf s die o.grp).2.2
      let s := r.2.modDie die (fun d => { d with ring := d.ring.map (fun o => { o with next := o.next + 1, nextCc := s.cc + hopTime }) })
      s.sendAwaited hopTime { who := o.who, purpose := .ring die o.grp o.no, bund := o.bund } die dst.1 dst.2 (fun h =>
        .ringChunkReceive dst.2 {
          pkg := h.pkg, die := h.die, tag := h.tag, proc := idProc o.who o.id, vf := idVf o.id, op := o.op, fmt := o.fmt
          sem := o.first + k, dst := BitVec.ofNat 64 (o.dst + 65536 * k), bytes := r.1 })

/-- RING_CHUNK: one cc of a die's ring engine (15 R284; 19 R349). -/
def execRingChunk (s : State) : Res :=
  evStep s (fun
    | .ringChunk die => some (
      match (s.die die).ring with
      | none => .next (nextRing s die)
      | some o => if s.cc < o.nextCc then .next s else .next (if o.coll then collTurn s die o else ringTurn s die o))
    | _ => none)

/-- RING_CHUNK_RECEIVE: the chunk is written or folded at its destination; after those writes its semaphore rises and the sender learns of it (15 R284; 18 R329). -/
def execRingChunkReceive (s : State) : Res :=
  evStep s (fun
    | .ringChunkReceive die ck => some (
      let h : MsgHdr := { pkg := ck.pkg, die := ck.die, dest := die, tag := ck.tag }
      if ck.written then .next (answer (performRsem s die ck.sem true 1) h 0 [])
      else if ck.bad then .next (answer s h 0x51 [])
      else match pageSegs s (.cp die) ck.proc ck.vf .engWr 3 ck.dst.toNat ck.bytes.length with
        | .error f => .next (answer s h f.cause [])
        | .ok (segs, s) =>
          match leaseOver s (fun _ => true) segs with
          | some (x, _) => .next (answer s h 0x34 [] (leaseHolder x).toNat)
          | none =>
          if ck.op ≠ 3 ∧ segs.any (fun x => s.poisonedAt x.1 x.2) then .next (answer s h 0x51 [])
          else
            let r := if ck.op = 3 then (ck.bytes, s) else
              let x := engReadAll s (.cp die) segs
              (collBytes ck.op ck.fmt x.1 ck.bytes, x.2)
            .next ((engWriteAll r.2 (.cp die) segs r.1).after 1 (.ringChunkReceive die { ck with written := true })))
    | _ => none)

end Sys2Proof.Machine
end

