-- ==== Sys2Proof/Machine/Walker.lean ====
section
/-!
DEFINITION. The schedule-table walker: STAB (15 R286, R287), the walker's cycle, its stash and its links (19 R333-R345).
-/

namespace Sys2Proof.Machine

/-! ## The slots (15 R267, R270, R286, R287) -/

/-- The cc that a STAB rd or reg takes (15 R270: at most 260; log 7). -/
def stabTime (s : State) : Nat := if s.who.die = 0 then 64 else 150

/-- STAB wr: the image's address is checked at issue, the image is read at release (15 R286). -/
def execStabWr (h : Hdr) (a b : BitVec 5) (s : State) : Res :=
  slotOp (.stabWr h a b) h s (fun s =>
    let x := s.rs b
    if wbits x 63 8 ≠ 0 then badOperand s x
    else if (s.rs a).toNat % 32 ≠ 0 then .next (s.raise (faultRec s (misaligned (s.rs a))))
    else withhold s (.stabWr x.toNat (s.rs a)) [s.rs a, x])
/-- STAB rd (15 R286). -/
def execStabRd (h : Hdr) (d a b : BitVec 5) (s : State) : Res :=
  slotOp (.stabRd h d a b) h s (fun s =>
    let x := s.rs a
    let y := s.rs b
    if wbits x 63 8 ≠ 0 then badOperand s x else if wbits y 63 2 ≠ 0 then badOperand s y else
    freezeFor s (stabTime s) (fun s =>
      .next (s.result 1 [s.wS d ((s.walker.table.get 0 x.toNat).extractLsb' (64 * y.toNat) 64)])))
/-- STAB go (15 R286). -/
def execStabGo (h : Hdr) (a : BitVec 5) (s : State) : Res :=
  slotOp (.stabGo h a) h s (fun s =>
    let x := s.rs a
    if wbits x 63 8 ≠ 0 then badOperand s x else withhold s (.stabGo x.toNat) [x])
/-- STAB stop (15 R286). -/
def execStabStop (h : Hdr) (s : State) : Res := slotOp (.stabStop h) h s (fun s => withhold s .stabStop [])

/-- Stash slots in use (15 R287; 19 R343). -/
def stashUsed (w : Walker) : Nat := (w.stash.filter (fun e => e.2.used)).length
/-- A walker register (15 R287). -/
def walkerReg (w : Walker) (n : Nat) : Option Word :=
  if n = 0 then some (BitVec.ofNat 64 (w.st + w.cur * 2 ^ 8 + w.cause * 2 ^ 16))
  else if n = 1 then some (w.issued.setWidth 64)
  else if n ≤ 5 then some ((w.bub.getD (n - 2) 0).setWidth 64)
  else if n = 6 then some (BitVec.ofNat 64 (stashUsed w + w.hwm * 2 ^ 8))
  else if n = 7 then some (BitVec.ofNat 64 w.dsfree)
  else if n = 8 then some w.dslink
  else if n = 9 then some w.uslink
  else none
/-- STAB reg (15 R286, R287). -/
def execStabReg (h : Hdr) (d a : BitVec 5) (s : State) : Res :=
  slotOp (.stabReg h d a) h s (fun s =>
    let x := s.rs a
    if 9 < x.toNat then badOperand s x else
    freezeFor s (stabTime s) (fun s => .next (s.result 1 [s.wS d ((walkerReg s.walker x.toNat).getD 0)])))
/-- STAB link (15 R286). -/
def execStabLink (h : Hdr) (a b : BitVec 5) (s : State) : Res :=
  slotOp (.stabLink h a b) h s (fun s =>
    let x := s.rs a
    let y := s.rs b
    if wbits x 63 1 ≠ 0 then badOperand s x
    else if wbits y 63 32 ≠ 0 ∨ wbits y 30 18 ≠ 0 then badOperand s y
    else withhold s (.stabLink (x.getLsbD 0) y) [x, y])
/-- STAB clr (15 R286). -/
def execStabClr (h : Hdr) (s : State) : Res := slotOp (.stabClr h) h s (fun s => withhold s .stabClr [])

/-! ## Entries, issue blocks, messages (19 R333, R334, R347) -/

/-- An entry's bytes. -/
def entryBytes (e : BitVec 256) : List Byte := toBytes 32 e.toNat
/-- KIND of an entry. -/
def entryKind (e : List Byte) : Nat := bits (field e 0 1) 2 0
/-- The operation and the location of an entry's stash. -/
def stashOp (e : List Byte) : Nat := bits (field e 2 1) 1 0
/-- The location of an entry's stash: 0 stack, 1 vault, 2 peer, 3 host. -/
def stashLoc (e : List Byte) : Nat := bits (field e 2 1) 3 2
/-- The stash slots that a stage may hold after a push. -/
def stashLimit (e : List Byte) : Nat := let n := bits (field e 2 1) 7 4; if n = 0 then 64 else n
/-- The launch word of a die. -/
def launchWord (b : List Byte) (d : Nat) : Nat := field b (8 * d) 8
/-- OTGT of an issue block. -/
def offTarget (b : List Byte) : Nat := field b 0x28 8

/-- A field of an entry that is reserved and nonzero, or a reserved KIND or STASH (19 R333, R339). -/
def stabEntryBad (e : List Byte) : Option Nat :=
  let k := field e 0 1
  let mb := field e 4 2
  if bits k 7 3 ≠ 0 ∨ k % 8 = 0 ∨ 5 < k % 8 then some k
  else if field e 6 2 ≠ 0 then some (field e 6 2)
  else if k = 5 then none
  else if bits (field e 1 1) 7 4 ≠ 0 then some (field e 1 1)
  else if stashOp e = 3 then some (field e 2 1)
  else if bits mb 15 14 ≠ 0 then some mb
  else if bits (field e 0xC 4) 30 25 ≠ 0 then some (field e 0xC 4)
  else if bits (field e 0x10 4) 30 25 ≠ 0 then some (field e 0x10 4)
  else if field e 0x18 8 % 64 ≠ 0 then some (field e 0x18 8)
  else none
/-- A field of an issue block that is reserved and nonzero; ORD counts as reserved (19 R334). -/
def stabBlockBad (e b : List Byte) : Option Nat :=
  let o := offTarget b
  match (List.range 4).find? (fun d => bits (launchWord b d) 5 4 != 0) with
  | some d => some (launchWord b d)
  | none =>
    if (if stashLoc e = 2 then bits o 63 16 else if stashLoc e = 3 then bits o 63 8 else o) ≠ 0 then some o
    else if field b 0x30 16 ≠ 0 then some (field b 0x30 8)
    else none

/-- The well block that a well reference names on a die of this package (19 R333). -/
def refWell (d ref : Nat) : Nat := vaultKey ((16 * d + bits ref 24 21) * 2 ^ 27 + 64 * bits ref 20 0)
/-- The filled count of a well (12 R229). -/
def wellFilled (s : State) (key : Nat) : Nat := (wellP s key - wellC s key).toNat

/-- An event of the walker, to die 0's command processor (19 R338, R339, R344). -/
def walkerEvent (s : State) (cause : Nat) (det : Det) : State := s.event (.cpring 0) (.cp 0) cause { det with d0 := 0 }
/-- What the walker asked for at fabric addresses has been used, or is no longer needed (17 R408). -/
def walkerDrops (s : State) : State := (List.range 4).foldl (fun (s : State) d => s.dropFar (.cp d) .walker) s
/-- The walker stops on error (19 R339). -/
def walkerError (s : State) (cause : Nat) (det : Det) : State :=
  walkerEvent ((walkerDrops s).modWalker (fun w => { w with st := 3, cause := cause, ent := none })) cause det

/-- A message of the walker, which lives on die 0, or of a die's endpoint for it, to another walker (01 R17; 19 R347). -/
def walkerSend (s : State) (from_ pkg die : Nat) (e : MsgHdr → Ev) : State := s.sendAway 1 { who := .cp 0, purpose := .walker } from_ pkg die e
/-- The package and die of a link word (15 R286). -/
def linkTo (w : BitVec 64) : Nat × Nat := (wbits w 15 0, wbits w 17 16)

/-! ## Links (15 R286; 19 R340) -/

/-- DWELL of the first entry, from `cur` onward in table order, whose DSREQ is nonzero. -/
def firstDwell (t : SMap (BitVec 256)) (cur : Nat) : Option Nat :=
  (List.range 256).findSome? (fun i =>
    let e := entryBytes (t.get 0 ((cur + i) % 256))
    if field e 3 1 = 0 then none else some (field e 0x10 4))

/-- Links that wait for an entry boundary take effect; `cur` is the entry that becomes current. A downstream link asks its neighbour for the free slots of
the first well that the table sends to (19 R340). -/
def applyLinks (s : State) (cur : Nat) : State :=
  let w := s.walker
  let s := s.modWalker (fun w => { w with uslink := w.newUs.getD w.uslink, newUs := none })
  match w.newDs with
  | none => s
  | some x =>
    let s := s.modWalker (fun w => { w with dslink := x, newDs := none, dsfree := 0, mirror := false })
    match firstDwell w.table cur with
    | some ref =>
      if x.getLsbD 31 then
        let n := linkTo x
        walkerSend (s.modWalker (fun w => { w with mirror := true })) 0 n.1 n.2 (fun h => .mirrorRequest h (BitVec.ofNat 32 ref))
      else s
    | none => s

/-! ## Effects of STAB (15 R286; 19 R341) -/

/-- The walker acts in the current cc, after every other agent. -/
def addWalkerTurn (s : State) : State := if s.turns.contains .walker then s else { s with turns := s.turns ++ [.walker] }
/-- The walker starts at an entry. -/
def startWalker (s : State) (entry : Nat) : State :=
  addWalkerTurn ((walkerDrops s).modWalker (fun w => { w with st := 1, cur := entry, issued := 0, ent := none, goWait := none }))
/-- A go performs; one for which a mirror request was sent waits for the reply (19 R341). -/
def performGo (s : State) (a : Agent) (entry : Nat) : State :=
  if s.walker.st = 1 ∨ s.walker.st = 2 then s else
  let fresh := s.walker.newDs.isSome
  let s := applyLinks s entry
  if fresh && s.walker.mirror then s.modWalker (fun w => { w with goWait := some (entry, a) }) else startWalker s entry
/-- A wr performs: the image is read now (15 R286). -/
def performStabWr (s : State) (a : Agent) (w : Withheld) (entry : Nat) (va : BitVec 64) (u : FarUse) : State :=
  match readEngineDesc s a u (identOf s a) va.toNat 32 with
  | .error f => s.engineTrap a (s.ctx a).task (State.noticeDest a)
      { cause := f.cause, det := { d0 := engDet 9 0 0, d1 := f.d1, d2 := f.d2, d3 := f.d3 }, bund := w.bund }
  | .ok (bs, s) => s.modWalker (fun w => { w with table := w.table.put 0 entry (BitVec.ofNat 256 (ofBytes bs)) })
/-- A stop performs. -/
def performStabStop (s : State) : State := s.modWalker (fun w => { w with st := if w.st = 1 ∨ w.st = 2 then 0 else w.st })
/-- A link performs: it takes effect at the next entry boundary. -/
def performStabLink (s : State) (up : Bool) (x : BitVec 64) : State :=
  s.modWalker (fun w => if up then { w with newUs := some x } else { w with newDs := some x })
/-- A clr performs. -/
def performStabClr (s : State) : State := s.modWalker (fun w => { w with bub := Vector.replicate 4 0, hwm := 0 })

/-! ## The current entry (19 R336, R339) -/

/-- The walker, on die 0, asks for bytes at a fabric address that it needs (17 R408). -/
def walkerAsks (s : State) (a : Agent) (d1 d2 : BitVec 64) : State := s.askFar a .walker 0 (d1.toNat, d2.toNat)
/-- Latch the current entry, and its issue block unless it is an X entry; what cannot be read or breaks its layout stops the walker on error. An entry whose block lies at
a fabric address is latched once the block has come (17 R408). -/
def latchEntry (s0 : State) : State :=
  let s := s0
  let img := s.walker.table.get 0 s.walker.cur
  let e := entryBytes img
  let s := s.modWalker (fun w => { w with ent := some img, blk := [], asked := false, granted := false, refusedPush := false })
  match stabEntryBad e with
  | some x => walkerError s 0x02 { d1 := BitVec.ofNat 64 x }
  | none =>
    if entryKind e = 5 then s else
    match readEngineDesc s (.cp 0) .walker (identOf s (.cp 0)) (field e 0x18 8 + 64 * field e 1 1) 64 with
    | .error f => if f.cause = 0 then walkerAsks s0 (.cp 0) f.d1 f.d2 else walkerError s f.cause { d1 := f.d1, d2 := f.d2, d3 := f.d3 }
    | .ok (b, s) =>
      let s := walkerDrops s
      match stabBlockBad e b with
      | some x => walkerError s 0x02 { d1 := BitVec.ofNat 64 x }
      | none => s.modWalker (fun w => { w with blk := b })

/-- A launch word as die d's command processor launches it (14 R250; 19 R336): the status that TASK writes, or the trap that it takes; a cause 0 is bytes at a fabric address
that have yet to come (17 R408). -/
def launchFor (s : State) (d lw : Nat) : Except TrapRec (Word × State) :=
  match readImage s (.cp d) (lw / 64 * 64) 64 .walker with
  | .error f => .error (faultRec s f)
  | .ok (bs, s) => launch s (.cp d) (.scribe (16 * d + bits lw 3 0)) (16 * d + bits lw 3 0) bs .walker

/-- What the launch checks of an entry find: an error of R339, that a command processor's bytes at a fabric address have yet to come (17 R408), or whether TASK would refuse
one of its tasks for reason 2 to 5. -/
inductive LaunchCheck where
  | error (cause : Nat) (det : Det)
  | absent (d : Nat) (det : Det)
  | ready (refused : Bool)

/-- The checks of every nonzero launch word, each as the launches before it leave the package (19 R339). -/
def checkLaunches (b : List Byte) : List Nat → State → LaunchCheck
  | [], _ => .ready false
  | d :: r, s =>
    let lw := launchWord b d
    if lw = 0 then checkLaunches b r s else
    match launchFor s d lw with
    | .error t => if t.cause = 0 then .absent d t.det else .error t.cause t.det
    | .ok (x, s') =>
      if x.getLsbD 0 then checkLaunches b r s'
      else if wbits x 3 1 = 1 then .error 0x60 ((s'.notices.getLast?.map (·.det)).getD {})
      else match checkLaunches b r s' with
        | .error c t => .error c t
        | .absent d t => .absent d t
        | .ready _ => .ready true

/-! ## Issue (19 R335, R336) -/

/-- Perform the issue record at its home, or send it to its fabric address (18 R316); the fault that it meets. -/
def writeRecord (s : State) (irec : Nat) (bs : List Byte) : Except AFault State :=
  if irec = 0 then .ok s else
  match resolveRange s (.cp 0) .engWr .m 3 (BitVec.ofNat 64 irec) 16 with
  | .error f => .error f
  | .ok (segs, s) =>
    match leaseOver s (fun _ => true) segs with
    | some (x, l) => .error { cause := 0x34, d1 := BitVec.ofNat 64 (Loc.addr s l), d2 := leaseHolder x }
    | none => .ok (engWriteAll s (.cp 0) segs bs { who := .cp 0, purpose := .walker, va := BitVec.ofNat 64 irec })

/-- Launch an entry's tasks in die order, counting them in ISSUED; the walker keeps the numbers of the tasks it issued. -/
def launchAll (b : List Byte) : List Nat → State → Except TrapRec State
  | [], s => .ok s
  | d :: r, s =>
    let lw := launchWord b d
    if lw = 0 then launchAll b r s else
    match launchFor s d lw with
    | .error t => .error t
    | .ok (_, s') =>
      let new := (s'.tasks.filter (fun e => !s.tasks.any (fun f => f.1 == e.1))).map (·.1)
      let s' := new.foldl (fun (s : State) k => s.modTask k (fun t => { t with walker := true })) s'
      launchAll b r (s'.modWalker (fun w => { w with issued := w.issued + 1, tasks := w.tasks ++ new }))

/-- The lowest stash slot that satisfies `p`. -/
def stashFind (w : Walker) (p : Stash → Bool) : Option Nat := (List.range 64).find? (fun i => p (w.stash.get {} i))
/-- Take a stash slot (19 R336, R343). -/
def stashTake (s : State) (i : Nat) (x : Stash) : State :=
  s.modWalker (fun w => let w := { w with stash := w.stash.put {} i x }; { w with hwm := Nat.max w.hwm (stashUsed w) })

/-- Issue the current entry. -/
def issueEntry (s : State) (e b : List Byte) : State :=
  let w := s.walker
  let op := stashOp e
  let mb := BitVec.ofNat 16 (field e 4 2)
  let slot := if op = 1 then stashFind w (fun x => !x.used)
    else if op = 2 then stashFind w (fun x => x.used && !x.peer && x.mb == mb)
    else none
  if op ≠ 0 ∧ slot.isNone then walkerError s 0x78 {} else
  let s := if op = 1 then stashTake s (slot.getD 0)
      { used := true, mb := mb, loc := stashLoc e, bytes := field e 0x14 4, pkg := if stashLoc e = 2 then offTarget b else 0 } else s
  let s := s.modWalker (fun w => { w with dsfree := w.dsfree - field e 3 1 })
  let word0 := mb.toNat + slot.getD 0x3F * 2 ^ 16 + stashLoc e * 2 ^ 22 + w.cur * 2 ^ 24
  match writeRecord s (field b 0x20 8) (toBytes 8 word0 ++ toBytes 8 w.issued.toNat) with
  | .error f => walkerError s f.cause { d1 := f.d1, d2 := f.d2, d3 := f.d3 }
  | .ok s =>
    let s := s.modWalker (fun w => { w with
      st := 1, busy := true, tasks := [], issueCc := s.cc, runEnt := BitVec.ofNat 256 (ofBytes e), runNo := w.cur
      popSlot := if op = 2 then slot else none })
    match launchAll b [0, 1, 2, 3] s with
    | .error t => walkerError s t.cause t.det
    | .ok s =>
      let s := walkerDrops s
      let s := if s.walker.tasks.isEmpty then s.at_ s.cc .walkerEntryComplete else s
      s.modWalker (fun w => { w with cur := (w.cur + 1) % 256, ent := none })

/-- An idle cc, counted against the first condition that fails (19 R345; 15 R293). -/
def bubble (s : State) (k : Nat) : State :=
  (s.modWalker (fun w => { w with
    st := 2, bub := w.bub.setIfInBounds k (let x := w.bub.getD k 0; if x = BitVec.allOnes 48 then x else x + 1) })).sample (.cp 0) 0x06 1

/-- The conditions of the idle walker at its current entry, in their order (19 R336, R339, R343). -/
def walkerTest (s : State) (e b : List Byte) : State :=
  let w := s.walker
  let ref := field e 0xC 4
  let push := decide (stashOp e = 1)
  let loc := stashLoc e
  if w.dsfree < field e 3 1 then bubble s 0
  else if bit ref 31 && (List.range 4).any (fun d => launchWord b d != 0 && wellFilled s (refWell d ref) == 0) then bubble s 1
  else if push && decide (stashLimit e ≤ (w.stash.filter (fun x => x.2.used && !x.2.peer)).length) then bubble s 2
  else if push && decide (loc = 3) && decide (offTarget b ≤ (w.stash.filter (fun x => x.2.used && !x.2.peer && x.2.loc == 3)).length) then
    let s := if w.refusedPush then s else
      walkerEvent (s.modWalker (fun w => { w with refusedPush := true })) 0x43 { d1 := BitVec.ofNat 64 w.cur, d2 := BitVec.ofNat 64 (offTarget b) }
    bubble s 2
  else match checkLaunches b [0, 1, 2, 3] s with
    | .error c t => walkerError s c t
    | .absent d t => walkerAsks s (.cp d) t.d1 t.d2
    | .ready refused =>
      if push && decide (loc = 2) && !w.granted then
        let s := if refused || w.asked then s else
          walkerSend (s.modWalker (fun w => { w with asked := true })) 0 (offTarget b) 0 .stashRequest
        bubble s 2
      else if refused then bubble s 3
      else issueEntry s e b

/-- WALKER_CYCLE: one cc of the walker in STATE 1 or 2. An entry becomes current, and is latched, when the tasks of the one before it have completed; links that wait
for this boundary take effect there (15 R286; 19 R336, R337). -/
def execWalkerCycle (s : State) : Res :=
  evStep s (fun
    | .walkerCycle => some (
      if s.walker.st ≠ 1 ∧ s.walker.st ≠ 2 ∨ s.walker.busy then .next s else
      let s := if s.walker.ent.isNone then latchEntry (applyLinks s s.walker.cur) else s
      let w := s.walker
      match w.ent with
      | none => .next s
      | some img =>
        let e := entryBytes img
        if entryKind e = 5 then .next (s.modWalker (fun w => { w with st := 0 }))
        else .next (walkerTest s e w.blk))
    | _ => none)

/-- WALKER_ENTRY_COMPLETE: every task of the issued entry has completed (19 R338, R343). -/
def execWalkerEntryComplete (s : State) : Res :=
  evStep s (fun
    | .walkerEntryComplete => some (
      let w := s.walker
      if !w.busy || w.tasks.any (fun k => !(s.task k).gone) then .next s else
      let e := entryBytes w.runEnt
      let s := s.modWalker (fun w => { w with busy := false, tasks := [], popSlot := none })
      let s := match w.popSlot with
        | none => s
        | some i =>
          let x := w.stash.get {} i
          let s := s.modWalker (fun w => { w with stash := w.stash.put {} i {} })
          if x.loc = 2 then walkerSend s 0 x.pkg 0 .stashRelease else s
      let up := linkTo w.uslink
      let s := if entryKind e = 1 ∧ bit (field e 0xC 4) 31 ∧ w.uslink.getLsbD 31 then
          walkerSend s 0 up.1 up.2 (fun h => .freeSlotUpdate h 1) else s
      .next (if w.issueCc + field e 8 4 < s.cc then
          walkerEvent s 0x75 { d1 := BitVec.ofNat 64 w.runNo, d2 := BitVec.ofNat 64 (s.cc - w.issueCc) } else s))
    | _ => none)

/-! ## Messages that arrive (19 R340, R341, R343, R344) -/

/-- Whether a message comes from the downstream neighbour: its package and its die. -/
def fromDown (w : Walker) (h : MsgHdr) : Bool := w.dslink.getLsbD 31 && linkTo w.dslink == (h.pkg, h.die)

/-- FREE_SLOT_UPDATE: an update from the downstream neighbour adds to DSFREE, once its first update has come (19 R340). -/
def execFreeSlotUpdate (s : State) : Res :=
  evStep s (fun
    | .freeSlotUpdate h n => some (
      if fromDown s.walker h && !s.walker.mirror then .next (s.modWalker (fun w => { w with dsfree := Nat.min 65535 (w.dsfree + n) })) else .next s)
    | _ => none)

/-- MIRROR_REQUEST: the reply is the least number of free slots that the named well has on the four dies, read on arrival (19 R340). -/
def execMirrorRequest (s : State) : Res :=
  evStep s (fun
    | .mirrorRequest h ref => some (
      let free := fun (d : Nat) => let k := refWell d ref.toNat; wellSlots s k - wellFilled s k
      let n := Nat.min (Nat.min (free 0) (free 1)) (Nat.min (free 2) (free 3))
      .next (walkerSend s h.dest h.pkg h.die (fun k => .mirrorReply k n)))
    | _ => none)

/-- MIRROR_REPLY: it sets DSFREE, and a go that waits for it performs (19 R340, R341). -/
def execMirrorReply (s : State) : Res :=
  evStep s (fun
    | .mirrorReply h n => some (
      if !(fromDown s.walker h && s.walker.mirror) then .next s else
      let s := s.modWalker (fun w => { w with dsfree := Nat.min 65535 n, mirror := false })
      match s.walker.goWait with
      | some (entry, _) => .next (if s.walker.st = 1 ∨ s.walker.st = 2 then s.modWalker (fun w => { w with goWait := none }) else startWalker s entry)
      | none => .next s)
    | _ => none)

/-- STASH_REQUEST: a free slot is taken and marked as held for the peer, or the request is refused (19 R343). -/
def execStashRequest (s : State) : Res :=
  evStep s (fun
    | .stashRequest h => some (
      match stashFind s.walker (fun x => !x.used) with
      | some i => .next (walkerSend (stashTake s i { used := true, peer := true, pkg := h.pkg }) h.dest h.pkg h.die .stashGrant)
      | none => .next (walkerSend s h.dest h.pkg h.die .stashRefusal))
    | _ => none)

/-- The package that the walker's pending push has asked for a slot. -/
def askedOf (w : Walker) (pkg : Nat) : Bool := w.asked && !w.granted && !w.refusedPush && offTarget w.blk == pkg

/-- STASH_GRANT: the pending push may issue (19 R343). -/
def execStashGrant (s : State) : Res :=
  evStep s (fun
    | .stashGrant h => some (.next (if askedOf s.walker h.pkg then s.modWalker (fun w => { w with granted := true }) else s))
    | _ => none)

/-- STASH_REFUSAL: event 0x43; the push stays pending and no further request is sent (19 R344). -/
def execStashRefusal (s : State) : Res :=
  evStep s (fun
    | .stashRefusal h => some (
      if askedOf s.walker h.pkg then
        .next (walkerEvent (s.modWalker (fun w => { w with refusedPush := true })) 0x43 { d1 := BitVec.ofNat 64 s.walker.cur, d2 := BitVec.ofNat 64 h.pkg })
      else .next s)
    | _ => none)

/-- STASH_RELEASE: a slot held for the peer is free (19 R343). -/
def execStashRelease (s : State) : Res :=
  evStep s (fun
    | .stashRelease h => some (
      match stashFind s.walker (fun x => x.used && x.peer && x.pkg == h.pkg) with
      | some i => .next (s.modWalker (fun w => { w with stash := w.stash.put {} i {} }))
      | none => .next s)
    | _ => none)

end Sys2Proof.Machine
end

