-- ==== Sys2Proof/Machine/Fabric.lean ====
section
/-!
DEFINITION. Messages between packages: remote reads, writes and well lines at their target, answers and failures at their sender, links that fail and
return (19 R346-R348, R407; 12 R233).
-/

namespace Sys2Proof.Machine

/-! ## At the target (19 R347, R348) -/

/-- The command processor of the die that holds a place of this package: the agent that a remote access acts as at its target. -/
def targetAgent (l : Loc) : Agent :=
  match l.space with
  | .p => .cp ((l.key - 2 ^ 52) / 2 ^ 22 / 16 % 4)
  | .v => .cp ((l.key - 2 ^ 53) / 2 ^ 27 / 16 % 4)
  | _ => .cp (homeCluster l.key / 16 % 4)

/-- The segments of a range that each lie in one line. -/
def lineSegs (l : Loc) : Nat → Nat → List (Loc × Nat)
  | 0, _ => []
  | fuel + 1, n =>
    if n = 0 then [] else
    let k := Nat.min n (128 - l.key % 128)
    (l, k) :: lineSegs (l.plus k) fuel (n - k)

/-- REMOTE_READ: a strong access at the target, or a refusal (19 R347, R348). -/
def execRemoteRead (s : State) : Res :=
  evStep s (fun
    | .remoteRead h vf addr len => some (
      match (if rightsOk s vf then fabricPlace s addr len else none) with
      | none => .next (answer s h 0x21 [])
      | some l =>
        let segs := lineSegs l (len / 128 + 2) len
        if s.poisonedAt l len then .next (answer s h 0x51 [])
        else
          let r := engReadAll s (targetAgent l) segs
          .next (answer r.2 h 0 r.1))
    | _ => none)

/-- REMOTE_WRITE: a strong access at the target, or a refusal (19 R347, R348; 09 R179). -/
def execRemoteWrite (s : State) : Res :=
  evStep s (fun
    | .remoteWrite h vf addr bs => some (
      match (if rightsOk s vf then fabricPlace s addr bs.length else none) with
      | none => .next (answer s h 0x21 [])
      | some l =>
        let segs := lineSegs l (bs.length / 128 + 2) bs.length
        match leaseOver s (fun _ => true) segs with
        | some (x, _) => .next (answer s h 0x34 [] (leaseHolder x).toNat)
        | none => .next (answer (engWriteAll s (targetAgent l) segs bs) h 0 []))
    | _ => none)

/-- WELL_PUSH_LINE: a line is written at the well's write pointer, which then advances; it waits while the slot is not free (12 R233; 15 R273; 19 R347). -/
def execWellPushLine (s : State) : Res :=
  evStep s (fun
    | .wellPushLine h vf dst line => some (
      match (if rightsOk s vf ∧ dst % 64 = 0 then fabricPlace s dst 64 else none) with
      | none => .next (answer s h 0x21 [])
      | some b =>
        let key := b.key
        if (wellBad s key).isSome ∨ b.space = .ms then .next (answer s h 0x21 [])
        else if !slotFree s key then .next (s.after 1 (.wellPushLine h vf dst line))
        else
          let ea := pointerAddr s key
          let l : Loc := { space := b.space, key := if b.space = .p then key / 2 ^ 22 * 2 ^ 22 + ea % 2 ^ 22 else vaultKey ea }
          if b.space = .v ∧ !vaultPresent s ea 128 then .next (answer s h 0x21 [])
          else match leaseOver s (fun _ => true) [(l, 128)] with
          | some (x, _) => .next (answer s h 0x34 [] (leaseHolder x).toNat)
          | none =>
            let s := engineWrite s (targetAgent b) l (toBytes 128 line.toNat)
            .next (answer (lineDelivered s (targetAgent b) key) h 0 []))
    | _ => none)

/-! ## At the sender (19 R347, R407) -/

/-- A remote access is no longer awaited. -/
def dropRemote (s : State) (tag : Nat) : State := { s with remotes := s.remotes.erase tag }

/-- Whether a die's ring engine runs the RING that a message was sent for. -/
def runsRing (s : State) (die grp no : Nat) : Bool := match (s.die die).ring with
  | some o => !o.coll && o.grp == grp && o.no == no
  | none => false
/-- What has become of the bytes that an agent has asked for before it acts (17 R408). -/
def answerFar (s : State) (a : Agent) (id : Nat) (g : FarRead → FarRead) : State :=
  s.modCtx a (fun c => { c with far := c.far.map (fun f => if f.id = id then g f else f) })
/-- REMOTE_RESPONSE: the answer reaches the load, the channel or the engine that awaits it; the context's own writes lie over the bytes that a load reads
(18 R316, R320; 19 R347). -/
def execRemoteResponse (s : State) : Res :=
  evStep s (fun
    | .remoteResponse h bs => some (
      let tag := h.tag
      match s.remotes.find? (fun r => r.1 == tag) with
      | none => .next s
      | some (_, r) =>
        let s := dropRemote s tag
        match r.purpose with
        | .chan cl ch =>
          if (chanOf s cl ch).waits ≠ some tag then .next s
          else if r.write then .next (modChan s cl ch (fun c => { c with waits := none, done := c.done + 128, out := c.out.drop 128 }))
          else .next (modChan s cl ch (fun c => { c with waits := none, raw := c.raw ++ bs, srcPos := c.srcPos + 128 }))
        | .ring die grp no =>
          .next (if runsRing s die grp no then s.modDie die (fun d => { d with ring := d.ring.map (fun o => { o with wrote := o.wrote + 1 }) }) else s)
        | .load id off =>
          let bs := r.laid.foldl (fun (b : List Byte) x => b.set x.1 x.2) bs
          .next (arrive s r.who id (fun e => { e with buf := patch e.buf off bs }))
        | .ask id => .next (answerFar s r.who id (fun f => { f with got := some (r.laid.foldl (fun (b : List Byte) x => b.set x.1 x.2) bs) }))
        | .coll die grp no => .next (if wroteAll s die grp no then s.after 1 (.collectiveComplete die) else s)
        | .effect | .walker => .next s)
    | _ => none)

/-- The package and die of a target, as the details of 0x44 show them (22 R369). -/
def notReached (r : Remote) : BitVec 64 := BitVec.ofNat 64 (r.pkg + r.die * 2 ^ 16)
/-- Whether a message is of a tile fetch. -/
def ofFetch (r : Remote) : Bool := r.det0 == some 4
/-- The record of a failed message of a context. The refusal, the poison or the lease of a load or of a released write names its slot; all else is deferred: a message
that was lost, a tile fetch's, a remote command's (04 R98; 19 R348, R407; 22 R368, R369). `info` is the holder of the lease. -/
def remoteTrap (r : Remote) (cause info : Nat) : TrapRec :=
  let deferred := decide (cause = 0x44) || ofFetch r || r.det0.isNone
  let d0 := if ofFetch r then 4 else if deferred then engDet 5 0 0 else r.det0.getD 0
  let acc := if ofFetch r then Acc.engRd else if r.write then Acc.store else Acc.load
  { cause := cause, bund := r.bund, dfr := deferred
    det := if cause = 0x44 then { d0 := d0, d1 := notReached r }
           else if cause = 0x21 then { d0 := d0, d1 := r.va, d2 := (accFault 0x21 acc 0 0 r.lane).d2 }
           else { d0 := d0, d1 := BitVec.ofNat 64 r.addr, d2 := if cause = 0x34 then BitVec.ofNat 64 info else r.va } }
/-- The fault of a load of which a part has failed: of two refusals that of the lower lane (22 R369). -/
def worseFault (old : Option TrapRec) (t : TrapRec) : Option TrapRec :=
  match old with
  | some u => if u.cause = 0x21 ∧ t.cause = 0x21 ∧ t.det.d2.toNat % 128 < u.det.d2.toNat % 128 then some t else some u
  | none => some t

/-- A message has failed: its channel or ring engine halts, its load faults, its context counts it and is told, the walker's is an event (12 R239; 15 R276, R282;
19 R348, R407). -/
def remoteFailure (s : State) (tag : Nat) (r : Remote) (cause info : Nat) : State :=
  let s := dropRemote s tag
  match r.purpose with
  | .chan cl ch =>
    if (chanOf s cl ch).waits ≠ some tag then s else
    let s := modChan s cl ch (fun c => { c with waits := none })
    if cause = 0x44 then haltSoon s cl ch 0x44 0 0 (notReached r).toNat
    else if cause = 0x34 ∨ cause = 0x51 then haltSoon s cl ch cause 0 r.addr info
    else haltSoon s cl ch 0x40 3 r.addr cause
  | .ring die grp no =>
    match (s.die die).ring with
    | some o =>
      if !runsRing s die grp no then s
      else nextRing (if cause = 0x44 then haltRing s die o 0x44 0 else if cause = 0x51 then haltRing s die o 0x45 3 o.wrote
        else haltRing s die o 0x45 4 o.wrote cause) die
    | none => s
  | .coll die grp no =>
    match (s.die die).ring with
    | some o => if o.coll ∧ o.grp = grp ∧ o.no = no then nextRing (haltRing s die o 0x44 0) die else s
    | none => s
  | .walker => if r.write ∧ cause ≠ 0x44 then walkerError s cause (remoteTrap r cause info).det else walkerEvent s cause { d1 := notReached r }
  | .load id _ => arrive s r.who id (fun e => { e with fault := worseFault e.fault (remoteTrap r cause info) })
  | .ask id => answerFar s r.who id (fun f => { f with cause := cause })
  | .effect =>
    let s := s.modCtx r.who (fun c => { c with failed := c.failed + 1 })
    let t := remoteTrap r cause info
    if t.dfr then s.engineTrap r.who (s.ctx r.who).task (State.noticeDest r.who) t else s.deliver r.who t

/-- MESSAGE_FAILURE: a message's sender is told that it failed (19 R407). -/
def execMessageFailure (s : State) : Res :=
  evStep s (fun
    | .messageFailure tag cause info => some (
      match s.remotes.find? (fun r => r.1 == tag) with
      | some (_, r) => .next (remoteFailure s tag r cause info)
      | none => .next s)
    | _ => none)

/-! ## Links (19 R346, R407; 23 R394) -/

/-- A port's link state. -/
def setPort (s : State) (p : Nat) (up : Bool) : State := s.modHost (fun h => { h with ports := h.ports.upd {} p (fun x => { x with up := up }) })

/-- LINK_FAILURE: a route is lost with its last port, and every message sent on it and not yet acknowledged fails (19 R407). -/
def execLinkFailure (s : State) : Res :=
  evStep s (fun
    | .linkFailure p => some (
      let s := setPort s p false
      .next (s.remotes.foldl (fun (s : State) r => if r.2.away && !s.routeUp r.2.pkg then s.at_ s.cc (.messageFailure r.1 0x44) else s) s))
    | _ => none)

/-- LINK_RETURN: the link state changes; nothing that failed resumes (19 R407; 23 R394). -/
def execLinkReturn (s : State) : Res :=
  evStep s (fun
    | .linkReturn p => some (.next (setPort s p true))
    | _ => none)

end Sys2Proof.Machine
end

