-- ==== Sys2Proof/Machine/Perform.lean ====
section
/-!
DEFINITION. RELEASED_EFFECT_PERFORM: a released effect leaves its release queue and performs at its target (06 R120; 12 R221; 15 R267; 18 R318).
-/

namespace Sys2Proof.Machine

/-! ## What an effect waits for -/

/-- Whether an effect performs only after every effect that its context released before it (04 R76; 12 R221; 15 R267). -/
def Effect.chained : Effect → Bool
  | .qpush _ _ _ | .wadv _ _ | .evtSig _ _ _ | .snd _ _ _ _ _ _ => true
  | .cpchGo _ _ _ _ | .cpchStop _ _ | .phase _ _ _ | .rinv _ _ _ _ _ _ | .creg _ _ | .cerr _ _ | .coll _ | .ring _ | .rsem _ _ _ _ => true
  | .stabWr _ _ | .stabGo _ | .stabStop | .stabLink _ _ | .stabClr => true
  | .halt => true
  | _ => false

/-- The places that an effect writes in memory. -/
def Effect.places (e : Effect) : List (Loc × Nat) :=
  e.pieces.map (fun p => (p.loc, p.bytes.length)) ++ e.opaquePlaces ++ (match e with
    | .wcons blk _ => [({ space := if 2 ^ 53 ≤ blk then .v else .p, key := blk }, 64)]
    | _ => [])
/-- Whether a write waits for the context's own claims and tokens on their way in this package: its writes to local targets perform in release order, and those of one byte in
order wherever they go (18 R318, R320). -/
def behindRouted (s : State) (a : Agent) (e : Effect) : Bool :=
  !e.places.isEmpty && s.agenda.any (fun x =>
    let flies := fun (who : Agent) (obj : BitVec 64) (token : Bool) =>
      who == a && (bits obj.toNat 32 27 / 16 == a.die || (routedPlaces s obj token).any (fun p => e.places.any (fun q =>
        q.1.space == .v && decide (linOf p.1 < linOf q.1 + q.2 ∧ linOf q.1 < linOf p.1 + p.2))))
    match x.2 with
    | .claimGrant c => flies c.who c.obj false
    | .claimSend t => t.pkg == s.pkgid.toNat && flies t.who t.obj true
    | _ => false)

/-- Whether an effect that stands first among its context's may perform now. -/
def effectReady (s : State) (a : Agent) (e : Effect) : Bool :=
  if e.chained then !(s.remotePending a 5 || s.goPending a || s.claimPending a) else
  !behindRouted s a e && (match e with
  | .arrive _ _ _ sc | .barWait sc => !s.remotePending a sc && (sc == 0 || !(s.goPending a || s.claimPending a))
  | _ => true)

/-- The first effect of a release queue that may perform: no earlier one is of its context. A giving up of banks takes no place (`State.settleBanks`). -/
def nextEffect (s : State) (seen : List Agent) : List Released → Option Released
  | [] => none
  | r :: rs =>
    if State.gives r then nextEffect s seen rs
    else if !seen.contains r.who && effectReady s r.who r.w.eff then some r else nextEffect s (r.who :: seen) rs

/-! ## The end of a context (04 R76; 12 R227, R231; 14 R251) -/

/-- The queue-head bindings and well roles of an agent end. -/
def dropBindings (s : State) (a : Agent) : State :=
  let s := s.modCtx a (fun c => { c with live := { c.live with c := { c.live.c with qh := Vector.replicate 4 {}, w := Vector.replicate 16 {} } } })
  (s.resyncHeads a).resyncWells a
/-- HALT's own effect: the context has ended; a command processor or scribe stops (04 R76; 14 R249; 23 R400). -/
def performHalt (s : State) (a : Agent) : State :=
  let s := if a.onCore then s.writeBackAll a.core a else (s.vacate a).modCtx a (fun c => { c with st := .stopped, post := none, stopReq := none })
  checkTask (dropBindings s a) (s.ctx a).task

/-! ## Performing -/

/-- A started core writes back its L1 before an engine that it starts reads (17 R311). -/
def beforeEngine (s : State) (a : Agent) : State := if a.onCore then s.writeBackAll a.core a else s

/-- An effect performs at its target. -/
def performEffect (s : State) (a : Agent) (id : Nat) (w : Withheld) : State :=
  match w.eff with
  | .store _ _ _ _ _ ps => performWrite s a id w ps
  | .qpush q x eos =>
    let s := performPush s a q x eos
    s.sample a 0x04 ((s.queue q).pushed - (s.queue q).popped).toNat
  | .qpop q => performPop s q
  | .qunbind q => performQunbind s a q
  | .wadv blk n =>
    let s := performAdvance s blk n
    s.sample a 0x05 (wellFilled s blk)
  | .wcons blk n =>
    let s := performConsume s blk n
    s.sample a 0x05 (wellFilled s blk)
  | .wunbind blk prod => performWunbind s a blk prod
  | .evtSig cl k n => semSignal s cl k n
  | .evtTake cl k n => performTake s cl k n
  | .bankRel _ _ => s
  | .cpchGo cl ch desc fab => (startChannel (beforeEngine s a) a w cl ch desc fab (.start id)).dropFar a (.start id)
  | .cpchStop cl ch => modChan s cl ch (fun c => if c.st = .running then { c with stop := true } else c)
  | .phase cl steps sem => performPhase s cl steps sem
  | .rinv sc va len bar barVa bix => startRinv s a w sc va len bar barVa bix
  | .creg rk word => performCreg s rk word
  | .cerr rk ps => performCerr s a id w rk ps
  | .coll blk => enqueueRing (beforeEngine s a) a w true blk
  | .ring blk => enqueueRing (beforeEngine s a) a w false blk
  | .rsem die k add n => performRsem s die k add n
  | .stabWr entry va => (performStabWr s a w entry va (.start id)).dropFar a (.start id)
  | .stabGo entry => performGo s a entry
  | .stabStop => performStabStop s
  | .stabLink up x => performStabLink s up x
  | .stabClr => performStabClr s
  | .atom op w4 l d e ref => performAtom s a id w op w4 l d e ref
  | .arrive l i _ sc => performArrive s a w l i sc
  | .barWait sc => performBarWait s a w sc
  | .drain => performDrain s a
  | .clm obj tid n ref => performClaim s a obj tid n ref
  | .snd obj tid rq pkg away payload => performSend s a w obj tid rq pkg away payload
  | .halt => performHalt s a

/-- One cc of a release queue: at most one effect performs. A start whose bytes at a fabric address have yet to come asks for them, and performs when it has them (17 R408). -/
def performNext (s : State) (key : Nat) : State :=
  let q := s.relqs.get [] key
  match nextEffect s [] q with
  | none => s
  | some r =>
    match startAsks s r.who r.id r.w.eff with
    | some x => s.askFar r.who (.start r.id) r.w.bund x
    | none => State.settleBanks (performEffect { s with relqs := s.relqs.put [] key (q.filter (fun x => x.id != r.id)) } r.who r.id r.w) key

/-- RELEASED_EFFECT_PERFORM (06 R120). -/
def execReleasedEffectPerform (s : State) : Res :=
  evStep s (fun
    | .releasedEffectPerform a => some (.next (performNext s a.relKey))
    | _ => none)

end Sys2Proof.Machine
end

