-- ==== Sys2Proof/Machine/Errors.lean ====
section
/-!
DEFINITION. Walks ahead of an access (22 R385), evictions (17 R299), errors in stored data and their reports (17 R315; 22 R380-R382).
-/

namespace Sys2Proof.Machine

/-! ## Walks and evictions -/

/-- The access of a code of 22 R369. -/
def accOf (n : Nat) : Acc := if n = 0 then .load else if n = 1 then .store else if n = 2 then .fetch else if n = 3 then .atomic else .engRd

/-- PAGE_TABLE_WALK: a walk for an agent's access installs its translation; where it fails nothing is installed, and the access that needs the page raises the
cause of its own walk (22 R385-R387). -/
def execPageTableWalk (s : State) : Res :=
  evStep s (fun
    | .pageTableWalk who acc va => some (
      match translate s who (s.procOf who) (s.vfOf who) (accOf acc) .m va with
      | .ok (_, s) => .next s
      | .error _ => .next s)
    | _ => none)

/-- L1_EVICTION: a line leaves a core's L1, its dirty bytes written back (17 R299, R308). -/
def execL1Eviction (s : State) : Res :=
  evStep s (fun
    | .l1Eviction core key => some (.next (s.evictLine core key (.ctx core 0)))
    | _ => none)

/-! ## Errors (17 R315) -/

/-- The cluster of a memory key of a pad or a vault, or of a stack line's home. -/
def keyCluster (addr : Nat) : Nat :=
  if 2 ^ 53 ≤ addr then (addr - 2 ^ 53) / 2 ^ 27 % 64 else if 2 ^ 52 ≤ addr then (addr - 2 ^ 52) / 2 ^ 22 % 64 else homeCluster addr

/-- WHERE of a detection: the number and the part of its unit, and the address that reports show (22 R381). -/
def errorPlace (who : Agent) (unit addr : Nat) : Nat × Nat × Nat :=
  if unit = 0 then (bits addr 14 12, (Config.stackChannel addr).toNat, addr)
  else if unit = 1 then (keyCluster addr, 0, addr - 2 ^ 53)
  else if unit = 2 then (keyCluster addr, bits (addr % 2 ^ 22) 21 17, addr % 2 ^ 22)
  else if unit = 3 then (keyCluster addr, 0, addr)
  else (who.core / 8, who.core % 8, addr)

/-- The owner of an agent's access, none when no process owns it (22 R382). -/
def accessOwner (s : State) (a : Agent) : Option (Nat × Nat) := if a.onCore then some (s.vfOf a, s.procOf a) else none
/-- The bytes that a translation maps, from its physical address on (21 R352; 22 R386). -/
def mappedBytes (s : State) (e : TlbEntry) : Nat :=
  if e.pte.getLsbD 6 then 1024 * codedBytes (s.regions.get {} (e.proc * 64 + bits e.pte.toNat 13 8)).bud else 2 ^ e.size
/-- A list without its repetitions, each at its first place. -/
def firstOnly {α : Type} [DecidableEq α] (xs : List α) : List α := xs.foldl (fun (a : List α) x => if a.contains x then a else a ++ [x]) []
/-- The owners of a detection in stack memory: the access's, then those of the die's translations that map the range, by virtual function (22 R382). -/
def errorOwners (s : State) (who : Agent) (unit addr : Nat) : List (Nat × Nat) :=
  match accessOwner s who with
  | none => []
  | some o =>
    let lo := addr / 4096 * 4096
    let maps := if unit = 1 ∨ unit = 2 then [] else
      (heldEntries s who.die).filter (fun e => decide (e.pa < lo + 4096 ∧ lo < e.pa + mappedBytes s e))
    firstOnly (o :: (maps.map (fun e => (e.vf, e.proc))).mergeSort (fun a b => decide (a.1 ≤ b.1)))

/-- Mark the word of a place that an uncorrectable error hit. -/
def poisonPlace (s : State) (who : Agent) (unit addr : Nat) : State :=
  if unit < 4 then s.setPoison addr 1
  else if unit = 4 then
    s.modCore who.core (fun c =>
      let k := addr / 128
      let ln := c.l1.get {} k
      let o := addr % 128 / 8 * 8
      if ln = {} then c else { c with l1 := c.l1.put {} k { ln with bad := ln.bad ||| BitVec.ofNat 128 (0xFF * 2 ^ o) } })
  else s.modCore who.core (fun c => if c.ibad.contains (addr / 8) then c else { c with ibad := c.ibad ++ [addr / 8] })

/-- The cc from a report's first detection to its delivery (22 R380: at most 105,000; log 7). -/
def reportTime : Nat := 1024

/-- A detection joins the report of its 4 KiB range of a unit, or starts one; a range of a stack is one, whatever its channels (22 R380). -/
def addReport (s : State) (who : Agent) (unit addr : Nat) : State :=
  let p := errorPlace who unit addr
  let lo := p.2.2 / 128 * 128
  let os := errorOwners s who unit addr
  match s.reports.find? (fun r => r.2.unit == unit && r.2.num == p.1 && (unit == 0 || r.2.sub == p.2.1) && r.2.lo / 4096 == lo / 4096) with
  | some (id, r) =>
    { s with reports := s.reports.insert id { r with lo := Nat.min r.lo lo, hi := Nat.max r.hi (lo + 128), count := r.count + 1, owners := firstOnly (r.owners ++ os) } }
  | none =>
    let (id, s) := s.newId
    { s with reports := s.reports.insert id { lo := lo, hi := lo + 128, unit := unit, num := p.1, sub := p.2.1, count := 1, owners := os, who := who } }.after
      reportTime (.errorReport id)

/-- MEMORY_ERROR_DETECT: a corrected error is counted; an uncorrectable one marks its word and is reported (17 R315; 23 R394). -/
def execMemoryErrorDetect (s : State) : Res :=
  evStep s (fun
    | .memoryErrorDetect who unit addr fatal => some (
      let die := if unit = 0 then bits addr 14 13 else if unit < 4 then keyCluster addr / 16 else who.die
      if fatal then .next (addReport (poisonPlace s who unit addr) who unit addr)
      else .next (s.modDie die (fun d => { d with cec := d.cec + 1 })))
    | _ => none)

/-! ## Reports (22 R380, R381; 23 R396) -/

/-- EXT of a 0x54 notice (22 R381). -/
def reportExt (r : Report) : List Byte :=
  let os := r.owners.take 3
  toBytes 8 r.lo ++ toBytes 8 r.hi ++ toBytes 4 (r.unit + r.num * 2 ^ 3 + r.sub * 2 ^ 11) ++ toBytes 4 r.count
    ++ (List.range 3).flatMap (fun i => match os[i]? with
      | some o => toBytes 2 (o.1 + o.2 * 2 ^ 5 + 2 ^ 15)
      | none => [0, 0])
    ++ toBytes 6 (decide (3 < r.owners.length)).toNat

/-- ERROR_REPORT: the report goes to the scribe of the detecting agent's cluster, to the PF mailbox and to the mailbox of each owner (22 R380; 23 R396). -/
def execErrorReport (s : State) : Res :=
  evStep s (fun
    | .errorReport id => some (
      match s.reports.find? (fun r => r.1 == id) with
      | none => .next s
      | some (_, r) =>
        let s := { s with reports := s.reports.erase id }
        let n := { s.noticeOf r.who 0x54 3 {} with ext := reportExt r }
        let s := match r.who.cluster? with
          | some cl => s.notify { n with dest := .scribe cl }
          | none => s
        let s := s.notify { n with dest := .pf }
        .next ((firstOnly (r.owners.map (·.1))).foldl (fun (s : State) v => s.notify { n with dest := .vf v }) s))
    | _ => none)

end Sys2Proof.Machine
end

