-- ==== Sys2Proof/Machine/Notices.lean ====
section
/-!
DEFINITION. NOTICE_DELIVERY: the oldest notice raised is written to its well, ring or mailbox (22 R370, R371; 23 R396, R397).
-/

namespace Sys2Proof.Machine

/-- A notice's record (22 R371). -/
def noticeRecord (n : Notice) (seq lost : Nat) : List Byte :=
  let bs := toBytes 2 (n.cause + n.kind * 2 ^ 8) ++ [0, 0] ++ toBytes 4 seq ++ toBytes 8 n.source.toNat ++ toBytes 4 n.taskid.toNat ++ toBytes 4 lost
    ++ toBytes 8 n.bund.toNat ++ toBytes 8 n.ckpt.toNat
    ++ toBytes 8 n.det.d0.toNat ++ toBytes 8 n.det.d1.toNat ++ toBytes 8 n.det.d2.toNat ++ toBytes 8 n.det.d3.toNat ++ n.ext.take 56
  bs ++ List.replicate (128 - bs.length) 0

/-- A notice into its cluster's notice well; with no free slot it is counted (22 R370). -/
def noticeToScribe (s : State) (cl : Nat) (n : Notice) : State :=
  let key := padKey cl 0x3FBF80
  let c := s.cluster cl
  if wellSlots s key = 0 ∨ wellSlots s key ≤ wellFilled s key then s.modCluster cl (fun c => { c with lost := c.lost + 1 }) else
  let s := s.storeAt (padKey cl (pointerAddr s key % 2 ^ 22)) (noticeRecord n c.seq.toNat c.lost.toNat)
  let s := performAdvance s key 1
  (s.modCluster cl (fun c => { c with seq := c.seq + 1, lost := 0 })).sample (.scribe cl) 0x05 (wellFilled s key)

/-- A notice into a die's command-processor notice ring of 256 records in host memory (22 R370; 23 R394, R397). -/
def noticeToRing (s : State) (die : Nat) (n : Notice) : State :=
  let d := s.die die
  if !d.cpring.getLsbD 0 || decide (256 ≤ (d.cpprod - d.cpcons).toNat) then s.modDie die (fun d => { d with lost := d.lost + 1 }) else
  let s := s.storeAt (2 ^ 50 + wbits d.cpring 49 15 * 2 ^ 15 + d.cpprod.toNat % 256 * 128) (noticeRecord n d.seq.toNat d.lost.toNat)
  (s.modDie die (fun d => { d with cpprod := d.cpprod + 1, seq := d.seq + 1, lost := 0 })).send (.msix none 0)

/-- A record into a mailbox block of 64 records: the block as it is then, and where the record goes; with no room it is counted (23 R396). -/
def mailboxPut (m : Mailbox) : Mailbox × Option Nat :=
  if !m.base.getLsbD 0 || decide (64 ≤ (m.prod - m.cons).toNat) then ({ m with lost := m.lost + 1 }, none)
  else ({ m with prod := m.prod + 1, seq := m.seq + 1, lost := 0 }, some (2 ^ 50 + wbits m.base 49 13 * 2 ^ 13 + m.prod.toNat % 64 * 128))

/-- A notice into a function's mailbox: the record, PROD, then the interrupt (23 R396, R397). -/
def noticeToMailbox (s : State) (vf : Option Nat) (n : Notice) : State :=
  let m := match vf with
    | none => s.host.mbox
    | some v => s.host.vfMbox.get {} v
  let r := mailboxPut m
  let s := s.modHost (fun h => match vf with
    | none => { h with mbox := r.1 }
    | some v => { h with vfMbox := h.vfMbox.put {} v r.1 })
  match r.2 with
  | none => s
  | some a => (s.storeAt a (noticeRecord n m.seq.toNat m.lost.toNat)).send (.msix vf 0)

/-- Write a notice at its destination. -/
def deliverNotice (s : State) (n : Notice) : State :=
  match n.dest with
  | .scribe cl => noticeToScribe s cl n
  | .cpring d => noticeToRing s d n
  | .pf => noticeToMailbox s none n
  | .vf v => noticeToMailbox s (some v) n

/-- NOTICE_DELIVERY (22 R370). -/
def execNoticeDelivery (s : State) : Res :=
  evStep s (fun
    | .noticeDelivery => some (
      match s.notices with
      | n :: r => .next (deliverNotice { s with notices := r } n)
      | [] => .next s)
    | _ => none)

end Sys2Proof.Machine
end

