-- ==== Sys2Proof/Machine/Scalar.lean ====
section
/-!
DEFINITION. Meanings of the scalar integer, address and predicate families (04 R78-R83). Each leaves one result in flight, written at the
latency of its table.
-/

namespace Sys2Proof.Machine

/-- A slot whose only effect is a scalar result of latency L. -/
def scalarOp (i : Instr) (h : Hdr) (L : Nat) (d : BitVec 5) (s : State) (f : State → Word) : Res :=
  slotOp i h s (fun s => .next (s.result L [s.wS d (f s)]))

/-- Clamp an integer to the signed 64-bit range (04 R78). -/
def satS (x : Int) : Word := wordOf (clampInt (-(2 ^ 63)) (2 ^ 63 - 1) x)
/-- Clamp an integer to the unsigned 64-bit range (04 R78). -/
def satU (x : Int) : Word := wordOf (clampInt 0 (2 ^ 64 - 1) x)
/-- The low 32 bits, sign-extended (04 R78). -/
def low32s (x : Word) : Word := (x.setWidth 32).signExtend 64

/-- Population count (04 R78). -/
def popcount (n : Nat) (x : Nat) : Nat := ((List.range n).filter (fun i => bit x i)).length
/-- Leading zeros of an `n`-bit number (04 R78). -/
def clzN (n x : Nat) : Nat := if x = 0 then n else n - 1 - x.log2
/-- Trailing zeros of an `n`-bit number (04 R78). -/
def ctzN (n x : Nat) : Nat := ((List.range n).find? (fun i => bit x i)).getD n
/-- Bit reversal (04 R78). -/
def bitRev (x : Word) : Word := BitVec.ofNat 64 (packNat 1 (fun i => wbits x (63 - i) (63 - i)) 64)
/-- Byte reversal (04 R78). -/
def byteRev (x : Word) : Word := BitVec.ofNat 64 (packNat 8 (fun i => wbits x (8 * (7 - i) + 7) (8 * (7 - i))) 8)

/-- ADD (04 R78). -/
def execAdd (h : Hdr) (d a b : BitVec 5) (s : State) : Res := scalarOp (.add h d a b) h 1 d s (fun s => s.rs a + s.rs b)
/-- ADD.SS (04 R78). -/
def execAddSs (h : Hdr) (d a b : BitVec 5) (s : State) : Res :=
  scalarOp (.addSs h d a b) h 1 d s (fun s => satS ((s.rs a).toInt + (s.rs b).toInt))
/-- ADD.US (04 R78). -/
def execAddUs (h : Hdr) (d a b : BitVec 5) (s : State) : Res :=
  scalarOp (.addUs h d a b) h 1 d s (fun s => satU ((s.rs a).toNat + (s.rs b).toNat))
/-- ADD.W (04 R78). -/
def execAddW (h : Hdr) (d a b : BitVec 5) (s : State) : Res := scalarOp (.addW h d a b) h 1 d s (fun s => low32s (s.rs a + s.rs b))
/-- SUB (04 R78). -/
def execSub (h : Hdr) (d a b : BitVec 5) (s : State) : Res := scalarOp (.sub h d a b) h 1 d s (fun s => s.rs a - s.rs b)
/-- SUB.SS (04 R78). -/
def execSubSs (h : Hdr) (d a b : BitVec 5) (s : State) : Res :=
  scalarOp (.subSs h d a b) h 1 d s (fun s => satS ((s.rs a).toInt - (s.rs b).toInt))
/-- SUB.US (04 R78). -/
def execSubUs (h : Hdr) (d a b : BitVec 5) (s : State) : Res :=
  scalarOp (.subUs h d a b) h 1 d s (fun s => satU (((s.rs a).toNat : Int) - (s.rs b).toNat))
/-- SUB.W (04 R78). -/
def execSubW (h : Hdr) (d a b : BitVec 5) (s : State) : Res := scalarOp (.subW h d a b) h 1 d s (fun s => low32s (s.rs a - s.rs b))
/-- ADDI (04 R78). -/
def execAddi (h : Hdr) (d a : BitVec 5) (imm : BitVec 10) (s : State) : Res :=
  scalarOp (.addi h d a imm) h 1 d s (fun s => s.rs a + imm10 imm)
/-- MUL (04 R78). -/
def execMul (h : Hdr) (d a b : BitVec 5) (s : State) : Res := scalarOp (.mul h d a b) h 3 d s (fun s => s.rs a * s.rs b)
/-- MULH (04 R78). -/
def execMulh (h : Hdr) (d a b : BitVec 5) (s : State) : Res :=
  scalarOp (.mulh h d a b) h 3 d s (fun s => wordOf ((s.rs a).toInt * (s.rs b).toInt / 2 ^ 64))
/-- MULH.U (04 R78). -/
def execMulhU (h : Hdr) (d a b : BitVec 5) (s : State) : Res :=
  scalarOp (.mulhU h d a b) h 3 d s (fun s => BitVec.ofNat 64 ((s.rs a).toNat * (s.rs b).toNat / 2 ^ 64))

/-- A division: a zero divisor traps (04 R79). -/
def divOp (i : Instr) (h : Hdr) (d b : BitVec 5) (s : State) (f : State → Word) : Res :=
  slotOp i h s (fun s => if s.rs b = 0 then trapAt s 0x15 else .next (s.result 24 [s.wS d (f s)]))
/-- DIV (04 R79). -/
def execDiv (h : Hdr) (d a b : BitVec 5) (s : State) : Res :=
  divOp (.div h d a b) h d b s (fun s => wordOf ((s.rs a).toInt.tdiv (s.rs b).toInt))
/-- DIV.U (04 R79). -/
def execDivU (h : Hdr) (d a b : BitVec 5) (s : State) : Res :=
  divOp (.divU h d a b) h d b s (fun s => BitVec.ofNat 64 ((s.rs a).toNat / (s.rs b).toNat))
/-- DIV.REM (04 R79). -/
def execDivRem (h : Hdr) (d a b : BitVec 5) (s : State) : Res :=
  divOp (.divRem h d a b) h d b s (fun s => wordOf ((s.rs a).toInt.tmod (s.rs b).toInt))
/-- DIV.U.REM (04 R79). -/
def execDivURem (h : Hdr) (d a b : BitVec 5) (s : State) : Res :=
  divOp (.divURem h d a b) h d b s (fun s => BitVec.ofNat 64 ((s.rs a).toNat % (s.rs b).toNat))

/-- AND (04 R78). -/
def execAnd (h : Hdr) (d a b : BitVec 5) (s : State) : Res := scalarOp (.and h d a b) h 1 d s (fun s => s.rs a &&& s.rs b)
/-- OR (04 R78). -/
def execOr (h : Hdr) (d a b : BitVec 5) (s : State) : Res := scalarOp (.or h d a b) h 1 d s (fun s => s.rs a ||| s.rs b)
/-- XOR (04 R78). -/
def execXor (h : Hdr) (d a b : BitVec 5) (s : State) : Res := scalarOp (.xor h d a b) h 1 d s (fun s => s.rs a ^^^ s.rs b)
/-- ANDN (04 R78). -/
def execAndn (h : Hdr) (d a b : BitVec 5) (s : State) : Res := scalarOp (.andn h d a b) h 1 d s (fun s => s.rs a &&& ~~~(s.rs b))
/-- ORN (04 R78). -/
def execOrn (h : Hdr) (d a b : BitVec 5) (s : State) : Res := scalarOp (.orn h d a b) h 1 d s (fun s => s.rs a ||| ~~~(s.rs b))
/-- XNOR (04 R78). -/
def execXnor (h : Hdr) (d a b : BitVec 5) (s : State) : Res := scalarOp (.xnor h d a b) h 1 d s (fun s => ~~~(s.rs a ^^^ s.rs b))

/-- A shift count: the low six bits (04 R78). -/
def shCount (x : Word) : Nat := wbits x 5 0
/-- SHL (04 R78). -/
def execShl (h : Hdr) (d a b : BitVec 5) (s : State) : Res := scalarOp (.shl h d a b) h 1 d s (fun s => s.rs a <<< shCount (s.rs b))
/-- SHR (04 R78). -/
def execShr (h : Hdr) (d a b : BitVec 5) (s : State) : Res := scalarOp (.shr h d a b) h 1 d s (fun s => s.rs a >>> shCount (s.rs b))
/-- SAR (04 R78). -/
def execSar (h : Hdr) (d a b : BitVec 5) (s : State) : Res :=
  scalarOp (.sar h d a b) h 1 d s (fun s => (s.rs a).sshiftRight (shCount (s.rs b)))
/-- ROR (04 R78). -/
def execRor (h : Hdr) (d a b : BitVec 5) (s : State) : Res :=
  scalarOp (.ror h d a b) h 1 d s (fun s => (s.rs a).rotateRight (shCount (s.rs b)))
/-- SHLI (04 R78). -/
def execShli (h : Hdr) (d a : BitVec 5) (n : BitVec 6) (s : State) : Res := scalarOp (.shli h d a n) h 1 d s (fun s => s.rs a <<< n.toNat)
/-- SHRI (04 R78). -/
def execShri (h : Hdr) (d a : BitVec 5) (n : BitVec 6) (s : State) : Res := scalarOp (.shri h d a n) h 1 d s (fun s => s.rs a >>> n.toNat)
/-- SARI (04 R78). -/
def execSari (h : Hdr) (d a : BitVec 5) (n : BitVec 6) (s : State) : Res :=
  scalarOp (.sari h d a n) h 1 d s (fun s => (s.rs a).sshiftRight n.toNat)
/-- RORI (04 R78). -/
def execRori (h : Hdr) (d a : BitVec 5) (n : BitVec 6) (s : State) : Res :=
  scalarOp (.rori h d a n) h 1 d s (fun s => (s.rs a).rotateRight n.toNat)

/-- MIN (04 R78). -/
def execMin (h : Hdr) (d a b : BitVec 5) (s : State) : Res :=
  scalarOp (.min h d a b) h 1 d s (fun s => if (s.rs b).slt (s.rs a) then s.rs b else s.rs a)
/-- MAX (04 R78). -/
def execMax (h : Hdr) (d a b : BitVec 5) (s : State) : Res :=
  scalarOp (.max h d a b) h 1 d s (fun s => if (s.rs a).slt (s.rs b) then s.rs b else s.rs a)
/-- MINU (04 R78). -/
def execMinu (h : Hdr) (d a b : BitVec 5) (s : State) : Res :=
  scalarOp (.minu h d a b) h 1 d s (fun s => if (s.rs b).ult (s.rs a) then s.rs b else s.rs a)
/-- MAXU (04 R78). -/
def execMaxu (h : Hdr) (d a b : BitVec 5) (s : State) : Res :=
  scalarOp (.maxu h d a b) h 1 d s (fun s => if (s.rs a).ult (s.rs b) then s.rs b else s.rs a)

/-- POPC (04 R78). -/
def execPopc (h : Hdr) (d a : BitVec 5) (s : State) : Res :=
  scalarOp (.popc h d a) h 2 d s (fun s => BitVec.ofNat 64 (popcount 64 (s.rs a).toNat))
/-- CLZ (04 R78). -/
def execClz (h : Hdr) (d a : BitVec 5) (s : State) : Res :=
  scalarOp (.clz h d a) h 2 d s (fun s => BitVec.ofNat 64 (clzN 64 (s.rs a).toNat))
/-- CTZ (04 R78). -/
def execCtz (h : Hdr) (d a : BitVec 5) (s : State) : Res :=
  scalarOp (.ctz h d a) h 2 d s (fun s => BitVec.ofNat 64 (ctzN 64 (s.rs a).toNat))
/-- BITREV (04 R78). -/
def execBitrev (h : Hdr) (d a : BitVec 5) (s : State) : Res := scalarOp (.bitrev h d a) h 2 d s (fun s => bitRev (s.rs a))
/-- BYTEREV (04 R78). -/
def execByterev (h : Hdr) (d a : BitVec 5) (s : State) : Res := scalarOp (.byterev h d a) h 2 d s (fun s => byteRev (s.rs a))
/-- FLD (04 R80). -/
def execFld (h : Hdr) (d a : BitVec 5) (ins sg : Bool) (sz : BitVec 2) (pos : BitVec 6) (s : State) : Res :=
  scalarOp (.fld h d a ins sg sz pos) h 1 d s (fun s => fldValue (s.rs a) (s.rs d) ins sg sz pos)
/-- MOVI (04 R78). -/
def execMovi (h : Hdr) (d : BitVec 5) (imm : BitVec 15) (s : State) : Res := scalarOp (.movi h d imm) h 1 d s (fun _ => imm15 imm)
/-- MOVHI (04 R78). -/
def execMovhi (h : Hdr) (d : BitVec 5) (imm : BitVec 15) (s : State) : Res :=
  scalarOp (.movhi h d imm) h 1 d s (fun s => (s.rs d <<< 15) ||| imm.setWidth 64)
/-- LEA (04 R78). -/
def execLea (h : Hdr) (d a b : BitVec 5) (sh : BitVec 3) (s : State) : Res :=
  scalarOp (.lea h d a b sh) h 1 d s (fun s => s.rs a + (s.rs b <<< sh.toNat))
/-- SEL (04 R78). -/
def execSel (h : Hdr) (d a b : BitVec 5) (p : BitVec 4) (s : State) : Res :=
  scalarOp (.sel h d a b p) h 1 d s (fun s => if s.rf p then s.rs a else s.rs b)

/-- CMP (04 R81). -/
def execCmp (h : Hdr) (fd : BitVec 4) (a b : BitVec 5) (cc : BitVec 4) (pw : Bool) (s : State) : Res :=
  slotOp (.cmp h fd a b cc pw) h s (fun s => .next (s.result 1 (predWrites s fd pw (intCond cc (s.rs a) (s.rs b)))))
/-- CMPI (04 R81). -/
def execCmpi (h : Hdr) (fd : BitVec 4) (a : BitVec 5) (cc : BitVec 4) (pw : Bool) (imm : BitVec 6) (s : State) : Res :=
  slotOp (.cmpi h fd a cc pw imm) h s (fun s => .next (s.result 1 (predWrites s fd pw (intCond cc (s.rs a) (imm6 imm)))))
/-- PLOG (04 R82). -/
def execPlog (h : Hdr) (fd a b : BitVec 4) (tt : BitVec 4) (pw mkx : Bool) (s : State) : Res :=
  slotOp (.plog h fd a b tt pw mkx) h s (fun s =>
    if mkx then
      let x := s.rm a
      let y := s.rm b
      .next (s.result 1 [s.wM fd (ofMask (fun i => truthTable tt (x.getLsbD i) (y.getLsbD i)))])
    else .next (s.result 1 (predWrites s fd pw (truthTable tt (s.rf a) (s.rf b)))))
/-- PMOV's test (04 R83). -/
def pmovTest (s : State) (a : BitVec 5) (cc : BitVec 4) : Bool :=
  match cc.toNat with
  | 0 => s.rf (a.setWidth 4)
  | 1 => !s.rf (a.setWidth 4)
  | 2 => s.rs a != 0
  | 3 => s.rs a == 0
  | _ => (s.rs a).getLsbD 63
/-- PMOV (04 R83). -/
def execPmov (h : Hdr) (fd : BitVec 4) (a : BitVec 5) (cc : BitVec 4) (pw : Bool) (s : State) : Res :=
  slotOp (.pmov h fd a cc pw) h s (fun s => .next (s.result 1 (predWrites s fd pw (pmovTest s a cc))))

end Sys2Proof.Machine
end

