-- ==== Sys2Proof/Machine/ScalarFloat.lean ====
section
/-!
DEFINITION. Meanings of scalar floating point (04 R84, R85) and of the special registers (04 R86, R87).
-/

namespace Sys2Proof.Machine

/-- The scalar format of P: FP32 or FP64 (04 R84). -/
def sfFmt (dbl : Bool) : FpFmt := if dbl then f64 else f32
/-- A scalar register as a value: FP32 from bits [31:0] (04 R84). -/
def sfVal (dbl : Bool) (x : Word) : FVal := (sfFmt dbl).decode (x.toNat % 2 ^ (sfFmt dbl).width)
/-- The rounding of RZ (04 R84). -/
def sfRnd (rz : Bool) : Rnd := if rz then .tz else .ne
/-- A result rounded into the format, zero-extended (04 R84). -/
def sfOut (dbl : Bool) (r : Rnd) (x : FVal) : Word := BitVec.ofNat 64 ((sfFmt dbl).round r 0 x)

/-- A two-operand scalar operation (04 R84). -/
def sfOp (i : Instr) (h : Hdr) (d a b : BitVec 5) (rz dbl : Bool) (s : State) (f : FVal → FVal → FVal) : Res :=
  scalarOp i h 4 d s (fun s => sfOut dbl (sfRnd rz) (f (sfVal dbl (s.rs a)) (sfVal dbl (s.rs b))))

/-- FADD (04 R84). -/
def execFadd (h : Hdr) (d a b : BitVec 5) (rz dbl : Bool) (s : State) : Res := sfOp (.fadd h d a b rz dbl) h d a b rz dbl s (FVal.add false)
/-- FSUB (04 R84). -/
def execFsub (h : Hdr) (d a b : BitVec 5) (rz dbl : Bool) (s : State) : Res := sfOp (.fsub h d a b rz dbl) h d a b rz dbl s (FVal.sub false)
/-- FMUL (04 R84). -/
def execFmul (h : Hdr) (d a b : BitVec 5) (rz dbl : Bool) (s : State) : Res := sfOp (.fmul h d a b rz dbl) h d a b rz dbl s FVal.mul
/-- FFMA (04 R84). -/
def execFfma (h : Hdr) (d a b : BitVec 5) (rz dbl : Bool) (s : State) : Res :=
  scalarOp (.ffma h d a b rz dbl) h 4 d s (fun s =>
    sfOut dbl (sfRnd rz) (FVal.fma false (sfVal dbl (s.rs a)) (sfVal dbl (s.rs b)) (sfVal dbl (s.rs d))))
/-- FMIN (04 R84). -/
def execFmin (h : Hdr) (d a b : BitVec 5) (rz dbl : Bool) (s : State) : Res := sfOp (.fmin h d a b rz dbl) h d a b rz dbl s FVal.min
/-- FMAX (04 R84). -/
def execFmax (h : Hdr) (d a b : BitVec 5) (rz dbl : Bool) (s : State) : Res := sfOp (.fmax h d a b rz dbl) h d a b rz dbl s FVal.max

/-- FCMP (04 R85). -/
def execFcmp (h : Hdr) (fd : BitVec 4) (a b : BitVec 5) (dbl : Bool) (cc : BitVec 3) (pw : Bool) (s : State) : Res :=
  slotOp (.fcmp h fd a b dbl cc pw) h s (fun s =>
    .next (s.result 2 (predWrites s fd pw (fpCond cc (sfVal dbl (s.rs a)) (sfVal dbl (s.rs b))))))
/-- FICVT (04 R85). -/
def execFicvt (h : Hdr) (d : BitVec 4) (a : BitVec 5) (dbl : Bool) (s : State) : Res :=
  scalarOp (.ficvt h d a dbl) h 4 (d.setWidth 5) s (fun s => sfOut dbl .ne (FVal.ofInt (s.rs a).toInt))
/-- FCVTI (04 R85). -/
def execFcvti (h : Hdr) (d : BitVec 4) (a : BitVec 5) (dbl : Bool) (s : State) : Res :=
  scalarOp (.fcvti h d a dbl) h 4 (d.setWidth 5) s (fun s =>
    wordOf ((sfVal dbl (s.rs a)).toIntSat .tz 0 (-(2 ^ 63)) (2 ^ 63 - 1)).1)
/-- FWIDEN (04 R85). -/
def execFwiden (h : Hdr) (d : BitVec 4) (a : BitVec 5) (s : State) : Res :=
  scalarOp (.fwiden h d a) h 4 (d.setWidth 5) s (fun s => sfOut true .ne (sfVal false (s.rs a)))
/-- FNARROW (04 R85). -/
def execFnarrow (h : Hdr) (d : BitVec 4) (a : BitVec 5) (s : State) : Res :=
  scalarOp (.fnarrow h d a) h 4 (d.setWidth 5) s (fun s => sfOut false .ne (sfVal true (s.rs a)))

/-! ## Special registers (04 R86, R87) -/

/-- %panes: the logical panes granted to a context (04 R86; 09 R172). -/
def panesWord (c : Ctx) : Nat := packNat 1 (fun p => ((c.panes.getD p none).isSome).toNat) 4

/-- The IDX of a loop level, level 0 the oldest; 0 when not present (04 R71). -/
def loopIdx (c : Ctl) (k : Nat) : BitVec 64 := ((c.loops.reverse[k]?).map (·.idx)).getD 0
/-- A return-store entry, 0 the most recent; 0 beyond the depth (04 R69). -/
def rasEntry (c : Ctl) (k : Nat) : BitVec 64 := ((c.rets[k]?).map (·.setWidth 64)).getD 0

/-- The value of special register `n` of an agent (04 R86). A scribe or command processor, which is no context of a core, reads 0 in %core and %ctx, a command
processor in %clu too (log 76). -/
def readSr (s : State) (a : Agent) (n : BitVec 10) : Word :=
  let c := s.ctx a
  let r := c.live.c
  let k := n.toNat
  if k < 8 then (r.lc.getD k 0).setWidth 64
  else if k = 0x008 then r.rot.setWidth 64
  else if k = 0x009 then c.icyc.setWidth 64
  else if k = 0x00A then c.frz.setWidth 64
  else if k = 0x00B then BitVec.ofNat 64 (panesWord c)
  else if k = 0x00C then BitVec.ofNat 64 a.ctxNo
  else if k = 0x00D then BitVec.ofNat 64 a.core
  else if k = 0x00E then BitVec.ofNat 64 (a.cluster?.getD 0)
  else if k = 0x00F then BitVec.ofNat 64 a.die
  else if k = 0x010 then s.pkgid.setWidth 64
  else if k = 0x011 then BitVec.ofNat 64 (s.vfOf a)
  else if k = 0x012 then r.seed
  else if 0x018 ≤ k ∧ k ≤ 0x01D then loopIdx r (k - 0x018)
  else if 0x020 ≤ k ∧ k ≤ 0x02F then rasEntry r (k - 0x020)
  else if k = 0x030 then c.tcause.setWidth 64
  else if k = 0x031 then c.tbund.setWidth 64
  else if k = 0x032 then c.tckpt.setWidth 64
  else if k = 0x034 then c.tdet.d0
  else if k = 0x035 then c.tdet.d1
  else if k = 0x036 then c.tdet.d2
  else if k = 0x037 then c.tdet.d3
  else 0

/-- The counters and trap registers after a write of special register `n` (04 R86). -/
def writeTrapSr (c : Ctx) (n : BitVec 10) (x : Word) : Ctx :=
  let k := n.toNat
  if k = 0x00A then { c with frz := x.setWidth 48 }
  else if k = 0x030 then { c with tcause := x.setWidth 7 }
  else if k = 0x031 then { c with tbund := x.setWidth 57 }
  else if k = 0x032 then { c with tckpt := x.setWidth 57 }
  else if k = 0x034 then { c with tdet := { c.tdet with d0 := x } }
  else if k = 0x035 then { c with tdet := { c.tdet with d1 := x } }
  else if k = 0x036 then { c with tdet := { c.tdet with d2 := x } }
  else if k = 0x037 then { c with tdet := { c.tdet with d3 := x } }
  else c

/-- RDSR (04 R87). -/
def execRdsr (h : Hdr) (d : BitVec 5) (num : BitVec 10) (s : State) : Res :=
  scalarOp (.rdsr h d num) h 1 d s (fun s => readSr s s.who num)
/-- Whether a special register of a context is there to be written: a loop level that is present, a return-store entry within the depth (04 R87). -/
def ctlPresent (c : Ctl) (n : BitVec 10) : Bool :=
  let k := n.toNat
  if 0x018 ≤ k ∧ k ≤ 0x01D then decide (k - 0x018 < c.loops.length)
  else if 0x020 ≤ k ∧ k ≤ 0x02F then decide (k - 0x020 < c.rets.length)
  else true
/-- WRSR (04 R87): the new value is seen by later bundles, and prevails over what the lead slot of its bundle leaves in the register (04 R66). -/
def execWrsr (h : Hdr) (a : BitVec 5) (num : BitVec 10) (s : State) : Res :=
  slotOp (.wrsr h a num) h s (fun s =>
    let x := s.rs a
    let s := s.modStage (fun c => writeCtl c num x)
    let s := s.modMe (fun c => writeTrapSr c num x)
    .next (if ctlPresent s.regs.c num then { s with srs := s.srs ++ [(num, x)] } else s))

end Sys2Proof.Machine
end

