-- ==== Sys2Proof/Machine/Context.lean ====
section
/-!
DEFINITION. Meanings of the system families CTX, TRET, TLBI, MON, WSW, DBG and CFG (15 R288-R296; 22 R388; 23 R405), and the start of a scribe (14 R249).
They act at issue.
-/

namespace Sys2Proof.Machine

/-! ## Targets (15 R288) -/

/-- Whether an agent is a command processor. -/
def isCp : Agent → Bool
  | .cp _ => true
  | _ => false

/-- The package cluster that a target or selector word names in four bits from `lo` up; none where a scribe names one (15 R288). -/
def clusterField (s : State) (w : Word) (lo : Nat) : Option Nat :=
  match s.who with
  | .cp d => some (16 * d + wbits w (lo + 3) lo)
  | x => if wbits w (lo + 3) lo = 0 then some (x.cluster?.getD 0) else none

/-- The context that a target word names, its bits from `top` up being reserved (15 R288). -/
def targetOf (s : State) (w : Word) (top : Nat := 10) : Option Agent :=
  if wbits w 63 top ≠ 0 then none else (clusterField s w 6).map (fun cl => .ctx (8 * cl + wbits w 5 3) (wbits w 2 0))

/-- An operation on a target context: a reserved bit of its word traps. -/
def onTarget (s : State) (w : Word) (k : Agent → Res) : Res :=
  match targetOf s w with
  | some a => k a
  | none => badOperand s w

/-- Cause 0x78: the target is in the wrong state (15 R288-R296). -/
def wrongState (s : State) (w : Word) : Res := trapAt s 0x78 0 w

/-- The latency of CTX's read (15 R270). -/
def ctxLatency (s : State) : Nat := if isCp s.who then 16 else 4

/-! ## CTX (15 R289) -/

/-- The number of a context state (14 R256). -/
def CtxSt.code : CtxSt → Nat
  | .free => 0 | .waiting => 1 | .front => 2 | .stopped => 3 | .halted => 4
/-- The number of a label (15 R289). -/
def Label.code : Label → Nat
  | .b => 0 | .c => 1 | .m => 2
/-- The number of a loop kind (04 R71). -/
def LoopKind.code : LoopKind → Nat
  | .counted => 0 | .pipelined => 1 | .stream => 2
/-- The loop kind of a number. -/
def LoopKind.ofCode (n : Nat) : LoopKind := if n = 0 then .counted else if n = 1 then .pipelined else .stream

/-- Loop level `k` of a control set, level 0 the outermost (04 R86). -/
def loopAt (c : Ctl) (k : Nat) : Option Level := c.loops.reverse[k]?
/-- A field of a loop level (15 R289). -/
def levelField (l : Level) (f : Nat) : Word :=
  match f with
  | 0 => BitVec.ofNat 64 l.kind.code
  | 1 => l.kc
  | 2 => l.ec
  | 3 => l.idx
  | 4 => l.start
  | 5 => l.fin
  | 6 => l.head.setWidth 64
  | _ => BitVec.ofNat 64 l.done.toNat
/-- A loop level with a field written (15 R289). -/
def setLevelField (l : Level) (f : Nat) (x : Word) : Level :=
  match f with
  | 0 => { l with kind := .ofCode (wbits x 1 0) }
  | 1 => { l with kc := x }
  | 2 => { l with ec := x }
  | 3 => { l with idx := x }
  | 4 => { l with start := x }
  | 5 => { l with fin := x }
  | 6 => { l with head := x.setWidth 2 }
  | _ => { l with done := x.getLsbD 0 }
/-- Whether an INDEX names a loop level's field or the depth (15 R289). -/
def loopIndexOk (i : Nat) : Bool := i == 0xFFF || decide (i < 64 ∧ i % 8 < 6)

/-- Whether a FILE and INDEX lie in the table (15 R289; 04 R86). -/
def ctxIndexOk (f i : Nat) : Bool :=
  match f with
  | 0 => decide (i < 32)
  | 1 => decide (i < 16)
  | 2 => true
  | 3 => decide (i < 32)
  | 4 => decide (i < 1024) && srAssigned (BitVec.ofNat 10 i)
  | 5 => loopIndexOk i
  | 6 => decide (i ≤ 16)
  | 7 => decide (i < 4)
  | _ => false

/-- The item of a context that FILE and INDEX name (15 R289). -/
def ctxItem (s : State) (a : Agent) (f i : Nat) : Word :=
  let c := s.ctx a
  let r := c.live
  match f with
  | 0 => r.getS (BitVec.ofNat 5 i)
  | 1 => BitVec.ofNat 64 (r.getF (BitVec.ofNat 4 i)).toNat
  | 2 => (lane (r.getV (BitVec.ofNat 5 (i / 128))) (i % 128)).setWidth 64
  | 3 => (r.getM (BitVec.ofNat 4 (i / 2))).extractLsb' (64 * (i % 2)) 64
  | 4 => readSr s a (BitVec.ofNat 10 i)
  | 5 => if i = 0xFFF then BitVec.ofNat 64 r.c.loops.length else ((loopAt r.c (i % 8)).map (fun l => levelField l (i / 8))).getD 0
  | 6 => if i = 16 then BitVec.ofNat 64 r.c.rets.length else rasEntry r.c i
  | _ =>
    if i = 0 then BitVec.ofNat 64 c.st.code
    else if i = 1 then BitVec.ofNat 64 ((c.task.map (fun t => (s.task t).clock)).getD 0)
    else if i = 2 then (s.taskidOf a).setWidth 64
    else BitVec.ofNat 64 c.label.code

/-- A list of the innermost first with a new depth: a lower one discards outer entries, a higher one adds zero entries (15 R289). -/
def setDepth {α : Type} (xs : List α) (zero : α) (n : Nat) : List α := xs.take n ++ List.replicate (n - xs.length) zero

/-- Replace half a mask (15 R289). -/
def setMaskHalf (m : Mask) (hi : Bool) (x : Word) : Mask :=
  if hi then BitVec.ofNat 128 (m.toNat % 2 ^ 64 + x.toNat * 2 ^ 64) else BitVec.ofNat 128 (m.toNat / 2 ^ 64 * 2 ^ 64 + x.toNat)
/-- Replace a lane. -/
def setLane (v : VReg) (n : Nat) (x : BitVec 32) : VReg := ofLanes (fun i => if i = n then x else lane v i)

/-- A context with an item written (15 R289). -/
def putCtxItem (c : Ctx) (f i : Nat) (x : Word) : Ctx :=
  let r := c.live
  let ctl := fun (g : Ctl → Ctl) => { c with live := { r with c := g r.c } }
  match f with
  | 0 => { c with live := r.put (.s (BitVec.ofNat 5 i) x) }
  | 1 => { c with live := r.put (.f (BitVec.ofNat 4 i) (x.getLsbD 0)) }
  | 2 => let n : BitVec 5 := BitVec.ofNat 5 (i / 128)
         { c with live := r.put (.v n (setLane (r.getV n) (i % 128) (x.setWidth 32))) }
  | 3 => let n : BitVec 4 := BitVec.ofNat 4 (i / 2)
         { c with live := r.put (.m n (setMaskHalf (r.getM n) (i % 2 == 1) x)) }
  | 4 => writeTrapSr (ctl (fun k => writeCtl k (BitVec.ofNat 10 i) x)) (BitVec.ofNat 10 i) x
  | 5 => ctl (fun k =>
      if i = 0xFFF then { k with loops := setDepth k.loops {} x.toNat }
      else if i % 8 < k.loops.length then { k with loops := k.loops.modify (k.loops.length - 1 - i % 8) (fun l => setLevelField l (i / 8) x) } else k)
  | 6 => ctl (fun k => if i = 16 then { k with rets := setDepth k.rets 0 x.toNat } else setRas k i x)
  | _ => c

/-- Whether a value may be written to an item: a depth within its stack, a loop kind that exists (15 R289; 04 R69, R71). -/
def ctxValueOk (f i : Nat) (x : Word) : Bool :=
  if f = 5 ∧ i = 0xFFF then decide (x.toNat ≤ 6)
  else if f = 6 ∧ i = 16 then decide (x.toNat ≤ 16)
  else if f = 5 ∧ i / 8 = 0 then decide (x.toNat ≤ 2)
  else true

/-- CTX rd (15 R289). -/
def execCtxRd (h : Hdr) (d a b : BitVec 5) (s : State) : Res :=
  slotOp (.ctxRd h d a b) h s (fun s =>
    onTarget s (s.rs a) (fun t =>
      let x := s.rs b
      let f := wbits x 15 12
      let i := wbits x 11 0
      if wbits x 63 16 ≠ 0 ∨ !ctxIndexOk f i then badOperand s x
      else .next (s.result (ctxLatency s) [s.wS d (ctxItem s t f i)])))
/-- CTX wr (15 R289). -/
def execCtxWr (h : Hdr) (d a b : BitVec 5) (s : State) : Res :=
  slotOp (.ctxWr h d a b) h s (fun s =>
    onTarget s (s.rs a) (fun t =>
      let x := s.rs b
      let f := wbits x 15 12
      let i := wbits x 11 0
      if wbits x 63 16 ≠ 0 ∨ !ctxIndexOk f i ∨ f = 7 ∨ (f = 4 ∧ srWriteDenied false (BitVec.ofNat 10 i)) then badOperand s x
      else if !ctxValueOk f i (s.rs d) then badOperand s (s.rs d)
      else if (s.ctx t).st ≠ .stopped then wrongState s (s.rs a)
      else .next (s.modCtx t (fun c => putCtxItem c f i (s.rs d)))))

/-! ## TRET and DBG (15 R291, R295; 22 R373, R388) -/

/-- TRET (15 R291). -/
def execTret (h : Hdr) (a : BitVec 5) (s : State) : Res :=
  slotOp (.tret h a) h s (fun s =>
    onTarget s (s.rs a) (fun t =>
      if (s.ctx t).st ≠ .stopped then wrongState s (s.rs a) else .next (s.resume t)))
/-- DBG step: the target passes one boundary (15 R295; 22 R388). -/
def execDbgStep (h : Hdr) (a : BitVec 5) (s : State) : Res :=
  slotOp (.dbgStep h a) h s (fun s =>
    onTarget s (s.rs a) (fun t =>
      if (s.ctx t).st ≠ .stopped then wrongState s (s.rs a)
      else .next ((s.resume t).modCtx t (fun c => { c with step := true }))))
/-- Whether a context runs: it waits for a front position or holds one (14 R256). -/
def running (s : State) (a : Agent) : Bool := decide ((s.ctx a).st = .waiting ∨ (s.ctx a).st = .front)
/-- Ask a context to stop at its next boundary; an earlier request stands (22 R366). One that waits for a front position stands at a boundary: it stops in this cc,
or takes the cause that has arrived for it (15 R294; 22 R367; log 69). -/
def requestStop (s : State) (a : Agent) (cause : Nat) (x : BitVec 64) : State :=
  let c := s.ctx a
  let s := s.modCtx a (fun c => { c with stopReq := c.stopReq.or (some (cause, x)) })
  if c.st ≠ .waiting then s
  else s.at_ s.cc (if c.pendHeld.isSome ∨ c.pend.any (causeDue s.cc) then .deferredTrap a else .boundaryStop a)
/-- DBG stop (15 R295). -/
def execDbgStop (h : Hdr) (a : BitVec 5) (s : State) : Res :=
  slotOp (.dbgStop h a) h s (fun s =>
    onTarget s (s.rs a) (fun t =>
      if !running s t then wrongState s (s.rs a) else .next (requestStop s t 0x72 0x2000)))
/-- DBG brk (15 R295). -/
def execDbgBrk (h : Hdr) (a b : BitVec 5) (s : State) : Res :=
  slotOp (.dbgBrk h a b) h s (fun s =>
    let w := s.rs a
    match targetOf s w 11 with
    | none => badOperand s w
    | some t =>
      let x := s.rs b
      if x.getLsbD 1 ∨ wbits x 63 57 ≠ 0 then badOperand s x
      else .next (s.modCtx t (fun c => { c with brk := c.brk.setIfInBounds (wbits w 10 10) x })))

/-! ## TLBI (15 R292) -/

/-- The dies whose TLBs a TLBI invalidates. -/
def tlbiDies (s : State) (pkg : Bool) : List Nat := if pkg then List.range 4 else [s.who.die]
/-- Forget the translations and the pointer entries that satisfy a test, once the walks that ran when the slot began to wait have ended (15 R292). -/
def forgetTlb (s : State) (pkg : Bool) (p : TlbEntry → Bool) (q : WalkNode → Bool) : Res :=
  if (tlbiDies s pkg).any (walkRuns s (s.cc - waitCount s.me.waits s.pos)) then .next (s.hold {}) else .next ((tlbiDies s pkg).foldl (fun s d => forgetOn s p q d) s)
/-- TLBI all (15 R292). -/
def execTlbiAll (h : Hdr) (pkg : Bool) (s : State) : Res :=
  slotOp (.tlbiAll h pkg) h s (fun s => forgetTlb s pkg (fun _ => true) (fun _ => true))
/-- TLBI vf (15 R292). -/
def execTlbiVf (h : Hdr) (a : BitVec 5) (pkg : Bool) (s : State) : Res :=
  slotOp (.tlbiVf h a pkg) h s (fun s =>
    let w := s.rs a
    if wbits w 63 5 ≠ 0 then badOperand s w else forgetTlb s pkg (fun e => e.vf == wbits w 4 0) (fun n => n.vf == wbits w 4 0))
/-- TLBI pg (15 R292). -/
def execTlbiPg (h : Hdr) (a b : BitVec 5) (pkg : Bool) (s : State) : Res :=
  slotOp (.tlbiPg h a b pkg) h s (fun s =>
    let w := s.rs a
    let va := (s.rs b).toNat % 2 ^ 57
    if wbits w 63 5 ≠ 0 then badOperand s w
    else forgetTlb s pkg (fun e => e.vf == wbits w 4 0 && e.page == va / 2 ^ e.size)
      (fun n => n.vf == wbits w 4 0 && n.path == va / 2 ^ (55 - 13 * n.level)))

/-! ## MON (15 R293; 23 R405) -/

/-- A selected counter: a core's or a die's (15 R293). -/
inductive MonSel where
  | core (n k : Nat)
  | die (n k : Nat)
  deriving DecidableEq, Repr

/-- The counter that a selector names (15 R293). -/
def monSel (s : State) (w : Word) : Option MonSel :=
  if wbits w 63 16 ≠ 0 then none else
  (clusterField s w 12).bind (fun cl =>
    let k := wbits w 3 0
    if w.getLsbD 4 then some (.die s.who.die k)
    else if k < 4 then some (.core (8 * cl + wbits w 7 5) k) else none)
/-- A selected counter's value. -/
def counterAt (s : State) : MonSel → Counter
  | .core n k => (s.core n).mon.getD k {}
  | .die n k => (s.die n).mon.getD k {}
/-- Replace a selected counter. -/
def setCounter (s : State) (m : MonSel) (c : Counter) : State :=
  match m with
  | .core n k => s.modCore n (fun x => { x with mon := x.mon.setIfInBounds k c })
  | .die n k => s.modDie n (fun x => { x with mon := x.mon.setIfInBounds k c })
/-- A MON slot: its counter. -/
def monOp (s : State) (a : BitVec 5) (k : MonSel → Res) : Res :=
  match monSel s (s.rs a) with
  | some m => k m
  | none => badOperand s (s.rs a)
/-- MON cfg: it clears the counter (15 R293). -/
def execMonCfg (h : Hdr) (a b : BitVec 5) (s : State) : Res :=
  slotOp (.monCfg h a b) h s (fun s =>
    monOp s a (fun m =>
      let x := s.rs b
      if wbits x 63 16 ≠ 0 ∨ wbits x 7 0 = 0 ∨ 7 < wbits x 7 0 then badOperand s x
      else .next (setCounter s m { cfg := x })))
/-- MON rd: the value, or a histogram's bin (15 R293). -/
def execMonRd (h : Hdr) (d a : BitVec 5) (s : State) : Res :=
  slotOp (.monRd h d a) h s (fun s =>
    monOp s a (fun m =>
      let c := counterAt s m
      let x := if bits c.cfg.toNat 9 8 = 3 then c.bins.getD (wbits (s.rs a) 11 8) 0 else c.value
      .next (s.result 4 [s.wS d (x.setWidth 64)])))
/-- MON clr (15 R293). -/
def execMonClr (h : Hdr) (a : BitVec 5) (s : State) : Res :=
  slotOp (.monClr h a) h s (fun s =>
    monOp s a (fun m => .next (setCounter s m { cfg := (counterAt s m).cfg })))

/-! ## WSW (15 R294; 23 R405) -/

/-- A counter's slot of a monitor image (23 R405). A minimum of no samples is written as the highest value, which every sample replaces (log 78). -/
def counterSlot (c : Counter) : List Byte :=
  toBytes 8 c.cfg.toNat ++ toBytes 8 (if wbits c.cfg 9 8 = 1 ∧ !c.any then 2 ^ 48 - 1 else c.value.toNat) ++ c.bins.toList.flatMap (fun b => toBytes 6 b.toNat) ++ List.replicate 16 0
/-- The counter that a slot of a monitor image holds (23 R405). -/
def slotCounter (bs : List Byte) : Counter :=
  let cfg := BitVec.ofNat 64 (field bs 0 8)
  let unset := wbits cfg 9 8 == 1 && field bs 8 8 == 2 ^ 48 - 1
  { cfg := cfg, value := if unset then 0 else BitVec.ofNat 48 (field bs 8 8), any := !unset
    bins := Vector.ofFn (fun (k : Fin 16) => BitVec.ofNat 48 (field bs (16 + 6 * k.val) 6)) }
/-- Whether a configuration enables the filter for a virtual function (23 R405). -/
def countsFor (cfg : BitVec 64) (vf : Nat) : Bool := cfg.getLsbD 15 && wbits cfg 14 10 == vf

/-- The monitor image of a virtual function: the slots of a die that the issuer reaches (23 R405). -/
def monitorImage (s : State) (die vf : Nat) : List Byte :=
  (List.range 64).flatMap (fun i =>
    let c := (s.die (i / 16)).mon.getD (i % 16) {}
    if i / 16 = die ∧ countsFor c.cfg vf then counterSlot c else List.replicate 128 0)
/-- Clear and disable a die's counters that were saved (23 R405). -/
def dropCounters (s : State) (die vf : Nat) : State :=
  s.modDie die (fun d => { d with mon := d.mon.map (fun c => if countsFor c.cfg vf then {} else c) })
/-- Restore every slot that enables the filter for a virtual function (23 R405). -/
def loadCounters (s : State) (vf : Nat) (bs : List Byte) : State :=
  (List.range 64).foldl (fun (s : State) i =>
    let c := slotCounter ((bs.drop (128 * i)).take 128)
    if countsFor c.cfg vf then setCounter s (.die (i / 16) (i % 16)) c else s) s

/-- The contexts that an agent reaches (15 R288). -/
def reached (who : Agent) : List Agent :=
  match who with
  | .cp d => (List.range 128).flatMap (fun c => (List.range 8).map (fun k => Agent.ctx (128 * d + c) k))
  | x => (List.range 8).flatMap (fun c => (List.range 8).map (fun k => Agent.ctx (8 * (x.cluster?.getD 0) + c) k))
/-- Whether a context belongs to a started task and runs or is about to. -/
def live (s : State) (a : Agent) : Bool := running s a || (decide ((s.ctx a).st = .free) && (s.ctx a).task.isSome)
/-- The contexts of a virtual function in an agent's reach that run or are about to. -/
def liveReached (s : State) (who : Agent) (vf : Nat) : List Agent := (reached who).filter (fun a => live s a && s.vfOf a == vf)
/-- Ask every context of a virtual function in an agent's reach to stop (15 R294; 22 R369). -/
def stopFunction (s : State) (who : Agent) (vf : Nat) : State :=
  (liveReached s who vf).foldl (fun (s : State) a => if (s.ctx a).stopReq.isSome then s else requestStop s a 0x74 (BitVec.ofNat 64 vf)) s

/-- The time that a world switch takes (15 R294, log 7). -/
def worldSwitchTime : Nat := 66

/-- An image that a system family writes, strongly, through the checks of a store; leased bytes stop it before any write (09 R179). What lies at a fabric address leaves as
remote writes (17 R408). -/
def putImage (s : State) (ea : BitVec 64) (bs : List Byte) : Except TrapRec State :=
  match resolveRange s s.who .store .m (bs.length / 128 + 2) ea bs.length with
  | .error f => .error (faultRec s f)
  | .ok (segs, s) =>
    match leaseOver s (fun _ => true) segs with
    | some (x, l) => .error (s.slotTrap 0x34 0 (BitVec.ofNat 64 (Loc.addr s l)) (leaseHolder x))
    | none => .ok (engWriteAll s s.who segs bs { who := s.who, bund := s.bpc.setWidth 57, va := ea })

/-- WSW out: while it waits, every context of the function is asked to stop; once all have, the monitor image is written (15 R294; 23 R405). -/
def execWswOut (h : Hdr) (a b : BitVec 5) (s : State) : Res :=
  slotOp (.wswOut h a b) h s (fun s =>
    let w := s.rs a
    let vf := wbits w 4 0
    if wbits w 63 5 ≠ 0 then badOperand s w else
    if waitCount s.me.waits s.pos < worldSwitchTime ∨ !(liveReached s s.who vf).isEmpty then .next (s.hold { stops := some vf })
    else match putImage s (s.rs b) (monitorImage s s.who.die vf) with
      | .error t => .next (s.raise t)
      | .ok s => .next (dropCounters s s.who.die vf))
/-- WSW in (15 R294; 23 R405). -/
def execWswIn (h : Hdr) (a b : BitVec 5) (s : State) : Res :=
  slotOp (.wswIn h a b) h s (fun s =>
    let w := s.rs a
    let ea := s.rs b
    if wbits w 63 5 ≠ 0 then badOperand s w else
    match readImage s s.who ea.toNat 8192 with
    | .error f => faultAt s f
    | .ok (bs, s) => freezeFor s worldSwitchTime (fun s => .next (loadCounters s (wbits w 4 0) bs)))

/-! ## Scribes (14 R249) -/

/-- Whether a SCRIBE value has a reserved bit set (15 R296). -/
def scribeWordBad (x : BitVec 64) : Bool := x.getLsbD 1 || wbits x 63 57 != 0
/-- A write of a cluster's SCRIBE register: with the run bit the scribe starts, and issues its first bundle in the second cc after it (05 R99; 14 R249). -/
def writeScribe (s : State) (cl : Nat) (x : BitVec 64) : State :=
  let s := s.modCluster cl (fun c => { c with scribeReg := x })
  if !x.getLsbD 0 then s else
  let pc := BitVec.ofNat 64 (wbits x 56 2 * 4)
  s.modCtx (.scribe cl) (fun c =>
    { c with st := .front, wakeAt := s.cc + 2, empty := 0, post := none, icyc := 0, frz := 0, ckBund := pc.setWidth 57
             live := { c.live with c := { c.live.c with pc := pc } }, ckpt := { c.live with c := { c.live.c with pc := pc } } })
/-- SCRIBE: the write as it reaches a stopped scribe; a running one is unaffected, and the trap is the issuer's (14 R249). -/
def execScribe (s : State) : Res :=
  evStep s (fun
    | .scribe cl x => some (
      if (s.ctx (.scribe cl)).st = .front ∨ scribeWordBad x then .next s else .next (writeScribe s cl x))
    | _ => none)

/-! ## CFG (15 R296) -/

/-- The configuration registers that CFG names (15 R296). -/
inductive CfgReg where
  | share | owner | padwin | vaultwin | scribe | govtab | qres | metaName | metaTag | pkgid
  | group (g : Nat)
  deriving DecidableEq, Repr

/-- The register of a number (15 R296). -/
def cfgReg (n : Nat) : Option CfgReg :=
  if n = 0x001 then some .share else if n = 0x002 then some .owner else if n = 0x003 then some .padwin else if n = 0x004 then some .vaultwin
  else if n = 0x008 then some .scribe else if n = 0x010 then some .govtab else if n = 0x011 then some .qres
  else if n = 0x012 then some .metaName else if n = 0x013 then some .metaTag else if n = 0x020 then some .pkgid
  else if 0x40 ≤ n ∧ n ≤ 0x7F then some (.group (n - 0x40)) else none

/-- Whether a register needs another command processor, or a command processor at all, than the issuer (15 R296). -/
def cfgDenied (s : State) : CfgReg → Bool
  | .scribe => !isCp s.who
  | .pkgid => decide (s.who ≠ .cp 0)
  | _ => false
/-- Whether a register takes a target word. -/
def CfgReg.targeted : CfgReg → Bool
  | .share | .owner | .padwin | .vaultwin | .scribe => true
  | _ => false

/-- Whether a META name is well formed (15 R296). -/
def metaNameOk (x : BitVec 64) : Bool :=
  let k := wbits x 63 62
  wbits x 11 0 == 0 && ((k == 0 && wbits x 61 52 == 0) || (k == 1 && wbits x 61 33 == 0) || (k == 2 && wbits x 61 28 == 0))
/-- The place of the tile that a META name names (15 R296; 11 R212). -/
def metaPlace (x : BitVec 64) : Loc :=
  let k := wbits x 63 62
  if k = 0 then { space := .m, key := wbits x 51 12 * 4096 }
  else if k = 1 then { space := .v, key := vaultKey (wbits x 32 12 * 4096) }
  else { space := .p, key := padKey (wbits x 27 22) (wbits x 21 12 * 4096) }

/-- Whether a value may be written to a register: reserved bits and ranges (15 R296). -/
def cfgValueOk (r : CfgReg) (x : BitVec 64) : Bool :=
  match r with
  | .share => wbits x 15 4 == 0 && wbits x 63 40 == 0 && decide (1 ≤ wbits x 3 0 ∧ wbits x 3 0 ≤ 8) && decide (1024 ≤ wbits x 39 16)
  | .owner => wbits x 7 5 == 0 && wbits x 63 18 == 0
  | .padwin => wbits x 11 10 == 0 && wbits x 63 23 == 0 && decide (wbits x 22 12 ≤ 1024)
  | .vaultwin => wbits x 7 6 == 0 && wbits x 15 14 == 0 && wbits x 47 31 == 0 && wbits x 63 49 == 0
  | .scribe => !scribeWordBad x
  | .govtab => wbits x 63 16 == 0
  | .qres => wbits x 63 29 == 0
  | .metaName => metaNameOk x
  | .metaTag => false
  | .pkgid => wbits x 63 16 == 0
  | .group _ => wbits x 63 50 == 0

/-- A CFG slot: its register, its issuer's right, its target (15 R296). -/
def cfgOp (s : State) (a b : BitVec 5) (k : CfgReg → Agent → Res) : Res :=
  match cfgReg (s.rs b).toNat with
  | none => badOperand s (s.rs b)
  | some r =>
    if cfgDenied s r then trapAt s 0x04
    else if !r.targeted then k r s.who
    else onTarget s (s.rs a) (k r)

/-- The value of a register whose reading the spec states; a reading of GOVTAB or QRES is a free value (15 R296, log 4). -/
def cfgValue (s : State) (r : CfgReg) (t : Agent) : BitVec 64 :=
  let c := s.ctx t
  match r with
  | .share => BitVec.ofNat 64 ((s.core t.core).share + (s.core t.core).yq * 2 ^ 16)
  | .owner => c.owner.setWidth 64
  | .padwin => padWord c
  | .vaultwin => vaultWord c
  | .scribe => (s.cluster (t.core / 8)).scribeReg
  | .govtab | .qres => Config.freeWord s.fresh
  | .metaName => s.metaName
  | .metaTag => (tagOf s (metaPlace s.metaName)).setWidth 64
  | .pkgid => s.pkgid.setWidth 64
  | .group g => (s.die s.who.die).group.get 0 g

/-- CFG rd (15 R296). -/
def execCfgRd (h : Hdr) (d a b : BitVec 5) (s : State) : Res :=
  slotOp (.cfgRd h d a b) h s (fun s =>
    cfgOp s a b (fun r t =>
      let x := cfgValue s r t
      let s := if r = .govtab ∨ r = .qres then { s with fresh := s.fresh + 1 } else s
      .next (s.result 4 [s.wS d x])))

/-- A write of a window or owner: only while its context is free or stopped (15 R296). -/
def whileIdle (s : State) (w : Word) (t : Agent) (f : Ctx → Ctx) : Res :=
  let c := s.ctx t
  if c.st = .stopped ∨ (c.st = .free ∧ c.task.isNone) then .next (s.modCtx t f) else wrongState s w
/-- The swap of a queue that a QRES value asks for (14 R263; 15 R296). -/
def swapQueue (s : State) (x : BitVec 64) : Res :=
  let proc := wbits x 21 12
  let q := wbits x 11 0
  match (if x.getLsbD 28 then bringIn s s.who proc q (wbits x 27 22) else takeOut s s.who proc q) with
  | none => wrongState s x
  | some (.error f) => .next (s.raise (faultRec s f))
  | some (.ok s) => .next s

/-- CFG wr (15 R296). -/
def execCfgWr (h : Hdr) (d a b : BitVec 5) (s : State) : Res :=
  slotOp (.cfgWr h d a b) h s (fun s =>
    cfgOp s a b (fun r t =>
      let x := s.rs d
      if r = .metaTag then badOperand s (s.rs b)
      else if !cfgValueOk r x then badOperand s x
      else match r with
      | .share => .next (watchYields (s.modCore t.core (fun c => { c with share := wbits x 3 0, yq := wbits x 39 16 })) t.core)
      | .owner => whileIdle s (s.rs a) t (fun c => { c with owner := x.setWidth 18 })
      | .padwin => whileIdle s (s.rs a) t (fun c => { c with padwin := x.setWidth 23 })
      | .vaultwin => whileIdle s (s.rs a) t (fun c => { c with vaultwin := x.setWidth 49 })
      | .scribe =>
        let cl := t.core / 8
        if (s.ctx (.scribe cl)).st = .front then wrongState s (s.rs a) else .next (writeScribe s cl x)
      | .govtab => .next (if x.getLsbD 15 then govAssign s (wbits x 4 0) (wbits x 14 5) else govRelease s (wbits x 4 0) (wbits x 14 5))
      | .qres => swapQueue s x
      | .metaName => .next { s with metaName := x }
      | .metaTag => badOperand s x
      | .pkgid => .next { s with pkgid := x.setWidth 16 }
      | .group g => .next (s.modDie s.who.die (fun y => { y with group := y.group.put 0 g x }))))

end Sys2Proof.Machine
end

