-- ==== Sys2Proof/Machine/Saves.lean ====
section
/-!
DEFINITION. Meanings of CSV: the image of a context, saving, restoring, freeing and ending (15 R290; 20 R351; 22 R374-R378).
-/

namespace Sys2Proof.Machine

/-! ## Parts of an image (22 R375-R377) -/

/-- A list of byte strings, padded with zero bytes or cut to `n` bytes. -/
def padTo (n : Nat) (bs : List Byte) : List Byte := bs.take n ++ List.replicate (n - bs.length) 0

/-- SPECIAL of a control set (22 R376). -/
def specialBytes (c : Ctl) : List Byte :=
  c.lc.toList.flatMap (fun x => toBytes 2 x.toNat) ++ toBytes 8 c.rot.toNat ++ toBytes 8 c.seed.toNat
/-- LOOPS of a control set: level 0 the outermost (22 R376). -/
def loopBytes (c : Ctl) : List Byte :=
  toBytes 8 c.loops.length ++ padTo 336 (c.loops.reverse.flatMap (fun l =>
    toBytes 1 l.kind.code ++ toBytes 1 l.head.toNat ++ toBytes 6 l.done.toNat ++ toBytes 8 l.kc.toNat ++ toBytes 8 l.ec.toNat
      ++ toBytes 8 l.idx.toNat ++ toBytes 8 l.start.toNat ++ toBytes 16 l.fin.toNat))
/-- RETURNS of a control set (22 R376). -/
def returnBytes (c : Ctl) : List Byte := toBytes 8 c.rets.length ++ padTo 128 (c.rets.flatMap (fun r => toBytes 8 r.toNat))
/-- HEADS of a control set (22 R376). -/
def headBytes (s : State) (a : Agent) (c : Ctl) : List Byte :=
  c.qh.toList.flatMap (fun h =>
    let e := s.latched a h
    let eos := (e.map (·.2)).getD false
    toBytes 8 (h.queue.toNat + h.bound.toNat * 2 ^ 12 + e.isSome.toNat * 2 ^ 13 + eos.toNat * 2 ^ 14 + h.pos.toNat * 2 ^ 32)
      ++ toBytes 8 ((e.map (·.1.toNat)).getD 0))
/-- WELLS of a control set (22 R376). -/
def wellBytes (c : Ctl) : List Byte :=
  c.w.toList.flatMap (fun h =>
    toBytes 8 h.blk.toNat ++ toBytes 8 (h.prod.toNat + (if h.bound then (if h.vault then 3 else 2) else 0) * 2 + h.bound.toNat * 2 ^ 3 + h.own.toNat * 2 ^ 32))

/-- A snapshot entry (22 R377). -/
def snapBytes (e : Flight) (w : RegWrite) : List Byte :=
  let head := fun (file reg : Nat) => toBytes 8 (file + reg * 4 + e.ck.toNat * 2 ^ 7 + e.dist % 2 ^ 12 * 2 ^ 8)
  match w with
  | .s r x => head 0 r.toNat ++ toBytes 8 x.toNat
  | .v r x => head 1 r.toNat ++ toBytes 512 x.toNat
  | .f r x => head 2 r.toNat ++ toBytes 8 x.toNat
  | .m r x => head 3 r.toNat ++ toBytes 16 x.toNat
  | .c _ _ => []
/-- A landing entry of arrived data (22 R377). -/
def landBytes (e : Flight) : List Byte :=
  let head := fun (reg kind : Nat) => toBytes 8 (reg + kind * 2 ^ 5 + e.ck.toNat * 2 ^ 7 + e.dist % 2 ^ 12 * 2 ^ 8)
  match State.entryWrites e with
  | [.s r x] => head r.toNat 0 ++ toBytes 8 x.toNat
  | [.s r x, .s _ y] => head r.toNat 1 ++ toBytes 8 x.toNat ++ toBytes 8 y.toNat
  | [.v r x] => head r.toNat 2 ++ toBytes 512 x.toNat
  | _ => []
/-- Snapshot entries: results of fixed latency in flight (22 R372). -/
def snaps (c : Ctx) : List Flight := c.flight.filter (fun e => e.kind == .fixed)
/-- Landing entries: arrived loads in flight (22 R372). -/
def lands (c : Ctx) : List Flight := c.flight.filter (fun e => e.kind == .load && !(State.entryWrites e).isEmpty)

/-- The kind of a withheld entry (22 R377). -/
def Effect.imageKind : Effect → Nat
  | .store k _ _ _ _ _ => k
  | .qpush _ _ _ => 5
  | .wadv _ _ => 6
  | .evtSig _ _ _ => 7
  | _ => 8
/-- The payload of a withheld entry (22 R377). -/
def payload (w : Withheld) : List Byte :=
  match w.eff with
  | .store k va m ix d _ =>
    toBytes 8 va.toNat ++ (if k = 1 then toBytes 8 d.toNat else if k = 2 then toBytes 512 d.toNat
      else if k = 3 then toBytes 16 m.toNat ++ toBytes 512 d.toNat else toBytes 512 ix.toNat ++ toBytes 512 d.toNat)
  | .snd _ _ _ _ _ v => w.regs.flatMap (fun x => toBytes 8 x.toNat) ++ toBytes 512 v.toNat
  | _ => w.regs.flatMap (fun x => toBytes 8 x.toNat)
/-- A withheld entry (22 R377). -/
def withheldBytes (w : Withheld) : List Byte :=
  let p := payload w
  toBytes 8 (w.eff.imageKind + w.pos * 2 ^ 4 + p.length * 2 ^ 16 + w.word.toNat * 2 ^ 32) ++ p

/-- The bytes of a quire bank in plane form, blocks of 16 (22 R375; 03 R60, R61). -/
def bankBytes (b : Bank) : List Byte :=
  let els := b.els.toArray
  (planesUsed b.fmt).flatMap (fun p =>
    let k := planeSpan p 16
    let w := planeWidth b.fmt p
    let n := ceilDiv els.size k
    toBytes (ceilDiv (n * w) 8) (packNat w (fun x => planeField b.fmt p (els.getD (k * x) 0)) n))
/-- The elements that bank bytes hold. -/
def bankEls (f : BitVec 4) (n : Nat) (bs : List Byte) : List (BitVec 32) :=
  let cut := (planesUsed f).foldl (fun (r : List (BitVec 2 × Nat × List Byte) × List Byte) p =>
    let k := planeBytes f false p n
    (r.1 ++ [(p, 0, r.2.take k)], r.2.drop k)) ([], bs)
  lanesFrom f false 0 n cut.1
/-- Elements of a gang's tile. -/
def gangSize (g : Nat) : Nat := (gangShape g).1 * (gangShape g).2

/-- The physical pane that shows a logical pane of a context. -/
def shownPane (s : State) (a : Agent) (p : Nat) : Option Pane := (physPanes s a p).head?.map (paneOf s a.core)
/-- Bank 2p + q of a context, when its pane is granted and it is valid. -/
def bankOf (s : State) (a : Agent) (i : Nat) : Option Bank := (shownPane s a (i / 2)).bind (fun p => if (p.bank (i % 2)).valid then some (p.bank (i % 2)) else none)
/-- Tile zt of a context, when its pane is granted. -/
def tileAt (s : State) (a : Agent) (t : Nat) : Option Tile := (shownPane s a (t / 2)).map (fun p => p.tile (t % 2))
/-- The tiles that an image holds (22 R375). -/
def imageTiles (s : State) (a : Agent) : List Nat :=
  (List.range 8).filter (fun t => match tileAt s a t with
    | some x => x.rows * x.width != 0
    | none => false)

/-- The seven sections of an image, the header empty (22 R375). -/
def imageSections (s : State) (a : Agent) : List (List Byte) :=
  let c := s.ctx a
  [ []
  , c.live.v.toList.flatMap (fun v => toBytes 512 v.toNat) ++ c.ckpt.v.toList.flatMap (fun v => toBytes 512 v.toNat)
  , (snaps c).flatMap (fun e => e.writes.flatMap (snapBytes e))
  , (lands c).flatMap landBytes
  , (c.held.filter (fun w => w.eff.takesEntry)).flatMap withheldBytes
  , (List.range 8).flatMap (fun i => ((bankOf s a i).map bankBytes).getD [])
  , (imageTiles s a).flatMap (fun t => ((tileAt s a t).map tileImage).getD []) ]

/-- The directory: each section's offset and length, then the lengths of the banks (22 R376). -/
def directory (lens : List Nat) (banks : List Nat) : List Byte :=
  let r := lens.foldl (fun (r : Nat × List Byte) n => (r.1 + n, r.2 ++ toBytes 8 r.1 ++ toBytes 8 n)) (0, [])
  r.2 ++ banks.flatMap (toBytes 2)

/-- The wait in progress that WAIT shows: its slot position and count; of several, the one at the lowest position (22 R376). -/
def waitWord (c : Ctx) : Nat :=
  match c.waits.foldl (fun (m : Option (Nat × Nat)) w => match m with
      | none => some w
      | some x => if w.1 < x.1 then some w else some x) none with
  | some (p, n) => n % 2 ^ 48 + p * 2 ^ 48 + 2 ^ 51
  | none => 0
/-- The detail registers as bytes. -/
def detBytes (d : Det) : List Byte := toBytes 8 d.d0.toNat ++ toBytes 8 d.d1.toNat ++ toBytes 8 d.d2.toNat ++ toBytes 8 d.d3.toNat

/-- The image header of a context (22 R376). -/
def imageHeader (s : State) (a : Agent) (lens : List Nat) : List Byte :=
  let c := s.ctx a
  let l := c.live
  let k := c.ckpt
  let bank := fun (i : Nat) => (bankOf s a i).getD {}
  padTo 4096 (
    toBytes 4 0x50514358 ++ toBytes 4 2 ++ toBytes 4 (s.unitsOf a).toNat ++ toBytes 1 (panesWord c + c.claim.toNat * 16) ++ toBytes 1 (coverOf s a)
    ++ toBytes 1 (c.label.code + c.runs * 4) ++ toBytes 1 c.prio ++ toBytes 4 (s.taskidOf a).toNat
    ++ toBytes 4 (c.tcause.toNat + c.pendHeld.isSome.toNat * 2 ^ 7 + ((c.pendHeld.map (·.cause)).getD 0) * 2 ^ 8)
    ++ toBytes 8 c.mb ++ toBytes 8 c.by_ ++ toBytes 8 l.c.pc.toNat ++ toBytes 8 c.icyc.toNat ++ toBytes 8 c.frz.toNat
    ++ toBytes 8 c.tbund.toNat ++ toBytes 8 c.tckpt.toNat ++ detBytes c.tdet ++ toBytes 8 (waitWord c) ++ detBytes ((c.pendHeld.map (·.det)).getD {})
    ++ directory lens ((List.range 8).map (fun i => ((bankOf s a i).map (fun b => (bankBytes b).length)).getD 0))
    ++ (List.range 8).flatMap (fun i => let b := bank i; toBytes 4 (if b.valid then b.fmt.toNat + (b.gang - 1) * 2 ^ 4 + 2 ^ 6 else 0))
    ++ toBytes 8 0
    ++ (List.range 4).flatMap (fun p => match c.panes.getD p none with
        | some q => toBytes 1 (q + 4)
        | none => [0])
    ++ (List.range 4).flatMap (fun p => toBytes 4 (((shownPane s a p).map (·.c.toNat)).getD 0)) ++ List.replicate 12 0
    ++ l.s.toList.flatMap (fun x => toBytes 8 x.toNat) ++ k.s.toList.flatMap (fun x => toBytes 8 x.toNat)
    ++ toBytes 2 l.f.toNat ++ toBytes 14 k.f.toNat
    ++ l.m.toList.flatMap (fun x => toBytes 16 x.toNat) ++ k.m.toList.flatMap (fun x => toBytes 16 x.toNat)
    ++ specialBytes l.c ++ specialBytes k.c ++ loopBytes l.c ++ loopBytes k.c ++ returnBytes l.c ++ returnBytes k.c
    ++ headBytes s a l.c ++ headBytes s a k.c ++ wellBytes l.c ++ wellBytes k.c
    ++ toBytes 1 (packNat 1 (fun t => (((tileAt s a t).map (·.poison)).getD false).toNat) 8))

/-- The image of a context (22 R375). -/
def contextImage (s : State) (a : Agent) : List Byte :=
  let secs := imageSections s a
  imageHeader s a (4096 :: (secs.drop 1).map (·.length)) ++ secs.flatten

/-! ## save (15 R290; 22 R374) -/

/-- Whether the conditions of R374 hold for a stopped context. -/
def saveReady (s : State) (a : Agent) : Bool :=
  (s.ctx a).flight.all (fun e => e.arrived || e.kind == .pref || (e.kind == .fixed))
    && !((List.range 4).any (fun q => (paneOf s a.core q).ops.any (fun o => o.who == a)))
    && !((s.relqs.get [] a.relKey).any (fun r => r.who == a)) && !s.goPending a && !s.claimPending a && !s.remotePending a 5

/-- Scales that have arrived are written, so that the image shows them (22 R374). -/
def settleScales (s : State) (a : Agent) : State :=
  let scale := fun (e : Flight) => match e.shape with
    | .scale _ => true
    | _ => false
  let es := (s.ctx a).flight.filter scale
  (s.landScales a (es.flatMap State.entryWrites)).modCtx a (fun c => { c with flight := c.flight.filter (fun e => !scale e) })

/-- A slot that names an image: its address is 4 KiB-aligned (15 R290). -/
def onImage (s : State) (ea : BitVec 64) (k : Res) : Res := if ea.toNat % 4096 ≠ 0 then .next (s.raise (faultRec s (misaligned ea))) else k

/-- A save of a context writes an image at an address: any other member saved there has lost its own (15 R290). -/
def noteSave (s : State) (t : Agent) (ea : Word) : State :=
  let s := { s with saved := s.saved.map (fun (m : Saved) => if m.image = ea then { m with lostImage := true } else m)
                    ctxs := s.ctxs.map (fun (e : Nat × Ctx) => if e.2.savedAt = some ea then (e.1, { e.2 with lostImage := true }) else e) }
  s.modCtx t (fun c => { c with savedAt := some ea, lostImage := false })
/-- CSV save; an error in data that has arrived becomes the image's pending cause (15 R290; 22 R374). -/
def execCsvSave (h : Hdr) (a b : BitVec 5) (s : State) : Res :=
  slotOp (.csvSave h a b) h s (fun s =>
    let ea := s.rs b
    onTarget s (s.rs a) (fun t => onImage s ea (
      if (s.ctx t).st ≠ .stopped then wrongState s (s.rs a)
      else if !saveReady s t then .next (s.hold {})
      else
        let s := landErrors ((settleScales s t).writeBackAll t.core t) t (fun e => e.kind == .load && e.arrived && e.fault.isSome)
        match putImage s ea (contextImage s t) with
        | .error x => .next (s.raise x)
        | .ok s => .next (noteSave s t ea))))

/-! ## free and end (15 R290; 20 R351) -/

/-- The panes of a context return to the pool (11 R205, R206; 15 R290). -/
def freePanes (s : State) (a : Agent) : State :=
  ((List.range 4).foldl (fun (s : State) q =>
    if (paneOf s a.core q).owner.map (·.1) = some a.ctxNo then returnPane s a.core q false else s) s).at_ s.cc (.paneGrant a.core)
/-- The record of a member that is freed after a save. -/
def savedOf (s : State) (a : Agent) (image : BitVec 64) (tk : Nat) : Saved :=
  { image := image, task := tk, who := a, lostImage := (s.ctx a).lostImage, kept := s.ctx a, banks := (List.range 8).map (fun i => ((bankOf s a i).map (·.els)).getD []), tiles := imageTiles s a }

/-- A stopped context becomes free: a saved member of its task, or one that has left it (15 R290). -/
def freeContext (s : State) (a : Agent) : State :=
  let c := s.ctx a
  let s := match c.savedAt, c.task with
    | some image, some tk => { s with saved := (s.saved.filter (fun m => !(m.restored && m.image == image))) ++ [savedOf s a image tk] }
    | _, _ => c.held.foldl (fun (s : State) w => s.unreserve w.eff) s
  let s := dropBindings (freePanes s a) a
  let s := s.modCtx a freedCtx
  match c.task with
  | none => s
  | some tk => checkTask (s.modTask tk (fun t => { t with ctxs := t.ctxs.filter (· != a.key) })) (some tk)

/-- CSV free (15 R290). -/
def execCsvFree (h : Hdr) (a : BitVec 5) (s : State) : Res :=
  slotOp (.csvFree h a) h s (fun s =>
    onTarget s (s.rs a) (fun t =>
      if (s.ctx t).st ≠ .stopped then wrongState s (s.rs a) else .next (freeContext s t)))

/-- A saved member is removed: effects that only its image held are discarded (15 R290). -/
def endSaved (s : State) (m : Saved) : State :=
  let s := if m.restored then s else m.kept.held.foldl (fun (s : State) w => s.unreserve w.eff) s
  checkTask { s with saved := s.saved.erase m } (some m.task)
/-- The saved member that an image address names: that of the image which lies there, else one whose image a later save has overwritten (15 R290; 20 R351; log 60). -/
def memberAt (s : State) (ea : Word) : Option Saved :=
  match s.saved.find? (fun m => m.image == ea && !m.lostImage) with
  | some m => some m
  | none => s.saved.find? (fun m => m.image == ea)
/-- The saved member that can be restored from an image address: freed after the save that wrote the image there, and not restored since (15 R290). -/
def restorable (s : State) (ea : Word) : Option Saved := s.saved.find? (fun m => m.image == ea && !m.restored && !m.lostImage)
/-- CSV end (15 R290; 20 R351). -/
def execCsvEnd (h : Hdr) (b : BitVec 5) (s : State) : Res :=
  slotOp (.csvEnd h b) h s (fun s =>
    let ea := s.rs b
    onImage s ea (
      match memberAt s ea with
      | none => wrongState s ea
      | some m => .next (endSaved s m)))

/-! ## ld: the image as read (22 R376-R378) -/

/-- The control set at place `i` of each field of a header, 0 live and 1 the checkpoint's (22 R376). -/
def ctlOf (h : List Byte) (i : Nat) (pc : BitVec 64) : Ctl :=
  let sp := 0x570 + 32 * i
  let lp := 0x5B0 + 344 * i
  let rt := 0x860 + 136 * i
  let level := fun (k : Nat) =>
    let o := lp + 8 + 56 * k
    ({ kind := .ofCode (field h o 1), head := BitVec.ofNat 2 (field h (o + 1) 1), done := bit (field h (o + 2) 1) 0
       kc := BitVec.ofNat 64 (field h (o + 8) 8), ec := BitVec.ofNat 64 (field h (o + 16) 8), idx := BitVec.ofNat 64 (field h (o + 24) 8)
       start := BitVec.ofNat 64 (field h (o + 32) 8), fin := BitVec.ofNat 64 (field h (o + 40) 8) } : Level)
  { lc := Vector.ofFn (fun (k : Fin 8) => BitVec.ofNat 12 (field h (sp + 2 * k.val) 2)), rot := BitVec.ofNat 4 (field h (sp + 16) 1)
    seed := BitVec.ofNat 64 (field h (sp + 24) 8), loops := ((List.range (field h lp 8)).map level).reverse
    rets := (List.range (field h rt 8)).map (fun k => BitVec.ofNat 57 (field h (rt + 8 + 8 * k) 8)), pc := pc
    qh := Vector.ofFn (fun (k : Fin 4) =>
      let w := field h (0x970 + 64 * i + 16 * k.val) 8
      { bound := bit w 12, queue := BitVec.ofNat 12 w, pos := BitVec.ofNat 32 (w / 2 ^ 32) })
    w := Vector.ofFn (fun (k : Fin 16) =>
      let o := 0x9F0 + 256 * i + 16 * k.val
      let w := field h (o + 8) 8
      { bound := bit w 3, prod := bit w 0, vault := bits w 2 1 == 3, blk := BitVec.ofNat 64 (field h o 8), own := BitVec.ofNat 32 (w / 2 ^ 32) }) }
/-- The register set at place `i` of an image (22 R375, R376). -/
def regsOf (bs : List Byte) (i : Nat) (pc : BitVec 64) : Regs :=
  { s := Vector.ofFn (fun (k : Fin 32) => BitVec.ofNat 64 (field bs (0x160 + 256 * i + 8 * k.val) 8))
    v := Vector.ofFn (fun (k : Fin 32) => BitVec.ofNat 4096 (field bs (4096 + 16384 * i + 512 * k.val) 512))
    f := BitVec.ofNat 16 (field bs (0x360 + 2 * i) 2)
    m := Vector.ofFn (fun (k : Fin 16) => BitVec.ofNat 128 (field bs (0x370 + 256 * i + 16 * k.val) 16))
    c := ctlOf bs i pc }

/-- The reserved bytes of a header: offset and length (22 R376). -/
def headerGaps : List (Nat × Nat) :=
  [(6, 2), (0x16, 2), (0x138, 8), (0x154, 12), (0x364, 12), (0x581, 7), (0x5A1, 7), (0xBF1, 4096 - 0xBF1)]
    ++ (List.range 12).flatMap (fun k => let o := 0x5B0 + 344 * (k / 6) + 8 + 56 * (k % 6); [(o + 3, 5), (o + 48, 8)])
/-- The value of each field of a header, with whether it keeps its width and range, in the order of its checks (22 R376; R369: the offending value). -/
def headerChecks (h : List Byte) : List (Bool × Nat) :=
  let chk := fun (o n : Nat) (p : Nat → Bool) => (p (field h o n), field h o n)
  [ chk 0 4 (· == 0x50514358), chk 4 2 (· == 2) ]
    ++ headerGaps.map (fun g => (zeroBytes h g.1 g.2, reservedValue h g.1 g.2))
    ++ [ chk 8 4 (fun x => bits x 31 9 == 0), chk 0xD 1 (fun x => decide (x ≤ 3)), chk 0xE 1 (fun x => decide (x % 4 ≤ 2 ∧ x / 4 ≤ 4))
       , chk 0xF 1 (fun x => decide (x ≤ 3)), chk 0x14 2 (fun x => !bit x 15), chk 0x70 8 (fun x => bits x 63 52 == 0) ]
    ++ (List.range 8).map (fun i => chk (0x118 + 4 * i) 4 (fun x => bits x 31 7 == 0))
    ++ (List.range 4).map (fun p => chk (0x140 + p) 1 (fun x => bits x 7 3 == 0))
    ++ (List.range 8).map (fun i => chk (0x970 + 16 * i) 8 (fun x => bits x 31 15 == 0))
    ++ (List.range 32).map (fun i => chk (0x9F0 + 16 * i + 8) 8 (fun x => bits x 31 4 == 0))
    ++ (List.range 2).flatMap (fun i => [ chk (0x5B0 + 344 * i) 8 (fun x => decide (x ≤ 6)), chk (0x860 + 136 * i) 8 (fun x => decide (x ≤ 16))
       , chk (0x570 + 32 * i + 16) 1 (fun x => decide (x < 16)) ])
    ++ (List.range 12).flatMap (fun k => let o := 0x5B0 + 344 * (k / 6) + 8 + 56 * (k % 6)
         [ chk o 1 (fun x => decide (x ≤ 2)), chk (o + 1) 1 (fun x => decide (x ≤ 3)), chk (o + 2) 1 (fun x => decide (x ≤ 1)) ])
/-- The value of the first field of a list of checks that fails. -/
def firstBad (cs : List (Bool × Nat)) : Option Nat := (cs.find? (fun c => !c.1)).map (·.2)

/-- The lengths of the seven sections. -/
def sectionLens (h : List Byte) : List Nat := (List.range 7).map (fun i => field h (0x98 + 16 * i + 8) 8)
/-- The lengths of the quire banks. -/
def bankLens (h : List Byte) : List Nat := (List.range 8).map (fun i => field h (0x108 + 2 * i) 2)
/-- The entries of a directory, each with whether it describes a packed section of an image within its bound (22 R375, R376). -/
def directoryChecks (h : List Byte) : List (Bool × Nat) :=
  let lens := sectionLens h
  (List.range 7).flatMap (fun i => [(field h (0x98 + 16 * i) 8 == (lens.take i).sum, field h (0x98 + 16 * i) 8)])
    ++ [ (lens.headD 0 == 4096, lens.headD 0), (lens.getD 1 0 == 32768, lens.getD 1 0), (decide (lens.sum ≤ 1050672), lens.sum)
       , (lens.getD 5 0 == (bankLens h).sum, lens.getD 5 0) ]
    ++ (List.range 8).map (fun i =>
      let w := field h (0x118 + 4 * i) 4
      let f := BitVec.ofNat 4 w
      let n := gangSize (bits w 5 4 + 1)
      ((bankLens h).getD i 0 == (if bit w 6 then ((planesUsed f).map (fun p => planeBytes f false p n)).sum else 0), (bankLens h).getD i 0))
/-- The bytes of a section. -/
def sectionOf (bs : List Byte) (i : Nat) : List Byte := (bs.drop (field bs (0x98 + 16 * i) 8)).take (field bs (0x98 + 16 * i + 8) 8)

/-- Snapshot entries of a section: distance, whether of the checkpoint, the write; or the word of an entry that is malformed (22 R369, R377). -/
def readSnaps : Nat → List Byte → Except Nat (List (Nat × Bool × RegWrite))
  | _, [] => .ok []
  | 0, bs => .error (field bs 0 8)
  | fuel + 1, bs =>
    let w := field bs 0 8
    let file := bits w 1 0
    let n := if file = 1 then 512 else if file = 3 then 16 else 8
    let x := field bs 8 n
    let r := bits w 6 2
    if bits w 63 20 ≠ 0 ∨ bs.length < 8 + n ∨ (2 ≤ file ∧ 16 ≤ r) then .error w else
    let e : RegWrite := if file = 0 then .s (BitVec.ofNat 5 r) (BitVec.ofNat 64 x) else if file = 1 then .v (BitVec.ofNat 5 r) (BitVec.ofNat 4096 x)
      else if file = 2 then .f (BitVec.ofNat 4 r) (bit x 0) else .m (BitVec.ofNat 4 r) (BitVec.ofNat 128 x)
    (readSnaps fuel (bs.drop (8 + n))).map ((bits w 19 8, bit w 7, e) :: ·)
/-- Landing entries of a section (22 R377). -/
def readLands : Nat → List Byte → Except Nat (List (Nat × Bool × List RegWrite))
  | _, [] => .ok []
  | 0, bs => .error (field bs 0 8)
  | fuel + 1, bs =>
    let w := field bs 0 8
    let n := if bit w 6 then 512 else if bit w 5 then 16 else 8
    let r : BitVec 5 := BitVec.ofNat 5 w
    if bits w 63 20 ≠ 0 ∨ bs.length < 8 + n ∨ (bit w 5 ∧ bit w 6) then .error w else
    let q : BitVec 5 := if r = 31 then 16 else r + 1
    let es : List RegWrite := if bit w 6 then [.v r (BitVec.ofNat 4096 (field bs 8 512))]
      else if bit w 5 then [.s r (BitVec.ofNat 64 (field bs 8 8)), .s q (BitVec.ofNat 64 (field bs 16 8))]
      else [.s r (BitVec.ofNat 64 (field bs 8 8))]
    (readLands fuel (bs.drop (8 + n))).map ((bits w 19 8, bit w 7, es) :: ·)
/-- Withheld entries of a section: the first word, the payload (22 R377). -/
def readWithheld : Nat → List Byte → Except Nat (List (Nat × List Byte))
  | _, [] => .ok []
  | 0, bs => .error (field bs 0 8)
  | fuel + 1, bs =>
    let w := field bs 0 8
    let n := bits w 31 16
    let k := bits w 3 0
    if bits w 15 7 ≠ 0 ∨ k = 0 ∨ 8 < k ∨ bs.length < 8 + n then .error w
    else (readWithheld fuel (bs.drop (8 + n))).map ((w, (bs.drop 8).take n) :: ·)
/-- Tile images of a section (09 R185). -/
def readTiles : Nat → List Byte → Except Nat (List Tile)
  | _, [] => .ok []
  | 0, bs => .error (field bs 0 8)
  | fuel + 1, bs =>
    let w := field bs 0 8
    let n := 64 + 8 * (bits w 9 0 * bits w 17 10)
    if tileImageBad bs then .error (tileImageValue bs) else if bs.length < n then .error w
    else (readTiles fuel (bs.drop n)).map ({ tileOfImage bs {} with poison := bit w 21 } :: ·)

/-- An image that has been read and checked (22 R378, step 2). -/
structure Image where
  bs : List Byte
  snaps : List (Nat × Bool × RegWrite)
  lands : List (Nat × Bool × List RegWrite)
  held : List (Nat × List Byte)
  tiles : List Tile

/-- The sections of an image, or the value that makes one malformed. -/
def readSections (bs : List Byte) : Except Nat Image := do
  let a ← readSnaps 256 (sectionOf bs 2)
  let b ← readLands 65 (sectionOf bs 3)
  let c ← readWithheld 257 (sectionOf bs 4)
  let d ← readTiles 9 (sectionOf bs 6)
  .ok { bs := bs, snaps := a, lands := b, held := c, tiles := d }

/-- Read an image through the issuer's checks and check its layout (22 R378, step 2); the offending value is that of the first field that fails (R369, log 60). -/
def loadImage (s : State) (ea : BitVec 64) : Except TrapRec (Image × State) :=
  let bad := fun (x : Nat) => s.slotTrap 0x02 0 (BitVec.ofNat 64 x)
  match readImage s s.who ea.toNat 4096 with
  | .error f => .error (faultRec s f)
  | .ok (h, s1) =>
    match firstBad (headerChecks h ++ directoryChecks h) with
    | some x => .error (bad x)
    | none => match readImage s1 s1.who ea.toNat (sectionLens h).sum with
      | .error f => .error (faultRec s f)
      | .ok (bs, s2) => match readSections bs with
        | .ok i => .ok (i, s2)
        | .error x => .error (bad x)

/-! ## ld: what the restored context holds -/

/-- Results in flight as the image gives them, in the order in which they were issued; what the image has no place for is as it was kept. -/
def weave : List Flight → List (Nat × Bool × RegWrite) → List (Nat × Bool × List RegWrite) → List Flight
  | [], sn, ld =>
    sn.map (fun x => { id := 0, writes := [x.2.2], dist := x.1, ck := x.2.1, distCk := x.1 })
      ++ ld.map (fun x => { id := 0, kind := .load, writes := x.2.2, dist := x.1, ck := x.2.1, distCk := x.1 })
  | e :: r, sn, ld =>
    if e.kind = .fixed then
      let mine := sn.take e.writes.length
      match mine with
      | [] => weave r sn ld
      | x :: _ => { e with writes := mine.map (·.2.2), dist := x.1, ck := x.2.1 } :: weave r (sn.drop e.writes.length) ld
    else match ld with
      | [] => weave r sn []
      | x :: ls => { e with writes := x.2.2, shape := .none, buf := [], dist := x.1, ck := x.2.1 } :: weave r sn ls

/-- A well block's key for a context of another cluster: a pad's is its own cluster's. -/
def rekey (t : Agent) (key : Nat) : Nat := if 2 ^ 52 ≤ key ∧ key < 2 ^ 53 then padKey (t.cluster?.getD 0) (key % 2 ^ 22) else key

/-- A state in which an agent translates afresh: no TLB and no walker cache of its die holds anything (22 R378, step 4). -/
def State.untranslated (s : State) (t : Agent) : State :=
  (s.modCore t.core (fun k => { k with dtlb := [], ftlb := [] })).modDie t.die (fun d => { d with tlb := [], wcache := [] })
/-- Resolve the places of an effect that names addresses, afresh for the target; the data of a store and of a push are the image's (22 R378, step 4). -/
def freshEffect (s : State) (t : Agent) (e : Nat × List Byte) (w : Withheld) : Except AFault Effect :=
  let p := e.2
  let va := BitVec.ofNat 64 (field p 0 8)
  let me := { s.untranslated t with who := t }
  let wide : VReg := BitVec.ofNat 4096 (field p 8 512)
  match w.eff with
  | .store k va0 m ix d ps =>
    (match decode (BitVec.ofNat 32 (e.1 / 2 ^ 32)) with
    | .ok (.sts _ _ _ sp _) =>
      match resolveAccess me .store (Space.ofCode sp) va 8 8 with
      | .error f => .error f
      | .ok (g, _) => .ok (.store 1 va 0 0 (BitVec.ofNat 4096 (field p 8 8)) (cutPieces g ((p.drop 8).take 8)))
    | .ok (.stv _ _ _ sp _) =>
      match resolveAccess me .store (Space.ofCode sp) va 512 128 with
      | .error f => .error f
      | .ok (g, _) => .ok (.store 2 va 0 0 wide (cutPieces g ((p.drop 8).take 512)))
    | .ok (.stvs _ _ _ _ f sp) =>
      let m : Mask := BitVec.ofNat 128 (field p 8 16)
      let v : VReg := BitVec.ofNat 4096 (field p 24 512)
      match resolveStvs me (Space.ofCode sp) va f m v (elemCount f) 0 with
      | .error f => .error f
      | .ok (ps, _) => .ok (.store 3 va m 0 v ps)
    | .ok (.stvx _ _ _ sp _) =>
      match resolveLanes me .store (Space.ofCode sp) (fun i => va + 4 * (lane wide i).setWidth 64) 128 0 with
      | .error f => .error f
      | .ok (g, _) => .ok (.store 4 va 0 wide (BitVec.ofNat 4096 (field p 520 512)) (cutPieces g ((p.drop 520).take 512)))
    | _ => .ok (.store k va0 m ix d ps))
  | .qpush q _ eos => .ok (.qpush q va eos)
  | .wadv b n => .ok (.wadv (rekey t b) n)
  | .rinv sc a n (some l) bv bix =>
    (match resolve me t .atomic l.space bv 64 with
    | .error f => .error f
    | .ok (l, _) => .ok (.rinv sc a n (some l) bv bix))
  | .cerr rk (x :: _) =>
    (match resolveAccess me .store x.loc.space (w.regs.getD 1 0) 32 32 with
    | .error f => .error f
    | .ok (g, _) => .ok (.cerr rk (cutPieces g (List.replicate 32 0))))
  | x => .ok x

/-- Withheld effects as restored: entries with the image's payloads in order, the rest as kept (22 R377, R378). -/
def freshHeld (s : State) (t : Agent) : List Withheld → List (Nat × List Byte) → Except AFault (List Withheld)
  | [], _ => .ok []
  | w :: r, es =>
    let put := fun (e : Effect) (es : List (Nat × List Byte)) => match freshHeld s t r es with
      | .error f => .error f
      | .ok x => .ok ({ w with eff := e } :: x)
    match w.eff.takesEntry, es with
    | true, e :: es => (match freshEffect s t e w with
      | .error f => .error f
      | .ok x => put x es)
    | true, [] => put w.eff []
    | false, es => put (match w.eff with
        | .wcons b n => .wcons (rekey t b) n
        | .wunbind b p => .wunbind (rekey t b) p
        | x => x) es

/-- The object that a restored context's BAR waits for, found afresh (22 R378). -/
def freshPost (s : State) (t : Agent) : Option PostWait → Except AFault (Option PostWait)
  | none => .ok none
  | some p =>
    match p.kind with
    | .drain | .trap | .halt => .ok (some p)
    | k => match resolve (s.untranslated t) t (if k = .wt then .load else .atomic) p.loc.space p.ea 64 with
      | .error f => .error f
      | .ok (l, _) => .ok (some { p with loc := l })

/-- Heads with the positions that a bind gives: what has not been popped for everyone, less the pops still withheld (12 R227; 22 R378). -/
def bindHeads (s : State) (t : Agent) (held : List Withheld) (c : Ctl) : Option Ctl :=
  let keyOf := fun (h : QHead) => s.queueKey t h.queue.toNat
  let ok := c.qh.toList.all (fun h => !h.bound || (let q := s.queue (keyOf h); q.present && q.home.isSome && q.head.isNone))
  if !ok then none else
  some { c with qh := c.qh.map (fun h => if h.bound then
    { h with pos := (s.queue (keyOf h)).popped + BitVec.ofNat 32 ((held.filter (fun w => w.eff == .qpop (keyOf h))).length) } else h) }

/-- Advances of a role among withheld effects. -/
def heldAdvances (held : List Withheld) (key : Nat) (prod : Bool) : Nat :=
  (held.map (fun w => match w.eff with
    | .wadv k c => if prod && k == key then c else 0
    | .wcons k c => if !prod && k == key then c else 0
    | _ => 0)).sum
/-- Handles with the own pointers that a bind gives (12 R231; 22 R378). -/
def bindHandles (s : State) (t : Agent) (held : List Withheld) (c : Ctl) : Option Ctl :=
  let ok := c.w.toList.all (fun h => !h.bound || (
    let key := s.wellKey t h
    h.blk.toNat % 64 == 0 && (match resolve s t .atomic (if h.vault then .v else .p) h.blk 64 with
      | .ok _ => true
      | .error _ => false)
      && (wellBad s key).isNone && !s.poisoned key 64 && (if h.prod then (s.well key).prod.isNone else (s.well key).cons.isNone)))
  if !ok then none else
  some { c with w := c.w.map (fun h => if h.bound then
    let key := s.wellKey t h
    { h with own := (if h.prod then wellP s key else wellC s key) + BitVec.ofNat 32 (heldAdvances held key h.prod) } else h) }

/-- The units of a core that are enabled, its panes among them, and the physical panes that are free (22 R369). -/
def enabledWord (s : State) (core : Nat) : BitVec 64 :=
  BitVec.ofNat 64 (((Config.unitsEnabled core).toNat ||| 0xF) + packNat 1 (fun q => (paneFree s core q).toNat) 4 * 2 ^ 32)

/-- Bank 2p + q of an image (22 R375, R376). -/
def imageBank (bs : List Byte) (m : Saved) (i : Nat) : Bank :=
  let w := field bs (0x118 + 4 * i) 4
  if !bit w 6 then {} else
  let f := BitVec.ofNat 4 w
  let g := bits w 5 4 + 1
  let b := ((sectionOf bs 5).drop ((bankLens bs).take i).sum).take ((bankLens bs).getD i 0)
  let b0 : Bank := { valid := true, fmt := f, gang := g, els := m.banks.getD i [], iset := true, iFmt := f, iGang := g }
  if bankBytes b0 = b then b0 else { b0 with els := bankEls f (gangSize g) b }
/-- Tile zt of an image; one that the image does not hold is empty (22 R375, R378). -/
def imageTile (i : Image) (m : Saved) (t : Nat) : Tile :=
  let x := match (m.tiles.zip i.tiles).find? (fun e => e.1 == t) with
    | some (_, x) => x
    | none => { poison := bit (field i.bs 0xBF0 1) t }
  { x with iRows := x.rows, iWidth := x.width, iKind := x.kind }

/-- The panes of a restored context are granted and filled (11 R206; 22 R378). -/
def restorePanes (s : State) (t : Agent) (i : Image) (m : Saved) (mask : BitVec 4) : State :=
  (maskPanes mask).foldl (fun (s : State) p =>
    let s := grantOne s t p
    (physPanes s t p).foldl (fun (s : State) q => modPane s t.core q (fun x =>
      { x with b0 := imageBank i.bs m (2 * p), b1 := imageBank i.bs m (2 * p + 1), t0 := imageTile i m (2 * p), t1 := imageTile i m (2 * p + 1)
               c := BitVec.ofNat 32 (field i.bs (0x144 + 4 * p) 4) })) s) s

/-- The detail words at an offset of a header. -/
def detAt (bs : List Byte) (o : Nat) : Det :=
  { d0 := BitVec.ofNat 64 (field bs o 8), d1 := BitVec.ofNat 64 (field bs (o + 8) 8), d2 := BitVec.ofNat 64 (field bs (o + 16) 8), d3 := BitVec.ofNat 64 (field bs (o + 24) 8) }

/-- The context that an image holds; what belongs to the hardware context is the target's own (15 R290; 22 R376). -/
def imageCtx (s : State) (old : Ctx) (i : Image) (m : Saved) (held : List Withheld) (post : Option PostWait) (live : Regs) : Ctx :=
  let h := i.bs
  let st := field h 0x14 2
  let wt := field h 0x70 8
  let ck := regsOf h 1 m.kept.ckpt.c.pc
  { st := .stopped, task := some m.task, index := m.kept.index, prio := field h 0xF 1, live := live, stage := live.c, ckpt := ck, ckBund := m.kept.ckBund
    flight := old.flight.filter (fun e => e.kind == .fetch)
      ++ weave (m.kept.flight.filter (fun e => e.kind == .fixed || (e.kind == .load && !(State.entryWrites e).isEmpty))) i.snaps i.lands
    held := held, icyc := BitVec.ofNat 48 (field h 0x30 8), frz := BitVec.ofNat 48 (field h 0x38 8), tcause := BitVec.ofNat 7 st
    tbund := BitVec.ofNat 57 (field h 0x40 8), tckpt := BitVec.ofNat 57 (field h 0x48 8), tdet := detAt h 0x50
    pendHeld := if bit st 7 then some { cause := bits st 14 8, det := detAt h 0x78, bund := (m.kept.pendHeld.map (·.bund)).getD 0 } else none
    waits := if bit wt 51 then [(bits wt 50 48, bits wt 47 0)] else [], post := post, failed := m.kept.failed, brk := old.brk, owner := old.owner
    padwin := old.padwin, vaultwin := old.vaultwin, claim := BitVec.ofNat 4 (field h 0xC 1 / 16), claimCc := s.cc, tiles := m.kept.tiles
    label := (let n := field h 0xE 1 % 4; if n = 0 then .b else if n = 1 then .c else .m), runs := field h 0xE 1 / 4
    mb := field h 0x18 8, by_ := field h 0x20 8 }

/-- A member takes a new hardware context: its task counts it there, and finds it there for engines that it started (15 R268, R290). -/
def moveMember (t : Agent) (m : Saved) (k : Task) : Task :=
  { k with ctxs := k.ctxs ++ [t.key]
           moved := (m.who, t) :: ((k.moved.map (fun x => if x.2 = m.who then (x.1, t) else x)).filter (fun x => x.1 != t && x.1 != m.who)) }

/-- Steps 3 to 5 of R378 and the restore itself. -/
def restoreImage (s : State) (t : Agent) (m : Saved) (i : Image) (target : Word) : Except TrapRec State :=
  let h := i.bs
  let units := field h 8 4
  let mask := BitVec.ofNat 4 (field h 0xC 1)
  let old := s.ctx t
  let s1 := s.modCtx t (fun c => { c with task := some m.task })
  if (units &&& 0x1F0) &&& (Config.unitsEnabled t.core).toNat ≠ units &&& 0x1F0 ∨ !claimFits s1 t mask then
    .error (s.slotTrap 0x61 0 (BitVec.ofNat 64 units) (enabledWord s t.core))
  else match freshHeld s t m.kept.held i.held with
  | .error f => .error (faultRec s f)
  | .ok held =>
  match freshPost s1 t m.kept.post with
  | .error f => .error (faultRec s f)
  | .ok post =>
  let live := regsOf h 0 (BitVec.ofNat 64 (field h 0x28 8))
  match (bindHeads s1 t held live.c).bind (bindHandles s1 t held) with
  | none => .error (s.slotTrap 0x78 0 target)
  | some c =>
    let s3 := s1.setCtx t (imageCtx s1 old i m held post { live with c := c })
    let s3 := restorePanes s3 t i m mask
    let s3 := (s3.resyncHeads t).resyncWells t
    let s3 := (s3.writeBackAll t.core t).modCore t.core (fun k => { k with l1 := [] })
    let s3 := (s3.modTask m.task (moveMember t m)).at_ s3.cc (.paneGrant t.core)
    .ok { s3 with saved := s3.saved.map (fun x => if x.image = m.image ∧ !x.restored ∧ !x.lostImage then { x with restored := true } else x) }

/-- CSV ld (15 R290; 22 R378). -/
def execCsvLd (h : Hdr) (a b : BitVec 5) (s : State) : Res :=
  slotOp (.csvLd h a b) h s (fun s =>
    let ea := s.rs b
    onTarget s (s.rs a) (fun t => onImage s ea (
      if (s.ctx t).st ≠ .free ∨ (s.ctx t).task.isSome then wrongState s (s.rs a) else
      match restorable s ea with
      | none => wrongState s (s.rs a)
      | some m =>
        match loadImage s ea with
        | .error x => raiseOrWait s x
        | .ok (i, s1) =>
          match restoreImage s1 t m i (s.rs a) with
          | .error x => .next (s.raise x)
          | .ok s => .next s)))

end Sys2Proof.Machine
end

