-- ==== Sys2Proof/Machine/Host.lean ====
section
/-!
DEFINITION. What the host does to the package: command streams (14 R247; 23 R399, R400), quiesce, Function Level Reset (23 R398), the registers of its
windows (23 R394-R396).
-/

namespace Sys2Proof.Machine

/-- A step of the host: in BOOTSTAT 3 the package answers ID and BOOTSTAT only (23 R402). -/
def hostStep (s : State) (k : State → State) : Option Res := some (.next (if s.host.boot = 3 then s else k s))

/-! ## Command streams (14 R247; 23 R399, R400) -/

/-- A tail write: a lower one is ignored; the command processor sees it in the second cc (14 R247). -/
def writeTail (s : State) (d : Nat) (x : BitVec 64) : State :=
  if x.toNat ≤ (s.die d).tail.toNat then s
  else (s.modDie d (fun e => { e with tail := x })).after 2 (.streamWake d x)
/-- TAIL (14 R247). -/
def execTail (s : State) : Res :=
  evStep s (fun
    | .tail d x => hostStep s (fun s => writeTail s d x)
    | _ => none)
/-- STREAM_WAKE: a command processor sees a tail written two cc before (14 R247). -/
def execStreamWake (s : State) : Res :=
  evStep s (fun
    | .streamWake d x => some (.next (s.modDie d (fun e => if e.seen.toNat < x.toNat ∧ x.toNat ≤ e.tail.toNat then { e with seen := x } else e)))
    | _ => none)

/-- A write of STREAMd while its command processor is stopped sets HEAD and TAIL to the address (23 R394, R399). -/
def writeStream (s : State) (d : Nat) (x : BitVec 64) : State :=
  let a := BitVec.ofNat 64 (wbits x 56 2 * 4)
  if (s.ctx (.cp d)).st = .front then s
  else (s.unschedule (fun e => match e with
      | .streamWake k _ => k == d
      | _ => false)).modDie d (fun e => { e with stream := a, head := a, tail := a, seen := a, moved := true })
/-- STREAM (23 R399). -/
def execStream (s : State) : Res :=
  evStep s (fun
    | .stream d x => hostStep s (fun s => writeStream s d x)
    | _ => none)

/-- A write of 1 to a CPCTL run bit: the command processor resumes, at the stream address when one was written while it was stopped (23 R399, R400). It is not started anew
there: its issue-cycle and freeze counters go on, a choice (05 R99, log 61). -/
def runStream (s : State) (d : Nat) : State :=
  let a := Agent.cp d
  if (s.ctx a).st = .front then s else
  let moved := (s.die d).moved
  let pc := (s.die d).stream
  let s := if moved then
      s.modCtx a (fun c =>
        let live := { c.live with c := { c.live.c with pc := pc } }
        { c with live := live, ckpt := live, ckBund := pc.setWidth 57 })
    else s
  (s.resume a).modDie d (fun e => { e with run := true, moved := false, head := ((s.resume a).ctx a).live.c.pc })
/-- CPCTL_RUN (23 R400). -/
def execCpctlRun (s : State) : Res :=
  evStep s (fun
    | .cpctlRun d => hostStep s (fun s => runStream s d)
    | _ => none)
/-- A stop of a running command processor at its next boundary (23 R400). -/
def stopStream (s : State) (d : Nat) : State := if (s.ctx (.cp d)).st = .front then requestStop s (.cp d) 0x70 0 else s
/-- CPCTL_STOP (23 R400). -/
def execCpctlStop (s : State) : Res :=
  evStep s (fun
    | .cpctlStop d => hostStep s (fun s => stopStream s d)
    | _ => none)

/-! ## Quiesce (23 R398, R400) -/

/-- The contexts of cores that belong to a started task and run or are about to, of the virtual functions that satisfy a test. -/
def liveContexts (s : State) (p : Nat → Bool) : List Agent :=
  (s.ctxs.map (fun e => agentOf e.1)).filter (fun a => a.onCore && live s a && p (s.vfOf a))
/-- Ask every such context to stop as `wsw.out` does (23 R398). -/
def stopContexts (s : State) (p : Nat → Bool) : State :=
  (liveContexts s p).foldl (fun (s : State) a => if (s.ctx a).stopReq.isSome then s else requestStop s a 0x74 (BitVec.ofNat 64 (s.vfOf a))) s

/-- A write of 1 to QUIESCE (23 R398). -/
def quiesce (s : State) : State :=
  let s := s.modHost (fun h => { h with quiesce := true })
  let s := (List.range 4).foldl stopStream s
  (performStabStop (stopContexts s (fun _ => true))).at_ s.cc .quiesceComplete
/-- QUIESCE_REQUEST (23 R398). -/
def execQuiesceRequest (s : State) : Res :=
  evStep s (fun
    | .quiesceRequest => hostStep s quiesce
    | _ => none)
/-- Whether a stop, of those that a quiesce asked for or found asked for, has yet to take effect. -/
def stopsPending (s : State) : Bool := s.ctxs.any (fun e => e.2.stopReq.isSome && decide (e.2.st ≠ .stopped))
/-- QUIESCE_COMPLETE: QUIESCE[1] reads 1 once every stop has taken effect; until then it is looked at again in the next cc (23 R398). -/
def execQuiesceComplete (s : State) : Res :=
  evStep s (fun
    | .quiesceComplete => some (.next (
      if !s.host.quiesce ∨ s.host.quiesced then s
      else if stopsPending s then s.after 1 .quiesceComplete
      else s.modHost (fun h => { h with quiesced := true })))
    | _ => none)
/-- A write of 0 to QUIESCE: once quiesced it clears both bits, before that it is ignored (23 R400). -/
def withdrawQuiesce (s : State) : State := if s.host.quiesced then s.modHost (fun h => { h with quiesce := false, quiesced := false }) else s
/-- QUIESCE_WITHDRAW (23 R400). -/
def execQuiesceWithdraw (s : State) : Res :=
  evStep s (fun
    | .quiesceWithdraw => hostStep s withdrawQuiesce
    | _ => none)

/-! ## Function Level Reset (23 R398) -/

/-- A task of a virtual function is over: it neither completes nor raises events. -/
def silenceTask (s : State) (tk : Nat) : State := s.modTask tk (fun t => { t with gone := true, expired := true })
/-- A task of a virtual function is removed, with its saved members: its banks are given up. -/
def removeTask (s : State) (tk : Nat) : State :=
  let s := (s.saved.filter (fun m => m.task == tk && !m.restored)).foldl (fun (s : State) m => m.kept.held.foldl (fun (s : State) w => s.unreserve w.eff) s) s
  let s := { s with saved := s.saved.filter (fun m => m.task != tk) }
  (List.range 64).foldl (fun (s : State) cl =>
    if (s.cluster cl).banks.any (fun b => b.2 == 2 * tk + 1) then giveBanks s cl (2 * tk + 1) (BitVec.allOnes 32) else s) s
/-- The contexts of a virtual function, all stopped or halted, are freed as `csv.free` does, its tasks removed, its mailbox cleared. -/
def resetFunction (s : State) (vf : Nat) : State :=
  let mine := (s.ctxs.map (fun e => agentOf e.1)).filter (fun a => a.onCore && (s.ctx a).task.isSome && s.vfOf a == vf)
  let tks := (s.tasks.filter (fun t => !t.2.gone && bits t.2.owner.toNat 4 0 == vf)).map (·.1)
  let s := tks.foldl removeTask (mine.foldl freeContext (tks.foldl silenceTask s))
  s.modHost (fun h => { h with vfMbox := h.vfMbox.put {} vf {} })
/-- FUNCTION_LEVEL_RESET: it waits for the stops that it asks for. The PF is not a tenant and owns no context of a core: of it the mailbox block is cleared (23 R392, R398;
log 79). -/
def execFunctionLevelReset (s : State) : Res :=
  evStep s (fun
    | .functionLevelReset none => hostStep s (fun s => s.modHost (fun h => { h with mbox := {} }))
    | .functionLevelReset (some vf) => hostStep s (fun s =>
      if (liveContexts s (fun v => v == vf)).isEmpty then resetFunction s vf
      else (stopContexts s (fun v => v == vf)).after 1 (.functionLevelReset (some vf)))
    | _ => none)

/-! ## Registers of the windows (23 R394-R396) -/

/-- The bits of a base register with its enable bit: [51:lo] and [0]. -/
def baseBits (x : BitVec 64) (lo : Nat) : BitVec 64 := BitVec.ofNat 64 (wbits x 51 lo * 2 ^ lo + wbits x 0 0)
/-- A write to a mailbox block at an offset of its window: BASE or CONS (23 R396). -/
def writeMailbox (m : Mailbox) (off : Nat) (x : BitVec 64) : Mailbox :=
  if off = 0xA0 then { m with base := baseBits x 13 } else if off = 0xAC then { m with cons := x.setWidth 32 } else m

/-- A write to a register of the PF window; one that has a behaviour of its own is that step (23 R394). -/
def writePf (s : State) (off : Nat) (x : BitVec 64) : State :=
  let die := fun (base : Nat) (w : Nat) => (off - base) / w
  if 0x10 ≤ off ∧ off < 0x30 ∧ off % 8 = 0 then s.at_ s.cc (.tail (die 0x10 8) x)
  else if off = 0x50 then s.modHost (fun h => { h with proctab := baseBits x 13 })
  else if off = 0x58 then s.at_ s.cc (if x.getLsbD 0 then .quiesceRequest else .quiesceWithdraw)
  else if 0x60 ≤ off ∧ off < 0x80 ∧ off % 8 = 0 then s.modDie (die 0x60 8) (fun e => { e with cpring := baseBits x 15 })
  else if 0x90 ≤ off ∧ off < 0xA0 ∧ off % 4 = 0 then s.modDie (die 0x90 4) (fun e => { e with cpcons := x.setWidth 32 })
  else if off = 0xB0 then
    let s := (List.range 4).foldl (fun (s : State) d => if x.getLsbD d then s.at_ s.cc (.cpctlRun d) else s) s
    (List.range 4).foldl (fun (s : State) d => if x.getLsbD (4 + d) then s.at_ s.cc (.cpctlStop d) else s) s
  else if 0xC0 ≤ off ∧ off < 0xE0 ∧ off % 8 = 0 then s.at_ s.cc (.stream (die 0xC0 8) x)
  else s.modHost (fun h => { h with mbox := writeMailbox h.mbox off x })
/-- HOST_REGISTER_WRITE (23 R394-R396). -/
def execHostRegisterWrite (s : State) : Res :=
  evStep s (fun
    | .hostRegisterWrite none off x => hostStep s (fun s => writePf s off x)
    | .hostRegisterWrite (some v) off x => hostStep s (fun s => s.modHost (fun h => { h with vfMbox := h.vfMbox.put {} v (writeMailbox (h.vfMbox.get {} v) off x) }))
    | _ => none)

/-! ## What the windows read (23 R394-R396) -/

/-- ID (23 R394). -/
def idBytes : List Byte := toBytes 2 0x1A9E ++ toBytes 2 0x9000 ++ [Config.stepping, 2, 0, 0]
/-- BOOTSTAT (23 R394, R402). -/
def bootstatBytes (s : State) : List Byte := toBytes 8 (s.host.boot + s.host.bootWhy * 2 ^ 8 + s.host.secver.toNat * 2 ^ 16)
/-- A mailbox block at 0x00A0 (23 R396). -/
def mailboxBytes (m : Mailbox) : List Byte := toBytes 8 m.base.toNat ++ toBytes 4 m.prod.toNat ++ toBytes 4 m.cons.toNat
/-- One field of each die, in die order. -/
def perDie (s : State) (n : Nat) (f : Die → Nat) : List Byte := (List.range 4).flatMap (fun d => toBytes n (f (s.die d)))
/-- FABCNT: what each port has counted, which no rule fixes, and its link state (23 R394, log 18). -/
def fabcnt (s : State) : List Byte :=
  (List.range 48).flatMap (fun p =>
    let x := s.host.ports.get {} p
    [x.sent, x.recv, x.fec, x.bad].zipIdx.flatMap (fun c => toBytes 8 (c.1 + Config.portCount p c.2 s.cc).toNat) ++ toBytes 32 x.up.toNat)

/-- The fields of the PF window: offset and bytes (23 R394). -/
def pfFields (s : State) : List (Nat × List Byte) :=
  let h := s.host
  [ (0x0000, idBytes), (0x0008, bootstatBytes s), (0x0010, perDie s 8 (·.tail.toNat)), (0x0030, perDie s 8 (·.head.toNat)), (0x0050, toBytes 8 h.proctab.toNat)
  , (0x0058, toBytes 8 (h.quiesce.toNat + h.quiesced.toNat * 2)), (0x0060, perDie s 8 (·.cpring.toNat)), (0x0080, perDie s 4 (·.cpprod.toNat))
  , (0x0090, perDie s 4 (·.cpcons.toNat)), (0x00A0, mailboxBytes h.mbox), (0x00B0, toBytes 4 (packNat 1 (fun d => (s.die d).run.toNat) 4))
  , (0x00C0, perDie s 8 (·.stream.toNat)), (0x0100, perDie s 8 (·.cec.toNat)), (0x0120, toBytes 8 h.stkBase.toNat ++ toBytes 8 h.stkSize.toNat), (0x1000, fabcnt s) ]
/-- The fields of a VF window: offset and bytes (23 R395). -/
def vfFields (s : State) (v : Nat) : List (Nat × List Byte) :=
  let rights := s.host.vfRights.getLsbD v
  [ (0x0000, idBytes), (0x0008, toBytes 8 (v + rights.toNat * 2 ^ 5)), (0x00A0, mailboxBytes (s.host.vfMbox.get {} v)) ]
    ++ (if rights then [(0x1000, fabcnt s)] else [])
/-- The byte at an offset of a window; one that no field lists reads 0 (23 R394). -/
def windowByte (fs : List (Nat × List Byte)) (off : Nat) : Byte := match fs.find? (fun f => decide (f.1 ≤ off ∧ off < f.1 + f.2.length)) with
  | some f => f.2.getD (off - f.1) 0
  | none => 0
/-- The byte that a host read of a window receives, the PF's or a VF's; none where the package does not answer: without power, and in BOOTSTAT 3 for all but ID and
BOOTSTAT (23 R389, R394, R395, R402). -/
def hostByte (s : State) (vf : Option Nat) (off : Nat) : Option Byte :=
  let fs := (vf.map (vfFields s)).getD (pfFields s)
  if !s.powered ∨ (s.host.boot = 3 ∧ (if vf.isSome then 8 else 16) ≤ off) then none else some (windowByte fs off)
/-- The requester of an agent's access to the host range: the VF that owns its process, or the PF for scribes, command processors and the engines that they
start (23 R393; the link alone shows it, log 79). -/
def hostRequester (s : State) (a : Agent) : Option Nat := if a.onCore then some (s.vfOf a) else none

end Sys2Proof.Machine
end

