-- ==== Sys2Proof/Machine/Boot.lean ====
section
/-!
DEFINITION. Power, heat, boot, attestation and the sideband (23 R389-R391, R401-R404).
-/

namespace Sys2Proof.Machine

/-! ## Power (23 R389) -/

/-- Steps of the outside world, which power leaves scheduled. -/
def external : Ev → Bool
  | .tail _ _ | .stream _ _ | .cpctlRun _ | .cpctlStop _ | .quiesceRequest | .quiesceWithdraw | .hostRegisterWrite _ _ _ | .functionLevelReset _ => true
  | .powerOnReset | .bootVerification _ false | .powerRemoval | .thermalWarning _ | .thermtrip _ => true
  | .getVersion | .getCapabilities | .negotiateAlgorithms | .getDigests | .getCertificate _ _ _ | .challenge _ _ | .getMeasurements _ _ => true
  | .unsupportedRequest _ | .sidebandRefresh _ => true
  | _ => false
/-- The package after every state is lost but what fuses hold; the model's own clock and counters of free values and numbers run on. -/
def afterPower (s : State) (on : Bool) : State :=
  { State.reset with cc := s.cc, fuses := s.fuses, ids := s.ids, fresh := s.fresh, outbox := s.outbox, powered := on, agenda := s.agenda.filter (fun e => external e.2) }
/-- POWER_ON_RESET (23 R389). -/
def execPowerOnReset (s : State) : Res :=
  evStep s (fun
    | .powerOnReset => some (.next (afterPower s true))
    | _ => none)
/-- POWER_REMOVAL (23 R389). -/
def execPowerRemoval (s : State) : Res :=
  evStep s (fun
    | .powerRemoval => some (.next (afterPower s false))
    | _ => none)

/-! ## Heat (23 R391, R396) -/

/-- THERMAL_WARNING: a notice to the PF mailbox, and the sideband; nothing stops (23 R391, R396). -/
def execThermalWarning (s : State) : Res :=
  evStep s (fun
    | .thermalWarning d =>
      let a := Agent.cp d
      some (.next ((s.notify { s.noticeOf a 0x54 3 {} with dest := .pf, ext := reportExt { unit := 7, who := a } }).send (.thermal d)))
    | _ => none)
/-- THERMTRIP: the die asserts THERMTRIP#; the device itself stops nothing (23 R391). -/
def execThermtrip (s : State) : Res :=
  evStep s (fun
    | .thermtrip d => some (.next ((s.modDie d (fun x => { x with trip := true })).send (.thermtrip d)))
    | _ => none)

/-! ## Boot (23 R402) -/

/-- Why the ROM stops: 1 a bad magic or length, 2 a bad signature, 3 a security version below the fused minimum; 0 where it does not (23 R402). -/
def bootReason (raised : Nat) (img : List Byte) : Nat :=
  let body := img.drop 512
  if img.length < 512 ∨ field img 0 4 ≠ 0x46574D57 ∨ field img 8 4 ≠ body.length then 1
  else if !Config.fwVerify (sha256 (img.take 128 ++ body)) ((img.drop 128).take 384) then 2
  else if field img 4 4 < Config.fusedMinimum.toNat + raised then 3
  else 0
/-- The time that the verification takes (23 R402; log 7). -/
def verifyTime : Nat := 1
/-- Verified firmware runs and sets its defaults, and may raise the fused minimum (19 R346, R348; 23 R402, R404). -/
def runFirmware (s : State) (img : List Byte) : State :=
  { s.modHost (fun h =>
      { h with boot := 2, secver := BitVec.ofNat 32 (field img 4 4), stkBase := Config.stackWindow.1, stkSize := Config.stackWindow.2
               vfRights := Config.fabricRights, routes := Config.routes.foldl (fun m r => m.put 0 r.1 r.2) [], m2 := sha256 img, m3 := Config.configDigest })
    with fuses := s.fuses + Config.fuseRaise img }
/-- BOOT_VERIFICATION: the ROM begins to verify an image; then verified firmware runs, or the ROM stops (23 R402, R404). -/
def execBootVerification (s : State) : Res :=
  evStep s (fun
    | .bootVerification img false => some (.next (
      if s.host.boot ≠ 0 then s else (s.modHost (fun h => { h with boot := 1 })).after verifyTime (.bootVerification img true)))
    | .bootVerification img true => some (.next (
      if s.host.boot ≠ 1 then s else
      match bootReason s.fuses img with
      | 0 => runFirmware s img
      | r => s.modHost (fun h => { h with boot := 3, bootWhy := r })))
    | _ => none)

/-! ## Attestation (23 R403, R404) -/

/-- An SPDM request: in BOOTSTAT 3 it is not answered (23 R402). -/
def spdm (s : State) (m : Msg) : Option Res := some (.next (if s.host.boot = 3 then s else s.send m))
/-- The measurement of an index 1 to 7 (23 R404). -/
def measurement (s : State) (i : Nat) : BitVec 256 :=
  if i = 1 then Config.romDigest else if i = 2 then s.host.m2 else if i = 3 then s.host.m3 else (s.die (i - 4)).meas
/-- The measurements that an index asks for; 0xFF asks for all. -/
def measured (s : State) (i : Nat) : List (Nat × BitVec 256) :=
  if i = 0xFF then (List.range 7).map (fun k => (k + 1, measurement s (k + 1)))
  else if 1 ≤ i ∧ i ≤ 7 then [(i, measurement s i)] else []
/-- The digest of the slot-0 certificate chain. -/
def chainDigest : BitVec 256 := sha256 Config.certChain

/-- GET_VERSION: 1.3 alone (23 R403). -/
def execGetVersion (s : State) : Res :=
  evStep s (fun
    | .getVersion => spdm s (.version [0x13])
    | _ => none)
/-- GET_CAPABILITIES: certificates, challenges and signed measurements, no session (23 R403). -/
def execGetCapabilities (s : State) : Res :=
  evStep s (fun
    | .getCapabilities => spdm s (.capabilities { cert := true, chal := true, measSig := true })
    | _ => none)
/-- NEGOTIATE_ALGORITHMS: it offers RSASSA-PSS 3072 and SHA-256 only (23 R403). -/
def execNegotiateAlgorithms (s : State) : Res :=
  evStep s (fun
    | .negotiateAlgorithms => spdm s (.algorithms .rsassaPss3072 .sha256)
    | _ => none)
/-- GET_DIGESTS (23 R403). -/
def execGetDigests (s : State) : Res :=
  evStep s (fun
    | .getDigests => spdm s (.digests chainDigest)
    | _ => none)
/-- GET_CERTIFICATE: slot 0 only (23 R403). -/
def execGetCertificate (s : State) : Res :=
  evStep s (fun
    | .getCertificate slot off len => spdm s (if slot = 0 then .certificate ((Config.certChain.drop off).take len) else .unsupported 0x82)
    | _ => none)
/-- CHALLENGE: signed with the identity key; slot 0 only (23 R403). -/
def execChallenge (s : State) : Res :=
  evStep s (fun
    | .challenge slot nonce => spdm s (
      if slot = 0 then .challengeAuth chainDigest nonce (Config.sign (sha256 (digestBytes chainDigest ++ digestBytes nonce)))
      else .unsupported 0x83)
    | _ => none)
/-- GET_MEASUREMENTS: signed (23 R403, R404). -/
def execGetMeasurements (s : State) : Res :=
  evStep s (fun
    | .getMeasurements i nonce =>
      let ms := measured s i
      spdm s (if ms.isEmpty then .unsupported 0xE0
        else .measurements ms nonce (Config.sign (sha256 (ms.flatMap (fun m => BitVec.ofNat 8 m.1 :: digestBytes m.2) ++ digestBytes nonce))))
    | _ => none)
/-- UNSUPPORTED_REQUEST (23 R403). -/
def execUnsupportedRequest (s : State) : Res :=
  evStep s (fun
    | .unsupportedRequest code => spdm s (.unsupported code)
    | _ => none)

/-- SIDEBAND_REFRESH: the temperatures, currents and power that the sideband reports (23 R401). -/
def execSidebandRefresh (s : State) : Res :=
  evStep s (fun
    | .sidebandRefresh vals => some (.next (s.modHost (fun h => { h with side := vals })))
    | _ => none)

/-- What the board controller reads through the sideband: ID, BOOTSTAT, and the sensors, which do not answer in BOOTSTAT 3; nothing without power (23 R389, R401, R402). -/
def sidebandRead (s : State) : Option (List Byte × List Byte × Option Sensors) :=
  if s.powered then some (idBytes, bootstatBytes s, if s.host.boot = 3 then none else some s.host.side) else none

end Sys2Proof.Machine
end

