-- ==== Sys2Proof/Machine/Control.lean ====
section
/-!
DEFINITION. Meanings of the lead-slot families (04 R68-R77): each is the end of its bundle, with the transfer of control that it makes.
-/

namespace Sys2Proof.Machine

/-- A branch target: the bundle's address plus four times a signed displacement (04 R68). -/
def target {n : Nat} (s : State) (d : BitVec n) : BitVec 64 := s.bpc + 4 * d.signExtend 64

/-- The cost of BR, BRU and CALL: 1 on a scribe or command processor, else 0 as predicted and 4 against the prediction (04 R70). -/
def branchCost (s : State) (predicted taken : Bool) : Nat :=
  if s.who.onCore then (if predicted == taken then 0 else 4) else 1

/-- The depths that the details of 0x11 to 0x14 carry (22 R369). Those of 0x10 hold the mask there, which 04 R69 leaves to that table (log 74). -/
def depthWord (s : State) : BitVec 64 := BitVec.ofNat 64 (s.regs.c.rets.length + s.regs.c.loops.length * 2 ^ 8)

/-- Push a return address (04 R69). -/
def pushRet (s : State) : State := s.modStage (fun c => { c with rets := s.bnxt.setWidth 57 :: s.regs.c.rets })

/-- Bits [1:0] of a jump address (04 R69). -/
def jumpMisaligned (x : Word) : Bool := x.extractLsb' 0 2 != 0

/-- NEXT (04 R69). -/
def execNext (h : LHdr) (s : State) : Res :=
  leadOp (.next h) h s 0 (fun s => s.endBundle h s.bnxt 0)

/-- BR (04 R69, R70). -/
def execBr (h : LHdr) (disp : BitVec 13) (s : State) : Res :=
  let p := h.hint || h.g == 0
  leadOp (.br h disp) h s (branchCost s p false) (fun s => s.endBundle h (target s disp) (branchCost s p true))

/-- BRU (04 R69, R70). -/
def execBru (h : LHdr) (mk : BitVec 4) (nsel : Bool) (disp : BitVec 8) (s : State) : Res :=
  leadOp (.bru h mk nsel disp) h s (branchCost s h.hint false) (fun s =>
    let m := s.rm mk
    let all := m == BitVec.allOnes 128
    let none_ := m == 0
    if !all && !none_ then trapAt s 0x10 0 (m.setWidth 64) ((m >>> 64).setWidth 64)
    else if (!nsel && all) || (nsel && none_) then s.endBundle h (target s disp) (branchCost s h.hint true)
    else s.endBundle h s.bnxt (branchCost s h.hint false))

/-- JMPI (04 R69, R70). -/
def execJmpi (h : LHdr) (a : BitVec 5) (s : State) : Res :=
  leadOp (.jmpi h a) h s 0 (fun s =>
    if jumpMisaligned (s.rs a) then trapAt s 0x24 0 (s.rs a) else s.endBundle h (s.rs a) 4)

/-- CALL (04 R69, R70). -/
def execCall (h : LHdr) (disp : BitVec 13) (s : State) : Res :=
  let p := h.hint || h.g == 0
  leadOp (.call h disp) h s (branchCost s p false) (fun s =>
    if s.regs.c.rets.length = 16 then trapAt s 0x11 0 (depthWord s)
    else (pushRet s).endBundle h (target s disp) (branchCost s p true))

/-- CALLI (04 R69, R70). -/
def execCalli (h : LHdr) (a : BitVec 5) (s : State) : Res :=
  leadOp (.calli h a) h s 0 (fun s =>
    if jumpMisaligned (s.rs a) then trapAt s 0x24 0 (s.rs a)
    else if s.regs.c.rets.length = 16 then trapAt s 0x11 0 (depthWord s)
    else (pushRet s).endBundle h (s.rs a) 4)

/-- RET (04 R69, R70): an entry holds an address's 57 bits, of which the highest stands for those above it too (04 R86, R88). -/
def execRet (h : LHdr) (s : State) : Res :=
  leadOp (.ret h) h s 0 (fun s =>
    match s.regs.c.rets with
    | [] => trapAt s 0x12 0 (depthWord s)
    | r :: rs => (s.modStage (fun c => { c with rets := rs })).endBundle h (r.signExtend 64) 0)

/-- Push a loop level, or trap when the loop stack is full (04 R72). -/
def pushLevel (h : LHdr) (s : State) (l : Level) (f8 : Option Bool) : Res :=
  if s.regs.c.loops.length = 6 then trapAt s 0x13 0 (depthWord s)
  else
    let s := s.modStage (fun c => { c with loops := l :: s.regs.c.loops })
    let s := match f8 with
      | some x => s.leadResult (s.wF 8 x)
      | none => s
    s.endBundle h s.bnxt 0

/-- LOOP of a counted level (04 R72). -/
def execLoop (h : LHdr) (a : BitVec 5) (s : State) : Res :=
  leadOp (.loop h a) h s 0 (fun s => pushLevel h s { kind := .counted, kc := s.rs a, start := s.bnxt } none)

/-- LOOP of a pipelined level (04 R72). -/
def execLoopPipe (h : LHdr) (a b : BitVec 5) (s : State) : Res :=
  leadOp (.loopPipe h a b) h s 0 (fun s =>
    pushLevel h s { kind := .pipelined, kc := s.rs a, ec := s.rs b, start := s.bnxt } (some (s.rs a != 0)))

/-- SLOOP (04 R72). -/
def execSloop (h : LHdr) (k : BitVec 2) (b : BitVec 5) (s : State) : Res :=
  leadOp (.sloop h k b) h s 0 (fun s =>
    if s.regs.c.loops.length = 6 then trapAt s 0x13 0 (depthWord s)
    else if !(s.head k).bound then trapAt s 0x16 0 (k.setWidth 64)
    else pushLevel h s { kind := .stream, ec := s.rs b, start := s.bnxt, head := k } (some true))

/-- Replace the innermost loop level as the next bundle sees it (04 R73). -/
def setTop (s : State) (l : Level) : State := s.modStage (fun c => { c with loops := l :: s.regs.c.loops.drop 1 })
/-- Pop the innermost loop level (04 R73, R75). -/
def popTop (s : State) : State := s.modStage (fun c => { c with loops := s.regs.c.loops.drop 1 })

/-- Rotate by one, and write f8 by its name after the rotation (04 R73, R74). -/
def rotateF8 (s : State) (f8 : Bool) : State :=
  let r := s.rot + 15
  (s.modStage (fun c => { c with rot := r })).leadResult (.f (physF r 8) f8)

/-- LCLOSE of a pipelined or stream level once it is known whether more passes follow (04 R73). -/
def closeLevel (h : LHdr) (s : State) (l : Level) (more : Bool) : Res :=
  if more then
    let l := if l.kind = .pipelined then { l with kc := l.kc - 1 } else l
    (setTop (rotateF8 s true) { l with idx := l.idx + 1 }).endBundle h l.start 0
  else if l.ec ≠ 0 then
    (setTop (rotateF8 s false) { l with kc := 0, done := true, ec := l.ec - 1, idx := l.idx + 1 }).endBundle h l.start 0
  else (popTop (rotateF8 s false)).endBundle h s.bnxt (if l.kind = .stream then 4 else 0)

/-- LCLOSE (04 R73). -/
def execLclose (h : LHdr) (s : State) : Res :=
  leadOp (.lclose h) h s 0 (fun s =>
    match s.regs.c.loops with
    | [] => trapAt s 0x14 0 (depthWord s)
    | l0 :: _ =>
      let l := if l0.fin = 0 then { l0 with fin := s.bnxt } else l0
      match l.kind with
      | .counted =>
        if 1 < l.kc.toNat then (setTop s { l with kc := l.kc - 1, idx := l.idx + 1 }).endBundle h l.start 0
        else (popTop s).endBundle h s.bnxt 0
      | .pipelined => closeLevel h s l (decide (1 < l.kc.toNat))
      | .stream =>
        if l.done then closeLevel h s l false
        else if !(s.head l.head).bound then trapAt s 0x16 0 (l.head.setWidth 64)
        else match s.latched s.who (s.head l.head) with
          | none => .next (s.hold (s.queueHold l.head))
          | some e => closeLevel h s l (!e.2))

/-- LEXIT (04 R75). -/
def execLexit (h : LHdr) (disp : BitVec 13) (s : State) : Res :=
  leadOp (.lexit h disp) h s 0 (fun s =>
    match s.regs.c.loops with
    | [] => trapAt s 0x14 0 (depthWord s)
    | l :: _ =>
      if disp ≠ 0 then (popTop s).endBundle h (target s disp) 0
      else if l.fin = 0 then trapAt s 0x14 0 (depthWord s)
      else (popTop s).endBundle h l.fin 0)

/-- The context of the bundle ends: its last effect is the end itself, and loads still outstanding are discarded (04 R76; 14 R256). A blocking claim of it is gone,
so a later one may fit (11 R206). A scribe or command processor issues nothing more, and stops when that effect performs (14 R249; 23 R400). -/
def haltCtx (s : State) (a : Agent) : State :=
  let c := s.ctx a
  let s := s.modCtx a (fun c =>
    { (if a.onCore then State.endRun c else c) with
      st := if a.onCore then .halted else c.st, post := if a.onCore then c.post else some { kind := .halt }
      flight := c.flight.filter (fun e => e.kind == .fetch), empty := 0, stopReq := none, step := false, claim := 0 })
  if a.onCore then
    let s := if c.claim = 0 then s else s.at_ s.cc (.paneGrant a.core)
    s.modCore a.core (fun x => { x with posA := if x.posA = some a.ctxNo then none else x.posA
                                        posB := if x.posB = some a.ctxNo then none else x.posB
                                        lastB := if x.posB = some a.ctxNo then none else x.lastB })
  else s

/-- HALT (04 R76). -/
def execHalt (h : LHdr) (s : State) : Res :=
  leadOp (.halt h) h s 0 (fun s =>
    (s.addHeld .halt []).endBundle h s.bnxt 0 (fun s => haltCtx s s.who))

/-- The trap of TRAPI and BKPT: its cause and its code (04 R77; 22 R368). -/
def codeTrap (cause : Nat) (code : BitVec 64) (bund : BitVec 57) : TrapRec := { cause := cause, det := { d0 := code }, bund := bund }
/-- A trap that the lead slot raises after its bundle: the checkpoint stands at the end of the bundle, whose effects are released. The context takes the trap once
they have performed (04 R77). -/
def trapAfter (h : LHdr) (s : State) (cause : Nat) (code : BitVec 13) : Res :=
  s.endBundle h s.bnxt 0 (fun s =>
    let a := s.who
    if s.unperformed a || s.remotePending a 5 then
      s.modCtx a (fun c => { c with post := some { kind := .trap, want := code.setWidth 32, ref := cause, bund := s.bpc.setWidth 57 } })
    else s.takeTrap a (codeTrap cause (code.setWidth 64) (s.bpc.setWidth 57)))

/-- TRAPI (04 R77). -/
def execTrapi (h : LHdr) (code : BitVec 13) (s : State) : Res :=
  leadOp (.trapi h code) h s 0 (fun s => trapAfter h s 0x73 code)

/-- BKPT (04 R77). -/
def execBkpt (h : LHdr) (code : BitVec 13) (s : State) : Res :=
  leadOp (.bkpt h code) h s 0 (fun s => trapAfter h s 0x72 code)

end Sys2Proof.Machine
end

