-- ==== Sys2Proof/Machine/Matrix.lean ====
section
/-!
DEFINITION. Meanings of the matrix families: MXLD, MXA, MXAV, MXRK, MXRD, MXSC, MXSV, MXPN (09 R171-R186; 11 R196-R206; 06 R123, R126).
-/

namespace Sys2Proof.Machine

/-! ## Checks at issue -/

/-- %panes as a word (09 R172). -/
def grantedWord (c : Ctx) : BitVec 64 := BitVec.ofNat 64 (panesWord c)
/-- A slot that names panes: every one must be granted (09 R172). -/
def panesOp (s : State) (ps : List Nat) (k : Res) : Res :=
  if ps.all (fun p => (s.me.panes.getD p none).isSome) then k else trapAt s 0x08 0 (grantedWord s.me)
/-- The first physical pane of a logical pane. -/
def mainPane (s : State) (p : Nat) : Nat := (s.me.panes.getD p none).getD 0
/-- The trap of a reserved bit, or a combination of values, with the offending value (09 R174, R181, R182). -/
def badValue (s : State) (x : Word) : Res := trapAt s 0x02 0 x
/-- The landing distance of a class (04 R90; 09 R175). -/
def landDist (s : State) (lc : BitVec 3) : Nat := Nat.max (s.regs.c.lc.get lc.toFin).toNat 1

/-- Whether a slot reads or writes a tile too early, or must wait for its operations (09 R176). -/
def tileOp (s : State) (z : Nat) (k : Res) : Res :=
  let p := paneOf s s.who.core (mainPane s (z / 2))
  let due := (p.tile (z % 2)).done
  if s.me.icyc.toNat < due then trapAt s 0x06 0 (BitVec.ofNat 64 z) (BitVec.ofNat 64 (due - s.me.icyc.toNat))
  else if p.ops.any (fun o => o.fam != .mxld && o.tile == z % 2) then .next (s.hold {})
  else k

/-! ## Tile fetches (09 R174, R178-R180; 11 R199-R202) -/

/-- What a slot makes of its descriptor at issue. -/
inductive Plan where
  | trap (r : Res)
  | wait (h : Hold)
  | fail (q : TileReq) (t : TrapRec) (s : State)
  | go (q : TileReq) (d : RegionDesc) (desc : List (Loc × Nat)) (stale : Option (Nat × Nat)) (s : State)

/-- The fault of a tile fetch, taken before the context's next issue (09 R180; 22 R368). -/
def fetchFault (s : State) (f : AFault) : TrapRec :=
  { cause := f.cause, det := { d0 := 4, d1 := f.d1, d2 := f.d2, d3 := f.d3 }, bund := s.bpc.setWidth 57, dfr := true }

/-- The first descriptor field that is reserved and not zero, or out of range, as a number (11 R199, R200; 22 R369). -/
def descValue (bs : List Byte) : Nat :=
  let rows := field bs 0 4
  let rowlen := field bs 4 4
  if rows = 0 ∨ 2 ^ 20 < rows then rows else
  if rowlen < 32 ∨ 2 ^ 20 < rowlen ∨ rowlen % 32 ≠ 0 then rowlen else
  if bits (field bs 8 2) 14 12 ≠ 0 then field bs 8 2 else
  if bits (field bs 11 1) 7 2 ≠ 0 then field bs 11 1 else
  if zeroBytes bs 24 8 then field bs 10 1 else field bs 24 8

/-- The 64 bytes that a tile fetch reads first, a region descriptor or the header of an image: those at a fabric address once they have come (09 R174, R185; 17 R408). -/
def fetchHead (s : State) (who : Agent) (ea : BitVec 64) (l : Loc) : Except AFault (List Byte × State) :=
  if l.fabric then (farRead s who .slot .engRd ea l 64).map (fun bs => (bs, s)) else
  let r := fetchSegs s who [(l, 64)]
  if r.2.1 then .error { cause := 0x51, d1 := BitVec.ofNat 64 (Loc.addr s l), d2 := ea } else .ok (r.1, r.2.2.2)
/-- Ask for the parts of a tile fetch that lie at fabric addresses; the writes that the context has released lie over them (18 R316, R330). -/
def fetchFar (s : State) (a : Agent) (id : Nat) (eas : List Nat) (segs : List (Loc × Nat)) : State :=
  ((segOffsets 0 segs).zip eas).foldl (fun (s : State) x =>
    if x.1.1.fabric then
      s.remoteRead { who := a, purpose := .load id x.1.2.2, bund := s.bpc.setWidth 57, va := BitVec.ofNat 64 x.2, det0 := some 4
                     laid := laidBytes x.1.1 x.1.2.1 (releasedPieces s a) } x.1.1.key x.1.2.1
    else s) s

/-- Read a descriptor and check what it fixes: a reserved field, a base, the entry's format, the column (09 R174; 11 R200). -/
def planFetch (s : State) (daddr coord : Word) (f : BitVec 4) (nr nc : Nat) (tr : Bool) : Plan :=
  let q : TileReq := { daddr := daddr, row0 := wbits coord 19 0, col0 := wbits coord 39 20, nr := nr, nc := nc, fmt := f, tr := tr }
  if daddr.toNat % 64 ≠ 0 then .fail q (fetchFault s (misaligned daddr)) s else
  match resolve s s.who .engRd .m daddr 64 with
  | .error e => .fail q (fetchFault s e) s
  | .ok (l, s1) =>
    if ownUnknown s1 s.who l 64 then .wait {} else
    match fetchHead s1 s.who daddr l with
    | .error f => if f.cause = 0 then .wait (farHold f) else .fail q (fetchFault s f) s1
    | .ok (bs, s1) =>
    let q := { q with desc := bs }
    match parseDesc bs with
    | none => .fail q (s.slotTrap 0x02 0 (BitVec.ofNat 64 (descValue bs))) s1
    | some d =>
      let proceed := fun (b32 : Bool) (stale : Option (Nat × Nat)) (s1 : State) =>
        if Fmt.sx f && q.col0 % blockSize b32 != 0 then Plan.trap (trapAt s 0x24 0 (BitVec.ofNat 64 q.col0)) else
        match baseMisaligned d f with
        | some b => .fail { q with b32 := b32 } (fetchFault s (misaligned (BitVec.ofNat 64 b))) s1
        | none => .go { q with b32 := b32 } d [(l, 64)] stale s1
      match d.gov with
      | none => proceed d.ib32 none s1
      | some x =>
        match govTableOf s (s.procOf s.who) with
        | none => .trap (govTrap s x 0)
        | some t =>
          let g := govEntry s t x
          if g.fmt ≠ f then .trap (govTrapAt s x)
          else proceed g.bs32 (if regionFresh s1 s.who d g then none else some (t, x)) (touchTags s1 s.who d g.fmt g.bs32)

/-- Issue a tile fetch with its pane operations: leases from now on, data after its latency, after a walk, or after the region's re-encode
(09 R179, R180; 11 R201, R202, R215). The line of its descriptor counts nothing towards the label's traffic, a choice (14 R261, log 84). `s0` is the state before the slot's translations; `ops` gives each physical pane's operation. -/
def issueFetch (s : State) (q : TileReq) (d : RegionDesc) (desc : List (Loc × Nat)) (stale : Option (Nat × Nat)) (s0 : State)
    (ops : Nat → TileReq → Option TrapRec → Option Nat → State → State) : Res :=
  let a := s.who
  let cls := spaceClass d.space
  let (id, s) := s.newId
  match resolvePieces s a .engRd d.space (tilePieces d q), stale with
  | .error f, none => .next (ops id q (some (fetchFault s f)) none s)
  | .error _, some (t, x) =>
    let s := addLeases s .fetch a id desc
    let s := s.addFlight a { id := id, kind := .fetch, dist := 0, cls := cls, arrived := false, waits := 1 }
    let s := touchStale s a t x q.daddr q.desc (fun r => { r with waiters := r.waiters ++ [(a, id, q, 1)] })
    .next (ops id q none none s)
  | .ok (segs, s), _ =>
    if segs.any (fun x => ownUnknown s a x.1 x.2) then .next (s.hold {}) else
    let far := segs.filter (fun x => x.1.fabric)
    let traffic := lineTraffic s a (segs.map (fun g => ({ g.1 with space := if g.1.space = .m then .ms else g.1.space }, g.2)))
    let r := fetchSegs s a segs
    let lat := fetchTime r.2.2.1 segs
    let walk := walkDelay s0 s a
    let s := addTraffic (addLeases r.2.2.2 .fetch a id (desc ++ segs)) a traffic
    let entry : Flight := { id := id, kind := .fetch, dist := 0, cls := cls, arrived := false, waits := 1 + far.length, buf := r.1 }
    match stale with
    | some (t, x) =>
      let s := s.addFlight a { entry with waits := 1 }
      let s := touchStale s a t x q.daddr q.desc (fun r => { r with waiters := r.waiters ++ [(a, id, q, Nat.max (Nat.max walk lat) 1)] })
      .next (ops id q none none s)
    | none =>
      let err := if r.2.1 then some (fetchFault s (poisonFault s segs (pieceAddrs (tilePieces d q)))) else none
      let w := Nat.max (Nat.max walk lat) 1
      let s := s.addFlight a { entry with fault := err }
      let s := (fetchFar s a id (pieceAddrs (tilePieces d q)) segs).after w (.loadLanding a id)
      .next (ops id q none (if walk ≠ 0 ∧ far.isEmpty then some (s.cc + w) else none) s)

/-- Queue an operation on the physical panes of a logical pane; a fetch that has failed already is taken in the next cc, one that will replay does so
after its walk. -/
def queueOn (s : State) (p : Nat) (o : PaneOp) : State :=
  let s := (physPanes s s.who p).foldl (fun (s : State) q =>
    let s := queueOp s s.who.core q o
    match o.replay with
    | some cc => s.at_ cc (.paneReplay s.who.core q)
    | none => s) s
  match o.fault with
  | some _ => s.after 1 (.paneFetchFailure s.who.core (mainPane s p))
  | none => s

/-- Change both physical panes of a logical pane. -/
def modLogical (s : State) (p : Nat) (f : Pane → Pane) : State :=
  (physPanes s s.who p).foldl (fun (s : State) q => modPane s s.who.core q f) s

/-- The cc at which the scheduled start `S` of an operation issued now falls (09 R175). -/
def startAt (s : State) (S : Nat) : Nat := s.cc + (S - s.me.icyc.toNat)
/-- The slot's fields that every operation carries. -/
def opBase (s : State) (id : Nat) : PaneOp :=
  { id := id, fam := .mxld, who := s.who, bund := s.bpc.setWidth 57, word := s.word, pos := s.pos }

/-! ## MXLD (09 R175, R178) -/

/-- MXLD queued on one logical pane. -/
def mxldOn (s : State) (p d : Nat) (o : PaneOp) : State :=
  let pn := paneOf s s.who.core (mainPane s p)
  let S := Nat.max (s.me.icyc.toNat + d) (if o.bank = 0 then pn.u0 else pn.u1)
  let s := queueOn s p { o with startCc := startAt s S, lat := 24 }
  modLogical s p (fun pn =>
    let pn := if o.bank = 0 then { pn with y0 := S + 24 } else { pn with y1 := S + 24 }
    pn.setBank o.bank { pn.bank o.bank with iset := true, iFmt := o.fmt, iGang := o.gang })

/-- MXLD (09 R178). -/
def execMxld (h : Hdr) (pnm : BitVec 4) (a : BitVec 5) (fmt : BitVec 4) (lc : BitVec 3) (gw : BitVec 2) (qb tr : Bool) (s : State) : Res :=
  slotOp (.mxld h pnm a fmt lc gw qb tr) h s (fun s =>
    let coord := s.rs (a + 1)
    let ps := maskPanes pnm
    panesOp s ps (
      if wbits coord 63 40 ≠ 0 then badValue s coord else
      let g := if gw = 0 then Fmt.gangOf fmt else gw.toNat + 1
      let K := (gangShape g).1
      let N := (gangShape g).2
      let d := landDist s lc
      let ops := fun (id : Nat) (q : TileReq) (err : Option TrapRec) (rep : Option Nat) (s : State) =>
        ps.foldl (fun (s : State) p =>
          mxldOn s p d { opBase s id with fam := .mxld, bank := qb.toNat, fmt := fmt, gang := g, req := some q, fault := err, replay := rep }) s
      match planFetch s (s.rs a) coord fmt K N tr with
      | .trap r => r
      | .wait h => .next (s.hold h)
      | .fail q t s1 => let (id, s1) := s1.newId; .next (ops id q (some t) none s1)
      | .go q dsc seg stale s1 => issueFetch s1 q dsc seg stale s ops))

/-! ## MXA, MXAV, MXRK (09 R181, R182) -/

/-- A tile as a zero-start operation issued to it leaves it, or an accumulating one (06 R123; 09 R181). -/
def issueTile (t : Tile) (zs : Bool) (rows width : Nat) (k : TileKind) (D : Nat) : Tile :=
  if zs then { t with poison := false, iRows := rows, iWidth := width, iKind := k, done := D } else { t with done := D }

/-- The poison and shape checks of an accumulating operation (06 R123; 09 R181). -/
def shapeOp (s : State) (z : Nat) (zs : Bool) (rows width : Nat) (k : TileKind) (go : Res) : Res :=
  let t := (paneOf s s.who.core (mainPane s (z / 2))).tile (z % 2)
  if zs then go
  else if t.poison then trapAt s 0x52 0 (BitVec.ofNat 64 z)
  else if t.iRows = rows ∧ t.iWidth = width ∧ t.iKind = k then go
  else badValue s 0

/-- Queue a product or ranking into a tile: its start, occupancy and done position (09 R175, R176). -/
def accOn (s : State) (z d : Nat) (o : PaneOp) : State :=
  let p := z / 2
  let pn := paneOf s s.who.core (mainPane s p)
  let y := if o.fam = .mxrk then 0 else if o.bank = 0 then pn.y0 else pn.y1
  let S := Nat.max (s.me.icyc.toNat + d) (Nat.max pn.f y)
  let D := S + o.occ + 108
  let s := queueOn s p { o with tile := z % 2, startCc := startAt s S, lat := o.occ + 108 }
  let k := if o.fam = .mxrk then TileKind.rank else fmtKind o.fmt
  let s := modLogical s p (fun pn =>
    let pn := { pn with f := Nat.max pn.f (S + o.occ) }
    let pn := if o.fam = .mxrk then pn else if o.bank = 0 then { pn with u0 := Nat.max pn.u0 (S + o.occ) } else { pn with u1 := Nat.max pn.u1 (S + o.occ) }
    pn.setTile (z % 2) (issueTile (pn.tile (z % 2)) o.zs o.rows o.width k D))
  s.modMe (fun c => { c with tiles := c.tiles ||| BitVec.ofNat 8 (2 ^ z) })

/-- What a bank will hold for an operation issued now: its format and gang (09 R181, R186). -/
def bankPlan (s : State) (z : Nat) (qb : Bool) (fmt : BitVec 4) : BitVec 4 × Nat :=
  let b := (paneOf s s.who.core (mainPane s (z / 2))).bank qb.toNat
  if b.iset then (b.iFmt, b.iGang) else (fmt, Fmt.gangOf fmt)

/-- The format checks of a product, and its inner length and width (09 R181). -/
def gangOp (s : State) (z : Nat) (qb rv : Bool) (fmt : BitVec 4) (k : Nat → Nat → Res) : Res :=
  let b := bankPlan s z qb fmt
  if b.2 < Fmt.gangOf fmt ∨ fmtKind fmt ≠ fmtKind b.1 then trapAt s 0x07 0 (fmt.setWidth 64)
  else
    let sh := gangShape b.2
    k (if rv then sh.2 else sh.1) (if rv then sh.1 else sh.2)

/-- MXA (09 R174, R181). -/
def execMxa (h : Hdr) (z : BitVec 3) (a b : BitVec 5) (fmt : BitVec 4) (qb rv zs : Bool) (s : State) : Res :=
  slotOp (.mxa h z a b fmt qb rv zs) h s (fun s =>
    let coord := s.rs b
    let zn := z.toNat
    panesOp s [zn / 2] (
      if wbits coord 63 52 ≠ 0 then badValue s coord else
      gangOp s zn qb rv fmt (fun kin w =>
        let m := wbits coord 48 40 + 1
        let d := landDist s (coord.extractLsb' 49 3)
        let issue := fun (run : Res) =>
          if 9216 < m * w then badValue s coord else shapeOp s zn zs m w (fmtKind fmt) run
        let ops := fun (id : Nat) (q : TileReq) (err : Option TrapRec) (rep : Option Nat) (s : State) =>
          accOn s zn d { opBase s id with fam := .mxa, bank := qb.toNat, fmt := fmt, zs := zs, rv := rv, rows := m, width := w, kin := kin, req := some q
                                          occ := m, fault := err, replay := rep }
        match planFetch s (s.rs a) coord fmt m kin false with
        | .trap r => r
        | .wait h => .next (s.hold h)
        | .fail q t s1 => issue (let (id, s1) := s1.newId; .next (ops id q (some t) none s1))
        | .go q dsc seg stale s1 => issue (issueFetch s1 q dsc seg stale s ops))))

/-- MXAV: one row from a vector register in lane form (09 R181). -/
def execMxav (h : Hdr) (z : BitVec 3) (a : BitVec 5) (fmt : BitVec 4) (qb rv zs : Bool) (s : State) : Res :=
  slotOp (.mxav h z a fmt qb rv zs) h s (fun s =>
    let zn := z.toNat
    panesOp s [zn / 2] (
      gangOp s zn qb rv fmt (fun kin w =>
        if 128 < kin ∧ a = 31 then badValue s 0 else
        shapeOp s zn zs 1 w (fmtKind fmt) (
          let els := (lanesOf (s.rv a) ++ (if 128 < kin then lanesOf (s.rv (a + 1)) else [])).take kin
          let (id, s) := s.newId
          .next (accOn s zn 1 { opBase s id with fam := .mxa, bank := qb.toNat, fmt := fmt, zs := zs, rv := rv, rows := 1, width := w, kin := kin
                                                 els := els, occ := 1 })))))

/-- MXRK (09 R182). -/
def execMxrk (h : Hdr) (z : BitVec 3) (a b : BitVec 5) (fmt : BitVec 4) (zs : Bool) (s : State) : Res :=
  slotOp (.mxrk h z a b fmt zs) h s (fun s =>
    let coord := s.rs b
    let zn := z.toNat
    panesOp s [zn / 2] (
      let e := wbits coord 59 52 + 1
      if wbits coord 63 60 ≠ 0 ∨ 192 < e then badValue s coord else
      let m := wbits coord 48 40 + 1
      let d := landDist s (coord.extractLsb' 49 3)
      let issue := fun (run : Res) => if 9216 < m * e then badValue s coord else shapeOp s zn zs m e .rank run
      let ops := fun (id : Nat) (q : TileReq) (err : Option TrapRec) (rep : Option Nat) (s : State) =>
        accOn s zn d { opBase s id with fam := .mxrk, fmt := fmt, zs := zs, rows := m, width := e, req := some q
                                        occ := m * (ceilDiv e 48 * ceilDiv e 48), fault := err, replay := rep }
      match planFetch s (s.rs a) coord fmt m e false with
      | .trap r => r
      | .wait h => .next (s.hold h)
      | .fail q t s1 => issue (let (id, s1) := s1.newId; .next (ops id q (some t) none s1))
      | .go q dsc seg stale s1 => issue (issueFetch s1 q dsc seg stale s ops)))

/-! ## Scales and readout (09 R183, R184) -/

/-- MXSC: 8 bytes that land as the combined scale of the panes it names (09 R183). -/
def execMxsc (h : Hdr) (pnm : BitVec 4) (a : BitVec 5) (lc : BitVec 3) (sp : BitVec 2) (s : State) : Res :=
  slotOp (.mxsc h pnm a lc sp) h s (fun s =>
    panesOp s (maskPanes pnm) (
      match resolveAccess s .load (Space.ofCode sp) (s.rs a) 8 8 with
      | .error f => .next (s.raise (faultRec s f))
      | .ok (segs, s') =>
        issueLoad s' lc (Space.ofCode sp) (fun o => s.rs a + BitVec.ofNat 64 o) segs (.scale ((maskPanes pnm).flatMap (physPanes s s.who))) (walkDelay s s' s.who)))

/-- The value of a long accumulator (09 R172). -/
def laVal (k : TileKind) (x : BitVec 64) : FVal := if k = .float then f64.decode x.toNat else FVal.ofInt x.toInt

/-- The register that a readout writes: LA times the combined scale, rounded once (09 R184). -/
def readout (t : Tile) (c : BitVec 32) (fmt : BitVec 4) (mode : Rnd) (o0 : Nat) (vd : VReg) : VReg :=
  let la := t.la.toArray
  let val := fun (i : Nat) =>
    let v := if o0 + i < t.rows * t.width then laVal t.kind (la.getD (o0 + i) 0) else laVal t.kind 0
    if t.kind = .rank then v else FVal.mul v (f32.decode c.toNat)
  if fmt = Fmt.fp64 then ofLanes64 (fun j => BitVec.ofNat 64 (f64.round mode 0 (val j)))
  else ofLanes (fun i => (valLane fmt mode (rbLane vd i) (val i)).1)

/-- Whether the two tiles of a pair differ (06 R126). -/
def tilesDiffer (x y : Tile) : Bool := x.rows != y.rows || x.width != y.width || x.kind != y.kind || x.sat != y.sat || x.la != y.la

/-- MXRD (09 R176, R184; 06 R123, R126). -/
def execMxrd (h : Hdr) (z : BitVec 3) (a b : BitVec 5) (fmt : BitVec 4) (rnd : BitVec 3) (s : State) : Res :=
  slotOp (.mxrd h z a b fmt rnd) h s (fun s =>
    let zn := z.toNat
    let x := s.rs b
    panesOp s [zn / 2] (
      if wbits x 15 14 ≠ 0 ∨ wbits x 63 20 ≠ 0 then badValue s x else
      tileOp s zn (
        let q := mainPane s (zn / 2)
        let p := paneOf s s.who.core q
        let t := p.tile (zn % 2)
        if t.poison then trapAt s 0x52 0 (z.setWidth 64)
        else if coverOf s s.who = 3 && tilesDiffer t ((paneOf s s.who.core (q / 2 * 2 + 1 - q % 2)).tile (zn % 2)) then
          trapAt s 0x50 0 (BitVec.ofNat 64 (a.toNat + b.toNat * 2 ^ 8))
        else
          let mode := if rnd = 4 then Rnd.st (wbits x 19 16 + 1) else Rnd.ofCode (rnd.setWidth 5)
          .next (s.result 6 [s.wV a (readout t p.c fmt mode (wbits x 13 0) (s.rv a))]))))

/-! ## MXSV (09 R185) -/

/-- MXSV status. -/
def execMxsvSt (h : Hdr) (z : BitVec 3) (d : BitVec 5) (s : State) : Res :=
  slotOp (.mxsvSt h z d) h s (fun s =>
    panesOp s [z.toNat / 2] (tileOp s z.toNat (
      .next (s.result 2 [s.wS d (BitVec.ofNat 64 (tileStatus ((paneOf s s.who.core (mainPane s (z.toNat / 2))).tile (z.toNat % 2))))]))))

/-- MXSV save: its writes are neither withheld nor undone (09 R185). -/
def execMxsvSave (h : Hdr) (z : BitVec 3) (a b : BitVec 5) (s : State) : Res :=
  slotOp (.mxsvSave h z a b) h s (fun s =>
    let zn := z.toNat
    let x := s.rs b
    panesOp s [zn / 2] (
      if wbits x 63 2 ≠ 0 then badValue s x else
      tileOp s zn (
        let pn := paneOf s s.who.core (mainPane s (zn / 2))
        let t := pn.tile (zn % 2)
        let n := t.rows * t.width
        if t.poison then trapAt s 0x52 0 (z.setWidth 64)
        else if (s.rs a).toNat % 64 ≠ 0 then .next (s.raise (faultRec s (misaligned (s.rs a))))
        else match resolveRange s s.who .store (Space.ofCode (x.extractLsb' 0 2)) (n / 16 + 3) (s.rs a) (64 + 8 * n) with
          | .error f => .next (s.raise (faultRec s f))
          | .ok (segs, s) =>
            let S := Nat.max (s.me.icyc.toNat + 1) (Nat.max pn.f t.done)
            let occ := ceilDiv n 64 + 1
            let (id, s) := s.newId
            let o : PaneOp := { opBase s id with fam := .save, tile := zn % 2, segs := segs, va := s.rs a, startCc := startAt s S, occ := occ, lat := occ + 4 }
            let s := (physPanes s s.who (zn / 2)).foldl (fun (s : State) q =>
              queueOp s s.who.core q (if q = mainPane s (zn / 2) then o else { o with segs := [] })) s
            .next (modLogical s (zn / 2) (fun pn =>
              { (pn.setTile (zn % 2) { pn.tile (zn % 2) with done := S + occ + 4 }) with f := Nat.max pn.f (S + occ) })))))

/-- MXSV restore: it lands as a fetch; a malformed image traps at its landing (09 R180, R185; `execPaneOperationStart`). -/
def execMxsvLd (h : Hdr) (z : BitVec 3) (a b : BitVec 5) (s : State) : Res :=
  slotOp (.mxsvLd h z a b) h s (fun s =>
    let zn := z.toNat
    let x := s.rs b
    let ea := s.rs a
    panesOp s [zn / 2] (
      if wbits x 63 7 ≠ 0 ∨ wbits x 3 2 ≠ 0 then badValue s x else
      tileOp s zn (
        let sp := Space.ofCode (x.extractLsb' 0 2)
        let d := landDist s (x.extractLsb' 4 3)
        let pn := paneOf s s.who.core (mainPane s (zn / 2))
        let S := Nat.max (s.me.icyc.toNat + d) pn.f
        let a := s.who
        let queue := fun (id : Nat) (img : List Byte) (err : Option TrapRec) (rep : Option Nat) (s : State) =>
          let t := tileOfImage img {}
          let k := match t.kind with
            | .float => 0
            | .integer => 1
            | .rank => 2
          let s := queueOn s (zn / 2) { opBase s id with fam := .restore, tile := zn % 2, rows := t.rows, width := t.width, kin := k, startCc := startAt s S
                                                         occ := 145, lat := 149, fault := err, replay := rep }
          let s := modLogical s (zn / 2) (fun pn =>
            { (pn.setTile (zn % 2) (issueTile (pn.tile (zn % 2)) true t.rows t.width t.kind (S + 149))) with f := Nat.max pn.f (S + 145) })
          s.modMe (fun c => { c with tiles := c.tiles ||| BitVec.ofNat 8 (2 ^ zn) })
        if ea.toNat % 64 ≠ 0 then .next (s.raise (faultRec s (misaligned ea))) else
        match resolve s a .engRd sp ea 64 with
        | .error f => let (id, s1) := s.newId; .next (queue id [] (some (fetchFault s f)) none s1)
        | .ok (l, s1) =>
          if ownUnknown s1 a l 64 then .next (s.hold {}) else
          match fetchHead s1 a ea l with
          | .error f => if f.cause = 0 then .next (s.hold (farHold f)) else let (id, s2) := s1.newId; .next (queue id [] (some (fetchFault s f)) none s2)
          | .ok (hd, _) =>
          let n := if tileImageBad hd then 0 else bits (field hd 0 8) 9 0 * bits (field hd 0 8) 17 10
          match resolveRange s1 a .engRd sp (n / 16 + 3) ea (64 + 8 * n) with
          | .error f => let (id, s2) := s1.newId; .next (queue id [] (some (fetchFault s f)) none s2)
          | .ok (segs, s1) =>
            if segs.any (fun g => ownUnknown s1 a g.1 g.2) then .next (s.hold {}) else
            let r := fetchSegs s1 a segs
            let s1 := r.2.2.2
            let (id, s1) := s1.newId
            let eas := pieceAddrs [(ea.toNat, 64 + 8 * n)]
            let err := if r.2.1 then some (fetchFault s (poisonFault s1 segs eas)) else none
            let walk := walkDelay s s1 a
            let w := Nat.max walk (fetchTime r.2.2.1 segs)
            let far := segs.filter (fun g => g.1.fabric)
            let s1 := s1.addFlight a
              { id := id, kind := .fetch, dist := 0, cls := spaceClass sp, arrived := false, waits := 1 + far.length, buf := r.1, fault := err }
            let s1 := (fetchFar s1 a id eas segs).after w (.loadLanding a id)
            .next (queue id (if tileImageBad hd then [] else hd) none (if walk ≠ 0 ∧ far.isEmpty then some (s1.cc + w) else none) s1))))

/-! ## MXPN (09 R186; 11 R206) -/

/-- The grant word as it stands before the slot acts (09 R186). -/
def grantWord (c : Ctx) : BitVec 64 :=
  let phys := ((List.range 4).map (fun p => (c.panes.getD p none).getD 0 * 2 ^ (8 + 2 * p))).sum
  grantedWord c ||| BitVec.ofNat 64 (c.claim.toNat * 16 + phys)

/-- MXPN rd. -/
def execMxpnRd (h : Hdr) (d : BitVec 5) (s : State) : Res :=
  slotOp (.mxpnRd h d) h s (fun s => .next (s.result 2 [s.wS d (grantWord s.me)]))

/-- Under coverage level 3 a mask names logical panes 0 and 1 only (06 R126; 09 R186). -/
def maskOp (s : State) (m : BitVec 4) (k : Res) : Res := if coverOf s s.who = 3 ∧ 4 ≤ m.toNat then badValue s (m.setWidth 64) else k

/-- MXPN claim (09 R186; 11 R206). -/
def execMxpnClaim (h : Hdr) (d : BitVec 5) (mk : BitVec 4) (s : State) : Res :=
  slotOp (.mxpnClaim h d mk) h s (fun s => maskOp s mk (
    let c := s.me
    let new := mk &&& ~~~((grantedWord c).setWidth 4) &&& ~~~c.claim
    let s := s.result 2 [s.wS d (grantWord c)]
    if new = 0 then .next s else
    let s := s.modMe (fun c => { c with claim := c.claim ||| new, claimCc := if c.claim = 0 then s.cc else c.claimCc })
    .next (s.at_ s.cc (.paneGrant s.who.core))))

/-- MXPN rel: a pane of which a tile is not done traps; one with an operation still in it, such as an MXLD, which no tile's done position tells of, waits for it
(09 R176, R186; log 75). -/
def execMxpnRel (h : Hdr) (d : BitVec 5) (mk : BitVec 4) (s : State) : Res :=
  slotOp (.mxpnRel h d mk) h s (fun s => maskOp s mk (
    let c := s.me
    let mine := mk &&& (grantedWord c).setWidth 4
    let ps := maskPanes mine
    let tiles := ps.flatMap (fun p => [2 * p, 2 * p + 1])
    let due := fun (z : Nat) => ((paneOf s s.who.core (mainPane s (z / 2))).tile (z % 2)).done
    match tiles.find? (fun z => decide (c.icyc.toNat < due z)) with
    | some z => trapAt s 0x06 0 (BitVec.ofNat 64 z) (BitVec.ofNat 64 (due z - c.icyc.toNat))
    | none =>
      if ps.any (fun p => !((paneOf s s.who.core (mainPane s p)).ops.isEmpty)) then .next (s.hold {}) else
      .next ((s.result 2 [s.wS d (grantWord c)]).modMe (fun c => { c with rel := c.rel ||| mine }))))

end Sys2Proof.Machine
end

