-- ==== Sys2Proof/Machine/Dispatch.lean ====
section
/-!
DEFINITION. Which meaning each instruction has: one arm per constructor of `Instr`.
-/

namespace Sys2Proof.Machine

def exec (i : Instr) (s : State) : Host.Outcome State Fault Refusal :=
  match i with
  | .next h => Sys2Proof.Machine.execNext h s
  | .br h disp => Sys2Proof.Machine.execBr h disp s
  | .bru h mk nsel disp => Sys2Proof.Machine.execBru h mk nsel disp s
  | .jmpi h a => Sys2Proof.Machine.execJmpi h a s
  | .call h disp => Sys2Proof.Machine.execCall h disp s
  | .calli h a => Sys2Proof.Machine.execCalli h a s
  | .ret h => Sys2Proof.Machine.execRet h s
  | .loop h a => Sys2Proof.Machine.execLoop h a s
  | .loopPipe h a b => Sys2Proof.Machine.execLoopPipe h a b s
  | .sloop h k b => Sys2Proof.Machine.execSloop h k b s
  | .lclose h => Sys2Proof.Machine.execLclose h s
  | .lexit h disp => Sys2Proof.Machine.execLexit h disp s
  | .halt h => Sys2Proof.Machine.execHalt h s
  | .trapi h code => Sys2Proof.Machine.execTrapi h code s
  | .bkpt h code => Sys2Proof.Machine.execBkpt h code s
  | .add h d a b => Sys2Proof.Machine.execAdd h d a b s
  | .addSs h d a b => Sys2Proof.Machine.execAddSs h d a b s
  | .addUs h d a b => Sys2Proof.Machine.execAddUs h d a b s
  | .addW h d a b => Sys2Proof.Machine.execAddW h d a b s
  | .sub h d a b => Sys2Proof.Machine.execSub h d a b s
  | .subSs h d a b => Sys2Proof.Machine.execSubSs h d a b s
  | .subUs h d a b => Sys2Proof.Machine.execSubUs h d a b s
  | .subW h d a b => Sys2Proof.Machine.execSubW h d a b s
  | .addi h d a imm => Sys2Proof.Machine.execAddi h d a imm s
  | .mul h d a b => Sys2Proof.Machine.execMul h d a b s
  | .mulh h d a b => Sys2Proof.Machine.execMulh h d a b s
  | .mulhU h d a b => Sys2Proof.Machine.execMulhU h d a b s
  | .div h d a b => Sys2Proof.Machine.execDiv h d a b s
  | .divU h d a b => Sys2Proof.Machine.execDivU h d a b s
  | .divRem h d a b => Sys2Proof.Machine.execDivRem h d a b s
  | .divURem h d a b => Sys2Proof.Machine.execDivURem h d a b s
  | .and h d a b => Sys2Proof.Machine.execAnd h d a b s
  | .or h d a b => Sys2Proof.Machine.execOr h d a b s
  | .xor h d a b => Sys2Proof.Machine.execXor h d a b s
  | .andn h d a b => Sys2Proof.Machine.execAndn h d a b s
  | .orn h d a b => Sys2Proof.Machine.execOrn h d a b s
  | .xnor h d a b => Sys2Proof.Machine.execXnor h d a b s
  | .shl h d a b => Sys2Proof.Machine.execShl h d a b s
  | .shr h d a b => Sys2Proof.Machine.execShr h d a b s
  | .sar h d a b => Sys2Proof.Machine.execSar h d a b s
  | .ror h d a b => Sys2Proof.Machine.execRor h d a b s
  | .shli h d a n => Sys2Proof.Machine.execShli h d a n s
  | .shri h d a n => Sys2Proof.Machine.execShri h d a n s
  | .sari h d a n => Sys2Proof.Machine.execSari h d a n s
  | .rori h d a n => Sys2Proof.Machine.execRori h d a n s
  | .min h d a b => Sys2Proof.Machine.execMin h d a b s
  | .max h d a b => Sys2Proof.Machine.execMax h d a b s
  | .minu h d a b => Sys2Proof.Machine.execMinu h d a b s
  | .maxu h d a b => Sys2Proof.Machine.execMaxu h d a b s
  | .popc h d a => Sys2Proof.Machine.execPopc h d a s
  | .clz h d a => Sys2Proof.Machine.execClz h d a s
  | .ctz h d a => Sys2Proof.Machine.execCtz h d a s
  | .bitrev h d a => Sys2Proof.Machine.execBitrev h d a s
  | .byterev h d a => Sys2Proof.Machine.execByterev h d a s
  | .fld h d a ins sg sz pos => Sys2Proof.Machine.execFld h d a ins sg sz pos s
  | .movi h d imm => Sys2Proof.Machine.execMovi h d imm s
  | .movhi h d imm => Sys2Proof.Machine.execMovhi h d imm s
  | .lea h d a b sh => Sys2Proof.Machine.execLea h d a b sh s
  | .sel h d a b p => Sys2Proof.Machine.execSel h d a b p s
  | .cmp h fd a b cc pw => Sys2Proof.Machine.execCmp h fd a b cc pw s
  | .cmpi h fd a cc pw imm => Sys2Proof.Machine.execCmpi h fd a cc pw imm s
  | .plog h fd a b tt pw mkx => Sys2Proof.Machine.execPlog h fd a b tt pw mkx s
  | .pmov h fd a cc pw => Sys2Proof.Machine.execPmov h fd a cc pw s
  | .fadd h d a b rz dbl => Sys2Proof.Machine.execFadd h d a b rz dbl s
  | .fsub h d a b rz dbl => Sys2Proof.Machine.execFsub h d a b rz dbl s
  | .fmul h d a b rz dbl => Sys2Proof.Machine.execFmul h d a b rz dbl s
  | .ffma h d a b rz dbl => Sys2Proof.Machine.execFfma h d a b rz dbl s
  | .fmin h d a b rz dbl => Sys2Proof.Machine.execFmin h d a b rz dbl s
  | .fmax h d a b rz dbl => Sys2Proof.Machine.execFmax h d a b rz dbl s
  | .fcmp h fd a b dbl cc pw => Sys2Proof.Machine.execFcmp h fd a b dbl cc pw s
  | .ficvt h d a dbl => Sys2Proof.Machine.execFicvt h d a dbl s
  | .fcvti h d a dbl => Sys2Proof.Machine.execFcvti h d a dbl s
  | .fwiden h d a => Sys2Proof.Machine.execFwiden h d a s
  | .fnarrow h d a => Sys2Proof.Machine.execFnarrow h d a s
  | .rdsr h d num => Sys2Proof.Machine.execRdsr h d num s
  | .wrsr h a num => Sys2Proof.Machine.execWrsr h a num s
  | .lds h d a lc sp off => Sys2Proof.Machine.execLds h d a lc sp off s
  | .ldsp h d a lc sp off => Sys2Proof.Machine.execLdsp h d a lc sp off s
  | .ldsv h d a lc sp off => Sys2Proof.Machine.execLdsv h d a lc sp off s
  | .sts h d a sp off => Sys2Proof.Machine.execSts h d a sp off s
  | .ldv h d a lc sp off => Sys2Proof.Machine.execLdv h d a lc sp off s
  | .ldvs h d a lc off => Sys2Proof.Machine.execLdvs h d a lc off s
  | .ldvx h d a lc sp ix => Sys2Proof.Machine.execLdvx h d a lc sp ix s
  | .stv h d a sp off => Sys2Proof.Machine.execStv h d a sp off s
  | .stvs h vs a mk fmt sp => Sys2Proof.Machine.execStvs h vs a mk fmt sp s
  | .stvx h d a sp ix => Sys2Proof.Machine.execStvx h d a sp ix s
  | .pref h home a off => Sys2Proof.Machine.execPref h home a off s
  | .chk h a b => Sys2Proof.Machine.execChk h a b s
  | .chkVec h a b => Sys2Proof.Machine.execChkVec h a b s
  | .cpchGo h a b => Sys2Proof.Machine.execCpchGo h a b s
  | .cpchSt h d a => Sys2Proof.Machine.execCpchSt h d a s
  | .cpchStop h a => Sys2Proof.Machine.execCpchStop h a s
  | .memcPhase h a b => Sys2Proof.Machine.execMemcPhase h a b s
  | .memcRinv h d a b sc => Sys2Proof.Machine.execMemcRinv h d a b sc s
  | .memcCreg h a b => Sys2Proof.Machine.execMemcCreg h a b s
  | .memcCerr h a b => Sys2Proof.Machine.execMemcCerr h a b s
  | .coll h a => Sys2Proof.Machine.execColl h a s
  | .ring h a => Sys2Proof.Machine.execRing h a s
  | .rsemRd h d a => Sys2Proof.Machine.execRsemRd h d a s
  | .rsemSet h a b => Sys2Proof.Machine.execRsemSet h a b s
  | .rsemAdd h a b => Sys2Proof.Machine.execRsemAdd h a b s
  | .stabWr h a b => Sys2Proof.Machine.execStabWr h a b s
  | .stabRd h d a b => Sys2Proof.Machine.execStabRd h d a b s
  | .stabGo h a => Sys2Proof.Machine.execStabGo h a s
  | .stabStop h => Sys2Proof.Machine.execStabStop h s
  | .stabReg h d a => Sys2Proof.Machine.execStabReg h d a s
  | .stabLink h a b => Sys2Proof.Machine.execStabLink h a b s
  | .stabClr h => Sys2Proof.Machine.execStabClr h s
  | .vadd h d a b fmt x => Sys2Proof.Machine.execVadd h d a b fmt x s
  | .vsub h d a b fmt x => Sys2Proof.Machine.execVsub h d a b fmt x s
  | .vmul h d a b fmt x => Sys2Proof.Machine.execVmul h d a b fmt x s
  | .vfma h d a b fmt x => Sys2Proof.Machine.execVfma h d a b fmt x s
  | .vmin h d a b fmt => Sys2Proof.Machine.execVmin h d a b fmt s
  | .vmax h d a b fmt => Sys2Proof.Machine.execVmax h d a b fmt s
  | .vabs h d a fmt => Sys2Proof.Machine.execVabs h d a fmt s
  | .vneg h d a fmt => Sys2Proof.Machine.execVneg h d a fmt s
  | .vand h d a b => Sys2Proof.Machine.execVand h d a b s
  | .vor h d a b => Sys2Proof.Machine.execVor h d a b s
  | .vxor h d a b => Sys2Proof.Machine.execVxor h d a b s
  | .vandn h d a b => Sys2Proof.Machine.execVandn h d a b s
  | .vorn h d a b => Sys2Proof.Machine.execVorn h d a b s
  | .vxnor h d a b => Sys2Proof.Machine.execVxnor h d a b s
  | .vshl h d a b x => Sys2Proof.Machine.execVshl h d a b x s
  | .vshr h d a b x => Sys2Proof.Machine.execVshr h d a b x s
  | .vsar h d a b x => Sys2Proof.Machine.execVsar h d a b x s
  | .vcmp h c1 d a b fmt x => Sys2Proof.Machine.execVcmp h c1 d a b fmt x s
  | .vsel h d a mk fmt => Sys2Proof.Machine.execVsel h d a mk fmt s
  | .vmaskPopc h d a => Sys2Proof.Machine.execVmaskPopc h d a s
  | .vmaskFfs h d a => Sys2Proof.Machine.execVmaskFfs h d a s
  | .vmaskTov h d a => Sys2Proof.Machine.execVmaskTov h d a s
  | .vmaskFromv h d a => Sys2Proof.Machine.execVmaskFromv h d a s
  | .vmaskFromp h d a => Sys2Proof.Machine.execVmaskFromp h d a s
  | .vswz h d a c fmt => Sys2Proof.Machine.execVswz h d a c fmt s
  | .vperm h d a b fmt x => Sys2Proof.Machine.execVperm h d a b fmt x s
  | .vbc h d a fmt => Sys2Proof.Machine.execVbc h d a fmt s
  | .vbcLane h d a b fmt => Sys2Proof.Machine.execVbcLane h d a b fmt s
  | .vrsum h d a mk fmt => Sys2Proof.Machine.execVrsum h d a mk fmt s
  | .vrmax h d a mk fmt => Sys2Proof.Machine.execVrmax h d a mk fmt s
  | .vrmin h d a mk fmt => Sys2Proof.Machine.execVrmin h d a mk fmt s
  | .vcvt h d a rnd fmt => Sys2Proof.Machine.execVcvt h d a rnd fmt s
  | .vcvf h d a rnd fmt => Sys2Proof.Machine.execVcvf h d a rnd fmt s
  | .vsxp h d a rnd fmt x => Sys2Proof.Machine.execVsxp h d a rnd fmt x s
  | .vplnSplit h d a b32 pl fmt => Sys2Proof.Machine.execVplnSplit h d a b32 pl fmt s
  | .vplnJoin h d a b32 pl fmt => Sys2Proof.Machine.execVplnJoin h d a b32 pl fmt s
  | .vdiv h d a b fmt x => Sys2Proof.Machine.execVdiv h d a b fmt x s
  | .vupd h d a b fmt x => Sys2Proof.Machine.execVupd h d a b fmt x s
  | .vidx h d a b fmt => Sys2Proof.Machine.execVidx h d a b fmt s
  | .vdot h d a b fmt x => Sys2Proof.Machine.execVdot h d a b fmt x s
  | .vrnd h d a rnd fmt => Sys2Proof.Machine.execVrnd h d a rnd fmt s
  | .vhash h d a b fmt x => Sys2Proof.Machine.execVhash h d a b fmt x s
  | .xsin h d a fmt => Sys2Proof.Machine.execXsin h d a fmt s
  | .xcos h d a fmt => Sys2Proof.Machine.execXcos h d a fmt s
  | .xex2 h d a fmt => Sys2Proof.Machine.execXex2 h d a fmt s
  | .xlg2 h d a fmt => Sys2Proof.Machine.execXlg2 h d a fmt s
  | .xrcp h d a fmt => Sys2Proof.Machine.execXrcp h d a fmt s
  | .xrsq h d a fmt => Sys2Proof.Machine.execXrsq h d a fmt s
  | .xtanh h d a fmt => Sys2Proof.Machine.execXtanh h d a fmt s
  | .xsigm h d a fmt => Sys2Proof.Machine.execXsigm h d a fmt s
  | .xtrn h d a cols fmt => Sys2Proof.Machine.execXtrn h d a cols fmt s
  | .xcvt h d a b fmt x => Sys2Proof.Machine.execXcvt h d a b fmt x s
  | .xcmp h d a fmt => Sys2Proof.Machine.execXcmp h d a fmt s
  | .xexd h d a => Sys2Proof.Machine.execXexd h d a s
  | .mxld h pnm a fmt lc gw qb tr => Sys2Proof.Machine.execMxld h pnm a fmt lc gw qb tr s
  | .mxa h z a b fmt qb rv zs => Sys2Proof.Machine.execMxa h z a b fmt qb rv zs s
  | .mxav h z a fmt qb rv zs => Sys2Proof.Machine.execMxav h z a fmt qb rv zs s
  | .mxrd h z a b fmt rnd => Sys2Proof.Machine.execMxrd h z a b fmt rnd s
  | .mxrk h z a b fmt zs => Sys2Proof.Machine.execMxrk h z a b fmt zs s
  | .mxpnRd h d => Sys2Proof.Machine.execMxpnRd h d s
  | .mxpnClaim h d mk => Sys2Proof.Machine.execMxpnClaim h d mk s
  | .mxpnRel h d mk => Sys2Proof.Machine.execMxpnRel h d mk s
  | .mxsvSave h z a b => Sys2Proof.Machine.execMxsvSave h z a b s
  | .mxsvLd h z a b => Sys2Proof.Machine.execMxsvLd h z a b s
  | .mxsvSt h z d => Sys2Proof.Machine.execMxsvSt h z d s
  | .govPol h a => Sys2Proof.Machine.execGovPol h a s
  | .govRd h d a b => Sys2Proof.Machine.execGovRd h d a b s
  | .govSet h a b => Sys2Proof.Machine.execGovSet h a b s
  | .govClr h a => Sys2Proof.Machine.execGovClr h a s
  | .gmeasMb h a b => Sys2Proof.Machine.execGmeasMb h a b s
  | .gmeasTot h a b => Sys2Proof.Machine.execGmeasTot h a b s
  | .gstep h d a b => Sys2Proof.Machine.execGstep h d a b s
  | .qpush h a b eos => Sys2Proof.Machine.execQpush h a b eos s
  | .qpushFwd h k b => Sys2Proof.Machine.execQpushFwd h k b s
  | .qbind h k a => Sys2Proof.Machine.execQbind h k a s
  | .qunbind h k => Sys2Proof.Machine.execQunbind h k s
  | .qrd h d k => Sys2Proof.Machine.execQrd h d k s
  | .qstat h d k => Sys2Proof.Machine.execQstat h d k s
  | .wop h w cnt lim => Sys2Proof.Machine.execWop h w cnt lim s
  | .wadv h w cnt lim => Sys2Proof.Machine.execWadv h w cnt lim s
  | .wbindC h k a sp => Sys2Proof.Machine.execWbindC h k a sp s
  | .wbindP h k a sp => Sys2Proof.Machine.execWbindP h k a sp s
  | .wunbind h k => Sys2Proof.Machine.execWunbind h k s
  | .wstat h d k => Sys2Proof.Machine.execWstat h d k s
  | .waddr h d k => Sys2Proof.Machine.execWaddr h d k s
  | .mxsc h pnm a lc sp => Sys2Proof.Machine.execMxsc h pnm a lc sp s
  | .bankAcq h a b => Sys2Proof.Machine.execBankAcq h a b s
  | .bankRel h a => Sys2Proof.Machine.execBankRel h a s
  | .bankRd h d => Sys2Proof.Machine.execBankRd h d s
  | .atomSwap h d a lc sp w4 => Sys2Proof.Machine.execAtomSwap h d a lc sp w4 s
  | .atomAdd h d a lc sp w4 => Sys2Proof.Machine.execAtomAdd h d a lc sp w4 s
  | .atomAnd h d a lc sp w4 => Sys2Proof.Machine.execAtomAnd h d a lc sp w4 s
  | .atomOr h d a lc sp w4 => Sys2Proof.Machine.execAtomOr h d a lc sp w4 s
  | .atomXor h d a lc sp w4 => Sys2Proof.Machine.execAtomXor h d a lc sp w4 s
  | .atomMin h d a lc sp w4 => Sys2Proof.Machine.execAtomMin h d a lc sp w4 s
  | .atomMax h d a lc sp w4 => Sys2Proof.Machine.execAtomMax h d a lc sp w4 s
  | .atomMinu h d a lc sp w4 => Sys2Proof.Machine.execAtomMinu h d a lc sp w4 s
  | .atomMaxu h d a lc sp w4 => Sys2Proof.Machine.execAtomMaxu h d a lc sp w4 s
  | .atomCas h d a lc sp w4 => Sys2Proof.Machine.execAtomCas h d a lc sp w4 s
  | .atomFadd h d a lc sp w4 => Sys2Proof.Machine.execAtomFadd h d a lc sp w4 s
  | .barArr h a b sc => Sys2Proof.Machine.execBarArr h a b sc s
  | .barSync h a b sc => Sys2Proof.Machine.execBarSync h a b sc s
  | .barWt h a b sc => Sys2Proof.Machine.execBarWt h a b sc s
  | .drain h d sc => Sys2Proof.Machine.execDrain h d sc s
  | .rteClm h d a b => Sys2Proof.Machine.execRteClm h d a b s
  | .rteSnd h vs a b => Sys2Proof.Machine.execRteSnd h vs a b s
  | .evtSig h a => Sys2Proof.Machine.execEvtSig h a s
  | .evtWait h a b => Sys2Proof.Machine.execEvtWait h a b s
  | .evtRd h d a => Sys2Proof.Machine.execEvtRd h d a s
  | .task h d a => Sys2Proof.Machine.execTask h d a s
  | .dspj h d a b => Sys2Proof.Machine.execDspj h d a b s
  | .ctxRd h d a b => Sys2Proof.Machine.execCtxRd h d a b s
  | .ctxWr h d a b => Sys2Proof.Machine.execCtxWr h d a b s
  | .csvSave h a b => Sys2Proof.Machine.execCsvSave h a b s
  | .csvLd h a b => Sys2Proof.Machine.execCsvLd h a b s
  | .csvFree h a => Sys2Proof.Machine.execCsvFree h a s
  | .csvEnd h b => Sys2Proof.Machine.execCsvEnd h b s
  | .tret h a => Sys2Proof.Machine.execTret h a s
  | .tlbiAll h pkg => Sys2Proof.Machine.execTlbiAll h pkg s
  | .tlbiVf h a pkg => Sys2Proof.Machine.execTlbiVf h a pkg s
  | .tlbiPg h a b pkg => Sys2Proof.Machine.execTlbiPg h a b pkg s
  | .monCfg h a b => Sys2Proof.Machine.execMonCfg h a b s
  | .monRd h d a => Sys2Proof.Machine.execMonRd h d a s
  | .monClr h a => Sys2Proof.Machine.execMonClr h a s
  | .wswOut h a b => Sys2Proof.Machine.execWswOut h a b s
  | .wswIn h a b => Sys2Proof.Machine.execWswIn h a b s
  | .dbgStep h a => Sys2Proof.Machine.execDbgStep h a s
  | .dbgStop h a => Sys2Proof.Machine.execDbgStop h a s
  | .dbgBrk h a b => Sys2Proof.Machine.execDbgBrk h a b s
  | .cfgRd h d a b => Sys2Proof.Machine.execCfgRd h d a b s
  | .cfgWr h d a b => Sys2Proof.Machine.execCfgWr h d a b s
  | .scribe => Sys2Proof.Machine.execScribe s
  | .govtabAssign => Sys2Proof.Machine.execGovtabAssign s
  | .govtabRelease => Sys2Proof.Machine.execGovtabRelease s
  | .qresBringIn => Sys2Proof.Machine.execQresBringIn s
  | .qresTakeOut => Sys2Proof.Machine.execQresTakeOut s
  | .releasedEffectPerform => Sys2Proof.Machine.execReleasedEffectPerform s
  | .loadLanding => Sys2Proof.Machine.execLoadLanding s
  | .deferredTrap => Sys2Proof.Machine.execDeferredTrap s
  | .boundaryStop => Sys2Proof.Machine.execBoundaryStop s
  | .boundedWaitExpiry => Sys2Proof.Machine.execBoundedWaitExpiry s
  | .launchOrderWait => Sys2Proof.Machine.execLaunchOrderWait s
  | .paneOperationStart => Sys2Proof.Machine.execPaneOperationStart s
  | .paneOperationComplete => Sys2Proof.Machine.execPaneOperationComplete s
  | .paneReplay => Sys2Proof.Machine.execPaneReplay s
  | .paneFetchFailure => Sys2Proof.Machine.execPaneFetchFailure s
  | .paneGrant => Sys2Proof.Machine.execPaneGrant s
  | .reencodeStart => Sys2Proof.Machine.execReencodeStart s
  | .reencodeEnd => Sys2Proof.Machine.execReencodeEnd s
  | .reencodeFailure => Sys2Proof.Machine.execReencodeFailure s
  | .gstepEffect => Sys2Proof.Machine.execGstepEffect s
  | .govEffect => Sys2Proof.Machine.execGovEffect s
  | .bankGiveUp => Sys2Proof.Machine.execBankGiveUp s
  | .taskReady => Sys2Proof.Machine.execTaskReady s
  | .taskComplete => Sys2Proof.Machine.execTaskComplete s
  | .budgetExpired => Sys2Proof.Machine.execBudgetExpired s
  | .yieldOverrun => Sys2Proof.Machine.execYieldOverrun s
  | .copyLineWrite => Sys2Proof.Machine.execCopyLineWrite s
  | .copyChannelComplete => Sys2Proof.Machine.execCopyChannelComplete s
  | .copyChannelHalt => Sys2Proof.Machine.execCopyChannelHalt s
  | .carveMoveEnd => Sys2Proof.Machine.execCarveMoveEnd s
  | .rangeInvalidationEnd => Sys2Proof.Machine.execRangeInvalidationEnd s
  | .collectiveChunk => Sys2Proof.Machine.execCollectiveChunk s
  | .collectiveComplete => Sys2Proof.Machine.execCollectiveComplete s
  | .collectiveHaltNotice => Sys2Proof.Machine.execCollectiveHaltNotice s
  | .ringChunk => Sys2Proof.Machine.execRingChunk s
  | .ringChunkReceive => Sys2Proof.Machine.execRingChunkReceive s
  | .walkerCycle => Sys2Proof.Machine.execWalkerCycle s
  | .walkerEntryComplete => Sys2Proof.Machine.execWalkerEntryComplete s
  | .wellPushLine => Sys2Proof.Machine.execWellPushLine s
  | .freeSlotUpdate => Sys2Proof.Machine.execFreeSlotUpdate s
  | .mirrorRequest => Sys2Proof.Machine.execMirrorRequest s
  | .mirrorReply => Sys2Proof.Machine.execMirrorReply s
  | .claimSend => Sys2Proof.Machine.execClaimSend s
  | .claimGrant => Sys2Proof.Machine.execClaimGrant s
  | .routeRefusal => Sys2Proof.Machine.execRouteRefusal s
  | .stashRequest => Sys2Proof.Machine.execStashRequest s
  | .stashGrant => Sys2Proof.Machine.execStashGrant s
  | .stashRefusal => Sys2Proof.Machine.execStashRefusal s
  | .stashRelease => Sys2Proof.Machine.execStashRelease s
  | .remoteRead => Sys2Proof.Machine.execRemoteRead s
  | .remoteWrite => Sys2Proof.Machine.execRemoteWrite s
  | .remoteResponse => Sys2Proof.Machine.execRemoteResponse s
  | .linkFailure => Sys2Proof.Machine.execLinkFailure s
  | .messageFailure => Sys2Proof.Machine.execMessageFailure s
  | .pageTableWalk => Sys2Proof.Machine.execPageTableWalk s
  | .l1Eviction => Sys2Proof.Machine.execL1Eviction s
  | .memoryErrorDetect => Sys2Proof.Machine.execMemoryErrorDetect s
  | .errorReport => Sys2Proof.Machine.execErrorReport s
  | .noticeDelivery => Sys2Proof.Machine.execNoticeDelivery s
  | .streamWake => Sys2Proof.Machine.execStreamWake s
  | .tail => Sys2Proof.Machine.execTail s
  | .stream => Sys2Proof.Machine.execStream s
  | .cpctlRun => Sys2Proof.Machine.execCpctlRun s
  | .cpctlStop => Sys2Proof.Machine.execCpctlStop s
  | .quiesceRequest => Sys2Proof.Machine.execQuiesceRequest s
  | .quiesceWithdraw => Sys2Proof.Machine.execQuiesceWithdraw s
  | .quiesceComplete => Sys2Proof.Machine.execQuiesceComplete s
  | .hostRegisterWrite => Sys2Proof.Machine.execHostRegisterWrite s
  | .functionLevelReset => Sys2Proof.Machine.execFunctionLevelReset s
  | .powerOnReset => Sys2Proof.Machine.execPowerOnReset s
  | .bootVerification => Sys2Proof.Machine.execBootVerification s
  | .powerRemoval => Sys2Proof.Machine.execPowerRemoval s
  | .thermalWarning => Sys2Proof.Machine.execThermalWarning s
  | .thermtrip => Sys2Proof.Machine.execThermtrip s
  | .getVersion => Sys2Proof.Machine.execGetVersion s
  | .getCapabilities => Sys2Proof.Machine.execGetCapabilities s
  | .negotiateAlgorithms => Sys2Proof.Machine.execNegotiateAlgorithms s
  | .getDigests => Sys2Proof.Machine.execGetDigests s
  | .getCertificate => Sys2Proof.Machine.execGetCertificate s
  | .challenge => Sys2Proof.Machine.execChallenge s
  | .getMeasurements => Sys2Proof.Machine.execGetMeasurements s
  | .unsupportedRequest => Sys2Proof.Machine.execUnsupportedRequest s
  | .instructionStoreFill => Sys2Proof.Machine.execInstructionStoreFill s
  | .linkReturn => Sys2Proof.Machine.execLinkReturn s
  | .sidebandRefresh => Sys2Proof.Machine.execSidebandRefresh s

end Sys2Proof.Machine
end

