-- ==== Sys2Proof/Machine/Bundle.lean ====
section
/-!
DEFINITION. Issuing a bundle: fetch and framing (02 R25, R26), the checks of a bundle's encoding in their order (02 R28, R30), what holds a
bundle back (04 R90, R91; 06 R101, R106, R117, R120; 12 R218), its slots in position order and its lead slot (02 R27), and the cycles in
which a front context issues nothing.
-/

namespace Sys2Proof.Machine

/-! ## Fetch -/

/-- What a fetch finds: the words of a bundle, a trap, or nothing yet. -/
inductive Fetched where
  | words (ws : List SlotWord)
  | trap (t : TrapRec)
  | wait
  deriving DecidableEq, Repr

/-- A fault of a bundle's fetch, naming the bundle (02 R26; 22 R366). -/
def fetchTrap (bpc : BitVec 64) (f : AFault) : TrapRec :=
  { cause := f.cause, det := { d1 := f.d1, d2 := f.d2, d3 := f.d3 }, bund := bpc.setWidth 57 }

/-- The slot word that four bytes at a place hold. -/
def wordAt (bs : List Byte) (o : Nat) : SlotWord := bytesWord (bs.getD o 0) (bs.getD (o + 1) 0) (bs.getD (o + 2) 0) (bs.getD (o + 3) 0)

/-- One slot word of a bundle, once a walk that its address needs has ended: a core reads its instruction store, and asks for the line when it is not there; scribes and command processors read
the home (02 R26; 06 R110, R111; 17 R300). -/
def fetchWord (s : State) (a : Agent) (va : BitVec 64) : (Except AFault (Option SlotWord)) × State :=
  match translate s a (s.procOf a) (s.vfOf a) .fetch .m (BitVec.ofNat 64 (va.toNat / 32 * 32)) with
  | .error f => (.error f, s)
  | .ok (l0, s') =>
    let walked := walkDelay s s' a
    let s := if walked = 0 then s' else s'.modCtx a (fun c => { c with fetchAt := s.cc + walked })
    let l := l0.plus (va.toNat % 32)
    if l.fabric then (.error (accFault 0x21 .fetch va.toNat 0 0), s) else
    if a.onCore then
      match (s.core a.core).istore.get none (lineKey l) with
      | some line =>
        if (s.core a.core).ibad.contains (linOf l / 8) then (.error { cause := 0x51, d1 := BitVec.ofNat 64 (Loc.addr s l), d2 := va }, s)
        else (.ok (if walked = 0 then some (wordAt (toBytes 128 line.toNat) (linOf l % 128)) else none), s)
      | none =>
        if s.poisonedAt l 4 then (.error { cause := 0x51, d1 := BitVec.ofNat 64 (Loc.addr s l), d2 := va }, s) else
        let e := Ev.instructionStoreFill a.core (lineKey l)
        if s.agenda.any (fun x => x.2 == e) then (.ok none, s) else (.ok none, s.after (walked + latencyOf s a l false) e)
    else if s.poisonedAt l 4 then (.error { cause := 0x51, d1 := BitVec.ofNat 64 (Loc.addr s l), d2 := va }, s)
    else if walked ≠ 0 then (.ok none, s)
    else
      let r := fetchBytes s a l 4
      (.ok (some (wordAt r.1 0)), r.2)

/-- Whether an address may be fetched: a command processor fetches only below its die's tail, which it sees in the second cc after the tail's write (02 R40; 14 R247). -/
def belowTail (s : State) (a : Agent) (va : BitVec 64) : Bool :=
  match a with
  | .cp d => decide (va.toNat + 4 ≤ (s.die d).seen.toNat)
  | _ => true

/-- A malformed framing: the stop bit in position 0, 1 or 2, or in none, when every position fails and the lowest is named (02 R28 case 1, R30;
22 R368). -/
def framingTrap (bpc : BitVec 64) (pos : Nat) (w : SlotWord) : TrapRec :=
  { cause := 0x03, det := { d0 := BitVec.ofNat 64 (pos + 1 * 16 + w.toNat * 2 ^ 32) }, bund := bpc.setWidth 57 }

/-- The words of the bundle at `bpc`, from position `8 - fuel` on (02 R25, R28). -/
def fetchFrom (a : Agent) (bpc : BitVec 64) : Nat → State → List SlotWord → Fetched × State
  | 0, s, acc => (.trap (framingTrap bpc 0 (acc.headD 0)), s)
  | fuel + 1, s, acc =>
    let pos := 7 - fuel
    let va := bpc + BitVec.ofNat 64 (4 * pos)
    if !belowTail s a va then (.wait, s) else
    match fetchWord s a va with
    | (.error f, s) => (.trap (fetchTrap bpc f), s)
    | (.ok none, s) => (.wait, s)
    | (.ok (some w), s) =>
      if w.getLsbD 31 then
        if pos < 3 then (.trap (framingTrap bpc pos w), s) else (.words (acc ++ [w]), s)
      else fetchFrom a bpc fuel s (acc ++ [w])

/-! ## The checks of R30 -/

/-- OP of a slot word. -/
def wordOp (w : SlotWord) : Nat := bits w.toNat 30 24
/-- The NOP word (02 R33). -/
def isNop (w : SlotWord) : Bool := w.toNat % 2 ^ 31 == 0
/-- The unit class of a slot that takes a unit: none for the lead slot and NOP words (02 R27, R29). -/
def unitOf (onCore : Bool) (p : Nat × SlotWord) : Option UClass :=
  if p.1 = 0 ∨ isNop p.2 then none else route onCore (wordOp p.2)
/-- How many earlier slots take the class that a slot takes. -/
def ordinal (onCore : Bool) (ps : List (Nat × SlotWord)) (p : Nat × SlotWord) : Nat :=
  (ps.filter (fun q => decide (q.1 < p.1) && (unitOf onCore q).isSome && unitOf onCore q == unitOf onCore p)).length

/-- An OP value that names no family (02 R38). -/
def unassigned (op : Nat) : Bool :=
  op == 0x0E || op == 0x0F || (0x58 ≤ op && op ≤ 0x5B) || op == 0x66 || op == 0x67 || op == 0x7E || op == 0x7F

/-- Whether a unit map enables the unit that the slot of ordinal `n` of its class takes (02 R28 case 6). -/
def mapEnables (u : BitVec 32) (c : UClass) (n : Nat) : Bool :=
  match c with
  | .s => n == 0 || u.getLsbD 4
  | .l => n == 0 || u.getLsbD 5
  | c => unitEnabled u c

/-- The lowest case of R28, after framing, that makes a slot's bundle malformed (02 R28). Of too many slots of one class, case 4 names the first beyond the limit, a
choice (log 45). -/
def malformedCase (onCore : Bool) (u : BitVec 32) (ps : List (Nat × SlotWord)) (p : Nat × SlotWord) : Option Nat :=
  let op := wordOp p.2
  if p.1 = 0 then (if 0x10 ≤ op then some 2 else none)
  else if isNop p.2 then none
  else if op < 0x10 then some 3
  else match route onCore op with
    | none => some 5
    | some .priv => none
    | some c =>
      let n := ordinal onCore ps p
      if (if c = .s ∨ c = .l then 2 else 1) ≤ n then some 4
      else if !onCore && decide (1 ≤ n) then some 5
      else if onCore && !mapEnables u c n then some 6
      else if (op = 0x75 ∨ op = 0x78) ∧ (ps.headD (0, 0)).2.toNat / 2 ^ 24 % 128 ≠ 0 then some 7
      else none

/-- Whether a slot word names a privileged operation, by its OP and sub-operation alone (02 R29, R30; 04 R87; 09 R173; 15 R270). -/
def privWord (onCore : Bool) (w : SlotWord) : Bool :=
  let op := wordOp w
  let fn := w.toNat % 32
  (op == 0x27 && srWriteDenied onCore (w.setWidth 10)) ||
  (onCore && ((0x74 ≤ op && op ≤ 0x7D) || op == 0x65 || (op == 0x63 && (fn == 0 || fn == 2 || fn == 3))
    || (op == 0x35 && fn % 4 == 2) || (op == 0x37 && (fn == 0 || fn == 2 || fn == 3 || fn == 5 || fn == 6))))

/-- Whether a slot word has a reserved field that is not zero, or a combination that is reserved (02 R35, R36). -/
def reservedWord (w : SlotWord) : Bool :=
  match decode w with
  | .error .reserved => true
  | .error _ => false
  | .ok i => i.ill == some .reserved
/-- Whether a slot word has a format that its family does not accept (02 R36). -/
def formatWord (w : SlotWord) : Bool :=
  match decode w with
  | .error .badFormat => true
  | .error _ => false
  | .ok i => i.ill == some .format

/-- The trap of a failed check, naming its slot (22 R368). -/
def checkTrap (bpc : BitVec 64) (cause sub : Nat) (p : Nat × SlotWord) (d1 : Nat := 0) : TrapRec :=
  { cause := cause, det := { d0 := BitVec.ofNat 64 (p.1 + sub * 16 + p.2.toNat * 2 ^ 32), d1 := BitVec.ofNat 64 d1 }
    bund := bpc.setWidth 57 }

/-- The first check of R30 that a bundle fails, at the lowest position that fails it (02 R30). -/
def bundleCheck (onCore : Bool) (u : BitVec 32) (bpc : BitVec 64) (ws : List SlotWord) : Option TrapRec :=
  let ps := ws.zipIdx.map (fun x => (x.2, x.1))
  let acts := ps.filter (fun p => !isNop p.2)
  ((acts.find? (fun p => unassigned (wordOp p.2))).map (fun p => checkTrap bpc 0x01 0 p)).orElse fun _ =>
  (ps.findSome? (fun p => (malformedCase onCore u ps p).map (fun n => checkTrap bpc 0x03 n p))).orElse fun _ =>
  ((acts.find? (fun p => privWord onCore p.2)).map (fun p => checkTrap bpc 0x04 0 p)).orElse fun _ =>
  ((acts.find? (fun p => reservedWord p.2)).map (fun p => checkTrap bpc 0x02 0 p)).orElse fun _ =>
  (acts.find? (fun p => formatWord p.2)).map (fun p => checkTrap bpc 0x07 0 p (fmtOfWord p.2))

/-! ## Units of a bundle (14 R259) -/

/-- The physical panes that an M-class slot or MXSC names (14 R259). -/
def panesNamed (s : State) (a : Agent) (w : SlotWord) : List Nat :=
  let op := wordOp w
  if op = 0x5C ∨ op = 0x6D then (List.range 4).flatMap (fun p => if bit w.toNat (16 + p) then physPanes s a p else [])
  else if op = 0x61 ∨ (0x63 ≤ op ∧ op ≤ 0x65) then [0, 1, 2, 3]
  else if 0x5D ≤ op ∧ op ≤ 0x62 then physPanes s a (bits w.toNat 19 17 / 2)
  else []

/-- A bundle's unit set: its non-lead units but M, and the physical panes it names (14 R259). A slot beyond the second of its class has no unit (02 R27). -/
def unitSet (s : State) (a : Agent) (ws : List SlotWord) : List Nat :=
  let ps := ws.zipIdx.map (fun x => (x.2, x.1))
  ps.flatMap (fun p =>
    let n := ordinal a.onCore ps p
    let panes := if p.1 = 0 ∨ isNop p.2 then [] else (panesNamed s a p.2).map (· + 8)
    match unitOf a.onCore p with
    | some .s => if n < 2 then [n] else []
    | some .l => if n < 2 then [2 + n] else []
    | some .v => [4]
    | some .x => [5]
    | some .q => 6 :: panes
    | some .m => panes
    | _ => [])

/-! ## Slots -/

/-- Whether a slot makes its bundle a checkpoint bundle, whatever its guard reads (06 R115). -/
def slotCheckpoint (s : State) (i : Instr) : Bool :=
  let w := encode i
  let op := wordOp w
  (0x6F ≤ op && op ≤ 0x72) || (op == 0x36 && decide (w.toNat % 32 < 2)) ||
    (match i with
     | .cpchGo _ _ b => (s.rs b).getLsbD 4
     | _ => false)

/-- What the slots of a bundle left: the state after those that acted, and the waits and traps that stand. -/
structure Ran where
  s : State
  holds : List Hold := []
  traps : List TrapRec := []
  stuck : Option Res := none

/-- Run one slot. A slot that waits or traps leaves the other slots' work as it was. -/
def runSlot (r : Ran) (p : Nat × Instr) : Ran :=
  match r.stuck with
  | some _ => r
  | none =>
    match exec p.2 { r.s with pos := p.1, verdict := .go } with
    | .next s' =>
      match s'.verdict with
      | .go => { r with s := s' }
      | .hold h => { r with holds := r.holds ++ [h] }
      | .trap t => { r with traps := r.traps ++ [t] }
    | x => { r with stuck := some x }

/-- Run a bundle's slots: those after the lead slot in position order, then the lead slot, which ends the bundle (02 R27; 06 R117). -/
def runBundle (s : State) (is : List (Nat × Instr)) : Ran :=
  let r := (is.filter (fun p => decide (0 < p.1))).foldl runSlot { s := s }
  match is.head? with
  | none => r
  | some lead =>
    let t := runSlot { s := r.s } lead
    { s := t.s, holds := t.holds ++ r.holds, traps := t.traps ++ r.traps, stuck := r.stuck.orElse fun _ => t.stuck }

/-! ## One cc of a front context -/

/-- The outcome of a cc for a front context: its result, whether its bundle was ready, and the units it takes (14 R259). -/
structure Try where
  res : Res
  ready : Bool := false
  units : List Nat := []

/-- A frozen cc (06 R101; 15 R293). -/
def frozen (s : State) (a : Agent) : State := (s.modCtx a (fun c => { c with frz := c.frz + 1 })).sample a 0x02 1

/-- Whether a boundary stop is due before the bundle at `pc`: a request, or an enabled breakpoint (15 R295; 22 R366). A step passes its breakpoint. -/
def stopDue (c : Ctx) : Option (Nat × BitVec 64) :=
  match c.stopReq with
  | some r => some r
  | none =>
    if c.step then none else
    ((List.range 2).find? (fun k =>
      let b := c.brk.getD k 0
      b.getLsbD 0 && decide (wbits b 56 2 * 4 = wbits c.live.c.pc 56 0))).map (fun k => (0x72, BitVec.ofNat 64 (0x2001 + k)))

/-- A context that issues nothing in this cc: a boundary stop takes effect, otherwise `k` says what the cc does. -/
def orStop (s : State) (a : Agent) (k : State) : Try :=
  match stopDue (s.ctx a) with
  | some r => { res := exec .boundaryStop { s.modCtx a (fun c => { c with stopReq := some r }) with ev := .boundaryStop a } }
  | none => { res := .next k }

/-- Count one more cc of every unmet wait of a bundle (12 R218). -/
def countWaits (ws : List (Nat × Nat)) (hs : List Hold) : List (Nat × Nat) :=
  let seen := ws.map (fun w => (w.1, if hs.any (fun h => h.pos == w.1) then w.2 + 1 else w.2))
  seen ++ (hs.filter (fun h => !ws.any (fun w => w.1 == h.pos))).map (fun h => (h.pos, 1))

/-- A slot that touches a queue which is resident nowhere raises an event to its scribe, once while it waits; touches of one cc raise one event (12 R225; 14
R263). `missed` holds who waited for the queue, and until which cc; `told` the cc of the last event. -/
def missEvents (s : State) (a : Agent) (hs : List Hold) : State :=
  hs.foldl (fun (s : State) h =>
    let k := s.queueKey a h.det.d1.toNat
    let q := s.queue k
    if h.cause = 0x32 ∧ q.present ∧ q.home.isNone then
      let waits := q.missed.any (fun m => m.1 == a && decide (s.cc ≤ m.2 + 1))
      let s := s.modQueue k (fun q => { q with missed := (a, s.cc) :: q.missed.filter (fun m => m.1 != a && decide (s.cc ≤ m.2 + 1))
                                               told := if waits then q.told else some s.cc })
      if waits || q.told == some s.cc then s else s.event (State.noticeDest a) a 0x35 { d1 := h.det.d1 }
    else s) s

/-- A context whose bundle has unmet waits: the wait that reaches its limit, at the lowest position, traps; otherwise the context is frozen, and the bytes at fabric
addresses that its slots lack are asked for (12 R218; 14 R251; 17 R408). -/
def waiting (s : State) (a : Agent) (hs : List Hold) : Try :=
  let c := s.ctx a
  let s := hs.foldl (fun (s : State) h => (h.stops.map (stopFunction s a)).getD s) (missEvents s a hs)
  let spent := fun (h : Hold) => match h.limit with
    | some n => decide (n ≤ waitCount c.waits h.pos)
    | none => false
  match hs.find? spent with
  | some h =>
    let s := s.modCtx a (fun c => { c with wait := some h })
    { res := if h.cause = 0x38 then exec .launchOrderWait { s with ev := .launchOrderWait a }
             else exec .boundedWaitExpiry { s with ev := .boundedWaitExpiry a } }
  | none =>
    let s := hs.foldl (fun (s : State) h => match h.asks with
      | some x => s.askFar a .slot (c.live.c.pc.setWidth 57) x
      | none => s) s
    orStop s a ((frozen s a).modCtx a (fun c => { c with waits := countWaits c.waits hs }))

/-! ## The waits after a bundle (12 R238, R239) -/

/-- Fill the result of a DRAIN: the remote effects that failed since the previous one (12 R239). -/
def endDrain (s : State) (a : Agent) (p : PostWait) : State :=
  s.modCtx a (fun c => { c with
    post := none, waits := [], failed := 0
    flight := c.flight.map (fun e => if e.id = p.ref ∧ e.kind = .fixed ∧ !e.arrived then
      { e with arrived := true, writes := e.writes.map (fun w => match w with
          | .s r _ => .s r (BitVec.ofNat 64 c.failed)
          | w => w) } else e) })

/-- The wait of a BAR that has found its object: at a malformed or unreadable one the context traps (12 R238; 17 R315). -/
def roundWait (s : State) (a : Agent) (p : PostWait) : State ⊕ Hold :=
  let o := objectNow s a p.loc
  let rounds := BitVec.ofNat 32 (field o 8 4)
  let hold := fun (sub limit : Nat) =>
    ({ limit := some limit, cause := 0x36
       det := { d0 := BitVec.ofNat 64 (p.pos + sub * 16 + p.word.toNat * 2 ^ 32), d1 := p.ea, d2 := rounds.setWidth 64, d3 := BitVec.ofNat 64 (field o 32 8) }
       pos := p.pos } : Hold)
  if p.poison then
    .inr { limit := some 0, cause := 0x51, pos := p.pos
           det := { d0 := BitVec.ofNat 64 (p.pos + p.word.toNat * 2 ^ 32), d1 := BitVec.ofNat 64 (Loc.addr s p.loc), d2 := p.ea } }
  else if p.bad then .inr (hold 1 0)
  else if p.r = some rounds then .inr (hold 0 (field o 4 3))
  else .inl (s.modCtx a (fun c => { c with post := none, waits := [] }))

/-- The wait after a BAR or DRAIN bundle: met, with the state it leaves, or the wait that stands. -/
def postWait (s : State) (a : Agent) (p : PostWait) : State ⊕ Hold :=
  match p.kind with
  | .drain =>
    if (1 ≤ p.scope && s.unperformed a) || s.remotePending a p.scope then .inr {}
    else .inl (endDrain s a p)
  | .trap =>
    if s.unperformed a || s.remotePending a 5 then .inr {}
    else .inl ((s.modCtx a (fun c => { c with post := none })).takeTrap a (codeTrap p.ref (p.want.setWidth 64) p.bund))
  | .halt => .inr {}
  | _ => if p.r.isNone && s.unperformed a then .inr {} else roundWait s a p

/-! ## Issue -/

/-- Sample the lateness of the loads that land in this issue cycle (15 R293). -/
def sampleLate (s : State) (a : Agent) : State :=
  ((s.ctx a).flight.filter (fun e => e.kind == .load && e.dist == 0 && e.arrived)).foldl (fun (s : State) e => s.sample a 0x03 e.late) s

/-- An empty issue cycle (04 R70; 06 R101): the results in flight advance. The last one ends a single step (22 R388). -/
def emptyCycle (s : State) (a : Agent) : Res :=
  let s := (sampleLate s a).landDue a
  let busy := s.paneBusy a
  let s := s.modCtx a (fun c =>
    { State.ageFlight c with icyc := c.icyc + 1, empty := c.empty - 1, mb := if busy ∧ c.runs < 4 then c.mb + 1 else c.mb, issuedAt := s.cc + 1 })
  let s := s.sample a 0x01 1
  let c := s.ctx a
  .next (if c.step ∧ c.empty = 0 then s.boundaryStopAt a 0x71 {} else s)

/-- A late landing freezes the context (04 R90). -/
def lateFreeze (s : State) (a : Agent) : State :=
  frozen (s.modCtx a (fun c => { c with
    flight := c.flight.map (fun e => if e.kind = .load ∧ e.dist = 0 ∧ !e.arrived then { e with late := e.late + 1 } else e) })) a

/-- Whether every load and tile fetch issued before has arrived (06 R117). -/
def loadsArrived (c : Ctx) : Bool := c.flight.all (fun e => e.arrived || e.kind == .dead || e.kind == .pref || e.kind == .fixed)

/-- Whether the arrival of a `bar.arr` that an agent has released has yet to act: a later checkpoint waits for it, since a malformed object leaves the checkpoint at the
BAR bundle (12 R238, log 72). -/
def arrivalDue (s : State) (a : Agent) : Bool := (s.relqs.get [] a.relKey).any (fun r => r.who == a && (match r.w.eff with
  | .arrive _ _ sync _ => !sync
  | _ => false))

/-- Entries of an agent's release queue in use (06 R120). -/
def releaseEntries (s : State) (a : Agent) : Nat := ((s.relqs.get [] a.relKey).filter (fun r => r.w.eff.takesEntry)).length

/-- Whether a bundle that has run exceeds a buffer, so that it is held back (04 R91; 06 R106, R120). -/
def exceeds (s0 s : State) (a : Agent) (ck : Bool) : Bool :=
  let c := s.ctx a
  decide (64 < State.landings c) || (List.range 3).any (fun k => decide (16 < State.outstanding c k)) ||
    (ck && decide (256 < releaseEntries s a) && decide (releaseEntries s0 a < releaseEntries s a))

/-- The slots of a bundle that act: position and instruction; a NOP word after the lead slot does nothing (02 R33). -/
def slotsOf (ws : List SlotWord) : List (Nat × Instr) :=
  ws.zipIdx.filterMap (fun x => if x.2 ≠ 0 ∧ isNop x.1 then none else
    match decode x.1 with
    | .ok i => some (x.2, i)
    | .error _ => none)
/-- Whether a bundle is a checkpoint bundle (06 R115). -/
def checkpointBundle (s : State) (is : List (Nat × Instr)) : Bool :=
  is.any (fun p => if p.1 = 0 then
      (match p.2 with
       | .halt _ | .trapi _ _ | .bkpt _ _ => true
       | _ => bit (encode p.2).toNat 15)
    else slotCheckpoint s p.2)
/-- An issue cycle begins: the results that are due are written, and the bundle of `n` words at `bpc` is the one that the slots belong to (04 R65). -/
def landCycle (s : State) (a : Agent) (bpc : BitVec 64) (n : Nat) : State :=
  { (sampleLate s a).landDue a with who := a, bpc := bpc, bnxt := bpc + BitVec.ofNat 64 (4 * n), verdict := .go, srs := [] }
/-- The slots of a bundle begin: the control registers of the next bundle start as this one's (02 R27). -/
def beginSlots (s : State) (a : Agent) (ck : Bool) : State :=
  let s := s.modCtx a (fun c => { c with stage := c.live.c })
  { s with ckb := ck, mark := (s.ctx a).flight.length, hmark := (s.ctx a).held.length }

/-- The bundle of fetched words at a boundary: its checks, what holds it back, its slots (02 R30; 06 R105; 12 R218; 22 R367). `s0` is the state before any
result of this issue cycle is written. -/
def issueWords (s0 : State) (a : Agent) (bpc : BitVec 64) (ws : List SlotWord) : Try :=
  match bundleCheck a.onCore (s0.unitsOf a) bpc ws with
  | some t => { res := .next (s0.takeTrap a t), ready := true, units := unitSet s0 a ws }
  | none =>
  let s1 := landCycle s0 a bpc ws.length
  let is := slotsOf ws
  let ck := checkpointBundle s1 is
  if ck && (!loadsArrived (s0.ctx a) || arrivalDue s0 a) then orStop s0 a (frozen s0 a) else
  let s1 := beginSlots s1 a ck
  let r := runBundle s1 is
  match r.stuck with
  | some x => { res := x }
  | none =>
  if !r.holds.isEmpty then waiting s0 a r.holds else
  match r.traps with
  | t :: _ => { res := .next (s0.takeTrap a t), ready := true, units := unitSet s0 a ws }
  | [] =>
  if exceeds s0 r.s a ck then orStop s0 a (frozen s0 a) else
  match stopDue (s0.ctx a) with
  | some _ => { orStop s0 a s0 with ready := true, units := unitSet s0 a ws }
  | none => { res := .next (if a.onCore then applyReleases r.s a else r.s), ready := true, units := unitSet s0 a ws }

/-- The units of the bundle that is due, of which a fetch without a trap or a wait tells (14 R259). -/
def dueUnits (s : State) (a : Agent) : List Nat := match fetchFrom a (s.ctx a).live.c.pc 8 s [] with
  | (.words ws, _) => unitSet s a ws
  | _ => []

/-- One cc of a front context, scribe or command processor (06 R101; 22 R366, R367). -/
def tryIssue (s : State) (a : Agent) : Try :=
  if (s.ctx a).st ≠ .front ∨ (s.ctx a).post.any (fun p => p.kind == .halt) then { res := .next s } else
  let s := landErrors s a landsBad
  let c := s.ctx a
  if 0 < c.empty then
    if State.lateLanding c then { res := .next (lateFreeze s a) } else { res := emptyCycle s a, ready := true }
  else if c.pendHeld.isSome ∨ c.pend.any (causeDue s.cc) then
    { res := exec .deferredTrap { s with ev := .deferredTrap a }, ready := true, units := dueUnits s a }
  else
  match c.post.map (postWait s a) with
  | some (.inr h) => waiting s a [h]
  | p =>
    let s := match p with
      | some (.inl s) => s
      | _ => s
    if (s.ctx a).st ≠ .front then { res := .next s } else
    if s.cc < c.wakeAt then { res := .next s } else
    if State.lateLanding c then orStop s a (lateFreeze s a) else
    if s.cc < c.fetchAt then orStop s a (if a.onCore then frozen s a else s) else
    match fetchFrom a c.live.c.pc 8 s [] with
    | (.wait, s) => if a.onCore then orStop s a (frozen s a) else orStop s a s
    | (.trap t, s) => { res := .next (s.takeTrap a t), ready := true }
    | (.words ws, s) => issueWords s a c.live.c.pc ws

end Sys2Proof.Machine
end

