-- ==== Sys2Proof/Machine/Turns.lean ====
section
/-!
DEFINITION. Who acts in a cc, in the order of 09 R189 and 12 R222: released effects, the merge stage's contexts, scribes and command processors,
then the engines; and what happens between two cc: vacancies and task clocks (14 R254, R258).
-/

namespace Sys2Proof.Machine

/-- One cc of a core's merge stage: which of its front contexts act (14 R259, R260). -/
def mergeTurn (s : State) (core : Nat) : State :=
  let c := s.core core
  let setFair := fun (s : State) (n : Nat) => s.modCore core (fun x => { x with fair := n })
  let lose := fun (s : State) (a : Agent) => (s.modCtx a (fun x => { x with lostAt := s.cc + 1 })).sample a 0x07 1
  match c.posA, c.posB with
  | none, none => s
  | some j, none => { s with turns := .issue (.ctx core j) :: s.turns }
  | none, some k =>
    let s := if (tryIssue s (.ctx core k)).ready then setFair s 0 else s
    { s with turns := .issue (.ctx core k) :: s.turns }
  | some j, some k =>
    let a := Agent.ctx core j
    let b := Agent.ctx core k
    let ta := tryIssue s a
    let tb := tryIssue s b
    if ta.ready && tb.ready && ta.units.any (fun u => tb.units.contains u) then
      if c.fair < 16 then
        let s := lose (setFair s (c.fair + 1)) b
        { s with turns := .issue a :: s.turns }
      else
        let s := lose (setFair s 0) a
        { s with turns := .issue b :: s.turns }
    else
      let s := if tb.ready then setFair s 0 else s
      { s with turns := .issue a :: .issue b :: s.turns }

/-- Whether a task's clock stands still in the cc that ends (14 R254). -/
def clockPaused (s : State) (t : Task) (id : Nat) : Bool :=
  let mine := t.ctxs.filter (fun k => decide ((s.ctx (agentOf k)).st ≠ .halted))
  !(s.saved.any (fun m => m.task == id && !m.restored)) && !mine.isEmpty && mine.all (fun k =>
    let c := s.ctx (agentOf k)
    (decide (c.st = .waiting) && c.issuedAt != s.cc + 1) || (decide (c.st = .front) && c.lostAt == s.cc + 1))

/-- The task clocks at the end of a cc; a clock that first exceeds its budget raises its event in that cc (14 R254). -/
def runClocks (s : State) : State :=
  s.tasks.foldl (fun (s : State) e =>
    let t := e.2
    if !t.started ∨ t.gone ∨ s.cc ≤ t.readyAt ∨ clockPaused s t e.1 then s else
    let s := s.modTask e.1 (fun t => { t with clock := (t.clock + 1) % 2 ^ 48 })
    if t.clock + 1 = t.budget + 1 ∧ !t.expired then s.at_ s.cc (.budgetExpired e.1) else s) s

/-- The end of a cc. -/
def tick (s : State) : State :=
  let cores := s.ctxs.filterMap (fun e => if e.1 < 4096 ∧ e.2.st = .waiting then some (e.1 / 8) else none)
  let s := cores.dedup.foldl (fun (s : State) c => fillVacancies s c (s.cc + 1)) s
  let s := { s with cc := s.cc + 1 }
  { s with turns := turnsOf s }

/-- One turn of a cc. -/
def takeTurn (s : State) : Turn → Res
  | .perform a => exec .releasedEffectPerform { s with ev := .releasedEffectPerform a }
  | .merge core => .next (mergeTurn s core)
  | .issue a => (tryIssue s a).res
  | .walker => exec .walkerCycle { s with ev := .walkerCycle }
  | .chan cl ch => exec .copyLineWrite { s with ev := .copyLineWrite cl ch }
  | .ring d => exec .ringChunk { s with ev := .ringChunk d }
  | .save core q => exec .paneOperationComplete { s with ev := .paneOperationComplete core q }
  | .arrival x => .next (engineArrive s x)
  | .clocks => .next (runClocks s)

/-- Whether every context, scribe, command processor, copy channel and ring engine has had its turn in this cc: what is left are arrivals, the walker, the clocks. -/
def contextsDone (s : State) : Bool := s.turns.all (fun t => match t with
  | .walker | .clocks | .arrival _ => true
  | _ => false)
/-- The event that is due first, withdrawn from the agenda: one that belongs after the contexts waits for their turns, the grants for the walker's too (11 R206; 12 R222;
14 R251; 19 R336; 21 R363). -/
def dueEvent (s : State) : Option (Ev × State) :=
  (s.agenda.find? (fun x => decide (x.1 ≤ s.cc) && (!x.2.late || contextsDone s) && (!x.2.last || s.turns.all (· == .clocks)))).map (fun x => (x.2, { s with agenda := s.agenda.erase x }))

/-! ## Placing an instruction (log 16) -/

/-- The bundle that holds a slot word: a lead word before three NOPs, another after NEXT, last when its stop bit is set (02 R25, R33). -/
def bundleOf (w : SlotWord) : List SlotWord :=
  if wordOp w < 0x10 then [w, 0, 0, 0x80000000]
  else if w.getLsbD 31 then [0, 0, 0, w] else [0, w, 0, 0x80000000]

/-- Place a word's bundle before the processor that runs it: context 0 of core 0, or the scribe of cluster 0 for a system family (02 R29). -/
def placeWord (s : State) (w : SlotWord) : State :=
  let bytes := (bundleOf w).flatMap wordBytes
  let a : Agent := if 0x74 ≤ wordOp w ∧ wordOp w ≤ 0x7D then .scribe 0 else .ctx 0 0
  let s := s.modCtx a (fun c => { c with st := .front, live := { c.live with c := { c.live.c with pc := 0 } } })
  let s := s.modDie 0 (fun d => { d with tlb := [{ proc := 0, vf := 0, page := 0, size := 29, pa := 0, pte := 0x1F }] })
  let s := if a.onCore then
      s.modCore 0 (fun c => { c with posA := some 0, istore := c.istore.insert 0 (some (BitVec.ofNat 1024 (ofBytes bytes))) })
    else s.storeAt 0 bytes
  { s with notices := [], agenda := [], turns := [.issue a] }

end Sys2Proof.Machine
end

