-- ==== Sys2Proof/Machine/Step.lean ====
section
/-!
DEFINITION. One step of the package: notices that are raised are written first, then an event that is due, then the next agent's turn in the
current cc, then the cc ends (log 10).
-/

namespace Sys2Proof.Machine

/-- A step while power is removed: only the return of power does anything (23 R389). -/
def darkStep (s : State) : Host.Outcome State Fault Refusal :=
  match dueEvent s with
  | some (.powerOnReset, s) => exec .powerOnReset { s with ev := .powerOnReset }
  | some (_, s) => .next s
  | none => .next { s with cc := s.cc + 1 }

/-- One step. -/
def step (s : State) : Host.Outcome State Fault Refusal :=
  if !s.powered then darkStep s else
  if !s.notices.isEmpty then exec .noticeDelivery { s with ev := .noticeDelivery } else
  match dueEvent s with
  | some (e, s) => exec e.instr { s with ev := e }
  | none =>
    match s.turns with
    | t :: r => takeTurn { s with turns := r } t
    | [] => .next (tick s)

/-- The state in which the next step fetches and runs the instruction of word `w`: a processor that runs it stands before a bundle that holds it, at
address 0 of a page that process 0 maps to the same address (log 16). -/
def State.withFetchWord (s : State) (nbits w : Nat) : State := placeWord s (BitVec.ofNat 32 (if nbits < 32 then w % 2 ^ nbits else w))

end Sys2Proof.Machine
end

