-- ==== Sys2Proof/Safety.lean ====
section
/-!
DEFINITION. Safe runs, and the words that the statements use: a step that answers a next state; a slot that issues, and the states that a slot with one
result, or a lead slot, leaves. A fault is raised only for what the outside world cannot do to the package (`Fault`), and a refusal only for an
instruction without a meaning (`Refusal`).
-/

namespace Sys2Proof.Machine

/-- A step from this state goes on. -/
def State.safe (s : State) : Prop := ∃ t, step s = .next t

/-! ## Slots after the lead slot -/

/-- The state in which a non-lead slot acts: the slot word that causes of this slot would name is noted (22 R368). -/
def State.noted (s : State) (i : Instr) : State := { s with word := encode i }

/-- A non-lead slot issues: its own word passes the checks of 02 R30 on this processor and in this mode (its unit is present and enabled, it is not
privileged here, no reserved combination, a format that its family accepts), and its guard reads true (02 R32). -/
def Issues (i : Instr) (h : Hdr) (s : State) : Prop := slotCheck (s.noted i) i = none ∧ s.guard h.g = true

/-- The state that a slot leaves whose only effect is to write `ws` at the `L`-th issue cycle after this one (04 R65). -/
def State.leaves (s : State) (i : Instr) (L : Nat) (ws : List RegWrite) : State := (s.noted i).result L ws

/-- The state that a slot leaves whose only effect is withheld to the next checkpoint (06 R119). -/
def State.withholds (s : State) (i : Instr) (e : Effect) (regs : List Word) : State := (s.noted i).addHeld e regs

/-- The withheld-store buffer has room for one more entry (06 R119). -/
def State.room (s : State) : Prop := withheldEntries s.me < 256

/-! ## The lead slot -/

/-- The state in which a lead slot acts. -/
def State.leads (s : State) (i : Instr) (h : LHdr) : State :=
  { s with word := encode i, pos := 0, ckb := s.ckb || leadCheckpoint i h }

/-- A lead slot passes its checks: no reserved combination, every queue head that it pops is bound and holds an element (02 R32; 12 R227, R228). -/
def LeadPasses (i : Instr) (h : LHdr) (s : State) : Prop :=
  i.ill = none ∧ firstHead h.pm (fun q => !((s.leads i h).head q).bound) = none ∧
    firstHead h.pm (fun q => ((s.leads i h).latched s.who ((s.leads i h).head q)).isNone) = none
/-- A lead slot issues: it passes its checks and its guard reads true (02 R32). -/
def LeadIssues (i : Instr) (h : LHdr) (s : State) : Prop := LeadPasses i h s ∧ s.guard h.g = true

/-- An outcome ends the bundle of the issuing agent with its control at `pc`, with these return addresses and loop levels; the agent's scalar, vector,
predicate and mask registers and all of memory are as they were (02 R27; 04 R69). -/
def EndsBundle (s : State) (r : Res) (pc : BitVec 64) (rets : List (BitVec 57)) (loops : List Level) : Prop :=
  ∃ t, r = .next t ∧ (t.ctx s.who).live.c.pc = pc ∧ (t.ctx s.who).live.c.rets = rets ∧ (t.ctx s.who).live.c.loops = loops ∧
    (t.ctx s.who).icyc = s.me.icyc + 1 ∧ (t.ctx s.who).live.s = s.me.live.s ∧ (t.ctx s.who).live.v = s.me.live.v ∧
    (t.ctx s.who).live.f = s.me.live.f ∧ (t.ctx s.who).live.m = s.me.live.m ∧ t.mem = s.mem

/-! ## Bundles -/

/-- The slots of a bundle, in the order given, run one after another from `s` to `u`: each by the meaning of its instruction, with no wait and no
trap (02 R27). -/
def SlotsGo (s : State) : List (Nat × Instr) → State → Prop
  | [], u => s = u
  | p :: r, u => ∃ t, exec p.2 { s with pos := p.1, verdict := .go } = .next t ∧ t.verdict = .go ∧ SlotsGo t r u

/-- An agent stands before a bundle that it may issue in this cc: it is a front context (or a running scribe or command processor), pays no empty issue
cycle, has no deferred trap, wait, late landing, landing error, walk or stop outstanding (06 R101; 14 R259; 22 R366, R367, R387). -/
def Ready (s : State) (a : Agent) : Prop :=
  (s.ctx a).st = .front ∧ (s.ctx a).empty = 0 ∧ (s.ctx a).pendHeld = none ∧ (s.ctx a).pend = [] ∧ (s.ctx a).post = none ∧
    (s.ctx a).wakeAt ≤ s.cc ∧ State.lateLanding (s.ctx a) = false ∧ (s.ctx a).fetchAt ≤ s.cc ∧
    (s.ctx a).flight.filter landsBad = []

/-! ## Steps without an encoding -/

/-- The state in which a step without an encoding is performed with given operands. -/
def State.given (s : State) (e : Ev) : State := { s with ev := e }

/-- Between two states, a message of die `from_` has left for a package and die, as the step `e` that it makes there with its header: within this package that step
comes `n` cc later; where a route reaches another package, the message is on its way to it (19 R346, R347, R407). -/
def Sent (s t : State) (n from_ : Nat) (dst : Nat × Nat) (e : MsgHdr → Ev) : Prop :=
  ∃ tag, let x := e { pkg := s.pkgid.toNat, die := from_, dest := dst.2, tag := tag }
    if dst.1 = s.pkgid.toNat then (s.cc + n, x) ∈ t.agenda else s.routeUp dst.1 = true → Msg.sem dst.1 x ∈ t.outbox

/-- Between two states, what answers a message from a package and die has left a die of this package: within this package it comes `n` cc later; to a package that a route
reaches it is on its way; to one that none reaches it has failed, which the die's command processor is told (19 R347, R348, R407; log 86). -/
def Answered (s t : State) (pkg die dest n : Nat) (e : Ev) : Prop :=
  if pkg = s.pkgid.toNat then (s.cc + n, e) ∈ t.agenda
  else if s.routeUp pkg = true then Msg.sem pkg e ∈ t.outbox
  else ∃ m ∈ t.notices, m.cause = 0x44 ∧ m.dest = .cpring dest ∧ m.det.d1 = BitVec.ofNat 64 (pkg + die * 2 ^ 16)

/-- An agent that runs, or a running task's member, has a cause waiting for its next boundary (15 R268; 22 R366). -/
def Told (t : State) (a : Agent) (cause : Nat) (bund : BitVec 57) : Prop := ∃ r ∈ (t.ctx a).pend, r.cause = cause ∧ r.bund = bund

end Sys2Proof.Machine
end

