-- ==== Sys2Proof/Certificates/Slice0/Obligations.lean ====
section
/-!
DEFINITION. The statements for the provers, in the order of OBLIGATIONS.json. A statement that gathers several families is the conjunction of its
parts, each a `Claims.…` definition with the rules that it follows.
-/

open Sys2Proof Sys2Proof.Machine

/-! ## Words -/

/-- Slot words that the spec works out from its field maps (04, 05, 09, 12, 15) decode to the instructions that they stand for. -/
def Obligations.DecodedWords : Prop :=
  decode 0x07000639 = .ok (.loopPipe { stop := false, g := 0, pm := 0, ck := false, y := false, hint := false } 6 7) ∧
    decode 0x09000000 = .ok (.lclose { stop := false, g := 0, pm := 0, ck := false, y := false, hint := false }) ∧
    decode 0x92810810 = .ok (.addi { stop := true, g := 8 } 2 2 16) ∧
    decode 0x2002190A = .ok (.cmp { stop := false, g := 0 } 2 3 4 2 true) ∧
    decode 0x24A810CB = .ok (.ffma { stop := false, g := 10 } 16 4 6 false true) ∧
    decode 0x1B019150 = .ok (.fld { stop := false, g := 0 } 3 4 false true 1 16) ∧
    decode 0x29830880 = .ok (.ldsp { stop := false, g := 8 } 6 2 1 0 0) ∧
    decode 0x2D0299C2 = .ok (.ldvs { stop := false, g := 0 } 5 6 3 2) ∧
    decode 0x300190A6 = .ok (.stvs { stop := false, g := 0 } 3 4 2 9 2) ∧
    decode 0x34031401 = .ok (.cpchSt { stop := false, g := 0 } 6 5) ∧
    decode 0x5C0123B1 = .ok (.mxld { stop := false, g := 0 } 1 4 7 3 0 false true) ∧
    decode 0x5F00C484 = .ok (.mxrd { stop := false, g := 0 } 0 12 9 0 4) ∧
    decode 0x6D012822 = .ok (.mxsc { stop := false, g := 0 } 1 5 2 2) ∧
    decode 0x650110A0 = .ok (.gstep { stop := false, g := 0 } 2 4 5) ∧
    decode 0x7401A000 = .ok (.task { stop := false, g := 0 } 3 8)

/-- Every instruction with an encoding decodes from its word to itself, with every operand at every value that its fields admit. -/
def Obligations.EncodedInstructionsDecode : Prop := ∀ i : Instr, encodeNat i ≠ none → decode (encode i) = .ok i

/-- A word that decodes is the encoding of what it decodes to: every bit of an accepted word is an operand's, an operation code's or zero (02 R35). -/
def Obligations.DecodedWordsEncode : Prop := ∀ (w : SlotWord) (i : Instr), decode w = .ok i → encode i = w

/-- The NOP word is zero in bits [30:0] (02 R33). After the lead slot it takes no unit and nothing is executed for it: the slots of a bundle that act
after the lead are those of its other words. In the lead position it is NEXT with no flags. -/
def Obligations.NopWord : Prop :=
  (∀ w : SlotWord, isNop w = true ↔ w = 0x00000000 ∨ w = 0x80000000) ∧
    (∀ (w : SlotWord) (onCore : Bool) (p : Nat), isNop w = true → unitOf onCore (p, w) = none) ∧
    (∀ (ws : List SlotWord) (k : Nat) (i : Instr), (k, i) ∈ slotsOf ws ↔
      ∃ w, ws[k]? = some w ∧ (k = 0 ∨ isNop w = false) ∧ decode w = .ok i) ∧
    decode 0x00000000 = .ok (.next { stop := false, g := 0, pm := 0, ck := false, y := false, hint := false }) ∧
    decode 0x80000000 = .ok (.next { stop := true, g := 0, pm := 0, ck := false, y := false, hint := false })

/-- The ten OP values without a family (02 R38): none decodes, and a framed bundle with one of them in any position executes nothing and traps
with 0x01, naming the lowest such slot. -/
def Obligations.UnassignedOpcodes : Prop :=
  (∀ w : SlotWord, unassigned (wordOp w) = true ↔ wordOp w ∈ [0x0E, 0x0F, 0x58, 0x59, 0x5A, 0x5B, 0x66, 0x67, 0x7E, 0x7F]) ∧
    (∀ w : SlotWord, unassigned (wordOp w) = true → decode w = .error .unassigned) ∧
    ∀ (s : State) (a : Agent) (bpc : BitVec 64) (ws : List SlotWord) (k : Nat) (w : SlotWord), ws[k]? = some w →
      unassigned (wordOp w) = true → (∀ j x, j < k → ws[j]? = some x → unassigned (wordOp x) = false) →
      issueWords s a bpc ws = { res := .next (s.takeTrap a (checkTrap bpc 0x01 0 (k, w))), ready := true, units := unitSet s a ws } ∧ (checkTrap bpc 0x01 0 (k, w)).cause = 0x01

/-! ## Reset, steps and their invariant -/

/-- What reset leaves: every context of a core free, every scribe and command processor stopped (14 R249, R256; 23 R399), HEAD, TAIL, STREAM and CPCTL 0
(R399), SHARE 2, YQ 1,048,576, every window empty and every SCRIBE register 0 (14 R252; 15 R296), no vault step of addressed space (17 R301), and each
notice well's block: BASE 0x3F_C000, SLOTS 128, SLOTB 128, pointers 0 (22 R370). Memory has its canonical form. -/
def Obligations.ResetState : Prop :=
  Memory.wf State.reset.mem = true ∧ State.reset.powered = true ∧
    (∀ core j, j < 8 → core < 512 → (State.reset.ctx (.ctx core j)).st = .free) ∧
    (∀ c, (State.reset.ctx (.scribe c)).st = .stopped ∧ (State.reset.cluster c).scribeReg = 0 ∧ (State.reset.cluster c).steps = 0) ∧
    (∀ d, (State.reset.ctx (.cp d)).st = .stopped ∧ (State.reset.die d).tail = 0 ∧ (State.reset.die d).head = 0 ∧
      (State.reset.die d).stream = 0 ∧ (State.reset.die d).run = false) ∧
    (∀ n, (State.reset.core n).share = 2 ∧ (State.reset.core n).yq = 1048576 ∧ (State.reset.core n).posA = none ∧
      (State.reset.core n).posB = none) ∧
    (∀ a, (State.reset.ctx a).padwin = 0 ∧ (State.reset.ctx a).vaultwin = 0) ∧
    (∀ c, c < 64 → State.reset.numAt (padKey c 0x3FBF80) 8 = 0x3FC000 ∧ State.reset.numAt (padKey c 0x3FBF88) 4 = 128 ∧
      State.reset.numAt (padKey c 0x3FBF8C) 4 = 128 ∧ State.reset.numAt (padKey c 0x3FBF90) 8 = 0)

/-- Every step keeps memory in its canonical form: strictly rising addresses and no entry equal to what an unlisted address reads as, so that equal
memories are equal data. -/
def Obligations.MemoryStaysCanonical : Prop := ∀ s t : State, Memory.wf s.mem = true → step s = .next t → Memory.wf t.mem = true

/-- A step issues the bundle at the pc of the agent whose turn it is: when the fetched words pass the checks of 02 R30, each slot is run by the meaning
of the instruction that its word decodes to, those after the lead in position order and then the lead, and the step answers the state they leave, after
the releases of a checkpoint bundle (02 R27, R28, R30; 06 R101). That a raised notice is delivered before any turn, and then the event that is due is performed, is
the model's choice, which no rule gives (log 10). -/
def Obligations.StepRunsBundle : Prop :=
  (∀ (s : State), s.powered = true → s.notices ≠ [] → step s = exec .noticeDelivery { s with ev := .noticeDelivery }) ∧
    (∀ (s s' : State) (e : Ev), s.powered = true → s.notices = [] → dueEvent s = some (e, s') → step s = exec e.instr { s' with ev := e }) ∧
    ∀ (s s1 u : State) (a : Agent) (r : List Turn) (ws : List SlotWord) (lead : Instr) (rest : List (Nat × Instr)) (ck : Bool),
      s.powered = true → s.notices = [] → dueEvent s = none → s.turns = .issue a :: r → Ready s a → stopDue (s1.ctx a) = none →
      fetchFrom a (s.ctx a).live.c.pc 8 { s with turns := r } [] = (.words ws, s1) →
      bundleCheck a.onCore (s1.unitsOf a) (s.ctx a).live.c.pc ws = none →
      slotsOf ws = (0, lead) :: rest →
      ck = checkpointBundle (landCycle s1 a (s.ctx a).live.c.pc ws.length) ((0, lead) :: rest) →
      (ck = true → loadsArrived (s1.ctx a) = true) →
      SlotsGo (beginSlots (landCycle s1 a (s.ctx a).live.c.pc ws.length) a ck) (rest ++ [(0, lead)]) u →
      exceeds s1 u a ck = false →
      step s = .next (if a.onCore then applyReleases u a else u)

/-- Every instruction with an encoding answers a next state in every state: with its effect, with a wait, with the trap that the spec names, or, with a
guard that reads false, with none; no data and no encoding ends a run (02 R30, R32; 22 R365, R366). -/
def Obligations.EncodedInstructionsAnswer : Prop := ∀ (i : Instr) (s : State), encodeNat i ≠ none → ∃ t, exec i s = .next t

/-! ## Slots: frames, guards, results, traps -/

/-- The frame of every slot whose statement answers `leaves`: one entry is added to the results in flight of the issuing agent, the slot's word is noted, and
every other part of that agent, every other agent, memory and every other field of the state are as before. -/
def Claims.ResultFrame : Prop :=
  ∀ (s : State) (i : Instr) (L : Nat) (ws : List RegWrite) (b : Agent),
    let t := s.leaves i L ws
    t.ctx s.who = { s.me with flight := s.me.flight ++ [{ id := 0, writes := ws, dist := L }] } ∧
    (b.key ≠ s.who.key → t.ctx b = s.ctx b) ∧ (∀ k, t.byteAt k = s.byteAt k) ∧
    { t with ctxs := s.ctxs, word := s.word } = s

/-- The frame of every slot whose statement answers `withholds`: one withheld effect is added to the issuing agent; its registers, every other agent, every byte of
memory and every other field of the state are as before (06 R119). -/
def Claims.WithheldFrame : Prop :=
  ∀ (s : State) (i : Instr) (e : Effect) (regs : List Word) (b : Agent),
    let t := s.withholds i e regs
    t.ctx s.who = { s.me with held := s.me.held ++ [{ pos := s.pos, word := encode i, bund := s.bpc.setWidth 57, regs := regs, eff := e }] } ∧
    (b.key ≠ s.who.key → t.ctx b = s.ctx b) ∧ (∀ k, t.byteAt k = s.byteAt k) ∧
    { t with ctxs := s.ctxs, word := s.word } = s

/-- The frame of a slot with results, and of a slot with a withheld effect: `Claims.ResultFrame`, `Claims.WithheldFrame`. -/
def Obligations.SlotFrames : Prop := Claims.ResultFrame ∧ Claims.WithheldFrame

/-- A slot whose guard reads false has no effect, but its encoding checks are made (02 R30, R32): every encoded instruction outside the lead slot, whose
guard is bits [23:20] of its own word (02 R31). -/
def Obligations.FalseGuardHasNoEffect : Prop :=
  ∀ (s : State) (i : Instr) (y : Nat), encodeNat i = some y → 0x10 ≤ y / 2 ^ 24 % 128 → s.guard (BitVec.ofNat 4 (y / 2 ^ 20)) = false →
    (slotCheck (s.noted i) i = none → exec i s = .next (s.noted i)) ∧
    (∀ t, slotCheck (s.noted i) i = some t → exec i s = .next ((s.noted i).raise t))

/-- Results are written when they are due, in issue order, the later prevailing; writes of s0, f0 and m0 are discarded; a register that no due result names
keeps its value, and memory is untouched (04 R65, R66).
It rests on the model's own choices of log 2. -/
def Claims.ResultsLand : Prop :=
  ∀ (s : State) (a : Agent),
    let c := s.ctx a
    let due := fun (e : Flight) => e.dist == 0 && e.arrived && e.kind != .pref && e.kind != .fetch && e.kind != .dead
    let ws := (c.flight.filter due).flatMap State.entryWrites
    let t := s.landDue a
    let u := (t.ctx a).live
    (∀ r, u.getS r = if r = 0 then c.live.getS 0 else
      ((ws.filterMap (fun w => match w with | .s q x => if q = r then some x else none | _ => none)).getLast?).getD (c.live.getS r)) ∧
    (∀ r, u.getV r =
      ((ws.filterMap (fun w => match w with | .v q x => if q = r then some x else none | _ => none)).getLast?).getD (c.live.getV r)) ∧
    (∀ r, u.getF r = if r = 0 then true else
      ((ws.filterMap (fun w => match w with | .f q x => if q = r then some x else none | _ => none)).getLast?).getD (c.live.getF r)) ∧
    (∀ r, u.getM r = if r = 0 then c.live.getM 0 else
      ((ws.filterMap (fun w => match w with | .m q x => if q = r then some x else none | _ => none)).getLast?).getD (c.live.getM r)) ∧
    u.c = c.live.c ∧ (t.ctx a).flight = c.flight.filter (fun e => !due e) ∧ (t.ctx a).held = c.held ∧ (∀ k, t.byteAt k = s.byteAt k)

/-- A result of latency L is due exactly at the L-th issue cycle after its slot: ageing counts issue cycles only (04 R65; 06 R103). -/
def Claims.ResultLatency : Prop :=
  ∀ (s : State) (i : Instr) (L n : Nat) (ws : List RegWrite),
    let c := (State.ageFlight^[n]) ((s.leaves i L ws).ctx s.who)
    (c.flight.getLast?.map (fun e => (e.writes, e.dist, e.arrived))) = some (ws, L - n, true) ∧ c.live = s.me.live

/-- Rotation (04 R74): s0 to s15, v0 to v15 and f0 to f7 name themselves, the upper names are rotated among themselves; of two names of one file no two name
one register. -/
def Claims.RotatedNames : Prop :=
  ∀ (r : BitVec 4) (n m : BitVec 5) (p q : BitVec 4),
    (n.toNat < 16 → physSV r n = n) ∧ (16 ≤ n.toNat → (physSV r n).toNat = 16 + (n.toNat - 16 + r.toNat) % 16) ∧
    (p.toNat < 8 → physF r p = p) ∧ (8 ≤ p.toNat → (physF r p).toNat = 8 + (p.toNat - 8 + r.toNat) % 8) ∧
    (physSV r n = physSV r m → n = m) ∧ (physF r p = physF r q → p = q)

/-- When results are written, in what order, and to which rotated names: `Claims.ResultsLand`, `Claims.ResultLatency`, `Claims.RotatedNames`. -/
def Obligations.ResultsInFlight : Prop := Claims.ResultsLand ∧ Claims.ResultLatency ∧ Claims.RotatedNames

/-- An access whose address is not a multiple of its alignment traps with 0x24, the address in %tdet1 (04 R88; 22 R369): every load, store and atomic; of a gather
or scatter the lowest lane; of a masked store where an element is active. That it is so for an address that also lies outside its window, or without access, is the
model's reading (log 12: DEDUCED), and that a load traps at its issue too (log 15: DEDUCED; 04 R98 says no later than its landing). -/
def Claims.MisalignedAccessTraps : Prop :=
  ∀ (s : State) (h : Hdr) (d a off ix : BitVec 5) (lc : BitVec 3) (sp : BitVec 2) (mk fmt : BitVec 4) (w4 : Bool),
    let traps := fun (i : Instr) (ea : BitVec 64) (al : Nat) => ea.toNat % al ≠ 0 → Issues i h s → ∃ t, exec i s = .next t ∧
      (t.ctx s.who).st = .stopped ∧ (t.ctx s.who).tcause = 0x24 ∧ (t.ctx s.who).tdet.d1 = ea ∧ (t.ctx s.who).live = s.me.ckpt ∧
      (t.ctx s.who).held = [] ∧ t.mem = s.mem
    traps (.lds h d a lc sp off) (effAddr s a off 8) 8 ∧ traps (.ldsp h d a lc sp off) (effAddr s a off 16) 16 ∧
    traps (.ldsv h d a lc sp off) (effAddr s a off 4) 4 ∧ traps (.ldv h d a lc sp off) (effAddr s a off 512) 128 ∧
    traps (.ldvs h d a lc off) (effAddr s a off 128) 128 ∧ traps (.ldvx h d a lc sp ix) (laneAddr s a ix 0) 4 ∧
    traps (.sts h d a sp off) (effAddr s a off 8) 8 ∧ traps (.stv h d a sp off) (effAddr s a off 512) 128 ∧
    traps (.stvx h d a sp ix) (laneAddr s a ix 0) 4 ∧
    ((∃ e, e < elemCount fmt ∧ activeElem fmt (s.rm mk) e = true) → traps (.stvs h d a mk fmt sp) (s.rs a) (fmtBits fmt / 8)) ∧
    (∀ i ∈ [Instr.atomSwap h d a lc sp w4, .atomAdd h d a lc sp w4, .atomAnd h d a lc sp w4, .atomOr h d a lc sp w4, .atomXor h d a lc sp w4,
        .atomMin h d a lc sp w4, .atomMax h d a lc sp w4, .atomMinu h d a lc sp w4, .atomMaxu h d a lc sp w4, .atomCas h d a lc sp w4,
        .atomFadd h d a lc sp w4], traps i (s.rs a) (if w4 then 4 else 8))

/-- A system slot on a core's context traps with 0x04 and has none of its effect (02 R29, R30; 15 R270): the context is stopped with its registers as the
checkpoint held them. So does every other privileged slot whose unit the processor and the variant have (02 R28). -/
def Claims.PrivilegedSlotsTrap : Prop :=
  (∀ (s : State) (h : Hdr) (a b d : BitVec 5) (x : Bool), s.who.onCore = true →
    ∀ i ∈ [Instr.task h d a, .ctxRd h d a b, .ctxWr h d a b, .csvSave h a b, .csvLd h a b, .csvFree h a, .tret h a, .tlbiAll h x,
        .tlbiVf h a x, .tlbiPg h a b x, .monCfg h a b, .monRd h d a, .monClr h a, .wswOut h a b, .wswIn h a b, .dbgStep h a, .dbgStop h a,
        .dbgBrk h a b, .cfgRd h d a b, .cfgWr h d a b],
      ∃ t, exec i s = .next t ∧ (t.ctx s.who).st = .stopped ∧ (t.ctx s.who).tcause = 0x04 ∧ (t.ctx s.who).live = s.me.ckpt ∧
        (t.ctx s.who).held = []) ∧
  (∀ (s : State) (i : Instr), s.who.onCore = true → privileged i = true → unitCheck (s.noted i) i = none →
    ∃ t, exec i s = .next t ∧ (t.ctx s.who).st = .stopped ∧ (t.ctx s.who).tcause = 0x04 ∧ (t.ctx s.who).live = s.me.ckpt ∧
      (t.ctx s.who).held = [])

/-- A governor slot of a process without a table traps with 0x63 (09 R187), and so does one whose entry, layer or range is not in the table: GOV rd, set and clr and XCVT of an
entry beyond 4,095, GMEAS of a layer beyond 1,023, GSTEP of no entry, of more than 4,096 or of a range that leaves the table (R187-R190); a set word that is not valid, a
GSTEP on a table without a policy and an XCVT of another format than its entry's trap alike (08 R167; 22 R369): nothing of the governor changes. -/
def Claims.GovernorTraps : Prop :=
  ∀ (s : State) (h : Hdr) (d a b : BitVec 5) (f : BitVec 4) (x : Bool),
    let entry := (s.rs a).toNat
    let n := (s.rs b).toNat
    let absent := govTableOf s (s.procOf s.who) = none
    let traps := fun (i : Instr) => Issues i h s →
      ∃ t, exec i s = .next t ∧ (t.ctx s.who).tcause = 0x63 ∧ (t.ctx s.who).st = .stopped ∧ (t.ctx s.who).live = s.me.ckpt ∧ t.gov = s.gov
    (absent ∨ 4096 ≤ entry → traps (.govRd h d a b) ∧ traps (.govClr h a)) ∧
    (absent ∨ 4096 ≤ entry ∨ setWordOk (s.rs b) = false → traps (.govSet h a b)) ∧
    (absent ∨ 1024 ≤ entry → traps (.gmeasMb h a b) ∧ traps (.gmeasTot h a b)) ∧
    (absent ∨ n = 0 ∨ 4096 < n ∨ 4096 < entry + n → traps (.gstep h d a b)) ∧
    (∀ t, govTableOf s (s.procOf s.who) = some t → (govTable s t).kappa = none → traps (.gstep h d a b)) ∧
    (absent ∨ 4096 ≤ n → traps (.xcvt h d a b f x)) ∧
    (∀ t, govTableOf s (s.procOf s.who) = some t → (govEntry s t n).fmt ≠ f → traps (.xcvt h d a b f x)) ∧
    (absent → entry % 16 = 0 → traps (.govPol h a))

/-- Jumps to a misaligned address, and full and empty stacks (04 R69, R72, R73, R75): JMPI and CALLI of an address that is not 4-aligned trap with 0x24; CALL and CALLI with
sixteen return addresses trap with 0x11, RET with none with 0x12, LOOP of either kind and SLOOP with six levels with 0x13, LCLOSE and LEXIT with none, and LEXIT with
displacement 0 of a level whose END is still 0, with 0x14. -/
def Claims.StackTraps : Prop :=
  ∀ (s : State) (h : LHdr) (d13 : BitVec 13) (a b : BitVec 5) (k : BitVec 2),
    let traps := fun (i : Instr) (cause : BitVec 7) => LeadIssues i h s → ∃ t, exec i s = .next t ∧ (t.ctx s.who).tcause = cause ∧
      (t.ctx s.who).st = .stopped ∧ (t.ctx s.who).live = s.me.ckpt
    ((s.rs a).toNat % 4 ≠ 0 → traps (.jmpi h a) 0x24 ∧ traps (.calli h a) 0x24) ∧
    (s.me.live.c.rets.length = 16 → traps (.call h d13) 0x11 ∧ ((s.rs a).toNat % 4 = 0 → traps (.calli h a) 0x11)) ∧
    (s.me.live.c.rets = [] → traps (.ret h) 0x12) ∧
    (s.me.live.c.loops.length = 6 → traps (.loop h a) 0x13 ∧ traps (.loopPipe h a b) 0x13 ∧ traps (.sloop h k b) 0x13) ∧
    (s.me.live.c.loops = [] → traps (.lclose h) 0x14 ∧ traps (.lexit h d13) 0x14) ∧
    (∀ l ls, s.me.live.c.loops = l :: ls → l.fin = 0 → traps (.lexit h 0) 0x14)

/-- Misaligned, privileged, governor and stack faults trap before any effect: `Claims.MisalignedAccessTraps`, `Claims.PrivilegedSlotsTrap`, `Claims.GovernorTraps`, `Claims.StackTraps`. -/
def Obligations.StoppingTraps : Prop := Claims.MisalignedAccessTraps ∧ Claims.PrivilegedSlotsTrap ∧ Claims.GovernorTraps ∧ Claims.StackTraps

/-- Queue operations through a head that no queue is bound to trap with 0x16, the head in %tdet1 (12 R227). -/
def Claims.UnboundHeadTraps : Prop :=
  ∀ (s : State) (h : Hdr) (b d : BitVec 5) (k : BitVec 2), (s.head k).bound = false →
    ∀ i ∈ [Instr.qpushFwd h k b, .qunbind h k, .qrd h d k, .qstat h d k], Issues i h s →
      exec i s = .next ((s.noted i).raise ((s.noted i).slotTrap 0x16 0 (k.setWidth 64)))

/-- A slot that names a pane its context has not been granted, in its Z field or in the pane mask of MXLD and MXSC, traps with 0x08, %panes in %tdet1 (09 R172),
and touches no pane. -/
def Claims.UngrantedPaneTraps : Prop :=
  ∀ (s : State) (h : Hdr) (z : BitVec 3) (a b d : BitVec 5) (f : BitVec 4) (qb rv zs : Bool) (rnd : BitVec 3),
    let traps := fun (i : Instr) => Issues i h s → exec i s = .next ((s.noted i).raise ((s.noted i).slotTrap 0x08 0 (grantedWord s.me)))
    (s.me.panes.getD (z.toNat / 2) none = none →
      ∀ i ∈ [Instr.mxa h z a b f qb rv zs, .mxav h z a f qb rv zs, .mxrk h z a b f zs, .mxrd h z a b f rnd, .mxsvSt h z d, .mxsvSave h z a b,
          .mxsvLd h z a b], traps i) ∧
    (∀ (pnm : BitVec 4) (lc : BitVec 3) (gw sp : BitVec 2) (tr : Bool),
      (∃ p, p < 4 ∧ pnm.getLsbD p = true ∧ s.me.panes.getD p none = none) →
      ∀ i ∈ [Instr.mxld h pnm a f lc gw qb tr, .mxsc h pnm a lc sp], traps i)

/-- A tile read before its done position traps with 0x06, the tile and the cycles that are missing in the details (09 R176): the status, readout, save and restore
of the tile, and the release of a pane, whose first tile that is not done is named. -/
def Claims.EarlyTileReadTraps : Prop :=
  ∀ (s : State) (h : Hdr) (z rnd : BitVec 3) (a b d : BitVec 5) (f mk : BitVec 4),
    let doneOf := fun (n : Nat) => ((paneOf s s.who.core (mainPane s (n / 2))).tile (n % 2)).done
    let traps := fun (i : Instr) (n : Nat) => Issues i h s → exec i s = .next ((s.noted i).raise
      ((s.noted i).slotTrap 0x06 0 (BitVec.ofNat 64 n) (BitVec.ofNat 64 (doneOf n - s.me.icyc.toNat))))
    ((s.me.panes.getD (z.toNat / 2) none).isSome = true → s.me.icyc.toNat < doneOf z.toNat →
      traps (.mxsvSt h z d) z.toNat ∧
      (wbits (s.rs b) 15 14 = 0 → wbits (s.rs b) 63 20 = 0 → traps (.mxrd h z a b f rnd) z.toNat) ∧
      (wbits (s.rs b) 63 2 = 0 → traps (.mxsvSave h z a b) z.toNat) ∧
      (wbits (s.rs b) 63 7 = 0 → wbits (s.rs b) 3 2 = 0 → traps (.mxsvLd h z a b) z.toNat)) ∧
    (∀ n, n < 8 → mk.getLsbD (n / 2) = true → (s.me.panes.getD (n / 2) none).isSome = true → (coverOf s s.who = 3 → mk.toNat < 4) →
      s.me.icyc.toNat < doneOf n →
      (∀ m, m < n → mk.getLsbD (m / 2) = true → (s.me.panes.getD (m / 2) none).isSome = true → doneOf m ≤ s.me.icyc.toNat) →
      traps (.mxpnRel h d mk) n)

/-- Heads without a queue, panes not granted and tiles read too early trap: `Claims.UnboundHeadTraps`, `Claims.UngrantedPaneTraps`, `Claims.EarlyTileReadTraps`. -/
def Obligations.OperandTraps : Prop := Claims.UnboundHeadTraps ∧ Claims.UngrantedPaneTraps ∧ Claims.EarlyTileReadTraps

/-- Taking a trap (06 R121; 22 R366): the context rolls back to its checkpoint, its trap registers take the cause, the bundle, the checkpoint and the details,
its withheld effects are discarded, it is stopped and holds no front position, and one notice says so; a stop request that it satisfies has its own notice
behind (22 R367, R371). A command processor's HEAD is its next bundle again (23 R394). -/
def Claims.TrapEntry : Prop :=
  ∀ (s : State) (a : Agent) (t : TrapRec),
    let u := s.takeTrap a t
    let c := u.ctx a
    c.live = (s.ctx a).ckpt ∧ c.stage = (s.ctx a).ckpt.c ∧ c.held = [] ∧ c.empty = 0 ∧ c.st = .stopped ∧
    c.tcause = BitVec.ofNat 7 t.cause ∧ c.tbund = t.bund ∧ c.tdet = t.det ∧ c.tckpt = (s.ctx a).ckBund ∧ c.ckpt = (s.ctx a).ckpt ∧
    c.stopReq = none ∧ (a.onCore = true → (u.core a.core).posA ≠ some a.ctxNo ∧ (u.core a.core).posB ≠ some a.ctxNo) ∧
    ((s.ctx a).stopReq = none → ∃ n, u.notices = s.notices ++ [n] ∧ n.cause = t.cause ∧ n.bund = t.bund.setWidth 64 ∧ n.det = t.det ∧
      n.dest = State.noticeDest a) ∧
    (∀ req, (s.ctx a).stopReq = some req → ∃ n m, u.notices = s.notices ++ [n, m] ∧ n.cause = t.cause ∧ m.cause = 0x70 ∧ m.kind = 2 ∧
      m.det.d2 = BitVec.ofNat 64 req.1 ∧ m.bund = t.bund.setWidth 64 ∧ m.ckpt = (s.ctx a).ckBund.setWidth 64) ∧
    (∀ d, a = .cp d → (u.die d).head = (s.ctx a).ckpt.c.pc)

/-- Returning from a trap (15 R291; 22 R373): TRET of a stopped context makes it waiting with every register as it stands, and changes no memory; of a context in
any other state it traps with 0x78. -/
def Claims.TrapReturn : Prop :=
  ∀ (s : State) (h : Hdr) (a : BitVec 5) (t : Agent), targetOf s (s.rs a) = some t → Issues (.tret h a) h s →
    ((s.ctx t).st = .stopped → ∃ u, exec (.tret h a) s = .next u ∧ (u.ctx t).st = .waiting ∧ (u.ctx t).live = (s.ctx t).live ∧
      (u.ctx t).ckpt = (s.ctx t).ckpt ∧ (u.ctx t).flight = (s.ctx t).flight ∧ (u.ctx t).tcause = (s.ctx t).tcause ∧ u.mem = s.mem) ∧
    ((s.ctx t).st ≠ .stopped →
      exec (.tret h a) s = .next ((s.noted (.tret h a)).raise ((s.noted (.tret h a)).slotTrap 0x78 0 (s.rs a))))

/-- Taking a trap and returning from one: `Claims.TrapEntry`, `Claims.TrapReturn`. -/
def Obligations.TrapEntryAndReturn : Prop := Claims.TrapEntry ∧ Claims.TrapReturn

/-! ## Scalar families -/

/-- ADD, SUB and ADDI leave their 64-bit result, wrapped, saturated to the signed or unsigned range, or its low 32 bits sign-extended, one issue cycle
later, and nothing else (04 R78). -/
def Claims.ScalarAdditionResults : Prop :=
  ∀ (s : State) (h : Hdr) (d a b : BitVec 5) (imm : BitVec 10),
    (Issues (.add h d a b) h s → exec (.add h d a b) s = .next (s.leaves (.add h d a b) 1 [s.wS d (s.rs a + s.rs b)])) ∧
    (Issues (.addSs h d a b) h s → exec (.addSs h d a b) s =
      .next (s.leaves (.addSs h d a b) 1 [s.wS d (BitVec.ofInt 64 (max (-2 ^ 63) (min (2 ^ 63 - 1) ((s.rs a).toInt + (s.rs b).toInt))))])) ∧
    (Issues (.addUs h d a b) h s → exec (.addUs h d a b) s =
      .next (s.leaves (.addUs h d a b) 1 [s.wS d (BitVec.ofNat 64 (min (2 ^ 64 - 1) ((s.rs a).toNat + (s.rs b).toNat)))])) ∧
    (Issues (.addW h d a b) h s → exec (.addW h d a b) s =
      .next (s.leaves (.addW h d a b) 1 [s.wS d (((s.rs a + s.rs b).setWidth 32).signExtend 64)])) ∧
    (Issues (.sub h d a b) h s → exec (.sub h d a b) s = .next (s.leaves (.sub h d a b) 1 [s.wS d (s.rs a - s.rs b)])) ∧
    (Issues (.subSs h d a b) h s → exec (.subSs h d a b) s =
      .next (s.leaves (.subSs h d a b) 1 [s.wS d (BitVec.ofInt 64 (max (-2 ^ 63) (min (2 ^ 63 - 1) ((s.rs a).toInt - (s.rs b).toInt))))])) ∧
    (Issues (.subUs h d a b) h s → exec (.subUs h d a b) s =
      .next (s.leaves (.subUs h d a b) 1 [s.wS d (BitVec.ofNat 64 ((s.rs a).toNat - (s.rs b).toNat))])) ∧
    (Issues (.subW h d a b) h s → exec (.subW h d a b) s =
      .next (s.leaves (.subW h d a b) 1 [s.wS d (((s.rs a - s.rs b).setWidth 32).signExtend 64)])) ∧
    (Issues (.addi h d a imm) h s → exec (.addi h d a imm) s =
      .next (s.leaves (.addi h d a imm) 1 [s.wS d (s.rs a + imm.signExtend 64)]))

/-- MUL and MULH leave the low or the high half of the product three issue cycles later; a division by a divisor that is not zero leaves the quotient
or the remainder, rounded toward zero, 24 issue cycles later (04 R78, R79). -/
def Claims.ScalarProductAndQuotientResults : Prop :=
  ∀ (s : State) (h : Hdr) (d a b : BitVec 5),
    (Issues (.mul h d a b) h s → exec (.mul h d a b) s = .next (s.leaves (.mul h d a b) 3 [s.wS d (s.rs a * s.rs b)])) ∧
    (Issues (.mulh h d a b) h s → exec (.mulh h d a b) s =
      .next (s.leaves (.mulh h d a b) 3 [s.wS d (BitVec.ofInt 64 ((s.rs a).toInt * (s.rs b).toInt / 2 ^ 64))])) ∧
    (Issues (.mulhU h d a b) h s → exec (.mulhU h d a b) s =
      .next (s.leaves (.mulhU h d a b) 3 [s.wS d (BitVec.ofNat 64 ((s.rs a).toNat * (s.rs b).toNat / 2 ^ 64))])) ∧
    (s.rs b ≠ 0 →
      (Issues (.div h d a b) h s → exec (.div h d a b) s =
        .next (s.leaves (.div h d a b) 24 [s.wS d (BitVec.ofInt 64 ((s.rs a).toInt.tdiv (s.rs b).toInt))])) ∧
      (Issues (.divU h d a b) h s → exec (.divU h d a b) s = .next (s.leaves (.divU h d a b) 24 [s.wS d (s.rs a / s.rs b)])) ∧
      (Issues (.divRem h d a b) h s → exec (.divRem h d a b) s =
        .next (s.leaves (.divRem h d a b) 24 [s.wS d (BitVec.ofInt 64 ((s.rs a).toInt.tmod (s.rs b).toInt))])) ∧
      (Issues (.divURem h d a b) h s → exec (.divURem h d a b) s =
        .next (s.leaves (.divURem h d a b) 24 [s.wS d (s.rs a % s.rs b)])))

/-- Scalar additions, products and non-zero divisions: `Claims.ScalarAdditionResults`, `Claims.ScalarProductAndQuotientResults`. -/
def Obligations.ScalarArithmeticResults : Prop := Claims.ScalarAdditionResults ∧ Claims.ScalarProductAndQuotientResults

/-- A zero divisor traps with 0x15 (04 R79): every division, before any result. -/
def Obligations.DivisionByZeroTraps : Prop :=
  ∀ (s : State) (h : Hdr) (d a b : BitVec 5), s.rs b = 0 →
    ∀ i ∈ [Instr.div h d a b, .divU h d a b, .divRem h d a b, .divURem h d a b], Issues i h s →
      exec i s = .next ((s.noted i).raise ((s.noted i).slotTrap 0x15))

/-- The logic operations and the shifts, whose count is the low six bits of the register or the immediate, leave their result one issue cycle later
(04 R78). -/
def Obligations.ScalarLogicAndShiftResults : Prop :=
  ∀ (s : State) (h : Hdr) (d a b : BitVec 5) (n : BitVec 6),
    (Issues (.and h d a b) h s → exec (.and h d a b) s = .next (s.leaves (.and h d a b) 1 [s.wS d (s.rs a &&& s.rs b)])) ∧
    (Issues (.or h d a b) h s → exec (.or h d a b) s = .next (s.leaves (.or h d a b) 1 [s.wS d (s.rs a ||| s.rs b)])) ∧
    (Issues (.xor h d a b) h s → exec (.xor h d a b) s = .next (s.leaves (.xor h d a b) 1 [s.wS d (s.rs a ^^^ s.rs b)])) ∧
    (Issues (.andn h d a b) h s → exec (.andn h d a b) s = .next (s.leaves (.andn h d a b) 1 [s.wS d (s.rs a &&& ~~~s.rs b)])) ∧
    (Issues (.orn h d a b) h s → exec (.orn h d a b) s = .next (s.leaves (.orn h d a b) 1 [s.wS d (s.rs a ||| ~~~s.rs b)])) ∧
    (Issues (.xnor h d a b) h s → exec (.xnor h d a b) s = .next (s.leaves (.xnor h d a b) 1 [s.wS d (~~~(s.rs a ^^^ s.rs b))])) ∧
    (Issues (.shl h d a b) h s → exec (.shl h d a b) s =
      .next (s.leaves (.shl h d a b) 1 [s.wS d (s.rs a <<< ((s.rs b).toNat % 64))])) ∧
    (Issues (.shr h d a b) h s → exec (.shr h d a b) s =
      .next (s.leaves (.shr h d a b) 1 [s.wS d (s.rs a >>> ((s.rs b).toNat % 64))])) ∧
    (Issues (.sar h d a b) h s → exec (.sar h d a b) s =
      .next (s.leaves (.sar h d a b) 1 [s.wS d ((s.rs a).sshiftRight ((s.rs b).toNat % 64))])) ∧
    (Issues (.ror h d a b) h s → exec (.ror h d a b) s =
      .next (s.leaves (.ror h d a b) 1 [s.wS d ((s.rs a).rotateRight ((s.rs b).toNat % 64))])) ∧
    (Issues (.shli h d a n) h s → exec (.shli h d a n) s = .next (s.leaves (.shli h d a n) 1 [s.wS d (s.rs a <<< n.toNat)])) ∧
    (Issues (.shri h d a n) h s → exec (.shri h d a n) s = .next (s.leaves (.shri h d a n) 1 [s.wS d (s.rs a >>> n.toNat)])) ∧
    (Issues (.sari h d a n) h s → exec (.sari h d a n) s =
      .next (s.leaves (.sari h d a n) 1 [s.wS d ((s.rs a).sshiftRight n.toNat)])) ∧
    (Issues (.rori h d a n) h s → exec (.rori h d a n) s =
      .next (s.leaves (.rori h d a n) 1 [s.wS d ((s.rs a).rotateRight n.toNat)]))

/-- Minimum and maximum, moves of immediates, LEA, SEL and FLD after one issue cycle; bit counts and reversals after two (04 R78, R80). FLD's field is
SZ bits from bit P: inserted with the other bits of sD kept, or extracted and extended. -/
def Obligations.ScalarSelectionResults : Prop :=
  ∀ (s : State) (h : Hdr) (d a b : BitVec 5) (p : BitVec 4) (sh : BitVec 3) (imm : BitVec 15) (ins sg : Bool) (sz : BitVec 2) (pos : BitVec 6),
    (Issues (.min h d a b) h s → exec (.min h d a b) s =
      .next (s.leaves (.min h d a b) 1 [s.wS d (if (s.rs b).toInt < (s.rs a).toInt then s.rs b else s.rs a)])) ∧
    (Issues (.max h d a b) h s → exec (.max h d a b) s =
      .next (s.leaves (.max h d a b) 1 [s.wS d (if (s.rs a).toInt < (s.rs b).toInt then s.rs b else s.rs a)])) ∧
    (Issues (.minu h d a b) h s → exec (.minu h d a b) s =
      .next (s.leaves (.minu h d a b) 1 [s.wS d (if (s.rs b).toNat < (s.rs a).toNat then s.rs b else s.rs a)])) ∧
    (Issues (.maxu h d a b) h s → exec (.maxu h d a b) s =
      .next (s.leaves (.maxu h d a b) 1 [s.wS d (if (s.rs a).toNat < (s.rs b).toNat then s.rs b else s.rs a)])) ∧
    (Issues (.movi h d imm) h s → exec (.movi h d imm) s = .next (s.leaves (.movi h d imm) 1 [s.wS d (imm.signExtend 64)])) ∧
    (Issues (.movhi h d imm) h s → exec (.movhi h d imm) s =
      .next (s.leaves (.movhi h d imm) 1 [s.wS d ((s.rs d <<< 15) ||| imm.setWidth 64)])) ∧
    (Issues (.lea h d a b sh) h s → exec (.lea h d a b sh) s =
      .next (s.leaves (.lea h d a b sh) 1 [s.wS d (s.rs a + (s.rs b <<< sh.toNat))])) ∧
    (Issues (.sel h d a b p) h s → exec (.sel h d a b p) s =
      .next (s.leaves (.sel h d a b p) 1 [s.wS d (if s.rf p then s.rs a else s.rs b)])) ∧
    (Issues (.popc h d a) h s → ∃ x : Word, exec (.popc h d a) s = .next (s.leaves (.popc h d a) 2 [s.wS d x]) ∧
      x.toNat = ((List.range 64).filter (fun k => (s.rs a).getLsbD k)).length) ∧
    (Issues (.clz h d a) h s → ∃ x : Word, exec (.clz h d a) s = .next (s.leaves (.clz h d a) 2 [s.wS d x]) ∧
      x.toNat ≤ 64 ∧ (∀ k, 64 - x.toNat ≤ k → (s.rs a).getLsbD k = false) ∧ (x.toNat < 64 → (s.rs a).getLsbD (63 - x.toNat) = true)) ∧
    (Issues (.ctz h d a) h s → ∃ x : Word, exec (.ctz h d a) s = .next (s.leaves (.ctz h d a) 2 [s.wS d x]) ∧
      x.toNat ≤ 64 ∧ (∀ k, k < x.toNat → (s.rs a).getLsbD k = false) ∧ (x.toNat < 64 → (s.rs a).getLsbD x.toNat = true)) ∧
    (Issues (.bitrev h d a) h s → ∃ x : Word, exec (.bitrev h d a) s = .next (s.leaves (.bitrev h d a) 2 [s.wS d x]) ∧
      ∀ k, k < 64 → x.getLsbD k = (s.rs a).getLsbD (63 - k)) ∧
    (Issues (.byterev h d a) h s → ∃ x : Word, exec (.byterev h d a) s = .next (s.leaves (.byterev h d a) 2 [s.wS d x]) ∧
      ∀ k, k < 8 → x.extractLsb' (8 * k) 8 = (s.rs a).extractLsb' (8 * (7 - k)) 8) ∧
    (Issues (.fld h d a ins sg sz pos) h s → ∃ x : Word, exec (.fld h d a ins sg sz pos) s =
        .next (s.leaves (.fld h d a ins sg sz pos) 1 [s.wS d x]) ∧
      ∀ k, k < 64 → x.getLsbD k =
        if ins then (if pos.toNat ≤ k ∧ k < pos.toNat + 8 * 2 ^ sz.toNat then (s.rs a).getLsbD (k - pos.toNat) else (s.rs d).getLsbD k)
        else (s.rs a).getLsbD (pos.toNat + (if k < 8 * 2 ^ sz.toNat then k else if sg then 8 * 2 ^ sz.toNat - 1 else 64)))

/-- The writes of a test: fFD, and with PW the complement to f(FD xor 1), one issue cycle later (04 R81). -/
def pairWrites (s : State) (fd : BitVec 4) (pw x : Bool) : List RegWrite := s.wF fd x :: if pw then [s.wF (fd ^^^ 1) (!x)] else []

/-- CMP and CMPI write the condition CC of their operands, PLOG its truth table on two predicates or on every position of two masks, PMOV its test,
FCMP its condition two issue cycles later; PW writes the complement beside it (04 R81-R83, R85). -/
def Claims.PredicateResults : Prop :=
  ∀ (s : State) (h : Hdr) (fd : BitVec 4) (a b : BitVec 5) (p q cc tt : BitVec 4) (c3 : BitVec 3) (pw dbl : Bool) (imm : BitVec 6),
    (Issues (.cmp h fd a b cc pw) h s → exec (.cmp h fd a b cc pw) s =
      .next (s.leaves (.cmp h fd a b cc pw) 1 (pairWrites s fd pw (intCond cc (s.rs a) (s.rs b))))) ∧
    (Issues (.cmpi h fd a cc pw imm) h s → exec (.cmpi h fd a cc pw imm) s =
      .next (s.leaves (.cmpi h fd a cc pw imm) 1 (pairWrites s fd pw (intCond cc (s.rs a) (imm.signExtend 64))))) ∧
    (Issues (.plog h fd p q tt pw false) h s → exec (.plog h fd p q tt pw false) s =
      .next (s.leaves (.plog h fd p q tt pw false) 1 (pairWrites s fd pw (tt.getLsbD (2 * (s.rf p).toNat + (s.rf q).toNat))))) ∧
    (Issues (.plog h fd p q tt pw true) h s → ∃ m : Mask, exec (.plog h fd p q tt pw true) s =
        .next (s.leaves (.plog h fd p q tt pw true) 1 [s.wM fd m]) ∧
      ∀ k, k < 128 → m.getLsbD k = tt.getLsbD (2 * ((s.rm p).getLsbD k).toNat + ((s.rm q).getLsbD k).toNat)) ∧
    (Issues (.pmov h fd a cc pw) h s → exec (.pmov h fd a cc pw) s =
      .next (s.leaves (.pmov h fd a cc pw) 1 (pairWrites s fd pw (pmovTest s a cc)))) ∧
    (Issues (.fcmp h fd a b dbl c3 pw) h s → exec (.fcmp h fd a b dbl c3 pw) s =
      .next (s.leaves (.fcmp h fd a b dbl c3 pw) 2 (pairWrites s fd pw (fpCond c3 (sfVal dbl (s.rs a)) (sfVal dbl (s.rs b))))))

/-- The conditions themselves: signed and unsigned order, equality and common bits (04 R81); PMOV's tests of a predicate, of a scalar against zero and
of its sign (R83); the eight conditions of FCMP, of which only `ne` and `un` are true of a NaN, on values in their order, in which -0 equals +0 (R85; 07 R132). -/
def Claims.ConditionMeanings : Prop :=
  (∀ (x y : FVal),
    (x = .nan ∨ y = .nan → ∀ c, fpCond c x y = decide (c = 1 ∨ c = 6)) ∧
    (x ≠ .nan → y ≠ .nan → fpCond 0 x y = x.eq y ∧ fpCond 1 x y = !x.eq y ∧ fpCond 2 x y = x.lt y ∧ fpCond 3 x y = (x.lt y || x.eq y) ∧
      fpCond 4 x y = y.lt x ∧ fpCond 5 x y = (y.lt x || x.eq y) ∧ fpCond 6 x y = false ∧ fpCond 7 x y = true) ∧
    (x ≠ .nan → x ≠ .inf true → FVal.lt (.inf true) x = true) ∧ (x ≠ .nan → x ≠ .inf false → x.lt (.inf false) = true) ∧
    x.lt (.inf true) = false ∧ FVal.lt (.inf false) x = false ∧
    (∀ a, FVal.eq (.inf a) x = decide (x = .inf a))) ∧
  (∀ (a b : Bool) (m n : Nat) (e k : Int),
    let v := fun (a : Bool) (m : Nat) (e : Int) => (if a then -1 else 1) * (m : ℚ) * 2 ^ e
    ((FVal.fin a m e).lt (.fin b n k) = true ↔ v a m e < v b n k) ∧ ((FVal.fin a m e).eq (.fin b n k) = true ↔ v a m e = v b n k)) ∧
  ∀ (s : State) (x y : Word) (a : BitVec 5),
    (intCond 0 x y = decide (x = y) ∧ intCond 1 x y = decide (x ≠ y) ∧ intCond 2 x y = decide (x.toInt < y.toInt) ∧
      intCond 3 x y = decide (y.toInt ≤ x.toInt) ∧ intCond 4 x y = decide (x.toInt ≤ y.toInt) ∧ intCond 5 x y = decide (y.toInt < x.toInt) ∧
      intCond 6 x y = decide (x.toNat < y.toNat) ∧ intCond 7 x y = decide (y.toNat ≤ x.toNat) ∧ intCond 8 x y = decide (x.toNat ≤ y.toNat) ∧
      intCond 9 x y = decide (y.toNat < x.toNat) ∧ (intCond 10 x y = true ↔ ∃ k, x.getLsbD k = true ∧ y.getLsbD k = true) ∧
      (intCond 11 x y = true ↔ ∀ k, ¬(x.getLsbD k = true ∧ y.getLsbD k = true))) ∧
    (pmovTest s a 0 = s.rf (a.setWidth 4) ∧ pmovTest s a 1 = !s.rf (a.setWidth 4) ∧ pmovTest s a 2 = decide (s.rs a ≠ 0) ∧
      pmovTest s a 3 = decide (s.rs a = 0) ∧ pmovTest s a 4 = decide ((s.rs a).toInt < 0))

/-- Compares and predicate operations, and what their conditions mean: `Claims.PredicateResults`, `Claims.ConditionMeanings`. -/
def Obligations.PredicateResults : Prop := Claims.PredicateResults ∧ Claims.ConditionMeanings

/-- The scalar floating-point families leave one rounded result four issue cycles later: to nearest even, or toward zero with RZ, in FP32 or FP64; a
conversion to INT64 truncates, saturates, and is 0 for a NaN (04 R84, R85). -/
def Obligations.ScalarFloatResults : Prop :=
  ∀ (s : State) (h : Hdr) (d a b : BitVec 5) (rz dbl : Bool) (d4 : BitVec 4),
    let F := if dbl then f64 else f32
    let mode := if rz then Rnd.tz else Rnd.ne
    let val := fun (r : BitVec 5) => F.decode ((s.rs r).toNat % 2 ^ F.width)
    (Issues (.fadd h d a b rz dbl) h s → exec (.fadd h d a b rz dbl) s =
      .next (s.leaves (.fadd h d a b rz dbl) 4 [s.wS d (BitVec.ofNat 64 (F.round mode 0 (FVal.add false (val a) (val b))))])) ∧
    (Issues (.fsub h d a b rz dbl) h s → exec (.fsub h d a b rz dbl) s =
      .next (s.leaves (.fsub h d a b rz dbl) 4 [s.wS d (BitVec.ofNat 64 (F.round mode 0 (FVal.sub false (val a) (val b))))])) ∧
    (Issues (.fmul h d a b rz dbl) h s → exec (.fmul h d a b rz dbl) s =
      .next (s.leaves (.fmul h d a b rz dbl) 4 [s.wS d (BitVec.ofNat 64 (F.round mode 0 (FVal.mul (val a) (val b))))])) ∧
    (Issues (.ffma h d a b rz dbl) h s → exec (.ffma h d a b rz dbl) s =
      .next (s.leaves (.ffma h d a b rz dbl) 4 [s.wS d (BitVec.ofNat 64 (F.round mode 0 (FVal.fma false (val a) (val b) (val d))))])) ∧
    (Issues (.fmin h d a b rz dbl) h s → exec (.fmin h d a b rz dbl) s =
      .next (s.leaves (.fmin h d a b rz dbl) 4 [s.wS d (BitVec.ofNat 64 (F.round mode 0 (FVal.min (val a) (val b))))])) ∧
    (Issues (.fmax h d a b rz dbl) h s → exec (.fmax h d a b rz dbl) s =
      .next (s.leaves (.fmax h d a b rz dbl) 4 [s.wS d (BitVec.ofNat 64 (F.round mode 0 (FVal.max (val a) (val b))))])) ∧
    (Issues (.ficvt h d4 a dbl) h s → exec (.ficvt h d4 a dbl) s =
      .next (s.leaves (.ficvt h d4 a dbl) 4 [s.wS (d4.setWidth 5) (BitVec.ofNat 64 (F.round .ne 0 (FVal.ofInt (s.rs a).toInt)))])) ∧
    (Issues (.fcvti h d4 a dbl) h s → exec (.fcvti h d4 a dbl) s =
      .next (s.leaves (.fcvti h d4 a dbl) 4
        [s.wS (d4.setWidth 5) (BitVec.ofInt 64 ((val a).toIntSat .tz 0 (-(2 ^ 63)) (2 ^ 63 - 1)).1)])) ∧
    (Issues (.fwiden h d4 a) h s → exec (.fwiden h d4 a) s =
      .next (s.leaves (.fwiden h d4 a) 4
        [s.wS (d4.setWidth 5) (BitVec.ofNat 64 (f64.round .ne 0 (f32.decode ((s.rs a).toNat % 2 ^ f32.width))))])) ∧
    (Issues (.fnarrow h d4 a) h s → exec (.fnarrow h d4 a) s =
      .next (s.leaves (.fnarrow h d4 a) 4
        [s.wS (d4.setWidth 5) (BitVec.ofNat 64 (f32.round .ne 0 (f64.decode ((s.rs a).toNat % 2 ^ f64.width))))]))

/-- RDSR leaves the value of a special register one issue cycle later; WRSR changes the control registers as the next bundle reads them, and the trap and
counter registers, and no other register, result or memory (04 R86, R87).
It rests on the model's own choices of log 70, 76. -/
def Claims.SpecialRegisterAccess : Prop :=
  ∀ (s : State) (h : Hdr) (d a : BitVec 5) (n : BitVec 10),
    (Issues (.rdsr h d n) h s → exec (.rdsr h d n) s = .next (s.leaves (.rdsr h d n) 1 [s.wS d (readSr s s.who n)])) ∧
    (Issues (.wrsr h a n) h s → ∃ t, exec (.wrsr h a n) s = .next t ∧
      (t.ctx s.who).stage = writeCtl s.me.stage n (s.rs a) ∧ (t.ctx s.who).live = s.me.live ∧ (t.ctx s.who).flight = s.me.flight ∧
      (t.ctx s.who).tcause = (if n = 0x030 then (s.rs a).setWidth 7 else s.me.tcause) ∧
      (t.ctx s.who).tbund = (if n = 0x031 then (s.rs a).setWidth 57 else s.me.tbund) ∧
      (t.ctx s.who).tckpt = (if n = 0x032 then (s.rs a).setWidth 57 else s.me.tckpt) ∧
      (t.ctx s.who).frz = (if n = 0x00A then (s.rs a).setWidth 48 else s.me.frz) ∧ t.mem = s.mem)

/-- Writing a landing register keeps values above 4,095 at 4,095, %rot keeps its low four bits, %seed all 64; a loop index or return-store entry that is
not present is not written (04 R87).
It rests on the model's own choices of log 70. -/
def Claims.SpecialRegisterWriteValues : Prop :=
  ∀ (c : Ctl) (x : Word) (k : Nat),
    (∀ hk : k < 8, (writeCtl c (BitVec.ofNat 10 k) x).lc[k] = BitVec.ofNat 12 (min x.toNat 4095)) ∧
    (writeCtl c 0x008 x).rot = x.setWidth 4 ∧ (writeCtl c 0x012 x).seed = x ∧
    (k < 6 → loopIdx (writeCtl c (BitVec.ofNat 10 (0x018 + k)) x) k = if k < c.loops.length then x else 0) ∧
    (k < 16 → rasEntry (writeCtl c (BitVec.ofNat 10 (0x020 + k)) x) k = if k < c.rets.length then (x.setWidth 57).setWidth 64 else 0)

/-- Reading and writing special registers: `Claims.SpecialRegisterAccess`, `Claims.SpecialRegisterWriteValues`. -/
def Obligations.SpecialRegisters : Prop := Claims.SpecialRegisterAccess ∧ Claims.SpecialRegisterWriteValues

/-! ## Memory access -/

/-- The load families (04 R90, R92, R93): a load whose bytes all pass their checks appends one entry, which lands at distance max(%lc, 1), with the
register it writes; unless part of them lies at a fabric address, the entry holds the bytes that the load reads at issue and the error that they carry. LDVS
carries the error of a malformed chunk (08 R170), of which the first line alone is read (log 77). Nothing of the context's registers changes at issue.
It rests on the model's own choices of log 12, 15, 41. -/
def Claims.LoadResults : Prop :=
  ∀ (s : State) (h : Hdr) (d a ix off : BitVec 5) (lc : BitVec 3) (sp : BitVec 2),
    let lands := fun (i : Instr) (found : Except AFault (List (Loc × Nat) × State)) (shape : LoadShape) =>
      Issues i h s → ∀ segs s', found = .ok (segs, s') → segs.any (fun x => ownUnknown s' s.who x.1 x.2) = false →
        ∃ t e, exec i s = .next t ∧ (t.ctx s.who).flight = s.me.flight ++ [e] ∧ (t.ctx s.who).live = s.me.live ∧ (t.ctx s.who).held = s.me.held ∧
          e.kind = .load ∧ e.arrived = false ∧ e.dist = max (s.regs.c.lc.get lc.toFin).toNat 1 ∧ e.shape = shape ∧
          (segs.all (fun x => !x.1.fabric) → e.waits = 1 ∧ e.buf = (readSegs s' s.who segs).1 ∧ e.fault.isSome = (readSegs s' s.who segs).2.1)
    lands (.lds h d a lc sp off) (resolveAccess (s.noted (.lds h d a lc sp off)) .load (Space.ofCode sp) (effAddr s a off 8) 8 8)
      (.s (physSV s.rot d) 8) ∧
    lands (.ldsp h d a lc sp off) (resolveAccess (s.noted (.ldsp h d a lc sp off)) .load (Space.ofCode sp) (effAddr s a off 16) 16 16)
      (.pair (physSV s.rot d) (physSV s.rot (d + 1))) ∧
    lands (.ldsv h d a lc sp off) (resolveAccess (s.noted (.ldsv h d a lc sp off)) .load (Space.ofCode sp) (effAddr s a off 4) 4 4)
      (.bcast (physSV s.rot d)) ∧
    lands (.ldv h d a lc sp off) (resolveAccess (s.noted (.ldv h d a lc sp off)) .load (Space.ofCode sp) (effAddr s a off 512) 512 128)
      (.vec (physSV s.rot d)) ∧
    lands (.ldvx h d a lc sp ix) (resolveLanes (s.noted (.ldvx h d a lc sp ix)) .load (Space.ofCode sp) (laneAddr s a ix) 128 0)
      (.vec (physSV s.rot d)) ∧
    (Issues (.ldvs h d a lc off) h s → (effAddr s a off 128).toNat % 128 = 0 →
      ∀ segs, chunkSegs (s.noted (.ldvs h d a lc off)) (effAddr s a off 128) = .ok segs →
        segs.any (fun x => ownUnknown s s.who x.1 x.2) = false →
        let r := readSegs (s.noted (.ldvs h d a lc off)) s.who segs
        ∃ t e, exec (.ldvs h d a lc off) s = .next t ∧ (t.ctx s.who).flight = s.me.flight ++ [e] ∧ e.kind = .load ∧ e.arrived = false ∧
          e.dist = max (s.regs.c.lc.get lc.toFin).toNat 1 ∧ e.shape = .vec (physSV s.rot d) ∧ t.mem = s.mem ∧
          (r.2.1 = true → ∃ f, e.fault = some f ∧ f.cause = 0x51) ∧
          (r.2.1 = false → chunkBad r.1 = true → ∃ f, e.fault = some f ∧ f.cause = 0x46) ∧
          (r.2.1 = false → chunkBad r.1 = false → e.fault = none ∧ e.buf = (chunkLanes r.1).flatMap (fun w => toBytes 4 w.toNat)))

/-- PREF never traps on its address: it always answers a next state with the registers as they were; CHK of equal operands has no effect, and of different ones
traps with 0x50, the operands' numbers in %tdet1 (04 R96, R97). -/
def Claims.PrefetchAndChecks : Prop :=
  ∀ (s : State) (h : Hdr) (home : Bool) (a b off : BitVec 5),
    (Issues (.pref h home a off) h s → ∃ t, exec (.pref h home a off) s = .next t ∧ t.verdict = s.verdict ∧ (t.ctx s.who).live = s.me.live ∧
      (t.ctx s.who).st = s.me.st ∧ (t.ctx s.who).held = s.me.held) ∧
    (Issues (.chk h a b) h s → s.rs a = s.rs b → exec (.chk h a b) s = .next (s.noted (.chk h a b))) ∧
    (Issues (.chk h a b) h s → s.rs a ≠ s.rs b → exec (.chk h a b) s =
      .next ((s.noted (.chk h a b)).raise ((s.noted (.chk h a b)).slotTrap 0x50 0 (BitVec.ofNat 64 (a.toNat + b.toNat * 2 ^ 8))))) ∧
    (Issues (.chkVec h a b) h s → s.rv a = s.rv b → exec (.chkVec h a b) s = .next (s.noted (.chkVec h a b))) ∧
    (Issues (.chkVec h a b) h s → s.rv a ≠ s.rv b → exec (.chkVec h a b) s =
      .next ((s.noted (.chkVec h a b)).raise
        ((s.noted (.chkVec h a b)).slotTrap 0x50 0 (BitVec.ofNat 64 (a.toNat + b.toNat * 2 ^ 8 + 2 ^ 16)))))

/-- Loads, prefetches and checks: `Claims.LoadResults`, `Claims.PrefetchAndChecks`. -/
def Obligations.LoadResults : Prop := Claims.LoadResults ∧ Claims.PrefetchAndChecks

/-- The store families (04 R92, R93, R95; 06 R119): a store whose bytes all pass their checks is withheld to the next checkpoint with the places and the bytes
that it writes, in the order of its segments, and the lines that it requests count towards its context's label (14 R261); a masked store names its active elements
only, and with none it has no effect. No byte of memory changes at issue.
It rests on the model's own choices of log 12, 15, 77. -/
def Obligations.StoreResults : Prop :=
  ∀ (s : State) (h : Hdr) (d a ix off : BitVec 5) (sp : BitVec 2) (mk fmt : BitVec 4), s.room →
    let stores := fun (i : Instr) (kind : Nat) (ea : BitVec 64) (ixs data : VReg) (bytes : List Byte)
        (found : Except AFault (List (Loc × Nat) × State)) =>
      Issues i h s → ∀ segs s', found = .ok (segs, s') →
        let ps := cutPieces segs bytes
        exec i s = .next ((addTraffic s' s.who (storeTraffic s' s.who ps)).addHeld (.store kind ea 0 ixs data ps) []) ∧ s'.mem = s.mem
    stores (.sts h d a sp off) 1 (effAddr s a off 8) 0 ((s.rs d).setWidth 4096) (toBytes 8 (s.rs d).toNat)
      (resolveAccess (s.noted (.sts h d a sp off)) .store (Space.ofCode sp) (effAddr s a off 8) 8 8) ∧
    stores (.stv h d a sp off) 2 (effAddr s a off 512) 0 (s.rv d) (toBytes 512 (s.rv d).toNat)
      (resolveAccess (s.noted (.stv h d a sp off)) .store (Space.ofCode sp) (effAddr s a off 512) 512 128) ∧
    stores (.stvx h d a sp ix) 4 (s.rs a) (s.rv ix) (s.rv d) (toBytes 512 (s.rv d).toNat)
      (resolveLanes (s.noted (.stvx h d a sp ix)) .store (Space.ofCode sp) (laneAddr s a ix) 128 0) ∧
    (Issues (.stvs h d a mk fmt sp) h s →
      ((∀ e, e < elemCount fmt → activeElem fmt (s.rm mk) e = false) →
        exec (.stvs h d a mk fmt sp) s = .next (s.noted (.stvs h d a mk fmt sp))) ∧
      ((∃ e, e < elemCount fmt ∧ activeElem fmt (s.rm mk) e = true) → (s.rs a).toNat % (fmtBits fmt / 8) = 0 →
        ∀ ps s', resolveStvs (s.noted (.stvs h d a mk fmt sp)) (Space.ofCode sp) (s.rs a) fmt (s.rm mk) (s.rv d) (elemCount fmt) 0 = .ok (ps, s') →
          exec (.stvs h d a mk fmt sp) s = .next ((addTraffic s' s.who (storeTraffic s' s.who ps)).addHeld
            (.store 3 (s.rs a) (s.rm mk) 0 (s.rv d) ps) []) ∧ s'.mem = s.mem))

/-- A released store performs (18 R316; 17 R308, R309): where no L1 holds the line it writes, and no lease covers it, its bytes are at their places afterwards and
every other byte of memory reads as before. -/
def Claims.StorePerforms : Prop :=
  ∀ (s : State) (a : Agent) (id : Nat) (w : Withheld) (l : Loc) (bs : List Byte),
    l.coded = none → l.fabric = false → (l.space = .m → a.onCore = false) → leaseMet s a id l bs.length = none →
    (∀ n, ((s.core n).l1.get {} (lineKey l)).dirty = 0 ∧ ((s.core n).l1.get {} (lineKey l)).owned = false) →
    let t := performWrite s a id w [{ loc := l, bytes := bs }]
    ∀ k, t.byteAt k = if l.key ≤ k ∧ k < l.key + bs.length then bs.getD (k - l.key) 0 else s.byteAt k

/-- A released write that meets a lease writes nothing (04 R98; 09 R179): the writing agent takes cause 0x34 at its next boundary. -/
def Claims.LeasedStoreTraps : Prop :=
  ∀ (s : State) (a : Agent) (id : Nat) (w : Withheld) (l : Loc) (bs : List Byte) (x : Lease),
    leaseMet s a id l bs.length = some x → (s.ctx a).st = .front →
    let t := performWrite s a id w [{ loc := l, bytes := bs }]
    t.mem = s.mem ∧ ∃ r ∈ (t.ctx a).pend, r.cause = 0x34 ∧ r.bund = w.bund

/-- A released store writes its bytes and no other; a lease turns it away: `Claims.StorePerforms`, `Claims.LeasedStoreTraps`. -/
def Obligations.ReleasedStores : Prop := Claims.StorePerforms ∧ Claims.LeasedStoreTraps

/-! ## Control -/

/-- Transfers of control (04 R69): each ends its bundle with the next bundle's address and its return store as the family says, whether the bundle is a checkpoint
bundle, yields, or pops queue heads. The address of BR, BRU and CALL is the bundle's address plus four times the displacement, sign-extended; RET takes the newest
return address, of whose 57 bits the highest stands for those above it. BRU traps with 0x10 on a mask that is neither all ones nor all zeros, the mask in %tdet1 and
%tdet2 (22 R369; 04 R69 names the depths for these details too: log 74). -/
def Claims.TransferResults : Prop :=
  ∀ (s : State) (h : LHdr) (d13 : BitVec 13) (d8 : BitVec 8) (mk : BitVec 4) (nsel : Bool) (a : BitVec 5),
    s.me.stage = s.me.live.c → s.srs = [] →
    let ends := fun (i : Instr) (pc : BitVec 64) (rets : List (BitVec 57)) =>
      LeadIssues i h s → EndsBundle s (exec i s) pc rets s.me.live.c.loops
    let stays := s.me.live.c.rets
    ends (.next h) s.bnxt stays ∧
    ends (.br h d13) (s.bpc + 4 * d13.signExtend 64) stays ∧
    (s.rm mk = (if nsel then 0 else BitVec.allOnes 128) → ends (.bru h mk nsel d8) (s.bpc + 4 * d8.signExtend 64) stays) ∧
    (s.rm mk = (if nsel then BitVec.allOnes 128 else 0) → ends (.bru h mk nsel d8) s.bnxt stays) ∧
    (s.rm mk ≠ 0 → s.rm mk ≠ BitVec.allOnes 128 → LeadIssues (.bru h mk nsel d8) h s →
      let u := s.leads (.bru h mk nsel d8) h
      exec (.bru h mk nsel d8) s =
        .next (u.raise (u.slotTrap 0x10 0 ((s.rm mk).extractLsb' 0 64) ((s.rm mk).extractLsb' 64 64)))) ∧
    ((s.rs a).toNat % 4 = 0 → ends (.jmpi h a) (s.rs a) stays) ∧
    (stays.length ≠ 16 → ends (.call h d13) (s.bpc + 4 * d13.signExtend 64) (s.bnxt.setWidth 57 :: stays)) ∧
    ((s.rs a).toNat % 4 = 0 → stays.length ≠ 16 → ends (.calli h a) (s.rs a) (s.bnxt.setWidth 57 :: stays)) ∧
    (∀ r rs, stays = r :: rs → ends (.ret h) (r.signExtend 64) rs)

/-- The end of a bundle (02 R34; 04 R66; 06 R117, R118; 14 R258): a checkpoint bundle leaves the registers that the next bundle reads as the checkpoint and releases
all that was withheld; another keeps its checkpoint; Y gives the position of a core's context up; what WRSR slots of the bundle wrote prevails over what its lead
slot leaves in the same special register; each head that PM names is popped. -/
def Claims.BundleEnds : Prop :=
  ∀ (s : State) (h : LHdr), LeadIssues (.next h) h s → ∃ t, exec (.next h) s = .next t ∧
    ((s.ckb || h.ck) = true → (t.ctx s.who).ckpt = (t.ctx s.who).live ∧ (t.ctx s.who).ckBund = s.bpc.setWidth 57 ∧ (t.ctx s.who).held = []) ∧
    ((s.ckb || h.ck) = false → (t.ctx s.who).ckpt = s.me.ckpt ∧ (t.ctx s.who).ckBund = s.me.ckBund ∧ s.me.held <+: (t.ctx s.who).held) ∧
    (h.y = true → s.who.onCore = true → s.me.st = .front → s.me.step = false →
      (t.ctx s.who).st = .waiting ∧ (t.core s.who.core).posA ≠ some s.who.ctxNo ∧ (t.core s.who.core).posB ≠ some s.who.ctxNo) ∧
    (∀ x ws, s.srs = ws ++ [(0x008, x)] → (t.ctx s.who).live.c.rot = x.setWidth 4) ∧
    (s.me.stage = s.me.live.c → s.srs = [] → (s.ckb || h.ck) = false → ∀ k : Fin 4,
      (t.ctx s.who).live.c.qh.get k =
        (if h.pm.getLsbD k.val then { s.me.live.c.qh.get k with pos := (s.me.live.c.qh.get k).pos + 1 } else s.me.live.c.qh.get k))

/-- A transfer whose guard reads false ends its bundle at the next bundle, with the return store and the loop stack unchanged (02 R32; 04 R69); its checks and its pops
are made all the same. -/
def Claims.SkippedTransfers : Prop :=
  ∀ (s : State) (h : LHdr) (d13 : BitVec 13) (d8 : BitVec 8) (mk : BitVec 4) (nsel : Bool) (a b : BitVec 5) (k : BitVec 2),
    s.me.stage = s.me.live.c → s.srs = [] → s.guard h.g = false →
    ∀ i ∈ [Instr.br h d13, .bru h mk nsel d8, .jmpi h a, .call h d13, .calli h a, .ret h, .loop h a, .loopPipe h a b, .sloop h k b, .lclose h,
        .lexit h d13], LeadPasses i h s → EndsBundle s (exec i s) s.bnxt s.me.live.c.rets s.me.live.c.loops

/-- Transfers of control: `Claims.TransferResults`, `Claims.BundleEnds`, `Claims.SkippedTransfers`. -/
def Obligations.TransferResults : Prop := Claims.TransferResults ∧ Claims.BundleEnds ∧ Claims.SkippedTransfers

/-- Loop levels (04 R72, R73, R75): LOOP and SLOOP push a level that starts at the next bundle; LCLOSE of a counted level with passes left goes back to its
start with KC one lower and the index one higher, and with none left pops it; a pipelined level then drains for EC more passes, and a stream level does so
once an element of its head has EOS; LEXIT pops the level and leaves the loop. -/
def Claims.LoopResults : Prop :=
  ∀ (s : State) (h : LHdr) (d13 : BitVec 13) (a b : BitVec 5) (k : BitVec 2) (l : Level) (ls : List Level),
    s.me.stage = s.me.live.c → s.srs = [] →
    let ends := fun (i : Instr) (pc : BitVec 64) (loops : List Level) =>
      LeadIssues i h s → EndsBundle s (exec i s) pc s.me.live.c.rets loops
    let close := if l.fin = 0 then { l with fin := s.bnxt } else l
    (s.me.live.c.loops.length ≠ 6 →
      ends (.loop h a) s.bnxt ({ kind := .counted, kc := s.rs a, start := s.bnxt } :: s.me.live.c.loops) ∧
      ends (.loopPipe h a b) s.bnxt ({ kind := .pipelined, kc := s.rs a, ec := s.rs b, start := s.bnxt } :: s.me.live.c.loops) ∧
      ((s.head k).bound = true →
        ends (.sloop h k b) s.bnxt ({ kind := .stream, ec := s.rs b, start := s.bnxt, head := k } :: s.me.live.c.loops))) ∧
    (s.me.live.c.loops = l :: ls →
      (l.kind = .counted → 1 < l.kc.toNat → ends (.lclose h) l.start ({ close with kc := l.kc - 1, idx := l.idx + 1 } :: ls)) ∧
      (l.kind = .counted → l.kc.toNat ≤ 1 → ends (.lclose h) s.bnxt ls) ∧
      (l.kind = .pipelined → 1 < l.kc.toNat → ends (.lclose h) l.start ({ close with kc := l.kc - 1, idx := l.idx + 1 } :: ls)) ∧
      (l.kind = .pipelined → l.kc.toNat ≤ 1 → l.ec ≠ 0 →
        ends (.lclose h) l.start ({ close with kc := 0, done := true, ec := l.ec - 1, idx := l.idx + 1 } :: ls)) ∧
      (l.kind = .pipelined → l.kc.toNat ≤ 1 → l.ec = 0 → ends (.lclose h) s.bnxt ls) ∧
      (l.kind = .stream →
        (∀ e, l.done = false → (s.head l.head).bound = true → s.latched s.who (s.head l.head) = some e → e.2 = false →
          ends (.lclose h) l.start ({ close with idx := l.idx + 1 } :: ls)) ∧
        (l.done = true ∨ (∃ e, (s.head l.head).bound = true ∧ s.latched s.who (s.head l.head) = some e ∧ e.2 = true) →
          (l.ec ≠ 0 → ends (.lclose h) l.start ({ close with kc := 0, done := true, ec := l.ec - 1, idx := l.idx + 1 } :: ls)) ∧
          (l.ec = 0 → ends (.lclose h) s.bnxt ls)) ∧
        (l.done = false → LeadIssues (.lclose h) h s →
          let u := s.leads (.lclose h) h
          ((s.head l.head).bound = false → exec (.lclose h) s = .next (u.raise (u.slotTrap 0x16 0 (l.head.setWidth 64)))) ∧
          ((s.head l.head).bound = true → s.latched s.who (s.head l.head) = none → exec (.lclose h) s = .next (u.hold (u.queueHold l.head))))) ∧
      (d13 ≠ 0 → ends (.lexit h d13) (s.bpc + 4 * d13.signExtend 64) ls) ∧ (d13 = 0 → l.fin ≠ 0 → ends (.lexit h d13) l.fin ls))

/-- The predicate f8 and the rotation of loop levels (04 R72-R74): LOOP of a pipelined level writes f8 with whether a pass follows, and SLOOP writes it true, by its name
as it stands; LCLOSE of a pipelined or stream level lowers %rot by one and writes f8, by its name after that, with whether a pass that is no drain follows. The
write is the first of its issue cycle. -/
def Claims.LoopPredicates : Prop :=
  ∀ (s : State) (h : LHdr) (a b : BitVec 5) (k : BitVec 2) (l : Level) (ls : List Level),
    s.me.stage = s.me.live.c → s.srs = [] → s.ckb = false → h.ck = false →
    let writes := fun (i : Instr) (rot : BitVec 4) (w : RegWrite) => LeadIssues i h s → ∃ t, exec i s = .next t ∧
      (t.ctx s.who).live.c.rot = rot ∧
      (t.ctx s.who).flight = (s.me.flight.take s.mark ++ { id := 0, writes := [w], dist := 1 } :: s.me.flight.drop s.mark).map
        (fun e => { e with dist := e.dist - 1 })
    let rotates := fun (x : Bool) => writes (.lclose h) (s.rot - 1) (.f (physF (s.rot - 1) 8) x)
    (s.me.live.c.loops.length ≠ 6 →
      writes (.loopPipe h a b) s.rot (.f (physF s.rot 8) (s.rs a != 0)) ∧
      ((s.head k).bound = true → writes (.sloop h k b) s.rot (.f (physF s.rot 8) true))) ∧
    (s.me.live.c.loops = l :: ls →
      (l.kind = .pipelined → rotates (decide (1 < l.kc.toNat))) ∧
      (l.kind = .stream → l.done = true → rotates false) ∧
      (∀ e, l.kind = .stream → l.done = false → (s.head l.head).bound = true → s.latched s.who (s.head l.head) = some e → rotates (!e.2)))

/-- Loop levels and the predicates of pipelined loops: `Claims.LoopResults`, `Claims.LoopPredicates`. -/
def Obligations.LoopResults : Prop := Claims.LoopResults ∧ Claims.LoopPredicates

/-- The lead slots that end more than their bundle (04 R76, R77; 14 R249; 23 R400): HALT leaves a core's context halted, with no load outstanding, and a scribe or
command processor waiting for its last effect, which stops it; TRAPI and BKPT establish a checkpoint after their bundle, then stop the context with causes 0x73
and 0x72, their code in %tdet0, as soon as every effect that it has released has performed. -/
def Obligations.HaltAndSoftwareTraps : Prop :=
  ∀ (s : State) (h : LHdr) (code : BitVec 13), s.me.stage = s.me.live.c → s.srs = [] →
    (LeadIssues (.halt h) h s → ∃ t, exec (.halt h) s = .next t ∧ (∀ e ∈ (t.ctx s.who).flight, e.kind = .fetch) ∧
      (t.ctx s.who).live.s = s.me.live.s ∧ (t.ctx s.who).live.v = s.me.live.v ∧ t.mem = s.mem ∧
      (∃ r ∈ t.relqs.get [] s.who.relKey, r.who = s.who ∧ r.w.eff = .halt) ∧
      (s.who.onCore = true → (t.ctx s.who).st = .halted) ∧
      (s.who.onCore = false → (t.ctx s.who).st = s.me.st ∧ (t.ctx s.who).post.map (·.kind) = some .halt)) ∧
    (∀ p ∈ [(Instr.trapi h code, (0x73 : BitVec 7)), (.bkpt h code, 0x72)], LeadIssues p.1 h s →
      (h.pm = 0 → s.me.held = [] → s.unperformed s.who = false → s.remotePending s.who 5 = false → ∃ t, exec p.1 s = .next t ∧
        (t.ctx s.who).st = .stopped ∧ (t.ctx s.who).tcause = p.2 ∧ (t.ctx s.who).tdet.d0 = code.setWidth 64 ∧
        (t.ctx s.who).tbund = s.bpc.setWidth 57 ∧ (t.ctx s.who).tckpt = s.bpc.setWidth 57 ∧ (t.ctx s.who).live.c.pc = s.bnxt ∧
        (t.ctx s.who).live.s = s.me.live.s ∧ (t.ctx s.who).live.v = s.me.live.v ∧ (t.ctx s.who).held = []) ∧
      (s.remotePending s.who 5 = true ∨ (∃ w ∈ s.me.held, ∀ cl m, w.eff ≠ .bankRel cl m) → ∃ t, exec p.1 s = .next t ∧
        (t.ctx s.who).post = some { kind := .trap, want := code.setWidth 32, ref := p.2.toNat, bund := s.bpc.setWidth 57 } ∧
        (t.ctx s.who).tcause = s.me.tcause ∧ (t.ctx s.who).live.c.pc = s.bnxt ∧ (t.ctx s.who).ckpt = (t.ctx s.who).live ∧
        (t.ctx s.who).ckBund = s.bpc.setWidth 57 ∧ (t.ctx s.who).held = [])) ∧
    (∀ (a : Agent) (p : PostWait), p.kind = .trap →
      ((s.unperformed a || s.remotePending a 5) = true → postWait s a p = .inr {}) ∧
      ((s.unperformed a || s.remotePending a 5) = false → ∃ t, postWait s a p = .inl t ∧ (t.ctx a).st = .stopped ∧
        (t.ctx a).tcause = BitVec.ofNat 7 p.ref ∧ (t.ctx a).tdet.d0 = p.want.setWidth 64 ∧ (t.ctx a).tbund = p.bund ∧
        (t.ctx a).tckpt = (s.ctx a).ckBund ∧ (t.ctx a).live = (s.ctx a).ckpt ∧ (t.ctx a).post = none))

/-- A vector register that a format's elementwise operation leaves: integer elements wrapped, or clamped when `sat`, and sign-extended in their lane;
floating-point elements rounded once, to nearest even or toward zero when `sat`; FP64 elements in pairs of lanes (08 R145, R150). -/
def Elementwise (f : BitVec 4) (sat : Bool) (r : VReg) (onInt : Nat → Int) (onFp : Nat → FVal) : Prop :=
  if Fmt.int f then ∀ k, k < 128 →
    lane r k = (BitVec.ofInt (fmtBits f) (if sat then clampInt (intLo f) (intHi f) (onInt k) else onInt k)).signExtend 32
  else if f = Fmt.fp64 then ∀ k, k < 64 → lane64 r k = BitVec.ofNat 64 (f64.round (if sat then .tz else .ne) 0 (onFp k))
  else ∀ k, k < 128 → lane r k = laneOut f ((fpFmt f).round (if sat then .tz else .ne) 0 (onFp k))

/-! ## Vector and transform families -/

/-- The elementwise families leave, at their latency, the operation on every element (08 R147, R150): VADD, VSUB, VMUL, VFMA on the old vD too, VDIV with
0 for a zero divisor, VMIN, VMAX, VABS and VNEG. -/
def Obligations.VectorArithmeticResults : Prop :=
  ∀ (s : State) (h : Hdr) (d a b : BitVec 5) (fmt : BitVec 4) (x : Bool),
    let L := fun (n m : Nat) => if fmt = Fmt.fp64 then m else n
    let I := fun (r : BitVec 5) (k : Nat) => elemInt fmt (s.rv r) k
    let F := fun (r : BitVec 5) (k : Nat) => elemFp fmt (s.rv r) k
    let leaves := fun (i : Instr) (n : Nat) (sat : Bool) (onInt : Nat → Int) (onFp : Nat → FVal) =>
      Issues i h s → ∃ r, exec i s = .next (s.leaves i n [s.wV d r]) ∧ Elementwise fmt sat r onInt onFp
    leaves (.vadd h d a b fmt x) (L 2 3) x (fun k => I a k + I b k) (fun k => FVal.add false (F a k) (F b k)) ∧
    leaves (.vsub h d a b fmt x) (L 2 3) x (fun k => I a k - I b k) (fun k => FVal.sub false (F a k) (F b k)) ∧
    leaves (.vmul h d a b fmt x) (L 4 5) x (fun k => I a k * I b k) (fun k => FVal.mul (F a k) (F b k)) ∧
    leaves (.vfma h d a b fmt x) (L 4 5) x (fun k => I a k * I b k + I d k) (fun k => FVal.fma false (F a k) (F b k) (F d k)) ∧
    leaves (.vdiv h d a b fmt x) (L 12 20) x (fun k => if I b k = 0 then 0 else (I a k).tdiv (I b k)) (fun k => FVal.div (F a k) (F b k)) ∧
    leaves (.vmin h d a b fmt) 2 false (fun k => min (I a k) (I b k)) (fun k => FVal.min (F a k) (F b k)) ∧
    leaves (.vmax h d a b fmt) 2 false (fun k => max (I a k) (I b k)) (fun k => FVal.max (F a k) (F b k)) ∧
    leaves (.vabs h d a fmt) 2 false (fun k => |I a k|) (fun k => (F a k).abs) ∧
    leaves (.vneg h d a fmt) 2 false (fun k => -(I a k)) (fun k => (F a k).neg)

/-- The bitwise families act on whole registers and the shifts on each 32-bit lane, by the low five bits of vB's lane or by an immediate, two issue cycles
later (08 R151). -/
def Claims.VectorLogicAndShiftResults : Prop :=
  ∀ (s : State) (h : Hdr) (d a b : BitVec 5) (x : Bool),
    let leaves := fun (i : Instr) (v : VReg) => Issues i h s → exec i s = .next (s.leaves i 2 [s.wV d v])
    let shifts := fun (i : Instr) (f : BitVec 32 → Nat → BitVec 32) =>
      Issues i h s → ∃ r, exec i s = .next (s.leaves i 2 [s.wV d r]) ∧
        ∀ k, k < 128 → lane r k = f (lane (s.rv a) k) (if x then b.toNat else (lane (s.rv b) k).toNat % 32)
    leaves (.vand h d a b) (s.rv a &&& s.rv b) ∧ leaves (.vor h d a b) (s.rv a ||| s.rv b) ∧ leaves (.vxor h d a b) (s.rv a ^^^ s.rv b) ∧
    leaves (.vandn h d a b) (s.rv a &&& ~~~s.rv b) ∧ leaves (.vorn h d a b) (s.rv a ||| ~~~s.rv b) ∧
    leaves (.vxnor h d a b) (~~~(s.rv a ^^^ s.rv b)) ∧
    shifts (.vshl h d a b x) (fun w k => w <<< k) ∧ shifts (.vshr h d a b x) (fun w k => w >>> k) ∧
    shifts (.vsar h d a b x) (fun w k => w.sshiftRight k)

/-- VIDX leaves an arithmetic sequence two issue cycles later: sA + i × sB in every lane, or in every pair (08 R163). -/
def Claims.VectorIndexResults : Prop :=
  ∀ (s : State) (h : Hdr) (d a b : BitVec 5) (fmt : BitVec 4),
    (Issues (.vidx h d a b fmt) h s → ∃ r, exec (.vidx h d a b fmt) s = .next (s.leaves (.vidx h d a b fmt) 2 [s.wV d r]) ∧
      if fmt = Fmt.fp64 then ∀ k, k < 64 → lane64 r k = s.rs a + BitVec.ofNat 64 k * s.rs b
      else ∀ k, k < 128 → lane r k = (s.rs a + BitVec.ofNat 64 k * s.rs b).setWidth 32)

/-- Vector logic, shifts and index sequences act on whole lanes: `Claims.VectorLogicAndShiftResults`, `Claims.VectorIndexResults`. -/
def Obligations.LaneOperationResults : Prop := Claims.VectorLogicAndShiftResults ∧ Claims.VectorIndexResults

/-- Compares into masks, selects and mask operations, two issue cycles later (08 R152-R154): in FP64 both bits of a pair read alike, and a pair is selected
by its even bit. The conditions of VCMP are equal, less, less or equal and, for integers, which compare as signed, unequal; for floats the fourth is that an operand is
NaN, of which the first three are false, and -0 equals +0. -/
def Obligations.VectorMaskResults : Prop :=
  ∀ (s : State) (h : Hdr) (d a b : BitVec 5) (d4 a4 mk fmt : BitVec 4) (c1 x : Bool),
    (Issues (.vcmp h c1 d4 a b fmt x) h s → ∃ m, exec (.vcmp h c1 d4 a b fmt x) s =
        .next (s.leaves (.vcmp h c1 d4 a b fmt x) 2 [s.wM d4 m]) ∧
      ∀ k, k < 128 → m.getLsbD k = vcmpElem (2 * c1.toNat + x.toNat) fmt (s.rv a) (s.rv b) (if fmt = Fmt.fp64 then k / 2 else k)) ∧
    (∀ va vb k, let p := elemInt fmt va k
      let q := elemInt fmt vb k
      Fmt.int fmt = true → vcmpElem 0 fmt va vb k = decide (p = q) ∧ vcmpElem 1 fmt va vb k = decide (p < q) ∧ vcmpElem 2 fmt va vb k = decide (p ≤ q) ∧
        vcmpElem 3 fmt va vb k = decide (p ≠ q)) ∧
    (∀ va vb k, let p := elemFp fmt va k
      let q := elemFp fmt vb k
      Fmt.int fmt = false →
        (p = .nan ∨ q = .nan → ∀ c, c < 4 → vcmpElem c fmt va vb k = decide (c = 3)) ∧
        (p ≠ .nan → q ≠ .nan → vcmpElem 0 fmt va vb k = p.eq q ∧ vcmpElem 1 fmt va vb k = p.lt q ∧ vcmpElem 2 fmt va vb k = (p.lt q || p.eq q) ∧
          vcmpElem 3 fmt va vb k = false)) ∧
    (Issues (.vsel h d a mk fmt) h s → ∃ r, exec (.vsel h d a mk fmt) s = .next (s.leaves (.vsel h d a mk fmt) 2 [s.wV d r]) ∧
      ∀ k, k < 128 → lane r k =
        if (s.rm mk).getLsbD (if fmt = Fmt.fp64 then 2 * (k / 2) else k) then lane (s.rv a) k else lane (s.rv d) k) ∧
    (Issues (.vmaskPopc h d a4) h s → ∃ y : Word, exec (.vmaskPopc h d a4) s = .next (s.leaves (.vmaskPopc h d a4) 2 [s.wS d y]) ∧
      y.toNat = ((List.range 128).filter (fun k => (s.rm a4).getLsbD k)).length) ∧
    (Issues (.vmaskFfs h d a4) h s → ∃ y : Word, exec (.vmaskFfs h d a4) s = .next (s.leaves (.vmaskFfs h d a4) 2 [s.wS d y]) ∧
      y.toNat ≤ 128 ∧ (∀ k, k < y.toNat → (s.rm a4).getLsbD k = false) ∧ (y.toNat < 128 → (s.rm a4).getLsbD y.toNat = true)) ∧
    (Issues (.vmaskTov h d a4) h s → ∃ r, exec (.vmaskTov h d a4) s = .next (s.leaves (.vmaskTov h d a4) 2 [s.wV d r]) ∧
      ∀ k, k < 128 → lane r k = if (s.rm a4).getLsbD k then BitVec.allOnes 32 else 0) ∧
    (Issues (.vmaskFromv h d4 a) h s → ∃ m, exec (.vmaskFromv h d4 a) s = .next (s.leaves (.vmaskFromv h d4 a) 2 [s.wM d4 m]) ∧
      ∀ k, k < 128 → m.getLsbD k = (lane (s.rv a) k).getLsbD 31) ∧
    (Issues (.vmaskFromp h d4 a4) h s → ∃ m, exec (.vmaskFromp h d4 a4) s = .next (s.leaves (.vmaskFromp h d4 a4) 2 [s.wM d4 m]) ∧
      ∀ k, k < 128 → m.getLsbD k = s.rf a4)

/-- The lane-moving families: swizzle by exclusive or, permutation by vB's numbers (out of range wraps, or gives zero with X), broadcasts of a scalar and
of a lane, transposition of a matrix of 2^COLS columns (08 R155). -/
def Obligations.VectorMoveResults : Prop :=
  ∀ (s : State) (h : Hdr) (d a b c : BitVec 5) (cols : BitVec 3) (fmt : BitVec 4) (x : Bool),
    let moves := fun (i : Instr) (L : Nat) (g : Nat → Nat) => Issues i h s → ∃ r, exec i s = .next (s.leaves i L [s.wV d r]) ∧
      if fmt = Fmt.fp64 then ∀ k, k < 64 → lane64 r k = lane64 (s.rv a) (g k) else ∀ k, k < 128 → lane r k = lane (s.rv a) (g k)
    let n := if fmt = Fmt.fp64 then 64 else 128
    moves (.vswz h d a c fmt) 2 (fun k => k ^^^ c.toNat) ∧
    moves (.vbcLane h d a b fmt) 2 (fun _ => (s.rs b).toNat % n) ∧
    moves (.xtrn h d a cols fmt) 4 (fun k => k % (n / 2 ^ cols.toNat) * 2 ^ cols.toNat + k / (n / 2 ^ cols.toNat)) ∧
    (Issues (.vperm h d a b fmt x) h s → ∃ r, exec (.vperm h d a b fmt x) s = .next (s.leaves (.vperm h d a b fmt x) 4 [s.wV d r]) ∧
      if fmt = Fmt.fp64 then ∀ k, k < 64 → lane64 r k =
        (if x ∧ (lane (s.rv b) (2 * k)).getLsbD 6 then 0 else lane64 (s.rv a) ((lane (s.rv b) (2 * k)).toNat % 64))
      else ∀ k, k < 128 → lane r k = (if x ∧ (lane (s.rv b) k).getLsbD 7 then 0 else lane (s.rv a) ((lane (s.rv b) k).toNat % 128))) ∧
    (Issues (.vbc h d a fmt) h s → ∃ r, exec (.vbc h d a fmt) s = .next (s.leaves (.vbc h d a fmt) 2 [s.wV d r]) ∧
      if fmt = Fmt.fp64 then ∀ k, k < 64 → lane64 r k = s.rs a else ∀ k, k < 128 → lane r k = (s.rs a).setWidth 32)

/-- Reductions, dot products, keyed hashes and the optimiser update leave their results at their latencies (07 R142, R143; 08 R156, R157, R164, R165);
VUPD writes vD, vD+1 and, unless it is a momentum update, vD+2.
It rests on the model's own choices of log 48. -/
def Claims.VectorReductionResults : Prop :=
  ∀ (s : State) (h : Hdr) (d a b : BitVec 5) (mk fmt : BitVec 4) (x : Bool),
    let reduces := fun (i : Instr) (o : Red) => Issues i h s → exec i s = .next (s.leaves i 8
      [s.wS d (if Fmt.int fmt then reduceInt fmt o (s.rm mk) (s.rv a) else reduceFp fmt o (s.rm mk) (s.rv a))])
    reduces (.vrsum h d a mk fmt) .sum ∧ reduces (.vrmax h d a mk fmt) .max ∧ reduces (.vrmin h d a mk fmt) .min ∧
    (Issues (.vdot h d a b fmt x) h s → ∃ r, exec (.vdot h d a b fmt x) s = .next (s.leaves (.vdot h d a b fmt x) 6 [s.wV d r]) ∧
      ∀ k, k < 128 → lane r k = dotLane fmt x (lane (s.rv a) k) (lane (s.rv b) k) (lane (s.rv d) k)) ∧
    (Issues (.vhash h d a b fmt x) h s → ∃ r, exec (.vhash h d a b fmt x) s = .next (s.leaves (.vhash h d a b fmt x) 6 [s.wV d r]) ∧
      let key := fun (n : Nat) => mixer s.regs.c.seed.toNat (wbits (s.rs a) 47 16) n (wbits (s.rs a) 15 0)
      if fmt = Fmt.fp64 then ∀ k, k < 64 → lane64 r k =
        BitVec.ofNat 64 (key (if x then (lane64 (s.rv b) k).toNat % 2 ^ 48 else ((s.rs b).toNat + k) % 2 ^ 48))
      else ∀ k, k < 128 → lane r k =
        BitVec.ofNat 32 (key (if x then (lane (s.rv b) k).toNat else ((s.rs b).toNat + k) % 2 ^ 48) / 2 ^ 32)) ∧
    (Issues (.vupd h d a b fmt x) h s → ∃ w m q, exec (.vupd h d a b fmt x) s = .next (s.leaves (.vupd h d a b fmt x) 24
        (s.wV d w :: s.wV (d + 1) m :: if x then [] else [s.wV (d + 2) q])) ∧
      let lo := fun (r : BitVec 5) => f32.decode ((s.rs r).toNat % 2 ^ 32)
      let hi := fun (r : BitVec 5) => f32.decode ((s.rs r).toNat / 2 ^ 32)
      let at_ := fun (r : BitVec 5) (k : Nat) => f32.decode (lane (s.rv r) k).toNat
      ∀ k, k < 128 →
        let u := updLane x (lo b) (hi b) (lo (b + 1)) (hi (b + 1)) (lo (b + 2)) (hi (b + 2)) (lo (b + 3))
          (laneVal fmt (lane (s.rv a) k)) (at_ d k) (at_ (d + 1) k) (at_ (d + 2) k)
        lane w k = BitVec.ofNat 32 (f32.rne u.1) ∧ lane m k = BitVec.ofNat 32 (f32.rne u.2.1) ∧ lane q k = BitVec.ofNat 32 (f32.rne u.2.2))

/-- What a reduction of integers gives (07 R142; 08 R156): the exact sum of the active elements; the greatest or the least of them, or, with no active lane, the
format's own bound. -/
def Claims.ReductionValues : Prop :=
  ∀ (f : BitVec 4) (m : Mask) (v : VReg), Fmt.int f = true →
    reduceInt f .sum m v = BitVec.ofInt 64 (((List.range 128).map (fun k => if m.getLsbD k then elemInt f v k else 0)).sum) ∧
    ((∃ k, k < 128 ∧ m.getLsbD k = true) →
      (∀ k, k < 128 → m.getLsbD k = true → elemInt f v k ≤ (reduceInt f .max m v).toInt ∧ (reduceInt f .min m v).toInt ≤ elemInt f v k) ∧
      (∃ k, k < 128 ∧ m.getLsbD k = true ∧ (reduceInt f .max m v).toInt = elemInt f v k) ∧
      (∃ k, k < 128 ∧ m.getLsbD k = true ∧ (reduceInt f .min m v).toInt = elemInt f v k)) ∧
    (m = 0 → (reduceInt f .max m v).toInt = -(2 ^ (fmtBits f - 1)) ∧ (reduceInt f .min m v).toInt = 2 ^ (fmtBits f - 1) - 1)

/-- A lane of an INT8 dot product: the exact sum of the four products, added to the accumulator lane, or to 0 with Z, and clamped to INT32 (07 R143; 08 R157).
It rests on the model's own choices of log 48. -/
def Claims.DotProductValues : Prop :=
  ∀ (z : Bool) (x y acc : BitVec 32),
    let e := fun (w : BitVec 32) (k : Nat) => (w.extractLsb' (8 * k) 8).toInt
    let p := e x 0 * e y 0 + e x 1 * e y 1 + e x 2 * e y 2 + e x 3 * e y 3
    dotLane Fmt.i8 z x y acc = BitVec.ofInt 32 (max (-2 ^ 31) (min (2 ^ 31 - 1) ((if z then 0 else acc.toInt) + p)))

/-- The eight transform families leave in every lane, at their latency, the function's FP32 result on the lane's value, rounded once more into the lane's
format (08 R166). The FP32 result itself, `transformFn`, is the model's choice (log 8): the exact or special result where R140 gives one, elsewhere a free value
that keeps the bound of R140. -/
def Claims.TransformResults : Prop :=
  ∀ (s : State) (h : Hdr) (d a : BitVec 5) (fmt : BitVec 4),
    let leaves := fun (i : Instr) (fn : Config.Fn) (L : Nat) => Issues i h s → ∃ r, exec i s = .next (s.leaves i L [s.wV d r]) ∧
      ∀ k, k < 128 → lane r k = (let y := transformFn fn (laneVal fmt (lane (s.rv a) k))
        if fmt = Fmt.fp32 then BitVec.ofNat 32 y else (valLane fmt .ne 0 (f32.decode y)).1)
    leaves (.xsin h d a fmt) .sin 16 ∧ leaves (.xcos h d a fmt) .cos 16 ∧ leaves (.xex2 h d a fmt) .exp2 12 ∧
    leaves (.xlg2 h d a fmt) .log2 12 ∧ leaves (.xrcp h d a fmt) .rcp 10 ∧ leaves (.xrsq h d a fmt) .rsqrt 10 ∧
    leaves (.xtanh h d a fmt) .tanh 14 ∧ leaves (.xsigm h d a fmt) .sigmoid 14

/-- The exact and special results of the transform functions (07 R140): NaN of every NaN, and the table's last column. -/
def Claims.TransformSpecialResults : Prop :=
  (∀ fn, transformFn fn .nan = f32.canon) ∧
  (∀ n e, transformFn .sin (.fin n 0 e) = f32.signed n 0 ∧ transformFn .cos (.fin n 0 e) = 0x3F800000 ∧
    transformFn .sin (.inf n) = f32.canon ∧ transformFn .cos (.inf n) = f32.canon) ∧
  (∀ k : Int, -149 ≤ k → k < 128 → transformFn .exp2 (FVal.ofInt k) = f32.rne (.fin false 1 k)) ∧
  (∀ x, FVal.lt x (.fin false 128 0) = false → x.isNan = false → transformFn .exp2 x = f32.infBits false) ∧
  (∀ x, FVal.lt x (.fin true 150 0) = true → transformFn .exp2 x = 0) ∧
  (∀ k : Int, transformFn .log2 (.fin false 1 k) = f32.rne (FVal.ofInt k)) ∧ (∀ n e, transformFn .log2 (.fin n 0 e) = f32.infBits true) ∧
  (∀ m e, m ≠ 0 → transformFn .log2 (.fin true m e) = f32.canon ∧ transformFn .rsqrt (.fin true m e) = f32.canon) ∧
  transformFn .log2 (.inf false) = f32.infBits false ∧
  (∀ n (k : Int), transformFn .rcp (.fin n 1 k) = f32.rne (.fin n 1 (-k))) ∧
  (∀ n e, transformFn .rcp (.fin n 0 e) = f32.infBits n ∧ transformFn .rcp (.inf n) = f32.signed n 0 ∧
    transformFn .rsqrt (.fin n 0 e) = f32.infBits n ∧ transformFn .tanh (.fin n 0 e) = f32.signed n 0 ∧
    transformFn .sigmoid (.fin n 0 e) = 0x3F000000) ∧
  (∀ k : Int, transformFn .rsqrt (.fin false 1 (2 * k)) = f32.rne (.fin false 1 (-k))) ∧ transformFn .rsqrt (.inf false) = 0 ∧
  (∀ n, transformFn .tanh (.inf n) = f32.rne (.fin n 1 0) ∧ transformFn .sigmoid (.inf n) = if n then 0 else 0x3F800000)

/-- The bound of R140: away from its exact and special results, a finite result lies within the stated distance of the exact result. The exact result is the model's
evaluation of the function, to more bits than the bounds can tell, and which result within the bound it is is a free value (log 8: DESIGN CHOICE). -/
def Claims.TransformBound : Prop :=
  ∀ (fn : Config.Fn) (b : Nat), b < 2 ^ 32 → specialResult fn (f32.decode b) = none →
    let r := f32.decode (transformFn fn (f32.decode b))
    r.isFin = true → FVal.lt (fnBound fn (f32.decode b) r) (FVal.sub false r (exactFn fn (f32.decode b))).abs = false

/-- Reductions, dot products, hashes, updates and transforms, whose free results keep their bound (log 8): `Claims.VectorReductionResults`, `Claims.ReductionValues`, `Claims.DotProductValues`, `Claims.TransformResults`, `Claims.TransformSpecialResults`, `Claims.TransformBound`. -/
def Obligations.VectorReductionResults : Prop := Claims.VectorReductionResults ∧ Claims.ReductionValues ∧ Claims.DotProductValues ∧ Claims.TransformResults ∧ Claims.TransformSpecialResults ∧ Claims.TransformBound

/-- The conversion families leave the converted register at their latency (08 R158-R162), each lane from its own lane, or from its block in the SX formats;
XCMP writes a whole chunk into two registers (08 R170). -/
def Claims.VectorConversionResults : Prop :=
  ∀ (s : State) (h : Hdr) (d a rnd : BitVec 5) (fmt : BitVec 4) (pl : BitVec 2) (x : Bool),
    let leaves := fun (i : Instr) (L : Nat) (v : VReg) => Issues i h s → exec i s = .next (s.leaves i L [s.wV d v])
    leaves (.vcvt h d a rnd fmt) 4 (vcvtReg fmt (Rnd.ofCode rnd) (s.rv a) (s.rv d)) ∧
    leaves (.vcvf h d a rnd fmt) 4 (vcvfReg fmt (Rnd.ofCode rnd) (s.rv a) (s.rv d)) ∧
    leaves (.vsxp h d a rnd fmt x) 6
      (ofLaneList (sxLanes fmt (Rnd.ofCode rnd) (if x then 32 else 16) (fp32Lanes (s.rv a) (s.rv d))).1) ∧
    leaves (.vplnSplit h d a x pl fmt) 4 (planeImage fmt pl (if x then 32 else 16) (s.rv a)) ∧
    leaves (.vplnJoin h d a x pl fmt) 4 (planeJoin fmt pl (if x then 32 else 16) (s.rv a) (s.rv d)) ∧
    leaves (.vrnd h d a rnd fmt) 4
      (ofElems fmt (fun e => (fpFmt fmt).rne ((elemFp fmt (s.rv a) e).integral (Rnd.ofCode rnd) (rbLane (s.rv d) e)))) ∧
    (Issues (.xcmp h d a fmt) h s → ∃ lo hi, exec (.xcmp h d a fmt) s =
        .next (s.leaves (.xcmp h d a fmt) 8 [s.wV d lo, s.wV (d + 1) hi]) ∧
      toBytes 512 lo.toNat ++ toBytes 512 hi.toNat = chunkOf (chunkCode fmt) ((lanesOf (s.rv a)).map (·.toNat))) ∧
    (Issues (.xexd h d a) h s → chunkBad (toBytes 512 (s.rv a).toNat ++ toBytes 512 (s.rv (a + 1)).toNat) = false →
      exec (.xexd h d a) s = .next (s.leaves (.xexd h d a) 8
        [s.wV d (ofLaneList (chunkLanes (toBytes 512 (s.rv a).toNat ++ toBytes 512 (s.rv (a + 1)).toNat)))]))

/-- VCVT and VCVF, lane by lane (07 R128-R134; 08 R158, R159): one rounding by RND into the format, or from it into FP32, the random bits of a lane being bits [31:16]
of vD's; integers clamped; an FP64 value in its pair of lanes, from and to the even one; VRND rounds each element to an integral value (R162).
It rests on the model's own choices of log 67. -/
def Claims.ConvertedLanes : Prop :=
  ∀ (s : State) (h : Hdr) (d a rnd : BitVec 5) (fmt : BitVec 4),
    let mode := Rnd.ofCode rnd
    let rb := fun (k : Nat) => (lane (s.rv d) k).toNat / 2 ^ 16
    let x := fun (k : Nat) => f32.decode (lane (s.rv a) k).toNat
    (Issues (.vcvt h d a rnd fmt) h s → ∃ r, exec (.vcvt h d a rnd fmt) s = .next (s.leaves (.vcvt h d a rnd fmt) 4 [s.wV d r]) ∧
      if fmt = Fmt.fp64 then ∀ j, j < 64 → lane64 r j = BitVec.ofNat 64 (f64.rne (x (2 * j)))
      else if isInt fmt then ∀ k, k < 128 → lane r k =
        BitVec.ofInt 32 ((x k).toIntSat mode (rb k) (-(2 ^ (fmtBits fmt - 1))) (2 ^ (fmtBits fmt - 1) - 1)).1
      else ∀ k, k < 128 → lane r k = BitVec.ofNat 32 ((fpFmt fmt).round mode (rb k) (x k))) ∧
    (Issues (.vcvf h d a rnd fmt) h s → ∃ r, exec (.vcvf h d a rnd fmt) s = .next (s.leaves (.vcvf h d a rnd fmt) 4 [s.wV d r]) ∧
      if fmt = Fmt.fp64 then ∀ j, j < 64 → lane r (2 * j) = BitVec.ofNat 32 (f32.round mode (rb (2 * j)) (f64.decode (lane64 (s.rv a) j).toNat)) ∧
        lane r (2 * j + 1) = 0
      else ∀ k, k < 128 → lane r k = BitVec.ofNat 32 (f32.round mode (rb k) (
        let w := lane (s.rv a) k
        if Fmt.sx fmt then sxDecode fmt (w.extractLsb' 16 8).toNat (w.extractLsb' 8 2).toNat (w.getLsbD 7) (w.toNat % 2 ^ sxBits fmt)
        else if isInt fmt then FVal.ofInt (elemInt fmt (s.rv a) k) else elemFp fmt (s.rv a) k))) ∧
    (Issues (.vrnd h d a rnd fmt) h s → ∃ r, exec (.vrnd h d a rnd fmt) s = .next (s.leaves (.vrnd h d a rnd fmt) 4 [s.wV d r]) ∧
      if fmt = Fmt.fp64 then ∀ j, j < 64 → lane64 r j = BitVec.ofNat 64 (f64.rne ((elemFp fmt (s.rv a) j).integral mode (rb j)))
      else ∀ k, k < 128 → lane r k = laneOut fmt ((fpFmt fmt).rne ((elemFp fmt (s.rv a) k).integral mode (rb k))))

/-- Packing a register into a chunk and expanding that chunk gives back the elements of the format's width, zero-extended (08 R170): the two families are
inverse to each other. -/
def Claims.ChunkRoundTrip : Prop :=
  ∀ (w : Nat) (els : List Nat), w < 3 → els.length = 128 →
    chunkBad (chunkOf w els) = false ∧ chunkLanes (chunkOf w els) = els.map (fun x => BitVec.ofNat 32 (x % 2 ^ (8 * chunkBytes w)))

/-- Vector conversions and chunks: `Claims.VectorConversionResults`, `Claims.ConvertedLanes`, `Claims.ChunkRoundTrip`. -/
def Obligations.VectorConversionResults : Prop := Claims.VectorConversionResults ∧ Claims.ConvertedLanes ∧ Claims.ChunkRoundTrip

/-! ## Queues, wells, synchronisation -/

/-- Queue slots (12 R226, R227): a push into a resident queue with space reserves one element and is withheld; binding a queue that no other head holds gives
the head the queue's popped count, plus (the model's choice, log 32) the pops of this context that have not performed; unbinding is withheld; rd reads the element latched, and stat its state, two issue cycles later. -/
def Obligations.QueueResults : Prop :=
  ∀ (s : State) (h : Hdr) (a b d : BitVec 5) (k : BitVec 2) (eos : Bool), s.room →
    let key := s.queueKey s.who (wbits (s.rs b) 11 0)
    let pushes := fun (i : Instr) (x : Word) (e : Bool) (rd : List Word) =>
      Issues i h s → (s.rs b).toNat < 4096 → (s.queue key).present = true → (s.queue key).home.isSome = true → 0 < (s.queue key).space →
        exec i s = .next (((s.noted i).modQueue key (fun u => { u with resv := u.resv + 1 })).addHeld (.qpush key x e) rd)
    pushes (.qpush h a b eos) (s.rs a) eos [s.rs a, s.rs b] ∧
    (∀ e, (s.head k).bound = true → s.latched s.who (s.head k) = some e → pushes (.qpushFwd h k b) e.1 e.2 [e.1, s.rs b]) ∧
    (let n := wbits (s.rs a) 11 0
     let q := s.queue (s.queueKey s.who n)
     Issues (.qbind h k a) h s → q.present = true → q.home.isSome = true → q.head = none → (s.head k).bound = false →
      ∃ t, exec (.qbind h k a) s = .next t ∧ (t.queue (s.queueKey s.who n)).head = some (s.who, k.toNat) ∧
        (t.ctx s.who).stage.qh.get k.toFin =
          { bound := true, queue := BitVec.ofNat 12 n, pos := q.popped + BitVec.ofNat 32 (popsPending s s.who (s.queueKey s.who n)) } ∧
        (t.ctx s.who).live = s.me.live ∧ t.mem = s.mem) ∧
    ((s.head k).bound = true →
      (Issues (.qunbind h k) h s → exec (.qunbind h k) s =
        .next (s.withholds (.qunbind h k) (.qunbind (s.queueKey s.who (s.head k).queue.toNat)) [])) ∧
      (∀ e, s.latched s.who (s.head k) = some e → Issues (.qrd h d k) h s →
        exec (.qrd h d k) s = .next (s.leaves (.qrd h d k) 2 [s.wS d e.1])) ∧
      (Issues (.qstat h d k) h s → ∃ x : Word, exec (.qstat h d k) s = .next (s.leaves (.qstat h d k) 2 [s.wS d x]) ∧
        x.getLsbD 0 = (s.latched s.who (s.head k)).isSome ∧ x.getLsbD 1 = ((s.latched s.who (s.head k)).map (·.2)).getD false ∧
        x.toNat / 2 ^ 16 = s.available s.who (s.head k)))

/-- Wells (12 R229-R232): WOP goes on once the handle's count is CNT, and WADV then advances the handle's own pointer for the next bundle and withholds the
advance of the block's pointer; WSTAT and WADDR read the handle two issue cycles later; WUNBIND is withheld. -/
def Claims.WellResults : Prop :=
  ∀ (s : State) (h : Hdr) (w : BitVec 4) (cnt : BitVec 6) (lim : BitVec 10) (d : BitVec 5),
    let x := handle s w
    let key := s.wellKey s.who x
    x.bound = true → s.room →
    (cnt.toNat ≤ (wellCount s x).toNat →
      (Issues (.wop h w cnt lim) h s → exec (.wop h w cnt lim) s = .next (s.noted (.wop h w cnt lim))) ∧
      (Issues (.wadv h w cnt lim) h s → cnt ≠ 0 → ∃ t, exec (.wadv h w cnt lim) s = .next t ∧
        (t.ctx s.who).stage.w.get w.toFin = { x with own := x.own + cnt.setWidth 32 } ∧ (t.ctx s.who).live = s.me.live ∧
        ((t.ctx s.who).held.getLast?.map (·.eff)) = some (if x.prod then .wadv key cnt.toNat else .wcons key cnt.toNat) ∧ t.mem = s.mem) ∧
      (Issues (.wadv h w cnt lim) h s → cnt = 0 → exec (.wadv h w cnt lim) s = .next (s.noted (.wadv h w cnt lim)))) ∧
    (Issues (.wunbind h w) h s → exec (.wunbind h w) s = .next (s.withholds (.wunbind h w) (.wunbind key x.prod) [])) ∧
    (Issues (.wstat h d w) h s → exec (.wstat h d w) s = .next (s.leaves (.wstat h d w) 2
      [s.wS d (BitVec.ofNat 64 (x.own.toNat + (wellCount s x).toNat * 2 ^ 32))])) ∧
    (Issues (.waddr h d w) h s → exec (.waddr h d w) s = .next (s.leaves (.waddr h d w) 2
      [s.wS d (BitVec.ofNat 64 (wellBase s key + x.own.toNat % wellSlots s key * wellSlotB s key))]))

/-- WBIND (12 R229, R231): a well formed block whose role nobody holds is bound to the handle: the block records the binding, and the next bundle reads the handle
with the block's pointer, plus (the model's choice, log 32) the advances of this context that have not performed. -/
def Claims.WellBinding : Prop :=
  ∀ (s : State) (h : Hdr) (w : BitVec 4) (a : BitVec 5) (sp : BitVec 2) (prod : Bool),
    let i := if prod then Instr.wbindP h w a sp else .wbindC h w a sp
    Issues i h s → (s.rs a).toNat % 64 = 0 → (handle s w).bound = false →
    ∀ l s', resolve (s.noted i) s.who .atomic (Space.ofCode sp) (s.rs a) 64 = .ok (l, s') →
      s.poisoned l.key 64 = false → wellBad s l.key = none → (if prod then (s.well l.key).prod else (s.well l.key).cons) = none →
      ∃ t, exec i s = .next t ∧
        (if prod then (t.well l.key).prod else (t.well l.key).cons) = some (.handle s.who w.toNat) ∧
        (t.ctx s.who).stage.w.get w.toFin = { bound := true, prod := prod, vault := sp == 3, blk := s.rs a
                                              own := (if prod then wellP s l.key else wellC s l.key)
                                                + BitVec.ofNat 32 (advancesPending s s.who l.key prod) } ∧
        (t.ctx s.who).live = s.me.live ∧ (∀ k, ¬(l.key + 0x20 ≤ k ∧ k < l.key + 0x40) → t.byteAt k = s.byteAt k)

/-- Wells: `Claims.WellResults`, `Claims.WellBinding`. -/
def Obligations.WellResults : Prop := Claims.WellResults ∧ Claims.WellBinding

/-- The eleven atomics (12 R235, R236): an aligned address that resolves outside coded pages and the fabric leaves one landing entry for sD and one withheld
atomic of the operand, its low 32 bits for a 4-byte datum; nothing is read or written before release. -/
def Claims.AtomicResults : Prop :=
  ∀ (s : State) (h : Hdr) (d a : BitVec 5) (lc : BitVec 3) (sp : BitVec 2) (w4 : Bool),
    ∀ p ∈ [(Instr.atomSwap h d a lc sp w4, AtomOp.swap), (.atomAdd h d a lc sp w4, .add), (.atomAnd h d a lc sp w4, .and),
        (.atomOr h d a lc sp w4, .or), (.atomXor h d a lc sp w4, .xor), (.atomMin h d a lc sp w4, .min), (.atomMax h d a lc sp w4, .max),
        (.atomMinu h d a lc sp w4, .minu), (.atomMaxu h d a lc sp w4, .maxu), (.atomCas h d a lc sp w4, .cas), (.atomFadd h d a lc sp w4, .fadd)],
      Issues p.1 h s → s.room → (s.rs a).toNat % (if w4 then 4 else 8) = 0 →
      ∀ l s', resolve (s.noted p.1) s.who .atomic (Space.ofCode sp) (s.rs a) (if w4 then 4 else 8) = .ok (l, s') → l.coded = none →
        l.fabric = false → ∃ t e x, exec p.1 s = .next t ∧
          (t.ctx s.who).flight = s.me.flight ++ [e] ∧ e.kind = .load ∧ e.arrived = false ∧ e.shape = .s (physSV s.rot d) 8 ∧
          e.dist = max (s.regs.c.lc.get lc.toFin).toNat 1 ∧ (t.ctx s.who).held = s.me.held ++ [x] ∧
          x.eff = .atom p.2 w4 l (if w4 then s.rs d &&& 0xFFFFFFFF else s.rs d)
            (if p.2 = .cas then (if w4 then s.rs (d + 1) &&& 0xFFFFFFFF else s.rs (d + 1)) else 0) e.id ∧
          (t.ctx s.who).live = s.me.live ∧ t.mem = s.mem

/-- What an atomic stores (12 R235), on a datum of n bits: addition wraps, minimum and maximum compare signed or unsigned, compare-and-swap stores only on
equality. -/
def Claims.AtomicValues : Prop :=
  ∀ (w4 : Bool) (x d e : Nat),
    let n := if w4 then 32 else 64
    let toS := fun (y : Nat) => (if y < 2 ^ (n - 1) then (y : Int) else y - 2 ^ n)
    x < 2 ^ n → d < 2 ^ n → e < 2 ^ n →
    atomNew .swap w4 x d e = d ∧ atomNew .add w4 x d e = (x + d) % 2 ^ n ∧ atomNew .and w4 x d e = x &&& d ∧
    atomNew .or w4 x d e = x ||| d ∧ atomNew .xor w4 x d e = x ^^^ d ∧ toS (atomNew .min w4 x d e) = min (toS x) (toS d) ∧
    toS (atomNew .max w4 x d e) = max (toS x) (toS d) ∧ atomNew .minu w4 x d e = min x d ∧ atomNew .maxu w4 x d e = max x d ∧
    atomNew .cas w4 x d e = (if x = d then e else x)

/-- Atomics: `Claims.AtomicResults`, `Claims.AtomicValues`. -/
def Obligations.AtomicResults : Prop := Claims.AtomicResults ∧ Claims.AtomicValues

/-- BAR, DRAIN and EVT (12 R237-R240): an arrival and a wait at a well formed object, a drain, a signal and a taken wait are withheld to the checkpoint; arr and sync
name the index, sync and wt also leave a wait after the bundle, and a wt knows the ROUNDS value that it waits to see changed once its release has performed; an arr leaves none; EVT rd
reads its count two issue cycles later. That a
cluster field of 0 of EVT wait and rd is the own cluster is the model's choice (log 32). -/
def Claims.SynchronisationResults : Prop :=
  ∀ (s : State) (h : Hdr) (d a b : BitVec 5) (sc : BitVec 3), s.room →
    (∀ l s' i, (i = .barArr h a b sc ∨ i = .barSync h a b sc) → Issues i h s → (s.rs a).toNat % 64 = 0 → (s.rs b).toNat < 2 ^ 10 →
      resolve (s.noted i) s.who .atomic (Space.ofCode ((s.rs b).extractLsb' 8 2)) (s.rs a) 64 = .ok (l, s') → l.fabric = false →
      ∃ t x, exec i s = .next t ∧ (t.ctx s.who).held = s.me.held ++ [x] ∧
        x.eff = .arrive l (wbits (s.rs b) 7 0) (i == .barSync h a b sc) sc.toNat ∧ x.pos = s.pos ∧ x.bund = s.bpc.setWidth 57 ∧
        (i = .barSync h a b sc → ∃ p, (t.ctx s.who).post = some p ∧ p.kind = .sync ∧ p.loc = l ∧ p.r = none ∧ awaits x p = true) ∧
        (i = .barArr h a b sc → (t.ctx s.who).post = s.me.post) ∧ t.mem = s'.mem) ∧
    (∀ l s', Issues (.barWt h a b sc) h s → (s.rs a).toNat % 64 = 0 → (s.rs b).toNat < 2 ^ 34 →
      resolve (s.noted (.barWt h a b sc)) s.who .load (Space.ofCode ((s.rs b).extractLsb' 32 2)) (s.rs a) 64 = .ok (l, s') → l.fabric = false →
      ∃ t p x, exec (.barWt h a b sc) s = .next t ∧ (t.ctx s.who).post = some p ∧ p.kind = .wt ∧ p.loc = l ∧
        p.want = (s.rs b).setWidth 32 ∧ p.r = none ∧ (t.ctx s.who).held = s.me.held ++ [x] ∧ x.eff = .barWait sc.toNat ∧
        awaits x p = true ∧ t.mem = s'.mem) ∧
    (∀ (t : State) (w : Withheld) (p : PostWait) (n : Nat), (t.ctx s.who).post = some p → awaits w p = true →
      ((performBarWait t s.who w n).ctx s.who).post.bind (·.r) = some p.want) ∧
    (Issues (.drain h d sc) h s → ∃ t e p, exec (.drain h d sc) s = .next t ∧ (t.ctx s.who).flight = s.me.flight ++ [e] ∧ e.arrived = false ∧
      e.writes = [s.wS d 0] ∧ (t.ctx s.who).post = some p ∧ p.kind = .drain ∧ p.scope = sc.toNat ∧ p.ref = e.id ∧
      ((t.ctx s.who).held.getLast?.map (·.eff)) = some .drain ∧ t.mem = s.mem) ∧
    (evtBad (s.rs a) true = false →
      (Issues (.evtSig h a) h s → s.who.cluster? = some (wbits (s.rs a) 21 16) → exec (.evtSig h a) s = .next (s.withholds (.evtSig h a)
        (.evtSig (wbits (s.rs a) 21 16) (wbits (s.rs a) 5 0) (wbits (s.rs a) 15 8)) [s.rs a])) ∧
      (∀ cl, s.who.cluster? = some cl → (wbits (s.rs a) 21 16 = 0 ∨ wbits (s.rs a) 21 16 = cl) →
        (semOf s cl (wbits (s.rs a) 5 0)).resv + wbits (s.rs a) 15 8 ≤ (semOf s cl (wbits (s.rs a) 5 0)).count.toNat →
        Issues (.evtWait h a b) h s → ∃ t, exec (.evtWait h a b) s = .next t ∧
          ((t.ctx s.who).held.getLast?.map (·.eff)) = some (.evtTake cl (wbits (s.rs a) 5 0) (wbits (s.rs a) 15 8)) ∧
          (semOf t cl (wbits (s.rs a) 5 0)).resv = (semOf s cl (wbits (s.rs a) 5 0)).resv + wbits (s.rs a) 15 8 ∧
          (semOf t cl (wbits (s.rs a) 5 0)).count = (semOf s cl (wbits (s.rs a) 5 0)).count)) ∧
    (∀ cl, evtBad (s.rs a) false = false → s.who.cluster? = some cl → (wbits (s.rs a) 21 16 = 0 ∨ wbits (s.rs a) 21 16 = cl) →
      Issues (.evtRd h d a) h s → exec (.evtRd h d a) s =
        .next (s.leaves (.evtRd h d a) 2 [s.wS d ((semOf s cl (wbits (s.rs a) 5 0)).count.setWidth 64)]))

/-- Pad banks (12 R234): acq takes banks that nobody else holds, all at once and at issue; rel in a checkpoint bundle is withheld; rd shows the banks held and
the free ones two issue cycles later. -/
def Claims.BankResults : Prop :=
  ∀ (s : State) (h : Hdr) (a b d : BitVec 5) (cl : Nat), s.who.cluster? = some cl →
    let own := fun (t : State) (k : Nat) => (t.cluster cl).banks.get 0 k
    let me := s.bankOwner s.who
    (Issues (.bankAcq h a b) h s → (s.rs a).toNat < 2 ^ 32 → (s.rs b).toNat < 2 ^ 24 →
      (∀ k, (s.rs a).getLsbD k = true → own s k = 0 ∨ own s k = me) → ∃ t, exec (.bankAcq h a b) s = .next t ∧
        (∀ k, k < 32 → own t k = if (s.rs a).getLsbD k then me else own s k) ∧ (t.ctx s.who) = s.me ∧ t.mem = s.mem) ∧
    (Issues (.bankRel h a) h s → s.ckb = true → exec (.bankRel h a) s =
      .next (s.withholds (.bankRel h a) (.bankRel cl ((s.rs a).setWidth 32)) [])) ∧
    (Issues (.bankRel h a) h s → s.ckb = false → exec (.bankRel h a) s =
      .next ((s.noted (.bankRel h a)).raise ((s.noted (.bankRel h a)).slotTrap 0x02))) ∧
    (Issues (.bankRd h d) h s → ∃ x : Word, exec (.bankRd h d) s = .next (s.leaves (.bankRd h d) 2 [s.wS d x]) ∧
      ∀ k, k < 32 → x.getLsbD k = decide (own s k = me) ∧ x.getLsbD (32 + k) = decide (own s k = 0))

/-- Tokens (12 R242): a claim of a well formed object in the die's vaults leaves a landing entry of class 7 for sD and is withheld; a token of a well formed
request is withheld with its payload, a request that names a package without a check of the issuer's window (12 R242). -/
def Claims.RouteResults : Prop :=
  ∀ (s : State) (h : Hdr) (d a b : BitVec 5), s.room → (s.rs a).toNat % 64 = 0 →
    (Issues (.rteClm h d a b) h s → vaultPasses s s.who (s.rs a).toNat 64 = true → bits (s.rs a).toNat 32 27 / 16 = s.who.die → wbits (s.rs b) 63 48 = 0 → wbits (s.rs b) 47 32 ≠ 0 →
      ∃ t e x, exec (.rteClm h d a b) s = .next t ∧ (t.ctx s.who).flight = s.me.flight ++ [e] ∧ e.kind = .load ∧
        e.shape = .s (physSV s.rot d) 8 ∧ e.dist = max (s.regs.c.lc.get 7).toNat 1 ∧ (t.ctx s.who).held = s.me.held ++ [x] ∧
        x.eff = .clm (s.rs a) ((s.rs b).setWidth 32) (wbits (s.rs b) 47 32) e.id ∧ t.mem = s.mem) ∧
    (Issues (.rteSnd h d a b) h s → wbits (s.rs b) 63 61 = 0 → (s.rs a).toNat < 2 ^ 33 →
      ((s.rs b).getLsbD 60 = false → vaultPasses s s.who (s.rs a).toNat 64 = true) → exec (.rteSnd h d a b) s = .next (s.withholds (.rteSnd h d a b)
      (.snd (s.rs a) ((s.rs b).setWidth 32) (wbits (s.rs b) 43 32) (wbits (s.rs b) 59 44) ((s.rs b).getLsbD 60) (s.rv d)) [s.rs a, s.rs b]))

/-- Barriers, drains, semaphores, pad banks and tokens: `Claims.SynchronisationResults`, `Claims.BankResults`, `Claims.RouteResults`. -/
def Obligations.SynchronisationResults : Prop := Claims.SynchronisationResults ∧ Claims.BankResults ∧ Claims.RouteResults

/-! ## Engines, governor, panes -/

/-- Engine starts (15 R267, R270, R272, R275, R277-R280, R282, R284-R286): the slots that start or steer a copy channel, the carve, a range invalidation, a coded region, a collective, a ring
operation, a ring semaphore or the schedule table withhold that effect to the checkpoint; a status read leaves its result; nothing of the engine changes at
issue, but the channel that go reserves. That of a descriptor only the alignment is checked at issue is log 25's reading, that the slots of one cluster trap
on a command processor log 17's. -/
def Claims.EngineSlotResults : Prop :=
  ∀ (s : State) (h : Hdr) (d a b : BitVec 5) (sc : BitVec 3), s.room →
    let x := s.rs a
    let y := s.rs b
    let holds := fun (i : Instr) (e : Effect) (regs : List Word) => Issues i h s → exec i s = .next (s.withholds i e regs)
    (∀ cl, s.who.cluster? = some cl →
      (y.toNat < 32 → x.toNat % 64 = 0 → chanCode (chanOf s cl (wbits y 3 0)) ≠ 1 → Issues (.cpchGo h a b) h s →
        exec (.cpchGo h a b) s = .next ((modChan (s.noted (.cpchGo h a b)) cl (wbits y 3 0) (fun c => { c with reserved := some s.who })).addHeld
          (.cpchGo cl (wbits y 3 0) x (y.getLsbD 4)) [x, y])) ∧
      (otherTask s (chanOf s cl (wbits x 3 0)) = false → holds (.cpchStop h a) (.cpchStop cl (wbits x 3 0)) [x]) ∧
      (Issues (.cpchSt h d a) h s → exec (.cpchSt h d a) s = .next (s.leaves (.cpchSt h d a) 2 [s.wS d
        (let c := chanOf s cl (wbits x 3 0)
         BitVec.ofNat 64 (chanCode c + c.cause * 2 ^ 2 + c.reason * 2 ^ 9 + c.done % 2 ^ 48 * 2 ^ 16))])) ∧
      (x.toNat ≤ 12 → y.toNat < 128 → (s.who.onCore = true → s.me.vaultwin.getLsbD 48 = true) →
        holds (.memcPhase h a b) (.phase cl x.toNat (if y.getLsbD 6 then some (wbits y 5 0) else none)) [x, y])) ∧
    (y.toNat < 2 ^ 50 → s.rs d = 0 → holds (.memcRinv h d a b sc) (.rinv sc.toNat x (wbits y 39 0) none 0 (wbits y 47 40)) [s.rs d, x, y]) ∧
    (∀ l s', y.toNat < 2 ^ 50 → s.rs d ≠ 0 → (s.rs d).toNat % 64 = 0 → Issues (.memcRinv h d a b sc) h s →
      resolve (s.noted (.memcRinv h d a b sc)) s.who .atomic (Space.ofCode (y.extractLsb' 48 2)) (s.rs d) 64 = .ok (l, s') → l.fabric = false →
      exec (.memcRinv h d a b sc) s =
        .next (s'.addHeld (.rinv sc.toNat x (wbits y 39 0) (some l) (s.rs d) (wbits y 47 40)) [s.rs d, x, y])) ∧
    (x.toNat < 64 → y.toNat < 8 → holds (.memcCreg h a b) (.creg (s.procOf s.who * 64 + x.toNat) y) [x, y]) ∧
    (∀ segs s', wbits x 63 10 = 0 → wbits x 7 6 = 0 → Issues (.memcCerr h a b) h s →
      resolveAccess (s.noted (.memcCerr h a b)) .store (Space.ofCode (x.extractLsb' 8 2)) y 32 32 = .ok (segs, s') →
      exec (.memcCerr h a b) s = .next (s'.addHeld (.cerr (s.procOf s.who * 64 + wbits x 5 0) (cutPieces segs (List.replicate 32 0))) [x, y])) ∧
    (x.toNat % 128 = 0 → holds (.coll h a) (.coll x) [x]) ∧ (x.toNat % 64 = 0 → holds (.ring h a) (.ring x) [x]) ∧
    (x.toNat < 256 → holds (.rsemSet h a b) (.rsem s.who.die x.toNat false (y.toNat % 65536)) [x, y] ∧
      holds (.rsemAdd h a b) (.rsem s.who.die x.toNat true (y.toNat % 65536)) [x, y]) ∧
    (x.toNat % 32 = 0 → y.toNat < 256 → holds (.stabWr h a b) (.stabWr y.toNat x) [x, y]) ∧
    (x.toNat < 256 → holds (.stabGo h a) (.stabGo x.toNat) [x]) ∧ holds (.stabStop h) .stabStop [] ∧
    (x.toNat < 2 → wbits y 63 32 = 0 → wbits y 30 18 = 0 → holds (.stabLink h a b) (.stabLink (x.getLsbD 0) y) [x, y]) ∧
    holds (.stabClr h) .stabClr []

/-- Reads that freeze (15 R285, R286, R287): RSEM rd, STAB rd and STAB reg wait at their slot until their time, a choice of the model within the spec's bounds
(log 7), has passed, then leave the count, the 64-bit word of
the schedule table's entry, or the walker's register one issue cycle later. -/
def Claims.FrozenReads : Prop :=
  ∀ (s : State) (h : Hdr) (d a b : BitVec 5),
    let x := s.rs a
    let y := s.rs b
    let reads := fun (i : Instr) (n : Nat) (v : Word) => Issues i h s →
      (n ≤ waitCount s.me.waits s.pos → exec i s = .next (s.leaves i 1 [s.wS d v])) ∧
      (waitCount s.me.waits s.pos < n → exec i s = .next ((s.noted i).hold {}))
    (x.toNat < 256 → reads (.rsemRd h d a) rsemTime ((ringSem s s.who.die x.toNat).setWidth 64)) ∧
    (x.toNat < 256 → y.toNat < 4 → reads (.stabRd h d a b) (stabTime s) ((s.walker.table.get 0 x.toNat).extractLsb' (64 * y.toNat) 64)) ∧
    (∀ v, walkerReg s.walker x.toNat = some v → reads (.stabReg h d a) (stabTime s) v)

/-- Engine starts and reads that freeze: `Claims.EngineSlotResults`, `Claims.FrozenReads`. -/
def Obligations.EngineSlotResults : Prop := Claims.EngineSlotResults ∧ Claims.FrozenReads

/-- Governor slots of a process with a table (09 R187-R190): rd leaves a word of the entry eight issue cycles later; set and clr change the entry four cc later and
GSTEP its range at 4 + ceil(count / 16), leaving the count of changes one later; pol takes its block after a freeze, for which the model takes the typical latency of
its line (log 7), and is refused at a fabric address (log 58); a measurement is added at issue. -/
def Claims.GovernorResults : Prop :=
  ∀ (s : State) (h : Hdr) (d a b : BitVec 5) (tb : Nat), govTableOf s (s.procOf s.who) = some tb →
    let x := s.rs a
    let y := s.rs b
    (x.toNat < 4096 →
      (Issues (.govRd h d a b) h s → exec (.govRd h d a b) s = .next (s.leaves (.govRd h d a b) 8 [s.wS d (govWord s tb x.toNat (y.toNat % 8))])) ∧
      (setWordOk y = true → Issues (.govSet h a b) h s → exec (.govSet h a b) s =
        .next (govSchedule (s.noted (.govSet h a b)) 4 (.set tb x.toNat y) .govEffect)) ∧
      (Issues (.govClr h a) h s → exec (.govClr h a) s = .next (govSchedule (s.noted (.govClr h a)) 4 (.clr tb x.toNat) .govEffect))) ∧
    (x.toNat < 1024 →
      (Issues (.gmeasMb h a b) h s → ∃ t, exec (.gmeasMb h a b) s = .next t ∧ t.ctxs = s.ctxs ∧ t.mem = s.mem ∧
        let u := (govTable s tb).layers.get {} x.toNat
        (govTable t tb).layers.get {} x.toNat = { u with g1 := addF64 u.g1 y, n := u.n + 1 }) ∧
      (Issues (.gmeasTot h a b) h s → ∃ t, exec (.gmeasTot h a b) s = .next t ∧ t.ctxs = s.ctxs ∧ t.mem = s.mem ∧
        let u := (govTable s tb).layers.get {} x.toNat
        (govTable t tb).layers.get {} x.toNat = { u with g2 := addF64 u.g2 y })) ∧
    (0 < y.toNat → y.toNat ≤ 4096 → x.toNat + y.toNat ≤ 4096 → (govTable s tb).kappa.isSome = true → Issues (.gstep h d a b) h s →
      ∃ t e, exec (.gstep h d a b) s = .next t ∧ (t.ctx s.who).flight = s.me.flight ++ [e] ∧ e.writes = [s.wS d 0] ∧ e.arrived = false ∧
        e.dist = 5 + (y.toNat + 15) / 16 ∧ (t.ctx s.who).live = s.me.live ∧ t.gov = s.gov ∧ t.mem = s.mem ∧
        ∃ id, (id, GovChange.step tb x.toNat y.toNat s.who e.id) ∈ t.govQ ∧ (s.cc + (4 + (y.toNat + 15) / 16), Ev.gstepEffect id) ∈ t.agenda) ∧
    (∀ l s', x.toNat % 16 = 0 → Issues (.govPol h a) h s → resolve (s.noted (.govPol h a)) s.who .load .m x 16 = .ok (l, s') →
      let r := readSegs s' s.who [(l, 16)]
      let kappa := f64.decode (field r.1 0 8)
      (l.fabric = true → ∃ t, exec (.govPol h a) s = .next t ∧ (t.ctx s.who).tcause = 0x21 ∧ (t.ctx s.who).st = .stopped ∧ t.gov = s.gov) ∧
      (l.fabric = false → latencyOf s' s.who l false ≤ waitCount s.me.waits s.pos → r.2.1 = false → kappa.isFin = true → kappa.isZero = false → kappa.sign = false →
        field r.1 8 2 ≠ 0 → zeroBytes r.1 10 6 = true → ∃ t, exec (.govPol h a) s = .next t ∧ t.ctxs = s.ctxs ∧
          (govTable t tb).kappa = some (BitVec.ofNat 64 (field r.1 0 8), BitVec.ofNat 16 (field r.1 8 2))) ∧
      (l.fabric = false → waitCount s.me.waits s.pos < latencyOf s' s.who l false → exec (.govPol h a) s = .next (s'.hold {})))

/-- XCVT (08 R167, R168): where the entry's format is the slot's, it leaves the converted lanes six issue cycles later; with X it also adds the sums of the squares
and of the squared errors, and the saturations, to the entry at issue.
It rests on the model's own choices of log 77. -/
def Claims.GovernedConversion : Prop :=
  ∀ (s : State) (h : Hdr) (d a b : BitVec 5) (f : BitVec 4) (tb : Nat), govTableOf s (s.procOf s.who) = some tb → (s.rs b).toNat < 4096 →
    let n := (s.rs b).toNat
    let g := govEntry s tb n
    let r := xcvtLanes g f (s.rv a) (s.rv d)
    let e := xcvtError f (s.rv a) r.1
    g.fmt = f →
    (Issues (.xcvt h d a b f false) h s → exec (.xcvt h d a b f false) s = .next (s.leaves (.xcvt h d a b f false) 6 [s.wV d (ofLaneList r.1)])) ∧
    (Issues (.xcvt h d a b f true) h s → ∃ t, exec (.xcvt h d a b f true) s = .next t ∧
      t.ctx s.who = (s.leaves (.xcvt h d a b f true) 6 [s.wV d (ofLaneList r.1)]).ctx s.who ∧ t.mem = s.mem ∧
      govEntry t tb n = { g with sx := addExact g.sx e.1, se := addExact g.se e.2, sat := satAdd64 g.sat r.2 } ∧
      ∀ m, m ≠ n → govEntry t tb m = govEntry s tb m)

/-- Governor slots and governed conversion: `Claims.GovernorResults`, `Claims.GovernedConversion`. -/
def Obligations.GovernorResults : Prop := Claims.GovernorResults ∧ Claims.GovernedConversion

/-- Tile reads (09 R176, R184, R185, R186; 06 R126): a tile whose done position has passed and whose operations have ended is read out with one rounding six issue
cycles later, and its status two later; MXPN rd, claim and rel each leave the whole grant word as it stands; claim records a claim on the panes that the context
lacks, for the grant of this cc, and rel a release at the boundary.
It rests on the model's own choices of log 53. -/
def Claims.TileReadResults : Prop :=
  ∀ (s : State) (h : Hdr) (z rnd : BitVec 3) (a b d : BitVec 5) (f mk : BitVec 4),
    let q := mainPane s (z.toNat / 2)
    let p := paneOf s s.who.core q
    let t := p.tile (z.toNat % 2)
    let maskFits := coverOf s s.who = 3 → mk.toNat < 4
    let granted := fun (k : Nat) => (s.me.panes.getD k none).isSome
    ((s.me.panes.getD (z.toNat / 2) none).isSome = true → t.done ≤ s.me.icyc.toNat → p.ops.all (fun o => o.fam == .mxld || o.tile != z.toNat % 2) = true →
      (Issues (.mxsvSt h z d) h s → exec (.mxsvSt h z d) s = .next (s.leaves (.mxsvSt h z d) 2 [s.wS d (BitVec.ofNat 64 (tileStatus t))])) ∧
      (Issues (.mxrd h z a b f rnd) h s → t.poison = false →
        (coverOf s s.who = 3 → tilesDiffer t ((paneOf s s.who.core (q / 2 * 2 + 1 - q % 2)).tile (z.toNat % 2)) = false) →
        wbits (s.rs b) 15 14 = 0 → wbits (s.rs b) 63 20 = 0 →
        exec (.mxrd h z a b f rnd) s = .next (s.leaves (.mxrd h z a b f rnd) 6 [s.wV a
          (readout t p.c f (if rnd = 4 then Rnd.st (wbits (s.rs b) 19 16 + 1) else Rnd.ofCode (rnd.setWidth 5)) (wbits (s.rs b) 13 0) (s.rv a))]))) ∧
    (Issues (.mxpnRd h d) h s → exec (.mxpnRd h d) s = .next (s.leaves (.mxpnRd h d) 2 [s.wS d (grantWord s.me)])) ∧
    (Issues (.mxpnClaim h d mk) h s → maskFits → ∃ u, exec (.mxpnClaim h d mk) s = .next u ∧
      (u.ctx s.who).flight = s.me.flight ++ [{ id := 0, writes := [s.wS d (grantWord s.me)], dist := 2 }] ∧
      (u.ctx s.who).panes = s.me.panes ∧ (u.ctx s.who).live = s.me.live ∧ u.mem = s.mem ∧
      (∀ k, k < 4 → (u.ctx s.who).claim.getLsbD k = (s.me.claim.getLsbD k || (mk.getLsbD k && !granted k))) ∧
      ((u.ctx s.who).claim ≠ s.me.claim → (s.cc, Ev.paneGrant s.who.core) ∈ u.agenda)) ∧
    (Issues (.mxpnRel h d mk) h s → maskFits →
      (∀ k, k < 4 → mk.getLsbD k = true → granted k = true → (paneOf s s.who.core (mainPane s k)).ops = [] ∧
        (paneOf s s.who.core (mainPane s k)).t0.done ≤ s.me.icyc.toNat ∧ (paneOf s s.who.core (mainPane s k)).t1.done ≤ s.me.icyc.toNat) →
      ∃ u, exec (.mxpnRel h d mk) s = .next u ∧
        (u.ctx s.who).flight = s.me.flight ++ [{ id := 0, writes := [s.wS d (grantWord s.me)], dist := 2 }] ∧
        (u.ctx s.who).panes = s.me.panes ∧ (u.ctx s.who).live = s.me.live ∧ u.mem = s.mem ∧
        ∀ k, k < 4 → (u.ctx s.who).rel.getLsbD k = (s.me.rel.getLsbD k || (mk.getLsbD k && granted k)))

/-- The grant word (09 R186): %panes in [3:0], the claims that wait in [7:4], and of each logical pane granted its physical pane in two bits from bit 8 on. -/
def Claims.GrantWords : Prop :=
  ∀ (c : Ctx) (k : Nat), k < 4 →
    let w := grantWord c
    w.getLsbD k = (c.panes.getD k none).isSome ∧ w.getLsbD (4 + k) = c.claim.getLsbD k ∧
    (∀ q, q < 4 → c.panes.getD k none = some q → (∀ j r, j < 4 → c.panes.getD j none = some r → r < 4) →
      w.toNat / 2 ^ (8 + 2 * k) % 4 = q)

/-- Tile reads and pane grants: `Claims.TileReadResults`, `Claims.GrantWords`. -/
def Obligations.TileReadResults : Prop := Claims.TileReadResults ∧ Claims.GrantWords

/-- Operations given to panes (09 R174, R175, R178, R181, R182, R185): where a slot's checks pass and its fetch, if it has one, resolves, it goes on with one operation
of its family more at the end of the queue of its pane; MXSC leaves a landing entry for its panes' combined scales.
It rests on the model's own choices of log 12, 53, 75. -/
def Obligations.PaneOperationsQueue : Prop :=
  ∀ (s : State) (h : Hdr) (z : BitVec 3) (a b : BitVec 5) (f pnm : BitVec 4) (lc : BitVec 3) (gw sp : BitVec 2) (qb rv zs tr : Bool),
    let queued := fun (i : Instr) (p : Nat) (ok : PaneOp → Bool) =>
      ∃ t, exec i s = .next t ∧ t.verdict = s.verdict ∧ (t.ctx s.who).live = s.me.live ∧
        ((paneOf t s.who.core (mainPane s p)).ops.getLast?.map (fun o => o.who == s.who && ok o)) = some true
    let zn := z.toNat
    let pn := paneOf s s.who.core (mainPane s (zn / 2))
    let plan := fun (i : Instr) (nr nc : Nat) (tr : Bool) => planFetch (s.noted i) (s.rs a) (if i matches .mxld .. then s.rs (a + 1) else s.rs b) f nr nc tr
    let fetches := fun (i : Instr) (nr nc : Nat) (tr : Bool) => ∃ q dsc seg s1, plan i nr nc tr = .go q dsc seg none s1 ∧
      ∃ segs s2, resolvePieces { s1 with ids := s1.ids + 1 } s.who .engRd dsc.space (tilePieces dsc q) = .ok (segs, s2) ∧
        segs.any (fun x => ownUnknown s2 s.who x.1 x.2) = false
    ((s.me.panes.getD (zn / 2) none).isSome = true → mainPane s (zn / 2) < 4 →
      (let sh := gangShape (bankPlan s zn qb f).2
       let kin := if rv then sh.2 else sh.1
       let w := if rv then sh.1 else sh.2
       Fmt.gangOf f ≤ (bankPlan s zn qb f).2 → fmtKind f = fmtKind (bankPlan s zn qb f).1 →
        (let m := wbits (s.rs b) 48 40 + 1
         Issues (.mxa h z a b f qb rv zs) h s → wbits (s.rs b) 63 52 = 0 → m * w ≤ 9216 →
          (zs = true ∨ ((pn.tile (zn % 2)).poison = false ∧ (pn.tile (zn % 2)).iRows = m ∧ (pn.tile (zn % 2)).iWidth = w ∧ (pn.tile (zn % 2)).iKind = fmtKind f)) →
          fetches (.mxa h z a b f qb rv zs) m kin false →
          queued (.mxa h z a b f qb rv zs) (zn / 2) (fun o => o.fam == .mxa && o.tile == zn % 2 && o.rows == m && o.width == w && o.kin == kin && o.req.isSome)) ∧
        (Issues (.mxav h z a f qb rv zs) h s → ¬(128 < kin ∧ a = 31) →
          (zs = true ∨ ((pn.tile (zn % 2)).poison = false ∧ (pn.tile (zn % 2)).iRows = 1 ∧ (pn.tile (zn % 2)).iWidth = w ∧ (pn.tile (zn % 2)).iKind = fmtKind f)) →
          queued (.mxav h z a f qb rv zs) (zn / 2) (fun o => o.fam == .mxa && o.tile == zn % 2 && o.rows == 1 && o.width == w && o.kin == kin && o.req.isNone))) ∧
      (let e := wbits (s.rs b) 59 52 + 1
       let m := wbits (s.rs b) 48 40 + 1
       Issues (.mxrk h z a b f zs) h s → wbits (s.rs b) 63 60 = 0 → e ≤ 192 → m * e ≤ 9216 →
        (zs = true ∨ ((pn.tile (zn % 2)).poison = false ∧ (pn.tile (zn % 2)).iRows = m ∧ (pn.tile (zn % 2)).iWidth = e ∧ (pn.tile (zn % 2)).iKind = .rank)) →
        fetches (.mxrk h z a b f zs) m e false →
        queued (.mxrk h z a b f zs) (zn / 2) (fun o => o.fam == .mxrk && o.tile == zn % 2 && o.rows == m && o.width == e)) ∧
      ((pn.tile (zn % 2)).done ≤ s.me.icyc.toNat → pn.ops.all (fun o => o.fam == .mxld || o.tile != zn % 2) = true → (s.rs a).toNat % 64 = 0 →
        (∀ segs s', Issues (.mxsvSave h z a b) h s → wbits (s.rs b) 63 2 = 0 → (pn.tile (zn % 2)).poison = false →
          resolveRange (s.noted (.mxsvSave h z a b)) s.who .store (Space.ofCode ((s.rs b).extractLsb' 0 2))
            ((pn.tile (zn % 2)).rows * (pn.tile (zn % 2)).width / 16 + 3) (s.rs a) (64 + 8 * ((pn.tile (zn % 2)).rows * (pn.tile (zn % 2)).width)) = .ok (segs, s') →
          queued (.mxsvSave h z a b) (zn / 2) (fun o => o.fam == .save && o.tile == zn % 2)) ∧
        (∀ l s1 segs s2, Issues (.mxsvLd h z a b) h s → wbits (s.rs b) 63 7 = 0 → wbits (s.rs b) 3 2 = 0 →
          let space := Space.ofCode ((s.rs b).extractLsb' 0 2)
          resolve (s.noted (.mxsvLd h z a b)) s.who .engRd space (s.rs a) 64 = .ok (l, s1) → ownUnknown s1 s.who l 64 = false → l.fabric = false →
          let hd := (fetchSegs s1 s.who [(l, 64)]).1
          let n := if tileImageBad hd then 0 else bits (field hd 0 8) 9 0 * bits (field hd 0 8) 17 10
          resolveRange s1 s.who .engRd space (n / 16 + 3) (s.rs a) (64 + 8 * n) = .ok (segs, s2) →
          segs.any (fun x => ownUnknown s2 s.who x.1 x.2 || x.1.fabric) = false →
          queued (.mxsvLd h z a b) (zn / 2) (fun o => o.fam == .restore && o.tile == zn % 2 && o.occ == 145)))) ∧
    (let g := if gw = 0 then Fmt.gangOf f else gw.toNat + 1
     Issues (.mxld h pnm a f lc gw qb tr) h s → wbits (s.rs (a + 1)) 63 40 = 0 → (∀ p ∈ maskPanes pnm, (s.me.panes.getD p none).isSome = true ∧ mainPane s p < 4) →
      fetches (.mxld h pnm a f lc gw qb tr) (gangShape g).1 (gangShape g).2 tr → ∀ p ∈ maskPanes pnm,
        queued (.mxld h pnm a f lc gw qb tr) p (fun o => o.fam == .mxld && o.bank == qb.toNat && o.fmt == f && o.gang == g)) ∧
    (∀ segs s', Issues (.mxsc h pnm a lc sp) h s → (∀ p ∈ maskPanes pnm, (s.me.panes.getD p none).isSome = true) →
      resolveAccess (s.noted (.mxsc h pnm a lc sp)) .load (Space.ofCode sp) (s.rs a) 8 8 = .ok (segs, s') →
      segs.any (fun x => ownUnknown s' s.who x.1 x.2) = false →
      ∃ t e, exec (.mxsc h pnm a lc sp) s = .next t ∧ (t.ctx s.who).flight = s.me.flight ++ [e] ∧ e.kind = .load ∧
        e.shape = .scale ((maskPanes pnm).flatMap (physPanes s s.who)) ∧ e.dist = max (s.regs.c.lc.get lc.toFin).toNat 1)

/-! ## System families -/

/-- TASK (02 R50; 09 R187, R191, R192, R194; 14 R250, R251; 17 R408; 22 R369): a reserved bit, or a CLU on a scribe, traps with 0x02; an ordered launch waits for the earlier tasks of its queue, without a limit until each has exceeded its budget; then descriptor and image are read (awaited at a fabric address); their faults, reserved fields, failed checks and a missing governor table trap with their causes; a refused one leaves its reason, with an event for reason 1, and starts nothing;
any other starts the task, one of an image without wells always; the status lands eight issue cycles later. -/
def Claims.TaskResults : Prop :=
  ∀ (s : State) (h : Hdr) (d a : BitVec 5), Issues (.task h d a) h s →
    let u := s.noted (.task h d a)
    let w := s.rs a
    let cl := match s.who with
      | .cp q => 16 * q + w.toNat % 16
      | x => x.cluster?.getD 0
    let ends := fun (t : State) => exec (.task h d a) s = .next t
    (w.getLsbD 5 = true ∨ isCp s.who = false ∧ w.toNat % 16 ≠ 0 → ends (u.raise (u.slotTrap 0x02 0 w))) ∧
    (w.getLsbD 5 = false → isCp s.who = true ∨ w.toNat % 16 = 0 →
      (∀ k ks, w.getLsbD 4 = true → earlierTasks s s.who = k :: ks →
        ends (u.hold { limit := if (k :: ks).all (fun t => t.expired) then some 0 else none, cause := 0x38
                       det := { d0 := u.slotDet 0, d1 := k.taskid.setWidth 64 } })) ∧
      (w.getLsbD 4 = false ∨ earlierTasks s s.who = [] →
        (∀ f, readImage u s.who (w.toNat / 64 * 64) 64 = .error f →
          (f.cause ≠ 0 → ends (u.raise (faultRec u f))) ∧ (f.cause = 0 → ends (u.hold { asks := some (f.d1.toNat, f.d2.toNat) }))) ∧
        (∀ bs s1, readImage u s.who (w.toNat / 64 * 64) 64 = .ok (bs, s1) →
          (∀ x, descBad bs = some x → ends (s1.raise (s1.slotTrap 0x02 0 (BitVec.ofNat 64 x)))) ∧
          (descBad bs = none →
            (∀ r, readProgram s1 s1.who (field bs 0 8) = .error r →
              (r.cause ≠ 0 → ends (s1.raise r)) ∧ (r.cause = 0 → ends (s1.hold { asks := some (r.det.d1.toNat, r.det.d2.toNat) }))) ∧
            (∀ p s2, readProgram s1 s1.who (field bs 0 8) = .ok (p, s2) →
              let core := 8 * cl + field bs 8 1
              let tid := field bs 0x14 4
              let lands := fun (t : State) (x : Word) => ends (t.result 8 [t.wS d x])
              (∀ x, taskKey s2 s1.who bs = .inr x → ends (s1.raise (s2.slotTrap 0x63 0 (BitVec.ofNat 64 x)))) ∧
              (∀ key, taskKey s2 s1.who bs = .inl key →
                (∀ r, decideLaunch s2 cl core key p = .inr r →
                  (r ≠ 1 → lands s2 (taskStatus false r 0 0 tid)) ∧
                  (r = 1 → lands (s2.event (.scribe cl) s1.who 0x60 { d1 := BitVec.ofNat 64 tid, d2 := BitVec.ofNat 64 key }) (taskStatus false 1 0 0 tid))) ∧
                (∀ i v picks, decideLaunch s2 cl core key p = .inl (i, v, picks) →
                  (p.wells = [] → ∃ s3, startTask s2 s1.who (.scribe cl) cl core bs p v picks = .ok s3) ∧
                  (∀ s3, startTask s2 s1.who (.scribe cl) cl core bs p v picks = .ok s3 → lands s3 (taskStatus true 0 i v.panes tid)) ∧
                  (∀ r, startTask s2 s1.who (.scribe cl) cl core bs p v picks = .error r → r.cause ≠ 0 → ends (s1.raise r)))))))))

/-- Its status word (09 R194): started in bit 0, the reason in [3:1], the variant in [7:4], the logical panes in [10:8], TASKID in [47:16], zero elsewhere; a launch starts the task exactly when its reason is 0. -/
def Claims.TaskStatusWords : Prop :=
  (∀ (st : Bool) (r v n tid : Nat), r < 8 → v < 16 → n < 8 → tid < 2 ^ 32 →
    let w := taskStatus st r v n tid
    w.getLsbD 0 = st ∧ wbits w 3 1 = r ∧ wbits w 7 4 = v ∧ wbits w 10 8 = n ∧ wbits w 15 11 = 0 ∧ wbits w 47 16 = tid ∧ wbits w 63 48 = 0) ∧
  (∀ (s : State) (a acting : Agent) (cl : Nat) (d : List Byte) (x : Word) (t : State), launch s a acting cl d = .ok (x, t) →
    ∃ st r v n, x = taskStatus st r v n (field d 0x14 4) ∧ r ≤ 5 ∧ v < 16 ∧ n ≤ 4 ∧ st = decide (r = 0) ∧ (st = false → t.tasks = s.tasks))

/-- The members of a started task (02 R51; 06 R116; 09 R192, R193; 14 R251), in the state that the launch leaves: s1 is ARG and s2 the member's index, other registers are as after reset, %seed is SEED, each %lc its part of LANDING, %rot 0, without loop level or return address; it begins at the entry bundle, its checkpoint, with counters 0, ready 16 cc later. Member 0 holds the panes picked, one for each logical pane of the variant, any other member none;
each picked physical pane, under coverage level 3 both of its pair, is fresh and owned by it; no pane of the core stays reserved.
It rests on the model's own choices of log 20. -/
def Claims.MemberStart : Prop :=
  ∀ (s t : State) (launcher : Agent) (cl core : Nat) (d : List Byte) (p : Program) (v : Variant) (picks : List Nat),
    startTask s launcher (.scribe cl) cl core d p v picks = .ok t →
      (∀ i k, ((freeCtxs s core).take (field p.head 7 1))[i]? = some k →
        let c := t.ctx (.ctx core k)
        let entry := BitVec.ofNat 64 (p.addr + v.entry)
        (∀ r, c.live.getS r = if r = 1 then BitVec.ofNat 64 (field d 0x20 8) else if r = 2 then BitVec.ofNat 64 i else 0) ∧ (∀ r, c.live.getV r = 0) ∧
        (∀ r, c.live.getF r = decide (r = 0)) ∧ (∀ r, r ≠ 0 → c.live.getM r = 0) ∧ c.live.c.seed = BitVec.ofNat 64 (field d 0x28 8) ∧
        (∀ j : Fin 8, (c.live.c.lc.get j).toNat = field p.head 0x24 12 / 2 ^ (12 * j.val) % 2 ^ 12) ∧ c.live.c.rot = 0 ∧ c.live.c.loops = [] ∧ c.live.c.rets = [] ∧
        c.live.c.pc = entry ∧ c.ckpt = c.live ∧ c.ckBund = entry.setWidth 57 ∧ c.icyc = 0 ∧ c.frz = 0 ∧ c.held = [] ∧ c.task = some s.ids ∧ c.index = i ∧
        (i ≠ 0 → ∀ q, q < 4 → c.panes.getD q none = none) ∧
        (i = 0 → panePicks s core (field p.head 6 1) v.panes = some picks →
          (∀ q, q < 4 → c.panes.getD q none = picks[q]?) ∧
          (∀ q n, picks[q]? = some n → paneOf t core n = freshPane k q ∧ (field p.head 6 1 = 3 → paneOf t core (n + 1) = freshPane k q)))) ∧
      (∀ q, q < 4 → (paneOf t core q).reserved = false) ∧ (s.cc + 16, Ev.taskReady s.ids) ∈ t.agenda

/-- DSPJ (12 R244; 04 R70; 17 R408; 22 R369): an address that does not resolve traps; the slot freezes until its table is read, for its line's typical latency (log 7), or has come from a fabric address; a poisoned table, a reserved field, disordered buckets, a count beyond the top bucket and a misaligned target trap with their causes; a count of 0 leaves 0 and goes on, a count that a bucket takes leaves the bucket and goes on at its target after four empty issue cycles. No outcome changes memory but for what a core that owns the table's line returns to its home. -/
def Claims.DispatchResults : Prop :=
  ∀ (s : State) (h : Hdr) (d a b : BitVec 5), Issues (.dspj h d a b) h s →
    let u := s.noted (.dspj h d a b)
    let n := s.rs b
    let ends := fun (v t : State) => exec (.dspj h d a b) s = .next t ∧ t.mem = v.mem
    let takes := fun (v : State) (bs : List Byte) =>
      let es := dispatchEntries bs
      (∀ i, i < 8 → field bs (16 * i + 4) 4 ≠ 0 → (∀ j, j < i → field bs (16 * j + 4) 4 = 0) →
        ends v (v.raise (v.slotTrap 0x02 0 (BitVec.ofNat 64 (field bs (16 * i + 4) 4))))) ∧
      ((∀ i, i < 8 → field bs (16 * i + 4) 4 = 0) →
        (dispatchOrdered 0 es = false ∨ (n ≠ 0 ∧ ∀ e ∈ es, e.1 < n.toNat) →
          ends v (v.raise (v.slotTrap 0x62 0 n (BitVec.ofNat 64 (es.foldl (fun m e => Nat.max m e.1) 0))))) ∧
        (dispatchOrdered 0 es = true →
          (n = 0 → ∃ t, ends v t ∧ t.bnxt = v.bnxt ∧ (t.ctx v.who).empty = v.me.empty ∧
            (t.ctx v.who).flight = v.me.flight ++ [{ id := 0, writes := [v.wS d 0], dist := 1 }]) ∧
          (∀ e, n ≠ 0 → es.find? (fun e => e.1 != 0 && decide (n.toNat ≤ e.1)) = some e →
            (e.2 % 4 ≠ 0 → ends v (v.raise (v.slotTrap 0x24 0 (BitVec.ofNat 64 e.2)))) ∧
            (e.2 % 4 = 0 → ∃ t, ends v t ∧ t.bnxt = BitVec.ofNat 64 e.2 ∧ (t.ctx v.who).empty = 4 ∧
              (t.ctx v.who).flight = v.me.flight ++ [{ id := 0, writes := [v.wS d (BitVec.ofNat 64 e.1)], dist := 1 }]))))
    (∀ f, resolveAccess u .load .m (s.rs a) 128 128 = .error f → ends s (u.raise (faultRec u f))) ∧
    (∀ l s', resolveAccess u .load .m (s.rs a) 128 128 = .ok ([(l, 128)], s') → s'.mem = s.mem ∧
      (l.fabric = true →
        (∀ f, farRead s' s'.who .slot .load (s.rs a) l 128 = .error f →
          (f.cause ≠ 0 → ends s (s'.raise (faultRec s' f))) ∧ (f.cause = 0 → ends s (s'.hold { asks := some (f.d1.toNat, f.d2.toNat) }))) ∧
        (∀ bs, farRead s' s'.who .slot .load (s.rs a) l 128 = .ok bs → takes s' bs)) ∧
      (l.fabric = false →
        let r := readSegs s' s'.who [(l, 128)]
        (waitCount s.me.waits s.pos < latencyOf s' s'.who l false → ends s (s'.hold {})) ∧
        (latencyOf s' s'.who l false ≤ waitCount s.me.waits s.pos →
          (r.2.1 = true → ends r.2.2.2 (r.2.2.2.raise (r.2.2.2.slotTrap 0x51 0 (BitVec.ofNat 64 (Loc.addr s' l)) (s.rs a)))) ∧
          (r.2.1 = false → takes r.2.2.2 r.1)) ∧
        (s.who.onCore = false → l.coded = none → (∀ c, ((s'.core c).l1.get {} (lineKey l)).owned = false) → r.2.2.2.mem = s.mem)))

/-- Task launch and dispatch jumps: `Claims.TaskResults`, `Claims.TaskStatusWords`, `Claims.MemberStart`, `Claims.DispatchResults`. -/
def Obligations.TaskResults : Prop := Claims.TaskResults ∧ Claims.TaskStatusWords ∧ Claims.MemberStart ∧ Claims.DispatchResults

/-- CTX (15 R289): rd leaves an item of the target; wr of a stopped target writes it, and no other agent's registers and no memory; of a target that is not stopped it traps
with 0x78.
It rests on the model's own choices of log 20, 57. -/
def Claims.ContextAccessResults : Prop :=
  ∀ (s : State) (h : Hdr) (d a b : BitVec 5) (t : Agent), targetOf s (s.rs a) = some t → (s.rs b).toNat < 2 ^ 16 →
    let f := wbits (s.rs b) 15 12
    let n := wbits (s.rs b) 11 0
    ctxIndexOk f n = true →
    (Issues (.ctxRd h d a b) h s → exec (.ctxRd h d a b) s =
      .next (s.leaves (.ctxRd h d a b) (if isCp s.who then 16 else 4) [s.wS d (ctxItem s t f n)])) ∧
    (Issues (.ctxWr h d a b) h s → f ≠ 7 → (f = 4 → srWriteDenied false (BitVec.ofNat 10 n) = false) → ctxValueOk f n (s.rs d) = true →
      ((s.ctx t).st = .stopped → exec (.ctxWr h d a b) s = .next ((s.noted (.ctxWr h d a b)).setCtx t (putCtxItem (s.ctx t) f n (s.rs d)))) ∧
      ((s.ctx t).st ≠ .stopped → exec (.ctxWr h d a b) s =
        .next ((s.noted (.ctxWr h d a b)).raise ((s.noted (.ctxWr h d a b)).slotTrap 0x78 0 (s.rs a))))) ∧
    (f = 0 → n ≠ 0 → (putCtxItem (s.ctx t) f n (s.rs d)).live.getS (BitVec.ofNat 5 n) = s.rs d)

/-- CSV (15 R290; 20 R351; 22 R374, R375, R376, R377, R378): save waits until all that the context has outstanding is done, without a limit (log 60), writes the L1 of
its core back, lands the scales that have arrived (log 60), and writes the image of the stopped context at its address and marks it saved there; free makes a
stopped context free, its registers then read 0 (the model's choice, log 20); end removes a saved member; ld restores a saved member's image into a free context,
its heads and handles bound anew (log 60).
It rests on the model's own choices of log 33, 58. -/
def Claims.ContextSaveResults : Prop :=
  ∀ (s : State) (h : Hdr) (a b : BitVec 5) (t : Agent), targetOf s (s.rs a) = some t →
    ((s.rs b).toNat % 4096 = 0 →
      (Issues (.csvSave h a b) h s → (s.ctx t).st = .stopped →
        (saveReady s t = false → exec (.csvSave h a b) s = .next ((s.noted (.csvSave h a b)).hold {})) ∧
        (saveReady s t = true → ∀ s1 s2,
          s1 = landErrors ((settleScales (s.noted (.csvSave h a b)) t).writeBackAll t.core t) t (fun e => e.kind == .load && e.arrived && e.fault.isSome) →
          putImage s1 (s.rs b) (contextImage s1 t) = .ok s2 →
          ∃ u, exec (.csvSave h a b) s = .next u ∧ (u.ctx t).savedAt = some (s.rs b) ∧ (u.ctx t).st = (s2.ctx t).st ∧ u.mem = s2.mem)) ∧
      (Issues (.csvEnd h b) h s → ∀ m, memberAt s (s.rs b) = some m →
        ∃ u, exec (.csvEnd h b) s = .next u ∧ u.saved = s.saved.erase m ∧ u.mem = s.mem) ∧
      (Issues (.csvLd h a b) h s → (s.ctx t).st = .free → (s.ctx t).task = none →
        ∀ m i s1 s2, restorable s (s.rs b) = some m →
          loadImage (s.noted (.csvLd h a b)) (s.rs b) = .ok (i, s1) → restoreImage s1 t m i (s.rs a) = .ok s2 →
          exec (.csvLd h a b) s = .next s2)) ∧
    (Issues (.csvFree h a) h s → (s.ctx t).st = .stopped → ∃ u, exec (.csvFree h a) s = .next u ∧ (u.ctx t).st = .free ∧ (u.ctx t).task = none ∧
      (u.ctx t).live.s = Vector.replicate 32 0)

/-- Reading, writing, saving and restoring contexts: `Claims.ContextAccessResults`, `Claims.ContextSaveResults`. -/
def Obligations.ContextResults : Prop := Claims.ContextAccessResults ∧ Claims.ContextSaveResults

/-- Translation buffers (15 R292; 22 R387): TLBI waits for the walks that had begun (log 58) and then forgets exactly the translations that it names, on its die or,
with PKG, on every die, in the last-level TLB and in the cores' own, and the pointer entries that their walks read. -/
def Claims.InvalidationResults : Prop :=
  ∀ (s : State) (h : Hdr) (a b : BitVec 5) (pkg : Bool) (n : Nat), n < 4 → s.who.die < 4 →
    let waits := (tlbiDies s pkg).any (walkRuns s (s.cc - waitCount s.me.waits s.pos))
    let named := fun (d : Nat) => pkg || decide (d = s.who.die)
    let forgets := fun (i : Instr) (p : TlbEntry → Bool) (q : WalkNode → Bool) => Issues i h s →
      (waits = true → exec i s = .next ((s.noted i).hold {})) ∧
      (waits = false → ∃ t, exec i s = .next t ∧ t.ctxs = s.ctxs ∧ t.mem = s.mem ∧
        (t.die n).tlb = (if named n then (s.die n).tlb.filter (fun e => !p e) else (s.die n).tlb) ∧
        (t.die n).wcache = (if named n then (s.die n).wcache.filter (fun w => !q w) else (s.die n).wcache) ∧
        ∀ c, c / 128 = n → (t.core c).dtlb = (if named n then (s.core c).dtlb.filter (fun e => !p e) else (s.core c).dtlb) ∧
          (t.core c).ftlb = (if named n then (s.core c).ftlb.filter (fun e => !p e) else (s.core c).ftlb))
    forgets (.tlbiAll h pkg) (fun _ => true) (fun _ => true) ∧
    ((s.rs a).toNat < 32 →
      forgets (.tlbiVf h a pkg) (fun e => decide (e.vf = (s.rs a).toNat)) (fun w => decide (w.vf = (s.rs a).toNat)) ∧
      forgets (.tlbiPg h a b pkg) (fun e => decide (e.vf = (s.rs a).toNat ∧ e.page = (s.rs b).toNat % 2 ^ 57 / 2 ^ e.size))
        (fun w => decide (w.vf = (s.rs a).toNat ∧ w.path = (s.rs b).toNat % 2 ^ 57 / 2 ^ (55 - 13 * w.level))))

/-- Monitors (15 R293; 23 R405): cfg sets a counter's configuration and clears it, clr clears it, rd leaves its value or a bin four issue cycles later.
It rests on the model's own choices of log 31, 78. -/
def Claims.MonitorResults : Prop :=
  ∀ (s : State) (h : Hdr) (d a b : BitVec 5) (m : MonSel), monSel s (s.rs a) = some m →
    (Issues (.monCfg h a b) h s → (s.rs b).toNat < 2 ^ 16 → 1 ≤ (s.rs b).toNat % 256 → (s.rs b).toNat % 256 ≤ 7 →
      ∃ t, exec (.monCfg h a b) s = .next t ∧ counterAt t m = { cfg := s.rs b } ∧ t.ctxs = s.ctxs ∧ t.mem = s.mem) ∧
    (Issues (.monClr h a) h s → ∃ t, exec (.monClr h a) s = .next t ∧ counterAt t m = { cfg := (counterAt s m).cfg } ∧ t.ctxs = s.ctxs ∧
      t.mem = s.mem) ∧
    (Issues (.monRd h d a) h s → exec (.monRd h d a) s = .next (s.leaves (.monRd h d a) 4
      [s.wS d ((if bits (counterAt s m).cfg.toNat 9 8 = 3 then (counterAt s m).bins.getD (wbits (s.rs a) 11 8) 0 else (counterAt s m).value).setWidth 64)]))

/-- Translation invalidation and monitors: `Claims.InvalidationResults`, `Claims.MonitorResults`. -/
def Obligations.InvalidationResults : Prop := Claims.InvalidationResults ∧ Claims.MonitorResults

/-- World switches and debugging (15 R294, R295; 22 R388; 23 R405): WSW out freezes, for the model's figure (log 7) and until every context of the virtual function in
reach has stopped (log 58), each of which it asks to stop; then it writes the monitor image and drops the counters that it holds; WSW in
leaves every context as it is; DBG step resumes a stopped context for one boundary, stop asks a running one to stop, which one that waits for a position does in this cc (log 69), brk sets a breakpoint. -/
def Obligations.SwitchAndDebugResults : Prop :=
  ∀ (s : State) (h : Hdr) (a b : BitVec 5) (t : Agent),
    ((s.rs a).toNat < 32 →
      (Issues (.wswOut h a b) h s → (waitCount s.me.waits s.pos < worldSwitchTime ∨ liveReached s s.who (s.rs a).toNat ≠ []) →
        exec (.wswOut h a b) s = .next ((s.noted (.wswOut h a b)).hold { stops := some (s.rs a).toNat })) ∧
      (t ∈ reached s.who → live s t = true → s.vfOf t = (s.rs a).toNat → (s.ctx t).stopReq = none →
        ((stopFunction s s.who (s.rs a).toNat).ctx t).stopReq = some (0x74, BitVec.ofNat 64 (s.rs a).toNat)) ∧
      (∀ s1, Issues (.wswOut h a b) h s → worldSwitchTime ≤ waitCount s.me.waits s.pos → liveReached s s.who (s.rs a).toNat = [] →
        putImage (s.noted (.wswOut h a b)) (s.rs b) (monitorImage s s.who.die (s.rs a).toNat) = .ok s1 →
        ∃ u, exec (.wswOut h a b) s = .next u ∧ u.mem = s1.mem ∧
          ∀ k, k < 16 → countsFor ((s1.die s.who.die).mon.getD k {}).cfg (s.rs a).toNat = true → (u.die s.who.die).mon.getD k {} = {}) ∧
      (worldSwitchTime ≤ waitCount s.me.waits s.pos → ∀ bs s1, Issues (.wswIn h a b) h s → readImage (s.noted (.wswIn h a b)) s.who (s.rs b).toNat 8192 = .ok (bs, s1) →
        ∃ u, exec (.wswIn h a b) s = .next u ∧ u.ctxs = s.ctxs)) ∧
    (targetOf s (s.rs a) = some t →
      (Issues (.dbgStep h a) h s → (s.ctx t).st = .stopped → ∃ u, exec (.dbgStep h a) s = .next u ∧ (u.ctx t).st = .waiting ∧ (u.ctx t).step = true ∧
        (u.ctx t).live = (s.ctx t).live ∧ u.mem = s.mem) ∧
      (Issues (.dbgStop h a) h s → running s t = true → ∃ u, exec (.dbgStop h a) s = .next u ∧ (u.ctx t).st = (s.ctx t).st ∧
        (u.ctx t).stopReq = ((s.ctx t).stopReq.or (some (0x72, 0x2000))) ∧
        ((s.ctx t).st = .waiting → (s.ctx t).pendHeld = none → (s.ctx t).pend = [] → (s.cc, Ev.boundaryStop t) ∈ u.agenda) ∧ (u.ctx t).live = (s.ctx t).live ∧ u.mem = s.mem)) ∧
    (targetOf s (s.rs a) 11 = some t → Issues (.dbgBrk h a b) h s → (s.rs b).getLsbD 1 = false → wbits (s.rs b) 63 57 = 0 →
      ∃ u, exec (.dbgBrk h a b) s = .next u ∧ (u.ctx t).brk.getD (wbits (s.rs a) 10 10) 0 = s.rs b ∧ (u.ctx t).live = (s.ctx t).live ∧ u.mem = s.mem)

/-- Configuration registers (15 R296): a write of a value that the register takes is what its next read gives, for the registers of a core, of a stopped context, of the
die and of the package; a read leaves the register's value four issue cycles later.
It rests on the model's own choices of log 4, 57, 59. -/
def Obligations.ConfigurationResults : Prop :=
  ∀ (s : State) (h : Hdr) (d a b : BitVec 5) (r : CfgReg) (t : Agent), cfgReg (s.rs b).toNat = some r → cfgDenied s r = false →
    (if r.targeted then targetOf s (s.rs a) = some t else t = s.who) →
    (Issues (.cfgRd h d a b) h s → ∃ u, exec (.cfgRd h d a b) s = .next u ∧
      (u.ctx s.who).flight = s.me.flight ++ [{ id := 0, writes := [s.wS d (cfgValue s r t)], dist := 4 }] ∧ u.mem = s.mem) ∧
    (Issues (.cfgWr h d a b) h s → cfgValueOk r (s.rs d) = true → r ∈ [CfgReg.share, .owner, .padwin, .vaultwin, .metaName, .pkgid] ∨ (∃ g, r = .group g) →
      (r ∈ [CfgReg.owner, .padwin, .vaultwin] → (s.ctx t).st = .stopped) →
      ∃ u, exec (.cfgWr h d a b) s = .next u ∧ cfgValue u r t = s.rs d ∧ (u.ctx t).live = (s.ctx t).live ∧ u.mem = s.mem)

/-! ## Steps without an encoding -/

/-- Changes of the governor outside a slot: an assigned table starts with no entry and no policy of its own, a released one is gone; a set takes the fields
of its word, clears the accumulators and counts a revision when the encoding changes, a clr clears them; GSTEP decides every armed entry of its range from
the accumulators as they stood, clears the layers that it used, and its result is the number of formats that it changed (09 R188, R190; 11 R207, R209).
It rests on the model's own choices of log 50, 80. -/
def Claims.GovernorEventResults : Prop :=
  ∀ (s : State) (tb p x id : Nat) (w : Word),
    (tb < 32 → p < 1024 →
      (∃ t, exec .govtabAssign (s.given (.govtabAssign tb p)) = .next t ∧ govTable t tb = { proc := some p } ∧ govTableOf t p = some tb ∧
        t.ctxs = s.ctxs ∧ t.mem = s.mem) ∧
      ((govTable s tb).proc = some p → ∃ t, exec .govtabRelease (s.given (.govtabRelease tb p)) = .next t ∧ govTable t tb = {} ∧
        (∀ k, k ≠ tb → govTable t k = govTable s k) ∧ t.ctxs = s.ctxs ∧ t.mem = s.mem)) ∧
    (s.govQ.find? (fun e => e.1 == id) = some (id, .set tb x w) → ∃ t, exec .govEffect (s.given (.govEffect id)) = .next t ∧
      (let g := govEntry s tb x
       let u := govEntry t tb x
       u.fmt = w.extractLsb' 0 4 ∧ u.floor = w.extractLsb' 4 4 ∧ u.ceil = w.extractLsb' 8 4 ∧ u.bs32 = w.getLsbD 12 ∧ u.armed = w.getLsbD 13 ∧
       u.rnd = w.extractLsb' 14 5 ∧ u.sx = 0 ∧ u.se = 0 ∧ u.sat = 0 ∧ u.hc = 0 ∧
       u.rev = if u.fmt = g.fmt ∧ u.bs32 = g.bs32 then g.rev else g.rev + 1) ∧
      (∀ k m, ¬(k = tb ∧ m = x) → govEntry t k m = govEntry s k m) ∧ t.ctxs = s.ctxs ∧ t.mem = s.mem) ∧
    (s.govQ.find? (fun e => e.1 == id) = some (id, .clr tb x) → ∃ t, exec .govEffect (s.given (.govEffect id)) = .next t ∧
      govEntry t tb x = { govEntry s tb x with sx := 0, se := 0, sat := 0, hc := 0 } ∧
      (∀ k m, ¬(k = tb ∧ m = x) → govEntry t k m = govEntry s k m) ∧ t.ctxs = s.ctxs ∧ t.mem = s.mem) ∧
    (∀ lo cnt a ref kappa hyst, s.govQ.find? (fun e => e.1 == id) = some (id, .step tb lo cnt a ref) → (govTable s tb).kappa = some (kappa, hyst) →
      let hit := fun (m : Nat) => decide (lo ≤ m ∧ m < lo + cnt) && (govEntry s tb m).armed
      let new := fun (m : Nat) => stepEntry kappa hyst ((govTable s tb).layers.get {} (m / 4)) (govEntry s tb m)
      let changed := ((List.range cnt).filter (fun i => hit (lo + i) && (new (lo + i)).2)).length
      ∃ t, exec .gstepEffect (s.given (.gstepEffect id)) = .next t ∧
        (∀ m, govEntry t tb m = if hit m then (new m).1 else govEntry s tb m) ∧
        (∀ k, (govTable t tb).layers.get {} k =
          if (List.range cnt).any (fun i => hit (lo + i) && (lo + i) / 4 == k) then {} else (govTable s tb).layers.get {} k) ∧
        (∀ e ∈ (s.ctx a).flight, ∀ r y, e.id = ref → e.kind = .fixed → e.arrived = false → e.writes = [.s r y] →
          { e with arrived := true, writes := [.s r (BitVec.ofNat 64 changed)] } ∈ (t.ctx a).flight) ∧
        (t.ctx a).live = (s.ctx a).live ∧ t.mem = s.mem)

/-- Queues that move and banks that are given up (12 R225, R234; 14 R262, R263): a queue that is not resident and finds room becomes resident with the elements of
its storage, a resident one that is neither pinned nor bound nor reserved and of which no pop is withheld leaves with its elements written there; what the device
refuses changes nothing, and an absent queue, one that is resident elsewhere and a full cluster are refused (the model's choice, log 66).
It rests on the model's own choices of log 21, 36. -/
def Claims.ResidencyEventResults : Prop :=
  ∀ (s : State) (p q home : Nat), p < 1024 → q < 4096 → home < 64 →
    let key := p * 4096 + q
    let x := s.queue key
    let inn := Ev.qresBringIn p q home
    let out := Ev.qresTakeOut p q
    (∀ es s', x.present = true → x.home = none → residents s home < 64 →
      readElements (s.given inn) p (s.vfOf (.scribe home)) (.scribe home) x (x.pushed - x.popped).toNat x.popped.toNat = .ok (es, s') →
      ∃ t, exec .qresBringIn (s.given inn) = .next t ∧ t.queue key = { s'.queue key with els := es, home := some home, missed := [] } ∧ t.mem = s'.mem) ∧
    ((x.present = false ∨ x.home = none ∧ 64 ≤ residents s home ∨ ∃ n, x.home = some n ∧ n ≠ home) →
      exec .qresBringIn (s.given inn) = .next (s.given inn)) ∧
    (∀ n s', x.home = some n → x.present = true → pinned s x = false → x.head = none → x.resv = 0 → popsHeld s key = false →
      writeElements (s.given out) p (s.vfOf (.scribe n)) (.scribe n) x x.els x.popped.toNat = .ok s' →
      ∃ t, exec .qresTakeOut (s.given out) = .next t ∧ t.queue key = { s'.queue key with els := [], home := none, missed := [] } ∧ t.mem = s'.mem) ∧
    (x.home = none ∨ x.present = false ∨ pinned s x = true ∨ x.head.isSome = true ∨ 0 < x.resv ∨ popsHeld s key = true →
      exec .qresTakeOut (s.given out) = .next (s.given out)) ∧
    (∀ tk m, ∃ t, exec .bankGiveUp (s.given (.bankGiveUp home tk m)) = .next t ∧
      (∀ b, b ∈ (t.cluster home).banks ↔ b ∈ (s.cluster home).banks ∧ ¬(m.getLsbD b.1 = true ∧ b.2 = tk)) ∧
      (∀ n, n ≠ home → t.cluster n = s.cluster n) ∧ t.ctxs = s.ctxs ∧ t.mem = s.mem)

/-- Governor changes at their effect cc, moving queues and bank releases: `Claims.GovernorEventResults`, `Claims.ResidencyEventResults`. -/
def Obligations.GovernorEventResults : Prop := Claims.GovernorEventResults ∧ Claims.ResidencyEventResults

/-- What a boundary takes: a cause that is pending or has arrived rolls the context back to its checkpoint and stops it, the causes behind the first are told and
the first of them is held pending (log 51); a wait that has run out takes its own cause; a stop request rolls nothing back and keeps what is withheld (log 69), its
word in the details (12 R218; 14 R251; 15 R268; 22 R366, R367, R369). -/
def Claims.BoundaryEventResults : Prop :=
  ∀ (s : State) (a : Agent), a.ok = true →
    let taken := fun (t : State) (r : TrapRec) => (t.ctx a).st = .stopped ∧ (t.ctx a).tcause = BitVec.ofNat 7 r.cause ∧ (t.ctx a).tdet = r.det ∧
      (t.ctx a).tbund = r.bund ∧ (t.ctx a).tckpt = (s.ctx a).ckBund ∧ (t.ctx a).live = (s.ctx a).ckpt ∧ (t.ctx a).held = []
    (∀ r rs, ((s.ctx a).pendHeld = some r ∧ (s.ctx a).pend = rs) ∨ ((s.ctx a).pendHeld = none ∧ (s.ctx a).pend = r :: rs ∧ causeDue s.cc r = true) →
      ∃ t, exec .deferredTrap (s.given (.deferredTrap a)) = .next t ∧ taken t r ∧ (t.ctx a).pend = [] ∧
        (∀ x ∈ rs, ∃ n ∈ t.notices, n.cause = x.cause ∧ n.det = x.det) ∧ (rs = [] → (t.ctx a).pendHeld = none) ∧
        (∀ x xs, rs = x :: xs → (∀ y ∈ xs, y.cc = x.cc → arrivalKey x ≤ arrivalKey y) → (t.ctx a).pendHeld = some x)) ∧
    (∀ h, (s.ctx a).wait = some h →
      let r : TrapRec := { cause := h.cause, det := h.det
                           bund := ((s.ctx a).post.map (·.bund)).getD ((s.ctx a).live.c.pc.setWidth 57) }
      (∃ t, exec .boundedWaitExpiry (s.given (.boundedWaitExpiry a)) = .next t ∧ taken t r ∧ (t.ctx a).wait = none ∧ (t.ctx a).post = none) ∧
      (∃ t, exec .launchOrderWait (s.given (.launchOrderWait a)) = .next t ∧ taken t r ∧ (t.ctx a).wait = none ∧ (t.ctx a).post = none)) ∧
    (∀ cause x, (s.ctx a).stopReq = some (cause, x) → ∃ t n, exec .boundaryStop (s.given (.boundaryStop a)) = .next t ∧
      (t.ctx a).st = .stopped ∧ (t.ctx a).tcause = BitVec.ofNat 7 cause ∧ (t.ctx a).tbund = (s.ctx a).live.c.pc.setWidth 57 ∧
      (t.ctx a).tdet = (if cause = 0x74 then { d1 := x } else if cause = 0x70 then { d0 := x, d2 := 0x70 } else { d0 := x }) ∧ (t.ctx a).stopReq = none ∧ (t.ctx a).live = (s.ctx a).live ∧
      (t.ctx a).ckpt = (s.ctx a).ckpt ∧ (t.ctx a).held = (s.ctx a).held ∧ (t.ctx a).flight = (s.ctx a).flight ∧
      t.notices = s.notices ++ [n] ∧ n.cause = 0x70 ∧ t.mem = s.mem)

/-- Released effects leave their queue in order: the one that performs has none of its own context before it but a giving up of banks, which takes no place, and is
then gone; a load whose answer is a failure is dropped and told as it arrives (log 15), one whose data is in error keeps it until the issue cycle in which it
lands, and the context then takes it before it issues; a line of the instruction store holds its home's bytes, with at most four lines of a set (the line that leaves
is log 71's choice) (04 R90, R98; 06 R109, R120; 08 R170; 17 R298, R300).
It rests on the model's own choices of log 6, 24. -/
def Claims.ArrivalEventResults : Prop :=
  ∀ (s : State) (a : Agent) (id : Nat), a.ok = true →
    let u := s.given (.releasedEffectPerform a)
    let q := s.relqs.get [] a.relKey
    (nextEffect u [] q = none → exec .releasedEffectPerform u = .next u) ∧
    (∀ r, nextEffect u [] q = some r →
      (∃ before after, q = before ++ r :: after ∧ ∀ x ∈ before, x.who ≠ r.who ∨ State.gives x = true) ∧
      (∀ die k n, r.w.eff = .rsem die k true n → ∃ t, exec .releasedEffectPerform u = .next t ∧
        (∀ x ∈ t.relqs.get [] a.relKey, x ∈ q ∧ x.id ≠ r.id) ∧
        (∀ x ∈ q, x.id ≠ r.id → State.gives x = false → x ∈ t.relqs.get [] a.relKey) ∧ (ringSem t die k).toNat = min 65535 ((ringSem s die k).toNat + n) ∧
        t.ctxs = s.ctxs ∧ t.mem = s.mem) ∧
      (∀ kind va mk ix dt ps, r.w.eff = .store kind va mk ix dt ps → ∃ t, exec .releasedEffectPerform u = .next t ∧
        t = State.settleBanks (performWrite { u with relqs := u.relqs.put [] a.relKey (q.filter (fun x => x.id != r.id)) } r.who r.id r.w ps)
          a.relKey)) ∧
    (∀ l m e, (s.ctx a).flight = l ++ e :: m → (∀ x ∈ l, x.id ≠ id) → (∀ x ∈ m, x.id ≠ id) → e.id = id → e.kind = .load → e.arrived = false →
      e.waits = 1 →
      ((∀ f, e.fault = some f → f.dfr = false) → ∃ t, exec .loadLanding (s.given (.loadLanding a id)) = .next t ∧
        (t.ctx a).flight = l ++ { e with waits := 0, arrived := true } :: m ∧ (t.ctx a).live = (s.ctx a).live ∧ t.mem = s.mem) ∧
      (∀ f, e.fault = some f → f.dfr = true → (s.ctx a).st = .front → ∃ t, exec .loadLanding (s.given (.loadLanding a id)) = .next t ∧
        (t.ctx a).flight = l ++ m ∧ { f with cc := s.cc } ∈ (t.ctx a).pend ∧ (t.ctx a).live = (s.ctx a).live ∧ t.mem = s.mem)) ∧
    (∀ e f, e ∈ (s.ctx a).flight → landsBad e = true → e.fault = some f → (s.ctx a).st = .front →
      let t := landErrors s a landsBad
      { f with cc := s.cc } ∈ (t.ctx a).pend ∧ (t.ctx a).flight = (s.ctx a).flight.filter (fun x => !landsBad x) ∧
      (t.ctx a).live = (s.ctx a).live ∧ t.mem = s.mem) ∧
    (∀ core line, core < 512 → ∃ t, exec .instructionStoreFill (s.given (.instructionStoreFill core line)) = .next t ∧
      (t.core core).istore.get none line =
        some (BitVec.ofNat 1024 (ofBytes (fetchBytes (s.given (.instructionStoreFill core line)) (.ctx core 0) (lineOf s (core / 128) line) 128).1)) ∧
      (((s.core core).istore.filter (fun x => x.1 % 128 == line % 128)).length ≤ 4 →
        ((t.core core).istore.filter (fun x => x.1 % 128 == line % 128)).length ≤ 4))

/-- Traps and stops at a boundary; released effects and landings: `Claims.BoundaryEventResults`, `Claims.ArrivalEventResults`. -/
def Obligations.BoundaryEventResults : Prop := Claims.BoundaryEventResults ∧ Claims.ArrivalEventResults

/-- The life of a task (05 R99; 09 R193; 12 R234; 14 R249, R251, R254, R257): at its ready cc its contexts wait, or hold a position that was empty, and one that was
asked to stop stops (log 69); complete, they are free, their registers read 0 (the model's choice, log 20), their cycle counters keep their values, and they
hold no bank; a budget that ran out, and a context that does not yield, are told once to the scribe of the cluster; a scribe that is written with its
run bit runs at the address from the second cc on with its counters at 0, its other registers kept (log 59). -/
def Obligations.TaskEventResults : Prop :=
  ∀ (s : State) (tk : Nat),
    (∃ t, exec .taskReady (s.given (.taskReady tk)) = .next t ∧ t.mem = s.mem ∧
      ∀ k ∈ (s.task tk).ctxs, (s.ctx (agentOf k)).task = some tk → (s.ctx (agentOf k)).st = .free →
        ((t.ctx (agentOf k)).st = .waiting ∨ (t.ctx (agentOf k)).st = .front) ∧ (t.ctx (agentOf k)).live = (s.ctx (agentOf k)).live ∧
        ((s.ctx (agentOf k)).stopReq.isSome = true → (s.cc, Ev.boundaryStop (agentOf k)) ∈ t.agenda)) ∧
    (taskDone s tk = true → ∃ t, exec .taskComplete (s.given (.taskComplete tk)) = .next t ∧ (t.task tk).gone = true ∧ t.mem = s.mem ∧
      (∀ k ∈ (s.task tk).ctxs, (t.ctx (agentOf k)).st = .free ∧ (t.ctx (agentOf k)).task = none ∧ (t.ctx (agentOf k)).live = {} ∧
        (t.ctx (agentOf k)).icyc = (s.ctx (agentOf k)).icyc ∧ (t.ctx (agentOf k)).frz = (s.ctx (agentOf k)).frz) ∧
      (∀ cl, cl < 64 → ∀ b ∈ (t.cluster cl).banks, b.1 < 32 → b.2 ≠ 2 * tk + 1)) ∧
    (taskDone s tk = false → exec .taskComplete (s.given (.taskComplete tk)) = .next (s.given (.taskComplete tk))) ∧
    ((s.task tk).started = true → (s.task tk).expired = false → ∃ t n, exec .budgetExpired (s.given (.budgetExpired tk)) = .next t ∧
      (t.task tk).expired = true ∧ t.notices = s.notices ++ [n] ∧ n.cause = 0x75 ∧ n.dest = .scribe ((s.task tk).core / 8) ∧
      n.taskid = (s.task tk).taskid ∧ t.ctxs = s.ctxs ∧ t.mem = s.mem) ∧
    (∀ core k, core < 512 → k < 8 → (s.ctx (.ctx core k)).st = .front → (s.ctx (.ctx core k)).overrun = false →
      (s.ctx (.ctx core k)).runFrom + (s.core core).yq ≤ s.cc → ∃ t n, exec .yieldOverrun (s.given (.yieldOverrun core k)) = .next t ∧
        (t.ctx (.ctx core k)).overrun = true ∧ (t.ctx (.ctx core k)).st = .front ∧ (t.ctx (.ctx core k)).live = (s.ctx (.ctx core k)).live ∧
        t.notices = s.notices ++ [n] ∧ n.cause = 0x77 ∧ n.dest = .scribe (core / 8) ∧ t.mem = s.mem) ∧
    (∀ cl x, cl < 64 → (s.ctx (.scribe cl)).st ≠ .front → scribeWordBad x = false → ∃ t, exec .scribe (s.given (.scribe cl x)) = .next t ∧
      (t.cluster cl).scribeReg = x ∧ t.mem = s.mem ∧
      (x.getLsbD 0 = true → (t.ctx (.scribe cl)).st = .front ∧ (t.ctx (.scribe cl)).live.c.pc = x &&& 0x1FFFFFFFFFFFFFC ∧
        (t.ctx (.scribe cl)).wakeAt = s.cc + 2 ∧ (t.ctx (.scribe cl)).icyc = 0 ∧ (t.ctx (.scribe cl)).frz = 0 ∧
        (t.ctx (.scribe cl)).live.s = (s.ctx (.scribe cl)).live.s) ∧
      (x.getLsbD 0 = false → t.ctxs = s.ctxs))

/-- A pane's operations (09 R175, R178, R180; 11 R202): the first that may start begins its work, its target copied to the shadow, a save taking the tile as it
stands, and is looked at when its latency has passed; a restore of a malformed image traps there instead (09 R185); one whose time has passed leaves the pane, a fetched
tile becoming valid in its bank, a saved one being written in its core's place among the writes of the cc (12 R222; 21 R363); a replay puts its operation back to start in this cc; a
failed fetch abandons the operation and those behind it, an MXLD alone, and its context traps; a fetch that a pane still holds keeps its leases.
It rests on the model's own choices of log 53, 58. -/
def Claims.PaneEventResults : Prop :=
  ∀ (s : State) (core q : Nat), core < 512 → q < 4 →
    let p := paneOf s core q
    (∀ ahead o behind, nextStart (s.given (.paneOperationStart core q)) [] p.ops = some (ahead, o, behind) →
      ((o.fam = .restore → tileImageBad o.buf = false) → ∃ t, exec .paneOperationStart (s.given (.paneOperationStart core q)) = .next t ∧
        (paneOf t core q).ops = ahead ++ { o with started := true, doneCc := s.cc + o.lat
                                                  buf := if o.fam = .save then tileImage (p.tile o.tile) else o.buf } :: behind ∧
        (s.cc + o.lat, Ev.paneOperationComplete core q) ∈ t.agenda ∧
        (o.fam = .mxa ∨ o.fam = .mxrk ∨ o.fam = .restore → (paneOf t core q).shadow = some (o.tile, p.tile o.tile) ∧
          (paneOf t core q).tile o.tile = opTile p { o with started := true, doneCc := s.cc + o.lat }) ∧ t.ctxs = s.ctxs ∧ t.mem = s.mem) ∧
      (o.fam = .restore → tileImageBad o.buf = true → ∃ t, exec .paneOperationStart (s.given (.paneOperationStart core q)) = .next t ∧
        (paneOf t core q).ops = ahead ++ { o with fault := some (badImageTrap o) } :: behind ∧ (s.cc, Ev.paneFetchFailure core q) ∈ t.agenda ∧
        (paneOf t core q).t0 = p.t0 ∧ (paneOf t core q).t1 = p.t1 ∧ t.ctxs = s.ctxs ∧ t.mem = s.mem)) ∧
    (∀ o, p.ops.find? (fun o => o.started && o.replay.isNone && decide (o.doneCc ≤ s.cc)) = some o →
      (∀ r, o.fam = .mxld → o.req = some r → ∃ t, exec .paneOperationComplete (s.given (.paneOperationComplete core q)) = .next t ∧
        (paneOf t core q).ops = p.ops.filter (fun x => x != o) ∧ ((paneOf t core q).bank o.bank).valid = true ∧
        ((paneOf t core q).bank o.bank).fmt = o.fmt ∧ ((paneOf t core q).bank o.bank).els = tileLanes r o.buf ∧ t.ctxs = s.ctxs ∧ t.mem = s.mem) ∧
      (o.fam = .mxa ∨ o.fam = .mxrk ∨ o.fam = .restore → ∃ t, exec .paneOperationComplete (s.given (.paneOperationComplete core q)) = .next t ∧
        (paneOf t core q).ops = p.ops.filter (fun x => x != o) ∧ (paneOf t core q).t0 = p.t0 ∧ (paneOf t core q).t1 = p.t1 ∧
        t.ctxs = s.ctxs ∧ t.mem = s.mem) ∧
      (o.fam = .save → (s.relqs.get [] o.who.relKey).any (fun r => r.who == o.who && decide (r.id < o.id)) = false → s.remotePending o.who 5 = false →
        (s.turns.any (performsBefore core) = true → exec .paneOperationComplete (s.given (.paneOperationComplete core q)) =
          .next { s.given (.paneOperationComplete core q) with turns := turnBehind (performsBefore core) (.save core q) s.turns }) ∧
        (s.turns.any (performsBefore core) = false → ∃ t u, exec .paneOperationComplete (s.given (.paneOperationComplete core q)) = .next t ∧ t = saveImage u o o.buf ∧ u.mem = s.mem ∧
          (paneOf u core q).ops = p.ops.filter (fun x => x != o)))) ∧
    (∀ o, p.ops.find? (fun o => o.replay == some s.cc) = some o → ∃ t, exec .paneReplay (s.given (.paneReplay core q)) = .next t ∧
      { o with replay := none, started := false, startCc := s.cc } ∈ (paneOf t core q).ops ∧ (paneOf t core q).ops.length = p.ops.length ∧
      (s.cc, Ev.paneOperationStart core q) ∈ t.agenda ∧ t.ctxs = s.ctxs ∧ t.mem = s.mem) ∧
    (∀ o f, p.ops.find? (fun o => o.fault.isSome) = some o → o.fault = some f →
      ∃ t, exec .paneFetchFailure (s.given (.paneFetchFailure core q)) = .next t ∧ t.mem = s.mem ∧
        (paneOf t core q).ops = (if o.fam = .mxld then p.ops.filter (fun x => x.id != o.id) else p.ops.takeWhile (fun x => x.id != o.id)) ∧
        (∀ x ∈ s.leases, x.kind = .fetch → x.ref ≠ o.id → (∃ k, k < 4 ∧ ∃ y ∈ (paneOf t core k).ops, y.id = x.ref) → x ∈ t.leases) ∧
        ((s.ctx o.who).st = .front → ∃ r ∈ (t.ctx o.who).pend, r.cause = f.cause ∧ r.bund = f.bund))

/-- Grants (11 R206): the only claim of a core is granted when free panes suffice, every pane of it at once, and otherwise stays as it is.
It rests on the model's own choices of log 23. -/
def Claims.PaneGrantResults : Prop :=
  ∀ (s : State) (core k : Nat), core < 512 → k < 8 →
    let a := Agent.ctx core k
    let m := (s.ctx a).claim
    m ≠ 0 → (∀ j, j < 8 → j ≠ k → (s.ctx (.ctx core j)).claim = 0) →
    (claimFits s a m = false → exec .paneGrant (s.given (.paneGrant core)) = .next (s.given (.paneGrant core))) ∧
    (claimFits s a m = true → ∃ t, exec .paneGrant (s.given (.paneGrant core)) = .next t ∧ (t.ctx a).claim = 0 ∧
      (∀ p, p < 4 → m.getLsbD p = true → ∃ n, (t.ctx a).panes.getD p none = some n ∧ (s.core core).panes.getD n {} = { (s.core core).panes.getD n {} with owner := none, reserved := false } ∧
        (paneOf t core n).owner = some (k, p) ∧ (paneOf t core n).ops = []) ∧
      (∀ p, p < 4 → m.getLsbD p = false → (t.ctx a).panes.getD p none = (s.ctx a).panes.getD p none) ∧
      (t.ctx a).live = (s.ctx a).live ∧ t.mem = s.mem)

/-- Pane operations and grants: `Claims.PaneEventResults`, `Claims.PaneGrantResults`. -/
def Obligations.PaneEventResults : Prop := Claims.PaneEventResults ∧ Claims.PaneGrantResults

/-- Re-encodes (11 R214, R215, R216): one whose planes resolve, that no earlier re-encode of its planes and no bounded lease of another holds back (log 49) and that
finds its region stale and meets no lease of a well or a collective and no unreadable word leases both encodings' tiles and ends 512 cc for each of its new
tiles later; a lease of a well or a collective, a page that does not grant, or an unreadable word fails it; its end tags every new tile, clears the valid bit of
every other tile that it read, and counts the tiles in RETILE and the clamped results in RESAT; a failure changes no tag and no byte, and halts the channels
that wait with 0x42. -/
def Claims.ReencodeEventResults : Prop :=
  ∀ (s : State) (id : Nat) (r : Reenc), s.reencs.find? (fun e => e.1 == id) = some (id, r) →
    (∀ d, parseDesc r.desc = some d →
      (let u := s.given (.reencodeStart id)
       let src := sourceEnc u r d
       let old := (encTiles d src.1 src.2).map (·.2)
       let new := (encTiles d r.fmt r.b32).map (·.2)
       let fails := fun (u : State) (s' : State) (addr : BitVec 64) (cause : Nat) => ∃ t, exec .reencodeStart u = .next t ∧
         t.reencs.get {} id = { r with fault := some (addr, cause) } ∧ (s.cc, Ev.reencodeFailure id) ∈ t.agenda ∧ t.mem = s'.mem ∧ t.tags = s'.tags
       (∀ f, asIdent u r.who r.id (fun s => resolveTiles s r.who .engRd d.space old) = .error f → fails u s f.d1 f.cause) ∧
       (∀ so s1, asIdent u r.who r.id (fun s => resolveTiles s r.who .engRd d.space old) = .ok (so, s1) →
         (∀ f, asIdent s1 r.who r.id (fun s => resolveTiles s r.who .engWr d.space new) = .error f → fails u s f.d1 f.cause) ∧
         (∀ sn s2, asIdent s1 r.who r.id (fun s => resolveTiles s r.who .engWr d.space new) = .ok (sn, s2) →
           let held := reencBehind s2 id r ||
             (leasedBy s2 (fun x => x.kind == .reenc || (x.kind == .fetch && !(notAwaited s2 id).contains x.ref)) (so ++ sn)).isSome
           (held = true → exec .reencodeStart u = .next (s2.after 1 (.reencodeStart id))) ∧
           (held = false → sn.all (fun g => tagOf s2 g.1 == tagWord r.b32 r.fmt r.rev) = false →
             (∀ l, leasedBy s2 (fun x => x.kind == .well || x.kind == .coll) (so ++ sn) = some l → fails u s2 (BitVec.ofNat 64 (Loc.addr s2 l)) 0x34) ∧
             (leasedBy s2 (fun x => x.kind == .well || x.kind == .coll) (so ++ sn) = none →
               (∀ g, so.find? (fun g => s2.poisonedAt g.1 g.2) = some g → fails u s2 (BitVec.ofNat 64 (Loc.addr s2 (poisonWord s2 g.1 g.2))) 0x51) ∧
               ((∀ g ∈ so, s2.poisonedAt g.1 g.2 = false) →
                 ∃ t, exec .reencodeStart u = .next t ∧ t.reencs.get {} id = { r with running := true } ∧
                   (s2.cc + 512 * new.length, Ev.reencodeEnd id) ∈ t.agenda ∧
                   (∀ g ∈ so ++ sn, ∃ x ∈ t.leases, x.kind = .reenc ∧ x.ref = id ∧ x.lo = linOf g.1 ∧ x.hi = linOf g.1 + g.2) ∧
                   t.mem = s2.mem ∧ t.tags = s2.tags)))))) ∧
      (let u := endLeases (s.given (.reencodeEnd id)) .reenc id
       let src := sourceEnc u r d
       r.waiters = [] → ∀ so s1 sn s2,
         asIdent u r.who r.id (fun s => resolveTiles s r.who .engRd d.space ((encTiles d src.1 src.2).map (·.2))) = .ok (so, s1) →
         asIdent s1 r.who r.id (fun s => resolveTiles s r.who .engWr d.space ((encTiles d r.fmt r.b32).map (·.2))) = .ok (sn, s2) →
         let lanes := reencodeLanes r d src.1 (regionLanes s2 (reencAgent s2 so) d src.1 src.2 (encTiles d src.1 src.2) so).1
         ∃ t, exec .reencodeEnd (s.given (.reencodeEnd id)) = .next t ∧ t.reencs = s2.reencs.erase id ∧
           (∀ g ∈ sn, tagOf t g.1 = tagWord r.b32 r.fmt r.rev) ∧
           (∀ g ∈ so, (∀ n ∈ sn, tileNo n.1 ≠ tileNo g.1) → (tagOf t g.1).getLsbD 15 = false) ∧
           govEntry t r.tbl r.entry = { govEntry s2 r.tbl r.entry with
             retile := BitVec.ofNat 32 (min (2 ^ 32 - 1) ((govEntry s2 r.tbl r.entry).retile.toNat + (encTiles d r.fmt r.b32).length))
             resat := BitVec.ofNat 32 (min (2 ^ 32 - 1) ((govEntry s2 r.tbl r.entry).resat.toNat + lanes.2)) })) ∧
    (∃ t, exec .reencodeFailure (s.given (.reencodeFailure id)) = .next t ∧ t.reencs = s.reencs.erase id ∧ t.tags = s.tags ∧ t.mem = s.mem ∧
      ∀ c ∈ r.chans, (s.cc, Ev.copyChannelHalt c.1 c.2 0x42 0 (r.fault.getD (0, 0)).1 (r.fault.getD (0, 0)).2) ∈ t.agenda)

/-- The bytes that a re-encode writes (11 R214): with no waiting fetch, no line in an L1, and new tiles that lie apart outside coded pages, every byte of every new
tile is that of its plane in the new encoding, computed from the elements as they were before the first write.
It rests on the model's own choices of log 49. -/
def Claims.ReencodedBytes : Prop :=
  ∀ (s : State) (id : Nat) (r : Reenc) (d : RegionDesc), s.reencs.find? (fun e => e.1 == id) = some (id, r) → parseDesc r.desc = some d →
    let u := endLeases (s.given (.reencodeEnd id)) .reenc id
    let src := sourceEnc u r d
    let new := encTiles d r.fmt r.b32
    r.waiters = [] → (∀ c, (s.core c).l1 = []) → ∀ so s1 sn s2,
      asIdent u r.who r.id (fun s => resolveTiles s r.who .engRd d.space ((encTiles d src.1 src.2).map (·.2))) = .ok (so, s1) →
      asIdent s1 r.who r.id (fun s => resolveTiles s r.who .engWr d.space (new.map (·.2))) = .ok (sn, s2) →
      (∀ g ∈ sn, g.1.coded = none) → sn.Pairwise (fun x y => x.1.key + x.2 ≤ y.1.key ∨ y.1.key + y.2 ≤ x.1.key) →
      let lanes := (reencodeLanes r d src.1 (regionLanes s2 (reencAgent s2 so) d src.1 src.2 (encTiles d src.1 src.2) so).1).1
      ∃ t, exec .reencodeEnd (s.given (.reencodeEnd id)) = .next t ∧
        ∀ x ∈ new.zip sn, ∀ k, k < x.2.2 →
          t.byteAt (x.2.1.key + k) = (planeImageBytes r.fmt r.b32 x.1.1 lanes).getD (x.1.2.1 - d.bases.getD x.1.1.toNat 0 + k) 0

/-- Re-encodes: `Claims.ReencodeEventResults`, `Claims.ReencodedBytes`. -/
def Obligations.ReencodeEventResults : Prop := Claims.ReencodeEventResults ∧ Claims.ReencodedBytes

/-- Copy channels (15 R269, R272, R274-R276): a plain copy between places of its cluster's pad or of vaults moves one line of 128 bytes and counts it; when every byte
is delivered it ends at the start of the next cc (log 12); its end leaves it done and signals its semaphore; a halt keeps what was delivered and tells the context that started it, but
for a stop that software asked for. -/
def Claims.CopyEventResults : Prop :=
  ∀ (s : State) (cl ch : Nat), cl < 64 → ch < 16 →
    let c := chanOf s cl ch
    let idle := fun (e : Ev) => (match e with
      | .copyChannelHalt l h _ _ _ _ => l == cl && h == ch
      | .copyChannelComplete l h => l == cl && h == ch
      | _ => false)
    (c.st = .running → c.waits = none → c.nextCc ≤ s.cc → s.agenda.any (fun x => idle x.2) = false → c.stop = false → chanTouching s cl ch = false →
      (field c.desc 0x10 4 ≤ c.done → ∃ t, exec .copyLineWrite (s.given (.copyLineWrite cl ch)) = .next t ∧
        (s.cc + 1, Ev.copyChannelComplete cl ch) ∈ t.agenda ∧ chanOf t cl ch = c ∧ t.ctxs = s.ctxs ∧ t.mem = s.mem) ∧
      (c.done < field c.desc 0x10 4 → bits (field c.desc 0x16 1) 1 0 = 0 → c.well = none → bit (field c.desc 0x15 1) 4 = false → c.raw = [] → c.out = [] →
        c.srcPos = c.done →
        ∀ src dst s1 s2, chanPlace (s.given (.copyLineWrite cl ch)) c .engRd (field c.desc 0x14 1) (field c.desc 0 8 + c.done) 128 128 = .ok (src, s1) →
          (src.space = .p ∨ src.space = .v) → src.coded = none → s1.poisoned src.key 128 = false →
          chanPlace (modChan s1 cl ch (fun c => { c with raw := [], out := s1.bytesAt src.key 128, srcPos := c.srcPos + 128 }))
            { c with raw := [], out := s1.bytesAt src.key 128, srcPos := c.srcPos + 128 } .engWr (field c.desc 0x15 1)
            (field c.desc 8 8 + c.done) 128 128 = .ok (dst, s2) →
          (dst.space = .p ∨ dst.space = .v) → dst.coded = none → leaseMet s2 (.scribe cl) s2.ids dst 128 = none →
          ∃ t, exec .copyLineWrite (s.given (.copyLineWrite cl ch)) = .next t ∧ (chanOf t cl ch).done = c.done + 128 ∧ (chanOf t cl ch).st = .running ∧
            (chanOf t cl ch).nextCc = s.cc + 2 ∧
            ∀ k, t.byteAt k = if dst.key ≤ k ∧ k < dst.key + 128 then s.byteAt (src.key + (k - dst.key)) else s.byteAt k)) ∧
    (c.st = .running → c.well = none → c.bar = none → ∃ t, exec .copyChannelComplete (s.given (.copyChannelComplete cl ch)) = .next t ∧
      (chanOf t cl ch).st = .done ∧ (chanOf t cl ch).done = c.done ∧ t.ctxs = s.ctxs ∧ t.mem = s.mem ∧
      (semOf t cl (field c.desc 0x19 1 % 64)).count.toNat = (if bit (field c.desc 0x19 1) 6
        then min (2 ^ 32 - 1) ((semOf s cl (field c.desc 0x19 1 % 64)).count.toNat + 1) else (semOf s cl (field c.desc 0x19 1 % 64)).count.toNat)) ∧
    (∀ cause reason addr under, c.st = .running → ∃ t, exec .copyChannelHalt (s.given (.copyChannelHalt cl ch cause reason addr under)) = .next t ∧ t.mem = s.mem ∧
      (chanOf t cl ch).st = .halted ∧ (chanOf t cl ch).cause = cause ∧ (chanOf t cl ch).reason = reason ∧ (chanOf t cl ch).done = c.done ∧
      (cause = 0x40 ∧ reason = 4 → t.ctxs = s.ctxs ∧ t.notices = s.notices) ∧
      (¬(cause = 0x40 ∧ reason = 4) → c.task = none → (s.ctx c.who).task = none → (s.ctx c.who).st = .front →
        Told t c.who cause c.bund))

/-- A carve's move and a range invalidation end (15 R277, R278; 17 R301): the boundary is the new one, every byte of the moved range reads as a byte that nothing has
written (log 3, 11), a slice whose boundary moved holds no line, the semaphore is signalled; no core in scope holds a line of the range any more. -/
def Claims.MemoryEngineEventResults : Prop :=
  ∀ (s : State) (cl : Nat), cl < 64 →
    ((s.cluster cl).moving = true → (s.cluster cl).moveEnd ≤ s.cc → (s.cluster cl).moveQ = [] →
      ∃ t, exec .carveMoveEnd (s.given (.carveMoveEnd cl)) = .next t ∧ (t.cluster cl).steps = (s.cluster cl).moveSteps ∧ (t.cluster cl).moving = false ∧
        (t.cluster cl).slice = (if (s.cluster cl).moveSteps = (s.cluster cl).steps then (s.cluster cl).slice else []) ∧
        (∀ k, vaultKey (cl * 2 ^ 27 + (s.cluster cl).moveLo) ≤ k → k < vaultKey (cl * 2 ^ 27 + (s.cluster cl).moveHi) → t.byteAt k = memDefault) ∧
        (∀ n, (semOf t cl n).count.toNat = if (s.cluster cl).moveSem = some n then min (2 ^ 32 - 1) ((semOf s cl n).count.toNat + 1)
          else (semOf s cl n).count.toNat) ∧ t.ctxs = s.ctxs) ∧
    ((s.cluster cl).moving = false ∨ s.cc < (s.cluster cl).moveEnd → exec .carveMoveEnd (s.given (.carveMoveEnd cl)) = .next (s.given (.carveMoveEnd cl))) ∧
    (∀ id r core, s.rinvs.find? (fun e => e.1 == id) = some (id, r) → r.bar = none → core ∈ r.cores →
      let u := s.given (.rangeInvalidationEnd id)
      ∃ t, exec .rangeInvalidationEnd u = .next t ∧ t.rinvs = s.rinvs.erase id ∧
        ∀ ls ∈ rangeLines { u with rinvs := s.rinvs.erase id } r.who (if r.who.onCore then bits r.id.owner.toNat 17 8 else 0) (bits r.id.owner.toNat 4 0)
            (r.len / 2 ^ 16 + 2) r.va.toNat (r.va.toNat + r.len), ∀ k, ls.1 ≤ k → k < ls.2 →
          (t.core core).l1.get {} k = {} ∧ (t.core core).istore.get none k = none)

/-- Copy channels, carves and range invalidations: `Claims.CopyEventResults`, `Claims.MemoryEngineEventResults`. -/
def Obligations.CopyEventResults : Prop := Claims.CopyEventResults ∧ Claims.MemoryEngineEventResults

/-- Collectives at a member (15 R269, R281-R283; 18 R324, R329, R332; 19 R349; log 7, 63): rank 0 sends chunk k at its k-th step, a group of one has its result at
once; a chunk that agrees with the operation is folded element by element with the member's own and sent on, and the last rank's sum goes round again as the
result; a result is sent on until the member before the sender has it, and written and counted at each; when the last member of a group within the package has written its
last chunk, all members complete; in a group that spans packages the member that the result reaches last tells the others round the ring, and each completes when it knows, or
when its successor in another package has acknowledged it; a chunk that disagrees, or that met an error, halts the operation with 0x45, tells its starter the reason, and its neighbours receive the
notice; a member that receives the notice of its own operation halts alike. A chunk or a notice of an operation that is yet to start waits for it, one of an
operation that has ended is nothing. The completion purges the buffers' lines from its starter's L1 and signals the semaphore.
It rests on the model's own choices of log 17. -/
def Claims.RingEventResults : Prop :=
  ∀ (s : State) (die : Nat) (ck : CollChunk), die < 4 → (Ev.collectiveChunk die ck).ok = true →
    ((s.die die).ring = none → exec .collectiveChunk (s.given (.collectiveChunk die ck)) =
      .next (if ringCount s die true ck.grp ≤ ck.no then (s.given (.collectiveChunk die ck)).after 1 (.collectiveChunk die ck)
        else s.given (.collectiveChunk die ck))) ∧
    (∀ o, (s.die die).ring = some o → o.coll = true →
      let g := groupOf s die o.grp
      let o' := { o with pred := some (ck.pkg, ck.die) }
      let u := (s.given (.collectiveChunk die ck)).modDie die (fun d => { d with ring := d.ring.map (fun o => { o with pred := some (ck.pkg, ck.die) }) })
      let same := ck.grp = o.grp ∧ ck.op = o.op ∧ ck.fmt = o.fmt ∧ ck.nbuf = o.nbuf ∧ ck.lens = o.lens ∧ (ck.rank + 1) % g.1 = g.2.1
      let next := fun (result : Bool) (bytes : List Byte) (h : MsgHdr) =>
        Ev.collectiveChunk g.2.2.2 { ck with rank := g.2.1, pkg := s.pkgid.toNat, die := die, tag := h.tag, result := result, bytes := bytes }
      let done := fun (e : Ev) => match e with
        | .collectiveChunk d c => Ev.collectiveChunk d { c with idx := (chunkTable o.lens).length }
        | e => e
      (∀ c, same → ck.bad = false → ck.no = o.no → (chunkTable o.lens)[ck.idx]? = some c →
        let sum := collBytes o.op o.fmt ck.bytes ((o.own.drop c.2.2.2).take c.2.2.1)
        (ck.result = false → g.2.1 + 1 < g.1 → ∃ t, exec .collectiveChunk (s.given (.collectiveChunk die ck)) = .next t ∧
          Sent s t hopTime die g.2.2 (next false sum) ∧ t.mem = s.mem ∧ (t.die die).ring = some o') ∧
        (ck.result = true ∨ g.1 ≤ g.2.1 + 1 →
          let bytes := if ck.result then ck.bytes else sum
          let on := ck.result = false ∨ g.2.1 + 2 < g.1
          ∀ segs s1, opSegs (if on then sendColl u die o' ck.idx true bytes else u) o' .engWr (o.bufs.getD c.1 0 + c.2.1) c.2.2.1 = .ok (segs, s1) →
            ∃ t, exec .collectiveChunk (s.given (.collectiveChunk die ck)) = .next t ∧ t.mem = (engWriteAll s1 (.cp die) segs bytes).mem ∧
              (t.die die).ring = some { o' with wrote := o.wrote + 1 } ∧ (on → Sent s t hopTime die g.2.2 (next true bytes)) ∧
              ((ringMembers t die o.grp).length = g.1 → (∀ d ∈ ringMembers t die o.grp, wroteAll t d o.grp o.no = true) →
                ∀ d ∈ ringMembers t die o.grp, (s.cc + 1, Ev.collectiveComplete d) ∈ t.agenda) ∧
              ((ringMembers t die o.grp).length ≠ g.1 → g.2.1 + 2 = g.1 → wroteAll t die o.grp o.no = true →
                Sent s t hopTime die g.2.2 (fun h => done (next true [] h)) ∧
                (g.2.2.1 = s.pkgid.toNat → (s.cc + 1, Ev.collectiveComplete die) ∈ t.agenda)))) ∧
      (same → ck.bad = false → ck.no = o.no → ck.result = true → ck.idx = (chunkTable o.lens).length → wroteAll s die o.grp o.no = true →
        ∃ t, exec .collectiveChunk (s.given (.collectiveChunk die ck)) = .next t ∧ t.mem = s.mem ∧ (t.die die).ring = some o' ∧
          Answered s t ck.pkg ck.die die 1 (.remoteResponse { pkg := s.pkgid.toNat, die := die, dest := ck.die, tag := ck.tag } []) ∧
          ((g.2.1 + 1) % g.1 + 2 = g.1 → (s.cc + 1, Ev.collectiveComplete die) ∈ t.agenda) ∧
          ((g.2.1 + 1) % g.1 + 2 ≠ g.1 → Sent s t hopTime die g.2.2 (fun h => done (next true [] h)) ∧
            (g.2.2.1 = s.pkgid.toNat → (s.cc + 1, Ev.collectiveComplete die) ∈ t.agenda))) ∧
      ((if o.grp = ck.grp then o.no = ck.no else ringCount s die true ck.grp ≤ ck.no) → ck.bad = true ∨ ¬same →
        ∃ t, exec .collectiveChunk (s.given (.collectiveChunk die ck)) = .next t ∧ (t.die die).ring = none ∧ t.mem = s.mem ∧
          (o.task = none → (s.ctx o.who).task = none → (s.ctx o.who).st = .front → ∃ r ∈ (t.ctx o.who).pend, r.cause = 0x45 ∧ r.bund = o.bund ∧
            r.det.d1 = BitVec.ofNat 64 (o.grp + (if ck.bad then 3 else 2) * 2 ^ 8) ∧ r.det.d2 = BitVec.ofNat 64 ck.idx) ∧
          ∀ n, n = g.2.2 ∨ n = (ck.pkg, ck.die) → n ≠ (s.pkgid.toNat, die) →
            Sent s t 1 die n (fun h => .collectiveHaltNotice h true o.grp o.no 0x45 (if ck.bad then 3 else 2))) ∧
      (∀ c, o.nextCc ≤ s.cc → (chunkTable o.lens)[o.next]? = some c → g.2.1 = 0 →
        let chunk := fun (result : Bool) (tag : Nat) => mkChunk s die o o.next result ((o.own.drop c.2.2.2).take c.2.2.1) tag
        ∃ t, exec .ringChunk (s.given (.ringChunk die)) = .next t ∧ t.mem = s.mem ∧
          (t.die die).ring = some { o with next := o.next + 1, nextCc := s.cc + hopTime } ∧
          (if g.1 = 1 then (s.cc, Ev.collectiveChunk die (chunk true 0)) ∈ t.agenda
            else Sent s t hopTime die g.2.2 (fun h => .collectiveChunk g.2.2.2 (chunk false h.tag)))) ∧
      ((chunkTable o.lens).length ≤ o.wrote → o.bar = none → (s.die die).ringQ = [] →
        ∃ t, exec .collectiveComplete (s.given (.collectiveComplete die)) = .next t ∧ (t.die die).ring = none ∧ t.ctxs = s.ctxs ∧ t.mem = s.mem ∧
          (bit o.sem 6 = true → (semOf t (opCluster o) (o.sem % 64)).count.toNat =
            min (2 ^ 32 - 1) ((semOf s (opCluster o) (o.sem % 64)).count.toNat + 1)) ∧
          ∀ segs s1, o.who.onCore = true → bufferSegs (s.given (.collectiveComplete die)) o (o.bufs.zip o.lens) = .ok (segs, s1) →
            ∀ x ∈ segs, ∀ k, linOf x.1 / 128 ≤ k → k * 128 < linOf x.1 + x.2 → (t.core o.who.core).l1.get {} k = {})) ∧
    (∀ h coll grp no cause reason, h.ok = true → h.dest = die →
      let e := Ev.collectiveHaltNotice h coll grp no cause reason
      match (s.die die).ring.filter (fun o => o.coll == coll && o.grp == grp && o.no == no) with
      | some o => (s.die die).ringQ = [] → ∃ t, exec .collectiveHaltNotice (s.given e) = .next t ∧ (t.die die).ring = none ∧ t.mem = s.mem ∧
          (o.task = none → (s.ctx o.who).task = none → (s.ctx o.who).st = .front → Told t o.who cause o.bund) ∧
          ∀ n ∈ neighbours s die o, Sent s t 1 die n (fun h => .collectiveHaltNotice h coll grp no cause reason)
      | none => exec .collectiveHaltNotice (s.given e) =
          .next (if coll = true ∧ ringCount s die true grp ≤ no then (s.given e).after 1 e else s.given e))

/-- RING transfers (15 R282, R284, R285; 18 R329; 19 R347, R349; log 7, 63): a chunk waits for its semaphore, which is taken before the chunk is read and sent to the
successor, with the sender's process; a chunk that faults or is poisoned halts the operation and tells its starter; with every chunk answered the operation
ends. At its destination the chunk is written, or folded with what stands there; then, in a step after its writes, its semaphore rises, held at 65,535, and the
sender has its answer; a chunk that met an error, faults, meets a lease or folds a poisoned word writes nothing and is answered with its cause.
It rests on the model's own choices of log 17. -/
def Claims.RingTransferResults : Prop :=
  ∀ (s : State) (die : Nat), die < 4 →
    (∀ o, (s.die die).ring = some o → o.coll = false → o.nextCc ≤ s.cc →
      let m := ringSem s die (o.first + o.next)
      let dst := (groupOf s die o.grp).2.2
      let u := setRingSem (s.given (.ringChunk die)) die (o.first + o.next) (m.toNat - 1)
      (o.wrote ≠ o.nch → o.next < o.nch →
        (m = 0 → exec .ringChunk (s.given (.ringChunk die)) = .next (s.given (.ringChunk die))) ∧
        (m ≠ 0 → (∀ segs s1, opSegs u o .engRd (o.src + 65536 * o.next) 65536 = .ok (segs, s1) →
            ((∀ x ∈ segs, s1.poisonedAt x.1 x.2 = false) → ∃ t, exec .ringChunk (s.given (.ringChunk die)) = .next t ∧
              (ringSem t die (o.first + o.next)).toNat = m.toNat - 1 ∧ (t.die die).ring = some { o with next := o.next + 1, nextCc := s.cc + hopTime } ∧
              Sent s t hopTime die dst (fun h => .ringChunkReceive dst.2
                { pkg := h.pkg, die := die, tag := h.tag, proc := idProc o.who o.id, vf := idVf o.id, op := o.op, fmt := o.fmt, sem := o.first + o.next
                  dst := BitVec.ofNat 64 (o.dst + 65536 * o.next), bytes := (engReadAll s1 (.cp die) segs).1 }) ∧ t.ctxs = s1.ctxs) ∧
            ((∃ x ∈ segs, s1.poisonedAt x.1 x.2 = true) → o.task = none → (s.ctx o.who).task = none → (s.ctx o.who).st = .front → (s.die die).ringQ = [] →
              ∃ t, exec .ringChunk (s.given (.ringChunk die)) = .next t ∧ (t.die die).ring = none ∧ Told t o.who 0x45 o.bund ∧ t.mem = s.mem)) ∧
          (∀ f, opSegs u o .engRd (o.src + 65536 * o.next) 65536 = .error f → o.task = none → (s.ctx o.who).task = none → (s.ctx o.who).st = .front →
            (s.die die).ringQ = [] → ∃ t, exec .ringChunk (s.given (.ringChunk die)) = .next t ∧ (t.die die).ring = none ∧ Told t o.who 0x45 o.bund ∧
              t.mem = s.mem))) ∧
      (o.wrote = o.nch → o.bar = none → (s.die die).ringQ = [] → ∃ t, exec .ringChunk (s.given (.ringChunk die)) = .next t ∧ (t.die die).ring = none ∧
        t.mem = s.mem ∧ (bit o.sem 6 = true → (semOf t (opCluster o) (o.sem % 64)).count.toNat =
          min (2 ^ 32 - 1) ((semOf s (opCluster o) (o.sem % 64)).count.toNat + 1)))) ∧
    (∀ rc : RingChunk, (Ev.ringChunkReceive die rc).ok = true →
      let e := Ev.ringChunkReceive die rc
      let back : MsgHdr := { pkg := s.pkgid.toNat, die := die, dest := rc.die, tag := rc.tag }
      let answered := fun (t : State) (e : Ev) => Answered s t rc.pkg rc.die die 1 e
      let refused := fun (cause info : Nat) => ∃ t, exec .ringChunkReceive (s.given e) = .next t ∧ answered t (.messageFailure rc.tag cause info) ∧
        t.mem = s.mem ∧ (t.die die).rsem = (s.die die).rsem
      (rc.written = true → ∃ t, exec .ringChunkReceive (s.given e) = .next t ∧ answered t (.remoteResponse back []) ∧ t.mem = s.mem ∧ t.ctxs = s.ctxs ∧
        (ringSem t die rc.sem).toNat = min 65535 ((ringSem s die rc.sem).toNat + 1)) ∧
      (rc.written = false → rc.bad = true → refused 0x51 0) ∧
      (rc.written = false → rc.bad = false →
        (∀ f, pageSegs (s.given e) (.cp die) rc.proc rc.vf .engWr 3 rc.dst.toNat rc.bytes.length = .error f → f.cause ≠ 0 → refused f.cause 0) ∧
        (∀ segs s1, pageSegs (s.given e) (.cp die) rc.proc rc.vf .engWr 3 rc.dst.toNat rc.bytes.length = .ok (segs, s1) →
          (∀ x l, leaseOver s1 (fun _ => true) segs = some (x, l) → refused 0x34 (leaseHolder x).toNat) ∧
          (leaseOver s1 (fun _ => true) segs = none →
            (rc.op ≠ 3 → (∃ x ∈ segs, s1.poisonedAt x.1 x.2 = true) → refused 0x51 0) ∧
            (rc.op = 3 ∨ (∀ x ∈ segs, s1.poisonedAt x.1 x.2 = false) →
              let r := if rc.op = 3 then (rc.bytes, s1)
                else (collBytes rc.op rc.fmt (engReadAll s1 (.cp die) segs).1 rc.bytes, (engReadAll s1 (.cp die) segs).2)
              ∃ t, exec .ringChunkReceive (s.given e) = .next t ∧ t.mem = (engWriteAll r.2 (.cp die) segs r.1).mem ∧
                (s.cc + 1, Ev.ringChunkReceive die { rc with written := true }) ∈ t.agenda ∧ (t.die die).rsem = (s.die die).rsem)))))

/-- Collectives and ring transfers: `Claims.RingEventResults`, `Claims.RingTransferResults`. -/
def Obligations.RingEventResults : Prop := Claims.RingEventResults ∧ Claims.RingTransferResults

/-- The walker (19 R336, R338, R340, R341, R343-R345, R347; log 18, 26): at an end entry it goes idle, with too few free slots downstream it stays at its entry and
counts a bubble; its entry completes with its tasks, gives back its stash slot, tells its neighbours, and one beyond its budget raises one event; an update of
the downstream neighbour adds to the free slots and its reply sets them; a mirror request is answered with the least number of free slots of the four dies; a
stash request takes a free slot or is refused, a grant lets the pending push go on, a refusal raises one event, a release frees the peer's slot. -/
def Claims.WalkerEventResults : Prop :=
  ∀ (s : State) (h : MsgHdr) (n : Nat) (ref : BitVec 32), h.ok = true →
    let w := s.walker
    (∀ img, w.st = 1 ∨ w.st = 2 → w.ent = some img → w.busy = false →
      (entryKind (entryBytes img) = 5 → ∃ t, exec .walkerCycle (s.given .walkerCycle) = .next t ∧ t.walker = { w with st := 0 } ∧ t.ctxs = s.ctxs ∧
        t.mem = s.mem) ∧
      (entryKind (entryBytes img) ≠ 5 → w.dsfree < field (entryBytes img) 3 1 → ∃ t, exec .walkerCycle (s.given .walkerCycle) = .next t ∧
        t.walker.st = 2 ∧ t.walker.cur = w.cur ∧ (t.walker.bub.getD 0 0).toNat = min (2 ^ 48 - 1) ((w.bub.getD 0 0).toNat + 1) ∧
        t.ctxs = s.ctxs ∧ t.mem = s.mem)) ∧
    (w.busy = true → (∀ k ∈ w.tasks, (s.task k).gone = true) → ∃ t, exec .walkerEntryComplete (s.given .walkerEntryComplete) = .next t ∧
      t.walker.busy = false ∧ t.walker.tasks = [] ∧ (∀ i, w.popSlot = some i → t.walker.stash.get {} i = {} ∧
        ((w.stash.get {} i).loc = 2 → Sent s t 1 0 ((w.stash.get {} i).pkg, 0) .stashRelease)) ∧ t.mem = s.mem ∧
      (entryKind (entryBytes w.runEnt) = 1 → bit (field (entryBytes w.runEnt) 0xC 4) 31 = true → w.uslink.getLsbD 31 = true →
        Sent s t 1 0 (linkTo w.uslink) (fun h => .freeSlotUpdate h 1)) ∧
      (w.issueCc + field (entryBytes w.runEnt) 8 4 < s.cc → ∃ m, t.notices = s.notices ++ [m] ∧ m.cause = 0x75 ∧ m.dest = .cpring 0 ∧
        m.det.d1 = BitVec.ofNat 64 w.runNo ∧ m.det.d2 = BitVec.ofNat 64 (s.cc - w.issueCc)) ∧
      (s.cc ≤ w.issueCc + field (entryBytes w.runEnt) 8 4 → t.notices = s.notices)) ∧
    (fromDown w h = true →
      (w.mirror = false → ∃ t, exec .freeSlotUpdate (s.given (.freeSlotUpdate h n)) = .next t ∧
        t.walker = { w with dsfree := min 65535 (w.dsfree + n) } ∧ t.mem = s.mem) ∧
      (w.mirror = true → ∃ t, exec .mirrorReply (s.given (.mirrorReply h n)) = .next t ∧ t.walker.dsfree = min 65535 n ∧ t.walker.mirror = false ∧
        t.mem = s.mem ∧ (∀ e a, w.goWait = some (e, a) → w.st = 0 ∨ w.st = 3 → t.walker.st = 1 ∧ t.walker.cur = e ∧ t.walker.issued = 0))) ∧
    (fromDown w h = false → exec .freeSlotUpdate (s.given (.freeSlotUpdate h n)) = .next (s.given (.freeSlotUpdate h n)) ∧
      exec .mirrorReply (s.given (.mirrorReply h n)) = .next (s.given (.mirrorReply h n))) ∧
    (∃ t, exec .mirrorRequest (s.given (.mirrorRequest h ref)) = .next t ∧ t.walker = w ∧ t.mem = s.mem ∧
      (let free := fun (d : Nat) => wellSlots s (refWell d ref.toNat) - wellFilled s (refWell d ref.toNat)
       Sent s t 1 h.dest (h.pkg, h.die) (fun k => .mirrorReply k (min (min (free 0) (free 1)) (min (free 2) (free 3)))))) ∧
    ((∀ i, i < 64 → (w.stash.get {} i).used = true) → ∃ t, exec .stashRequest (s.given (.stashRequest h)) = .next t ∧ t.walker = w ∧ t.mem = s.mem ∧
      Sent s t 1 h.dest (h.pkg, h.die) .stashRefusal) ∧
    (∀ i, i < 64 → (w.stash.get {} i).used = false → (∀ j, j < i → (w.stash.get {} j).used = true) →
      ∃ t, exec .stashRequest (s.given (.stashRequest h)) = .next t ∧ t.walker.stash.get {} i = { used := true, peer := true, pkg := h.pkg } ∧
        (∀ j, j ≠ i → t.walker.stash.get {} j = w.stash.get {} j) ∧ w.hwm ≤ t.walker.hwm ∧ t.mem = s.mem ∧ Sent s t 1 h.dest (h.pkg, h.die) .stashGrant) ∧
    (askedOf w h.pkg = true →
      (∃ t, exec .stashGrant (s.given (.stashGrant h)) = .next t ∧ t.walker = { w with granted := true } ∧ t.mem = s.mem) ∧
      (∃ t m, exec .stashRefusal (s.given (.stashRefusal h)) = .next t ∧ t.walker = { w with refusedPush := true } ∧ t.notices = s.notices ++ [m] ∧
        m.cause = 0x43 ∧ m.dest = .cpring 0 ∧ m.det.d1 = BitVec.ofNat 64 w.cur ∧ m.det.d2 = BitVec.ofNat 64 h.pkg ∧ t.mem = s.mem)) ∧
    (∀ i, i < 64 → (let x := w.stash.get {} i; x.used && x.peer && x.pkg == h.pkg) = true →
      (∀ j, j < i → (let x := w.stash.get {} j; x.used && x.peer && x.pkg == h.pkg) = false) →
      ∃ t, exec .stashRelease (s.given (.stashRelease h)) = .next t ∧ t.walker.stash.get {} i = {} ∧
        (∀ j, j ≠ i → t.walker.stash.get {} j = w.stash.get {} j) ∧ t.mem = s.mem)

/-- The walker at its current entry (19 R333-R336, R339, R343-R345; log 26): the first condition that fails, a well that a launch needs without a filled slot, a full
stash or no slot at the push's location, a task that TASK would refuse, counts a bubble; a push to a peer asks for a slot once, and a host without
room raises 0x43; an entry that breaks its layout, an unreadable or broken issue block, a launch that TASK would trap on or refuse for reason 1, a stash slot that is not
to be had and a record that cannot be written stop the walker on error; otherwise the entry issues: its stash slot is taken, its free slots are subtracted,
its record is written and its tasks are launched in die order, and the next entry is current.
It rests on the model's own choices of log 25, 89. -/
def Claims.WalkerIssueResults : Prop :=
  ∀ (s : State) (img : BitVec 256),
    let w := s.walker
    let u := s.given .walkerCycle
    let e := entryBytes img
    let b := w.blk
    let ref := field e 0xC 4
    let op := stashOp e
    let own := w.stash.filter (fun x => x.2.used && !x.2.peer)
    let up := bit ref 31 = true ∧ ∃ d < 4, launchWord b d ≠ 0 ∧ wellFilled s (refWell d ref) = 0
    let full := op = 1 ∧ stashLimit e ≤ own.length
    let hostFull := op = 1 ∧ stashLoc e = 3 ∧ offTarget b ≤ (own.filter (fun x => x.2.loc == 3)).length
    let peerWaits := op = 1 ∧ stashLoc e = 2 ∧ w.granted = false
    let counts := fun (t : State) (k : Nat) => exec .walkerCycle u = .next t ∧ t.walker.st = 2 ∧ t.walker.cur = w.cur ∧
      (t.walker.bub.getD k 0).toNat = min (2 ^ 48 - 1) ((w.bub.getD k 0).toNat + 1) ∧ (∀ j, j ≠ k → t.walker.bub.getD j 0 = w.bub.getD j 0) ∧
      t.ctxs = s.ctxs ∧ t.mem = s.mem
    let stops := fun (cause : Nat) => ∃ t, exec .walkerCycle u = .next t ∧ t.walker.st = 3 ∧ t.walker.cause = cause ∧ t.walker.cur = w.cur ∧
      (∃ m ∈ t.notices, m.cause = cause ∧ m.dest = .cpring 0) ∧ t.mem = s.mem
    let asks := fun (a : Agent) (key n : BitVec 64) => ∃ t, exec .walkerCycle u = .next t ∧ t.walker.st = w.st ∧ t.walker.cur = w.cur ∧ t.walker.ent = w.ent ∧
      (t.ctx a).far.any (fun f => f.use_ == .walker && f.key == key.toNat && f.len == n.toNat) = true ∧ t.mem = s.mem
    (w.st = 1 ∨ w.st = 2) → w.busy = false →
    (w.ent = none → w.newUs = none → w.newDs = none → w.table.get 0 w.cur = img →
      let v := u.modWalker (fun w => { w with ent := some img, blk := [], asked := false, granted := false, refusedPush := false })
      ((stabEntryBad e).isSome = true → stops 0x02) ∧
      (stabEntryBad e = none → entryKind e ≠ 5 →
        (∀ f, readEngineDesc v (.cp 0) .walker (identOf s (.cp 0)) (field e 0x18 8 + 64 * field e 1 1) 64 = .error f →
          (f.cause ≠ 0 → stops f.cause) ∧ (f.cause = 0 → asks (.cp 0) f.d1 f.d2)) ∧
        (∀ blk v', readEngineDesc v (.cp 0) .walker (identOf s (.cp 0)) (field e 0x18 8 + 64 * field e 1 1) 64 = .ok (blk, v') →
          ((stabBlockBad e blk).isSome = true → v'.mem = s.mem → stops 0x02) ∧
          (stabBlockBad e blk = none → exec .walkerCycle u = exec .walkerCycle ((walkerDrops v').modWalker (fun w => { w with blk := blk })))))) ∧
    (w.ent = some img → entryKind e ≠ 5 → field e 3 1 ≤ w.dsfree →
      (up → ∃ t, counts t 1) ∧
      (¬up → full → ∃ t, counts t 2) ∧
      (¬up → ¬full → hostFull → ∃ t, counts t 2 ∧ (w.refusedPush = false → t.walker.refusedPush = true ∧ ∃ m ∈ t.notices, m.cause = 0x43 ∧ m.dest = .cpring 0)) ∧
      (¬up → ¬full → ¬hostFull →
        (∀ cause det, checkLaunches b [0, 1, 2, 3] u = .error cause det → stops cause) ∧
        (∀ d det, checkLaunches b [0, 1, 2, 3] u = .absent d det → asks (.cp d) det.d1 det.d2) ∧
        (∀ refused, checkLaunches b [0, 1, 2, 3] u = .ready refused → peerWaits → ∃ t, counts t 2 ∧
          (refused = false → w.asked = false → t.walker.asked = true ∧ Sent s t 1 0 (offTarget b, 0) .stashRequest)) ∧
        (checkLaunches b [0, 1, 2, 3] u = .ready true → ¬peerWaits → ∃ t, counts t 3) ∧
        (checkLaunches b [0, 1, 2, 3] u = .ready false → ¬peerWaits →
          let slot := if op = 1 then stashFind w (fun x => !x.used)
            else if op = 2 then stashFind w (fun x => x.used && !x.peer && x.mb == BitVec.ofNat 16 (field e 4 2)) else none
          (op ≠ 0 → slot = none → stops 0x78) ∧
          (op = 0 ∨ slot ≠ none →
            let i := slot.getD 0x3F
            let x : Stash := { used := true, mb := BitVec.ofNat 16 (field e 4 2), loc := stashLoc e, bytes := field e 0x14 4
                               pkg := if stashLoc e = 2 then offTarget b else 0 }
            let u1 := (if op = 1 then stashTake u i x else u).modWalker (fun w => { w with dsfree := w.dsfree - field e 3 1 })
            let record := toBytes 8 (field e 4 2 + i * 2 ^ 16 + stashLoc e * 2 ^ 22 + w.cur * 2 ^ 24) ++ toBytes 8 w.issued.toNat
            (∀ f, writeRecord u1 (field b 0x20 8) record = .error f → stops f.cause) ∧
            (∀ u2 u3, writeRecord u1 (field b 0x20 8) record = .ok u2 →
              launchAll b [0, 1, 2, 3] (u2.modWalker (fun w => { w with
                st := 1, busy := true, tasks := [], issueCc := s.cc, runEnt := BitVec.ofNat 256 (ofBytes e), runNo := w.cur
                popSlot := if op = 2 then slot else none })) = .ok u3 →
              ∃ t, exec .walkerCycle u = .next t ∧ t.walker.st = 1 ∧ t.walker.busy = true ∧ t.walker.cur = (w.cur + 1) % 256 ∧ t.walker.ent = none ∧
                t.walker.dsfree = w.dsfree - field e 3 1 ∧ t.walker.issueCc = s.cc ∧ t.walker.runNo = w.cur ∧
                t.walker.issued = w.issued + BitVec.ofNat 48 ((List.range 4).filter (fun d => launchWord b d != 0)).length ∧
                (op = 1 → t.walker.stash.get {} i = x ∧ w.hwm ≤ t.walker.hwm) ∧ (op = 2 → t.walker.popSlot = some i) ∧ t.tasks = u3.tasks ∧ t.mem = u3.mem))))) ∧
    (∀ (v : State) (irec : Nat) (bs : List Byte), (irec = 0 → writeRecord v irec bs = .ok v) ∧
      (∀ segs v', irec ≠ 0 → resolveRange v (.cp 0) .engWr .m 3 (BitVec.ofNat 64 irec) 16 = .ok (segs, v') → (∀ g ∈ segs, g.1.fabric = false) →
        leaseOver v' (fun _ => true) segs = none → writeRecord v irec bs = .ok (engWriteAll v' (.cp 0) segs bs)))

/-- The walker of the schedule table: `Claims.WalkerEventResults`, `Claims.WalkerIssueResults`. -/
def Obligations.WalkerEventResults : Prop := Claims.WalkerEventResults ∧ Claims.WalkerIssueResults

/-- At a claim object (12 R242, R243; 13 R245; 19 R347, R348; log 7, 27, 28): a claim takes a range of the free slots and lands its first and its length; a token with a free
slot is written with its id and counted, and its sender learns of it; one that finds none is refused; a token that names its package and has no rights there, or
whose object is absent, fails with 0x21; a refusal enters the refusal queue where it has space, raises one event and counts a failed effect.
It rests on the model's own choices of log 87. -/
def Claims.RoutingEventResults : Prop :=
  ∀ (s : State) (c : Claim) (k : Token),
    let answered := fun (t : State) (n : Nat) (e : Ev) => Answered s t k.pkg k.die k.dest n e
    let back : MsgHdr := { pkg := s.pkgid.toNat, die := k.dest, dest := k.die, tag := k.tag }
    (c.who.ok = true → laterInOrder (s.given (.claimGrant c)) (.claimGrant c) = false → claimBad (s.bytesAt (vaultKey c.obj.toNat) 64) = false →
      let o := s.bytesAt (vaultKey c.obj.toNat) 64
      let first := field o 4 4
      let n := min c.cnt (bits (field o 0 4) 15 0 - first)
      ∃ t, exec .claimGrant (s.given (.claimGrant c)) = .next t ∧ t.mem = (s.storeNum (vaultKey c.obj.toNat + 4) 4 (first + n)).mem ∧
        (∀ e ∈ (s.ctx c.who).flight, e.id = c.ref → e.kind = .load → { e with buf := toBytes 8 (first + n * 2 ^ 32) } ∈ (t.ctx c.who).flight) ∧
        (s.cc + 48, Ev.loadLanding c.who c.ref) ∈ t.agenda ∧ t.notices = s.notices) ∧
    ((Ev.claimSend k).ok = true → laterInOrder (s.given (.claimSend k)) (.claimSend k) = false →
      let far := k.far = true ∨ k.pkg ≠ s.pkgid.toNat
      let here := rightsOk s k.vf = true ∧ vaultPresent s k.obj.toNat 64 = true
      let key := vaultKey k.obj.toNat
      let o := s.bytesAt key 64
      let n := field o 4 4
      let slot := field o 16 8 + n * field o 8 4
      let ids := field o 24 8 + 4 * n
      (far → ¬here → ∃ t, exec .claimSend (s.given (.claimSend k)) = .next t ∧ answered t 1 (.messageFailure k.tag 0x21) ∧ t.mem = s.mem ∧ t.ctxs = s.ctxs) ∧
      (¬far ∨ here → claimBad o = false →
        (n < bits (field o 0 4) 15 0 → slotPresent s slot ids = true → ∃ t, exec .claimSend (s.given (.claimSend k)) = .next t ∧
          t.mem = (((s.storeAt (vaultKey slot) (toBytes 512 k.payload.toNat)).storeNum (vaultKey ids) 4 k.tid.toNat).storeNum (key + 4) 4 (n + 1)).mem ∧
          t.ctxs = s.ctxs ∧ (if k.pkg = s.pkgid.toNat then t.remotes = s.remotes.erase k.tag else answered t 0 (.remoteResponse back []))) ∧
        (bits (field o 0 4) 15 0 ≤ n → ∃ t, exec .claimSend (s.given (.claimSend k)) = .next t ∧
          answered t 0 (.routeRefusal back k.who k.rq k.tid 1 k.obj) ∧
          t.mem = (s.storeNum (key + 12) 4 (min (s.numAt (key + 12) 4 + 1) (2 ^ 32 - 1))).mem ∧ t.ctxs = s.ctxs))) ∧
    (∀ h a rq tid reason obj, h.ok = true → a.ok = true →
      let key := s.queueKey a rq
      let q := s.queue key
      let fits := q.present = true ∧ q.home.isSome = true ∧ 0 < q.space
      ∃ t n, exec .routeRefusal (s.given (.routeRefusal h a rq tid reason obj)) = .next t ∧ (t.ctx a).failed = (s.ctx a).failed + 1 ∧
        (t.ctx a).live = (s.ctx a).live ∧ t.remotes = s.remotes.erase h.tag ∧ t.notices.getLast? = some n ∧ n.cause = 0x64 ∧ n.det.d1 = tid.setWidth 64 ∧
        n.det.d3 = obj ∧ (fits → n.det.d2 = BitVec.ofNat 64 reason) ∧ (¬fits → n.det.d2 = BitVec.ofNat 64 (reason + 2 ^ 8)) ∧
        (fits →
          (t.queue key).els = q.els ++ [(BitVec.ofNat 64 (tid.toNat + reason % 2 ^ 16 * 2 ^ 32 + h.pkg % 2 ^ 16 * 2 ^ 48), false)] ∧
          (t.queue key).pushed = q.pushed + 1 ∧ (t.queue key).resv = q.resv) ∧
        (¬fits → t.queue key = q ∧ t.notices = s.notices ++ [n]))

/-- Remote accesses (18 R316; 19 R346-R348, R407; 12 R233, R239; 23 R394; log 18, 28): at the target a read of an existing place answers its bytes, a write stores them
and is acknowledged, a pushed line enters the well at its write pointer; a place that is absent, or a function without rights, answers 0x21, poison 0x51, a lease
0x34 with the holder, and changes nothing; at the sender an answer completes the load, with its context's own writes over its bytes, the channel or the ring that awaits it,
and a failure is counted and told: of a load or a released write with its slot and its virtual address, a lost message deferred, with the package and die not reached (22
R368, R369); an answer to a package that no route reaches is told on the die that answers (log 86); a route lost with its last port fails what travels on it, a returned port only changes its state.
It rests on the model's own choices of log 19. -/
def Claims.RemoteEventResults : Prop :=
  ∀ (s : State) (h : MsgHdr) (vf addr len tag : Nat) (bs : List Byte) (port : Nat), h.ok = true → tag < 2 ^ 32 →
    let back : MsgHdr := { pkg := s.pkgid.toNat, die := h.dest, dest := h.die, tag := h.tag }
    let answered := fun (t : State) (e : Ev) => Answered s t h.pkg h.die h.dest 1 e
    let refuses := fun (i : Instr) (e : Ev) (cause info : Nat) => ∃ t, exec i (s.given e) = .next t ∧ answered t (.messageFailure h.tag cause info) ∧
      t.ctxs = s.ctxs ∧ t.mem = s.mem
    let rd := Ev.remoteRead h vf addr len
    let wr := Ev.remoteWrite h vf addr bs
    ((rightsOk s vf = false ∨ fabricPlace s addr len = none) → refuses .remoteRead rd 0x21 0) ∧
    (∀ l, rightsOk s vf = true → fabricPlace s addr len = some l →
      (s.poisonedAt l len = true → refuses .remoteRead rd 0x51 0) ∧
      (s.poisonedAt l len = false →
        let r := engReadAll (s.given rd) (targetAgent l) (lineSegs l (len / 128 + 2) len)
        (∃ t, exec .remoteRead (s.given rd) = .next t ∧ answered t (.remoteResponse back r.1) ∧ t.ctxs = s.ctxs ∧ t.mem = r.2.mem) ∧
        ((l.space = .p ∨ l.space = .v) → l.coded = none → r.1 = s.bytesAt l.key len ∧ r.2.mem = s.mem))) ∧
    ((rightsOk s vf = false ∨ fabricPlace s addr bs.length = none) → refuses .remoteWrite wr 0x21 0) ∧
    (∀ l, rightsOk s vf = true → fabricPlace s addr bs.length = some l →
      let segs := lineSegs l (bs.length / 128 + 2) bs.length
      (∀ x m, leaseOver (s.given wr) (fun _ => true) segs = some (x, m) → refuses .remoteWrite wr 0x34 (leaseHolder x).toNat) ∧
      (leaseOver (s.given wr) (fun _ => true) segs = none →
        ∃ t, exec .remoteWrite (s.given wr) = .next t ∧ answered t (.remoteResponse back []) ∧ t.ctxs = s.ctxs ∧
          t.mem = (engWriteAll (s.given wr) (targetAgent l) segs bs).mem ∧
          ((l.space = .p ∨ l.space = .v) → l.coded = none →
            ∀ k, t.byteAt k = if l.key ≤ k ∧ k < l.key + bs.length then bs.getD (k - l.key) 0 else s.byteAt k))) ∧
    (∀ line b, rightsOk s vf = true → addr % 64 = 0 → fabricPlace s addr 64 = some b → b.space = .p → wellBad s b.key = none →
      let ea := pointerAddr s b.key
      let l : Loc := { space := .p, key := b.key / 2 ^ 22 * 2 ^ 22 + ea % 2 ^ 22 }
      let e := Ev.wellPushLine h vf addr line
      (slotFree s b.key = false → exec .wellPushLine (s.given e) = .next ((s.given e).after 1 e)) ∧
      (slotFree s b.key = true → (∀ x ∈ s.leases, ¬(x.lo < l.key + 128 ∧ l.key < x.hi)) →
        ∃ t, exec .wellPushLine (s.given e) = .next t ∧ answered t (.remoteResponse back []) ∧
          t.mem = (lineDelivered (s.storeAt l.key (toBytes 128 line.toNat)) (targetAgent b) b.key).mem)) ∧
    (∀ r, s.remotes.find? (fun r => r.1 == tag) = some (tag, r) →
      let e := Ev.remoteResponse { h with tag := tag } bs
      (∀ f m x id off, r.purpose = .load id off → (s.ctx r.who).flight = f ++ x :: m → (∀ y ∈ f ++ m, y.id ≠ id) → x.id = id → x.kind = .load →
        x.arrived = false → x.waits = 1 → x.fault = none → ∃ t, exec .remoteResponse (s.given e) = .next t ∧ t.remotes = s.remotes.erase tag ∧
          (t.ctx r.who).flight = f ++ { x with waits := 0, arrived := true, buf := patch x.buf off (r.laid.foldl (fun b y => b.set y.1 y.2) bs) } :: m ∧
          t.mem = s.mem) ∧
      (∀ cl ch, r.purpose = .chan cl ch → cl < 64 → ch < 16 → (chanOf s cl ch).waits = some tag → ∃ t, exec .remoteResponse (s.given e) = .next t ∧
        (chanOf t cl ch).waits = none ∧ t.mem = s.mem ∧
        (r.write = true → (chanOf t cl ch).done = (chanOf s cl ch).done + 128) ∧
        (r.write = false → (chanOf t cl ch).raw = (chanOf s cl ch).raw ++ bs ∧ (chanOf t cl ch).srcPos = (chanOf s cl ch).srcPos + 128)) ∧
      (∀ die grp no o, r.purpose = .ring die grp no → die < 4 → (s.die die).ring = some o → o.coll = false → o.grp = grp → o.no = no →
        ∃ t, exec .remoteResponse (s.given e) = .next t ∧ (t.die die).ring = some { o with wrote := o.wrote + 1 } ∧ t.mem = s.mem) ∧
      (∀ id, r.purpose = .ask id → ∃ t, exec .remoteResponse (s.given e) = .next t ∧ t.mem = s.mem ∧ (t.ctx r.who).live = (s.ctx r.who).live ∧
        (t.ctx r.who).far = (s.ctx r.who).far.map (fun f => if f.id = id then { f with got := some (r.laid.foldl (fun b y => b.set y.1 y.2) bs) } else f)) ∧
      (∀ die grp no, r.purpose = .coll die grp no → wroteAll s die grp no = true →
        ∃ t, exec .remoteResponse (s.given e) = .next t ∧ (s.cc + 1, Ev.collectiveComplete die) ∈ t.agenda ∧ t.mem = s.mem) ∧
      (∀ cause info, r.purpose = .effect → ∃ t, exec .messageFailure (s.given (.messageFailure tag cause info)) = .next t ∧
        t.remotes = s.remotes.erase tag ∧ (t.ctx r.who).failed = (s.ctx r.who).failed + 1 ∧ (t.ctx r.who).live = (s.ctx r.who).live ∧ t.mem = s.mem ∧
        ((s.ctx r.who).task = none → (s.ctx r.who).st = .front → ∃ x ∈ (t.ctx r.who).pend, x.cause = cause ∧ x.det = (remoteTrap r cause info).det ∧ x.bund = r.bund)) ∧
      (∀ d0 cause info, r.det0 = some d0 → d0 ≠ 4 → cause ≠ 0x44 →
        (remoteTrap r cause info).dfr = false ∧ (remoteTrap r cause info).det.d0 = d0 ∧
        (cause = 0x21 → (remoteTrap r cause info).det.d1 = r.va ∧ (r.lane < 128 → (remoteTrap r cause info).det.d2.toNat = r.lane + (if r.write then 1 else 0) * 2 ^ 12)) ∧
        (cause ≠ 0x21 → (remoteTrap r cause info).det.d1 = BitVec.ofNat 64 r.addr ∧
          (remoteTrap r cause info).det.d2 = if cause = 0x34 then BitVec.ofNat 64 info else r.va)) ∧
      (∀ info, (remoteTrap r 0x44 info).dfr = true ∧ (remoteTrap r 0x44 info).det.d1 = BitVec.ofNat 64 (r.pkg + r.die * 2 ^ 16))) ∧
    (port < 48 →
      (∃ t, exec .linkFailure (s.given (.linkFailure port)) = .next t ∧ (t.host.ports.get {} port).up = false ∧ t.ctxs = s.ctxs ∧ t.mem = s.mem ∧
        (∀ r ∈ s.remotes, t.routeUp r.2.pkg = false → r.2.away = true → (s.cc, Ev.messageFailure r.1 0x44) ∈ t.agenda)) ∧
      (∃ t, exec .linkReturn (s.given (.linkReturn port)) = .next t ∧ (t.host.ports.get {} port).up = true ∧ t.agenda = s.agenda ∧ t.ctxs = s.ctxs ∧
        t.mem = s.mem))

/-- Claims and tokens, and remote accesses: `Claims.RoutingEventResults`, `Claims.RemoteEventResults`. -/
def Obligations.RoutingEventResults : Prop := Claims.RoutingEventResults ∧ Claims.RemoteEventResults

/-- A walk installs the translation that it found in the core's own TLB, the last-level TLB and the walker cache, and nothing where it fails; a line that leaves an L1 is
there no more; a corrected error is counted, an uncorrectable one marks its word and joins a report of its range; a report goes to its cluster's scribe, the PF mailbox
and every owner's mailbox; a notice to a well, ring or mailbox with room is written with its number, and one without room is counted, without an interrupt (17 R299, R315;
22 R370, R371, R380, R385, R387; 23 R396, R397; log 7, 29, 35, 38).
It rests on the model's own choices of log 9, 30, 46, 79. -/
def Obligations.MemoryEventResults : Prop :=
  ∀ (s : State) (a : Agent) (acc addr unit core key id : Nat) (va : BitVec 64), a.ok = true →
    (acc < 5 → canonical va = true → tlbFind (ownTlb s a (accOf acc)) (s.procOf a) (va.toNat % 2 ^ 57) = none →
      tlbFind (s.die a.die).tlb (s.procOf a) (va.toNat % 2 ^ 57) = none →
      (∀ e ns, walk s (s.die a.die).wcache (s.procOf a) (s.vfOf a) (accOf acc) (va.toNat % 2 ^ 57) = .ok (e, ns) →
        ∃ t, exec .pageTableWalk (s.given (.pageTableWalk a acc va)) = .next t ∧ (t.die a.die).tlb = tlbInsert (s.die a.die).tlb e ∧
          (t.die a.die).wcache = cacheNodes (s.die a.die).wcache ns ∧
          (tlbCore a (accOf acc) ≠ none → ownTlb t a (accOf acc) = pushBounded (fun _ => true) (if accOf acc = .fetch then 32 else 64) (ownTlb s a (accOf acc)) e) ∧
          t.ctxs = s.ctxs ∧ t.mem = s.mem) ∧
      (∀ f, walk s (s.die a.die).wcache (s.procOf a) (s.vfOf a) (accOf acc) (va.toNat % 2 ^ 57) = .error f →
        exec .pageTableWalk (s.given (.pageTableWalk a acc va)) = .next (s.given (.pageTableWalk a acc va)))) ∧
    (core < 512 → ∃ t, exec .l1Eviction (s.given (.l1Eviction core key)) = .next t ∧ (t.core core).l1.get {} key = {} ∧
      (((s.core core).l1.get {} key).dirty = 0 → t.mem = s.mem) ∧ t.ctxs = s.ctxs) ∧
    (unit < 4 → ∃ t, exec .memoryErrorDetect (s.given (.memoryErrorDetect a unit addr false)) = .next t ∧
      (∃ d, (t.die d).cec = (s.die d).cec + 1 ∧ ∀ e, e ≠ d → t.die e = s.die e) ∧ t.ctxs = s.ctxs ∧ t.mem = s.mem) ∧
    ((Ev.memoryErrorDetect a unit addr true).ok = true → ∃ t, exec .memoryErrorDetect (s.given (.memoryErrorDetect a unit addr true)) = .next t ∧ (unit < 4 → t.poisoned addr 1 = true) ∧
      (let p := errorPlace a unit addr
       ∃ r ∈ t.reports, r.2.unit = unit ∧ r.2.num = p.1 ∧ r.2.sub = p.2.1 ∧ r.2.lo ≤ p.2.2 ∧ p.2.2 < r.2.hi ∧ 0 < r.2.count) ∧ t.ctxs = s.ctxs ∧ t.mem = s.mem) ∧
    (∀ r, s.reports.find? (fun r => r.1 == id) = some (id, r) → ∃ t, exec .errorReport (s.given (.errorReport id)) = .next t ∧
      t.reports = s.reports.erase id ∧ (∃ n ∈ t.notices, n.dest = .pf ∧ n.cause = 0x54 ∧ n.ext = reportExt r) ∧
      (∀ cl, r.who.cluster? = some cl → ∃ n ∈ t.notices, n.dest = .scribe cl ∧ n.cause = 0x54 ∧ n.ext = reportExt r) ∧
      (∀ o ∈ r.owners, ∃ n ∈ t.notices, n.dest = .vf o.1 ∧ n.cause = 0x54 ∧ n.ext = reportExt r) ∧ t.ctxs = s.ctxs ∧ t.mem = s.mem) ∧
    (∀ n ns, s.notices = n :: ns →
      let m := s.host.mbox
      let d := s.die 0
      (n.dest = .pf → m.base.getLsbD 0 = true → (m.prod - m.cons).toNat < 64 → ∃ t, exec .noticeDelivery (s.given .noticeDelivery) = .next t ∧
        t.notices = ns ∧ t.host.mbox = { m with prod := m.prod + 1, seq := m.seq + 1, lost := 0 } ∧ t.outbox = s.outbox ++ [.msix none 0] ∧
        t.bytesAt (2 ^ 50 + wbits m.base 49 13 * 2 ^ 13 + m.prod.toNat % 64 * 128) 128 = noticeRecord n m.seq.toNat m.lost.toNat ∧ t.ctxs = s.ctxs) ∧
      (n.dest = .pf → m.base.getLsbD 0 = false ∨ 64 ≤ (m.prod - m.cons).toNat → ∃ t, exec .noticeDelivery (s.given .noticeDelivery) = .next t ∧
        t.notices = ns ∧ t.host.mbox = { m with lost := m.lost + 1 } ∧ t.outbox = s.outbox ∧ t.ctxs = s.ctxs ∧ t.mem = s.mem) ∧
      (∀ v, n.dest = .vf v → let m := s.host.vfMbox.get {} v
        (m.base.getLsbD 0 = true → (m.prod - m.cons).toNat < 64 → ∃ t, exec .noticeDelivery (s.given .noticeDelivery) = .next t ∧ t.notices = ns ∧
          t.host.vfMbox.get {} v = { m with prod := m.prod + 1, seq := m.seq + 1, lost := 0 } ∧ t.outbox = s.outbox ++ [.msix (some v) 0] ∧
          t.bytesAt (2 ^ 50 + wbits m.base 49 13 * 2 ^ 13 + m.prod.toNat % 64 * 128) 128 = noticeRecord n m.seq.toNat m.lost.toNat) ∧
        (m.base.getLsbD 0 = false ∨ 64 ≤ (m.prod - m.cons).toNat → ∃ t, exec .noticeDelivery (s.given .noticeDelivery) = .next t ∧ t.notices = ns ∧
          t.host.vfMbox.get {} v = { m with lost := m.lost + 1 } ∧ t.outbox = s.outbox ∧ t.mem = s.mem)) ∧
      (n.dest = .cpring 0 → d.cpring.getLsbD 0 = true → (d.cpprod - d.cpcons).toNat < 256 → ∃ t, exec .noticeDelivery (s.given .noticeDelivery) = .next t ∧
        t.notices = ns ∧ (t.die 0).cpprod = d.cpprod + 1 ∧ (t.die 0).seq = d.seq + 1 ∧ (t.die 0).lost = 0 ∧ t.outbox = s.outbox ++ [.msix none 0] ∧
        t.bytesAt (2 ^ 50 + wbits d.cpring 49 15 * 2 ^ 15 + d.cpprod.toNat % 256 * 128) 128 = noticeRecord n d.seq.toNat d.lost.toNat) ∧
      (∀ cl, n.dest = .scribe cl → wellSlots s (padKey cl 0x3FBF80) ≤ wellFilled s (padKey cl 0x3FBF80) →
        ∃ t, exec .noticeDelivery (s.given .noticeDelivery) = .next t ∧ t.notices = ns ∧ (t.cluster cl).lost = (s.cluster cl).lost + 1 ∧ t.mem = s.mem) ∧
      (∀ cl, n.dest = .scribe cl → let key := padKey cl 0x3FBF80
        wellFilled s key < wellSlots s key → ∃ t, exec .noticeDelivery (s.given .noticeDelivery) = .next t ∧
          t.mem = (performAdvance (s.storeAt (padKey cl (pointerAddr s key % 2 ^ 22)) (noticeRecord n (s.cluster cl).seq.toNat (s.cluster cl).lost.toNat)) key 1).mem ∧
          (t.cluster cl).seq = (s.cluster cl).seq + 1 ∧ (t.cluster cl).lost = 0))

/-- Command streams (14 R247; 23 R394, R399, R400, R402; log 61, 65): a tail beyond the last is taken and seen two cc later, a lower one is ignored; a stream address written to a stopped
command processor sets its head and tail; its run bit sets it running there, its stop bit asks a running one to stop; in BOOTSTAT 3 nothing of it happens. -/
def Claims.StreamEventResults : Prop :=
  ∀ (s : State) (d : Nat) (x : BitVec 64), d < 4 →
    let a := Agent.cp d
    (s.host.boot ≠ 3 →
      ((s.die d).tail.toNat < x.toNat → ∃ t, exec .tail (s.given (.tail d x)) = .next t ∧ (t.die d).tail = x ∧ (s.cc + 2, Ev.streamWake d x) ∈ t.agenda ∧
        t.ctxs = s.ctxs ∧ t.mem = s.mem) ∧
      (x.toNat ≤ (s.die d).tail.toNat → exec .tail (s.given (.tail d x)) = .next (s.given (.tail d x))) ∧
      ((s.ctx a).st ≠ .front →
        (∃ t, exec .stream (s.given (.stream d x)) = .next t ∧ (t.die d).stream = x &&& 0x1FFFFFFFFFFFFFC ∧ (t.die d).head = x &&& 0x1FFFFFFFFFFFFFC ∧
          (t.die d).tail = x &&& 0x1FFFFFFFFFFFFFC ∧ (t.die d).seen = x &&& 0x1FFFFFFFFFFFFFC ∧ (t.die d).moved = true ∧ t.ctxs = s.ctxs ∧ t.mem = s.mem) ∧
        (∃ t, exec .cpctlRun (s.given (.cpctlRun d)) = .next t ∧ (t.ctx a).st = .front ∧ (t.die d).run = true ∧ (t.die d).moved = false ∧
          (t.ctx a).live.c.pc = (if (s.die d).moved then (s.die d).stream else (s.ctx a).live.c.pc) ∧ (t.die d).head = (t.ctx a).live.c.pc ∧
          (t.ctx a).live.s = (s.ctx a).live.s ∧ t.mem = s.mem)) ∧
      ((s.ctx a).st = .front → ∃ t, exec .cpctlStop (s.given (.cpctlStop d)) = .next t ∧ (t.ctx a).st = .front ∧
        (t.ctx a).stopReq = ((s.ctx a).stopReq.or (some (0x70, 0))) ∧ (t.ctx a).live = (s.ctx a).live ∧ t.mem = s.mem)) ∧
    (s.host.boot = 3 → ∀ e ∈ [Ev.tail d x, .stream d x, .cpctlRun d, .cpctlStop d], exec e.instr (s.given e) = .next (s.given e)) ∧
    ((s.die d).seen.toNat < x.toNat → x.toNat ≤ (s.die d).tail.toNat → ∃ t, exec .streamWake (s.given (.streamWake d x)) = .next t ∧ (t.die d).seen = x ∧
      (t.die d).tail = (s.die d).tail ∧ t.ctxs = s.ctxs ∧ t.mem = s.mem)

/-- Registers of the windows (23 R389, R394-R396, R402; log 18, 61): the base registers keep their address and enable bits, a mailbox keeps its BASE and CONS, a register with a behaviour of its
own has it in this cc; a virtual function's window reaches its own mailbox only. A read answers ID and BOOTSTAT in every boot state and nothing else in BOOTSTAT 3; without power nothing is
answered; a function without fabric rights reads FABCNT as 0, and so does every byte that no register covers. -/
def Claims.HostRegisterResults : Prop :=
  (∀ (s : State) (x : BitVec 64) (d vf : Nat), s.host.boot ≠ 3 → d < 4 → vf < 32 →
    let w := fun (f : Option Nat) (off : Nat) => s.given (.hostRegisterWrite f off x)
    let base := fun (lo : Nat) => BitVec.ofNat 64 (x.toNat % 2 ^ 52 / 2 ^ lo * 2 ^ lo + x.toNat % 2)
    (∃ t, exec .hostRegisterWrite (w none 0x50) = .next t ∧ t.host.proctab = base 13 ∧ t.ctxs = s.ctxs ∧ t.mem = s.mem) ∧
    (∃ t, exec .hostRegisterWrite (w none (0x60 + 8 * d)) = .next t ∧ (t.die d).cpring = base 15 ∧ t.ctxs = s.ctxs ∧ t.mem = s.mem) ∧
    (∃ t, exec .hostRegisterWrite (w none (0x90 + 4 * d)) = .next t ∧ (t.die d).cpcons = x.setWidth 32 ∧ t.ctxs = s.ctxs ∧ t.mem = s.mem) ∧
    (∃ t, exec .hostRegisterWrite (w none 0xA0) = .next t ∧ t.host.mbox = { s.host.mbox with base := base 13 } ∧ t.ctxs = s.ctxs ∧ t.mem = s.mem) ∧
    (∃ t, exec .hostRegisterWrite (w none 0xAC) = .next t ∧ t.host.mbox = { s.host.mbox with cons := x.setWidth 32 } ∧ t.ctxs = s.ctxs ∧ t.mem = s.mem) ∧
    (∃ t, exec .hostRegisterWrite (w none (0x10 + 8 * d)) = .next t ∧ (s.cc, Ev.tail d x) ∈ t.agenda ∧ t.dies = s.dies) ∧
    (∃ t, exec .hostRegisterWrite (w none (0xC0 + 8 * d)) = .next t ∧ (s.cc, Ev.stream d x) ∈ t.agenda ∧ t.dies = s.dies) ∧
    (∃ t, exec .hostRegisterWrite (w none 0x58) = .next t ∧
      (s.cc, if x.getLsbD 0 then Ev.quiesceRequest else .quiesceWithdraw) ∈ t.agenda ∧ t.host = s.host) ∧
    (∃ t, exec .hostRegisterWrite (w none 0xB0) = .next t ∧ (x.getLsbD d = true → (s.cc, Ev.cpctlRun d) ∈ t.agenda) ∧
      (x.getLsbD (4 + d) = true → (s.cc, Ev.cpctlStop d) ∈ t.agenda) ∧ t.dies = s.dies) ∧
    (∃ t, exec .hostRegisterWrite (w (some vf) 0xA0) = .next t ∧ t.host.vfMbox.get {} vf = { s.host.vfMbox.get {} vf with base := base 13 } ∧
      (∀ v, v ≠ vf → t.host.vfMbox.get {} v = s.host.vfMbox.get {} v) ∧ t.host.mbox = s.host.mbox ∧ t.dies = s.dies ∧ t.ctxs = s.ctxs ∧ t.mem = s.mem) ∧
    (∃ t, exec .hostRegisterWrite (w (some vf) 0xAC) = .next t ∧ t.host.vfMbox.get {} vf = { s.host.vfMbox.get {} vf with cons := x.setWidth 32 } ∧
      (∀ v, v ≠ vf → t.host.vfMbox.get {} v = s.host.vfMbox.get {} v) ∧ t.host.mbox = s.host.mbox ∧ t.dies = s.dies ∧ t.ctxs = s.ctxs ∧ t.mem = s.mem)) ∧
  (∀ (s : State) (f : Option Nat) (off i : Nat),
    (s.powered = false → hostByte s f off = none) ∧
    (s.powered = true →
      (i < 4 → hostByte s f i = some ((toBytes 4 0x90001A9E).getD i 0)) ∧
      (i < 8 → hostByte s none (8 + i) = some ((toBytes 8 (s.host.boot + s.host.bootWhy * 2 ^ 8 + s.host.secver.toNat * 2 ^ 16)).getD i 0)) ∧
      (s.host.boot = 3 → 16 ≤ off → hostByte s f off = none) ∧
      (s.host.boot ≠ 3 →
        (i < 8 → hostByte s none (0x50 + i) = some ((toBytes 8 s.host.proctab.toNat).getD i 0) ∧
          hostByte s none (0x58 + i) = some ((toBytes 8 (s.host.quiesce.toNat + s.host.quiesced.toNat * 2)).getD i 0)) ∧
        (i < 8 → ∀ d < 4, hostByte s none (0x10 + 8 * d + i) = some ((toBytes 8 (s.die d).tail.toNat).getD i 0) ∧
          hostByte s none (0x30 + 8 * d + i) = some ((toBytes 8 (s.die d).head.toNat).getD i 0)) ∧
        (∀ v, f = some v →
          hostByte s f 8 = some (BitVec.ofNat 8 (v + (s.host.vfRights.getLsbD v).toNat * 2 ^ 5)) ∧
          (s.host.vfRights.getLsbD v = false → 0x1000 ≤ off → hostByte s f off = some 0)) ∧
        (0x1C00 ≤ off → hostByte s f off = some 0))))

/-- Command streams and window registers: `Claims.StreamEventResults`, `Claims.HostRegisterResults`. -/
def Obligations.HostEventResults : Prop := Claims.StreamEventResults ∧ Claims.HostRegisterResults

/-- Quiesce and Function Level Reset (23 R392, R398, R400; log 61, 79): a request stops the walker and asks every running command processor and every live context to stop; it is
complete, and shows so, once no such stop is pending; only then does a withdrawal clear it; a function none of whose contexts is live is reset: its tasks
are gone, its saved members are no more, its mailbox is cleared; one of the physical function clears its mailbox alone. -/
def Obligations.QuiesceEventResults : Prop :=
  ∀ (s : State) (vf : Nat), s.host.boot ≠ 3 →
    (∃ t, exec .quiesceRequest (s.given .quiesceRequest) = .next t ∧ t.host.quiesce = true ∧ (s.cc, Ev.quiesceComplete) ∈ t.agenda ∧ t.mem = s.mem ∧
      (s.walker.st = 1 ∨ s.walker.st = 2 → t.walker.st = 0) ∧ t.walker.cur = s.walker.cur ∧
      (∀ d, d < 4 → (s.ctx (.cp d)).st = .front → (t.ctx (.cp d)).stopReq.isSome = true) ∧
      (∀ e ∈ s.ctxs, (agentOf e.1).onCore = true → live s (agentOf e.1) = true → (t.ctx (agentOf e.1)).stopReq.isSome = true) ∧
      (∀ b : Agent, (t.ctx b).live = (s.ctx b).live ∧ (t.ctx b).st = (s.ctx b).st)) ∧
    (s.host.quiesce = true → s.host.quiesced = false →
      (stopsPending s = false → ∃ t, exec .quiesceComplete (s.given .quiesceComplete) = .next t ∧ t.host = { s.host with quiesced := true } ∧ t.ctxs = s.ctxs ∧
        t.mem = s.mem) ∧
      (stopsPending s = true → ∃ t, exec .quiesceComplete (s.given .quiesceComplete) = .next t ∧ t.host = s.host ∧
        (s.cc + 1, Ev.quiesceComplete) ∈ t.agenda ∧ t.ctxs = s.ctxs ∧ t.mem = s.mem)) ∧
    (∃ t, exec .quiesceWithdraw (s.given .quiesceWithdraw) = .next t ∧ t.ctxs = s.ctxs ∧ t.mem = s.mem ∧
      t.host = if s.host.quiesced then { s.host with quiesce := false, quiesced := false } else s.host) ∧
    (vf < 32 → liveContexts s (fun v => v == vf) = [] → ∃ t, exec .functionLevelReset (s.given (.functionLevelReset (some vf))) = .next t ∧
      t.host.vfMbox.get {} vf = {} ∧ (∀ k, bits (s.task k).owner.toNat 4 0 = vf → (k, s.task k) ∈ s.tasks → (t.task k).gone = true) ∧
      (∀ m ∈ t.saved, ∀ p ∈ s.tasks, p.1 = m.task → p.2.gone = false → bits p.2.owner.toNat 4 0 ≠ vf)) ∧
    (vf < 32 → liveContexts s (fun v => v == vf) ≠ [] → ∃ t, exec .functionLevelReset (s.given (.functionLevelReset (some vf))) = .next t ∧
      (s.cc + 1, Ev.functionLevelReset (some vf)) ∈ t.agenda ∧ t.mem = s.mem ∧
      ∀ a ∈ liveContexts s (fun v => v == vf), (t.ctx a).stopReq.isSome = true ∧ (t.ctx a).live = (s.ctx a).live) ∧
    exec .functionLevelReset (s.given (.functionLevelReset none)) =
      .next { s.given (.functionLevelReset none) with host := { s.host with mbox := {} } }

/-- Power, heat, boot and the sideband (23 R389, R391, R396, R401, R402, R404; log 7, 34, 56, 61): power lost or returned leaves every state as after reset, but what fuses
hold (and the model's own clock and counters, and what the outside world is yet to do); a warning is told by a notice and the sideband and stops nothing, a trip asserts
its signal; the ROM verifies an image, and verified firmware runs with its security version and its defaults and may raise the fused minimum; what fails a
check stops the ROM in BOOTSTAT 3 with its reason; the sideband reads what it was last given.
It rests on the model's own choices of log 13. -/
def Claims.PowerEventResults : Prop :=
  ∀ (s : State) (d : Nat) (img : List Byte) (vals : Sensors), d < 4 →
    let lost := fun (on : Bool) => { State.reset with
      powered := on, fuses := s.fuses, cc := s.cc, ids := s.ids, fresh := s.fresh, outbox := s.outbox, agenda := s.agenda.filter (fun e => external e.2) }
    exec .powerOnReset (s.given .powerOnReset) = .next (lost true) ∧
    exec .powerRemoval (s.given .powerRemoval) = .next (lost false) ∧
    (∃ t n, exec .thermalWarning (s.given (.thermalWarning d)) = .next t ∧ t.notices = s.notices ++ [n] ∧ n.dest = .pf ∧ n.cause = 0x54 ∧
      t.outbox = s.outbox ++ [.thermal d] ∧ t.ctxs = s.ctxs ∧ t.mem = s.mem) ∧
    (∃ t, exec .thermtrip (s.given (.thermtrip d)) = .next t ∧ (t.die d).trip = true ∧ t.outbox = s.outbox ++ [.thermtrip d] ∧ t.ctxs = s.ctxs ∧
      t.mem = s.mem) ∧
    (∃ t, exec .bootVerification (s.given (.bootVerification img false)) = .next t ∧ t.ctxs = s.ctxs ∧ t.mem = s.mem ∧
      (s.host.boot = 0 → t.host = { s.host with boot := 1 } ∧ (s.cc + verifyTime, Ev.bootVerification img true) ∈ t.agenda) ∧
      (s.host.boot ≠ 0 → t.host = s.host ∧ t.agenda = s.agenda)) ∧
    (s.host.boot = 1 → ∃ t, exec .bootVerification (s.given (.bootVerification img true)) = .next t ∧ t.ctxs = s.ctxs ∧ t.mem = s.mem ∧
      if bootReason s.fuses img = 0 then t.host.boot = 2 ∧ t.host.secver = BitVec.ofNat 32 (field img 4 4) ∧ t.host.m2 = sha256 img ∧
        t.host.m3 = Config.configDigest ∧ (t.host.stkBase, t.host.stkSize) = Config.stackWindow ∧ t.host.vfRights = Config.fabricRights ∧
        t.fuses = s.fuses + Config.fuseRaise img
      else t.host = { s.host with boot := 3, bootWhy := bootReason s.fuses img } ∧ t.fuses = s.fuses) ∧
    (let sound := 512 ≤ img.length ∧ field img 0 4 = 0x46574D57 ∧ field img 8 4 = img.length - 512
     let signed := Config.fwVerify (sha256 (img.take 128 ++ img.drop 512)) ((img.drop 128).take 384) = true
     (¬sound → bootReason s.fuses img = 1) ∧ (sound → ¬signed → bootReason s.fuses img = 2) ∧
     (sound → signed → bootReason s.fuses img = if field img 4 4 < Config.fusedMinimum.toNat + s.fuses then 3 else 0)) ∧
    (∃ t, exec .sidebandRefresh (s.given (.sidebandRefresh vals)) = .next t ∧ t.host = { s.host with side := vals } ∧ t.ctxs = s.ctxs ∧ t.mem = s.mem ∧
      (s.powered = true → s.host.boot ≠ 3 → sidebandRead t = some (idBytes, bootstatBytes s, some vals))) ∧
    (s.powered = true → s.host.boot = 3 → sidebandRead s = some (idBytes, bootstatBytes s, none)) ∧ (s.powered = false → sidebandRead s = none)

/-- SPDM (23 R402-R404; log 55): every request is answered by exactly one message, and changes nothing of the package; the version is 1.3, the algorithms are RSASSA-PSS 3072
and SHA-256, a certificate or challenge of another slot than 0 and a measurement that does not exist are answered as unsupported; in BOOTSTAT 3 no request is
answered.
It rests on the model's own choices of log 13, 34. -/
def Claims.AttestationResults : Prop :=
  ∀ (s : State) (off len slot index code : Nat) (nonce : BitVec 256),
    let answers := fun (e : Ev) (m : Msg → Prop) => ∃ x, m x ∧
      exec e.instr (s.given e) = .next (if s.host.boot = 3 then s.given e else { s.given e with outbox := s.outbox ++ [x] })
    answers .getVersion (fun m => m = .version [0x13]) ∧
    answers .getCapabilities (fun m => m = .capabilities { cert := true, chal := true, measSig := true }) ∧
    answers .negotiateAlgorithms (fun m => m = .algorithms .rsassaPss3072 .sha256) ∧ answers .getDigests (fun m => m = .digests (sha256 Config.certChain)) ∧
    answers (.getCertificate slot off len) (fun m =>
      if slot = 0 then m = .certificate ((Config.certChain.drop off).take len) else m = .unsupported 0x82) ∧
    answers (.challenge slot nonce) (fun m => if slot = 0 then ∃ sig, m = .challengeAuth (sha256 Config.certChain) nonce sig else m = .unsupported 0x83) ∧
    answers (.getMeasurements index nonce) (fun m =>
      if 1 ≤ index ∧ index ≤ 7 then ∃ sig, m = .measurements [(index, measurement s index)] nonce sig
      else if index = 0xFF then ∃ ms sig, m = .measurements ms nonce sig ∧ ms.map (·.1) = [1, 2, 3, 4, 5, 6, 7]
      else m = .unsupported 0xE0) ∧
    answers (.unsupportedRequest code) (fun m => m = .unsupported code)

/-- Power, heat, boot and attestation: `Claims.PowerEventResults`, `Claims.AttestationResults`. -/
def Obligations.PowerEventResults : Prop := Claims.PowerEventResults ∧ Claims.AttestationResults
end

