-- ==== Sys2Proof/Laws/Encoding.lean ====
section
/-!
SUPPORT. What the encoder's words hold, field by field.
-/

namespace Sys2Proof

theorem Bool.toNat_lt2 (b : Bool) : b.toNat < 2 := by cases b <;> decide

/-- A field read from a number is the value that its bits spell. -/
theorem fld_eq {n lo x : Nat} {a : BitVec n} (h : x / 2 ^ lo % 2 ^ n = a.toNat) : fld n lo x = a := by
  apply BitVec.eq_of_toNat_eq; simp [fld, h]

/-- A flag read from a number is the truth value that its bit spells. -/
theorem flag_eq {lo x : Nat} {a : Bool} (h : x / 2 ^ lo % 2 = a.toNat) : flag lo x = a := by
  cases a <;> simp_all [flag]

/-- The word of an encoded instruction. -/
theorem encode_of {i : Instr} {w : Nat} (h : encodeNat i = some w) : encode i = BitVec.ofNat 32 w := by
  rw [encode, h, Option.getD_some]

/-! ## The decoder by OP value -/

theorem decodeOp_00 (x : Nat) : decodeOp 0x00 x = decodeOp00 (lhdrOf x) x := rfl
theorem decodeOp_01 (x : Nat) : decodeOp 0x01 x = decodeOp01 (lhdrOf x) x := rfl
theorem decodeOp_02 (x : Nat) : decodeOp 0x02 x = decodeOp02 (lhdrOf x) x := rfl
theorem decodeOp_03 (x : Nat) : decodeOp 0x03 x = decodeOp03 (lhdrOf x) x := rfl
theorem decodeOp_04 (x : Nat) : decodeOp 0x04 x = decodeOp04 (lhdrOf x) x := rfl
theorem decodeOp_05 (x : Nat) : decodeOp 0x05 x = decodeOp05 (lhdrOf x) x := rfl
theorem decodeOp_06 (x : Nat) : decodeOp 0x06 x = decodeOp06 (lhdrOf x) x := rfl
theorem decodeOp_07 (x : Nat) : decodeOp 0x07 x = decodeOp07 (lhdrOf x) x := rfl
theorem decodeOp_08 (x : Nat) : decodeOp 0x08 x = decodeOp08 (lhdrOf x) x := rfl
theorem decodeOp_09 (x : Nat) : decodeOp 0x09 x = decodeOp09 (lhdrOf x) x := rfl
theorem decodeOp_0A (x : Nat) : decodeOp 0x0A x = decodeOp0A (lhdrOf x) x := rfl
theorem decodeOp_0B (x : Nat) : decodeOp 0x0B x = decodeOp0B (lhdrOf x) x := rfl
theorem decodeOp_0C (x : Nat) : decodeOp 0x0C x = decodeOp0C (lhdrOf x) x := rfl
theorem decodeOp_0D (x : Nat) : decodeOp 0x0D x = decodeOp0D (lhdrOf x) x := rfl
theorem decodeOp_10 (x : Nat) : decodeOp 0x10 x = decodeOp10 (hdrOf x) x := rfl
theorem decodeOp_11 (x : Nat) : decodeOp 0x11 x = decodeOp11 (hdrOf x) x := rfl
theorem decodeOp_12 (x : Nat) : decodeOp 0x12 x = decodeOp12 (hdrOf x) x := rfl
theorem decodeOp_13 (x : Nat) : decodeOp 0x13 x = decodeOp13 (hdrOf x) x := rfl
theorem decodeOp_14 (x : Nat) : decodeOp 0x14 x = decodeOp14 (hdrOf x) x := rfl
theorem decodeOp_15 (x : Nat) : decodeOp 0x15 x = decodeOp15 (hdrOf x) x := rfl
theorem decodeOp_16 (x : Nat) : decodeOp 0x16 x = decodeOp16 (hdrOf x) x := rfl
theorem decodeOp_17 (x : Nat) : decodeOp 0x17 x = decodeOp17 (hdrOf x) x := rfl
theorem decodeOp_18 (x : Nat) : decodeOp 0x18 x = decodeOp18 (hdrOf x) x := rfl
theorem decodeOp_19 (x : Nat) : decodeOp 0x19 x = decodeOp19 (hdrOf x) x := rfl
theorem decodeOp_1A (x : Nat) : decodeOp 0x1A x = decodeOp1A (hdrOf x) x := rfl
theorem decodeOp_1B (x : Nat) : decodeOp 0x1B x = decodeOp1B (hdrOf x) x := rfl
theorem decodeOp_1C (x : Nat) : decodeOp 0x1C x = decodeOp1C (hdrOf x) x := rfl
theorem decodeOp_1D (x : Nat) : decodeOp 0x1D x = decodeOp1D (hdrOf x) x := rfl
theorem decodeOp_1E (x : Nat) : decodeOp 0x1E x = decodeOp1E (hdrOf x) x := rfl
theorem decodeOp_1F (x : Nat) : decodeOp 0x1F x = decodeOp1F (hdrOf x) x := rfl
theorem decodeOp_20 (x : Nat) : decodeOp 0x20 x = decodeOp20 (hdrOf x) x := rfl
theorem decodeOp_21 (x : Nat) : decodeOp 0x21 x = decodeOp21 (hdrOf x) x := rfl
theorem decodeOp_22 (x : Nat) : decodeOp 0x22 x = decodeOp22 (hdrOf x) x := rfl
theorem decodeOp_23 (x : Nat) : decodeOp 0x23 x = decodeOp23 (hdrOf x) x := rfl
theorem decodeOp_24 (x : Nat) : decodeOp 0x24 x = decodeOp24 (hdrOf x) x := rfl
theorem decodeOp_25 (x : Nat) : decodeOp 0x25 x = decodeOp25 (hdrOf x) x := rfl
theorem decodeOp_26 (x : Nat) : decodeOp 0x26 x = decodeOp26 (hdrOf x) x := rfl
theorem decodeOp_27 (x : Nat) : decodeOp 0x27 x = decodeOp27 (hdrOf x) x := rfl
theorem decodeOp_28 (x : Nat) : decodeOp 0x28 x = decodeOp28 (hdrOf x) x := rfl
theorem decodeOp_29 (x : Nat) : decodeOp 0x29 x = decodeOp29 (hdrOf x) x := rfl
theorem decodeOp_2A (x : Nat) : decodeOp 0x2A x = decodeOp2A (hdrOf x) x := rfl
theorem decodeOp_2B (x : Nat) : decodeOp 0x2B x = decodeOp2B (hdrOf x) x := rfl
theorem decodeOp_2C (x : Nat) : decodeOp 0x2C x = decodeOp2C (hdrOf x) x := rfl
theorem decodeOp_2D (x : Nat) : decodeOp 0x2D x = decodeOp2D (hdrOf x) x := rfl
theorem decodeOp_2E (x : Nat) : decodeOp 0x2E x = decodeOp2E (hdrOf x) x := rfl
theorem decodeOp_2F (x : Nat) : decodeOp 0x2F x = decodeOp2F (hdrOf x) x := rfl
theorem decodeOp_30 (x : Nat) : decodeOp 0x30 x = decodeOp30 (hdrOf x) x := rfl
theorem decodeOp_31 (x : Nat) : decodeOp 0x31 x = decodeOp31 (hdrOf x) x := rfl
theorem decodeOp_32 (x : Nat) : decodeOp 0x32 x = decodeOp32 (hdrOf x) x := rfl
theorem decodeOp_33 (x : Nat) : decodeOp 0x33 x = decodeOp33 (hdrOf x) x := rfl
theorem decodeOp_34 (x : Nat) : decodeOp 0x34 x = decodeOp34 (hdrOf x) x := rfl
theorem decodeOp_35 (x : Nat) : decodeOp 0x35 x = decodeOp35 (hdrOf x) x := rfl
theorem decodeOp_36 (x : Nat) : decodeOp 0x36 x = decodeOp36 (hdrOf x) x := rfl
theorem decodeOp_37 (x : Nat) : decodeOp 0x37 x = decodeOp37 (hdrOf x) x := rfl
theorem decodeOp_38 (x : Nat) : decodeOp 0x38 x = decodeOp38 (hdrOf x) x := rfl
theorem decodeOp_39 (x : Nat) : decodeOp 0x39 x = decodeOp39 (hdrOf x) x := rfl
theorem decodeOp_3A (x : Nat) : decodeOp 0x3A x = decodeOp3A (hdrOf x) x := rfl
theorem decodeOp_3B (x : Nat) : decodeOp 0x3B x = decodeOp3B (hdrOf x) x := rfl
theorem decodeOp_3C (x : Nat) : decodeOp 0x3C x = decodeOp3C (hdrOf x) x := rfl
theorem decodeOp_3D (x : Nat) : decodeOp 0x3D x = decodeOp3D (hdrOf x) x := rfl
theorem decodeOp_3E (x : Nat) : decodeOp 0x3E x = decodeOp3E (hdrOf x) x := rfl
theorem decodeOp_3F (x : Nat) : decodeOp 0x3F x = decodeOp3F (hdrOf x) x := rfl
theorem decodeOp_40 (x : Nat) : decodeOp 0x40 x = decodeOp40 (hdrOf x) x := rfl
theorem decodeOp_41 (x : Nat) : decodeOp 0x41 x = decodeOp41 (hdrOf x) x := rfl
theorem decodeOp_42 (x : Nat) : decodeOp 0x42 x = decodeOp42 (hdrOf x) x := rfl
theorem decodeOp_43 (x : Nat) : decodeOp 0x43 x = decodeOp43 (hdrOf x) x := rfl
theorem decodeOp_44 (x : Nat) : decodeOp 0x44 x = decodeOp44 (hdrOf x) x := rfl
theorem decodeOp_45 (x : Nat) : decodeOp 0x45 x = decodeOp45 (hdrOf x) x := rfl
theorem decodeOp_46 (x : Nat) : decodeOp 0x46 x = decodeOp46 (hdrOf x) x := rfl
theorem decodeOp_47 (x : Nat) : decodeOp 0x47 x = decodeOp47 (hdrOf x) x := rfl
theorem decodeOp_48 (x : Nat) : decodeOp 0x48 x = decodeOp48 (hdrOf x) x := rfl
theorem decodeOp_49 (x : Nat) : decodeOp 0x49 x = decodeOp49 (hdrOf x) x := rfl
theorem decodeOp_4A (x : Nat) : decodeOp 0x4A x = decodeOp4A (hdrOf x) x := rfl
theorem decodeOp_4B (x : Nat) : decodeOp 0x4B x = decodeOp4B (hdrOf x) x := rfl
theorem decodeOp_4C (x : Nat) : decodeOp 0x4C x = decodeOp4C (hdrOf x) x := rfl
theorem decodeOp_4D (x : Nat) : decodeOp 0x4D x = decodeOp4D (hdrOf x) x := rfl
theorem decodeOp_4E (x : Nat) : decodeOp 0x4E x = decodeOp4E (hdrOf x) x := rfl
theorem decodeOp_4F (x : Nat) : decodeOp 0x4F x = decodeOp4F (hdrOf x) x := rfl
theorem decodeOp_50 (x : Nat) : decodeOp 0x50 x = decodeOp50 (hdrOf x) x := rfl
theorem decodeOp_51 (x : Nat) : decodeOp 0x51 x = decodeOp51 (hdrOf x) x := rfl
theorem decodeOp_52 (x : Nat) : decodeOp 0x52 x = decodeOp52 (hdrOf x) x := rfl
theorem decodeOp_53 (x : Nat) : decodeOp 0x53 x = decodeOp53 (hdrOf x) x := rfl
theorem decodeOp_54 (x : Nat) : decodeOp 0x54 x = decodeOp54 (hdrOf x) x := rfl
theorem decodeOp_55 (x : Nat) : decodeOp 0x55 x = decodeOp55 (hdrOf x) x := rfl
theorem decodeOp_56 (x : Nat) : decodeOp 0x56 x = decodeOp56 (hdrOf x) x := rfl
theorem decodeOp_57 (x : Nat) : decodeOp 0x57 x = decodeOp57 (hdrOf x) x := rfl
theorem decodeOp_5C (x : Nat) : decodeOp 0x5C x = decodeOp5C (hdrOf x) x := rfl
theorem decodeOp_5D (x : Nat) : decodeOp 0x5D x = decodeOp5D (hdrOf x) x := rfl
theorem decodeOp_5E (x : Nat) : decodeOp 0x5E x = decodeOp5E (hdrOf x) x := rfl
theorem decodeOp_5F (x : Nat) : decodeOp 0x5F x = decodeOp5F (hdrOf x) x := rfl
theorem decodeOp_60 (x : Nat) : decodeOp 0x60 x = decodeOp60 (hdrOf x) x := rfl
theorem decodeOp_61 (x : Nat) : decodeOp 0x61 x = decodeOp61 (hdrOf x) x := rfl
theorem decodeOp_62 (x : Nat) : decodeOp 0x62 x = decodeOp62 (hdrOf x) x := rfl
theorem decodeOp_63 (x : Nat) : decodeOp 0x63 x = decodeOp63 (hdrOf x) x := rfl
theorem decodeOp_64 (x : Nat) : decodeOp 0x64 x = decodeOp64 (hdrOf x) x := rfl
theorem decodeOp_65 (x : Nat) : decodeOp 0x65 x = decodeOp65 (hdrOf x) x := rfl
theorem decodeOp_68 (x : Nat) : decodeOp 0x68 x = decodeOp68 (hdrOf x) x := rfl
theorem decodeOp_69 (x : Nat) : decodeOp 0x69 x = decodeOp69 (hdrOf x) x := rfl
theorem decodeOp_6A (x : Nat) : decodeOp 0x6A x = decodeOp6A (hdrOf x) x := rfl
theorem decodeOp_6B (x : Nat) : decodeOp 0x6B x = decodeOp6B (hdrOf x) x := rfl
theorem decodeOp_6C (x : Nat) : decodeOp 0x6C x = decodeOp6C (hdrOf x) x := rfl
theorem decodeOp_6D (x : Nat) : decodeOp 0x6D x = decodeOp6D (hdrOf x) x := rfl
theorem decodeOp_6E (x : Nat) : decodeOp 0x6E x = decodeOp6E (hdrOf x) x := rfl
theorem decodeOp_6F (x : Nat) : decodeOp 0x6F x = decodeOp6F (hdrOf x) x := rfl
theorem decodeOp_70 (x : Nat) : decodeOp 0x70 x = decodeOp70 (hdrOf x) x := rfl
theorem decodeOp_71 (x : Nat) : decodeOp 0x71 x = decodeOp71 (hdrOf x) x := rfl
theorem decodeOp_72 (x : Nat) : decodeOp 0x72 x = decodeOp72 (hdrOf x) x := rfl
theorem decodeOp_73 (x : Nat) : decodeOp 0x73 x = decodeOp73 (hdrOf x) x := rfl
theorem decodeOp_74 (x : Nat) : decodeOp 0x74 x = decodeOp74 (hdrOf x) x := rfl
theorem decodeOp_75 (x : Nat) : decodeOp 0x75 x = decodeOp75 (hdrOf x) x := rfl
theorem decodeOp_76 (x : Nat) : decodeOp 0x76 x = decodeOp76 (hdrOf x) x := rfl
theorem decodeOp_77 (x : Nat) : decodeOp 0x77 x = decodeOp77 (hdrOf x) x := rfl
theorem decodeOp_78 (x : Nat) : decodeOp 0x78 x = decodeOp78 (hdrOf x) x := rfl
theorem decodeOp_79 (x : Nat) : decodeOp 0x79 x = decodeOp79 (hdrOf x) x := rfl
theorem decodeOp_7A (x : Nat) : decodeOp 0x7A x = decodeOp7A (hdrOf x) x := rfl
theorem decodeOp_7B (x : Nat) : decodeOp 0x7B x = decodeOp7B (hdrOf x) x := rfl
theorem decodeOp_7C (x : Nat) : decodeOp 0x7C x = decodeOp7C (hdrOf x) x := rfl
theorem decodeOp_7D (x : Nat) : decodeOp 0x7D x = decodeOp7D (hdrOf x) x := rfl

/-! ## Non-lead slots -/

theorem slotWord_lt (h : Hdr) {op low : Nat} (ho : op < 128) (hl : low < 2 ^ 20) : slotWord h op low < 2 ^ 32 := by
  have := Bool.toNat_lt2 h.stop; have := h.g.isLt; simp only [slotWord]; omega

theorem slotWord_op (h : Hdr) {op low : Nat} (ho : op < 128) (hl : low < 2 ^ 20) : slotWord h op low / 2 ^ 24 % 128 = op := by
  have := Bool.toNat_lt2 h.stop; have := h.g.isLt; simp only [slotWord]; omega

/-- The header of a slot word is read back. -/
theorem hdrOf_slotWord (h : Hdr) {op low : Nat} (ho : op < 128) (hl : low < 2 ^ 20) : hdrOf (slotWord h op low) = h := by
  have := Bool.toNat_lt2 h.stop; have := h.g.isLt
  cases h with | mk s g =>
  simp only [hdrOf, Hdr.mk.injEq]
  exact ⟨flag_eq (by simp only [slotWord] at *; omega), fld_eq (by simp only [slotWord] at *; omega)⟩

/-- A slot word is decoded by its OP value. -/
theorem decode_slot {h : Hdr} {op low w : Nat} (hw : w = slotWord h op low) (ho : op < 128) (hl : low < 2 ^ 20) :
    decode (BitVec.ofNat 32 w) = decodeOp op w := by
  have h1 : (BitVec.ofNat 32 w).toNat = w := by
    simp only [BitVec.toNat_ofNat]; exact Nat.mod_eq_of_lt (hw ▸ slotWord_lt h ho hl)
  rw [decode, h1, hw, slotWord_op h ho hl]

/-- Bits below 20 of a slot word are those of its low fields. -/
theorem slotWord_field (h : Hdr) {op low lo n : Nat} (hn : lo + n ≤ 20) :
    slotWord h op low / 2 ^ lo % 2 ^ n = low / 2 ^ lo % 2 ^ n := by
  obtain ⟨k, hk⟩ := Nat.exists_eq_add_of_le hn
  have : slotWord h op low = low + 2 ^ (lo + n) * (2 ^ k * (h.stop.toNat * 2 ^ 11 + op * 2 ^ 4 + h.g.toNat)) := by
    rw [← Nat.mul_assoc, ← Nat.pow_add, ← hk]; simp only [slotWord]; ring
  rw [this, Nat.pow_add, Nat.mul_assoc, Nat.add_mul_div_left _ _ (Nat.two_pow_pos lo), Nat.add_mul_mod_self_left]

theorem slotWord_bit (h : Hdr) {op low lo : Nat} (hn : lo + 1 ≤ 20) : slotWord h op low / 2 ^ lo % 2 = low / 2 ^ lo % 2 := by
  simpa using slotWord_field h (op := op) (low := low) hn

theorem slot_hdr {h : Hdr} {op low w : Nat} (hw : w = slotWord h op low) (ho : op < 128) (hl : low < 2 ^ 20) : hdrOf w = h :=
  hw ▸ hdrOf_slotWord h ho hl

theorem slot_const {h : Hdr} {op low w lo n v : Nat} (hw : w = slotWord h op low) (hn : lo + n ≤ 20) (hv : low / 2 ^ lo % 2 ^ n = v) :
    w / 2 ^ lo % 2 ^ n = v := by rw [hw, slotWord_field h hn, hv]

theorem slot_differs {h : Hdr} {op low w lo n v : Nat} (hw : w = slotWord h op low) (hn : lo + n ≤ 20) (hv : low / 2 ^ lo % 2 ^ n ≠ v) :
    ¬w / 2 ^ lo % 2 ^ n = v := by rw [hw, slotWord_field h hn]; exact hv

theorem slot_fld {h : Hdr} {op low w lo n : Nat} {a : BitVec n} (hw : w = slotWord h op low) (hn : lo + n ≤ 20)
    (ha : low / 2 ^ lo % 2 ^ n = a.toNat) : fld n lo w = a := fld_eq (slot_const hw hn ha)

theorem slot_flag {h : Hdr} {op low w lo : Nat} {a : Bool} (hw : w = slotWord h op low) (hn : lo + 1 ≤ 20)
    (ha : low / 2 ^ lo % 2 = a.toNat) : flag lo w = a := flag_eq (by rw [hw, slotWord_bit h hn, ha])

/-! ## Lead slots -/

theorem leadWord_lt (h : LHdr) {op low : Nat} (ho : op < 128) (hl : low < 2 ^ 13) : leadWord h op low < 2 ^ 32 := by
  have := Bool.toNat_lt2 h.stop; have := h.g.isLt; have := h.pm.isLt; have := Bool.toNat_lt2 h.ck; have := Bool.toNat_lt2 h.y
  have := Bool.toNat_lt2 h.hint; simp only [leadWord]; omega

theorem leadWord_op (h : LHdr) {op low : Nat} (ho : op < 128) (hl : low < 2 ^ 13) : leadWord h op low / 2 ^ 24 % 128 = op := by
  have := Bool.toNat_lt2 h.stop; have := h.g.isLt; have := h.pm.isLt; have := Bool.toNat_lt2 h.ck; have := Bool.toNat_lt2 h.y
  have := Bool.toNat_lt2 h.hint; simp only [leadWord]; omega

/-- The header of a lead word is read back. -/
theorem lhdrOf_leadWord (h : LHdr) {op low : Nat} (ho : op < 128) (hl : low < 2 ^ 13) : lhdrOf (leadWord h op low) = h := by
  have := Bool.toNat_lt2 h.stop; have := h.g.isLt; have := h.pm.isLt; have := Bool.toNat_lt2 h.ck; have := Bool.toNat_lt2 h.y
  have := Bool.toNat_lt2 h.hint
  cases h with | mk s g pm ck y hint =>
  simp only [lhdrOf, LHdr.mk.injEq]
  exact ⟨flag_eq (by simp only [leadWord] at *; omega), fld_eq (by simp only [leadWord] at *; omega),
    fld_eq (by simp only [leadWord] at *; omega), flag_eq (by simp only [leadWord] at *; omega),
    flag_eq (by simp only [leadWord] at *; omega), flag_eq (by simp only [leadWord] at *; omega)⟩

/-- A lead word is decoded by its OP value. -/
theorem decode_lead {h : LHdr} {op low w : Nat} (hw : w = leadWord h op low) (ho : op < 128) (hl : low < 2 ^ 13) :
    decode (BitVec.ofNat 32 w) = decodeOp op w := by
  have h1 : (BitVec.ofNat 32 w).toNat = w := by
    simp only [BitVec.toNat_ofNat]; exact Nat.mod_eq_of_lt (hw ▸ leadWord_lt h ho hl)
  rw [decode, h1, hw, leadWord_op h ho hl]

/-- Bits below 13 of a lead word are those of its low fields. -/
theorem leadWord_field (h : LHdr) {op low lo n : Nat} (hn : lo + n ≤ 13) :
    leadWord h op low / 2 ^ lo % 2 ^ n = low / 2 ^ lo % 2 ^ n := by
  obtain ⟨k, hk⟩ := Nat.exists_eq_add_of_le hn
  have : leadWord h op low = low + 2 ^ (lo + n) * (2 ^ k * (h.stop.toNat * 2 ^ 18 + op * 2 ^ 11 + h.g.toNat * 2 ^ 7
      + h.pm.toNat * 2 ^ 3 + h.ck.toNat * 2 ^ 2 + h.y.toNat * 2 + h.hint.toNat)) := by
    rw [← Nat.mul_assoc, ← Nat.pow_add, ← hk]; simp only [leadWord]; ring
  rw [this, Nat.pow_add, Nat.mul_assoc, Nat.add_mul_div_left _ _ (Nat.two_pow_pos lo), Nat.add_mul_mod_self_left]

theorem leadWord_bit (h : LHdr) {op low lo : Nat} (hn : lo + 1 ≤ 13) : leadWord h op low / 2 ^ lo % 2 = low / 2 ^ lo % 2 := by
  simpa using leadWord_field h (op := op) (low := low) hn

theorem lead_hdr {h : LHdr} {op low w : Nat} (hw : w = leadWord h op low) (ho : op < 128) (hl : low < 2 ^ 13) : lhdrOf w = h :=
  hw ▸ lhdrOf_leadWord h ho hl

theorem lead_const {h : LHdr} {op low w lo n v : Nat} (hw : w = leadWord h op low) (hn : lo + n ≤ 13) (hv : low / 2 ^ lo % 2 ^ n = v) :
    w / 2 ^ lo % 2 ^ n = v := by rw [hw, leadWord_field h hn, hv]

theorem lead_differs {h : LHdr} {op low w lo n v : Nat} (hw : w = leadWord h op low) (hn : lo + n ≤ 13) (hv : low / 2 ^ lo % 2 ^ n ≠ v) :
    ¬w / 2 ^ lo % 2 ^ n = v := by rw [hw, leadWord_field h hn]; exact hv

theorem lead_fld {h : LHdr} {op low w lo n : Nat} {a : BitVec n} (hw : w = leadWord h op low) (hn : lo + n ≤ 13)
    (ha : low / 2 ^ lo % 2 ^ n = a.toNat) : fld n lo w = a := fld_eq (lead_const hw hn ha)

theorem lead_flag {h : LHdr} {op low w lo : Nat} {a : Bool} (hw : w = leadWord h op low) (hn : lo + 1 ≤ 13)
    (ha : low / 2 ^ lo % 2 = a.toNat) : flag lo w = a := flag_eq (by rw [hw, leadWord_bit h hn, ha])

end Sys2Proof
end

