-- ==== Sys2Proof/Laws/PerInstr.lean ====
section
/-!
SUPPORT. The statement that is made per instruction (LAWS.json): the decoder reads the encoder's word of an instruction back as that instruction, one
lemma per constructor.
-/

namespace Sys2Proof.Laws.Decode

set_option linter.unusedSimpArgs false

/-- The word of an encoded instruction decodes to that instruction, with every operand (02 R31, R34, R37). -/
def Statement (i : Instr) : Prop := encodeNat i ≠ none → decode (encode i) = .ok i

theorem next (h : LHdr) : Statement (.next h) := by
  intro _
  obtain ⟨y, hw⟩ : ∃ y, y = leadWord h 0x00 (low 0) := ⟨_, rfl⟩
  have he : encodeNat (.next h) = some y := by rw [hw]; rfl
  unfold low at hw
  have c0 : y / 2 ^ 0 % 2 ^ 13 = 0 := lead_const hw (Nat.le_of_ble_eq_true rfl) (by omega)
  rw [encode_of he, decode_lead hw (Nat.le_of_ble_eq_true rfl) (by omega), decodeOp_00]
  simp only [decodeOp00, lead_hdr hw (Nat.le_of_ble_eq_true rfl) (by omega), c0, true_and, and_true, false_and, and_false, and_self, if_true, if_false, Nat.reduceEqDiff, Nat.reduceDiv]

theorem br (h : LHdr) (disp : BitVec 13) : Statement (.br h disp) := by
  intro _
  have := disp.isLt
  obtain ⟨y, hw⟩ : ∃ y, y = leadWord h 0x01 (low_0b13 disp 0) := ⟨_, rfl⟩
  have he : encodeNat (.br h disp) = some y := by rw [hw]; rfl
  unfold low_0b13 at hw
  have f0 : Sys2Proof.fld 13 0 y = disp := lead_fld hw (Nat.le_of_ble_eq_true rfl) (by omega)
  rw [encode_of he, decode_lead hw (Nat.le_of_ble_eq_true rfl) (by omega), decodeOp_01]
  simp only [decodeOp01, lead_hdr hw (Nat.le_of_ble_eq_true rfl) (by omega), f0, true_and, and_true, false_and, and_false, and_self, if_true, if_false, Nat.reduceEqDiff, Nat.reduceDiv]

theorem bru (h : LHdr) (mk : BitVec 4) (nsel : Bool) (disp : BitVec 8) : Statement (.bru h mk nsel disp) := by
  intro _
  have := mk.isLt; have := Bool.toNat_lt2 nsel; have := disp.isLt
  obtain ⟨y, hw⟩ : ∃ y, y = leadWord h 0x02 (low_9_8_0b4b1b8 mk nsel disp 0) := ⟨_, rfl⟩
  have he : encodeNat (.bru h mk nsel disp) = some y := by rw [hw]; rfl
  unfold low_9_8_0b4b1b8 at hw
  have f0 : Sys2Proof.fld 4 9 y = mk := lead_fld hw (Nat.le_of_ble_eq_true rfl) (by omega)
  have f1 : flag 8 y = nsel := lead_flag hw (Nat.le_of_ble_eq_true rfl) (by omega)
  have f2 : Sys2Proof.fld 8 0 y = disp := lead_fld hw (Nat.le_of_ble_eq_true rfl) (by omega)
  rw [encode_of he, decode_lead hw (Nat.le_of_ble_eq_true rfl) (by omega), decodeOp_02]
  simp only [decodeOp02, lead_hdr hw (Nat.le_of_ble_eq_true rfl) (by omega), f0, f1, f2, true_and, and_true, false_and, and_false, and_self, if_true, if_false, Nat.reduceEqDiff, Nat.reduceDiv]

theorem jmpi (h : LHdr) (a : BitVec 5) : Statement (.jmpi h a) := by
  intro _
  have := a.isLt
  obtain ⟨y, hw⟩ : ∃ y, y = leadWord h 0x03 (low_8b5 a 0) := ⟨_, rfl⟩
  have he : encodeNat (.jmpi h a) = some y := by rw [hw]; rfl
  unfold low_8b5 at hw
  have c0 : y / 2 ^ 0 % 2 ^ 8 = 0 := lead_const hw (Nat.le_of_ble_eq_true rfl) (by omega)
  have f0 : Sys2Proof.fld 5 8 y = a := lead_fld hw (Nat.le_of_ble_eq_true rfl) (by omega)
  rw [encode_of he, decode_lead hw (Nat.le_of_ble_eq_true rfl) (by omega), decodeOp_03]
  simp only [decodeOp03, lead_hdr hw (Nat.le_of_ble_eq_true rfl) (by omega), c0, f0, true_and, and_true, false_and, and_false, and_self, if_true, if_false, Nat.reduceEqDiff, Nat.reduceDiv]

theorem call (h : LHdr) (disp : BitVec 13) : Statement (.call h disp) := by
  intro _
  have := disp.isLt
  obtain ⟨y, hw⟩ : ∃ y, y = leadWord h 0x04 (low_0b13 disp 0) := ⟨_, rfl⟩
  have he : encodeNat (.call h disp) = some y := by rw [hw]; rfl
  unfold low_0b13 at hw
  have f0 : Sys2Proof.fld 13 0 y = disp := lead_fld hw (Nat.le_of_ble_eq_true rfl) (by omega)
  rw [encode_of he, decode_lead hw (Nat.le_of_ble_eq_true rfl) (by omega), decodeOp_04]
  simp only [decodeOp04, lead_hdr hw (Nat.le_of_ble_eq_true rfl) (by omega), f0, true_and, and_true, false_and, and_false, and_self, if_true, if_false, Nat.reduceEqDiff, Nat.reduceDiv]

theorem calli (h : LHdr) (a : BitVec 5) : Statement (.calli h a) := by
  intro _
  have := a.isLt
  obtain ⟨y, hw⟩ : ∃ y, y = leadWord h 0x05 (low_8b5 a 0) := ⟨_, rfl⟩
  have he : encodeNat (.calli h a) = some y := by rw [hw]; rfl
  unfold low_8b5 at hw
  have c0 : y / 2 ^ 0 % 2 ^ 8 = 0 := lead_const hw (Nat.le_of_ble_eq_true rfl) (by omega)
  have f0 : Sys2Proof.fld 5 8 y = a := lead_fld hw (Nat.le_of_ble_eq_true rfl) (by omega)
  rw [encode_of he, decode_lead hw (Nat.le_of_ble_eq_true rfl) (by omega), decodeOp_05]
  simp only [decodeOp05, lead_hdr hw (Nat.le_of_ble_eq_true rfl) (by omega), c0, f0, true_and, and_true, false_and, and_false, and_self, if_true, if_false, Nat.reduceEqDiff, Nat.reduceDiv]

theorem ret (h : LHdr) : Statement (.ret h) := by
  intro _
  obtain ⟨y, hw⟩ : ∃ y, y = leadWord h 0x06 (low 0) := ⟨_, rfl⟩
  have he : encodeNat (.ret h) = some y := by rw [hw]; rfl
  unfold low at hw
  have c0 : y / 2 ^ 0 % 2 ^ 13 = 0 := lead_const hw (Nat.le_of_ble_eq_true rfl) (by omega)
  rw [encode_of he, decode_lead hw (Nat.le_of_ble_eq_true rfl) (by omega), decodeOp_06]
  simp only [decodeOp06, lead_hdr hw (Nat.le_of_ble_eq_true rfl) (by omega), c0, true_and, and_true, false_and, and_false, and_self, if_true, if_false, Nat.reduceEqDiff, Nat.reduceDiv]

theorem loop (h : LHdr) (a : BitVec 5) : Statement (.loop h a) := by
  intro _
  have := a.isLt
  obtain ⟨y, hw⟩ : ∃ y, y = leadWord h 0x07 (low_8b5 a 0) := ⟨_, rfl⟩
  have he : encodeNat (.loop h a) = some y := by rw [hw]; rfl
  unfold low_8b5 at hw
  have c0 : y / 2 ^ 0 % 2 ^ 3 = 0 := lead_const hw (Nat.le_of_ble_eq_true rfl) (by omega)
  have c1 : y / 2 ^ 0 % 2 ^ 8 = 0 := lead_const hw (Nat.le_of_ble_eq_true rfl) (by omega)
  have f0 : Sys2Proof.fld 5 8 y = a := lead_fld hw (Nat.le_of_ble_eq_true rfl) (by omega)
  rw [encode_of he, decode_lead hw (Nat.le_of_ble_eq_true rfl) (by omega), decodeOp_07]
  simp only [decodeOp07, lead_hdr hw (Nat.le_of_ble_eq_true rfl) (by omega), c0, c1, f0, true_and, and_true, false_and, and_false, and_self, if_true, if_false, Nat.reduceEqDiff, Nat.reduceDiv]

theorem loopPipe (h : LHdr) (a : BitVec 5) (b : BitVec 5) : Statement (.loopPipe h a b) := by
  intro _
  have := a.isLt; have := b.isLt
  obtain ⟨y, hw⟩ : ∃ y, y = leadWord h 0x07 (low_8_3b5b5 a b 1) := ⟨_, rfl⟩
  have he : encodeNat (.loopPipe h a b) = some y := by rw [hw]; rfl
  unfold low_8_3b5b5 at hw
  have c0 : y / 2 ^ 0 % 2 ^ 3 = 1 := lead_const hw (Nat.le_of_ble_eq_true rfl) (by omega)
  have n0 : ¬y / 2 ^ 0 % 2 ^ 8 = 0 := lead_differs hw (Nat.le_of_ble_eq_true rfl) (by omega)
  have f0 : Sys2Proof.fld 5 8 y = a := lead_fld hw (Nat.le_of_ble_eq_true rfl) (by omega)
  have f1 : Sys2Proof.fld 5 3 y = b := lead_fld hw (Nat.le_of_ble_eq_true rfl) (by omega)
  rw [encode_of he, decode_lead hw (Nat.le_of_ble_eq_true rfl) (by omega), decodeOp_07]
  simp only [decodeOp07, lead_hdr hw (Nat.le_of_ble_eq_true rfl) (by omega), c0, n0, f0, f1, true_and, and_true, false_and, and_false, and_self, if_true, if_false, Nat.reduceEqDiff, Nat.reduceDiv]

theorem sloop (h : LHdr) (k : BitVec 2) (b : BitVec 5) : Statement (.sloop h k b) := by
  intro _
  have := k.isLt; have := b.isLt
  obtain ⟨y, hw⟩ : ∃ y, y = leadWord h 0x08 (low_8_3b2b5 k b 0) := ⟨_, rfl⟩
  have he : encodeNat (.sloop h k b) = some y := by rw [hw]; rfl
  unfold low_8_3b2b5 at hw
  have c0 : y / 2 ^ 0 % 2 ^ 3 = 0 := lead_const hw (Nat.le_of_ble_eq_true rfl) (by omega)
  have c1 : y / 2 ^ 10 % 2 ^ 3 = 0 := lead_const hw (Nat.le_of_ble_eq_true rfl) (by omega)
  have f0 : Sys2Proof.fld 2 8 y = k := lead_fld hw (Nat.le_of_ble_eq_true rfl) (by omega)
  have f1 : Sys2Proof.fld 5 3 y = b := lead_fld hw (Nat.le_of_ble_eq_true rfl) (by omega)
  rw [encode_of he, decode_lead hw (Nat.le_of_ble_eq_true rfl) (by omega), decodeOp_08]
  simp only [decodeOp08, lead_hdr hw (Nat.le_of_ble_eq_true rfl) (by omega), c0, c1, f0, f1, true_and, and_true, false_and, and_false, and_self, if_true, if_false, Nat.reduceEqDiff, Nat.reduceDiv]

theorem lclose (h : LHdr) : Statement (.lclose h) := by
  intro _
  obtain ⟨y, hw⟩ : ∃ y, y = leadWord h 0x09 (low 0) := ⟨_, rfl⟩
  have he : encodeNat (.lclose h) = some y := by rw [hw]; rfl
  unfold low at hw
  have c0 : y / 2 ^ 0 % 2 ^ 13 = 0 := lead_const hw (Nat.le_of_ble_eq_true rfl) (by omega)
  rw [encode_of he, decode_lead hw (Nat.le_of_ble_eq_true rfl) (by omega), decodeOp_09]
  simp only [decodeOp09, lead_hdr hw (Nat.le_of_ble_eq_true rfl) (by omega), c0, true_and, and_true, false_and, and_false, and_self, if_true, if_false, Nat.reduceEqDiff, Nat.reduceDiv]

theorem lexit (h : LHdr) (disp : BitVec 13) : Statement (.lexit h disp) := by
  intro _
  have := disp.isLt
  obtain ⟨y, hw⟩ : ∃ y, y = leadWord h 0x0A (low_0b13 disp 0) := ⟨_, rfl⟩
  have he : encodeNat (.lexit h disp) = some y := by rw [hw]; rfl
  unfold low_0b13 at hw
  have f0 : Sys2Proof.fld 13 0 y = disp := lead_fld hw (Nat.le_of_ble_eq_true rfl) (by omega)
  rw [encode_of he, decode_lead hw (Nat.le_of_ble_eq_true rfl) (by omega), decodeOp_0A]
  simp only [decodeOp0A, lead_hdr hw (Nat.le_of_ble_eq_true rfl) (by omega), f0, true_and, and_true, false_and, and_false, and_self, if_true, if_false, Nat.reduceEqDiff, Nat.reduceDiv]

theorem halt (h : LHdr) : Statement (.halt h) := by
  intro _
  obtain ⟨y, hw⟩ : ∃ y, y = leadWord h 0x0B (low 0) := ⟨_, rfl⟩
  have he : encodeNat (.halt h) = some y := by rw [hw]; rfl
  unfold low at hw
  have c0 : y / 2 ^ 0 % 2 ^ 13 = 0 := lead_const hw (Nat.le_of_ble_eq_true rfl) (by omega)
  rw [encode_of he, decode_lead hw (Nat.le_of_ble_eq_true rfl) (by omega), decodeOp_0B]
  simp only [decodeOp0B, lead_hdr hw (Nat.le_of_ble_eq_true rfl) (by omega), c0, true_and, and_true, false_and, and_false, and_self, if_true, if_false, Nat.reduceEqDiff, Nat.reduceDiv]

theorem trapi (h : LHdr) (code : BitVec 13) : Statement (.trapi h code) := by
  intro _
  have := code.isLt
  obtain ⟨y, hw⟩ : ∃ y, y = leadWord h 0x0C (low_0b13 code 0) := ⟨_, rfl⟩
  have he : encodeNat (.trapi h code) = some y := by rw [hw]; rfl
  unfold low_0b13 at hw
  have f0 : Sys2Proof.fld 13 0 y = code := lead_fld hw (Nat.le_of_ble_eq_true rfl) (by omega)
  rw [encode_of he, decode_lead hw (Nat.le_of_ble_eq_true rfl) (by omega), decodeOp_0C]
  simp only [decodeOp0C, lead_hdr hw (Nat.le_of_ble_eq_true rfl) (by omega), f0, true_and, and_true, false_and, and_false, and_self, if_true, if_false, Nat.reduceEqDiff, Nat.reduceDiv]

theorem bkpt (h : LHdr) (code : BitVec 13) : Statement (.bkpt h code) := by
  intro _
  have := code.isLt
  obtain ⟨y, hw⟩ : ∃ y, y = leadWord h 0x0D (low_0b13 code 0) := ⟨_, rfl⟩
  have he : encodeNat (.bkpt h code) = some y := by rw [hw]; rfl
  unfold low_0b13 at hw
  have f0 : Sys2Proof.fld 13 0 y = code := lead_fld hw (Nat.le_of_ble_eq_true rfl) (by omega)
  rw [encode_of he, decode_lead hw (Nat.le_of_ble_eq_true rfl) (by omega), decodeOp_0D]
  simp only [decodeOp0D, lead_hdr hw (Nat.le_of_ble_eq_true rfl) (by omega), f0, true_and, and_true, false_and, and_false, and_self, if_true, if_false, Nat.reduceEqDiff, Nat.reduceDiv]

theorem add (h : Hdr) (d : BitVec 5) (a : BitVec 5) (b : BitVec 5) : Statement (.add h d a b) := by
  intro _
  have := d.isLt; have := a.isLt; have := b.isLt
  obtain ⟨y, hw⟩ : ∃ y, y = slotWord h 0x10 (low_15_10_5b5b5b5 d a b 0) := ⟨_, rfl⟩
  have he : encodeNat (.add h d a b) = some y := by rw [hw]; rfl
  unfold low_15_10_5b5b5b5 at hw
  have c0 : y / 2 ^ 0 % 2 ^ 5 = 0 := slot_const hw (Nat.le_of_ble_eq_true rfl) (by omega)
  have f0 : Sys2Proof.fld 5 15 y = d := slot_fld hw (Nat.le_of_ble_eq_true rfl) (by omega)
  have f1 : Sys2Proof.fld 5 10 y = a := slot_fld hw (Nat.le_of_ble_eq_true rfl) (by omega)
  have f2 : Sys2Proof.fld 5 5 y = b := slot_fld hw (Nat.le_of_ble_eq_true rfl) (by omega)
  rw [encode_of he, decode_slot hw (Nat.le_of_ble_eq_true rfl) (by omega), decodeOp_10]
  simp only [decodeOp10, slot_hdr hw (Nat.le_of_ble_eq_true rfl) (by omega), c0, f0, f1, f2, true_and, and_true, false_and, and_false, and_self, if_true, if_false, Nat.reduceEqDiff, Nat.reduceDiv]

theorem addSs (h : Hdr) (d : BitVec 5) (a : BitVec 5) (b : BitVec 5) : Statement (.addSs h d a b) := by
  intro _
  have := d.isLt; have := a.isLt; have := b.isLt
  obtain ⟨y, hw⟩ : ∃ y, y = slotWord h 0x10 (low_15_10_5b5b5b5 d a b 1) := ⟨_, rfl⟩
  have he : encodeNat (.addSs h d a b) = some y := by rw [hw]; rfl
  unfold low_15_10_5b5b5b5 at hw
  have c0 : y / 2 ^ 0 % 2 ^ 5 = 1 := slot_const hw (Nat.le_of_ble_eq_true rfl) (by omega)
  have f0 : Sys2Proof.fld 5 15 y = d := slot_fld hw (Nat.le_of_ble_eq_true rfl) (by omega)
  have f1 : Sys2Proof.fld 5 10 y = a := slot_fld hw (Nat.le_of_ble_eq_true rfl) (by omega)
  have f2 : Sys2Proof.fld 5 5 y = b := slot_fld hw (Nat.le_of_ble_eq_true rfl) (by omega)
  rw [encode_of he, decode_slot hw (Nat.le_of_ble_eq_true rfl) (by omega), decodeOp_10]
  simp only [decodeOp10, slot_hdr hw (Nat.le_of_ble_eq_true rfl) (by omega), c0, f0, f1, f2, true_and, and_true, false_and, and_false, and_self, if_true, if_false, Nat.reduceEqDiff, Nat.reduceDiv]

theorem addUs (h : Hdr) (d : BitVec 5) (a : BitVec 5) (b : BitVec 5) : Statement (.addUs h d a b) := by
  intro _
  have := d.isLt; have := a.isLt; have := b.isLt
  obtain ⟨y, hw⟩ : ∃ y, y = slotWord h 0x10 (low_15_10_5b5b5b5 d a b 2) := ⟨_, rfl⟩
  have he : encodeNat (.addUs h d a b) = some y := by rw [hw]; rfl
  unfold low_15_10_5b5b5b5 at hw
  have c0 : y / 2 ^ 0 % 2 ^ 5 = 2 := slot_const hw (Nat.le_of_ble_eq_true rfl) (by omega)
  have f0 : Sys2Proof.fld 5 15 y = d := slot_fld hw (Nat.le_of_ble_eq_true rfl) (by omega)
  have f1 : Sys2Proof.fld 5 10 y = a := slot_fld hw (Nat.le_of_ble_eq_true rfl) (by omega)
  have f2 : Sys2Proof.fld 5 5 y = b := slot_fld hw (Nat.le_of_ble_eq_true rfl) (by omega)
  rw [encode_of he, decode_slot hw (Nat.le_of_ble_eq_true rfl) (by omega), decodeOp_10]
  simp only [decodeOp10, slot_hdr hw (Nat.le_of_ble_eq_true rfl) (by omega), c0, f0, f1, f2, true_and, and_true, false_and, and_false, and_self, if_true, if_false, Nat.reduceEqDiff, Nat.reduceDiv]

theorem addW (h : Hdr) (d : BitVec 5) (a : BitVec 5) (b : BitVec 5) : Statement (.addW h d a b) := by
  intro _
  have := d.isLt; have := a.isLt; have := b.isLt
  obtain ⟨y, hw⟩ : ∃ y, y = slotWord h 0x10 (low_15_10_5b5b5b5 d a b 3) := ⟨_, rfl⟩
  have he : encodeNat (.addW h d a b) = some y := by rw [hw]; rfl
  unfold low_15_10_5b5b5b5 at hw
  have c0 : y / 2 ^ 0 % 2 ^ 5 = 3 := slot_const hw (Nat.le_of_ble_eq_true rfl) (by omega)
  have f0 : Sys2Proof.fld 5 15 y = d := slot_fld hw (Nat.le_of_ble_eq_true rfl) (by omega)
  have f1 : Sys2Proof.fld 5 10 y = a := slot_fld hw (Nat.le_of_ble_eq_true rfl) (by omega)
  have f2 : Sys2Proof.fld 5 5 y = b := slot_fld hw (Nat.le_of_ble_eq_true rfl) (by omega)
  rw [encode_of he, decode_slot hw (Nat.le_of_ble_eq_true rfl) (by omega), decodeOp_10]
  simp only [decodeOp10, slot_hdr hw (Nat.le_of_ble_eq_true rfl) (by omega), c0, f0, f1, f2, true_and, and_true, false_and, and_false, and_self, if_true, if_false, Nat.reduceEqDiff, Nat.reduceDiv]

theorem sub (h : Hdr) (d : BitVec 5) (a : BitVec 5) (b : BitVec 5) : Statement (.sub h d a b) := by
  intro _
  have := d.isLt; have := a.isLt; have := b.isLt
  obtain ⟨y, hw⟩ : ∃ y, y = slotWord h 0x11 (low_15_10_5b5b5b5 d a b 0) := ⟨_, rfl⟩
  have he : encodeNat (.sub h d a b) = some y := by rw [hw]; rfl
  unfold low_15_10_5b5b5b5 at hw
  have c0 : y / 2 ^ 0 % 2 ^ 5 = 0 := slot_const hw (Nat.le_of_ble_eq_true rfl) (by omega)
  have f0 : Sys2Proof.fld 5 15 y = d := slot_fld hw (Nat.le_of_ble_eq_true rfl) (by omega)
  have f1 : Sys2Proof.fld 5 10 y = a := slot_fld hw (Nat.le_of_ble_eq_true rfl) (by omega)
  have f2 : Sys2Proof.fld 5 5 y = b := slot_fld hw (Nat.le_of_ble_eq_true rfl) (by omega)
  rw [encode_of he, decode_slot hw (Nat.le_of_ble_eq_true rfl) (by omega), decodeOp_11]
  simp only [decodeOp11, slot_hdr hw (Nat.le_of_ble_eq_true rfl) (by omega), c0, f0, f1, f2, true_and, and_true, false_and, and_false, and_self, if_true, if_false, Nat.reduceEqDiff, Nat.reduceDiv]

theorem subSs (h : Hdr) (d : BitVec 5) (a : BitVec 5) (b : BitVec 5) : Statement (.subSs h d a b) := by
  intro _
  have := d.isLt; have := a.isLt; have := b.isLt
  obtain ⟨y, hw⟩ : ∃ y, y = slotWord h 0x11 (low_15_10_5b5b5b5 d a b 1) := ⟨_, rfl⟩
  have he : encodeNat (.subSs h d a b) = some y := by rw [hw]; rfl
  unfold low_15_10_5b5b5b5 at hw
  have c0 : y / 2 ^ 0 % 2 ^ 5 = 1 := slot_const hw (Nat.le_of_ble_eq_true rfl) (by omega)
  have f0 : Sys2Proof.fld 5 15 y = d := slot_fld hw (Nat.le_of_ble_eq_true rfl) (by omega)
  have f1 : Sys2Proof.fld 5 10 y = a := slot_fld hw (Nat.le_of_ble_eq_true rfl) (by omega)
  have f2 : Sys2Proof.fld 5 5 y = b := slot_fld hw (Nat.le_of_ble_eq_true rfl) (by omega)
  rw [encode_of he, decode_slot hw (Nat.le_of_ble_eq_true rfl) (by omega), decodeOp_11]
  simp only [decodeOp11, slot_hdr hw (Nat.le_of_ble_eq_true rfl) (by omega), c0, f0, f1, f2, true_and, and_true, false_and, and_false, and_self, if_true, if_false, Nat.reduceEqDiff, Nat.reduceDiv]

theorem subUs (h : Hdr) (d : BitVec 5) (a : BitVec 5) (b : BitVec 5) : Statement (.subUs h d a b) := by
  intro _
  have := d.isLt; have := a.isLt; have := b.isLt
  obtain ⟨y, hw⟩ : ∃ y, y = slotWord h 0x11 (low_15_10_5b5b5b5 d a b 2) := ⟨_, rfl⟩
  have he : encodeNat (.subUs h d a b) = some y := by rw [hw]; rfl
  unfold low_15_10_5b5b5b5 at hw
  have c0 : y / 2 ^ 0 % 2 ^ 5 = 2 := slot_const hw (Nat.le_of_ble_eq_true rfl) (by omega)
  have f0 : Sys2Proof.fld 5 15 y = d := slot_fld hw (Nat.le_of_ble_eq_true rfl) (by omega)
  have f1 : Sys2Proof.fld 5 10 y = a := slot_fld hw (Nat.le_of_ble_eq_true rfl) (by omega)
  have f2 : Sys2Proof.fld 5 5 y = b := slot_fld hw (Nat.le_of_ble_eq_true rfl) (by omega)
  rw [encode_of he, decode_slot hw (Nat.le_of_ble_eq_true rfl) (by omega), decodeOp_11]
  simp only [decodeOp11, slot_hdr hw (Nat.le_of_ble_eq_true rfl) (by omega), c0, f0, f1, f2, true_and, and_true, false_and, and_false, and_self, if_true, if_false, Nat.reduceEqDiff, Nat.reduceDiv]

theorem subW (h : Hdr) (d : BitVec 5) (a : BitVec 5) (b : BitVec 5) : Statement (.subW h d a b) := by
  intro _
  have := d.isLt; have := a.isLt; have := b.isLt
  obtain ⟨y, hw⟩ : ∃ y, y = slotWord h 0x11 (low_15_10_5b5b5b5 d a b 3) := ⟨_, rfl⟩
  have he : encodeNat (.subW h d a b) = some y := by rw [hw]; rfl
  unfold low_15_10_5b5b5b5 at hw
  have c0 : y / 2 ^ 0 % 2 ^ 5 = 3 := slot_const hw (Nat.le_of_ble_eq_true rfl) (by omega)
  have f0 : Sys2Proof.fld 5 15 y = d := slot_fld hw (Nat.le_of_ble_eq_true rfl) (by omega)
  have f1 : Sys2Proof.fld 5 10 y = a := slot_fld hw (Nat.le_of_ble_eq_true rfl) (by omega)
  have f2 : Sys2Proof.fld 5 5 y = b := slot_fld hw (Nat.le_of_ble_eq_true rfl) (by omega)
  rw [encode_of he, decode_slot hw (Nat.le_of_ble_eq_true rfl) (by omega), decodeOp_11]
  simp only [decodeOp11, slot_hdr hw (Nat.le_of_ble_eq_true rfl) (by omega), c0, f0, f1, f2, true_and, and_true, false_and, and_false, and_self, if_true, if_false, Nat.reduceEqDiff, Nat.reduceDiv]

theorem addi (h : Hdr) (d : BitVec 5) (a : BitVec 5) (imm : BitVec 10) : Statement (.addi h d a imm) := by
  intro _
  have := d.isLt; have := a.isLt; have := imm.isLt
  obtain ⟨y, hw⟩ : ∃ y, y = slotWord h 0x12 (low_15_10_0b5b5b10 d a imm 0) := ⟨_, rfl⟩
  have he : encodeNat (.addi h d a imm) = some y := by rw [hw]; rfl
  unfold low_15_10_0b5b5b10 at hw
  have f0 : Sys2Proof.fld 5 15 y = d := slot_fld hw (Nat.le_of_ble_eq_true rfl) (by omega)
  have f1 : Sys2Proof.fld 5 10 y = a := slot_fld hw (Nat.le_of_ble_eq_true rfl) (by omega)
  have f2 : Sys2Proof.fld 10 0 y = imm := slot_fld hw (Nat.le_of_ble_eq_true rfl) (by omega)
  rw [encode_of he, decode_slot hw (Nat.le_of_ble_eq_true rfl) (by omega), decodeOp_12]
  simp only [decodeOp12, slot_hdr hw (Nat.le_of_ble_eq_true rfl) (by omega), f0, f1, f2, true_and, and_true, false_and, and_false, and_self, if_true, if_false, Nat.reduceEqDiff, Nat.reduceDiv]

theorem mul (h : Hdr) (d : BitVec 5) (a : BitVec 5) (b : BitVec 5) : Statement (.mul h d a b) := by
  intro _
  have := d.isLt; have := a.isLt; have := b.isLt
  obtain ⟨y, hw⟩ : ∃ y, y = slotWord h 0x13 (low_15_10_5b5b5b5 d a b 0) := ⟨_, rfl⟩
  have he : encodeNat (.mul h d a b) = some y := by rw [hw]; rfl
  unfold low_15_10_5b5b5b5 at hw
  have c0 : y / 2 ^ 0 % 2 ^ 5 = 0 := slot_const hw (Nat.le_of_ble_eq_true rfl) (by omega)
  have f0 : Sys2Proof.fld 5 15 y = d := slot_fld hw (Nat.le_of_ble_eq_true rfl) (by omega)
  have f1 : Sys2Proof.fld 5 10 y = a := slot_fld hw (Nat.le_of_ble_eq_true rfl) (by omega)
  have f2 : Sys2Proof.fld 5 5 y = b := slot_fld hw (Nat.le_of_ble_eq_true rfl) (by omega)
  rw [encode_of he, decode_slot hw (Nat.le_of_ble_eq_true rfl) (by omega), decodeOp_13]
  simp only [decodeOp13, slot_hdr hw (Nat.le_of_ble_eq_true rfl) (by omega), c0, f0, f1, f2, true_and, and_true, false_and, and_false, and_self, if_true, if_false, Nat.reduceEqDiff, Nat.reduceDiv]

theorem mulh (h : Hdr) (d : BitVec 5) (a : BitVec 5) (b : BitVec 5) : Statement (.mulh h d a b) := by
  intro _
  have := d.isLt; have := a.isLt; have := b.isLt
  obtain ⟨y, hw⟩ : ∃ y, y = slotWord h 0x14 (low_15_10_5b5b5b5 d a b 0) := ⟨_, rfl⟩
  have he : encodeNat (.mulh h d a b) = some y := by rw [hw]; rfl
  unfold low_15_10_5b5b5b5 at hw
  have c0 : y / 2 ^ 0 % 2 ^ 5 = 0 := slot_const hw (Nat.le_of_ble_eq_true rfl) (by omega)
  have f0 : Sys2Proof.fld 5 15 y = d := slot_fld hw (Nat.le_of_ble_eq_true rfl) (by omega)
  have f1 : Sys2Proof.fld 5 10 y = a := slot_fld hw (Nat.le_of_ble_eq_true rfl) (by omega)
  have f2 : Sys2Proof.fld 5 5 y = b := slot_fld hw (Nat.le_of_ble_eq_true rfl) (by omega)
  rw [encode_of he, decode_slot hw (Nat.le_of_ble_eq_true rfl) (by omega), decodeOp_14]
  simp only [decodeOp14, slot_hdr hw (Nat.le_of_ble_eq_true rfl) (by omega), c0, f0, f1, f2, true_and, and_true, false_and, and_false, and_self, if_true, if_false, Nat.reduceEqDiff, Nat.reduceDiv]

theorem mulhU (h : Hdr) (d : BitVec 5) (a : BitVec 5) (b : BitVec 5) : Statement (.mulhU h d a b) := by
  intro _
  have := d.isLt; have := a.isLt; have := b.isLt
  obtain ⟨y, hw⟩ : ∃ y, y = slotWord h 0x14 (low_15_10_5b5b5b5 d a b 1) := ⟨_, rfl⟩
  have he : encodeNat (.mulhU h d a b) = some y := by rw [hw]; rfl
  unfold low_15_10_5b5b5b5 at hw
  have c0 : y / 2 ^ 0 % 2 ^ 5 = 1 := slot_const hw (Nat.le_of_ble_eq_true rfl) (by omega)
  have f0 : Sys2Proof.fld 5 15 y = d := slot_fld hw (Nat.le_of_ble_eq_true rfl) (by omega)
  have f1 : Sys2Proof.fld 5 10 y = a := slot_fld hw (Nat.le_of_ble_eq_true rfl) (by omega)
  have f2 : Sys2Proof.fld 5 5 y = b := slot_fld hw (Nat.le_of_ble_eq_true rfl) (by omega)
  rw [encode_of he, decode_slot hw (Nat.le_of_ble_eq_true rfl) (by omega), decodeOp_14]
  simp only [decodeOp14, slot_hdr hw (Nat.le_of_ble_eq_true rfl) (by omega), c0, f0, f1, f2, true_and, and_true, false_and, and_false, and_self, if_true, if_false, Nat.reduceEqDiff, Nat.reduceDiv]

theorem div (h : Hdr) (d : BitVec 5) (a : BitVec 5) (b : BitVec 5) : Statement (.div h d a b) := by
  intro _
  have := d.isLt; have := a.isLt; have := b.isLt
  obtain ⟨y, hw⟩ : ∃ y, y = slotWord h 0x15 (low_15_10_5b5b5b5 d a b 0) := ⟨_, rfl⟩
  have he : encodeNat (.div h d a b) = some y := by rw [hw]; rfl
  unfold low_15_10_5b5b5b5 at hw
  have c0 : y / 2 ^ 0 % 2 ^ 5 = 0 := slot_const hw (Nat.le_of_ble_eq_true rfl) (by omega)
  have f0 : Sys2Proof.fld 5 15 y = d := slot_fld hw (Nat.le_of_ble_eq_true rfl) (by omega)
  have f1 : Sys2Proof.fld 5 10 y = a := slot_fld hw (Nat.le_of_ble_eq_true rfl) (by omega)
  have f2 : Sys2Proof.fld 5 5 y = b := slot_fld hw (Nat.le_of_ble_eq_true rfl) (by omega)
  rw [encode_of he, decode_slot hw (Nat.le_of_ble_eq_true rfl) (by omega), decodeOp_15]
  simp only [decodeOp15, slot_hdr hw (Nat.le_of_ble_eq_true rfl) (by omega), c0, f0, f1, f2, true_and, and_true, false_and, and_false, and_self, if_true, if_false, Nat.reduceEqDiff, Nat.reduceDiv]

theorem divU (h : Hdr) (d : BitVec 5) (a : BitVec 5) (b : BitVec 5) : Statement (.divU h d a b) := by
  intro _
  have := d.isLt; have := a.isLt; have := b.isLt
  obtain ⟨y, hw⟩ : ∃ y, y = slotWord h 0x15 (low_15_10_5b5b5b5 d a b 1) := ⟨_, rfl⟩
  have he : encodeNat (.divU h d a b) = some y := by rw [hw]; rfl
  unfold low_15_10_5b5b5b5 at hw
  have c0 : y / 2 ^ 0 % 2 ^ 5 = 1 := slot_const hw (Nat.le_of_ble_eq_true rfl) (by omega)
  have f0 : Sys2Proof.fld 5 15 y = d := slot_fld hw (Nat.le_of_ble_eq_true rfl) (by omega)
  have f1 : Sys2Proof.fld 5 10 y = a := slot_fld hw (Nat.le_of_ble_eq_true rfl) (by omega)
  have f2 : Sys2Proof.fld 5 5 y = b := slot_fld hw (Nat.le_of_ble_eq_true rfl) (by omega)
  rw [encode_of he, decode_slot hw (Nat.le_of_ble_eq_true rfl) (by omega), decodeOp_15]
  simp only [decodeOp15, slot_hdr hw (Nat.le_of_ble_eq_true rfl) (by omega), c0, f0, f1, f2, true_and, and_true, false_and, and_false, and_self, if_true, if_false, Nat.reduceEqDiff, Nat.reduceDiv]

theorem divRem (h : Hdr) (d : BitVec 5) (a : BitVec 5) (b : BitVec 5) : Statement (.divRem h d a b) := by
  intro _
  have := d.isLt; have := a.isLt; have := b.isLt
  obtain ⟨y, hw⟩ : ∃ y, y = slotWord h 0x15 (low_15_10_5b5b5b5 d a b 2) := ⟨_, rfl⟩
  have he : encodeNat (.divRem h d a b) = some y := by rw [hw]; rfl
  unfold low_15_10_5b5b5b5 at hw
  have c0 : y / 2 ^ 0 % 2 ^ 5 = 2 := slot_const hw (Nat.le_of_ble_eq_true rfl) (by omega)
  have f0 : Sys2Proof.fld 5 15 y = d := slot_fld hw (Nat.le_of_ble_eq_true rfl) (by omega)
  have f1 : Sys2Proof.fld 5 10 y = a := slot_fld hw (Nat.le_of_ble_eq_true rfl) (by omega)
  have f2 : Sys2Proof.fld 5 5 y = b := slot_fld hw (Nat.le_of_ble_eq_true rfl) (by omega)
  rw [encode_of he, decode_slot hw (Nat.le_of_ble_eq_true rfl) (by omega), decodeOp_15]
  simp only [decodeOp15, slot_hdr hw (Nat.le_of_ble_eq_true rfl) (by omega), c0, f0, f1, f2, true_and, and_true, false_and, and_false, and_self, if_true, if_false, Nat.reduceEqDiff, Nat.reduceDiv]

theorem divURem (h : Hdr) (d : BitVec 5) (a : BitVec 5) (b : BitVec 5) : Statement (.divURem h d a b) := by
  intro _
  have := d.isLt; have := a.isLt; have := b.isLt
  obtain ⟨y, hw⟩ : ∃ y, y = slotWord h 0x15 (low_15_10_5b5b5b5 d a b 3) := ⟨_, rfl⟩
  have he : encodeNat (.divURem h d a b) = some y := by rw [hw]; rfl
  unfold low_15_10_5b5b5b5 at hw
  have c0 : y / 2 ^ 0 % 2 ^ 5 = 3 := slot_const hw (Nat.le_of_ble_eq_true rfl) (by omega)
  have f0 : Sys2Proof.fld 5 15 y = d := slot_fld hw (Nat.le_of_ble_eq_true rfl) (by omega)
  have f1 : Sys2Proof.fld 5 10 y = a := slot_fld hw (Nat.le_of_ble_eq_true rfl) (by omega)
  have f2 : Sys2Proof.fld 5 5 y = b := slot_fld hw (Nat.le_of_ble_eq_true rfl) (by omega)
  rw [encode_of he, decode_slot hw (Nat.le_of_ble_eq_true rfl) (by omega), decodeOp_15]
  simp only [decodeOp15, slot_hdr hw (Nat.le_of_ble_eq_true rfl) (by omega), c0, f0, f1, f2, true_and, and_true, false_and, and_false, and_self, if_true, if_false, Nat.reduceEqDiff, Nat.reduceDiv]

theorem and (h : Hdr) (d : BitVec 5) (a : BitVec 5) (b : BitVec 5) : Statement (.and h d a b) := by
  intro _
  have := d.isLt; have := a.isLt; have := b.isLt
  obtain ⟨y, hw⟩ : ∃ y, y = slotWord h 0x16 (low_15_10_5b5b5b5 d a b 0) := ⟨_, rfl⟩
  have he : encodeNat (.and h d a b) = some y := by rw [hw]; rfl
  unfold low_15_10_5b5b5b5 at hw
  have c0 : y / 2 ^ 0 % 2 ^ 5 = 0 := slot_const hw (Nat.le_of_ble_eq_true rfl) (by omega)
  have f0 : Sys2Proof.fld 5 15 y = d := slot_fld hw (Nat.le_of_ble_eq_true rfl) (by omega)
  have f1 : Sys2Proof.fld 5 10 y = a := slot_fld hw (Nat.le_of_ble_eq_true rfl) (by omega)
  have f2 : Sys2Proof.fld 5 5 y = b := slot_fld hw (Nat.le_of_ble_eq_true rfl) (by omega)
  rw [encode_of he, decode_slot hw (Nat.le_of_ble_eq_true rfl) (by omega), decodeOp_16]
  simp only [decodeOp16, slot_hdr hw (Nat.le_of_ble_eq_true rfl) (by omega), c0, f0, f1, f2, true_and, and_true, false_and, and_false, and_self, if_true, if_false, Nat.reduceEqDiff, Nat.reduceDiv]

theorem or (h : Hdr) (d : BitVec 5) (a : BitVec 5) (b : BitVec 5) : Statement (.or h d a b) := by
  intro _
  have := d.isLt; have := a.isLt; have := b.isLt
  obtain ⟨y, hw⟩ : ∃ y, y = slotWord h 0x16 (low_15_10_5b5b5b5 d a b 1) := ⟨_, rfl⟩
  have he : encodeNat (.or h d a b) = some y := by rw [hw]; rfl
  unfold low_15_10_5b5b5b5 at hw
  have c0 : y / 2 ^ 0 % 2 ^ 5 = 1 := slot_const hw (Nat.le_of_ble_eq_true rfl) (by omega)
  have f0 : Sys2Proof.fld 5 15 y = d := slot_fld hw (Nat.le_of_ble_eq_true rfl) (by omega)
  have f1 : Sys2Proof.fld 5 10 y = a := slot_fld hw (Nat.le_of_ble_eq_true rfl) (by omega)
  have f2 : Sys2Proof.fld 5 5 y = b := slot_fld hw (Nat.le_of_ble_eq_true rfl) (by omega)
  rw [encode_of he, decode_slot hw (Nat.le_of_ble_eq_true rfl) (by omega), decodeOp_16]
  simp only [decodeOp16, slot_hdr hw (Nat.le_of_ble_eq_true rfl) (by omega), c0, f0, f1, f2, true_and, and_true, false_and, and_false, and_self, if_true, if_false, Nat.reduceEqDiff, Nat.reduceDiv]

theorem xor (h : Hdr) (d : BitVec 5) (a : BitVec 5) (b : BitVec 5) : Statement (.xor h d a b) := by
  intro _
  have := d.isLt; have := a.isLt; have := b.isLt
  obtain ⟨y, hw⟩ : ∃ y, y = slotWord h 0x16 (low_15_10_5b5b5b5 d a b 2) := ⟨_, rfl⟩
  have he : encodeNat (.xor h d a b) = some y := by rw [hw]; rfl
  unfold low_15_10_5b5b5b5 at hw
  have c0 : y / 2 ^ 0 % 2 ^ 5 = 2 := slot_const hw (Nat.le_of_ble_eq_true rfl) (by omega)
  have f0 : Sys2Proof.fld 5 15 y = d := slot_fld hw (Nat.le_of_ble_eq_true rfl) (by omega)
  have f1 : Sys2Proof.fld 5 10 y = a := slot_fld hw (Nat.le_of_ble_eq_true rfl) (by omega)
  have f2 : Sys2Proof.fld 5 5 y = b := slot_fld hw (Nat.le_of_ble_eq_true rfl) (by omega)
  rw [encode_of he, decode_slot hw (Nat.le_of_ble_eq_true rfl) (by omega), decodeOp_16]
  simp only [decodeOp16, slot_hdr hw (Nat.le_of_ble_eq_true rfl) (by omega), c0, f0, f1, f2, true_and, and_true, false_and, and_false, and_self, if_true, if_false, Nat.reduceEqDiff, Nat.reduceDiv]

theorem andn (h : Hdr) (d : BitVec 5) (a : BitVec 5) (b : BitVec 5) : Statement (.andn h d a b) := by
  intro _
  have := d.isLt; have := a.isLt; have := b.isLt
  obtain ⟨y, hw⟩ : ∃ y, y = slotWord h 0x16 (low_15_10_5b5b5b5 d a b 3) := ⟨_, rfl⟩
  have he : encodeNat (.andn h d a b) = some y := by rw [hw]; rfl
  unfold low_15_10_5b5b5b5 at hw
  have c0 : y / 2 ^ 0 % 2 ^ 5 = 3 := slot_const hw (Nat.le_of_ble_eq_true rfl) (by omega)
  have f0 : Sys2Proof.fld 5 15 y = d := slot_fld hw (Nat.le_of_ble_eq_true rfl) (by omega)
  have f1 : Sys2Proof.fld 5 10 y = a := slot_fld hw (Nat.le_of_ble_eq_true rfl) (by omega)
  have f2 : Sys2Proof.fld 5 5 y = b := slot_fld hw (Nat.le_of_ble_eq_true rfl) (by omega)
  rw [encode_of he, decode_slot hw (Nat.le_of_ble_eq_true rfl) (by omega), decodeOp_16]
  simp only [decodeOp16, slot_hdr hw (Nat.le_of_ble_eq_true rfl) (by omega), c0, f0, f1, f2, true_and, and_true, false_and, and_false, and_self, if_true, if_false, Nat.reduceEqDiff, Nat.reduceDiv]

theorem orn (h : Hdr) (d : BitVec 5) (a : BitVec 5) (b : BitVec 5) : Statement (.orn h d a b) := by
  intro _
  have := d.isLt; have := a.isLt; have := b.isLt
  obtain ⟨y, hw⟩ : ∃ y, y = slotWord h 0x16 (low_15_10_5b5b5b5 d a b 4) := ⟨_, rfl⟩
  have he : encodeNat (.orn h d a b) = some y := by rw [hw]; rfl
  unfold low_15_10_5b5b5b5 at hw
  have c0 : y / 2 ^ 0 % 2 ^ 5 = 4 := slot_const hw (Nat.le_of_ble_eq_true rfl) (by omega)
  have f0 : Sys2Proof.fld 5 15 y = d := slot_fld hw (Nat.le_of_ble_eq_true rfl) (by omega)
  have f1 : Sys2Proof.fld 5 10 y = a := slot_fld hw (Nat.le_of_ble_eq_true rfl) (by omega)
  have f2 : Sys2Proof.fld 5 5 y = b := slot_fld hw (Nat.le_of_ble_eq_true rfl) (by omega)
  rw [encode_of he, decode_slot hw (Nat.le_of_ble_eq_true rfl) (by omega), decodeOp_16]
  simp only [decodeOp16, slot_hdr hw (Nat.le_of_ble_eq_true rfl) (by omega), c0, f0, f1, f2, true_and, and_true, false_and, and_false, and_self, if_true, if_false, Nat.reduceEqDiff, Nat.reduceDiv]

theorem xnor (h : Hdr) (d : BitVec 5) (a : BitVec 5) (b : BitVec 5) : Statement (.xnor h d a b) := by
  intro _
  have := d.isLt; have := a.isLt; have := b.isLt
  obtain ⟨y, hw⟩ : ∃ y, y = slotWord h 0x16 (low_15_10_5b5b5b5 d a b 5) := ⟨_, rfl⟩
  have he : encodeNat (.xnor h d a b) = some y := by rw [hw]; rfl
  unfold low_15_10_5b5b5b5 at hw
  have c0 : y / 2 ^ 0 % 2 ^ 5 = 5 := slot_const hw (Nat.le_of_ble_eq_true rfl) (by omega)
  have f0 : Sys2Proof.fld 5 15 y = d := slot_fld hw (Nat.le_of_ble_eq_true rfl) (by omega)
  have f1 : Sys2Proof.fld 5 10 y = a := slot_fld hw (Nat.le_of_ble_eq_true rfl) (by omega)
  have f2 : Sys2Proof.fld 5 5 y = b := slot_fld hw (Nat.le_of_ble_eq_true rfl) (by omega)
  rw [encode_of he, decode_slot hw (Nat.le_of_ble_eq_true rfl) (by omega), decodeOp_16]
  simp only [decodeOp16, slot_hdr hw (Nat.le_of_ble_eq_true rfl) (by omega), c0, f0, f1, f2, true_and, and_true, false_and, and_false, and_self, if_true, if_false, Nat.reduceEqDiff, Nat.reduceDiv]

theorem shl (h : Hdr) (d : BitVec 5) (a : BitVec 5) (b : BitVec 5) : Statement (.shl h d a b) := by
  intro _
  have := d.isLt; have := a.isLt; have := b.isLt
  obtain ⟨y, hw⟩ : ∃ y, y = slotWord h 0x17 (low_15_10_5b5b5b5 d a b 0) := ⟨_, rfl⟩
  have he : encodeNat (.shl h d a b) = some y := by rw [hw]; rfl
  unfold low_15_10_5b5b5b5 at hw
  have c0 : y / 2 ^ 0 % 2 ^ 5 = 0 := slot_const hw (Nat.le_of_ble_eq_true rfl) (by omega)
  have f0 : Sys2Proof.fld 5 15 y = d := slot_fld hw (Nat.le_of_ble_eq_true rfl) (by omega)
  have f1 : Sys2Proof.fld 5 10 y = a := slot_fld hw (Nat.le_of_ble_eq_true rfl) (by omega)
  have f2 : Sys2Proof.fld 5 5 y = b := slot_fld hw (Nat.le_of_ble_eq_true rfl) (by omega)
  rw [encode_of he, decode_slot hw (Nat.le_of_ble_eq_true rfl) (by omega), decodeOp_17]
  simp only [decodeOp17, slot_hdr hw (Nat.le_of_ble_eq_true rfl) (by omega), c0, f0, f1, f2, true_and, and_true, false_and, and_false, and_self, if_true, if_false, Nat.reduceEqDiff, Nat.reduceDiv]

theorem shr (h : Hdr) (d : BitVec 5) (a : BitVec 5) (b : BitVec 5) : Statement (.shr h d a b) := by
  intro _
  have := d.isLt; have := a.isLt; have := b.isLt
  obtain ⟨y, hw⟩ : ∃ y, y = slotWord h 0x17 (low_15_10_5b5b5b5 d a b 1) := ⟨_, rfl⟩
  have he : encodeNat (.shr h d a b) = some y := by rw [hw]; rfl
  unfold low_15_10_5b5b5b5 at hw
  have c0 : y / 2 ^ 0 % 2 ^ 5 = 1 := slot_const hw (Nat.le_of_ble_eq_true rfl) (by omega)
  have f0 : Sys2Proof.fld 5 15 y = d := slot_fld hw (Nat.le_of_ble_eq_true rfl) (by omega)
  have f1 : Sys2Proof.fld 5 10 y = a := slot_fld hw (Nat.le_of_ble_eq_true rfl) (by omega)
  have f2 : Sys2Proof.fld 5 5 y = b := slot_fld hw (Nat.le_of_ble_eq_true rfl) (by omega)
  rw [encode_of he, decode_slot hw (Nat.le_of_ble_eq_true rfl) (by omega), decodeOp_17]
  simp only [decodeOp17, slot_hdr hw (Nat.le_of_ble_eq_true rfl) (by omega), c0, f0, f1, f2, true_and, and_true, false_and, and_false, and_self, if_true, if_false, Nat.reduceEqDiff, Nat.reduceDiv]

theorem sar (h : Hdr) (d : BitVec 5) (a : BitVec 5) (b : BitVec 5) : Statement (.sar h d a b) := by
  intro _
  have := d.isLt; have := a.isLt; have := b.isLt
  obtain ⟨y, hw⟩ : ∃ y, y = slotWord h 0x17 (low_15_10_5b5b5b5 d a b 2) := ⟨_, rfl⟩
  have he : encodeNat (.sar h d a b) = some y := by rw [hw]; rfl
  unfold low_15_10_5b5b5b5 at hw
  have c0 : y / 2 ^ 0 % 2 ^ 5 = 2 := slot_const hw (Nat.le_of_ble_eq_true rfl) (by omega)
  have f0 : Sys2Proof.fld 5 15 y = d := slot_fld hw (Nat.le_of_ble_eq_true rfl) (by omega)
  have f1 : Sys2Proof.fld 5 10 y = a := slot_fld hw (Nat.le_of_ble_eq_true rfl) (by omega)
  have f2 : Sys2Proof.fld 5 5 y = b := slot_fld hw (Nat.le_of_ble_eq_true rfl) (by omega)
  rw [encode_of he, decode_slot hw (Nat.le_of_ble_eq_true rfl) (by omega), decodeOp_17]
  simp only [decodeOp17, slot_hdr hw (Nat.le_of_ble_eq_true rfl) (by omega), c0, f0, f1, f2, true_and, and_true, false_and, and_false, and_self, if_true, if_false, Nat.reduceEqDiff, Nat.reduceDiv]

theorem ror (h : Hdr) (d : BitVec 5) (a : BitVec 5) (b : BitVec 5) : Statement (.ror h d a b) := by
  intro _
  have := d.isLt; have := a.isLt; have := b.isLt
  obtain ⟨y, hw⟩ : ∃ y, y = slotWord h 0x17 (low_15_10_5b5b5b5 d a b 3) := ⟨_, rfl⟩
  have he : encodeNat (.ror h d a b) = some y := by rw [hw]; rfl
  unfold low_15_10_5b5b5b5 at hw
  have c0 : y / 2 ^ 0 % 2 ^ 5 = 3 := slot_const hw (Nat.le_of_ble_eq_true rfl) (by omega)
  have f0 : Sys2Proof.fld 5 15 y = d := slot_fld hw (Nat.le_of_ble_eq_true rfl) (by omega)
  have f1 : Sys2Proof.fld 5 10 y = a := slot_fld hw (Nat.le_of_ble_eq_true rfl) (by omega)
  have f2 : Sys2Proof.fld 5 5 y = b := slot_fld hw (Nat.le_of_ble_eq_true rfl) (by omega)
  rw [encode_of he, decode_slot hw (Nat.le_of_ble_eq_true rfl) (by omega), decodeOp_17]
  simp only [decodeOp17, slot_hdr hw (Nat.le_of_ble_eq_true rfl) (by omega), c0, f0, f1, f2, true_and, and_true, false_and, and_false, and_self, if_true, if_false, Nat.reduceEqDiff, Nat.reduceDiv]

theorem shli (h : Hdr) (d : BitVec 5) (a : BitVec 5) (n : BitVec 6) : Statement (.shli h d a n) := by
  intro _
  have := d.isLt; have := a.isLt; have := n.isLt
  obtain ⟨y, hw⟩ : ∃ y, y = slotWord h 0x18 (low_15_10_0b5b5b6 d a n 0) := ⟨_, rfl⟩
  have he : encodeNat (.shli h d a n) = some y := by rw [hw]; rfl
  unfold low_15_10_0b5b5b6 at hw
  have c0 : y / 2 ^ 6 % 2 ^ 4 = 0 := slot_const hw (Nat.le_of_ble_eq_true rfl) (by omega)
  have f0 : Sys2Proof.fld 5 15 y = d := slot_fld hw (Nat.le_of_ble_eq_true rfl) (by omega)
  have f1 : Sys2Proof.fld 5 10 y = a := slot_fld hw (Nat.le_of_ble_eq_true rfl) (by omega)
  have f2 : Sys2Proof.fld 6 0 y = n := slot_fld hw (Nat.le_of_ble_eq_true rfl) (by omega)
  rw [encode_of he, decode_slot hw (Nat.le_of_ble_eq_true rfl) (by omega), decodeOp_18]
  simp only [decodeOp18, slot_hdr hw (Nat.le_of_ble_eq_true rfl) (by omega), c0, f0, f1, f2, true_and, and_true, false_and, and_false, and_self, if_true, if_false, Nat.reduceEqDiff, Nat.reduceDiv]

theorem shri (h : Hdr) (d : BitVec 5) (a : BitVec 5) (n : BitVec 6) : Statement (.shri h d a n) := by
  intro _
  have := d.isLt; have := a.isLt; have := n.isLt
  obtain ⟨y, hw⟩ : ∃ y, y = slotWord h 0x18 (low_15_10_0b5b5b6 d a n 64) := ⟨_, rfl⟩
  have he : encodeNat (.shri h d a n) = some y := by rw [hw]; rfl
  unfold low_15_10_0b5b5b6 at hw
  have c0 : y / 2 ^ 6 % 2 ^ 4 = 1 := slot_const hw (Nat.le_of_ble_eq_true rfl) (by omega)
  have f0 : Sys2Proof.fld 5 15 y = d := slot_fld hw (Nat.le_of_ble_eq_true rfl) (by omega)
  have f1 : Sys2Proof.fld 5 10 y = a := slot_fld hw (Nat.le_of_ble_eq_true rfl) (by omega)
  have f2 : Sys2Proof.fld 6 0 y = n := slot_fld hw (Nat.le_of_ble_eq_true rfl) (by omega)
  rw [encode_of he, decode_slot hw (Nat.le_of_ble_eq_true rfl) (by omega), decodeOp_18]
  simp only [decodeOp18, slot_hdr hw (Nat.le_of_ble_eq_true rfl) (by omega), c0, f0, f1, f2, true_and, and_true, false_and, and_false, and_self, if_true, if_false, Nat.reduceEqDiff, Nat.reduceDiv]

theorem sari (h : Hdr) (d : BitVec 5) (a : BitVec 5) (n : BitVec 6) : Statement (.sari h d a n) := by
  intro _
  have := d.isLt; have := a.isLt; have := n.isLt
  obtain ⟨y, hw⟩ : ∃ y, y = slotWord h 0x18 (low_15_10_0b5b5b6 d a n 128) := ⟨_, rfl⟩
  have he : encodeNat (.sari h d a n) = some y := by rw [hw]; rfl
  unfold low_15_10_0b5b5b6 at hw
  have c0 : y / 2 ^ 6 % 2 ^ 4 = 2 := slot_const hw (Nat.le_of_ble_eq_true rfl) (by omega)
  have f0 : Sys2Proof.fld 5 15 y = d := slot_fld hw (Nat.le_of_ble_eq_true rfl) (by omega)
  have f1 : Sys2Proof.fld 5 10 y = a := slot_fld hw (Nat.le_of_ble_eq_true rfl) (by omega)
  have f2 : Sys2Proof.fld 6 0 y = n := slot_fld hw (Nat.le_of_ble_eq_true rfl) (by omega)
  rw [encode_of he, decode_slot hw (Nat.le_of_ble_eq_true rfl) (by omega), decodeOp_18]
  simp only [decodeOp18, slot_hdr hw (Nat.le_of_ble_eq_true rfl) (by omega), c0, f0, f1, f2, true_and, and_true, false_and, and_false, and_self, if_true, if_false, Nat.reduceEqDiff, Nat.reduceDiv]

theorem rori (h : Hdr) (d : BitVec 5) (a : BitVec 5) (n : BitVec 6) : Statement (.rori h d a n) := by
  intro _
  have := d.isLt; have := a.isLt; have := n.isLt
  obtain ⟨y, hw⟩ : ∃ y, y = slotWord h 0x18 (low_15_10_0b5b5b6 d a n 192) := ⟨_, rfl⟩
  have he : encodeNat (.rori h d a n) = some y := by rw [hw]; rfl
  unfold low_15_10_0b5b5b6 at hw
  have c0 : y / 2 ^ 6 % 2 ^ 4 = 3 := slot_const hw (Nat.le_of_ble_eq_true rfl) (by omega)
  have f0 : Sys2Proof.fld 5 15 y = d := slot_fld hw (Nat.le_of_ble_eq_true rfl) (by omega)
  have f1 : Sys2Proof.fld 5 10 y = a := slot_fld hw (Nat.le_of_ble_eq_true rfl) (by omega)
  have f2 : Sys2Proof.fld 6 0 y = n := slot_fld hw (Nat.le_of_ble_eq_true rfl) (by omega)
  rw [encode_of he, decode_slot hw (Nat.le_of_ble_eq_true rfl) (by omega), decodeOp_18]
  simp only [decodeOp18, slot_hdr hw (Nat.le_of_ble_eq_true rfl) (by omega), c0, f0, f1, f2, true_and, and_true, false_and, and_false, and_self, if_true, if_false, Nat.reduceEqDiff, Nat.reduceDiv]

theorem min (h : Hdr) (d : BitVec 5) (a : BitVec 5) (b : BitVec 5) : Statement (.min h d a b) := by
  intro _
  have := d.isLt; have := a.isLt; have := b.isLt
  obtain ⟨y, hw⟩ : ∃ y, y = slotWord h 0x19 (low_15_10_5b5b5b5 d a b 0) := ⟨_, rfl⟩
  have he : encodeNat (.min h d a b) = some y := by rw [hw]; rfl
  unfold low_15_10_5b5b5b5 at hw
  have c0 : y / 2 ^ 0 % 2 ^ 5 = 0 := slot_const hw (Nat.le_of_ble_eq_true rfl) (by omega)
  have f0 : Sys2Proof.fld 5 15 y = d := slot_fld hw (Nat.le_of_ble_eq_true rfl) (by omega)
  have f1 : Sys2Proof.fld 5 10 y = a := slot_fld hw (Nat.le_of_ble_eq_true rfl) (by omega)
  have f2 : Sys2Proof.fld 5 5 y = b := slot_fld hw (Nat.le_of_ble_eq_true rfl) (by omega)
  rw [encode_of he, decode_slot hw (Nat.le_of_ble_eq_true rfl) (by omega), decodeOp_19]
  simp only [decodeOp19, slot_hdr hw (Nat.le_of_ble_eq_true rfl) (by omega), c0, f0, f1, f2, true_and, and_true, false_and, and_false, and_self, if_true, if_false, Nat.reduceEqDiff, Nat.reduceDiv]

theorem max (h : Hdr) (d : BitVec 5) (a : BitVec 5) (b : BitVec 5) : Statement (.max h d a b) := by
  intro _
  have := d.isLt; have := a.isLt; have := b.isLt
  obtain ⟨y, hw⟩ : ∃ y, y = slotWord h 0x19 (low_15_10_5b5b5b5 d a b 1) := ⟨_, rfl⟩
  have he : encodeNat (.max h d a b) = some y := by rw [hw]; rfl
  unfold low_15_10_5b5b5b5 at hw
  have c0 : y / 2 ^ 0 % 2 ^ 5 = 1 := slot_const hw (Nat.le_of_ble_eq_true rfl) (by omega)
  have f0 : Sys2Proof.fld 5 15 y = d := slot_fld hw (Nat.le_of_ble_eq_true rfl) (by omega)
  have f1 : Sys2Proof.fld 5 10 y = a := slot_fld hw (Nat.le_of_ble_eq_true rfl) (by omega)
  have f2 : Sys2Proof.fld 5 5 y = b := slot_fld hw (Nat.le_of_ble_eq_true rfl) (by omega)
  rw [encode_of he, decode_slot hw (Nat.le_of_ble_eq_true rfl) (by omega), decodeOp_19]
  simp only [decodeOp19, slot_hdr hw (Nat.le_of_ble_eq_true rfl) (by omega), c0, f0, f1, f2, true_and, and_true, false_and, and_false, and_self, if_true, if_false, Nat.reduceEqDiff, Nat.reduceDiv]

theorem minu (h : Hdr) (d : BitVec 5) (a : BitVec 5) (b : BitVec 5) : Statement (.minu h d a b) := by
  intro _
  have := d.isLt; have := a.isLt; have := b.isLt
  obtain ⟨y, hw⟩ : ∃ y, y = slotWord h 0x19 (low_15_10_5b5b5b5 d a b 2) := ⟨_, rfl⟩
  have he : encodeNat (.minu h d a b) = some y := by rw [hw]; rfl
  unfold low_15_10_5b5b5b5 at hw
  have c0 : y / 2 ^ 0 % 2 ^ 5 = 2 := slot_const hw (Nat.le_of_ble_eq_true rfl) (by omega)
  have f0 : Sys2Proof.fld 5 15 y = d := slot_fld hw (Nat.le_of_ble_eq_true rfl) (by omega)
  have f1 : Sys2Proof.fld 5 10 y = a := slot_fld hw (Nat.le_of_ble_eq_true rfl) (by omega)
  have f2 : Sys2Proof.fld 5 5 y = b := slot_fld hw (Nat.le_of_ble_eq_true rfl) (by omega)
  rw [encode_of he, decode_slot hw (Nat.le_of_ble_eq_true rfl) (by omega), decodeOp_19]
  simp only [decodeOp19, slot_hdr hw (Nat.le_of_ble_eq_true rfl) (by omega), c0, f0, f1, f2, true_and, and_true, false_and, and_false, and_self, if_true, if_false, Nat.reduceEqDiff, Nat.reduceDiv]

theorem maxu (h : Hdr) (d : BitVec 5) (a : BitVec 5) (b : BitVec 5) : Statement (.maxu h d a b) := by
  intro _
  have := d.isLt; have := a.isLt; have := b.isLt
  obtain ⟨y, hw⟩ : ∃ y, y = slotWord h 0x19 (low_15_10_5b5b5b5 d a b 3) := ⟨_, rfl⟩
  have he : encodeNat (.maxu h d a b) = some y := by rw [hw]; rfl
  unfold low_15_10_5b5b5b5 at hw
  have c0 : y / 2 ^ 0 % 2 ^ 5 = 3 := slot_const hw (Nat.le_of_ble_eq_true rfl) (by omega)
  have f0 : Sys2Proof.fld 5 15 y = d := slot_fld hw (Nat.le_of_ble_eq_true rfl) (by omega)
  have f1 : Sys2Proof.fld 5 10 y = a := slot_fld hw (Nat.le_of_ble_eq_true rfl) (by omega)
  have f2 : Sys2Proof.fld 5 5 y = b := slot_fld hw (Nat.le_of_ble_eq_true rfl) (by omega)
  rw [encode_of he, decode_slot hw (Nat.le_of_ble_eq_true rfl) (by omega), decodeOp_19]
  simp only [decodeOp19, slot_hdr hw (Nat.le_of_ble_eq_true rfl) (by omega), c0, f0, f1, f2, true_and, and_true, false_and, and_false, and_self, if_true, if_false, Nat.reduceEqDiff, Nat.reduceDiv]

theorem popc (h : Hdr) (d : BitVec 5) (a : BitVec 5) : Statement (.popc h d a) := by
  intro _
  have := d.isLt; have := a.isLt
  obtain ⟨y, hw⟩ : ∃ y, y = slotWord h 0x1A (low_15_10b5b5 d a 0) := ⟨_, rfl⟩
  have he : encodeNat (.popc h d a) = some y := by rw [hw]; rfl
  unfold low_15_10b5b5 at hw
  have c0 : y / 2 ^ 0 % 2 ^ 10 = 0 := slot_const hw (Nat.le_of_ble_eq_true rfl) (by omega)
  have f0 : Sys2Proof.fld 5 15 y = d := slot_fld hw (Nat.le_of_ble_eq_true rfl) (by omega)
  have f1 : Sys2Proof.fld 5 10 y = a := slot_fld hw (Nat.le_of_ble_eq_true rfl) (by omega)
  rw [encode_of he, decode_slot hw (Nat.le_of_ble_eq_true rfl) (by omega), decodeOp_1A]
  simp only [decodeOp1A, slot_hdr hw (Nat.le_of_ble_eq_true rfl) (by omega), c0, f0, f1, true_and, and_true, false_and, and_false, and_self, if_true, if_false, Nat.reduceEqDiff, Nat.reduceDiv]

theorem clz (h : Hdr) (d : BitVec 5) (a : BitVec 5) : Statement (.clz h d a) := by
  intro _
  have := d.isLt; have := a.isLt
  obtain ⟨y, hw⟩ : ∃ y, y = slotWord h 0x1A (low_15_10b5b5 d a 1) := ⟨_, rfl⟩
  have he : encodeNat (.clz h d a) = some y := by rw [hw]; rfl
  unfold low_15_10b5b5 at hw
  have c0 : y / 2 ^ 0 % 2 ^ 10 = 1 := slot_const hw (Nat.le_of_ble_eq_true rfl) (by omega)
  have f0 : Sys2Proof.fld 5 15 y = d := slot_fld hw (Nat.le_of_ble_eq_true rfl) (by omega)
  have f1 : Sys2Proof.fld 5 10 y = a := slot_fld hw (Nat.le_of_ble_eq_true rfl) (by omega)
  rw [encode_of he, decode_slot hw (Nat.le_of_ble_eq_true rfl) (by omega), decodeOp_1A]
  simp only [decodeOp1A, slot_hdr hw (Nat.le_of_ble_eq_true rfl) (by omega), c0, f0, f1, true_and, and_true, false_and, and_false, and_self, if_true, if_false, Nat.reduceEqDiff, Nat.reduceDiv]

theorem ctz (h : Hdr) (d : BitVec 5) (a : BitVec 5) : Statement (.ctz h d a) := by
  intro _
  have := d.isLt; have := a.isLt
  obtain ⟨y, hw⟩ : ∃ y, y = slotWord h 0x1A (low_15_10b5b5 d a 2) := ⟨_, rfl⟩
  have he : encodeNat (.ctz h d a) = some y := by rw [hw]; rfl
  unfold low_15_10b5b5 at hw
  have c0 : y / 2 ^ 0 % 2 ^ 10 = 2 := slot_const hw (Nat.le_of_ble_eq_true rfl) (by omega)
  have f0 : Sys2Proof.fld 5 15 y = d := slot_fld hw (Nat.le_of_ble_eq_true rfl) (by omega)
  have f1 : Sys2Proof.fld 5 10 y = a := slot_fld hw (Nat.le_of_ble_eq_true rfl) (by omega)
  rw [encode_of he, decode_slot hw (Nat.le_of_ble_eq_true rfl) (by omega), decodeOp_1A]
  simp only [decodeOp1A, slot_hdr hw (Nat.le_of_ble_eq_true rfl) (by omega), c0, f0, f1, true_and, and_true, false_and, and_false, and_self, if_true, if_false, Nat.reduceEqDiff, Nat.reduceDiv]

theorem bitrev (h : Hdr) (d : BitVec 5) (a : BitVec 5) : Statement (.bitrev h d a) := by
  intro _
  have := d.isLt; have := a.isLt
  obtain ⟨y, hw⟩ : ∃ y, y = slotWord h 0x1A (low_15_10b5b5 d a 3) := ⟨_, rfl⟩
  have he : encodeNat (.bitrev h d a) = some y := by rw [hw]; rfl
  unfold low_15_10b5b5 at hw
  have c0 : y / 2 ^ 0 % 2 ^ 10 = 3 := slot_const hw (Nat.le_of_ble_eq_true rfl) (by omega)
  have f0 : Sys2Proof.fld 5 15 y = d := slot_fld hw (Nat.le_of_ble_eq_true rfl) (by omega)
  have f1 : Sys2Proof.fld 5 10 y = a := slot_fld hw (Nat.le_of_ble_eq_true rfl) (by omega)
  rw [encode_of he, decode_slot hw (Nat.le_of_ble_eq_true rfl) (by omega), decodeOp_1A]
  simp only [decodeOp1A, slot_hdr hw (Nat.le_of_ble_eq_true rfl) (by omega), c0, f0, f1, true_and, and_true, false_and, and_false, and_self, if_true, if_false, Nat.reduceEqDiff, Nat.reduceDiv]

theorem byterev (h : Hdr) (d : BitVec 5) (a : BitVec 5) : Statement (.byterev h d a) := by
  intro _
  have := d.isLt; have := a.isLt
  obtain ⟨y, hw⟩ : ∃ y, y = slotWord h 0x1A (low_15_10b5b5 d a 4) := ⟨_, rfl⟩
  have he : encodeNat (.byterev h d a) = some y := by rw [hw]; rfl
  unfold low_15_10b5b5 at hw
  have c0 : y / 2 ^ 0 % 2 ^ 10 = 4 := slot_const hw (Nat.le_of_ble_eq_true rfl) (by omega)
  have f0 : Sys2Proof.fld 5 15 y = d := slot_fld hw (Nat.le_of_ble_eq_true rfl) (by omega)
  have f1 : Sys2Proof.fld 5 10 y = a := slot_fld hw (Nat.le_of_ble_eq_true rfl) (by omega)
  rw [encode_of he, decode_slot hw (Nat.le_of_ble_eq_true rfl) (by omega), decodeOp_1A]
  simp only [decodeOp1A, slot_hdr hw (Nat.le_of_ble_eq_true rfl) (by omega), c0, f0, f1, true_and, and_true, false_and, and_false, and_self, if_true, if_false, Nat.reduceEqDiff, Nat.reduceDiv]

theorem fld (h : Hdr) (d : BitVec 5) (a : BitVec 5) (ins : Bool) (sg : Bool) (sz : BitVec 2) (pos : BitVec 6) : Statement (.fld h d a ins sg sz pos) := by
  intro _
  have := d.isLt; have := a.isLt; have := Bool.toNat_lt2 ins; have := Bool.toNat_lt2 sg; have := sz.isLt; have := pos.isLt
  obtain ⟨y, hw⟩ : ∃ y, y = slotWord h 0x1B (low_15_10_9_8_6_0b5b5b1b1b2b6 d a ins sg sz pos 0) := ⟨_, rfl⟩
  have he : encodeNat (.fld h d a ins sg sz pos) = some y := by rw [hw]; rfl
  unfold low_15_10_9_8_6_0b5b5b1b1b2b6 at hw
  have f0 : Sys2Proof.fld 5 15 y = d := slot_fld hw (Nat.le_of_ble_eq_true rfl) (by omega)
  have f1 : Sys2Proof.fld 5 10 y = a := slot_fld hw (Nat.le_of_ble_eq_true rfl) (by omega)
  have f2 : flag 9 y = ins := slot_flag hw (Nat.le_of_ble_eq_true rfl) (by omega)
  have f3 : flag 8 y = sg := slot_flag hw (Nat.le_of_ble_eq_true rfl) (by omega)
  have f4 : Sys2Proof.fld 2 6 y = sz := slot_fld hw (Nat.le_of_ble_eq_true rfl) (by omega)
  have f5 : Sys2Proof.fld 6 0 y = pos := slot_fld hw (Nat.le_of_ble_eq_true rfl) (by omega)
  rw [encode_of he, decode_slot hw (Nat.le_of_ble_eq_true rfl) (by omega), decodeOp_1B]
  simp only [decodeOp1B, slot_hdr hw (Nat.le_of_ble_eq_true rfl) (by omega), f0, f1, f2, f3, f4, f5, true_and, and_true, false_and, and_false, and_self, if_true, if_false, Nat.reduceEqDiff, Nat.reduceDiv]

theorem movi (h : Hdr) (d : BitVec 5) (imm : BitVec 15) : Statement (.movi h d imm) := by
  intro _
  have := d.isLt; have := imm.isLt
  obtain ⟨y, hw⟩ : ∃ y, y = slotWord h 0x1C (low_15_0b5b15 d imm 0) := ⟨_, rfl⟩
  have he : encodeNat (.movi h d imm) = some y := by rw [hw]; rfl
  unfold low_15_0b5b15 at hw
  have f0 : Sys2Proof.fld 5 15 y = d := slot_fld hw (Nat.le_of_ble_eq_true rfl) (by omega)
  have f1 : Sys2Proof.fld 15 0 y = imm := slot_fld hw (Nat.le_of_ble_eq_true rfl) (by omega)
  rw [encode_of he, decode_slot hw (Nat.le_of_ble_eq_true rfl) (by omega), decodeOp_1C]
  simp only [decodeOp1C, slot_hdr hw (Nat.le_of_ble_eq_true rfl) (by omega), f0, f1, true_and, and_true, false_and, and_false, and_self, if_true, if_false, Nat.reduceEqDiff, Nat.reduceDiv]

theorem movhi (h : Hdr) (d : BitVec 5) (imm : BitVec 15) : Statement (.movhi h d imm) := by
  intro _
  have := d.isLt; have := imm.isLt
  obtain ⟨y, hw⟩ : ∃ y, y = slotWord h 0x1D (low_15_0b5b15 d imm 0) := ⟨_, rfl⟩
  have he : encodeNat (.movhi h d imm) = some y := by rw [hw]; rfl
  unfold low_15_0b5b15 at hw
  have f0 : Sys2Proof.fld 5 15 y = d := slot_fld hw (Nat.le_of_ble_eq_true rfl) (by omega)
  have f1 : Sys2Proof.fld 15 0 y = imm := slot_fld hw (Nat.le_of_ble_eq_true rfl) (by omega)
  rw [encode_of he, decode_slot hw (Nat.le_of_ble_eq_true rfl) (by omega), decodeOp_1D]
  simp only [decodeOp1D, slot_hdr hw (Nat.le_of_ble_eq_true rfl) (by omega), f0, f1, true_and, and_true, false_and, and_false, and_self, if_true, if_false, Nat.reduceEqDiff, Nat.reduceDiv]

theorem lea (h : Hdr) (d : BitVec 5) (a : BitVec 5) (b : BitVec 5) (sh : BitVec 3) : Statement (.lea h d a b sh) := by
  intro _
  have := d.isLt; have := a.isLt; have := b.isLt; have := sh.isLt
  obtain ⟨y, hw⟩ : ∃ y, y = slotWord h 0x1E (low_15_10_5_0b5b5b5b3 d a b sh 0) := ⟨_, rfl⟩
  have he : encodeNat (.lea h d a b sh) = some y := by rw [hw]; rfl
  unfold low_15_10_5_0b5b5b5b3 at hw
  have c0 : y / 2 ^ 3 % 2 ^ 2 = 0 := slot_const hw (Nat.le_of_ble_eq_true rfl) (by omega)
  have f0 : Sys2Proof.fld 5 15 y = d := slot_fld hw (Nat.le_of_ble_eq_true rfl) (by omega)
  have f1 : Sys2Proof.fld 5 10 y = a := slot_fld hw (Nat.le_of_ble_eq_true rfl) (by omega)
  have f2 : Sys2Proof.fld 5 5 y = b := slot_fld hw (Nat.le_of_ble_eq_true rfl) (by omega)
  have f3 : Sys2Proof.fld 3 0 y = sh := slot_fld hw (Nat.le_of_ble_eq_true rfl) (by omega)
  rw [encode_of he, decode_slot hw (Nat.le_of_ble_eq_true rfl) (by omega), decodeOp_1E]
  simp only [decodeOp1E, slot_hdr hw (Nat.le_of_ble_eq_true rfl) (by omega), c0, f0, f1, f2, f3, true_and, and_true, false_and, and_false, and_self, if_true, if_false, Nat.reduceEqDiff, Nat.reduceDiv]

theorem sel (h : Hdr) (d : BitVec 5) (a : BitVec 5) (b : BitVec 5) (p : BitVec 4) : Statement (.sel h d a b p) := by
  intro _
  have := d.isLt; have := a.isLt; have := b.isLt; have := p.isLt
  obtain ⟨y, hw⟩ : ∃ y, y = slotWord h 0x1F (low_15_10_5_0b5b5b5b4 d a b p 0) := ⟨_, rfl⟩
  have he : encodeNat (.sel h d a b p) = some y := by rw [hw]; rfl
  unfold low_15_10_5_0b5b5b5b4 at hw
  have c0 : y / 2 ^ 4 % 2 ^ 1 = 0 := slot_const hw (Nat.le_of_ble_eq_true rfl) (by omega)
  have f0 : Sys2Proof.fld 5 15 y = d := slot_fld hw (Nat.le_of_ble_eq_true rfl) (by omega)
  have f1 : Sys2Proof.fld 5 10 y = a := slot_fld hw (Nat.le_of_ble_eq_true rfl) (by omega)
  have f2 : Sys2Proof.fld 5 5 y = b := slot_fld hw (Nat.le_of_ble_eq_true rfl) (by omega)
  have f3 : Sys2Proof.fld 4 0 y = p := slot_fld hw (Nat.le_of_ble_eq_true rfl) (by omega)
  rw [encode_of he, decode_slot hw (Nat.le_of_ble_eq_true rfl) (by omega), decodeOp_1F]
  simp only [decodeOp1F, slot_hdr hw (Nat.le_of_ble_eq_true rfl) (by omega), c0, f0, f1, f2, f3, true_and, and_true, false_and, and_false, and_self, if_true, if_false, Nat.reduceEqDiff, Nat.reduceDiv]

theorem cmp (h : Hdr) (fd : BitVec 4) (a : BitVec 5) (b : BitVec 5) (cc : BitVec 4) (pw : Bool) : Statement (.cmp h fd a b cc pw) := by
  intro _
  have := fd.isLt; have := a.isLt; have := b.isLt; have := cc.isLt; have := Bool.toNat_lt2 pw
  obtain ⟨y, hw⟩ : ∃ y, y = slotWord h 0x20 (low_16_11_6_2_1b4b5b5b4b1 fd a b cc pw 0) := ⟨_, rfl⟩
  have he : encodeNat (.cmp h fd a b cc pw) = some y := by rw [hw]; rfl
  unfold low_16_11_6_2_1b4b5b5b4b1 at hw
  have c0 : y / 2 ^ 0 % 2 ^ 1 = 0 := slot_const hw (Nat.le_of_ble_eq_true rfl) (by omega)
  have f0 : Sys2Proof.fld 4 16 y = fd := slot_fld hw (Nat.le_of_ble_eq_true rfl) (by omega)
  have f1 : Sys2Proof.fld 5 11 y = a := slot_fld hw (Nat.le_of_ble_eq_true rfl) (by omega)
  have f2 : Sys2Proof.fld 5 6 y = b := slot_fld hw (Nat.le_of_ble_eq_true rfl) (by omega)
  have f3 : Sys2Proof.fld 4 2 y = cc := slot_fld hw (Nat.le_of_ble_eq_true rfl) (by omega)
  have f4 : flag 1 y = pw := slot_flag hw (Nat.le_of_ble_eq_true rfl) (by omega)
  rw [encode_of he, decode_slot hw (Nat.le_of_ble_eq_true rfl) (by omega), decodeOp_20]
  simp only [decodeOp20, slot_hdr hw (Nat.le_of_ble_eq_true rfl) (by omega), c0, f0, f1, f2, f3, f4, true_and, and_true, false_and, and_false, and_self, if_true, if_false, Nat.reduceEqDiff, Nat.reduceDiv]

theorem cmpi (h : Hdr) (fd : BitVec 4) (a : BitVec 5) (cc : BitVec 4) (pw : Bool) (imm : BitVec 6) : Statement (.cmpi h fd a cc pw imm) := by
  intro _
  have := fd.isLt; have := a.isLt; have := cc.isLt; have := Bool.toNat_lt2 pw; have := imm.isLt
  obtain ⟨y, hw⟩ : ∃ y, y = slotWord h 0x21 (low_16_11_7_6_0b4b5b4b1b6 fd a cc pw imm 0) := ⟨_, rfl⟩
  have he : encodeNat (.cmpi h fd a cc pw imm) = some y := by rw [hw]; rfl
  unfold low_16_11_7_6_0b4b5b4b1b6 at hw
  have f0 : Sys2Proof.fld 4 16 y = fd := slot_fld hw (Nat.le_of_ble_eq_true rfl) (by omega)
  have f1 : Sys2Proof.fld 5 11 y = a := slot_fld hw (Nat.le_of_ble_eq_true rfl) (by omega)
  have f2 : Sys2Proof.fld 4 7 y = cc := slot_fld hw (Nat.le_of_ble_eq_true rfl) (by omega)
  have f3 : flag 6 y = pw := slot_flag hw (Nat.le_of_ble_eq_true rfl) (by omega)
  have f4 : Sys2Proof.fld 6 0 y = imm := slot_fld hw (Nat.le_of_ble_eq_true rfl) (by omega)
  rw [encode_of he, decode_slot hw (Nat.le_of_ble_eq_true rfl) (by omega), decodeOp_21]
  simp only [decodeOp21, slot_hdr hw (Nat.le_of_ble_eq_true rfl) (by omega), f0, f1, f2, f3, f4, true_and, and_true, false_and, and_false, and_self, if_true, if_false, Nat.reduceEqDiff, Nat.reduceDiv]

theorem plog (h : Hdr) (fd : BitVec 4) (a : BitVec 4) (b : BitVec 4) (tt : BitVec 4) (pw : Bool) (mkx : Bool) : Statement (.plog h fd a b tt pw mkx) := by
  intro _
  have := fd.isLt; have := a.isLt; have := b.isLt; have := tt.isLt; have := Bool.toNat_lt2 pw; have := Bool.toNat_lt2 mkx
  obtain ⟨y, hw⟩ : ∃ y, y = slotWord h 0x22 (low_16_11_6_2_1_0b4b4b4b4b1b1 fd a b tt pw mkx 0) := ⟨_, rfl⟩
  have he : encodeNat (.plog h fd a b tt pw mkx) = some y := by rw [hw]; rfl
  unfold low_16_11_6_2_1_0b4b4b4b4b1b1 at hw
  have c0 : y / 2 ^ 10 % 2 ^ 1 = 0 := slot_const hw (Nat.le_of_ble_eq_true rfl) (by omega)
  have c1 : y / 2 ^ 15 % 2 ^ 1 = 0 := slot_const hw (Nat.le_of_ble_eq_true rfl) (by omega)
  have f0 : Sys2Proof.fld 4 16 y = fd := slot_fld hw (Nat.le_of_ble_eq_true rfl) (by omega)
  have f1 : Sys2Proof.fld 4 11 y = a := slot_fld hw (Nat.le_of_ble_eq_true rfl) (by omega)
  have f2 : Sys2Proof.fld 4 6 y = b := slot_fld hw (Nat.le_of_ble_eq_true rfl) (by omega)
  have f3 : Sys2Proof.fld 4 2 y = tt := slot_fld hw (Nat.le_of_ble_eq_true rfl) (by omega)
  have f4 : flag 1 y = pw := slot_flag hw (Nat.le_of_ble_eq_true rfl) (by omega)
  have f5 : flag 0 y = mkx := slot_flag hw (Nat.le_of_ble_eq_true rfl) (by omega)
  rw [encode_of he, decode_slot hw (Nat.le_of_ble_eq_true rfl) (by omega), decodeOp_22]
  simp only [decodeOp22, slot_hdr hw (Nat.le_of_ble_eq_true rfl) (by omega), c0, c1, f0, f1, f2, f3, f4, f5, true_and, and_true, false_and, and_false, and_self, if_true, if_false, Nat.reduceEqDiff, Nat.reduceDiv]

theorem pmov (h : Hdr) (fd : BitVec 4) (a : BitVec 5) (cc : BitVec 4) (pw : Bool) : Statement (.pmov h fd a cc pw) := by
  intro _
  have := fd.isLt; have := a.isLt; have := cc.isLt; have := Bool.toNat_lt2 pw
  obtain ⟨y, hw⟩ : ∃ y, y = slotWord h 0x23 (low_16_11_2_1b4b5b4b1 fd a cc pw 0) := ⟨_, rfl⟩
  have he : encodeNat (.pmov h fd a cc pw) = some y := by rw [hw]; rfl
  unfold low_16_11_2_1b4b5b4b1 at hw
  have c0 : y / 2 ^ 0 % 2 ^ 1 = 0 := slot_const hw (Nat.le_of_ble_eq_true rfl) (by omega)
  have c1 : y / 2 ^ 6 % 2 ^ 5 = 0 := slot_const hw (Nat.le_of_ble_eq_true rfl) (by omega)
  have f0 : Sys2Proof.fld 4 16 y = fd := slot_fld hw (Nat.le_of_ble_eq_true rfl) (by omega)
  have f1 : Sys2Proof.fld 5 11 y = a := slot_fld hw (Nat.le_of_ble_eq_true rfl) (by omega)
  have f2 : Sys2Proof.fld 4 2 y = cc := slot_fld hw (Nat.le_of_ble_eq_true rfl) (by omega)
  have f3 : flag 1 y = pw := slot_flag hw (Nat.le_of_ble_eq_true rfl) (by omega)
  rw [encode_of he, decode_slot hw (Nat.le_of_ble_eq_true rfl) (by omega), decodeOp_23]
  simp only [decodeOp23, slot_hdr hw (Nat.le_of_ble_eq_true rfl) (by omega), c0, c1, f0, f1, f2, f3, true_and, and_true, false_and, and_false, and_self, if_true, if_false, Nat.reduceEqDiff, Nat.reduceDiv]

theorem fadd (h : Hdr) (d : BitVec 5) (a : BitVec 5) (b : BitVec 5) (rz : Bool) (dbl : Bool) : Statement (.fadd h d a b rz dbl) := by
  intro _
  have := d.isLt; have := a.isLt; have := b.isLt; have := Bool.toNat_lt2 rz; have := Bool.toNat_lt2 dbl
  obtain ⟨y, hw⟩ : ∃ y, y = slotWord h 0x24 (low_15_10_5_4_3b5b5b5b1b1 d a b rz dbl 0) := ⟨_, rfl⟩
  have he : encodeNat (.fadd h d a b rz dbl) = some y := by rw [hw]; rfl
  unfold low_15_10_5_4_3b5b5b5b1b1 at hw
  have c0 : y / 2 ^ 0 % 2 ^ 3 = 0 := slot_const hw (Nat.le_of_ble_eq_true rfl) (by omega)
  have f0 : Sys2Proof.fld 5 15 y = d := slot_fld hw (Nat.le_of_ble_eq_true rfl) (by omega)
  have f1 : Sys2Proof.fld 5 10 y = a := slot_fld hw (Nat.le_of_ble_eq_true rfl) (by omega)
  have f2 : Sys2Proof.fld 5 5 y = b := slot_fld hw (Nat.le_of_ble_eq_true rfl) (by omega)
  have f3 : flag 4 y = rz := slot_flag hw (Nat.le_of_ble_eq_true rfl) (by omega)
  have f4 : flag 3 y = dbl := slot_flag hw (Nat.le_of_ble_eq_true rfl) (by omega)
  rw [encode_of he, decode_slot hw (Nat.le_of_ble_eq_true rfl) (by omega), decodeOp_24]
  simp only [decodeOp24, slot_hdr hw (Nat.le_of_ble_eq_true rfl) (by omega), c0, f0, f1, f2, f3, f4, true_and, and_true, false_and, and_false, and_self, if_true, if_false, Nat.reduceEqDiff, Nat.reduceDiv]

theorem fsub (h : Hdr) (d : BitVec 5) (a : BitVec 5) (b : BitVec 5) (rz : Bool) (dbl : Bool) : Statement (.fsub h d a b rz dbl) := by
  intro _
  have := d.isLt; have := a.isLt; have := b.isLt; have := Bool.toNat_lt2 rz; have := Bool.toNat_lt2 dbl
  obtain ⟨y, hw⟩ : ∃ y, y = slotWord h 0x24 (low_15_10_5_4_3b5b5b5b1b1 d a b rz dbl 1) := ⟨_, rfl⟩
  have he : encodeNat (.fsub h d a b rz dbl) = some y := by rw [hw]; rfl
  unfold low_15_10_5_4_3b5b5b5b1b1 at hw
  have c0 : y / 2 ^ 0 % 2 ^ 3 = 1 := slot_const hw (Nat.le_of_ble_eq_true rfl) (by omega)
  have f0 : Sys2Proof.fld 5 15 y = d := slot_fld hw (Nat.le_of_ble_eq_true rfl) (by omega)
  have f1 : Sys2Proof.fld 5 10 y = a := slot_fld hw (Nat.le_of_ble_eq_true rfl) (by omega)
  have f2 : Sys2Proof.fld 5 5 y = b := slot_fld hw (Nat.le_of_ble_eq_true rfl) (by omega)
  have f3 : flag 4 y = rz := slot_flag hw (Nat.le_of_ble_eq_true rfl) (by omega)
  have f4 : flag 3 y = dbl := slot_flag hw (Nat.le_of_ble_eq_true rfl) (by omega)
  rw [encode_of he, decode_slot hw (Nat.le_of_ble_eq_true rfl) (by omega), decodeOp_24]
  simp only [decodeOp24, slot_hdr hw (Nat.le_of_ble_eq_true rfl) (by omega), c0, f0, f1, f2, f3, f4, true_and, and_true, false_and, and_false, and_self, if_true, if_false, Nat.reduceEqDiff, Nat.reduceDiv]

theorem fmul (h : Hdr) (d : BitVec 5) (a : BitVec 5) (b : BitVec 5) (rz : Bool) (dbl : Bool) : Statement (.fmul h d a b rz dbl) := by
  intro _
  have := d.isLt; have := a.isLt; have := b.isLt; have := Bool.toNat_lt2 rz; have := Bool.toNat_lt2 dbl
  obtain ⟨y, hw⟩ : ∃ y, y = slotWord h 0x24 (low_15_10_5_4_3b5b5b5b1b1 d a b rz dbl 2) := ⟨_, rfl⟩
  have he : encodeNat (.fmul h d a b rz dbl) = some y := by rw [hw]; rfl
  unfold low_15_10_5_4_3b5b5b5b1b1 at hw
  have c0 : y / 2 ^ 0 % 2 ^ 3 = 2 := slot_const hw (Nat.le_of_ble_eq_true rfl) (by omega)
  have f0 : Sys2Proof.fld 5 15 y = d := slot_fld hw (Nat.le_of_ble_eq_true rfl) (by omega)
  have f1 : Sys2Proof.fld 5 10 y = a := slot_fld hw (Nat.le_of_ble_eq_true rfl) (by omega)
  have f2 : Sys2Proof.fld 5 5 y = b := slot_fld hw (Nat.le_of_ble_eq_true rfl) (by omega)
  have f3 : flag 4 y = rz := slot_flag hw (Nat.le_of_ble_eq_true rfl) (by omega)
  have f4 : flag 3 y = dbl := slot_flag hw (Nat.le_of_ble_eq_true rfl) (by omega)
  rw [encode_of he, decode_slot hw (Nat.le_of_ble_eq_true rfl) (by omega), decodeOp_24]
  simp only [decodeOp24, slot_hdr hw (Nat.le_of_ble_eq_true rfl) (by omega), c0, f0, f1, f2, f3, f4, true_and, and_true, false_and, and_false, and_self, if_true, if_false, Nat.reduceEqDiff, Nat.reduceDiv]

theorem ffma (h : Hdr) (d : BitVec 5) (a : BitVec 5) (b : BitVec 5) (rz : Bool) (dbl : Bool) : Statement (.ffma h d a b rz dbl) := by
  intro _
  have := d.isLt; have := a.isLt; have := b.isLt; have := Bool.toNat_lt2 rz; have := Bool.toNat_lt2 dbl
  obtain ⟨y, hw⟩ : ∃ y, y = slotWord h 0x24 (low_15_10_5_4_3b5b5b5b1b1 d a b rz dbl 3) := ⟨_, rfl⟩
  have he : encodeNat (.ffma h d a b rz dbl) = some y := by rw [hw]; rfl
  unfold low_15_10_5_4_3b5b5b5b1b1 at hw
  have c0 : y / 2 ^ 0 % 2 ^ 3 = 3 := slot_const hw (Nat.le_of_ble_eq_true rfl) (by omega)
  have f0 : Sys2Proof.fld 5 15 y = d := slot_fld hw (Nat.le_of_ble_eq_true rfl) (by omega)
  have f1 : Sys2Proof.fld 5 10 y = a := slot_fld hw (Nat.le_of_ble_eq_true rfl) (by omega)
  have f2 : Sys2Proof.fld 5 5 y = b := slot_fld hw (Nat.le_of_ble_eq_true rfl) (by omega)
  have f3 : flag 4 y = rz := slot_flag hw (Nat.le_of_ble_eq_true rfl) (by omega)
  have f4 : flag 3 y = dbl := slot_flag hw (Nat.le_of_ble_eq_true rfl) (by omega)
  rw [encode_of he, decode_slot hw (Nat.le_of_ble_eq_true rfl) (by omega), decodeOp_24]
  simp only [decodeOp24, slot_hdr hw (Nat.le_of_ble_eq_true rfl) (by omega), c0, f0, f1, f2, f3, f4, true_and, and_true, false_and, and_false, and_self, if_true, if_false, Nat.reduceEqDiff, Nat.reduceDiv]

theorem fmin (h : Hdr) (d : BitVec 5) (a : BitVec 5) (b : BitVec 5) (rz : Bool) (dbl : Bool) : Statement (.fmin h d a b rz dbl) := by
  intro _
  have := d.isLt; have := a.isLt; have := b.isLt; have := Bool.toNat_lt2 rz; have := Bool.toNat_lt2 dbl
  obtain ⟨y, hw⟩ : ∃ y, y = slotWord h 0x24 (low_15_10_5_4_3b5b5b5b1b1 d a b rz dbl 4) := ⟨_, rfl⟩
  have he : encodeNat (.fmin h d a b rz dbl) = some y := by rw [hw]; rfl
  unfold low_15_10_5_4_3b5b5b5b1b1 at hw
  have c0 : y / 2 ^ 0 % 2 ^ 3 = 4 := slot_const hw (Nat.le_of_ble_eq_true rfl) (by omega)
  have f0 : Sys2Proof.fld 5 15 y = d := slot_fld hw (Nat.le_of_ble_eq_true rfl) (by omega)
  have f1 : Sys2Proof.fld 5 10 y = a := slot_fld hw (Nat.le_of_ble_eq_true rfl) (by omega)
  have f2 : Sys2Proof.fld 5 5 y = b := slot_fld hw (Nat.le_of_ble_eq_true rfl) (by omega)
  have f3 : flag 4 y = rz := slot_flag hw (Nat.le_of_ble_eq_true rfl) (by omega)
  have f4 : flag 3 y = dbl := slot_flag hw (Nat.le_of_ble_eq_true rfl) (by omega)
  rw [encode_of he, decode_slot hw (Nat.le_of_ble_eq_true rfl) (by omega), decodeOp_24]
  simp only [decodeOp24, slot_hdr hw (Nat.le_of_ble_eq_true rfl) (by omega), c0, f0, f1, f2, f3, f4, true_and, and_true, false_and, and_false, and_self, if_true, if_false, Nat.reduceEqDiff, Nat.reduceDiv]

theorem fmax (h : Hdr) (d : BitVec 5) (a : BitVec 5) (b : BitVec 5) (rz : Bool) (dbl : Bool) : Statement (.fmax h d a b rz dbl) := by
  intro _
  have := d.isLt; have := a.isLt; have := b.isLt; have := Bool.toNat_lt2 rz; have := Bool.toNat_lt2 dbl
  obtain ⟨y, hw⟩ : ∃ y, y = slotWord h 0x24 (low_15_10_5_4_3b5b5b5b1b1 d a b rz dbl 5) := ⟨_, rfl⟩
  have he : encodeNat (.fmax h d a b rz dbl) = some y := by rw [hw]; rfl
  unfold low_15_10_5_4_3b5b5b5b1b1 at hw
  have c0 : y / 2 ^ 0 % 2 ^ 3 = 5 := slot_const hw (Nat.le_of_ble_eq_true rfl) (by omega)
  have f0 : Sys2Proof.fld 5 15 y = d := slot_fld hw (Nat.le_of_ble_eq_true rfl) (by omega)
  have f1 : Sys2Proof.fld 5 10 y = a := slot_fld hw (Nat.le_of_ble_eq_true rfl) (by omega)
  have f2 : Sys2Proof.fld 5 5 y = b := slot_fld hw (Nat.le_of_ble_eq_true rfl) (by omega)
  have f3 : flag 4 y = rz := slot_flag hw (Nat.le_of_ble_eq_true rfl) (by omega)
  have f4 : flag 3 y = dbl := slot_flag hw (Nat.le_of_ble_eq_true rfl) (by omega)
  rw [encode_of he, decode_slot hw (Nat.le_of_ble_eq_true rfl) (by omega), decodeOp_24]
  simp only [decodeOp24, slot_hdr hw (Nat.le_of_ble_eq_true rfl) (by omega), c0, f0, f1, f2, f3, f4, true_and, and_true, false_and, and_false, and_self, if_true, if_false, Nat.reduceEqDiff, Nat.reduceDiv]

theorem fcmp (h : Hdr) (fd : BitVec 4) (a : BitVec 5) (b : BitVec 5) (dbl : Bool) (cc : BitVec 3) (pw : Bool) : Statement (.fcmp h fd a b dbl cc pw) := by
  intro _
  have := fd.isLt; have := a.isLt; have := b.isLt; have := Bool.toNat_lt2 dbl; have := cc.isLt; have := Bool.toNat_lt2 pw
  obtain ⟨y, hw⟩ : ∃ y, y = slotWord h 0x25 (low_16_11_6_5_2_1b4b5b5b1b3b1 fd a b dbl cc pw 0) := ⟨_, rfl⟩
  have he : encodeNat (.fcmp h fd a b dbl cc pw) = some y := by rw [hw]; rfl
  unfold low_16_11_6_5_2_1b4b5b5b1b3b1 at hw
  have c0 : y / 2 ^ 0 % 2 ^ 1 = 0 := slot_const hw (Nat.le_of_ble_eq_true rfl) (by omega)
  have n0 : ¬y / 2 ^ 0 % 2 ^ 2 = 1 := slot_differs hw (Nat.le_of_ble_eq_true rfl) (by omega)
  have n1 : ¬y / 2 ^ 0 % 2 ^ 11 = 17 := slot_differs hw (Nat.le_of_ble_eq_true rfl) (by omega)
  have n2 : ¬y / 2 ^ 0 % 2 ^ 11 = 21 := slot_differs hw (Nat.le_of_ble_eq_true rfl) (by omega)
  have f0 : Sys2Proof.fld 4 16 y = fd := slot_fld hw (Nat.le_of_ble_eq_true rfl) (by omega)
  have f1 : Sys2Proof.fld 5 11 y = a := slot_fld hw (Nat.le_of_ble_eq_true rfl) (by omega)
  have f2 : Sys2Proof.fld 5 6 y = b := slot_fld hw (Nat.le_of_ble_eq_true rfl) (by omega)
  have f3 : flag 5 y = dbl := slot_flag hw (Nat.le_of_ble_eq_true rfl) (by omega)
  have f4 : Sys2Proof.fld 3 2 y = cc := slot_fld hw (Nat.le_of_ble_eq_true rfl) (by omega)
  have f5 : flag 1 y = pw := slot_flag hw (Nat.le_of_ble_eq_true rfl) (by omega)
  rw [encode_of he, decode_slot hw (Nat.le_of_ble_eq_true rfl) (by omega), decodeOp_25]
  simp only [decodeOp25, slot_hdr hw (Nat.le_of_ble_eq_true rfl) (by omega), c0, n0, n1, n2, f0, f1, f2, f3, f4, f5, true_and, and_true, false_and, and_false, and_self, if_true, if_false, Nat.reduceEqDiff, Nat.reduceDiv]

theorem ficvt (h : Hdr) (d : BitVec 4) (a : BitVec 5) (dbl : Bool) : Statement (.ficvt h d a dbl) := by
  intro _
  have := d.isLt; have := a.isLt; have := Bool.toNat_lt2 dbl
  obtain ⟨y, hw⟩ : ∃ y, y = slotWord h 0x25 (low_16_11_2b4b5b1 d a dbl 1) := ⟨_, rfl⟩
  have he : encodeNat (.ficvt h d a dbl) = some y := by rw [hw]; rfl
  unfold low_16_11_2b4b5b1 at hw
  have c0 : y / 2 ^ 0 % 2 ^ 1 = 1 := slot_const hw (Nat.le_of_ble_eq_true rfl) (by omega)
  have c1 : y / 2 ^ 0 % 2 ^ 2 = 1 := slot_const hw (Nat.le_of_ble_eq_true rfl) (by omega)
  have c2 : y / 2 ^ 3 % 2 ^ 8 = 0 := slot_const hw (Nat.le_of_ble_eq_true rfl) (by omega)
  have n0 : ¬y / 2 ^ 0 % 2 ^ 11 = 17 := slot_differs hw (Nat.le_of_ble_eq_true rfl) (by omega)
  have n1 : ¬y / 2 ^ 0 % 2 ^ 11 = 21 := slot_differs hw (Nat.le_of_ble_eq_true rfl) (by omega)
  have f0 : Sys2Proof.fld 4 16 y = d := slot_fld hw (Nat.le_of_ble_eq_true rfl) (by omega)
  have f1 : Sys2Proof.fld 5 11 y = a := slot_fld hw (Nat.le_of_ble_eq_true rfl) (by omega)
  have f2 : flag 2 y = dbl := slot_flag hw (Nat.le_of_ble_eq_true rfl) (by omega)
  rw [encode_of he, decode_slot hw (Nat.le_of_ble_eq_true rfl) (by omega), decodeOp_25]
  simp only [decodeOp25, slot_hdr hw (Nat.le_of_ble_eq_true rfl) (by omega), c0, c1, c2, n0, n1, f0, f1, f2, true_and, and_true, false_and, and_false, and_self, if_true, if_false, Nat.reduceEqDiff, Nat.reduceDiv]

theorem fcvti (h : Hdr) (d : BitVec 4) (a : BitVec 5) (dbl : Bool) : Statement (.fcvti h d a dbl) := by
  intro _
  have := d.isLt; have := a.isLt; have := Bool.toNat_lt2 dbl
  obtain ⟨y, hw⟩ : ∃ y, y = slotWord h 0x25 (low_16_11_2b4b5b1 d a dbl 9) := ⟨_, rfl⟩
  have he : encodeNat (.fcvti h d a dbl) = some y := by rw [hw]; rfl
  unfold low_16_11_2b4b5b1 at hw
  have c0 : y / 2 ^ 0 % 2 ^ 1 = 1 := slot_const hw (Nat.le_of_ble_eq_true rfl) (by omega)
  have c1 : y / 2 ^ 0 % 2 ^ 2 = 1 := slot_const hw (Nat.le_of_ble_eq_true rfl) (by omega)
  have c2 : y / 2 ^ 3 % 2 ^ 8 = 1 := slot_const hw (Nat.le_of_ble_eq_true rfl) (by omega)
  have n0 : ¬y / 2 ^ 0 % 2 ^ 11 = 17 := slot_differs hw (Nat.le_of_ble_eq_true rfl) (by omega)
  have n1 : ¬y / 2 ^ 0 % 2 ^ 11 = 21 := slot_differs hw (Nat.le_of_ble_eq_true rfl) (by omega)
  have f0 : Sys2Proof.fld 4 16 y = d := slot_fld hw (Nat.le_of_ble_eq_true rfl) (by omega)
  have f1 : Sys2Proof.fld 5 11 y = a := slot_fld hw (Nat.le_of_ble_eq_true rfl) (by omega)
  have f2 : flag 2 y = dbl := slot_flag hw (Nat.le_of_ble_eq_true rfl) (by omega)
  rw [encode_of he, decode_slot hw (Nat.le_of_ble_eq_true rfl) (by omega), decodeOp_25]
  simp only [decodeOp25, slot_hdr hw (Nat.le_of_ble_eq_true rfl) (by omega), c0, c1, c2, n0, n1, f0, f1, f2, true_and, and_true, false_and, and_false, and_self, if_true, if_false, Nat.reduceEqDiff, Nat.reduceDiv]

theorem fwiden (h : Hdr) (d : BitVec 4) (a : BitVec 5) : Statement (.fwiden h d a) := by
  intro _
  have := d.isLt; have := a.isLt
  obtain ⟨y, hw⟩ : ∃ y, y = slotWord h 0x25 (low_16_11b4b5 d a 17) := ⟨_, rfl⟩
  have he : encodeNat (.fwiden h d a) = some y := by rw [hw]; rfl
  unfold low_16_11b4b5 at hw
  have c0 : y / 2 ^ 0 % 2 ^ 1 = 1 := slot_const hw (Nat.le_of_ble_eq_true rfl) (by omega)
  have c1 : y / 2 ^ 0 % 2 ^ 2 = 1 := slot_const hw (Nat.le_of_ble_eq_true rfl) (by omega)
  have c2 : y / 2 ^ 0 % 2 ^ 11 = 17 := slot_const hw (Nat.le_of_ble_eq_true rfl) (by omega)
  have c3 : y / 2 ^ 3 % 2 ^ 8 = 2 := slot_const hw (Nat.le_of_ble_eq_true rfl) (by omega)
  have f0 : Sys2Proof.fld 4 16 y = d := slot_fld hw (Nat.le_of_ble_eq_true rfl) (by omega)
  have f1 : Sys2Proof.fld 5 11 y = a := slot_fld hw (Nat.le_of_ble_eq_true rfl) (by omega)
  rw [encode_of he, decode_slot hw (Nat.le_of_ble_eq_true rfl) (by omega), decodeOp_25]
  simp only [decodeOp25, slot_hdr hw (Nat.le_of_ble_eq_true rfl) (by omega), c0, c1, c2, c3, f0, f1, true_and, and_true, false_and, and_false, and_self, if_true, if_false, Nat.reduceEqDiff, Nat.reduceDiv]

theorem fnarrow (h : Hdr) (d : BitVec 4) (a : BitVec 5) : Statement (.fnarrow h d a) := by
  intro _
  have := d.isLt; have := a.isLt
  obtain ⟨y, hw⟩ : ∃ y, y = slotWord h 0x25 (low_16_11b4b5 d a 21) := ⟨_, rfl⟩
  have he : encodeNat (.fnarrow h d a) = some y := by rw [hw]; rfl
  unfold low_16_11b4b5 at hw
  have c0 : y / 2 ^ 0 % 2 ^ 1 = 1 := slot_const hw (Nat.le_of_ble_eq_true rfl) (by omega)
  have c1 : y / 2 ^ 0 % 2 ^ 2 = 1 := slot_const hw (Nat.le_of_ble_eq_true rfl) (by omega)
  have c2 : y / 2 ^ 0 % 2 ^ 11 = 21 := slot_const hw (Nat.le_of_ble_eq_true rfl) (by omega)
  have c3 : y / 2 ^ 3 % 2 ^ 8 = 2 := slot_const hw (Nat.le_of_ble_eq_true rfl) (by omega)
  have f0 : Sys2Proof.fld 4 16 y = d := slot_fld hw (Nat.le_of_ble_eq_true rfl) (by omega)
  have f1 : Sys2Proof.fld 5 11 y = a := slot_fld hw (Nat.le_of_ble_eq_true rfl) (by omega)
  rw [encode_of he, decode_slot hw (Nat.le_of_ble_eq_true rfl) (by omega), decodeOp_25]
  simp only [decodeOp25, slot_hdr hw (Nat.le_of_ble_eq_true rfl) (by omega), c0, c1, c2, c3, f0, f1, true_and, and_true, false_and, and_false, and_self, if_true, if_false, Nat.reduceEqDiff, Nat.reduceDiv]

theorem rdsr (h : Hdr) (d : BitVec 5) (num : BitVec 10) : Statement (.rdsr h d num) := by
  intro _
  have := d.isLt; have := num.isLt
  obtain ⟨y, hw⟩ : ∃ y, y = slotWord h 0x26 (low_15_0b5b10 d num 0) := ⟨_, rfl⟩
  have he : encodeNat (.rdsr h d num) = some y := by rw [hw]; rfl
  unfold low_15_0b5b10 at hw
  have c0 : y / 2 ^ 10 % 2 ^ 5 = 0 := slot_const hw (Nat.le_of_ble_eq_true rfl) (by omega)
  have f0 : Sys2Proof.fld 5 15 y = d := slot_fld hw (Nat.le_of_ble_eq_true rfl) (by omega)
  have f1 : Sys2Proof.fld 10 0 y = num := slot_fld hw (Nat.le_of_ble_eq_true rfl) (by omega)
  rw [encode_of he, decode_slot hw (Nat.le_of_ble_eq_true rfl) (by omega), decodeOp_26]
  simp only [decodeOp26, slot_hdr hw (Nat.le_of_ble_eq_true rfl) (by omega), c0, f0, f1, true_and, and_true, false_and, and_false, and_self, if_true, if_false, Nat.reduceEqDiff, Nat.reduceDiv]

theorem wrsr (h : Hdr) (a : BitVec 5) (num : BitVec 10) : Statement (.wrsr h a num) := by
  intro _
  have := a.isLt; have := num.isLt
  obtain ⟨y, hw⟩ : ∃ y, y = slotWord h 0x27 (low_10_0b5b10 a num 0) := ⟨_, rfl⟩
  have he : encodeNat (.wrsr h a num) = some y := by rw [hw]; rfl
  unfold low_10_0b5b10 at hw
  have c0 : y / 2 ^ 15 % 2 ^ 5 = 0 := slot_const hw (Nat.le_of_ble_eq_true rfl) (by omega)
  have f0 : Sys2Proof.fld 5 10 y = a := slot_fld hw (Nat.le_of_ble_eq_true rfl) (by omega)
  have f1 : Sys2Proof.fld 10 0 y = num := slot_fld hw (Nat.le_of_ble_eq_true rfl) (by omega)
  rw [encode_of he, decode_slot hw (Nat.le_of_ble_eq_true rfl) (by omega), decodeOp_27]
  simp only [decodeOp27, slot_hdr hw (Nat.le_of_ble_eq_true rfl) (by omega), c0, f0, f1, true_and, and_true, false_and, and_false, and_self, if_true, if_false, Nat.reduceEqDiff, Nat.reduceDiv]

theorem lds (h : Hdr) (d : BitVec 5) (a : BitVec 5) (lc : BitVec 3) (sp : BitVec 2) (off : BitVec 5) : Statement (.lds h d a lc sp off) := by
  intro _
  have := d.isLt; have := a.isLt; have := lc.isLt; have := sp.isLt; have := off.isLt
  obtain ⟨y, hw⟩ : ∃ y, y = slotWord h 0x28 (low_15_10_7_5_0b5b5b3b2b5 d a lc sp off 0) := ⟨_, rfl⟩
  have he : encodeNat (.lds h d a lc sp off) = some y := by rw [hw]; rfl
  unfold low_15_10_7_5_0b5b5b3b2b5 at hw
  have f0 : Sys2Proof.fld 5 15 y = d := slot_fld hw (Nat.le_of_ble_eq_true rfl) (by omega)
  have f1 : Sys2Proof.fld 5 10 y = a := slot_fld hw (Nat.le_of_ble_eq_true rfl) (by omega)
  have f2 : Sys2Proof.fld 3 7 y = lc := slot_fld hw (Nat.le_of_ble_eq_true rfl) (by omega)
  have f3 : Sys2Proof.fld 2 5 y = sp := slot_fld hw (Nat.le_of_ble_eq_true rfl) (by omega)
  have f4 : Sys2Proof.fld 5 0 y = off := slot_fld hw (Nat.le_of_ble_eq_true rfl) (by omega)
  rw [encode_of he, decode_slot hw (Nat.le_of_ble_eq_true rfl) (by omega), decodeOp_28]
  simp only [decodeOp28, slot_hdr hw (Nat.le_of_ble_eq_true rfl) (by omega), f0, f1, f2, f3, f4, true_and, and_true, false_and, and_false, and_self, if_true, if_false, Nat.reduceEqDiff, Nat.reduceDiv]

theorem ldsp (h : Hdr) (d : BitVec 5) (a : BitVec 5) (lc : BitVec 3) (sp : BitVec 2) (off : BitVec 5) : Statement (.ldsp h d a lc sp off) := by
  intro _
  have := d.isLt; have := a.isLt; have := lc.isLt; have := sp.isLt; have := off.isLt
  obtain ⟨y, hw⟩ : ∃ y, y = slotWord h 0x29 (low_15_10_7_5_0b5b5b3b2b5 d a lc sp off 0) := ⟨_, rfl⟩
  have he : encodeNat (.ldsp h d a lc sp off) = some y := by rw [hw]; rfl
  unfold low_15_10_7_5_0b5b5b3b2b5 at hw
  have f0 : Sys2Proof.fld 5 15 y = d := slot_fld hw (Nat.le_of_ble_eq_true rfl) (by omega)
  have f1 : Sys2Proof.fld 5 10 y = a := slot_fld hw (Nat.le_of_ble_eq_true rfl) (by omega)
  have f2 : Sys2Proof.fld 3 7 y = lc := slot_fld hw (Nat.le_of_ble_eq_true rfl) (by omega)
  have f3 : Sys2Proof.fld 2 5 y = sp := slot_fld hw (Nat.le_of_ble_eq_true rfl) (by omega)
  have f4 : Sys2Proof.fld 5 0 y = off := slot_fld hw (Nat.le_of_ble_eq_true rfl) (by omega)
  rw [encode_of he, decode_slot hw (Nat.le_of_ble_eq_true rfl) (by omega), decodeOp_29]
  simp only [decodeOp29, slot_hdr hw (Nat.le_of_ble_eq_true rfl) (by omega), f0, f1, f2, f3, f4, true_and, and_true, false_and, and_false, and_self, if_true, if_false, Nat.reduceEqDiff, Nat.reduceDiv]

theorem ldsv (h : Hdr) (d : BitVec 5) (a : BitVec 5) (lc : BitVec 3) (sp : BitVec 2) (off : BitVec 5) : Statement (.ldsv h d a lc sp off) := by
  intro _
  have := d.isLt; have := a.isLt; have := lc.isLt; have := sp.isLt; have := off.isLt
  obtain ⟨y, hw⟩ : ∃ y, y = slotWord h 0x2A (low_15_10_7_5_0b5b5b3b2b5 d a lc sp off 0) := ⟨_, rfl⟩
  have he : encodeNat (.ldsv h d a lc sp off) = some y := by rw [hw]; rfl
  unfold low_15_10_7_5_0b5b5b3b2b5 at hw
  have f0 : Sys2Proof.fld 5 15 y = d := slot_fld hw (Nat.le_of_ble_eq_true rfl) (by omega)
  have f1 : Sys2Proof.fld 5 10 y = a := slot_fld hw (Nat.le_of_ble_eq_true rfl) (by omega)
  have f2 : Sys2Proof.fld 3 7 y = lc := slot_fld hw (Nat.le_of_ble_eq_true rfl) (by omega)
  have f3 : Sys2Proof.fld 2 5 y = sp := slot_fld hw (Nat.le_of_ble_eq_true rfl) (by omega)
  have f4 : Sys2Proof.fld 5 0 y = off := slot_fld hw (Nat.le_of_ble_eq_true rfl) (by omega)
  rw [encode_of he, decode_slot hw (Nat.le_of_ble_eq_true rfl) (by omega), decodeOp_2A]
  simp only [decodeOp2A, slot_hdr hw (Nat.le_of_ble_eq_true rfl) (by omega), f0, f1, f2, f3, f4, true_and, and_true, false_and, and_false, and_self, if_true, if_false, Nat.reduceEqDiff, Nat.reduceDiv]

theorem sts (h : Hdr) (d : BitVec 5) (a : BitVec 5) (sp : BitVec 2) (off : BitVec 5) : Statement (.sts h d a sp off) := by
  intro _
  have := d.isLt; have := a.isLt; have := sp.isLt; have := off.isLt
  obtain ⟨y, hw⟩ : ∃ y, y = slotWord h 0x2B (low_15_10_5_0b5b5b2b5 d a sp off 0) := ⟨_, rfl⟩
  have he : encodeNat (.sts h d a sp off) = some y := by rw [hw]; rfl
  unfold low_15_10_5_0b5b5b2b5 at hw
  have c0 : y / 2 ^ 7 % 2 ^ 3 = 0 := slot_const hw (Nat.le_of_ble_eq_true rfl) (by omega)
  have f0 : Sys2Proof.fld 5 15 y = d := slot_fld hw (Nat.le_of_ble_eq_true rfl) (by omega)
  have f1 : Sys2Proof.fld 5 10 y = a := slot_fld hw (Nat.le_of_ble_eq_true rfl) (by omega)
  have f2 : Sys2Proof.fld 2 5 y = sp := slot_fld hw (Nat.le_of_ble_eq_true rfl) (by omega)
  have f3 : Sys2Proof.fld 5 0 y = off := slot_fld hw (Nat.le_of_ble_eq_true rfl) (by omega)
  rw [encode_of he, decode_slot hw (Nat.le_of_ble_eq_true rfl) (by omega), decodeOp_2B]
  simp only [decodeOp2B, slot_hdr hw (Nat.le_of_ble_eq_true rfl) (by omega), c0, f0, f1, f2, f3, true_and, and_true, false_and, and_false, and_self, if_true, if_false, Nat.reduceEqDiff, Nat.reduceDiv]

theorem ldv (h : Hdr) (d : BitVec 5) (a : BitVec 5) (lc : BitVec 3) (sp : BitVec 2) (off : BitVec 5) : Statement (.ldv h d a lc sp off) := by
  intro _
  have := d.isLt; have := a.isLt; have := lc.isLt; have := sp.isLt; have := off.isLt
  obtain ⟨y, hw⟩ : ∃ y, y = slotWord h 0x2C (low_15_10_7_5_0b5b5b3b2b5 d a lc sp off 0) := ⟨_, rfl⟩
  have he : encodeNat (.ldv h d a lc sp off) = some y := by rw [hw]; rfl
  unfold low_15_10_7_5_0b5b5b3b2b5 at hw
  have f0 : Sys2Proof.fld 5 15 y = d := slot_fld hw (Nat.le_of_ble_eq_true rfl) (by omega)
  have f1 : Sys2Proof.fld 5 10 y = a := slot_fld hw (Nat.le_of_ble_eq_true rfl) (by omega)
  have f2 : Sys2Proof.fld 3 7 y = lc := slot_fld hw (Nat.le_of_ble_eq_true rfl) (by omega)
  have f3 : Sys2Proof.fld 2 5 y = sp := slot_fld hw (Nat.le_of_ble_eq_true rfl) (by omega)
  have f4 : Sys2Proof.fld 5 0 y = off := slot_fld hw (Nat.le_of_ble_eq_true rfl) (by omega)
  rw [encode_of he, decode_slot hw (Nat.le_of_ble_eq_true rfl) (by omega), decodeOp_2C]
  simp only [decodeOp2C, slot_hdr hw (Nat.le_of_ble_eq_true rfl) (by omega), f0, f1, f2, f3, f4, true_and, and_true, false_and, and_false, and_self, if_true, if_false, Nat.reduceEqDiff, Nat.reduceDiv]

theorem ldvs (h : Hdr) (d : BitVec 5) (a : BitVec 5) (lc : BitVec 3) (off : BitVec 5) : Statement (.ldvs h d a lc off) := by
  intro _
  have := d.isLt; have := a.isLt; have := lc.isLt; have := off.isLt
  obtain ⟨y, hw⟩ : ∃ y, y = slotWord h 0x2D (low_15_10_7_0b5b5b3b5 d a lc off 64) := ⟨_, rfl⟩
  have he : encodeNat (.ldvs h d a lc off) = some y := by rw [hw]; rfl
  unfold low_15_10_7_0b5b5b3b5 at hw
  have c0 : y / 2 ^ 5 % 2 ^ 2 = 2 := slot_const hw (Nat.le_of_ble_eq_true rfl) (by omega)
  have f0 : Sys2Proof.fld 5 15 y = d := slot_fld hw (Nat.le_of_ble_eq_true rfl) (by omega)
  have f1 : Sys2Proof.fld 5 10 y = a := slot_fld hw (Nat.le_of_ble_eq_true rfl) (by omega)
  have f2 : Sys2Proof.fld 3 7 y = lc := slot_fld hw (Nat.le_of_ble_eq_true rfl) (by omega)
  have f3 : Sys2Proof.fld 5 0 y = off := slot_fld hw (Nat.le_of_ble_eq_true rfl) (by omega)
  rw [encode_of he, decode_slot hw (Nat.le_of_ble_eq_true rfl) (by omega), decodeOp_2D]
  simp only [decodeOp2D, slot_hdr hw (Nat.le_of_ble_eq_true rfl) (by omega), c0, f0, f1, f2, f3, true_and, and_true, false_and, and_false, and_self, if_true, if_false, Nat.reduceEqDiff, Nat.reduceDiv]

theorem ldvx (h : Hdr) (d : BitVec 5) (a : BitVec 5) (lc : BitVec 3) (sp : BitVec 2) (ix : BitVec 5) : Statement (.ldvx h d a lc sp ix) := by
  intro _
  have := d.isLt; have := a.isLt; have := lc.isLt; have := sp.isLt; have := ix.isLt
  obtain ⟨y, hw⟩ : ∃ y, y = slotWord h 0x2E (low_15_10_7_5_0b5b5b3b2b5 d a lc sp ix 0) := ⟨_, rfl⟩
  have he : encodeNat (.ldvx h d a lc sp ix) = some y := by rw [hw]; rfl
  unfold low_15_10_7_5_0b5b5b3b2b5 at hw
  have f0 : Sys2Proof.fld 5 15 y = d := slot_fld hw (Nat.le_of_ble_eq_true rfl) (by omega)
  have f1 : Sys2Proof.fld 5 10 y = a := slot_fld hw (Nat.le_of_ble_eq_true rfl) (by omega)
  have f2 : Sys2Proof.fld 3 7 y = lc := slot_fld hw (Nat.le_of_ble_eq_true rfl) (by omega)
  have f3 : Sys2Proof.fld 2 5 y = sp := slot_fld hw (Nat.le_of_ble_eq_true rfl) (by omega)
  have f4 : Sys2Proof.fld 5 0 y = ix := slot_fld hw (Nat.le_of_ble_eq_true rfl) (by omega)
  rw [encode_of he, decode_slot hw (Nat.le_of_ble_eq_true rfl) (by omega), decodeOp_2E]
  simp only [decodeOp2E, slot_hdr hw (Nat.le_of_ble_eq_true rfl) (by omega), f0, f1, f2, f3, f4, true_and, and_true, false_and, and_false, and_self, if_true, if_false, Nat.reduceEqDiff, Nat.reduceDiv]

theorem stv (h : Hdr) (d : BitVec 5) (a : BitVec 5) (sp : BitVec 2) (off : BitVec 5) : Statement (.stv h d a sp off) := by
  intro _
  have := d.isLt; have := a.isLt; have := sp.isLt; have := off.isLt
  obtain ⟨y, hw⟩ : ∃ y, y = slotWord h 0x2F (low_15_10_5_0b5b5b2b5 d a sp off 0) := ⟨_, rfl⟩
  have he : encodeNat (.stv h d a sp off) = some y := by rw [hw]; rfl
  unfold low_15_10_5_0b5b5b2b5 at hw
  have c0 : y / 2 ^ 7 % 2 ^ 3 = 0 := slot_const hw (Nat.le_of_ble_eq_true rfl) (by omega)
  have f0 : Sys2Proof.fld 5 15 y = d := slot_fld hw (Nat.le_of_ble_eq_true rfl) (by omega)
  have f1 : Sys2Proof.fld 5 10 y = a := slot_fld hw (Nat.le_of_ble_eq_true rfl) (by omega)
  have f2 : Sys2Proof.fld 2 5 y = sp := slot_fld hw (Nat.le_of_ble_eq_true rfl) (by omega)
  have f3 : Sys2Proof.fld 5 0 y = off := slot_fld hw (Nat.le_of_ble_eq_true rfl) (by omega)
  rw [encode_of he, decode_slot hw (Nat.le_of_ble_eq_true rfl) (by omega), decodeOp_2F]
  simp only [decodeOp2F, slot_hdr hw (Nat.le_of_ble_eq_true rfl) (by omega), c0, f0, f1, f2, f3, true_and, and_true, false_and, and_false, and_self, if_true, if_false, Nat.reduceEqDiff, Nat.reduceDiv]

theorem stvs (h : Hdr) (vs : BitVec 5) (a : BitVec 5) (mk : BitVec 4) (fmt : BitVec 4) (sp : BitVec 2) : Statement (.stvs h vs a mk fmt sp) := by
  intro _
  have := vs.isLt; have := a.isLt; have := mk.isLt; have := fmt.isLt; have := sp.isLt
  obtain ⟨y, hw⟩ : ∃ y, y = slotWord h 0x30 (low_15_10_6_2_0b5b5b4b4b2 vs a mk fmt sp 0) := ⟨_, rfl⟩
  have he : encodeNat (.stvs h vs a mk fmt sp) = some y := by rw [hw]; rfl
  unfold low_15_10_6_2_0b5b5b4b4b2 at hw
  have f0 : Sys2Proof.fld 5 15 y = vs := slot_fld hw (Nat.le_of_ble_eq_true rfl) (by omega)
  have f1 : Sys2Proof.fld 5 10 y = a := slot_fld hw (Nat.le_of_ble_eq_true rfl) (by omega)
  have f2 : Sys2Proof.fld 4 6 y = mk := slot_fld hw (Nat.le_of_ble_eq_true rfl) (by omega)
  have f3 : Sys2Proof.fld 4 2 y = fmt := slot_fld hw (Nat.le_of_ble_eq_true rfl) (by omega)
  have f4 : Sys2Proof.fld 2 0 y = sp := slot_fld hw (Nat.le_of_ble_eq_true rfl) (by omega)
  rw [encode_of he, decode_slot hw (Nat.le_of_ble_eq_true rfl) (by omega), decodeOp_30]
  simp only [decodeOp30, slot_hdr hw (Nat.le_of_ble_eq_true rfl) (by omega), f0, f1, f2, f3, f4, true_and, and_true, false_and, and_false, and_self, if_true, if_false, Nat.reduceEqDiff, Nat.reduceDiv]

theorem stvx (h : Hdr) (d : BitVec 5) (a : BitVec 5) (sp : BitVec 2) (ix : BitVec 5) : Statement (.stvx h d a sp ix) := by
  intro _
  have := d.isLt; have := a.isLt; have := sp.isLt; have := ix.isLt
  obtain ⟨y, hw⟩ : ∃ y, y = slotWord h 0x31 (low_15_10_5_0b5b5b2b5 d a sp ix 0) := ⟨_, rfl⟩
  have he : encodeNat (.stvx h d a sp ix) = some y := by rw [hw]; rfl
  unfold low_15_10_5_0b5b5b2b5 at hw
  have c0 : y / 2 ^ 7 % 2 ^ 3 = 0 := slot_const hw (Nat.le_of_ble_eq_true rfl) (by omega)
  have f0 : Sys2Proof.fld 5 15 y = d := slot_fld hw (Nat.le_of_ble_eq_true rfl) (by omega)
  have f1 : Sys2Proof.fld 5 10 y = a := slot_fld hw (Nat.le_of_ble_eq_true rfl) (by omega)
  have f2 : Sys2Proof.fld 2 5 y = sp := slot_fld hw (Nat.le_of_ble_eq_true rfl) (by omega)
  have f3 : Sys2Proof.fld 5 0 y = ix := slot_fld hw (Nat.le_of_ble_eq_true rfl) (by omega)
  rw [encode_of he, decode_slot hw (Nat.le_of_ble_eq_true rfl) (by omega), decodeOp_31]
  simp only [decodeOp31, slot_hdr hw (Nat.le_of_ble_eq_true rfl) (by omega), c0, f0, f1, f2, f3, true_and, and_true, false_and, and_false, and_self, if_true, if_false, Nat.reduceEqDiff, Nat.reduceDiv]

theorem pref (h : Hdr) (home : Bool) (a : BitVec 5) (off : BitVec 5) : Statement (.pref h home a off) := by
  intro _
  have := Bool.toNat_lt2 home; have := a.isLt; have := off.isLt
  obtain ⟨y, hw⟩ : ∃ y, y = slotWord h 0x32 (low_15_10_0b1b5b5 home a off 0) := ⟨_, rfl⟩
  have he : encodeNat (.pref h home a off) = some y := by rw [hw]; rfl
  unfold low_15_10_0b1b5b5 at hw
  have c0 : y / 2 ^ 5 % 2 ^ 5 = 0 := slot_const hw (Nat.le_of_ble_eq_true rfl) (by omega)
  have c1 : y / 2 ^ 16 % 2 ^ 4 = 0 := slot_const hw (Nat.le_of_ble_eq_true rfl) (by omega)
  have f0 : flag 15 y = home := slot_flag hw (Nat.le_of_ble_eq_true rfl) (by omega)
  have f1 : Sys2Proof.fld 5 10 y = a := slot_fld hw (Nat.le_of_ble_eq_true rfl) (by omega)
  have f2 : Sys2Proof.fld 5 0 y = off := slot_fld hw (Nat.le_of_ble_eq_true rfl) (by omega)
  rw [encode_of he, decode_slot hw (Nat.le_of_ble_eq_true rfl) (by omega), decodeOp_32]
  simp only [decodeOp32, slot_hdr hw (Nat.le_of_ble_eq_true rfl) (by omega), c0, c1, f0, f1, f2, true_and, and_true, false_and, and_false, and_self, if_true, if_false, Nat.reduceEqDiff, Nat.reduceDiv]

theorem chk (h : Hdr) (a : BitVec 5) (b : BitVec 5) : Statement (.chk h a b) := by
  intro _
  have := a.isLt; have := b.isLt
  obtain ⟨y, hw⟩ : ∃ y, y = slotWord h 0x33 (low_10_5b5b5 a b 0) := ⟨_, rfl⟩
  have he : encodeNat (.chk h a b) = some y := by rw [hw]; rfl
  unfold low_10_5b5b5 at hw
  have c0 : y / 2 ^ 0 % 2 ^ 5 = 0 := slot_const hw (Nat.le_of_ble_eq_true rfl) (by omega)
  have c1 : y / 2 ^ 15 % 2 ^ 5 = 0 := slot_const hw (Nat.le_of_ble_eq_true rfl) (by omega)
  have f0 : Sys2Proof.fld 5 10 y = a := slot_fld hw (Nat.le_of_ble_eq_true rfl) (by omega)
  have f1 : Sys2Proof.fld 5 5 y = b := slot_fld hw (Nat.le_of_ble_eq_true rfl) (by omega)
  rw [encode_of he, decode_slot hw (Nat.le_of_ble_eq_true rfl) (by omega), decodeOp_33]
  simp only [decodeOp33, slot_hdr hw (Nat.le_of_ble_eq_true rfl) (by omega), c0, c1, f0, f1, true_and, and_true, false_and, and_false, and_self, if_true, if_false, Nat.reduceEqDiff, Nat.reduceDiv]

theorem chkVec (h : Hdr) (a : BitVec 5) (b : BitVec 5) : Statement (.chkVec h a b) := by
  intro _
  have := a.isLt; have := b.isLt
  obtain ⟨y, hw⟩ : ∃ y, y = slotWord h 0x33 (low_10_5b5b5 a b 1) := ⟨_, rfl⟩
  have he : encodeNat (.chkVec h a b) = some y := by rw [hw]; rfl
  unfold low_10_5b5b5 at hw
  have c0 : y / 2 ^ 0 % 2 ^ 5 = 1 := slot_const hw (Nat.le_of_ble_eq_true rfl) (by omega)
  have c1 : y / 2 ^ 15 % 2 ^ 5 = 0 := slot_const hw (Nat.le_of_ble_eq_true rfl) (by omega)
  have f0 : Sys2Proof.fld 5 10 y = a := slot_fld hw (Nat.le_of_ble_eq_true rfl) (by omega)
  have f1 : Sys2Proof.fld 5 5 y = b := slot_fld hw (Nat.le_of_ble_eq_true rfl) (by omega)
  rw [encode_of he, decode_slot hw (Nat.le_of_ble_eq_true rfl) (by omega), decodeOp_33]
  simp only [decodeOp33, slot_hdr hw (Nat.le_of_ble_eq_true rfl) (by omega), c0, c1, f0, f1, true_and, and_true, false_and, and_false, and_self, if_true, if_false, Nat.reduceEqDiff, Nat.reduceDiv]

theorem cpchGo (h : Hdr) (a : BitVec 5) (b : BitVec 5) : Statement (.cpchGo h a b) := by
  intro _
  have := a.isLt; have := b.isLt
  obtain ⟨y, hw⟩ : ∃ y, y = slotWord h 0x34 (low_10_5b5b5 a b 0) := ⟨_, rfl⟩
  have he : encodeNat (.cpchGo h a b) = some y := by rw [hw]; rfl
  unfold low_10_5b5b5 at hw
  have c0 : y / 2 ^ 0 % 2 ^ 5 = 0 := slot_const hw (Nat.le_of_ble_eq_true rfl) (by omega)
  have c1 : y / 2 ^ 15 % 2 ^ 5 = 0 := slot_const hw (Nat.le_of_ble_eq_true rfl) (by omega)
  have n0 : ¬y / 2 ^ 0 % 2 ^ 10 = 1 := slot_differs hw (Nat.le_of_ble_eq_true rfl) (by omega)
  have n1 : ¬y / 2 ^ 0 % 2 ^ 10 = 2 := slot_differs hw (Nat.le_of_ble_eq_true rfl) (by omega)
  have f0 : Sys2Proof.fld 5 10 y = a := slot_fld hw (Nat.le_of_ble_eq_true rfl) (by omega)
  have f1 : Sys2Proof.fld 5 5 y = b := slot_fld hw (Nat.le_of_ble_eq_true rfl) (by omega)
  rw [encode_of he, decode_slot hw (Nat.le_of_ble_eq_true rfl) (by omega), decodeOp_34]
  simp only [decodeOp34, slot_hdr hw (Nat.le_of_ble_eq_true rfl) (by omega), c0, c1, n0, n1, f0, f1, true_and, and_true, false_and, and_false, and_self, if_true, if_false, Nat.reduceEqDiff, Nat.reduceDiv]

theorem cpchSt (h : Hdr) (d : BitVec 5) (a : BitVec 5) : Statement (.cpchSt h d a) := by
  intro _
  have := d.isLt; have := a.isLt
  obtain ⟨y, hw⟩ : ∃ y, y = slotWord h 0x34 (low_15_10b5b5 d a 1) := ⟨_, rfl⟩
  have he : encodeNat (.cpchSt h d a) = some y := by rw [hw]; rfl
  unfold low_15_10b5b5 at hw
  have c0 : y / 2 ^ 0 % 2 ^ 5 = 1 := slot_const hw (Nat.le_of_ble_eq_true rfl) (by omega)
  have c1 : y / 2 ^ 0 % 2 ^ 10 = 1 := slot_const hw (Nat.le_of_ble_eq_true rfl) (by omega)
  have f0 : Sys2Proof.fld 5 15 y = d := slot_fld hw (Nat.le_of_ble_eq_true rfl) (by omega)
  have f1 : Sys2Proof.fld 5 10 y = a := slot_fld hw (Nat.le_of_ble_eq_true rfl) (by omega)
  rw [encode_of he, decode_slot hw (Nat.le_of_ble_eq_true rfl) (by omega), decodeOp_34]
  simp only [decodeOp34, slot_hdr hw (Nat.le_of_ble_eq_true rfl) (by omega), c0, c1, f0, f1, true_and, and_true, false_and, and_false, and_self, if_true, if_false, Nat.reduceEqDiff, Nat.reduceDiv]

theorem cpchStop (h : Hdr) (a : BitVec 5) : Statement (.cpchStop h a) := by
  intro _
  have := a.isLt
  obtain ⟨y, hw⟩ : ∃ y, y = slotWord h 0x34 (low_10b5 a 2) := ⟨_, rfl⟩
  have he : encodeNat (.cpchStop h a) = some y := by rw [hw]; rfl
  unfold low_10b5 at hw
  have c0 : y / 2 ^ 0 % 2 ^ 5 = 2 := slot_const hw (Nat.le_of_ble_eq_true rfl) (by omega)
  have c1 : y / 2 ^ 0 % 2 ^ 10 = 2 := slot_const hw (Nat.le_of_ble_eq_true rfl) (by omega)
  have c2 : y / 2 ^ 15 % 2 ^ 5 = 0 := slot_const hw (Nat.le_of_ble_eq_true rfl) (by omega)
  have f0 : Sys2Proof.fld 5 10 y = a := slot_fld hw (Nat.le_of_ble_eq_true rfl) (by omega)
  rw [encode_of he, decode_slot hw (Nat.le_of_ble_eq_true rfl) (by omega), decodeOp_34]
  simp only [decodeOp34, slot_hdr hw (Nat.le_of_ble_eq_true rfl) (by omega), c0, c1, c2, f0, true_and, and_true, false_and, and_false, and_self, if_true, if_false, Nat.reduceEqDiff, Nat.reduceDiv]

theorem memcPhase (h : Hdr) (a : BitVec 5) (b : BitVec 5) : Statement (.memcPhase h a b) := by
  intro _
  have := a.isLt; have := b.isLt
  obtain ⟨y, hw⟩ : ∃ y, y = slotWord h 0x35 (low_10_5b5b5 a b 0) := ⟨_, rfl⟩
  have he : encodeNat (.memcPhase h a b) = some y := by rw [hw]; rfl
  unfold low_10_5b5b5 at hw
  have c0 : y / 2 ^ 0 % 2 ^ 2 = 0 := slot_const hw (Nat.le_of_ble_eq_true rfl) (by omega)
  have c1 : y / 2 ^ 0 % 2 ^ 5 = 0 := slot_const hw (Nat.le_of_ble_eq_true rfl) (by omega)
  have c2 : y / 2 ^ 15 % 2 ^ 5 = 0 := slot_const hw (Nat.le_of_ble_eq_true rfl) (by omega)
  have f0 : Sys2Proof.fld 5 10 y = a := slot_fld hw (Nat.le_of_ble_eq_true rfl) (by omega)
  have f1 : Sys2Proof.fld 5 5 y = b := slot_fld hw (Nat.le_of_ble_eq_true rfl) (by omega)
  rw [encode_of he, decode_slot hw (Nat.le_of_ble_eq_true rfl) (by omega), decodeOp_35]
  simp only [decodeOp35, slot_hdr hw (Nat.le_of_ble_eq_true rfl) (by omega), c0, c1, c2, f0, f1, true_and, and_true, false_and, and_false, and_self, if_true, if_false, Nat.reduceEqDiff, Nat.reduceDiv]

theorem memcRinv (h : Hdr) (d : BitVec 5) (a : BitVec 5) (b : BitVec 5) (sc : BitVec 3) : Statement (.memcRinv h d a b sc) := by
  intro _
  have := d.isLt; have := a.isLt; have := b.isLt; have := sc.isLt
  obtain ⟨y, hw⟩ : ∃ y, y = slotWord h 0x35 (low_15_10_5_2b5b5b5b3 d a b sc 1) := ⟨_, rfl⟩
  have he : encodeNat (.memcRinv h d a b sc) = some y := by rw [hw]; rfl
  unfold low_15_10_5_2b5b5b5b3 at hw
  have c0 : y / 2 ^ 0 % 2 ^ 2 = 1 := slot_const hw (Nat.le_of_ble_eq_true rfl) (by omega)
  have n0 : ¬y / 2 ^ 0 % 2 ^ 5 = 0 := slot_differs hw (Nat.le_of_ble_eq_true rfl) (by omega)
  have n1 : ¬y / 2 ^ 0 % 2 ^ 5 = 2 := slot_differs hw (Nat.le_of_ble_eq_true rfl) (by omega)
  have n2 : ¬y / 2 ^ 0 % 2 ^ 5 = 3 := slot_differs hw (Nat.le_of_ble_eq_true rfl) (by omega)
  have f0 : Sys2Proof.fld 5 15 y = d := slot_fld hw (Nat.le_of_ble_eq_true rfl) (by omega)
  have f1 : Sys2Proof.fld 5 10 y = a := slot_fld hw (Nat.le_of_ble_eq_true rfl) (by omega)
  have f2 : Sys2Proof.fld 5 5 y = b := slot_fld hw (Nat.le_of_ble_eq_true rfl) (by omega)
  have f3 : Sys2Proof.fld 3 2 y = sc := slot_fld hw (Nat.le_of_ble_eq_true rfl) (by omega)
  rw [encode_of he, decode_slot hw (Nat.le_of_ble_eq_true rfl) (by omega), decodeOp_35]
  simp only [decodeOp35, slot_hdr hw (Nat.le_of_ble_eq_true rfl) (by omega), c0, n0, n1, n2, f0, f1, f2, f3, true_and, and_true, false_and, and_false, and_self, if_true, if_false, Nat.reduceEqDiff, Nat.reduceDiv]

theorem memcCreg (h : Hdr) (a : BitVec 5) (b : BitVec 5) : Statement (.memcCreg h a b) := by
  intro _
  have := a.isLt; have := b.isLt
  obtain ⟨y, hw⟩ : ∃ y, y = slotWord h 0x35 (low_10_5b5b5 a b 2) := ⟨_, rfl⟩
  have he : encodeNat (.memcCreg h a b) = some y := by rw [hw]; rfl
  unfold low_10_5b5b5 at hw
  have c0 : y / 2 ^ 0 % 2 ^ 2 = 2 := slot_const hw (Nat.le_of_ble_eq_true rfl) (by omega)
  have c1 : y / 2 ^ 0 % 2 ^ 5 = 2 := slot_const hw (Nat.le_of_ble_eq_true rfl) (by omega)
  have c2 : y / 2 ^ 15 % 2 ^ 5 = 0 := slot_const hw (Nat.le_of_ble_eq_true rfl) (by omega)
  have f0 : Sys2Proof.fld 5 10 y = a := slot_fld hw (Nat.le_of_ble_eq_true rfl) (by omega)
  have f1 : Sys2Proof.fld 5 5 y = b := slot_fld hw (Nat.le_of_ble_eq_true rfl) (by omega)
  rw [encode_of he, decode_slot hw (Nat.le_of_ble_eq_true rfl) (by omega), decodeOp_35]
  simp only [decodeOp35, slot_hdr hw (Nat.le_of_ble_eq_true rfl) (by omega), c0, c1, c2, f0, f1, true_and, and_true, false_and, and_false, and_self, if_true, if_false, Nat.reduceEqDiff, Nat.reduceDiv]

theorem memcCerr (h : Hdr) (a : BitVec 5) (b : BitVec 5) : Statement (.memcCerr h a b) := by
  intro _
  have := a.isLt; have := b.isLt
  obtain ⟨y, hw⟩ : ∃ y, y = slotWord h 0x35 (low_10_5b5b5 a b 3) := ⟨_, rfl⟩
  have he : encodeNat (.memcCerr h a b) = some y := by rw [hw]; rfl
  unfold low_10_5b5b5 at hw
  have c0 : y / 2 ^ 0 % 2 ^ 2 = 3 := slot_const hw (Nat.le_of_ble_eq_true rfl) (by omega)
  have c1 : y / 2 ^ 0 % 2 ^ 5 = 3 := slot_const hw (Nat.le_of_ble_eq_true rfl) (by omega)
  have c2 : y / 2 ^ 15 % 2 ^ 5 = 0 := slot_const hw (Nat.le_of_ble_eq_true rfl) (by omega)
  have f0 : Sys2Proof.fld 5 10 y = a := slot_fld hw (Nat.le_of_ble_eq_true rfl) (by omega)
  have f1 : Sys2Proof.fld 5 5 y = b := slot_fld hw (Nat.le_of_ble_eq_true rfl) (by omega)
  rw [encode_of he, decode_slot hw (Nat.le_of_ble_eq_true rfl) (by omega), decodeOp_35]
  simp only [decodeOp35, slot_hdr hw (Nat.le_of_ble_eq_true rfl) (by omega), c0, c1, c2, f0, f1, true_and, and_true, false_and, and_false, and_self, if_true, if_false, Nat.reduceEqDiff, Nat.reduceDiv]

theorem coll (h : Hdr) (a : BitVec 5) : Statement (.coll h a) := by
  intro _
  have := a.isLt
  obtain ⟨y, hw⟩ : ∃ y, y = slotWord h 0x36 (low_10b5 a 0) := ⟨_, rfl⟩
  have he : encodeNat (.coll h a) = some y := by rw [hw]; rfl
  unfold low_10b5 at hw
  have c0 : y / 2 ^ 0 % 2 ^ 5 = 0 := slot_const hw (Nat.le_of_ble_eq_true rfl) (by omega)
  have c1 : y / 2 ^ 0 % 2 ^ 10 = 0 := slot_const hw (Nat.le_of_ble_eq_true rfl) (by omega)
  have c2 : y / 2 ^ 15 % 2 ^ 5 = 0 := slot_const hw (Nat.le_of_ble_eq_true rfl) (by omega)
  have f0 : Sys2Proof.fld 5 10 y = a := slot_fld hw (Nat.le_of_ble_eq_true rfl) (by omega)
  rw [encode_of he, decode_slot hw (Nat.le_of_ble_eq_true rfl) (by omega), decodeOp_36]
  simp only [decodeOp36, slot_hdr hw (Nat.le_of_ble_eq_true rfl) (by omega), c0, c1, c2, f0, true_and, and_true, false_and, and_false, and_self, if_true, if_false, Nat.reduceEqDiff, Nat.reduceDiv]

theorem ring (h : Hdr) (a : BitVec 5) : Statement (.ring h a) := by
  intro _
  have := a.isLt
  obtain ⟨y, hw⟩ : ∃ y, y = slotWord h 0x36 (low_10b5 a 1) := ⟨_, rfl⟩
  have he : encodeNat (.ring h a) = some y := by rw [hw]; rfl
  unfold low_10b5 at hw
  have c0 : y / 2 ^ 0 % 2 ^ 5 = 1 := slot_const hw (Nat.le_of_ble_eq_true rfl) (by omega)
  have c1 : y / 2 ^ 0 % 2 ^ 10 = 1 := slot_const hw (Nat.le_of_ble_eq_true rfl) (by omega)
  have c2 : y / 2 ^ 15 % 2 ^ 5 = 0 := slot_const hw (Nat.le_of_ble_eq_true rfl) (by omega)
  have f0 : Sys2Proof.fld 5 10 y = a := slot_fld hw (Nat.le_of_ble_eq_true rfl) (by omega)
  rw [encode_of he, decode_slot hw (Nat.le_of_ble_eq_true rfl) (by omega), decodeOp_36]
  simp only [decodeOp36, slot_hdr hw (Nat.le_of_ble_eq_true rfl) (by omega), c0, c1, c2, f0, true_and, and_true, false_and, and_false, and_self, if_true, if_false, Nat.reduceEqDiff, Nat.reduceDiv]

theorem rsemRd (h : Hdr) (d : BitVec 5) (a : BitVec 5) : Statement (.rsemRd h d a) := by
  intro _
  have := d.isLt; have := a.isLt
  obtain ⟨y, hw⟩ : ∃ y, y = slotWord h 0x36 (low_15_10b5b5 d a 2) := ⟨_, rfl⟩
  have he : encodeNat (.rsemRd h d a) = some y := by rw [hw]; rfl
  unfold low_15_10b5b5 at hw
  have c0 : y / 2 ^ 0 % 2 ^ 5 = 2 := slot_const hw (Nat.le_of_ble_eq_true rfl) (by omega)
  have c1 : y / 2 ^ 0 % 2 ^ 10 = 2 := slot_const hw (Nat.le_of_ble_eq_true rfl) (by omega)
  have f0 : Sys2Proof.fld 5 15 y = d := slot_fld hw (Nat.le_of_ble_eq_true rfl) (by omega)
  have f1 : Sys2Proof.fld 5 10 y = a := slot_fld hw (Nat.le_of_ble_eq_true rfl) (by omega)
  rw [encode_of he, decode_slot hw (Nat.le_of_ble_eq_true rfl) (by omega), decodeOp_36]
  simp only [decodeOp36, slot_hdr hw (Nat.le_of_ble_eq_true rfl) (by omega), c0, c1, f0, f1, true_and, and_true, false_and, and_false, and_self, if_true, if_false, Nat.reduceEqDiff, Nat.reduceDiv]

theorem rsemSet (h : Hdr) (a : BitVec 5) (b : BitVec 5) : Statement (.rsemSet h a b) := by
  intro _
  have := a.isLt; have := b.isLt
  obtain ⟨y, hw⟩ : ∃ y, y = slotWord h 0x36 (low_10_5b5b5 a b 6) := ⟨_, rfl⟩
  have he : encodeNat (.rsemSet h a b) = some y := by rw [hw]; rfl
  unfold low_10_5b5b5 at hw
  have c0 : y / 2 ^ 0 % 2 ^ 5 = 6 := slot_const hw (Nat.le_of_ble_eq_true rfl) (by omega)
  have c1 : y / 2 ^ 15 % 2 ^ 5 = 0 := slot_const hw (Nat.le_of_ble_eq_true rfl) (by omega)
  have n0 : ¬y / 2 ^ 0 % 2 ^ 10 = 0 := slot_differs hw (Nat.le_of_ble_eq_true rfl) (by omega)
  have n1 : ¬y / 2 ^ 0 % 2 ^ 10 = 1 := slot_differs hw (Nat.le_of_ble_eq_true rfl) (by omega)
  have n2 : ¬y / 2 ^ 0 % 2 ^ 10 = 2 := slot_differs hw (Nat.le_of_ble_eq_true rfl) (by omega)
  have f0 : Sys2Proof.fld 5 10 y = a := slot_fld hw (Nat.le_of_ble_eq_true rfl) (by omega)
  have f1 : Sys2Proof.fld 5 5 y = b := slot_fld hw (Nat.le_of_ble_eq_true rfl) (by omega)
  rw [encode_of he, decode_slot hw (Nat.le_of_ble_eq_true rfl) (by omega), decodeOp_36]
  simp only [decodeOp36, slot_hdr hw (Nat.le_of_ble_eq_true rfl) (by omega), c0, c1, n0, n1, n2, f0, f1, true_and, and_true, false_and, and_false, and_self, if_true, if_false, Nat.reduceEqDiff, Nat.reduceDiv]

theorem rsemAdd (h : Hdr) (a : BitVec 5) (b : BitVec 5) : Statement (.rsemAdd h a b) := by
  intro _
  have := a.isLt; have := b.isLt
  obtain ⟨y, hw⟩ : ∃ y, y = slotWord h 0x36 (low_10_5b5b5 a b 10) := ⟨_, rfl⟩
  have he : encodeNat (.rsemAdd h a b) = some y := by rw [hw]; rfl
  unfold low_10_5b5b5 at hw
  have c0 : y / 2 ^ 0 % 2 ^ 5 = 10 := slot_const hw (Nat.le_of_ble_eq_true rfl) (by omega)
  have c1 : y / 2 ^ 15 % 2 ^ 5 = 0 := slot_const hw (Nat.le_of_ble_eq_true rfl) (by omega)
  have n0 : ¬y / 2 ^ 0 % 2 ^ 10 = 0 := slot_differs hw (Nat.le_of_ble_eq_true rfl) (by omega)
  have n1 : ¬y / 2 ^ 0 % 2 ^ 10 = 1 := slot_differs hw (Nat.le_of_ble_eq_true rfl) (by omega)
  have n2 : ¬y / 2 ^ 0 % 2 ^ 10 = 2 := slot_differs hw (Nat.le_of_ble_eq_true rfl) (by omega)
  have f0 : Sys2Proof.fld 5 10 y = a := slot_fld hw (Nat.le_of_ble_eq_true rfl) (by omega)
  have f1 : Sys2Proof.fld 5 5 y = b := slot_fld hw (Nat.le_of_ble_eq_true rfl) (by omega)
  rw [encode_of he, decode_slot hw (Nat.le_of_ble_eq_true rfl) (by omega), decodeOp_36]
  simp only [decodeOp36, slot_hdr hw (Nat.le_of_ble_eq_true rfl) (by omega), c0, c1, n0, n1, n2, f0, f1, true_and, and_true, false_and, and_false, and_self, if_true, if_false, Nat.reduceEqDiff, Nat.reduceDiv]

theorem stabWr (h : Hdr) (a : BitVec 5) (b : BitVec 5) : Statement (.stabWr h a b) := by
  intro _
  have := a.isLt; have := b.isLt
  obtain ⟨y, hw⟩ : ∃ y, y = slotWord h 0x37 (low_10_5b5b5 a b 0) := ⟨_, rfl⟩
  have he : encodeNat (.stabWr h a b) = some y := by rw [hw]; rfl
  unfold low_10_5b5b5 at hw
  have c0 : y / 2 ^ 0 % 2 ^ 5 = 0 := slot_const hw (Nat.le_of_ble_eq_true rfl) (by omega)
  have c1 : y / 2 ^ 15 % 2 ^ 5 = 0 := slot_const hw (Nat.le_of_ble_eq_true rfl) (by omega)
  have n0 : ¬y / 2 ^ 0 % 2 ^ 10 = 2 := slot_differs hw (Nat.le_of_ble_eq_true rfl) (by omega)
  have n1 : ¬y / 2 ^ 0 % 2 ^ 10 = 4 := slot_differs hw (Nat.le_of_ble_eq_true rfl) (by omega)
  have n2 : ¬y / 2 ^ 0 % 2 ^ 20 = 3 := slot_differs hw (Nat.le_of_ble_eq_true rfl) (by omega)
  have n3 : ¬y / 2 ^ 0 % 2 ^ 20 = 6 := slot_differs hw (Nat.le_of_ble_eq_true rfl) (by omega)
  have f0 : Sys2Proof.fld 5 10 y = a := slot_fld hw (Nat.le_of_ble_eq_true rfl) (by omega)
  have f1 : Sys2Proof.fld 5 5 y = b := slot_fld hw (Nat.le_of_ble_eq_true rfl) (by omega)
  rw [encode_of he, decode_slot hw (Nat.le_of_ble_eq_true rfl) (by omega), decodeOp_37]
  simp only [decodeOp37, slot_hdr hw (Nat.le_of_ble_eq_true rfl) (by omega), c0, c1, n0, n1, n2, n3, f0, f1, true_and, and_true, false_and, and_false, and_self, if_true, if_false, Nat.reduceEqDiff, Nat.reduceDiv]

theorem stabRd (h : Hdr) (d : BitVec 5) (a : BitVec 5) (b : BitVec 5) : Statement (.stabRd h d a b) := by
  intro _
  have := d.isLt; have := a.isLt; have := b.isLt
  obtain ⟨y, hw⟩ : ∃ y, y = slotWord h 0x37 (low_15_10_5b5b5b5 d a b 1) := ⟨_, rfl⟩
  have he : encodeNat (.stabRd h d a b) = some y := by rw [hw]; rfl
  unfold low_15_10_5b5b5b5 at hw
  have c0 : y / 2 ^ 0 % 2 ^ 5 = 1 := slot_const hw (Nat.le_of_ble_eq_true rfl) (by omega)
  have n0 : ¬y / 2 ^ 0 % 2 ^ 10 = 2 := slot_differs hw (Nat.le_of_ble_eq_true rfl) (by omega)
  have n1 : ¬y / 2 ^ 0 % 2 ^ 10 = 4 := slot_differs hw (Nat.le_of_ble_eq_true rfl) (by omega)
  have n2 : ¬y / 2 ^ 0 % 2 ^ 20 = 3 := slot_differs hw (Nat.le_of_ble_eq_true rfl) (by omega)
  have n3 : ¬y / 2 ^ 0 % 2 ^ 20 = 6 := slot_differs hw (Nat.le_of_ble_eq_true rfl) (by omega)
  have f0 : Sys2Proof.fld 5 15 y = d := slot_fld hw (Nat.le_of_ble_eq_true rfl) (by omega)
  have f1 : Sys2Proof.fld 5 10 y = a := slot_fld hw (Nat.le_of_ble_eq_true rfl) (by omega)
  have f2 : Sys2Proof.fld 5 5 y = b := slot_fld hw (Nat.le_of_ble_eq_true rfl) (by omega)
  rw [encode_of he, decode_slot hw (Nat.le_of_ble_eq_true rfl) (by omega), decodeOp_37]
  simp only [decodeOp37, slot_hdr hw (Nat.le_of_ble_eq_true rfl) (by omega), c0, n0, n1, n2, n3, f0, f1, f2, true_and, and_true, false_and, and_false, and_self, if_true, if_false, Nat.reduceEqDiff, Nat.reduceDiv]

theorem stabGo (h : Hdr) (a : BitVec 5) : Statement (.stabGo h a) := by
  intro _
  have := a.isLt
  obtain ⟨y, hw⟩ : ∃ y, y = slotWord h 0x37 (low_10b5 a 2) := ⟨_, rfl⟩
  have he : encodeNat (.stabGo h a) = some y := by rw [hw]; rfl
  unfold low_10b5 at hw
  have c0 : y / 2 ^ 0 % 2 ^ 5 = 2 := slot_const hw (Nat.le_of_ble_eq_true rfl) (by omega)
  have c1 : y / 2 ^ 0 % 2 ^ 10 = 2 := slot_const hw (Nat.le_of_ble_eq_true rfl) (by omega)
  have c2 : y / 2 ^ 15 % 2 ^ 5 = 0 := slot_const hw (Nat.le_of_ble_eq_true rfl) (by omega)
  have n0 : ¬y / 2 ^ 0 % 2 ^ 20 = 3 := slot_differs hw (Nat.le_of_ble_eq_true rfl) (by omega)
  have n1 : ¬y / 2 ^ 0 % 2 ^ 20 = 6 := slot_differs hw (Nat.le_of_ble_eq_true rfl) (by omega)
  have f0 : Sys2Proof.fld 5 10 y = a := slot_fld hw (Nat.le_of_ble_eq_true rfl) (by omega)
  rw [encode_of he, decode_slot hw (Nat.le_of_ble_eq_true rfl) (by omega), decodeOp_37]
  simp only [decodeOp37, slot_hdr hw (Nat.le_of_ble_eq_true rfl) (by omega), c0, c1, c2, n0, n1, f0, true_and, and_true, false_and, and_false, and_self, if_true, if_false, Nat.reduceEqDiff, Nat.reduceDiv]

theorem stabStop (h : Hdr) : Statement (.stabStop h) := by
  intro _
  obtain ⟨y, hw⟩ : ∃ y, y = slotWord h 0x37 (low 3) := ⟨_, rfl⟩
  have he : encodeNat (.stabStop h) = some y := by rw [hw]; rfl
  unfold low at hw
  have c0 : y / 2 ^ 0 % 2 ^ 5 = 3 := slot_const hw (Nat.le_of_ble_eq_true rfl) (by omega)
  have c1 : y / 2 ^ 0 % 2 ^ 10 = 3 := slot_const hw (Nat.le_of_ble_eq_true rfl) (by omega)
  have c2 : y / 2 ^ 0 % 2 ^ 20 = 3 := slot_const hw (Nat.le_of_ble_eq_true rfl) (by omega)
  have c3 : y / 2 ^ 15 % 2 ^ 5 = 0 := slot_const hw (Nat.le_of_ble_eq_true rfl) (by omega)
  rw [encode_of he, decode_slot hw (Nat.le_of_ble_eq_true rfl) (by omega), decodeOp_37]
  simp only [decodeOp37, slot_hdr hw (Nat.le_of_ble_eq_true rfl) (by omega), c0, c1, c2, c3, true_and, and_true, false_and, and_false, and_self, if_true, if_false, Nat.reduceEqDiff, Nat.reduceDiv]

theorem stabReg (h : Hdr) (d : BitVec 5) (a : BitVec 5) : Statement (.stabReg h d a) := by
  intro _
  have := d.isLt; have := a.isLt
  obtain ⟨y, hw⟩ : ∃ y, y = slotWord h 0x37 (low_15_10b5b5 d a 4) := ⟨_, rfl⟩
  have he : encodeNat (.stabReg h d a) = some y := by rw [hw]; rfl
  unfold low_15_10b5b5 at hw
  have c0 : y / 2 ^ 0 % 2 ^ 5 = 4 := slot_const hw (Nat.le_of_ble_eq_true rfl) (by omega)
  have c1 : y / 2 ^ 0 % 2 ^ 10 = 4 := slot_const hw (Nat.le_of_ble_eq_true rfl) (by omega)
  have n0 : ¬y / 2 ^ 0 % 2 ^ 20 = 3 := slot_differs hw (Nat.le_of_ble_eq_true rfl) (by omega)
  have n1 : ¬y / 2 ^ 0 % 2 ^ 20 = 6 := slot_differs hw (Nat.le_of_ble_eq_true rfl) (by omega)
  have f0 : Sys2Proof.fld 5 15 y = d := slot_fld hw (Nat.le_of_ble_eq_true rfl) (by omega)
  have f1 : Sys2Proof.fld 5 10 y = a := slot_fld hw (Nat.le_of_ble_eq_true rfl) (by omega)
  rw [encode_of he, decode_slot hw (Nat.le_of_ble_eq_true rfl) (by omega), decodeOp_37]
  simp only [decodeOp37, slot_hdr hw (Nat.le_of_ble_eq_true rfl) (by omega), c0, c1, n0, n1, f0, f1, true_and, and_true, false_and, and_false, and_self, if_true, if_false, Nat.reduceEqDiff, Nat.reduceDiv]

theorem stabLink (h : Hdr) (a : BitVec 5) (b : BitVec 5) : Statement (.stabLink h a b) := by
  intro _
  have := a.isLt; have := b.isLt
  obtain ⟨y, hw⟩ : ∃ y, y = slotWord h 0x37 (low_10_5b5b5 a b 5) := ⟨_, rfl⟩
  have he : encodeNat (.stabLink h a b) = some y := by rw [hw]; rfl
  unfold low_10_5b5b5 at hw
  have c0 : y / 2 ^ 0 % 2 ^ 5 = 5 := slot_const hw (Nat.le_of_ble_eq_true rfl) (by omega)
  have c1 : y / 2 ^ 15 % 2 ^ 5 = 0 := slot_const hw (Nat.le_of_ble_eq_true rfl) (by omega)
  have n0 : ¬y / 2 ^ 0 % 2 ^ 10 = 2 := slot_differs hw (Nat.le_of_ble_eq_true rfl) (by omega)
  have n1 : ¬y / 2 ^ 0 % 2 ^ 10 = 4 := slot_differs hw (Nat.le_of_ble_eq_true rfl) (by omega)
  have n2 : ¬y / 2 ^ 0 % 2 ^ 20 = 3 := slot_differs hw (Nat.le_of_ble_eq_true rfl) (by omega)
  have n3 : ¬y / 2 ^ 0 % 2 ^ 20 = 6 := slot_differs hw (Nat.le_of_ble_eq_true rfl) (by omega)
  have f0 : Sys2Proof.fld 5 10 y = a := slot_fld hw (Nat.le_of_ble_eq_true rfl) (by omega)
  have f1 : Sys2Proof.fld 5 5 y = b := slot_fld hw (Nat.le_of_ble_eq_true rfl) (by omega)
  rw [encode_of he, decode_slot hw (Nat.le_of_ble_eq_true rfl) (by omega), decodeOp_37]
  simp only [decodeOp37, slot_hdr hw (Nat.le_of_ble_eq_true rfl) (by omega), c0, c1, n0, n1, n2, n3, f0, f1, true_and, and_true, false_and, and_false, and_self, if_true, if_false, Nat.reduceEqDiff, Nat.reduceDiv]

theorem stabClr (h : Hdr) : Statement (.stabClr h) := by
  intro _
  obtain ⟨y, hw⟩ : ∃ y, y = slotWord h 0x37 (low 6) := ⟨_, rfl⟩
  have he : encodeNat (.stabClr h) = some y := by rw [hw]; rfl
  unfold low at hw
  have c0 : y / 2 ^ 0 % 2 ^ 5 = 6 := slot_const hw (Nat.le_of_ble_eq_true rfl) (by omega)
  have c1 : y / 2 ^ 0 % 2 ^ 10 = 6 := slot_const hw (Nat.le_of_ble_eq_true rfl) (by omega)
  have c2 : y / 2 ^ 0 % 2 ^ 20 = 6 := slot_const hw (Nat.le_of_ble_eq_true rfl) (by omega)
  have c3 : y / 2 ^ 15 % 2 ^ 5 = 0 := slot_const hw (Nat.le_of_ble_eq_true rfl) (by omega)
  rw [encode_of he, decode_slot hw (Nat.le_of_ble_eq_true rfl) (by omega), decodeOp_37]
  simp only [decodeOp37, slot_hdr hw (Nat.le_of_ble_eq_true rfl) (by omega), c0, c1, c2, c3, true_and, and_true, false_and, and_false, and_self, if_true, if_false, Nat.reduceEqDiff, Nat.reduceDiv]

theorem vadd (h : Hdr) (d : BitVec 5) (a : BitVec 5) (b : BitVec 5) (fmt : BitVec 4) (x : Bool) : Statement (.vadd h d a b fmt x) := by
  intro _
  have := d.isLt; have := a.isLt; have := b.isLt; have := fmt.isLt; have := Bool.toNat_lt2 x
  obtain ⟨y, hw⟩ : ∃ y, y = slotWord h 0x38 (low_15_10_5_1_0b5b5b5b4b1 d a b fmt x 0) := ⟨_, rfl⟩
  have he : encodeNat (.vadd h d a b fmt x) = some y := by rw [hw]; rfl
  unfold low_15_10_5_1_0b5b5b5b4b1 at hw
  have f0 : Sys2Proof.fld 5 15 y = d := slot_fld hw (Nat.le_of_ble_eq_true rfl) (by omega)
  have f1 : Sys2Proof.fld 5 10 y = a := slot_fld hw (Nat.le_of_ble_eq_true rfl) (by omega)
  have f2 : Sys2Proof.fld 5 5 y = b := slot_fld hw (Nat.le_of_ble_eq_true rfl) (by omega)
  have f3 : Sys2Proof.fld 4 1 y = fmt := slot_fld hw (Nat.le_of_ble_eq_true rfl) (by omega)
  have f4 : flag 0 y = x := slot_flag hw (Nat.le_of_ble_eq_true rfl) (by omega)
  rw [encode_of he, decode_slot hw (Nat.le_of_ble_eq_true rfl) (by omega), decodeOp_38]
  simp only [decodeOp38, slot_hdr hw (Nat.le_of_ble_eq_true rfl) (by omega), f0, f1, f2, f3, f4, true_and, and_true, false_and, and_false, and_self, if_true, if_false, Nat.reduceEqDiff, Nat.reduceDiv]

theorem vsub (h : Hdr) (d : BitVec 5) (a : BitVec 5) (b : BitVec 5) (fmt : BitVec 4) (x : Bool) : Statement (.vsub h d a b fmt x) := by
  intro _
  have := d.isLt; have := a.isLt; have := b.isLt; have := fmt.isLt; have := Bool.toNat_lt2 x
  obtain ⟨y, hw⟩ : ∃ y, y = slotWord h 0x39 (low_15_10_5_1_0b5b5b5b4b1 d a b fmt x 0) := ⟨_, rfl⟩
  have he : encodeNat (.vsub h d a b fmt x) = some y := by rw [hw]; rfl
  unfold low_15_10_5_1_0b5b5b5b4b1 at hw
  have f0 : Sys2Proof.fld 5 15 y = d := slot_fld hw (Nat.le_of_ble_eq_true rfl) (by omega)
  have f1 : Sys2Proof.fld 5 10 y = a := slot_fld hw (Nat.le_of_ble_eq_true rfl) (by omega)
  have f2 : Sys2Proof.fld 5 5 y = b := slot_fld hw (Nat.le_of_ble_eq_true rfl) (by omega)
  have f3 : Sys2Proof.fld 4 1 y = fmt := slot_fld hw (Nat.le_of_ble_eq_true rfl) (by omega)
  have f4 : flag 0 y = x := slot_flag hw (Nat.le_of_ble_eq_true rfl) (by omega)
  rw [encode_of he, decode_slot hw (Nat.le_of_ble_eq_true rfl) (by omega), decodeOp_39]
  simp only [decodeOp39, slot_hdr hw (Nat.le_of_ble_eq_true rfl) (by omega), f0, f1, f2, f3, f4, true_and, and_true, false_and, and_false, and_self, if_true, if_false, Nat.reduceEqDiff, Nat.reduceDiv]

theorem vmul (h : Hdr) (d : BitVec 5) (a : BitVec 5) (b : BitVec 5) (fmt : BitVec 4) (x : Bool) : Statement (.vmul h d a b fmt x) := by
  intro _
  have := d.isLt; have := a.isLt; have := b.isLt; have := fmt.isLt; have := Bool.toNat_lt2 x
  obtain ⟨y, hw⟩ : ∃ y, y = slotWord h 0x3A (low_15_10_5_1_0b5b5b5b4b1 d a b fmt x 0) := ⟨_, rfl⟩
  have he : encodeNat (.vmul h d a b fmt x) = some y := by rw [hw]; rfl
  unfold low_15_10_5_1_0b5b5b5b4b1 at hw
  have f0 : Sys2Proof.fld 5 15 y = d := slot_fld hw (Nat.le_of_ble_eq_true rfl) (by omega)
  have f1 : Sys2Proof.fld 5 10 y = a := slot_fld hw (Nat.le_of_ble_eq_true rfl) (by omega)
  have f2 : Sys2Proof.fld 5 5 y = b := slot_fld hw (Nat.le_of_ble_eq_true rfl) (by omega)
  have f3 : Sys2Proof.fld 4 1 y = fmt := slot_fld hw (Nat.le_of_ble_eq_true rfl) (by omega)
  have f4 : flag 0 y = x := slot_flag hw (Nat.le_of_ble_eq_true rfl) (by omega)
  rw [encode_of he, decode_slot hw (Nat.le_of_ble_eq_true rfl) (by omega), decodeOp_3A]
  simp only [decodeOp3A, slot_hdr hw (Nat.le_of_ble_eq_true rfl) (by omega), f0, f1, f2, f3, f4, true_and, and_true, false_and, and_false, and_self, if_true, if_false, Nat.reduceEqDiff, Nat.reduceDiv]

theorem vfma (h : Hdr) (d : BitVec 5) (a : BitVec 5) (b : BitVec 5) (fmt : BitVec 4) (x : Bool) : Statement (.vfma h d a b fmt x) := by
  intro _
  have := d.isLt; have := a.isLt; have := b.isLt; have := fmt.isLt; have := Bool.toNat_lt2 x
  obtain ⟨y, hw⟩ : ∃ y, y = slotWord h 0x3B (low_15_10_5_1_0b5b5b5b4b1 d a b fmt x 0) := ⟨_, rfl⟩
  have he : encodeNat (.vfma h d a b fmt x) = some y := by rw [hw]; rfl
  unfold low_15_10_5_1_0b5b5b5b4b1 at hw
  have f0 : Sys2Proof.fld 5 15 y = d := slot_fld hw (Nat.le_of_ble_eq_true rfl) (by omega)
  have f1 : Sys2Proof.fld 5 10 y = a := slot_fld hw (Nat.le_of_ble_eq_true rfl) (by omega)
  have f2 : Sys2Proof.fld 5 5 y = b := slot_fld hw (Nat.le_of_ble_eq_true rfl) (by omega)
  have f3 : Sys2Proof.fld 4 1 y = fmt := slot_fld hw (Nat.le_of_ble_eq_true rfl) (by omega)
  have f4 : flag 0 y = x := slot_flag hw (Nat.le_of_ble_eq_true rfl) (by omega)
  rw [encode_of he, decode_slot hw (Nat.le_of_ble_eq_true rfl) (by omega), decodeOp_3B]
  simp only [decodeOp3B, slot_hdr hw (Nat.le_of_ble_eq_true rfl) (by omega), f0, f1, f2, f3, f4, true_and, and_true, false_and, and_false, and_self, if_true, if_false, Nat.reduceEqDiff, Nat.reduceDiv]

theorem vmin (h : Hdr) (d : BitVec 5) (a : BitVec 5) (b : BitVec 5) (fmt : BitVec 4) : Statement (.vmin h d a b fmt) := by
  intro _
  have := d.isLt; have := a.isLt; have := b.isLt; have := fmt.isLt
  obtain ⟨y, hw⟩ : ∃ y, y = slotWord h 0x3C (low_15_10_5_1b5b5b5b4 d a b fmt 0) := ⟨_, rfl⟩
  have he : encodeNat (.vmin h d a b fmt) = some y := by rw [hw]; rfl
  unfold low_15_10_5_1b5b5b5b4 at hw
  have c0 : y / 2 ^ 0 % 2 ^ 1 = 0 := slot_const hw (Nat.le_of_ble_eq_true rfl) (by omega)
  have f0 : Sys2Proof.fld 5 15 y = d := slot_fld hw (Nat.le_of_ble_eq_true rfl) (by omega)
  have f1 : Sys2Proof.fld 5 10 y = a := slot_fld hw (Nat.le_of_ble_eq_true rfl) (by omega)
  have f2 : Sys2Proof.fld 5 5 y = b := slot_fld hw (Nat.le_of_ble_eq_true rfl) (by omega)
  have f3 : Sys2Proof.fld 4 1 y = fmt := slot_fld hw (Nat.le_of_ble_eq_true rfl) (by omega)
  rw [encode_of he, decode_slot hw (Nat.le_of_ble_eq_true rfl) (by omega), decodeOp_3C]
  simp only [decodeOp3C, slot_hdr hw (Nat.le_of_ble_eq_true rfl) (by omega), c0, f0, f1, f2, f3, true_and, and_true, false_and, and_false, and_self, if_true, if_false, Nat.reduceEqDiff, Nat.reduceDiv]

theorem vmax (h : Hdr) (d : BitVec 5) (a : BitVec 5) (b : BitVec 5) (fmt : BitVec 4) : Statement (.vmax h d a b fmt) := by
  intro _
  have := d.isLt; have := a.isLt; have := b.isLt; have := fmt.isLt
  obtain ⟨y, hw⟩ : ∃ y, y = slotWord h 0x3C (low_15_10_5_1b5b5b5b4 d a b fmt 1) := ⟨_, rfl⟩
  have he : encodeNat (.vmax h d a b fmt) = some y := by rw [hw]; rfl
  unfold low_15_10_5_1b5b5b5b4 at hw
  have c0 : y / 2 ^ 0 % 2 ^ 1 = 1 := slot_const hw (Nat.le_of_ble_eq_true rfl) (by omega)
  have f0 : Sys2Proof.fld 5 15 y = d := slot_fld hw (Nat.le_of_ble_eq_true rfl) (by omega)
  have f1 : Sys2Proof.fld 5 10 y = a := slot_fld hw (Nat.le_of_ble_eq_true rfl) (by omega)
  have f2 : Sys2Proof.fld 5 5 y = b := slot_fld hw (Nat.le_of_ble_eq_true rfl) (by omega)
  have f3 : Sys2Proof.fld 4 1 y = fmt := slot_fld hw (Nat.le_of_ble_eq_true rfl) (by omega)
  rw [encode_of he, decode_slot hw (Nat.le_of_ble_eq_true rfl) (by omega), decodeOp_3C]
  simp only [decodeOp3C, slot_hdr hw (Nat.le_of_ble_eq_true rfl) (by omega), c0, f0, f1, f2, f3, true_and, and_true, false_and, and_false, and_self, if_true, if_false, Nat.reduceEqDiff, Nat.reduceDiv]

theorem vabs (h : Hdr) (d : BitVec 5) (a : BitVec 5) (fmt : BitVec 4) : Statement (.vabs h d a fmt) := by
  intro _
  have := d.isLt; have := a.isLt; have := fmt.isLt
  obtain ⟨y, hw⟩ : ∃ y, y = slotWord h 0x3D (low_15_10_1b5b5b4 d a fmt 0) := ⟨_, rfl⟩
  have he : encodeNat (.vabs h d a fmt) = some y := by rw [hw]; rfl
  unfold low_15_10_1b5b5b4 at hw
  have c0 : y / 2 ^ 0 % 2 ^ 1 = 0 := slot_const hw (Nat.le_of_ble_eq_true rfl) (by omega)
  have c1 : y / 2 ^ 5 % 2 ^ 5 = 0 := slot_const hw (Nat.le_of_ble_eq_true rfl) (by omega)
  have f0 : Sys2Proof.fld 5 15 y = d := slot_fld hw (Nat.le_of_ble_eq_true rfl) (by omega)
  have f1 : Sys2Proof.fld 5 10 y = a := slot_fld hw (Nat.le_of_ble_eq_true rfl) (by omega)
  have f2 : Sys2Proof.fld 4 1 y = fmt := slot_fld hw (Nat.le_of_ble_eq_true rfl) (by omega)
  rw [encode_of he, decode_slot hw (Nat.le_of_ble_eq_true rfl) (by omega), decodeOp_3D]
  simp only [decodeOp3D, slot_hdr hw (Nat.le_of_ble_eq_true rfl) (by omega), c0, c1, f0, f1, f2, true_and, and_true, false_and, and_false, and_self, if_true, if_false, Nat.reduceEqDiff, Nat.reduceDiv]

theorem vneg (h : Hdr) (d : BitVec 5) (a : BitVec 5) (fmt : BitVec 4) : Statement (.vneg h d a fmt) := by
  intro _
  have := d.isLt; have := a.isLt; have := fmt.isLt
  obtain ⟨y, hw⟩ : ∃ y, y = slotWord h 0x3D (low_15_10_1b5b5b4 d a fmt 1) := ⟨_, rfl⟩
  have he : encodeNat (.vneg h d a fmt) = some y := by rw [hw]; rfl
  unfold low_15_10_1b5b5b4 at hw
  have c0 : y / 2 ^ 0 % 2 ^ 1 = 1 := slot_const hw (Nat.le_of_ble_eq_true rfl) (by omega)
  have c1 : y / 2 ^ 5 % 2 ^ 5 = 0 := slot_const hw (Nat.le_of_ble_eq_true rfl) (by omega)
  have f0 : Sys2Proof.fld 5 15 y = d := slot_fld hw (Nat.le_of_ble_eq_true rfl) (by omega)
  have f1 : Sys2Proof.fld 5 10 y = a := slot_fld hw (Nat.le_of_ble_eq_true rfl) (by omega)
  have f2 : Sys2Proof.fld 4 1 y = fmt := slot_fld hw (Nat.le_of_ble_eq_true rfl) (by omega)
  rw [encode_of he, decode_slot hw (Nat.le_of_ble_eq_true rfl) (by omega), decodeOp_3D]
  simp only [decodeOp3D, slot_hdr hw (Nat.le_of_ble_eq_true rfl) (by omega), c0, c1, f0, f1, f2, true_and, and_true, false_and, and_false, and_self, if_true, if_false, Nat.reduceEqDiff, Nat.reduceDiv]

theorem vand (h : Hdr) (d : BitVec 5) (a : BitVec 5) (b : BitVec 5) : Statement (.vand h d a b) := by
  intro _
  have := d.isLt; have := a.isLt; have := b.isLt
  obtain ⟨y, hw⟩ : ∃ y, y = slotWord h 0x3E (low_15_10_5b5b5b5 d a b 0) := ⟨_, rfl⟩
  have he : encodeNat (.vand h d a b) = some y := by rw [hw]; rfl
  unfold low_15_10_5b5b5b5 at hw
  have c0 : y / 2 ^ 0 % 2 ^ 5 = 0 := slot_const hw (Nat.le_of_ble_eq_true rfl) (by omega)
  have f0 : Sys2Proof.fld 5 15 y = d := slot_fld hw (Nat.le_of_ble_eq_true rfl) (by omega)
  have f1 : Sys2Proof.fld 5 10 y = a := slot_fld hw (Nat.le_of_ble_eq_true rfl) (by omega)
  have f2 : Sys2Proof.fld 5 5 y = b := slot_fld hw (Nat.le_of_ble_eq_true rfl) (by omega)
  rw [encode_of he, decode_slot hw (Nat.le_of_ble_eq_true rfl) (by omega), decodeOp_3E]
  simp only [decodeOp3E, slot_hdr hw (Nat.le_of_ble_eq_true rfl) (by omega), c0, f0, f1, f2, true_and, and_true, false_and, and_false, and_self, if_true, if_false, Nat.reduceEqDiff, Nat.reduceDiv]

theorem vor (h : Hdr) (d : BitVec 5) (a : BitVec 5) (b : BitVec 5) : Statement (.vor h d a b) := by
  intro _
  have := d.isLt; have := a.isLt; have := b.isLt
  obtain ⟨y, hw⟩ : ∃ y, y = slotWord h 0x3E (low_15_10_5b5b5b5 d a b 2) := ⟨_, rfl⟩
  have he : encodeNat (.vor h d a b) = some y := by rw [hw]; rfl
  unfold low_15_10_5b5b5b5 at hw
  have c0 : y / 2 ^ 0 % 2 ^ 5 = 2 := slot_const hw (Nat.le_of_ble_eq_true rfl) (by omega)
  have f0 : Sys2Proof.fld 5 15 y = d := slot_fld hw (Nat.le_of_ble_eq_true rfl) (by omega)
  have f1 : Sys2Proof.fld 5 10 y = a := slot_fld hw (Nat.le_of_ble_eq_true rfl) (by omega)
  have f2 : Sys2Proof.fld 5 5 y = b := slot_fld hw (Nat.le_of_ble_eq_true rfl) (by omega)
  rw [encode_of he, decode_slot hw (Nat.le_of_ble_eq_true rfl) (by omega), decodeOp_3E]
  simp only [decodeOp3E, slot_hdr hw (Nat.le_of_ble_eq_true rfl) (by omega), c0, f0, f1, f2, true_and, and_true, false_and, and_false, and_self, if_true, if_false, Nat.reduceEqDiff, Nat.reduceDiv]

theorem vxor (h : Hdr) (d : BitVec 5) (a : BitVec 5) (b : BitVec 5) : Statement (.vxor h d a b) := by
  intro _
  have := d.isLt; have := a.isLt; have := b.isLt
  obtain ⟨y, hw⟩ : ∃ y, y = slotWord h 0x3E (low_15_10_5b5b5b5 d a b 4) := ⟨_, rfl⟩
  have he : encodeNat (.vxor h d a b) = some y := by rw [hw]; rfl
  unfold low_15_10_5b5b5b5 at hw
  have c0 : y / 2 ^ 0 % 2 ^ 5 = 4 := slot_const hw (Nat.le_of_ble_eq_true rfl) (by omega)
  have f0 : Sys2Proof.fld 5 15 y = d := slot_fld hw (Nat.le_of_ble_eq_true rfl) (by omega)
  have f1 : Sys2Proof.fld 5 10 y = a := slot_fld hw (Nat.le_of_ble_eq_true rfl) (by omega)
  have f2 : Sys2Proof.fld 5 5 y = b := slot_fld hw (Nat.le_of_ble_eq_true rfl) (by omega)
  rw [encode_of he, decode_slot hw (Nat.le_of_ble_eq_true rfl) (by omega), decodeOp_3E]
  simp only [decodeOp3E, slot_hdr hw (Nat.le_of_ble_eq_true rfl) (by omega), c0, f0, f1, f2, true_and, and_true, false_and, and_false, and_self, if_true, if_false, Nat.reduceEqDiff, Nat.reduceDiv]

theorem vandn (h : Hdr) (d : BitVec 5) (a : BitVec 5) (b : BitVec 5) : Statement (.vandn h d a b) := by
  intro _
  have := d.isLt; have := a.isLt; have := b.isLt
  obtain ⟨y, hw⟩ : ∃ y, y = slotWord h 0x3E (low_15_10_5b5b5b5 d a b 6) := ⟨_, rfl⟩
  have he : encodeNat (.vandn h d a b) = some y := by rw [hw]; rfl
  unfold low_15_10_5b5b5b5 at hw
  have c0 : y / 2 ^ 0 % 2 ^ 5 = 6 := slot_const hw (Nat.le_of_ble_eq_true rfl) (by omega)
  have f0 : Sys2Proof.fld 5 15 y = d := slot_fld hw (Nat.le_of_ble_eq_true rfl) (by omega)
  have f1 : Sys2Proof.fld 5 10 y = a := slot_fld hw (Nat.le_of_ble_eq_true rfl) (by omega)
  have f2 : Sys2Proof.fld 5 5 y = b := slot_fld hw (Nat.le_of_ble_eq_true rfl) (by omega)
  rw [encode_of he, decode_slot hw (Nat.le_of_ble_eq_true rfl) (by omega), decodeOp_3E]
  simp only [decodeOp3E, slot_hdr hw (Nat.le_of_ble_eq_true rfl) (by omega), c0, f0, f1, f2, true_and, and_true, false_and, and_false, and_self, if_true, if_false, Nat.reduceEqDiff, Nat.reduceDiv]

theorem vorn (h : Hdr) (d : BitVec 5) (a : BitVec 5) (b : BitVec 5) : Statement (.vorn h d a b) := by
  intro _
  have := d.isLt; have := a.isLt; have := b.isLt
  obtain ⟨y, hw⟩ : ∃ y, y = slotWord h 0x3E (low_15_10_5b5b5b5 d a b 8) := ⟨_, rfl⟩
  have he : encodeNat (.vorn h d a b) = some y := by rw [hw]; rfl
  unfold low_15_10_5b5b5b5 at hw
  have c0 : y / 2 ^ 0 % 2 ^ 5 = 8 := slot_const hw (Nat.le_of_ble_eq_true rfl) (by omega)
  have f0 : Sys2Proof.fld 5 15 y = d := slot_fld hw (Nat.le_of_ble_eq_true rfl) (by omega)
  have f1 : Sys2Proof.fld 5 10 y = a := slot_fld hw (Nat.le_of_ble_eq_true rfl) (by omega)
  have f2 : Sys2Proof.fld 5 5 y = b := slot_fld hw (Nat.le_of_ble_eq_true rfl) (by omega)
  rw [encode_of he, decode_slot hw (Nat.le_of_ble_eq_true rfl) (by omega), decodeOp_3E]
  simp only [decodeOp3E, slot_hdr hw (Nat.le_of_ble_eq_true rfl) (by omega), c0, f0, f1, f2, true_and, and_true, false_and, and_false, and_self, if_true, if_false, Nat.reduceEqDiff, Nat.reduceDiv]

theorem vxnor (h : Hdr) (d : BitVec 5) (a : BitVec 5) (b : BitVec 5) : Statement (.vxnor h d a b) := by
  intro _
  have := d.isLt; have := a.isLt; have := b.isLt
  obtain ⟨y, hw⟩ : ∃ y, y = slotWord h 0x3E (low_15_10_5b5b5b5 d a b 10) := ⟨_, rfl⟩
  have he : encodeNat (.vxnor h d a b) = some y := by rw [hw]; rfl
  unfold low_15_10_5b5b5b5 at hw
  have c0 : y / 2 ^ 0 % 2 ^ 5 = 10 := slot_const hw (Nat.le_of_ble_eq_true rfl) (by omega)
  have f0 : Sys2Proof.fld 5 15 y = d := slot_fld hw (Nat.le_of_ble_eq_true rfl) (by omega)
  have f1 : Sys2Proof.fld 5 10 y = a := slot_fld hw (Nat.le_of_ble_eq_true rfl) (by omega)
  have f2 : Sys2Proof.fld 5 5 y = b := slot_fld hw (Nat.le_of_ble_eq_true rfl) (by omega)
  rw [encode_of he, decode_slot hw (Nat.le_of_ble_eq_true rfl) (by omega), decodeOp_3E]
  simp only [decodeOp3E, slot_hdr hw (Nat.le_of_ble_eq_true rfl) (by omega), c0, f0, f1, f2, true_and, and_true, false_and, and_false, and_self, if_true, if_false, Nat.reduceEqDiff, Nat.reduceDiv]

theorem vshl (h : Hdr) (d : BitVec 5) (a : BitVec 5) (b : BitVec 5) (x : Bool) : Statement (.vshl h d a b x) := by
  intro _
  have := d.isLt; have := a.isLt; have := b.isLt; have := Bool.toNat_lt2 x
  obtain ⟨y, hw⟩ : ∃ y, y = slotWord h 0x3F (low_15_10_5_0b5b5b5b1 d a b x 0) := ⟨_, rfl⟩
  have he : encodeNat (.vshl h d a b x) = some y := by rw [hw]; rfl
  unfold low_15_10_5_0b5b5b5b1 at hw
  have c0 : y / 2 ^ 1 % 2 ^ 4 = 0 := slot_const hw (Nat.le_of_ble_eq_true rfl) (by omega)
  have f0 : Sys2Proof.fld 5 15 y = d := slot_fld hw (Nat.le_of_ble_eq_true rfl) (by omega)
  have f1 : Sys2Proof.fld 5 10 y = a := slot_fld hw (Nat.le_of_ble_eq_true rfl) (by omega)
  have f2 : Sys2Proof.fld 5 5 y = b := slot_fld hw (Nat.le_of_ble_eq_true rfl) (by omega)
  have f3 : flag 0 y = x := slot_flag hw (Nat.le_of_ble_eq_true rfl) (by omega)
  rw [encode_of he, decode_slot hw (Nat.le_of_ble_eq_true rfl) (by omega), decodeOp_3F]
  simp only [decodeOp3F, slot_hdr hw (Nat.le_of_ble_eq_true rfl) (by omega), c0, f0, f1, f2, f3, true_and, and_true, false_and, and_false, and_self, if_true, if_false, Nat.reduceEqDiff, Nat.reduceDiv]

theorem vshr (h : Hdr) (d : BitVec 5) (a : BitVec 5) (b : BitVec 5) (x : Bool) : Statement (.vshr h d a b x) := by
  intro _
  have := d.isLt; have := a.isLt; have := b.isLt; have := Bool.toNat_lt2 x
  obtain ⟨y, hw⟩ : ∃ y, y = slotWord h 0x3F (low_15_10_5_0b5b5b5b1 d a b x 2) := ⟨_, rfl⟩
  have he : encodeNat (.vshr h d a b x) = some y := by rw [hw]; rfl
  unfold low_15_10_5_0b5b5b5b1 at hw
  have c0 : y / 2 ^ 1 % 2 ^ 4 = 1 := slot_const hw (Nat.le_of_ble_eq_true rfl) (by omega)
  have f0 : Sys2Proof.fld 5 15 y = d := slot_fld hw (Nat.le_of_ble_eq_true rfl) (by omega)
  have f1 : Sys2Proof.fld 5 10 y = a := slot_fld hw (Nat.le_of_ble_eq_true rfl) (by omega)
  have f2 : Sys2Proof.fld 5 5 y = b := slot_fld hw (Nat.le_of_ble_eq_true rfl) (by omega)
  have f3 : flag 0 y = x := slot_flag hw (Nat.le_of_ble_eq_true rfl) (by omega)
  rw [encode_of he, decode_slot hw (Nat.le_of_ble_eq_true rfl) (by omega), decodeOp_3F]
  simp only [decodeOp3F, slot_hdr hw (Nat.le_of_ble_eq_true rfl) (by omega), c0, f0, f1, f2, f3, true_and, and_true, false_and, and_false, and_self, if_true, if_false, Nat.reduceEqDiff, Nat.reduceDiv]

theorem vsar (h : Hdr) (d : BitVec 5) (a : BitVec 5) (b : BitVec 5) (x : Bool) : Statement (.vsar h d a b x) := by
  intro _
  have := d.isLt; have := a.isLt; have := b.isLt; have := Bool.toNat_lt2 x
  obtain ⟨y, hw⟩ : ∃ y, y = slotWord h 0x3F (low_15_10_5_0b5b5b5b1 d a b x 4) := ⟨_, rfl⟩
  have he : encodeNat (.vsar h d a b x) = some y := by rw [hw]; rfl
  unfold low_15_10_5_0b5b5b5b1 at hw
  have c0 : y / 2 ^ 1 % 2 ^ 4 = 2 := slot_const hw (Nat.le_of_ble_eq_true rfl) (by omega)
  have f0 : Sys2Proof.fld 5 15 y = d := slot_fld hw (Nat.le_of_ble_eq_true rfl) (by omega)
  have f1 : Sys2Proof.fld 5 10 y = a := slot_fld hw (Nat.le_of_ble_eq_true rfl) (by omega)
  have f2 : Sys2Proof.fld 5 5 y = b := slot_fld hw (Nat.le_of_ble_eq_true rfl) (by omega)
  have f3 : flag 0 y = x := slot_flag hw (Nat.le_of_ble_eq_true rfl) (by omega)
  rw [encode_of he, decode_slot hw (Nat.le_of_ble_eq_true rfl) (by omega), decodeOp_3F]
  simp only [decodeOp3F, slot_hdr hw (Nat.le_of_ble_eq_true rfl) (by omega), c0, f0, f1, f2, f3, true_and, and_true, false_and, and_false, and_self, if_true, if_false, Nat.reduceEqDiff, Nat.reduceDiv]

theorem vcmp (h : Hdr) (c1 : Bool) (d : BitVec 4) (a : BitVec 5) (b : BitVec 5) (fmt : BitVec 4) (x : Bool) : Statement (.vcmp h c1 d a b fmt x) := by
  intro _
  have := Bool.toNat_lt2 c1; have := d.isLt; have := a.isLt; have := b.isLt; have := fmt.isLt; have := Bool.toNat_lt2 x
  obtain ⟨y, hw⟩ : ∃ y, y = slotWord h 0x40 (low_19_15_10_5_1_0b1b4b5b5b4b1 c1 d a b fmt x 0) := ⟨_, rfl⟩
  have he : encodeNat (.vcmp h c1 d a b fmt x) = some y := by rw [hw]; rfl
  unfold low_19_15_10_5_1_0b1b4b5b5b4b1 at hw
  have f0 : flag 19 y = c1 := slot_flag hw (Nat.le_of_ble_eq_true rfl) (by omega)
  have f1 : Sys2Proof.fld 4 15 y = d := slot_fld hw (Nat.le_of_ble_eq_true rfl) (by omega)
  have f2 : Sys2Proof.fld 5 10 y = a := slot_fld hw (Nat.le_of_ble_eq_true rfl) (by omega)
  have f3 : Sys2Proof.fld 5 5 y = b := slot_fld hw (Nat.le_of_ble_eq_true rfl) (by omega)
  have f4 : Sys2Proof.fld 4 1 y = fmt := slot_fld hw (Nat.le_of_ble_eq_true rfl) (by omega)
  have f5 : flag 0 y = x := slot_flag hw (Nat.le_of_ble_eq_true rfl) (by omega)
  rw [encode_of he, decode_slot hw (Nat.le_of_ble_eq_true rfl) (by omega), decodeOp_40]
  simp only [decodeOp40, slot_hdr hw (Nat.le_of_ble_eq_true rfl) (by omega), f0, f1, f2, f3, f4, f5, true_and, and_true, false_and, and_false, and_self, if_true, if_false, Nat.reduceEqDiff, Nat.reduceDiv]

theorem vsel (h : Hdr) (d : BitVec 5) (a : BitVec 5) (mk : BitVec 4) (fmt : BitVec 4) : Statement (.vsel h d a mk fmt) := by
  intro _
  have := d.isLt; have := a.isLt; have := mk.isLt; have := fmt.isLt
  obtain ⟨y, hw⟩ : ∃ y, y = slotWord h 0x41 (low_15_10_5_1b5b5b4b4 d a mk fmt 0) := ⟨_, rfl⟩
  have he : encodeNat (.vsel h d a mk fmt) = some y := by rw [hw]; rfl
  unfold low_15_10_5_1b5b5b4b4 at hw
  have c0 : y / 2 ^ 0 % 2 ^ 1 = 0 := slot_const hw (Nat.le_of_ble_eq_true rfl) (by omega)
  have c1 : y / 2 ^ 9 % 2 ^ 1 = 0 := slot_const hw (Nat.le_of_ble_eq_true rfl) (by omega)
  have f0 : Sys2Proof.fld 5 15 y = d := slot_fld hw (Nat.le_of_ble_eq_true rfl) (by omega)
  have f1 : Sys2Proof.fld 5 10 y = a := slot_fld hw (Nat.le_of_ble_eq_true rfl) (by omega)
  have f2 : Sys2Proof.fld 4 5 y = mk := slot_fld hw (Nat.le_of_ble_eq_true rfl) (by omega)
  have f3 : Sys2Proof.fld 4 1 y = fmt := slot_fld hw (Nat.le_of_ble_eq_true rfl) (by omega)
  rw [encode_of he, decode_slot hw (Nat.le_of_ble_eq_true rfl) (by omega), decodeOp_41]
  simp only [decodeOp41, slot_hdr hw (Nat.le_of_ble_eq_true rfl) (by omega), c0, c1, f0, f1, f2, f3, true_and, and_true, false_and, and_false, and_self, if_true, if_false, Nat.reduceEqDiff, Nat.reduceDiv]

theorem vmaskPopc (h : Hdr) (d : BitVec 5) (a : BitVec 4) : Statement (.vmaskPopc h d a) := by
  intro _
  have := d.isLt; have := a.isLt
  obtain ⟨y, hw⟩ : ∃ y, y = slotWord h 0x42 (low_15_10b5b4 d a 0) := ⟨_, rfl⟩
  have he : encodeNat (.vmaskPopc h d a) = some y := by rw [hw]; rfl
  unfold low_15_10b5b4 at hw
  have c0 : y / 2 ^ 0 % 2 ^ 10 = 0 := slot_const hw (Nat.le_of_ble_eq_true rfl) (by omega)
  have c1 : y / 2 ^ 5 % 2 ^ 5 = 0 := slot_const hw (Nat.le_of_ble_eq_true rfl) (by omega)
  have c2 : y / 2 ^ 14 % 2 ^ 1 = 0 := slot_const hw (Nat.le_of_ble_eq_true rfl) (by omega)
  have f0 : Sys2Proof.fld 5 15 y = d := slot_fld hw (Nat.le_of_ble_eq_true rfl) (by omega)
  have f1 : Sys2Proof.fld 4 10 y = a := slot_fld hw (Nat.le_of_ble_eq_true rfl) (by omega)
  rw [encode_of he, decode_slot hw (Nat.le_of_ble_eq_true rfl) (by omega), decodeOp_42]
  simp only [decodeOp42, slot_hdr hw (Nat.le_of_ble_eq_true rfl) (by omega), c0, c1, c2, f0, f1, true_and, and_true, false_and, and_false, and_self, if_true, if_false, Nat.reduceEqDiff, Nat.reduceDiv]

theorem vmaskFfs (h : Hdr) (d : BitVec 5) (a : BitVec 4) : Statement (.vmaskFfs h d a) := by
  intro _
  have := d.isLt; have := a.isLt
  obtain ⟨y, hw⟩ : ∃ y, y = slotWord h 0x42 (low_15_10b5b4 d a 2) := ⟨_, rfl⟩
  have he : encodeNat (.vmaskFfs h d a) = some y := by rw [hw]; rfl
  unfold low_15_10b5b4 at hw
  have c0 : y / 2 ^ 0 % 2 ^ 10 = 2 := slot_const hw (Nat.le_of_ble_eq_true rfl) (by omega)
  have c1 : y / 2 ^ 5 % 2 ^ 5 = 0 := slot_const hw (Nat.le_of_ble_eq_true rfl) (by omega)
  have c2 : y / 2 ^ 14 % 2 ^ 1 = 0 := slot_const hw (Nat.le_of_ble_eq_true rfl) (by omega)
  have f0 : Sys2Proof.fld 5 15 y = d := slot_fld hw (Nat.le_of_ble_eq_true rfl) (by omega)
  have f1 : Sys2Proof.fld 4 10 y = a := slot_fld hw (Nat.le_of_ble_eq_true rfl) (by omega)
  rw [encode_of he, decode_slot hw (Nat.le_of_ble_eq_true rfl) (by omega), decodeOp_42]
  simp only [decodeOp42, slot_hdr hw (Nat.le_of_ble_eq_true rfl) (by omega), c0, c1, c2, f0, f1, true_and, and_true, false_and, and_false, and_self, if_true, if_false, Nat.reduceEqDiff, Nat.reduceDiv]

theorem vmaskTov (h : Hdr) (d : BitVec 5) (a : BitVec 4) : Statement (.vmaskTov h d a) := by
  intro _
  have := d.isLt; have := a.isLt
  obtain ⟨y, hw⟩ : ∃ y, y = slotWord h 0x42 (low_15_10b5b4 d a 4) := ⟨_, rfl⟩
  have he : encodeNat (.vmaskTov h d a) = some y := by rw [hw]; rfl
  unfold low_15_10b5b4 at hw
  have c0 : y / 2 ^ 0 % 2 ^ 10 = 4 := slot_const hw (Nat.le_of_ble_eq_true rfl) (by omega)
  have c1 : y / 2 ^ 5 % 2 ^ 5 = 0 := slot_const hw (Nat.le_of_ble_eq_true rfl) (by omega)
  have c2 : y / 2 ^ 14 % 2 ^ 1 = 0 := slot_const hw (Nat.le_of_ble_eq_true rfl) (by omega)
  have f0 : Sys2Proof.fld 5 15 y = d := slot_fld hw (Nat.le_of_ble_eq_true rfl) (by omega)
  have f1 : Sys2Proof.fld 4 10 y = a := slot_fld hw (Nat.le_of_ble_eq_true rfl) (by omega)
  rw [encode_of he, decode_slot hw (Nat.le_of_ble_eq_true rfl) (by omega), decodeOp_42]
  simp only [decodeOp42, slot_hdr hw (Nat.le_of_ble_eq_true rfl) (by omega), c0, c1, c2, f0, f1, true_and, and_true, false_and, and_false, and_self, if_true, if_false, Nat.reduceEqDiff, Nat.reduceDiv]

theorem vmaskFromv (h : Hdr) (d : BitVec 4) (a : BitVec 5) : Statement (.vmaskFromv h d a) := by
  intro _
  have := d.isLt; have := a.isLt
  obtain ⟨y, hw⟩ : ∃ y, y = slotWord h 0x42 (low_15_10b4b5 d a 6) := ⟨_, rfl⟩
  have he : encodeNat (.vmaskFromv h d a) = some y := by rw [hw]; rfl
  unfold low_15_10b4b5 at hw
  have c0 : y / 2 ^ 0 % 2 ^ 10 = 6 := slot_const hw (Nat.le_of_ble_eq_true rfl) (by omega)
  have c1 : y / 2 ^ 5 % 2 ^ 5 = 0 := slot_const hw (Nat.le_of_ble_eq_true rfl) (by omega)
  have c2 : y / 2 ^ 19 % 2 ^ 1 = 0 := slot_const hw (Nat.le_of_ble_eq_true rfl) (by omega)
  have f0 : Sys2Proof.fld 4 15 y = d := slot_fld hw (Nat.le_of_ble_eq_true rfl) (by omega)
  have f1 : Sys2Proof.fld 5 10 y = a := slot_fld hw (Nat.le_of_ble_eq_true rfl) (by omega)
  rw [encode_of he, decode_slot hw (Nat.le_of_ble_eq_true rfl) (by omega), decodeOp_42]
  simp only [decodeOp42, slot_hdr hw (Nat.le_of_ble_eq_true rfl) (by omega), c0, c1, c2, f0, f1, true_and, and_true, false_and, and_false, and_self, if_true, if_false, Nat.reduceEqDiff, Nat.reduceDiv]

theorem vmaskFromp (h : Hdr) (d : BitVec 4) (a : BitVec 4) : Statement (.vmaskFromp h d a) := by
  intro _
  have := d.isLt; have := a.isLt
  obtain ⟨y, hw⟩ : ∃ y, y = slotWord h 0x42 (low_15_10b4b4 d a 8) := ⟨_, rfl⟩
  have he : encodeNat (.vmaskFromp h d a) = some y := by rw [hw]; rfl
  unfold low_15_10b4b4 at hw
  have c0 : y / 2 ^ 0 % 2 ^ 10 = 8 := slot_const hw (Nat.le_of_ble_eq_true rfl) (by omega)
  have c1 : y / 2 ^ 5 % 2 ^ 5 = 0 := slot_const hw (Nat.le_of_ble_eq_true rfl) (by omega)
  have c2 : y / 2 ^ 14 % 2 ^ 1 = 0 := slot_const hw (Nat.le_of_ble_eq_true rfl) (by omega)
  have c3 : y / 2 ^ 19 % 2 ^ 1 = 0 := slot_const hw (Nat.le_of_ble_eq_true rfl) (by omega)
  have f0 : Sys2Proof.fld 4 15 y = d := slot_fld hw (Nat.le_of_ble_eq_true rfl) (by omega)
  have f1 : Sys2Proof.fld 4 10 y = a := slot_fld hw (Nat.le_of_ble_eq_true rfl) (by omega)
  rw [encode_of he, decode_slot hw (Nat.le_of_ble_eq_true rfl) (by omega), decodeOp_42]
  simp only [decodeOp42, slot_hdr hw (Nat.le_of_ble_eq_true rfl) (by omega), c0, c1, c2, c3, f0, f1, true_and, and_true, false_and, and_false, and_self, if_true, if_false, Nat.reduceEqDiff, Nat.reduceDiv]

theorem vswz (h : Hdr) (d : BitVec 5) (a : BitVec 5) (c : BitVec 5) (fmt : BitVec 4) : Statement (.vswz h d a c fmt) := by
  intro _
  have := d.isLt; have := a.isLt; have := c.isLt; have := fmt.isLt
  obtain ⟨y, hw⟩ : ∃ y, y = slotWord h 0x43 (low_15_10_5_1b5b5b5b4 d a c fmt 0) := ⟨_, rfl⟩
  have he : encodeNat (.vswz h d a c fmt) = some y := by rw [hw]; rfl
  unfold low_15_10_5_1b5b5b5b4 at hw
  have c0 : y / 2 ^ 0 % 2 ^ 1 = 0 := slot_const hw (Nat.le_of_ble_eq_true rfl) (by omega)
  have f0 : Sys2Proof.fld 5 15 y = d := slot_fld hw (Nat.le_of_ble_eq_true rfl) (by omega)
  have f1 : Sys2Proof.fld 5 10 y = a := slot_fld hw (Nat.le_of_ble_eq_true rfl) (by omega)
  have f2 : Sys2Proof.fld 5 5 y = c := slot_fld hw (Nat.le_of_ble_eq_true rfl) (by omega)
  have f3 : Sys2Proof.fld 4 1 y = fmt := slot_fld hw (Nat.le_of_ble_eq_true rfl) (by omega)
  rw [encode_of he, decode_slot hw (Nat.le_of_ble_eq_true rfl) (by omega), decodeOp_43]
  simp only [decodeOp43, slot_hdr hw (Nat.le_of_ble_eq_true rfl) (by omega), c0, f0, f1, f2, f3, true_and, and_true, false_and, and_false, and_self, if_true, if_false, Nat.reduceEqDiff, Nat.reduceDiv]

theorem vperm (h : Hdr) (d : BitVec 5) (a : BitVec 5) (b : BitVec 5) (fmt : BitVec 4) (x : Bool) : Statement (.vperm h d a b fmt x) := by
  intro _
  have := d.isLt; have := a.isLt; have := b.isLt; have := fmt.isLt; have := Bool.toNat_lt2 x
  obtain ⟨y, hw⟩ : ∃ y, y = slotWord h 0x44 (low_15_10_5_1_0b5b5b5b4b1 d a b fmt x 0) := ⟨_, rfl⟩
  have he : encodeNat (.vperm h d a b fmt x) = some y := by rw [hw]; rfl
  unfold low_15_10_5_1_0b5b5b5b4b1 at hw
  have f0 : Sys2Proof.fld 5 15 y = d := slot_fld hw (Nat.le_of_ble_eq_true rfl) (by omega)
  have f1 : Sys2Proof.fld 5 10 y = a := slot_fld hw (Nat.le_of_ble_eq_true rfl) (by omega)
  have f2 : Sys2Proof.fld 5 5 y = b := slot_fld hw (Nat.le_of_ble_eq_true rfl) (by omega)
  have f3 : Sys2Proof.fld 4 1 y = fmt := slot_fld hw (Nat.le_of_ble_eq_true rfl) (by omega)
  have f4 : flag 0 y = x := slot_flag hw (Nat.le_of_ble_eq_true rfl) (by omega)
  rw [encode_of he, decode_slot hw (Nat.le_of_ble_eq_true rfl) (by omega), decodeOp_44]
  simp only [decodeOp44, slot_hdr hw (Nat.le_of_ble_eq_true rfl) (by omega), f0, f1, f2, f3, f4, true_and, and_true, false_and, and_false, and_self, if_true, if_false, Nat.reduceEqDiff, Nat.reduceDiv]

theorem vbc (h : Hdr) (d : BitVec 5) (a : BitVec 5) (fmt : BitVec 4) : Statement (.vbc h d a fmt) := by
  intro _
  have := d.isLt; have := a.isLt; have := fmt.isLt
  obtain ⟨y, hw⟩ : ∃ y, y = slotWord h 0x45 (low_15_10_1b5b5b4 d a fmt 0) := ⟨_, rfl⟩
  have he : encodeNat (.vbc h d a fmt) = some y := by rw [hw]; rfl
  unfold low_15_10_1b5b5b4 at hw
  have c0 : y / 2 ^ 0 % 2 ^ 1 = 0 := slot_const hw (Nat.le_of_ble_eq_true rfl) (by omega)
  have c1 : y / 2 ^ 5 % 2 ^ 5 = 0 := slot_const hw (Nat.le_of_ble_eq_true rfl) (by omega)
  have f0 : Sys2Proof.fld 5 15 y = d := slot_fld hw (Nat.le_of_ble_eq_true rfl) (by omega)
  have f1 : Sys2Proof.fld 5 10 y = a := slot_fld hw (Nat.le_of_ble_eq_true rfl) (by omega)
  have f2 : Sys2Proof.fld 4 1 y = fmt := slot_fld hw (Nat.le_of_ble_eq_true rfl) (by omega)
  rw [encode_of he, decode_slot hw (Nat.le_of_ble_eq_true rfl) (by omega), decodeOp_45]
  simp only [decodeOp45, slot_hdr hw (Nat.le_of_ble_eq_true rfl) (by omega), c0, c1, f0, f1, f2, true_and, and_true, false_and, and_false, and_self, if_true, if_false, Nat.reduceEqDiff, Nat.reduceDiv]

theorem vbcLane (h : Hdr) (d : BitVec 5) (a : BitVec 5) (b : BitVec 5) (fmt : BitVec 4) : Statement (.vbcLane h d a b fmt) := by
  intro _
  have := d.isLt; have := a.isLt; have := b.isLt; have := fmt.isLt
  obtain ⟨y, hw⟩ : ∃ y, y = slotWord h 0x45 (low_15_10_5_1b5b5b5b4 d a b fmt 1) := ⟨_, rfl⟩
  have he : encodeNat (.vbcLane h d a b fmt) = some y := by rw [hw]; rfl
  unfold low_15_10_5_1b5b5b5b4 at hw
  have c0 : y / 2 ^ 0 % 2 ^ 1 = 1 := slot_const hw (Nat.le_of_ble_eq_true rfl) (by omega)
  have f0 : Sys2Proof.fld 5 15 y = d := slot_fld hw (Nat.le_of_ble_eq_true rfl) (by omega)
  have f1 : Sys2Proof.fld 5 10 y = a := slot_fld hw (Nat.le_of_ble_eq_true rfl) (by omega)
  have f2 : Sys2Proof.fld 5 5 y = b := slot_fld hw (Nat.le_of_ble_eq_true rfl) (by omega)
  have f3 : Sys2Proof.fld 4 1 y = fmt := slot_fld hw (Nat.le_of_ble_eq_true rfl) (by omega)
  rw [encode_of he, decode_slot hw (Nat.le_of_ble_eq_true rfl) (by omega), decodeOp_45]
  simp only [decodeOp45, slot_hdr hw (Nat.le_of_ble_eq_true rfl) (by omega), c0, f0, f1, f2, f3, true_and, and_true, false_and, and_false, and_self, if_true, if_false, Nat.reduceEqDiff, Nat.reduceDiv]

theorem vrsum (h : Hdr) (d : BitVec 5) (a : BitVec 5) (mk : BitVec 4) (fmt : BitVec 4) : Statement (.vrsum h d a mk fmt) := by
  intro _
  have := d.isLt; have := a.isLt; have := mk.isLt; have := fmt.isLt
  obtain ⟨y, hw⟩ : ∃ y, y = slotWord h 0x46 (low_15_10_5_1b5b5b4b4 d a mk fmt 0) := ⟨_, rfl⟩
  have he : encodeNat (.vrsum h d a mk fmt) = some y := by rw [hw]; rfl
  unfold low_15_10_5_1b5b5b4b4 at hw
  have c0 : y / 2 ^ 0 % 2 ^ 1 = 0 := slot_const hw (Nat.le_of_ble_eq_true rfl) (by omega)
  have c1 : y / 2 ^ 9 % 2 ^ 1 = 0 := slot_const hw (Nat.le_of_ble_eq_true rfl) (by omega)
  have f0 : Sys2Proof.fld 5 15 y = d := slot_fld hw (Nat.le_of_ble_eq_true rfl) (by omega)
  have f1 : Sys2Proof.fld 5 10 y = a := slot_fld hw (Nat.le_of_ble_eq_true rfl) (by omega)
  have f2 : Sys2Proof.fld 4 5 y = mk := slot_fld hw (Nat.le_of_ble_eq_true rfl) (by omega)
  have f3 : Sys2Proof.fld 4 1 y = fmt := slot_fld hw (Nat.le_of_ble_eq_true rfl) (by omega)
  rw [encode_of he, decode_slot hw (Nat.le_of_ble_eq_true rfl) (by omega), decodeOp_46]
  simp only [decodeOp46, slot_hdr hw (Nat.le_of_ble_eq_true rfl) (by omega), c0, c1, f0, f1, f2, f3, true_and, and_true, false_and, and_false, and_self, if_true, if_false, Nat.reduceEqDiff, Nat.reduceDiv]

theorem vrmax (h : Hdr) (d : BitVec 5) (a : BitVec 5) (mk : BitVec 4) (fmt : BitVec 4) : Statement (.vrmax h d a mk fmt) := by
  intro _
  have := d.isLt; have := a.isLt; have := mk.isLt; have := fmt.isLt
  obtain ⟨y, hw⟩ : ∃ y, y = slotWord h 0x46 (low_15_10_5_1b5b5b4b4 d a mk fmt 1) := ⟨_, rfl⟩
  have he : encodeNat (.vrmax h d a mk fmt) = some y := by rw [hw]; rfl
  unfold low_15_10_5_1b5b5b4b4 at hw
  have c0 : y / 2 ^ 0 % 2 ^ 1 = 1 := slot_const hw (Nat.le_of_ble_eq_true rfl) (by omega)
  have c1 : y / 2 ^ 9 % 2 ^ 1 = 0 := slot_const hw (Nat.le_of_ble_eq_true rfl) (by omega)
  have f0 : Sys2Proof.fld 5 15 y = d := slot_fld hw (Nat.le_of_ble_eq_true rfl) (by omega)
  have f1 : Sys2Proof.fld 5 10 y = a := slot_fld hw (Nat.le_of_ble_eq_true rfl) (by omega)
  have f2 : Sys2Proof.fld 4 5 y = mk := slot_fld hw (Nat.le_of_ble_eq_true rfl) (by omega)
  have f3 : Sys2Proof.fld 4 1 y = fmt := slot_fld hw (Nat.le_of_ble_eq_true rfl) (by omega)
  rw [encode_of he, decode_slot hw (Nat.le_of_ble_eq_true rfl) (by omega), decodeOp_46]
  simp only [decodeOp46, slot_hdr hw (Nat.le_of_ble_eq_true rfl) (by omega), c0, c1, f0, f1, f2, f3, true_and, and_true, false_and, and_false, and_self, if_true, if_false, Nat.reduceEqDiff, Nat.reduceDiv]

theorem vrmin (h : Hdr) (d : BitVec 5) (a : BitVec 5) (mk : BitVec 4) (fmt : BitVec 4) : Statement (.vrmin h d a mk fmt) := by
  intro _
  have := d.isLt; have := a.isLt; have := mk.isLt; have := fmt.isLt
  obtain ⟨y, hw⟩ : ∃ y, y = slotWord h 0x46 (low_15_10_5_1b5b5b4b4 d a mk fmt 512) := ⟨_, rfl⟩
  have he : encodeNat (.vrmin h d a mk fmt) = some y := by rw [hw]; rfl
  unfold low_15_10_5_1b5b5b4b4 at hw
  have c0 : y / 2 ^ 0 % 2 ^ 1 = 0 := slot_const hw (Nat.le_of_ble_eq_true rfl) (by omega)
  have c1 : y / 2 ^ 9 % 2 ^ 1 = 1 := slot_const hw (Nat.le_of_ble_eq_true rfl) (by omega)
  have f0 : Sys2Proof.fld 5 15 y = d := slot_fld hw (Nat.le_of_ble_eq_true rfl) (by omega)
  have f1 : Sys2Proof.fld 5 10 y = a := slot_fld hw (Nat.le_of_ble_eq_true rfl) (by omega)
  have f2 : Sys2Proof.fld 4 5 y = mk := slot_fld hw (Nat.le_of_ble_eq_true rfl) (by omega)
  have f3 : Sys2Proof.fld 4 1 y = fmt := slot_fld hw (Nat.le_of_ble_eq_true rfl) (by omega)
  rw [encode_of he, decode_slot hw (Nat.le_of_ble_eq_true rfl) (by omega), decodeOp_46]
  simp only [decodeOp46, slot_hdr hw (Nat.le_of_ble_eq_true rfl) (by omega), c0, c1, f0, f1, f2, f3, true_and, and_true, false_and, and_false, and_self, if_true, if_false, Nat.reduceEqDiff, Nat.reduceDiv]

theorem vcvt (h : Hdr) (d : BitVec 5) (a : BitVec 5) (rnd : BitVec 5) (fmt : BitVec 4) : Statement (.vcvt h d a rnd fmt) := by
  intro _
  have := d.isLt; have := a.isLt; have := rnd.isLt; have := fmt.isLt
  obtain ⟨y, hw⟩ : ∃ y, y = slotWord h 0x47 (low_15_10_5_1b5b5b5b4 d a rnd fmt 0) := ⟨_, rfl⟩
  have he : encodeNat (.vcvt h d a rnd fmt) = some y := by rw [hw]; rfl
  unfold low_15_10_5_1b5b5b5b4 at hw
  have c0 : y / 2 ^ 0 % 2 ^ 1 = 0 := slot_const hw (Nat.le_of_ble_eq_true rfl) (by omega)
  have f0 : Sys2Proof.fld 5 15 y = d := slot_fld hw (Nat.le_of_ble_eq_true rfl) (by omega)
  have f1 : Sys2Proof.fld 5 10 y = a := slot_fld hw (Nat.le_of_ble_eq_true rfl) (by omega)
  have f2 : Sys2Proof.fld 5 5 y = rnd := slot_fld hw (Nat.le_of_ble_eq_true rfl) (by omega)
  have f3 : Sys2Proof.fld 4 1 y = fmt := slot_fld hw (Nat.le_of_ble_eq_true rfl) (by omega)
  rw [encode_of he, decode_slot hw (Nat.le_of_ble_eq_true rfl) (by omega), decodeOp_47]
  simp only [decodeOp47, slot_hdr hw (Nat.le_of_ble_eq_true rfl) (by omega), c0, f0, f1, f2, f3, true_and, and_true, false_and, and_false, and_self, if_true, if_false, Nat.reduceEqDiff, Nat.reduceDiv]

theorem vcvf (h : Hdr) (d : BitVec 5) (a : BitVec 5) (rnd : BitVec 5) (fmt : BitVec 4) : Statement (.vcvf h d a rnd fmt) := by
  intro _
  have := d.isLt; have := a.isLt; have := rnd.isLt; have := fmt.isLt
  obtain ⟨y, hw⟩ : ∃ y, y = slotWord h 0x47 (low_15_10_5_1b5b5b5b4 d a rnd fmt 1) := ⟨_, rfl⟩
  have he : encodeNat (.vcvf h d a rnd fmt) = some y := by rw [hw]; rfl
  unfold low_15_10_5_1b5b5b5b4 at hw
  have c0 : y / 2 ^ 0 % 2 ^ 1 = 1 := slot_const hw (Nat.le_of_ble_eq_true rfl) (by omega)
  have f0 : Sys2Proof.fld 5 15 y = d := slot_fld hw (Nat.le_of_ble_eq_true rfl) (by omega)
  have f1 : Sys2Proof.fld 5 10 y = a := slot_fld hw (Nat.le_of_ble_eq_true rfl) (by omega)
  have f2 : Sys2Proof.fld 5 5 y = rnd := slot_fld hw (Nat.le_of_ble_eq_true rfl) (by omega)
  have f3 : Sys2Proof.fld 4 1 y = fmt := slot_fld hw (Nat.le_of_ble_eq_true rfl) (by omega)
  rw [encode_of he, decode_slot hw (Nat.le_of_ble_eq_true rfl) (by omega), decodeOp_47]
  simp only [decodeOp47, slot_hdr hw (Nat.le_of_ble_eq_true rfl) (by omega), c0, f0, f1, f2, f3, true_and, and_true, false_and, and_false, and_self, if_true, if_false, Nat.reduceEqDiff, Nat.reduceDiv]

theorem vsxp (h : Hdr) (d : BitVec 5) (a : BitVec 5) (rnd : BitVec 5) (fmt : BitVec 4) (x : Bool) : Statement (.vsxp h d a rnd fmt x) := by
  intro _
  have := d.isLt; have := a.isLt; have := rnd.isLt; have := fmt.isLt; have := Bool.toNat_lt2 x
  obtain ⟨y, hw⟩ : ∃ y, y = slotWord h 0x48 (low_15_10_5_1_0b5b5b5b4b1 d a rnd fmt x 0) := ⟨_, rfl⟩
  have he : encodeNat (.vsxp h d a rnd fmt x) = some y := by rw [hw]; rfl
  unfold low_15_10_5_1_0b5b5b5b4b1 at hw
  have f0 : Sys2Proof.fld 5 15 y = d := slot_fld hw (Nat.le_of_ble_eq_true rfl) (by omega)
  have f1 : Sys2Proof.fld 5 10 y = a := slot_fld hw (Nat.le_of_ble_eq_true rfl) (by omega)
  have f2 : Sys2Proof.fld 5 5 y = rnd := slot_fld hw (Nat.le_of_ble_eq_true rfl) (by omega)
  have f3 : Sys2Proof.fld 4 1 y = fmt := slot_fld hw (Nat.le_of_ble_eq_true rfl) (by omega)
  have f4 : flag 0 y = x := slot_flag hw (Nat.le_of_ble_eq_true rfl) (by omega)
  rw [encode_of he, decode_slot hw (Nat.le_of_ble_eq_true rfl) (by omega), decodeOp_48]
  simp only [decodeOp48, slot_hdr hw (Nat.le_of_ble_eq_true rfl) (by omega), f0, f1, f2, f3, f4, true_and, and_true, false_and, and_false, and_self, if_true, if_false, Nat.reduceEqDiff, Nat.reduceDiv]

theorem vplnSplit (h : Hdr) (d : BitVec 5) (a : BitVec 5) (b32 : Bool) (pl : BitVec 2) (fmt : BitVec 4) : Statement (.vplnSplit h d a b32 pl fmt) := by
  intro _
  have := d.isLt; have := a.isLt; have := Bool.toNat_lt2 b32; have := pl.isLt; have := fmt.isLt
  obtain ⟨y, hw⟩ : ∃ y, y = slotWord h 0x49 (low_15_10_7_5_1b5b5b1b2b4 d a b32 pl fmt 0) := ⟨_, rfl⟩
  have he : encodeNat (.vplnSplit h d a b32 pl fmt) = some y := by rw [hw]; rfl
  unfold low_15_10_7_5_1b5b5b1b2b4 at hw
  have c0 : y / 2 ^ 0 % 2 ^ 1 = 0 := slot_const hw (Nat.le_of_ble_eq_true rfl) (by omega)
  have c1 : y / 2 ^ 8 % 2 ^ 2 = 0 := slot_const hw (Nat.le_of_ble_eq_true rfl) (by omega)
  have f0 : Sys2Proof.fld 5 15 y = d := slot_fld hw (Nat.le_of_ble_eq_true rfl) (by omega)
  have f1 : Sys2Proof.fld 5 10 y = a := slot_fld hw (Nat.le_of_ble_eq_true rfl) (by omega)
  have f2 : flag 7 y = b32 := slot_flag hw (Nat.le_of_ble_eq_true rfl) (by omega)
  have f3 : Sys2Proof.fld 2 5 y = pl := slot_fld hw (Nat.le_of_ble_eq_true rfl) (by omega)
  have f4 : Sys2Proof.fld 4 1 y = fmt := slot_fld hw (Nat.le_of_ble_eq_true rfl) (by omega)
  rw [encode_of he, decode_slot hw (Nat.le_of_ble_eq_true rfl) (by omega), decodeOp_49]
  simp only [decodeOp49, slot_hdr hw (Nat.le_of_ble_eq_true rfl) (by omega), c0, c1, f0, f1, f2, f3, f4, true_and, and_true, false_and, and_false, and_self, if_true, if_false, Nat.reduceEqDiff, Nat.reduceDiv]

theorem vplnJoin (h : Hdr) (d : BitVec 5) (a : BitVec 5) (b32 : Bool) (pl : BitVec 2) (fmt : BitVec 4) : Statement (.vplnJoin h d a b32 pl fmt) := by
  intro _
  have := d.isLt; have := a.isLt; have := Bool.toNat_lt2 b32; have := pl.isLt; have := fmt.isLt
  obtain ⟨y, hw⟩ : ∃ y, y = slotWord h 0x49 (low_15_10_7_5_1b5b5b1b2b4 d a b32 pl fmt 1) := ⟨_, rfl⟩
  have he : encodeNat (.vplnJoin h d a b32 pl fmt) = some y := by rw [hw]; rfl
  unfold low_15_10_7_5_1b5b5b1b2b4 at hw
  have c0 : y / 2 ^ 0 % 2 ^ 1 = 1 := slot_const hw (Nat.le_of_ble_eq_true rfl) (by omega)
  have c1 : y / 2 ^ 8 % 2 ^ 2 = 0 := slot_const hw (Nat.le_of_ble_eq_true rfl) (by omega)
  have f0 : Sys2Proof.fld 5 15 y = d := slot_fld hw (Nat.le_of_ble_eq_true rfl) (by omega)
  have f1 : Sys2Proof.fld 5 10 y = a := slot_fld hw (Nat.le_of_ble_eq_true rfl) (by omega)
  have f2 : flag 7 y = b32 := slot_flag hw (Nat.le_of_ble_eq_true rfl) (by omega)
  have f3 : Sys2Proof.fld 2 5 y = pl := slot_fld hw (Nat.le_of_ble_eq_true rfl) (by omega)
  have f4 : Sys2Proof.fld 4 1 y = fmt := slot_fld hw (Nat.le_of_ble_eq_true rfl) (by omega)
  rw [encode_of he, decode_slot hw (Nat.le_of_ble_eq_true rfl) (by omega), decodeOp_49]
  simp only [decodeOp49, slot_hdr hw (Nat.le_of_ble_eq_true rfl) (by omega), c0, c1, f0, f1, f2, f3, f4, true_and, and_true, false_and, and_false, and_self, if_true, if_false, Nat.reduceEqDiff, Nat.reduceDiv]

theorem vdiv (h : Hdr) (d : BitVec 5) (a : BitVec 5) (b : BitVec 5) (fmt : BitVec 4) (x : Bool) : Statement (.vdiv h d a b fmt x) := by
  intro _
  have := d.isLt; have := a.isLt; have := b.isLt; have := fmt.isLt; have := Bool.toNat_lt2 x
  obtain ⟨y, hw⟩ : ∃ y, y = slotWord h 0x4A (low_15_10_5_1_0b5b5b5b4b1 d a b fmt x 0) := ⟨_, rfl⟩
  have he : encodeNat (.vdiv h d a b fmt x) = some y := by rw [hw]; rfl
  unfold low_15_10_5_1_0b5b5b5b4b1 at hw
  have f0 : Sys2Proof.fld 5 15 y = d := slot_fld hw (Nat.le_of_ble_eq_true rfl) (by omega)
  have f1 : Sys2Proof.fld 5 10 y = a := slot_fld hw (Nat.le_of_ble_eq_true rfl) (by omega)
  have f2 : Sys2Proof.fld 5 5 y = b := slot_fld hw (Nat.le_of_ble_eq_true rfl) (by omega)
  have f3 : Sys2Proof.fld 4 1 y = fmt := slot_fld hw (Nat.le_of_ble_eq_true rfl) (by omega)
  have f4 : flag 0 y = x := slot_flag hw (Nat.le_of_ble_eq_true rfl) (by omega)
  rw [encode_of he, decode_slot hw (Nat.le_of_ble_eq_true rfl) (by omega), decodeOp_4A]
  simp only [decodeOp4A, slot_hdr hw (Nat.le_of_ble_eq_true rfl) (by omega), f0, f1, f2, f3, f4, true_and, and_true, false_and, and_false, and_self, if_true, if_false, Nat.reduceEqDiff, Nat.reduceDiv]

theorem vupd (h : Hdr) (d : BitVec 5) (a : BitVec 5) (b : BitVec 5) (fmt : BitVec 4) (x : Bool) : Statement (.vupd h d a b fmt x) := by
  intro _
  have := d.isLt; have := a.isLt; have := b.isLt; have := fmt.isLt; have := Bool.toNat_lt2 x
  obtain ⟨y, hw⟩ : ∃ y, y = slotWord h 0x4B (low_15_10_5_1_0b5b5b5b4b1 d a b fmt x 0) := ⟨_, rfl⟩
  have he : encodeNat (.vupd h d a b fmt x) = some y := by rw [hw]; rfl
  unfold low_15_10_5_1_0b5b5b5b4b1 at hw
  have f0 : Sys2Proof.fld 5 15 y = d := slot_fld hw (Nat.le_of_ble_eq_true rfl) (by omega)
  have f1 : Sys2Proof.fld 5 10 y = a := slot_fld hw (Nat.le_of_ble_eq_true rfl) (by omega)
  have f2 : Sys2Proof.fld 5 5 y = b := slot_fld hw (Nat.le_of_ble_eq_true rfl) (by omega)
  have f3 : Sys2Proof.fld 4 1 y = fmt := slot_fld hw (Nat.le_of_ble_eq_true rfl) (by omega)
  have f4 : flag 0 y = x := slot_flag hw (Nat.le_of_ble_eq_true rfl) (by omega)
  rw [encode_of he, decode_slot hw (Nat.le_of_ble_eq_true rfl) (by omega), decodeOp_4B]
  simp only [decodeOp4B, slot_hdr hw (Nat.le_of_ble_eq_true rfl) (by omega), f0, f1, f2, f3, f4, true_and, and_true, false_and, and_false, and_self, if_true, if_false, Nat.reduceEqDiff, Nat.reduceDiv]

theorem vidx (h : Hdr) (d : BitVec 5) (a : BitVec 5) (b : BitVec 5) (fmt : BitVec 4) : Statement (.vidx h d a b fmt) := by
  intro _
  have := d.isLt; have := a.isLt; have := b.isLt; have := fmt.isLt
  obtain ⟨y, hw⟩ : ∃ y, y = slotWord h 0x4C (low_15_10_5_1b5b5b5b4 d a b fmt 0) := ⟨_, rfl⟩
  have he : encodeNat (.vidx h d a b fmt) = some y := by rw [hw]; rfl
  unfold low_15_10_5_1b5b5b5b4 at hw
  have c0 : y / 2 ^ 0 % 2 ^ 1 = 0 := slot_const hw (Nat.le_of_ble_eq_true rfl) (by omega)
  have f0 : Sys2Proof.fld 5 15 y = d := slot_fld hw (Nat.le_of_ble_eq_true rfl) (by omega)
  have f1 : Sys2Proof.fld 5 10 y = a := slot_fld hw (Nat.le_of_ble_eq_true rfl) (by omega)
  have f2 : Sys2Proof.fld 5 5 y = b := slot_fld hw (Nat.le_of_ble_eq_true rfl) (by omega)
  have f3 : Sys2Proof.fld 4 1 y = fmt := slot_fld hw (Nat.le_of_ble_eq_true rfl) (by omega)
  rw [encode_of he, decode_slot hw (Nat.le_of_ble_eq_true rfl) (by omega), decodeOp_4C]
  simp only [decodeOp4C, slot_hdr hw (Nat.le_of_ble_eq_true rfl) (by omega), c0, f0, f1, f2, f3, true_and, and_true, false_and, and_false, and_self, if_true, if_false, Nat.reduceEqDiff, Nat.reduceDiv]

theorem vdot (h : Hdr) (d : BitVec 5) (a : BitVec 5) (b : BitVec 5) (fmt : BitVec 4) (x : Bool) : Statement (.vdot h d a b fmt x) := by
  intro _
  have := d.isLt; have := a.isLt; have := b.isLt; have := fmt.isLt; have := Bool.toNat_lt2 x
  obtain ⟨y, hw⟩ : ∃ y, y = slotWord h 0x4D (low_15_10_5_1_0b5b5b5b4b1 d a b fmt x 0) := ⟨_, rfl⟩
  have he : encodeNat (.vdot h d a b fmt x) = some y := by rw [hw]; rfl
  unfold low_15_10_5_1_0b5b5b5b4b1 at hw
  have f0 : Sys2Proof.fld 5 15 y = d := slot_fld hw (Nat.le_of_ble_eq_true rfl) (by omega)
  have f1 : Sys2Proof.fld 5 10 y = a := slot_fld hw (Nat.le_of_ble_eq_true rfl) (by omega)
  have f2 : Sys2Proof.fld 5 5 y = b := slot_fld hw (Nat.le_of_ble_eq_true rfl) (by omega)
  have f3 : Sys2Proof.fld 4 1 y = fmt := slot_fld hw (Nat.le_of_ble_eq_true rfl) (by omega)
  have f4 : flag 0 y = x := slot_flag hw (Nat.le_of_ble_eq_true rfl) (by omega)
  rw [encode_of he, decode_slot hw (Nat.le_of_ble_eq_true rfl) (by omega), decodeOp_4D]
  simp only [decodeOp4D, slot_hdr hw (Nat.le_of_ble_eq_true rfl) (by omega), f0, f1, f2, f3, f4, true_and, and_true, false_and, and_false, and_self, if_true, if_false, Nat.reduceEqDiff, Nat.reduceDiv]

theorem vrnd (h : Hdr) (d : BitVec 5) (a : BitVec 5) (rnd : BitVec 5) (fmt : BitVec 4) : Statement (.vrnd h d a rnd fmt) := by
  intro _
  have := d.isLt; have := a.isLt; have := rnd.isLt; have := fmt.isLt
  obtain ⟨y, hw⟩ : ∃ y, y = slotWord h 0x4E (low_15_10_5_1b5b5b5b4 d a rnd fmt 0) := ⟨_, rfl⟩
  have he : encodeNat (.vrnd h d a rnd fmt) = some y := by rw [hw]; rfl
  unfold low_15_10_5_1b5b5b5b4 at hw
  have c0 : y / 2 ^ 0 % 2 ^ 1 = 0 := slot_const hw (Nat.le_of_ble_eq_true rfl) (by omega)
  have f0 : Sys2Proof.fld 5 15 y = d := slot_fld hw (Nat.le_of_ble_eq_true rfl) (by omega)
  have f1 : Sys2Proof.fld 5 10 y = a := slot_fld hw (Nat.le_of_ble_eq_true rfl) (by omega)
  have f2 : Sys2Proof.fld 5 5 y = rnd := slot_fld hw (Nat.le_of_ble_eq_true rfl) (by omega)
  have f3 : Sys2Proof.fld 4 1 y = fmt := slot_fld hw (Nat.le_of_ble_eq_true rfl) (by omega)
  rw [encode_of he, decode_slot hw (Nat.le_of_ble_eq_true rfl) (by omega), decodeOp_4E]
  simp only [decodeOp4E, slot_hdr hw (Nat.le_of_ble_eq_true rfl) (by omega), c0, f0, f1, f2, f3, true_and, and_true, false_and, and_false, and_self, if_true, if_false, Nat.reduceEqDiff, Nat.reduceDiv]

theorem vhash (h : Hdr) (d : BitVec 5) (a : BitVec 5) (b : BitVec 5) (fmt : BitVec 4) (x : Bool) : Statement (.vhash h d a b fmt x) := by
  intro _
  have := d.isLt; have := a.isLt; have := b.isLt; have := fmt.isLt; have := Bool.toNat_lt2 x
  obtain ⟨y, hw⟩ : ∃ y, y = slotWord h 0x4F (low_15_10_5_1_0b5b5b5b4b1 d a b fmt x 0) := ⟨_, rfl⟩
  have he : encodeNat (.vhash h d a b fmt x) = some y := by rw [hw]; rfl
  unfold low_15_10_5_1_0b5b5b5b4b1 at hw
  have f0 : Sys2Proof.fld 5 15 y = d := slot_fld hw (Nat.le_of_ble_eq_true rfl) (by omega)
  have f1 : Sys2Proof.fld 5 10 y = a := slot_fld hw (Nat.le_of_ble_eq_true rfl) (by omega)
  have f2 : Sys2Proof.fld 5 5 y = b := slot_fld hw (Nat.le_of_ble_eq_true rfl) (by omega)
  have f3 : Sys2Proof.fld 4 1 y = fmt := slot_fld hw (Nat.le_of_ble_eq_true rfl) (by omega)
  have f4 : flag 0 y = x := slot_flag hw (Nat.le_of_ble_eq_true rfl) (by omega)
  rw [encode_of he, decode_slot hw (Nat.le_of_ble_eq_true rfl) (by omega), decodeOp_4F]
  simp only [decodeOp4F, slot_hdr hw (Nat.le_of_ble_eq_true rfl) (by omega), f0, f1, f2, f3, f4, true_and, and_true, false_and, and_false, and_self, if_true, if_false, Nat.reduceEqDiff, Nat.reduceDiv]

theorem xsin (h : Hdr) (d : BitVec 5) (a : BitVec 5) (fmt : BitVec 4) : Statement (.xsin h d a fmt) := by
  intro _
  have := d.isLt; have := a.isLt; have := fmt.isLt
  obtain ⟨y, hw⟩ : ∃ y, y = slotWord h 0x50 (low_15_10_1b5b5b4 d a fmt 0) := ⟨_, rfl⟩
  have he : encodeNat (.xsin h d a fmt) = some y := by rw [hw]; rfl
  unfold low_15_10_1b5b5b4 at hw
  have c0 : y / 2 ^ 0 % 2 ^ 1 = 0 := slot_const hw (Nat.le_of_ble_eq_true rfl) (by omega)
  have c1 : y / 2 ^ 5 % 2 ^ 5 = 0 := slot_const hw (Nat.le_of_ble_eq_true rfl) (by omega)
  have f0 : Sys2Proof.fld 5 15 y = d := slot_fld hw (Nat.le_of_ble_eq_true rfl) (by omega)
  have f1 : Sys2Proof.fld 5 10 y = a := slot_fld hw (Nat.le_of_ble_eq_true rfl) (by omega)
  have f2 : Sys2Proof.fld 4 1 y = fmt := slot_fld hw (Nat.le_of_ble_eq_true rfl) (by omega)
  rw [encode_of he, decode_slot hw (Nat.le_of_ble_eq_true rfl) (by omega), decodeOp_50]
  simp only [decodeOp50, slot_hdr hw (Nat.le_of_ble_eq_true rfl) (by omega), c0, c1, f0, f1, f2, true_and, and_true, false_and, and_false, and_self, if_true, if_false, Nat.reduceEqDiff, Nat.reduceDiv]

theorem xcos (h : Hdr) (d : BitVec 5) (a : BitVec 5) (fmt : BitVec 4) : Statement (.xcos h d a fmt) := by
  intro _
  have := d.isLt; have := a.isLt; have := fmt.isLt
  obtain ⟨y, hw⟩ : ∃ y, y = slotWord h 0x50 (low_15_10_1b5b5b4 d a fmt 1) := ⟨_, rfl⟩
  have he : encodeNat (.xcos h d a fmt) = some y := by rw [hw]; rfl
  unfold low_15_10_1b5b5b4 at hw
  have c0 : y / 2 ^ 0 % 2 ^ 1 = 1 := slot_const hw (Nat.le_of_ble_eq_true rfl) (by omega)
  have c1 : y / 2 ^ 5 % 2 ^ 5 = 0 := slot_const hw (Nat.le_of_ble_eq_true rfl) (by omega)
  have f0 : Sys2Proof.fld 5 15 y = d := slot_fld hw (Nat.le_of_ble_eq_true rfl) (by omega)
  have f1 : Sys2Proof.fld 5 10 y = a := slot_fld hw (Nat.le_of_ble_eq_true rfl) (by omega)
  have f2 : Sys2Proof.fld 4 1 y = fmt := slot_fld hw (Nat.le_of_ble_eq_true rfl) (by omega)
  rw [encode_of he, decode_slot hw (Nat.le_of_ble_eq_true rfl) (by omega), decodeOp_50]
  simp only [decodeOp50, slot_hdr hw (Nat.le_of_ble_eq_true rfl) (by omega), c0, c1, f0, f1, f2, true_and, and_true, false_and, and_false, and_self, if_true, if_false, Nat.reduceEqDiff, Nat.reduceDiv]

theorem xex2 (h : Hdr) (d : BitVec 5) (a : BitVec 5) (fmt : BitVec 4) : Statement (.xex2 h d a fmt) := by
  intro _
  have := d.isLt; have := a.isLt; have := fmt.isLt
  obtain ⟨y, hw⟩ : ∃ y, y = slotWord h 0x51 (low_15_10_1b5b5b4 d a fmt 0) := ⟨_, rfl⟩
  have he : encodeNat (.xex2 h d a fmt) = some y := by rw [hw]; rfl
  unfold low_15_10_1b5b5b4 at hw
  have c0 : y / 2 ^ 0 % 2 ^ 1 = 0 := slot_const hw (Nat.le_of_ble_eq_true rfl) (by omega)
  have c1 : y / 2 ^ 5 % 2 ^ 5 = 0 := slot_const hw (Nat.le_of_ble_eq_true rfl) (by omega)
  have f0 : Sys2Proof.fld 5 15 y = d := slot_fld hw (Nat.le_of_ble_eq_true rfl) (by omega)
  have f1 : Sys2Proof.fld 5 10 y = a := slot_fld hw (Nat.le_of_ble_eq_true rfl) (by omega)
  have f2 : Sys2Proof.fld 4 1 y = fmt := slot_fld hw (Nat.le_of_ble_eq_true rfl) (by omega)
  rw [encode_of he, decode_slot hw (Nat.le_of_ble_eq_true rfl) (by omega), decodeOp_51]
  simp only [decodeOp51, slot_hdr hw (Nat.le_of_ble_eq_true rfl) (by omega), c0, c1, f0, f1, f2, true_and, and_true, false_and, and_false, and_self, if_true, if_false, Nat.reduceEqDiff, Nat.reduceDiv]

theorem xlg2 (h : Hdr) (d : BitVec 5) (a : BitVec 5) (fmt : BitVec 4) : Statement (.xlg2 h d a fmt) := by
  intro _
  have := d.isLt; have := a.isLt; have := fmt.isLt
  obtain ⟨y, hw⟩ : ∃ y, y = slotWord h 0x51 (low_15_10_1b5b5b4 d a fmt 1) := ⟨_, rfl⟩
  have he : encodeNat (.xlg2 h d a fmt) = some y := by rw [hw]; rfl
  unfold low_15_10_1b5b5b4 at hw
  have c0 : y / 2 ^ 0 % 2 ^ 1 = 1 := slot_const hw (Nat.le_of_ble_eq_true rfl) (by omega)
  have c1 : y / 2 ^ 5 % 2 ^ 5 = 0 := slot_const hw (Nat.le_of_ble_eq_true rfl) (by omega)
  have f0 : Sys2Proof.fld 5 15 y = d := slot_fld hw (Nat.le_of_ble_eq_true rfl) (by omega)
  have f1 : Sys2Proof.fld 5 10 y = a := slot_fld hw (Nat.le_of_ble_eq_true rfl) (by omega)
  have f2 : Sys2Proof.fld 4 1 y = fmt := slot_fld hw (Nat.le_of_ble_eq_true rfl) (by omega)
  rw [encode_of he, decode_slot hw (Nat.le_of_ble_eq_true rfl) (by omega), decodeOp_51]
  simp only [decodeOp51, slot_hdr hw (Nat.le_of_ble_eq_true rfl) (by omega), c0, c1, f0, f1, f2, true_and, and_true, false_and, and_false, and_self, if_true, if_false, Nat.reduceEqDiff, Nat.reduceDiv]

theorem xrcp (h : Hdr) (d : BitVec 5) (a : BitVec 5) (fmt : BitVec 4) : Statement (.xrcp h d a fmt) := by
  intro _
  have := d.isLt; have := a.isLt; have := fmt.isLt
  obtain ⟨y, hw⟩ : ∃ y, y = slotWord h 0x52 (low_15_10_1b5b5b4 d a fmt 0) := ⟨_, rfl⟩
  have he : encodeNat (.xrcp h d a fmt) = some y := by rw [hw]; rfl
  unfold low_15_10_1b5b5b4 at hw
  have c0 : y / 2 ^ 0 % 2 ^ 1 = 0 := slot_const hw (Nat.le_of_ble_eq_true rfl) (by omega)
  have c1 : y / 2 ^ 5 % 2 ^ 5 = 0 := slot_const hw (Nat.le_of_ble_eq_true rfl) (by omega)
  have f0 : Sys2Proof.fld 5 15 y = d := slot_fld hw (Nat.le_of_ble_eq_true rfl) (by omega)
  have f1 : Sys2Proof.fld 5 10 y = a := slot_fld hw (Nat.le_of_ble_eq_true rfl) (by omega)
  have f2 : Sys2Proof.fld 4 1 y = fmt := slot_fld hw (Nat.le_of_ble_eq_true rfl) (by omega)
  rw [encode_of he, decode_slot hw (Nat.le_of_ble_eq_true rfl) (by omega), decodeOp_52]
  simp only [decodeOp52, slot_hdr hw (Nat.le_of_ble_eq_true rfl) (by omega), c0, c1, f0, f1, f2, true_and, and_true, false_and, and_false, and_self, if_true, if_false, Nat.reduceEqDiff, Nat.reduceDiv]

theorem xrsq (h : Hdr) (d : BitVec 5) (a : BitVec 5) (fmt : BitVec 4) : Statement (.xrsq h d a fmt) := by
  intro _
  have := d.isLt; have := a.isLt; have := fmt.isLt
  obtain ⟨y, hw⟩ : ∃ y, y = slotWord h 0x52 (low_15_10_1b5b5b4 d a fmt 1) := ⟨_, rfl⟩
  have he : encodeNat (.xrsq h d a fmt) = some y := by rw [hw]; rfl
  unfold low_15_10_1b5b5b4 at hw
  have c0 : y / 2 ^ 0 % 2 ^ 1 = 1 := slot_const hw (Nat.le_of_ble_eq_true rfl) (by omega)
  have c1 : y / 2 ^ 5 % 2 ^ 5 = 0 := slot_const hw (Nat.le_of_ble_eq_true rfl) (by omega)
  have f0 : Sys2Proof.fld 5 15 y = d := slot_fld hw (Nat.le_of_ble_eq_true rfl) (by omega)
  have f1 : Sys2Proof.fld 5 10 y = a := slot_fld hw (Nat.le_of_ble_eq_true rfl) (by omega)
  have f2 : Sys2Proof.fld 4 1 y = fmt := slot_fld hw (Nat.le_of_ble_eq_true rfl) (by omega)
  rw [encode_of he, decode_slot hw (Nat.le_of_ble_eq_true rfl) (by omega), decodeOp_52]
  simp only [decodeOp52, slot_hdr hw (Nat.le_of_ble_eq_true rfl) (by omega), c0, c1, f0, f1, f2, true_and, and_true, false_and, and_false, and_self, if_true, if_false, Nat.reduceEqDiff, Nat.reduceDiv]

theorem xtanh (h : Hdr) (d : BitVec 5) (a : BitVec 5) (fmt : BitVec 4) : Statement (.xtanh h d a fmt) := by
  intro _
  have := d.isLt; have := a.isLt; have := fmt.isLt
  obtain ⟨y, hw⟩ : ∃ y, y = slotWord h 0x53 (low_15_10_1b5b5b4 d a fmt 0) := ⟨_, rfl⟩
  have he : encodeNat (.xtanh h d a fmt) = some y := by rw [hw]; rfl
  unfold low_15_10_1b5b5b4 at hw
  have c0 : y / 2 ^ 0 % 2 ^ 1 = 0 := slot_const hw (Nat.le_of_ble_eq_true rfl) (by omega)
  have c1 : y / 2 ^ 5 % 2 ^ 5 = 0 := slot_const hw (Nat.le_of_ble_eq_true rfl) (by omega)
  have f0 : Sys2Proof.fld 5 15 y = d := slot_fld hw (Nat.le_of_ble_eq_true rfl) (by omega)
  have f1 : Sys2Proof.fld 5 10 y = a := slot_fld hw (Nat.le_of_ble_eq_true rfl) (by omega)
  have f2 : Sys2Proof.fld 4 1 y = fmt := slot_fld hw (Nat.le_of_ble_eq_true rfl) (by omega)
  rw [encode_of he, decode_slot hw (Nat.le_of_ble_eq_true rfl) (by omega), decodeOp_53]
  simp only [decodeOp53, slot_hdr hw (Nat.le_of_ble_eq_true rfl) (by omega), c0, c1, f0, f1, f2, true_and, and_true, false_and, and_false, and_self, if_true, if_false, Nat.reduceEqDiff, Nat.reduceDiv]

theorem xsigm (h : Hdr) (d : BitVec 5) (a : BitVec 5) (fmt : BitVec 4) : Statement (.xsigm h d a fmt) := by
  intro _
  have := d.isLt; have := a.isLt; have := fmt.isLt
  obtain ⟨y, hw⟩ : ∃ y, y = slotWord h 0x53 (low_15_10_1b5b5b4 d a fmt 1) := ⟨_, rfl⟩
  have he : encodeNat (.xsigm h d a fmt) = some y := by rw [hw]; rfl
  unfold low_15_10_1b5b5b4 at hw
  have c0 : y / 2 ^ 0 % 2 ^ 1 = 1 := slot_const hw (Nat.le_of_ble_eq_true rfl) (by omega)
  have c1 : y / 2 ^ 5 % 2 ^ 5 = 0 := slot_const hw (Nat.le_of_ble_eq_true rfl) (by omega)
  have f0 : Sys2Proof.fld 5 15 y = d := slot_fld hw (Nat.le_of_ble_eq_true rfl) (by omega)
  have f1 : Sys2Proof.fld 5 10 y = a := slot_fld hw (Nat.le_of_ble_eq_true rfl) (by omega)
  have f2 : Sys2Proof.fld 4 1 y = fmt := slot_fld hw (Nat.le_of_ble_eq_true rfl) (by omega)
  rw [encode_of he, decode_slot hw (Nat.le_of_ble_eq_true rfl) (by omega), decodeOp_53]
  simp only [decodeOp53, slot_hdr hw (Nat.le_of_ble_eq_true rfl) (by omega), c0, c1, f0, f1, f2, true_and, and_true, false_and, and_false, and_self, if_true, if_false, Nat.reduceEqDiff, Nat.reduceDiv]

theorem xtrn (h : Hdr) (d : BitVec 5) (a : BitVec 5) (cols : BitVec 3) (fmt : BitVec 4) : Statement (.xtrn h d a cols fmt) := by
  intro _
  have := d.isLt; have := a.isLt; have := cols.isLt; have := fmt.isLt
  obtain ⟨y, hw⟩ : ∃ y, y = slotWord h 0x54 (low_15_10_5_1b5b5b3b4 d a cols fmt 0) := ⟨_, rfl⟩
  have he : encodeNat (.xtrn h d a cols fmt) = some y := by rw [hw]; rfl
  unfold low_15_10_5_1b5b5b3b4 at hw
  have c0 : y / 2 ^ 0 % 2 ^ 1 = 0 := slot_const hw (Nat.le_of_ble_eq_true rfl) (by omega)
  have c1 : y / 2 ^ 8 % 2 ^ 2 = 0 := slot_const hw (Nat.le_of_ble_eq_true rfl) (by omega)
  have f0 : Sys2Proof.fld 5 15 y = d := slot_fld hw (Nat.le_of_ble_eq_true rfl) (by omega)
  have f1 : Sys2Proof.fld 5 10 y = a := slot_fld hw (Nat.le_of_ble_eq_true rfl) (by omega)
  have f2 : Sys2Proof.fld 3 5 y = cols := slot_fld hw (Nat.le_of_ble_eq_true rfl) (by omega)
  have f3 : Sys2Proof.fld 4 1 y = fmt := slot_fld hw (Nat.le_of_ble_eq_true rfl) (by omega)
  rw [encode_of he, decode_slot hw (Nat.le_of_ble_eq_true rfl) (by omega), decodeOp_54]
  simp only [decodeOp54, slot_hdr hw (Nat.le_of_ble_eq_true rfl) (by omega), c0, c1, f0, f1, f2, f3, true_and, and_true, false_and, and_false, and_self, if_true, if_false, Nat.reduceEqDiff, Nat.reduceDiv]

theorem xcvt (h : Hdr) (d : BitVec 5) (a : BitVec 5) (b : BitVec 5) (fmt : BitVec 4) (x : Bool) : Statement (.xcvt h d a b fmt x) := by
  intro _
  have := d.isLt; have := a.isLt; have := b.isLt; have := fmt.isLt; have := Bool.toNat_lt2 x
  obtain ⟨y, hw⟩ : ∃ y, y = slotWord h 0x55 (low_15_10_5_1_0b5b5b5b4b1 d a b fmt x 0) := ⟨_, rfl⟩
  have he : encodeNat (.xcvt h d a b fmt x) = some y := by rw [hw]; rfl
  unfold low_15_10_5_1_0b5b5b5b4b1 at hw
  have f0 : Sys2Proof.fld 5 15 y = d := slot_fld hw (Nat.le_of_ble_eq_true rfl) (by omega)
  have f1 : Sys2Proof.fld 5 10 y = a := slot_fld hw (Nat.le_of_ble_eq_true rfl) (by omega)
  have f2 : Sys2Proof.fld 5 5 y = b := slot_fld hw (Nat.le_of_ble_eq_true rfl) (by omega)
  have f3 : Sys2Proof.fld 4 1 y = fmt := slot_fld hw (Nat.le_of_ble_eq_true rfl) (by omega)
  have f4 : flag 0 y = x := slot_flag hw (Nat.le_of_ble_eq_true rfl) (by omega)
  rw [encode_of he, decode_slot hw (Nat.le_of_ble_eq_true rfl) (by omega), decodeOp_55]
  simp only [decodeOp55, slot_hdr hw (Nat.le_of_ble_eq_true rfl) (by omega), f0, f1, f2, f3, f4, true_and, and_true, false_and, and_false, and_self, if_true, if_false, Nat.reduceEqDiff, Nat.reduceDiv]

theorem xcmp (h : Hdr) (d : BitVec 5) (a : BitVec 5) (fmt : BitVec 4) : Statement (.xcmp h d a fmt) := by
  intro _
  have := d.isLt; have := a.isLt; have := fmt.isLt
  obtain ⟨y, hw⟩ : ∃ y, y = slotWord h 0x56 (low_15_10_1b5b5b4 d a fmt 0) := ⟨_, rfl⟩
  have he : encodeNat (.xcmp h d a fmt) = some y := by rw [hw]; rfl
  unfold low_15_10_1b5b5b4 at hw
  have c0 : y / 2 ^ 0 % 2 ^ 1 = 0 := slot_const hw (Nat.le_of_ble_eq_true rfl) (by omega)
  have c1 : y / 2 ^ 5 % 2 ^ 5 = 0 := slot_const hw (Nat.le_of_ble_eq_true rfl) (by omega)
  have f0 : Sys2Proof.fld 5 15 y = d := slot_fld hw (Nat.le_of_ble_eq_true rfl) (by omega)
  have f1 : Sys2Proof.fld 5 10 y = a := slot_fld hw (Nat.le_of_ble_eq_true rfl) (by omega)
  have f2 : Sys2Proof.fld 4 1 y = fmt := slot_fld hw (Nat.le_of_ble_eq_true rfl) (by omega)
  rw [encode_of he, decode_slot hw (Nat.le_of_ble_eq_true rfl) (by omega), decodeOp_56]
  simp only [decodeOp56, slot_hdr hw (Nat.le_of_ble_eq_true rfl) (by omega), c0, c1, f0, f1, f2, true_and, and_true, false_and, and_false, and_self, if_true, if_false, Nat.reduceEqDiff, Nat.reduceDiv]

theorem xexd (h : Hdr) (d : BitVec 5) (a : BitVec 5) : Statement (.xexd h d a) := by
  intro _
  have := d.isLt; have := a.isLt
  obtain ⟨y, hw⟩ : ∃ y, y = slotWord h 0x57 (low_15_10b5b5 d a 0) := ⟨_, rfl⟩
  have he : encodeNat (.xexd h d a) = some y := by rw [hw]; rfl
  unfold low_15_10b5b5 at hw
  have c0 : y / 2 ^ 0 % 2 ^ 10 = 0 := slot_const hw (Nat.le_of_ble_eq_true rfl) (by omega)
  have f0 : Sys2Proof.fld 5 15 y = d := slot_fld hw (Nat.le_of_ble_eq_true rfl) (by omega)
  have f1 : Sys2Proof.fld 5 10 y = a := slot_fld hw (Nat.le_of_ble_eq_true rfl) (by omega)
  rw [encode_of he, decode_slot hw (Nat.le_of_ble_eq_true rfl) (by omega), decodeOp_57]
  simp only [decodeOp57, slot_hdr hw (Nat.le_of_ble_eq_true rfl) (by omega), c0, f0, f1, true_and, and_true, false_and, and_false, and_self, if_true, if_false, Nat.reduceEqDiff, Nat.reduceDiv]

theorem mxld (h : Hdr) (pnm : BitVec 4) (a : BitVec 5) (fmt : BitVec 4) (lc : BitVec 3) (gw : BitVec 2) (qb : Bool) (tr : Bool) : Statement (.mxld h pnm a fmt lc gw qb tr) := by
  intro _
  have := pnm.isLt; have := a.isLt; have := fmt.isLt; have := lc.isLt; have := gw.isLt; have := Bool.toNat_lt2 qb; have := Bool.toNat_lt2 tr
  obtain ⟨y, hw⟩ : ∃ y, y = slotWord h 0x5C (low_16_11_7_4_2_1_0b4b5b4b3b2b1b1 pnm a fmt lc gw qb tr 0) := ⟨_, rfl⟩
  have he : encodeNat (.mxld h pnm a fmt lc gw qb tr) = some y := by rw [hw]; rfl
  unfold low_16_11_7_4_2_1_0b4b5b4b3b2b1b1 at hw
  have f0 : Sys2Proof.fld 4 16 y = pnm := slot_fld hw (Nat.le_of_ble_eq_true rfl) (by omega)
  have f1 : Sys2Proof.fld 5 11 y = a := slot_fld hw (Nat.le_of_ble_eq_true rfl) (by omega)
  have f2 : Sys2Proof.fld 4 7 y = fmt := slot_fld hw (Nat.le_of_ble_eq_true rfl) (by omega)
  have f3 : Sys2Proof.fld 3 4 y = lc := slot_fld hw (Nat.le_of_ble_eq_true rfl) (by omega)
  have f4 : Sys2Proof.fld 2 2 y = gw := slot_fld hw (Nat.le_of_ble_eq_true rfl) (by omega)
  have f5 : flag 1 y = qb := slot_flag hw (Nat.le_of_ble_eq_true rfl) (by omega)
  have f6 : flag 0 y = tr := slot_flag hw (Nat.le_of_ble_eq_true rfl) (by omega)
  rw [encode_of he, decode_slot hw (Nat.le_of_ble_eq_true rfl) (by omega), decodeOp_5C]
  simp only [decodeOp5C, slot_hdr hw (Nat.le_of_ble_eq_true rfl) (by omega), f0, f1, f2, f3, f4, f5, f6, true_and, and_true, false_and, and_false, and_self, if_true, if_false, Nat.reduceEqDiff, Nat.reduceDiv]

theorem mxa (h : Hdr) (z : BitVec 3) (a : BitVec 5) (b : BitVec 5) (fmt : BitVec 4) (qb : Bool) (rv : Bool) (zs : Bool) : Statement (.mxa h z a b fmt qb rv zs) := by
  intro _
  have := z.isLt; have := a.isLt; have := b.isLt; have := fmt.isLt; have := Bool.toNat_lt2 qb; have := Bool.toNat_lt2 rv; have := Bool.toNat_lt2 zs
  obtain ⟨y, hw⟩ : ∃ y, y = slotWord h 0x5D (low_17_12_7_3_2_1_0b3b5b5b4b1b1b1 z a b fmt qb rv zs 0) := ⟨_, rfl⟩
  have he : encodeNat (.mxa h z a b fmt qb rv zs) = some y := by rw [hw]; rfl
  unfold low_17_12_7_3_2_1_0b3b5b5b4b1b1b1 at hw
  have f0 : Sys2Proof.fld 3 17 y = z := slot_fld hw (Nat.le_of_ble_eq_true rfl) (by omega)
  have f1 : Sys2Proof.fld 5 12 y = a := slot_fld hw (Nat.le_of_ble_eq_true rfl) (by omega)
  have f2 : Sys2Proof.fld 5 7 y = b := slot_fld hw (Nat.le_of_ble_eq_true rfl) (by omega)
  have f3 : Sys2Proof.fld 4 3 y = fmt := slot_fld hw (Nat.le_of_ble_eq_true rfl) (by omega)
  have f4 : flag 2 y = qb := slot_flag hw (Nat.le_of_ble_eq_true rfl) (by omega)
  have f5 : flag 1 y = rv := slot_flag hw (Nat.le_of_ble_eq_true rfl) (by omega)
  have f6 : flag 0 y = zs := slot_flag hw (Nat.le_of_ble_eq_true rfl) (by omega)
  rw [encode_of he, decode_slot hw (Nat.le_of_ble_eq_true rfl) (by omega), decodeOp_5D]
  simp only [decodeOp5D, slot_hdr hw (Nat.le_of_ble_eq_true rfl) (by omega), f0, f1, f2, f3, f4, f5, f6, true_and, and_true, false_and, and_false, and_self, if_true, if_false, Nat.reduceEqDiff, Nat.reduceDiv]

theorem mxav (h : Hdr) (z : BitVec 3) (a : BitVec 5) (fmt : BitVec 4) (qb : Bool) (rv : Bool) (zs : Bool) : Statement (.mxav h z a fmt qb rv zs) := by
  intro _
  have := z.isLt; have := a.isLt; have := fmt.isLt; have := Bool.toNat_lt2 qb; have := Bool.toNat_lt2 rv; have := Bool.toNat_lt2 zs
  obtain ⟨y, hw⟩ : ∃ y, y = slotWord h 0x5E (low_17_12_3_2_1_0b3b5b4b1b1b1 z a fmt qb rv zs 0) := ⟨_, rfl⟩
  have he : encodeNat (.mxav h z a fmt qb rv zs) = some y := by rw [hw]; rfl
  unfold low_17_12_3_2_1_0b3b5b4b1b1b1 at hw
  have c0 : y / 2 ^ 7 % 2 ^ 5 = 0 := slot_const hw (Nat.le_of_ble_eq_true rfl) (by omega)
  have f0 : Sys2Proof.fld 3 17 y = z := slot_fld hw (Nat.le_of_ble_eq_true rfl) (by omega)
  have f1 : Sys2Proof.fld 5 12 y = a := slot_fld hw (Nat.le_of_ble_eq_true rfl) (by omega)
  have f2 : Sys2Proof.fld 4 3 y = fmt := slot_fld hw (Nat.le_of_ble_eq_true rfl) (by omega)
  have f3 : flag 2 y = qb := slot_flag hw (Nat.le_of_ble_eq_true rfl) (by omega)
  have f4 : flag 1 y = rv := slot_flag hw (Nat.le_of_ble_eq_true rfl) (by omega)
  have f5 : flag 0 y = zs := slot_flag hw (Nat.le_of_ble_eq_true rfl) (by omega)
  rw [encode_of he, decode_slot hw (Nat.le_of_ble_eq_true rfl) (by omega), decodeOp_5E]
  simp only [decodeOp5E, slot_hdr hw (Nat.le_of_ble_eq_true rfl) (by omega), c0, f0, f1, f2, f3, f4, f5, true_and, and_true, false_and, and_false, and_self, if_true, if_false, Nat.reduceEqDiff, Nat.reduceDiv]

theorem mxrd (h : Hdr) (z : BitVec 3) (a : BitVec 5) (b : BitVec 5) (fmt : BitVec 4) (rnd : BitVec 3) : Statement (.mxrd h z a b fmt rnd) := by
  intro _
  have := z.isLt; have := a.isLt; have := b.isLt; have := fmt.isLt; have := rnd.isLt
  obtain ⟨y, hw⟩ : ∃ y, y = slotWord h 0x5F (low_17_12_7_3_0b3b5b5b4b3 z a b fmt rnd 0) := ⟨_, rfl⟩
  have he : encodeNat (.mxrd h z a b fmt rnd) = some y := by rw [hw]; rfl
  unfold low_17_12_7_3_0b3b5b5b4b3 at hw
  have f0 : Sys2Proof.fld 3 17 y = z := slot_fld hw (Nat.le_of_ble_eq_true rfl) (by omega)
  have f1 : Sys2Proof.fld 5 12 y = a := slot_fld hw (Nat.le_of_ble_eq_true rfl) (by omega)
  have f2 : Sys2Proof.fld 5 7 y = b := slot_fld hw (Nat.le_of_ble_eq_true rfl) (by omega)
  have f3 : Sys2Proof.fld 4 3 y = fmt := slot_fld hw (Nat.le_of_ble_eq_true rfl) (by omega)
  have f4 : Sys2Proof.fld 3 0 y = rnd := slot_fld hw (Nat.le_of_ble_eq_true rfl) (by omega)
  rw [encode_of he, decode_slot hw (Nat.le_of_ble_eq_true rfl) (by omega), decodeOp_5F]
  simp only [decodeOp5F, slot_hdr hw (Nat.le_of_ble_eq_true rfl) (by omega), f0, f1, f2, f3, f4, true_and, and_true, false_and, and_false, and_self, if_true, if_false, Nat.reduceEqDiff, Nat.reduceDiv]

theorem mxrk (h : Hdr) (z : BitVec 3) (a : BitVec 5) (b : BitVec 5) (fmt : BitVec 4) (zs : Bool) : Statement (.mxrk h z a b fmt zs) := by
  intro _
  have := z.isLt; have := a.isLt; have := b.isLt; have := fmt.isLt; have := Bool.toNat_lt2 zs
  obtain ⟨y, hw⟩ : ∃ y, y = slotWord h 0x60 (low_17_12_7_3_0b3b5b5b4b1 z a b fmt zs 0) := ⟨_, rfl⟩
  have he : encodeNat (.mxrk h z a b fmt zs) = some y := by rw [hw]; rfl
  unfold low_17_12_7_3_0b3b5b5b4b1 at hw
  have c0 : y / 2 ^ 1 % 2 ^ 2 = 0 := slot_const hw (Nat.le_of_ble_eq_true rfl) (by omega)
  have f0 : Sys2Proof.fld 3 17 y = z := slot_fld hw (Nat.le_of_ble_eq_true rfl) (by omega)
  have f1 : Sys2Proof.fld 5 12 y = a := slot_fld hw (Nat.le_of_ble_eq_true rfl) (by omega)
  have f2 : Sys2Proof.fld 5 7 y = b := slot_fld hw (Nat.le_of_ble_eq_true rfl) (by omega)
  have f3 : Sys2Proof.fld 4 3 y = fmt := slot_fld hw (Nat.le_of_ble_eq_true rfl) (by omega)
  have f4 : flag 0 y = zs := slot_flag hw (Nat.le_of_ble_eq_true rfl) (by omega)
  rw [encode_of he, decode_slot hw (Nat.le_of_ble_eq_true rfl) (by omega), decodeOp_60]
  simp only [decodeOp60, slot_hdr hw (Nat.le_of_ble_eq_true rfl) (by omega), c0, f0, f1, f2, f3, f4, true_and, and_true, false_and, and_false, and_self, if_true, if_false, Nat.reduceEqDiff, Nat.reduceDiv]

theorem mxpnRd (h : Hdr) (d : BitVec 5) : Statement (.mxpnRd h d) := by
  intro _
  have := d.isLt
  obtain ⟨y, hw⟩ : ∃ y, y = slotWord h 0x61 (low_15b5 d 0) := ⟨_, rfl⟩
  have he : encodeNat (.mxpnRd h d) = some y := by rw [hw]; rfl
  unfold low_15b5 at hw
  have c0 : y / 2 ^ 0 % 2 ^ 15 = 0 := slot_const hw (Nat.le_of_ble_eq_true rfl) (by omega)
  have c1 : y / 2 ^ 4 % 2 ^ 11 = 0 := slot_const hw (Nat.le_of_ble_eq_true rfl) (by omega)
  have f0 : Sys2Proof.fld 5 15 y = d := slot_fld hw (Nat.le_of_ble_eq_true rfl) (by omega)
  rw [encode_of he, decode_slot hw (Nat.le_of_ble_eq_true rfl) (by omega), decodeOp_61]
  simp only [decodeOp61, slot_hdr hw (Nat.le_of_ble_eq_true rfl) (by omega), c0, c1, f0, true_and, and_true, false_and, and_false, and_self, if_true, if_false, Nat.reduceEqDiff, Nat.reduceDiv]

theorem mxpnClaim (h : Hdr) (d : BitVec 5) (mk : BitVec 4) : Statement (.mxpnClaim h d mk) := by
  intro _
  have := d.isLt; have := mk.isLt
  obtain ⟨y, hw⟩ : ∃ y, y = slotWord h 0x61 (low_15_0b5b4 d mk 256) := ⟨_, rfl⟩
  have he : encodeNat (.mxpnClaim h d mk) = some y := by rw [hw]; rfl
  unfold low_15_0b5b4 at hw
  have c0 : y / 2 ^ 4 % 2 ^ 11 = 16 := slot_const hw (Nat.le_of_ble_eq_true rfl) (by omega)
  have n0 : ¬y / 2 ^ 0 % 2 ^ 15 = 0 := slot_differs hw (Nat.le_of_ble_eq_true rfl) (by omega)
  have f0 : Sys2Proof.fld 5 15 y = d := slot_fld hw (Nat.le_of_ble_eq_true rfl) (by omega)
  have f1 : Sys2Proof.fld 4 0 y = mk := slot_fld hw (Nat.le_of_ble_eq_true rfl) (by omega)
  rw [encode_of he, decode_slot hw (Nat.le_of_ble_eq_true rfl) (by omega), decodeOp_61]
  simp only [decodeOp61, slot_hdr hw (Nat.le_of_ble_eq_true rfl) (by omega), c0, n0, f0, f1, true_and, and_true, false_and, and_false, and_self, if_true, if_false, Nat.reduceEqDiff, Nat.reduceDiv]

theorem mxpnRel (h : Hdr) (d : BitVec 5) (mk : BitVec 4) : Statement (.mxpnRel h d mk) := by
  intro _
  have := d.isLt; have := mk.isLt
  obtain ⟨y, hw⟩ : ∃ y, y = slotWord h 0x61 (low_15_0b5b4 d mk 512) := ⟨_, rfl⟩
  have he : encodeNat (.mxpnRel h d mk) = some y := by rw [hw]; rfl
  unfold low_15_0b5b4 at hw
  have c0 : y / 2 ^ 4 % 2 ^ 11 = 32 := slot_const hw (Nat.le_of_ble_eq_true rfl) (by omega)
  have n0 : ¬y / 2 ^ 0 % 2 ^ 15 = 0 := slot_differs hw (Nat.le_of_ble_eq_true rfl) (by omega)
  have f0 : Sys2Proof.fld 5 15 y = d := slot_fld hw (Nat.le_of_ble_eq_true rfl) (by omega)
  have f1 : Sys2Proof.fld 4 0 y = mk := slot_fld hw (Nat.le_of_ble_eq_true rfl) (by omega)
  rw [encode_of he, decode_slot hw (Nat.le_of_ble_eq_true rfl) (by omega), decodeOp_61]
  simp only [decodeOp61, slot_hdr hw (Nat.le_of_ble_eq_true rfl) (by omega), c0, n0, f0, f1, true_and, and_true, false_and, and_false, and_self, if_true, if_false, Nat.reduceEqDiff, Nat.reduceDiv]

theorem mxsvSave (h : Hdr) (z : BitVec 3) (a : BitVec 5) (b : BitVec 5) : Statement (.mxsvSave h z a b) := by
  intro _
  have := z.isLt; have := a.isLt; have := b.isLt
  obtain ⟨y, hw⟩ : ∃ y, y = slotWord h 0x62 (low_17_12_7b3b5b5 z a b 0) := ⟨_, rfl⟩
  have he : encodeNat (.mxsvSave h z a b) = some y := by rw [hw]; rfl
  unfold low_17_12_7b3b5b5 at hw
  have c0 : y / 2 ^ 0 % 2 ^ 7 = 0 := slot_const hw (Nat.le_of_ble_eq_true rfl) (by omega)
  have n0 : ¬y / 2 ^ 0 % 2 ^ 12 = 2 := slot_differs hw (Nat.le_of_ble_eq_true rfl) (by omega)
  have f0 : Sys2Proof.fld 3 17 y = z := slot_fld hw (Nat.le_of_ble_eq_true rfl) (by omega)
  have f1 : Sys2Proof.fld 5 12 y = a := slot_fld hw (Nat.le_of_ble_eq_true rfl) (by omega)
  have f2 : Sys2Proof.fld 5 7 y = b := slot_fld hw (Nat.le_of_ble_eq_true rfl) (by omega)
  rw [encode_of he, decode_slot hw (Nat.le_of_ble_eq_true rfl) (by omega), decodeOp_62]
  simp only [decodeOp62, slot_hdr hw (Nat.le_of_ble_eq_true rfl) (by omega), c0, n0, f0, f1, f2, true_and, and_true, false_and, and_false, and_self, if_true, if_false, Nat.reduceEqDiff, Nat.reduceDiv]

theorem mxsvLd (h : Hdr) (z : BitVec 3) (a : BitVec 5) (b : BitVec 5) : Statement (.mxsvLd h z a b) := by
  intro _
  have := z.isLt; have := a.isLt; have := b.isLt
  obtain ⟨y, hw⟩ : ∃ y, y = slotWord h 0x62 (low_17_12_7b3b5b5 z a b 1) := ⟨_, rfl⟩
  have he : encodeNat (.mxsvLd h z a b) = some y := by rw [hw]; rfl
  unfold low_17_12_7b3b5b5 at hw
  have c0 : y / 2 ^ 0 % 2 ^ 7 = 1 := slot_const hw (Nat.le_of_ble_eq_true rfl) (by omega)
  have n0 : ¬y / 2 ^ 0 % 2 ^ 12 = 2 := slot_differs hw (Nat.le_of_ble_eq_true rfl) (by omega)
  have f0 : Sys2Proof.fld 3 17 y = z := slot_fld hw (Nat.le_of_ble_eq_true rfl) (by omega)
  have f1 : Sys2Proof.fld 5 12 y = a := slot_fld hw (Nat.le_of_ble_eq_true rfl) (by omega)
  have f2 : Sys2Proof.fld 5 7 y = b := slot_fld hw (Nat.le_of_ble_eq_true rfl) (by omega)
  rw [encode_of he, decode_slot hw (Nat.le_of_ble_eq_true rfl) (by omega), decodeOp_62]
  simp only [decodeOp62, slot_hdr hw (Nat.le_of_ble_eq_true rfl) (by omega), c0, n0, f0, f1, f2, true_and, and_true, false_and, and_false, and_self, if_true, if_false, Nat.reduceEqDiff, Nat.reduceDiv]

theorem mxsvSt (h : Hdr) (z : BitVec 3) (d : BitVec 5) : Statement (.mxsvSt h z d) := by
  intro _
  have := z.isLt; have := d.isLt
  obtain ⟨y, hw⟩ : ∃ y, y = slotWord h 0x62 (low_17_12b3b5 z d 2) := ⟨_, rfl⟩
  have he : encodeNat (.mxsvSt h z d) = some y := by rw [hw]; rfl
  unfold low_17_12b3b5 at hw
  have c0 : y / 2 ^ 0 % 2 ^ 7 = 2 := slot_const hw (Nat.le_of_ble_eq_true rfl) (by omega)
  have c1 : y / 2 ^ 0 % 2 ^ 12 = 2 := slot_const hw (Nat.le_of_ble_eq_true rfl) (by omega)
  have c2 : y / 2 ^ 7 % 2 ^ 5 = 0 := slot_const hw (Nat.le_of_ble_eq_true rfl) (by omega)
  have f0 : Sys2Proof.fld 3 17 y = z := slot_fld hw (Nat.le_of_ble_eq_true rfl) (by omega)
  have f1 : Sys2Proof.fld 5 12 y = d := slot_fld hw (Nat.le_of_ble_eq_true rfl) (by omega)
  rw [encode_of he, decode_slot hw (Nat.le_of_ble_eq_true rfl) (by omega), decodeOp_62]
  simp only [decodeOp62, slot_hdr hw (Nat.le_of_ble_eq_true rfl) (by omega), c0, c1, c2, f0, f1, true_and, and_true, false_and, and_false, and_self, if_true, if_false, Nat.reduceEqDiff, Nat.reduceDiv]

theorem govPol (h : Hdr) (a : BitVec 5) : Statement (.govPol h a) := by
  intro _
  have := a.isLt
  obtain ⟨y, hw⟩ : ∃ y, y = slotWord h 0x63 (low_10b5 a 0) := ⟨_, rfl⟩
  have he : encodeNat (.govPol h a) = some y := by rw [hw]; rfl
  unfold low_10b5 at hw
  have c0 : y / 2 ^ 0 % 2 ^ 5 = 0 := slot_const hw (Nat.le_of_ble_eq_true rfl) (by omega)
  have c1 : y / 2 ^ 0 % 2 ^ 10 = 0 := slot_const hw (Nat.le_of_ble_eq_true rfl) (by omega)
  have c2 : y / 2 ^ 15 % 2 ^ 5 = 0 := slot_const hw (Nat.le_of_ble_eq_true rfl) (by omega)
  have f0 : Sys2Proof.fld 5 10 y = a := slot_fld hw (Nat.le_of_ble_eq_true rfl) (by omega)
  rw [encode_of he, decode_slot hw (Nat.le_of_ble_eq_true rfl) (by omega), decodeOp_63]
  simp only [decodeOp63, slot_hdr hw (Nat.le_of_ble_eq_true rfl) (by omega), c0, c1, c2, f0, true_and, and_true, false_and, and_false, and_self, if_true, if_false, Nat.reduceEqDiff, Nat.reduceDiv]

theorem govRd (h : Hdr) (d : BitVec 5) (a : BitVec 5) (b : BitVec 5) : Statement (.govRd h d a b) := by
  intro _
  have := d.isLt; have := a.isLt; have := b.isLt
  obtain ⟨y, hw⟩ : ∃ y, y = slotWord h 0x63 (low_15_10_5b5b5b5 d a b 1) := ⟨_, rfl⟩
  have he : encodeNat (.govRd h d a b) = some y := by rw [hw]; rfl
  unfold low_15_10_5b5b5b5 at hw
  have c0 : y / 2 ^ 0 % 2 ^ 5 = 1 := slot_const hw (Nat.le_of_ble_eq_true rfl) (by omega)
  have n0 : ¬y / 2 ^ 0 % 2 ^ 10 = 0 := slot_differs hw (Nat.le_of_ble_eq_true rfl) (by omega)
  have n1 : ¬y / 2 ^ 0 % 2 ^ 10 = 3 := slot_differs hw (Nat.le_of_ble_eq_true rfl) (by omega)
  have f0 : Sys2Proof.fld 5 15 y = d := slot_fld hw (Nat.le_of_ble_eq_true rfl) (by omega)
  have f1 : Sys2Proof.fld 5 10 y = a := slot_fld hw (Nat.le_of_ble_eq_true rfl) (by omega)
  have f2 : Sys2Proof.fld 5 5 y = b := slot_fld hw (Nat.le_of_ble_eq_true rfl) (by omega)
  rw [encode_of he, decode_slot hw (Nat.le_of_ble_eq_true rfl) (by omega), decodeOp_63]
  simp only [decodeOp63, slot_hdr hw (Nat.le_of_ble_eq_true rfl) (by omega), c0, n0, n1, f0, f1, f2, true_and, and_true, false_and, and_false, and_self, if_true, if_false, Nat.reduceEqDiff, Nat.reduceDiv]

theorem govSet (h : Hdr) (a : BitVec 5) (b : BitVec 5) : Statement (.govSet h a b) := by
  intro _
  have := a.isLt; have := b.isLt
  obtain ⟨y, hw⟩ : ∃ y, y = slotWord h 0x63 (low_10_5b5b5 a b 2) := ⟨_, rfl⟩
  have he : encodeNat (.govSet h a b) = some y := by rw [hw]; rfl
  unfold low_10_5b5b5 at hw
  have c0 : y / 2 ^ 0 % 2 ^ 5 = 2 := slot_const hw (Nat.le_of_ble_eq_true rfl) (by omega)
  have c1 : y / 2 ^ 15 % 2 ^ 5 = 0 := slot_const hw (Nat.le_of_ble_eq_true rfl) (by omega)
  have n0 : ¬y / 2 ^ 0 % 2 ^ 10 = 0 := slot_differs hw (Nat.le_of_ble_eq_true rfl) (by omega)
  have n1 : ¬y / 2 ^ 0 % 2 ^ 10 = 3 := slot_differs hw (Nat.le_of_ble_eq_true rfl) (by omega)
  have f0 : Sys2Proof.fld 5 10 y = a := slot_fld hw (Nat.le_of_ble_eq_true rfl) (by omega)
  have f1 : Sys2Proof.fld 5 5 y = b := slot_fld hw (Nat.le_of_ble_eq_true rfl) (by omega)
  rw [encode_of he, decode_slot hw (Nat.le_of_ble_eq_true rfl) (by omega), decodeOp_63]
  simp only [decodeOp63, slot_hdr hw (Nat.le_of_ble_eq_true rfl) (by omega), c0, c1, n0, n1, f0, f1, true_and, and_true, false_and, and_false, and_self, if_true, if_false, Nat.reduceEqDiff, Nat.reduceDiv]

theorem govClr (h : Hdr) (a : BitVec 5) : Statement (.govClr h a) := by
  intro _
  have := a.isLt
  obtain ⟨y, hw⟩ : ∃ y, y = slotWord h 0x63 (low_10b5 a 3) := ⟨_, rfl⟩
  have he : encodeNat (.govClr h a) = some y := by rw [hw]; rfl
  unfold low_10b5 at hw
  have c0 : y / 2 ^ 0 % 2 ^ 5 = 3 := slot_const hw (Nat.le_of_ble_eq_true rfl) (by omega)
  have c1 : y / 2 ^ 0 % 2 ^ 10 = 3 := slot_const hw (Nat.le_of_ble_eq_true rfl) (by omega)
  have c2 : y / 2 ^ 15 % 2 ^ 5 = 0 := slot_const hw (Nat.le_of_ble_eq_true rfl) (by omega)
  have f0 : Sys2Proof.fld 5 10 y = a := slot_fld hw (Nat.le_of_ble_eq_true rfl) (by omega)
  rw [encode_of he, decode_slot hw (Nat.le_of_ble_eq_true rfl) (by omega), decodeOp_63]
  simp only [decodeOp63, slot_hdr hw (Nat.le_of_ble_eq_true rfl) (by omega), c0, c1, c2, f0, true_and, and_true, false_and, and_false, and_self, if_true, if_false, Nat.reduceEqDiff, Nat.reduceDiv]

theorem gmeasMb (h : Hdr) (a : BitVec 5) (b : BitVec 5) : Statement (.gmeasMb h a b) := by
  intro _
  have := a.isLt; have := b.isLt
  obtain ⟨y, hw⟩ : ∃ y, y = slotWord h 0x64 (low_10_5b5b5 a b 0) := ⟨_, rfl⟩
  have he : encodeNat (.gmeasMb h a b) = some y := by rw [hw]; rfl
  unfold low_10_5b5b5 at hw
  have c0 : y / 2 ^ 0 % 2 ^ 5 = 0 := slot_const hw (Nat.le_of_ble_eq_true rfl) (by omega)
  have c1 : y / 2 ^ 15 % 2 ^ 5 = 0 := slot_const hw (Nat.le_of_ble_eq_true rfl) (by omega)
  have f0 : Sys2Proof.fld 5 10 y = a := slot_fld hw (Nat.le_of_ble_eq_true rfl) (by omega)
  have f1 : Sys2Proof.fld 5 5 y = b := slot_fld hw (Nat.le_of_ble_eq_true rfl) (by omega)
  rw [encode_of he, decode_slot hw (Nat.le_of_ble_eq_true rfl) (by omega), decodeOp_64]
  simp only [decodeOp64, slot_hdr hw (Nat.le_of_ble_eq_true rfl) (by omega), c0, c1, f0, f1, true_and, and_true, false_and, and_false, and_self, if_true, if_false, Nat.reduceEqDiff, Nat.reduceDiv]

theorem gmeasTot (h : Hdr) (a : BitVec 5) (b : BitVec 5) : Statement (.gmeasTot h a b) := by
  intro _
  have := a.isLt; have := b.isLt
  obtain ⟨y, hw⟩ : ∃ y, y = slotWord h 0x64 (low_10_5b5b5 a b 1) := ⟨_, rfl⟩
  have he : encodeNat (.gmeasTot h a b) = some y := by rw [hw]; rfl
  unfold low_10_5b5b5 at hw
  have c0 : y / 2 ^ 0 % 2 ^ 5 = 1 := slot_const hw (Nat.le_of_ble_eq_true rfl) (by omega)
  have c1 : y / 2 ^ 15 % 2 ^ 5 = 0 := slot_const hw (Nat.le_of_ble_eq_true rfl) (by omega)
  have f0 : Sys2Proof.fld 5 10 y = a := slot_fld hw (Nat.le_of_ble_eq_true rfl) (by omega)
  have f1 : Sys2Proof.fld 5 5 y = b := slot_fld hw (Nat.le_of_ble_eq_true rfl) (by omega)
  rw [encode_of he, decode_slot hw (Nat.le_of_ble_eq_true rfl) (by omega), decodeOp_64]
  simp only [decodeOp64, slot_hdr hw (Nat.le_of_ble_eq_true rfl) (by omega), c0, c1, f0, f1, true_and, and_true, false_and, and_false, and_self, if_true, if_false, Nat.reduceEqDiff, Nat.reduceDiv]

theorem gstep (h : Hdr) (d : BitVec 5) (a : BitVec 5) (b : BitVec 5) : Statement (.gstep h d a b) := by
  intro _
  have := d.isLt; have := a.isLt; have := b.isLt
  obtain ⟨y, hw⟩ : ∃ y, y = slotWord h 0x65 (low_15_10_5b5b5b5 d a b 0) := ⟨_, rfl⟩
  have he : encodeNat (.gstep h d a b) = some y := by rw [hw]; rfl
  unfold low_15_10_5b5b5b5 at hw
  have c0 : y / 2 ^ 0 % 2 ^ 5 = 0 := slot_const hw (Nat.le_of_ble_eq_true rfl) (by omega)
  have f0 : Sys2Proof.fld 5 15 y = d := slot_fld hw (Nat.le_of_ble_eq_true rfl) (by omega)
  have f1 : Sys2Proof.fld 5 10 y = a := slot_fld hw (Nat.le_of_ble_eq_true rfl) (by omega)
  have f2 : Sys2Proof.fld 5 5 y = b := slot_fld hw (Nat.le_of_ble_eq_true rfl) (by omega)
  rw [encode_of he, decode_slot hw (Nat.le_of_ble_eq_true rfl) (by omega), decodeOp_65]
  simp only [decodeOp65, slot_hdr hw (Nat.le_of_ble_eq_true rfl) (by omega), c0, f0, f1, f2, true_and, and_true, false_and, and_false, and_self, if_true, if_false, Nat.reduceEqDiff, Nat.reduceDiv]

theorem qpush (h : Hdr) (a : BitVec 5) (b : BitVec 5) (eos : Bool) : Statement (.qpush h a b eos) := by
  intro _
  have := a.isLt; have := b.isLt; have := Bool.toNat_lt2 eos
  obtain ⟨y, hw⟩ : ∃ y, y = slotWord h 0x68 (low_10_5_0b5b5b1 a b eos 0) := ⟨_, rfl⟩
  have he : encodeNat (.qpush h a b eos) = some y := by rw [hw]; rfl
  unfold low_10_5_0b5b5b1 at hw
  have c0 : y / 2 ^ 1 % 2 ^ 4 = 0 := slot_const hw (Nat.le_of_ble_eq_true rfl) (by omega)
  have c1 : y / 2 ^ 15 % 2 ^ 5 = 0 := slot_const hw (Nat.le_of_ble_eq_true rfl) (by omega)
  have n0 : ¬y / 2 ^ 0 % 2 ^ 5 = 2 := slot_differs hw (Nat.le_of_ble_eq_true rfl) (by omega)
  have f0 : Sys2Proof.fld 5 10 y = a := slot_fld hw (Nat.le_of_ble_eq_true rfl) (by omega)
  have f1 : Sys2Proof.fld 5 5 y = b := slot_fld hw (Nat.le_of_ble_eq_true rfl) (by omega)
  have f2 : flag 0 y = eos := slot_flag hw (Nat.le_of_ble_eq_true rfl) (by omega)
  rw [encode_of he, decode_slot hw (Nat.le_of_ble_eq_true rfl) (by omega), decodeOp_68]
  simp only [decodeOp68, slot_hdr hw (Nat.le_of_ble_eq_true rfl) (by omega), c0, c1, n0, f0, f1, f2, true_and, and_true, false_and, and_false, and_self, if_true, if_false, Nat.reduceEqDiff, Nat.reduceDiv]

theorem qpushFwd (h : Hdr) (k : BitVec 2) (b : BitVec 5) : Statement (.qpushFwd h k b) := by
  intro _
  have := k.isLt; have := b.isLt
  obtain ⟨y, hw⟩ : ∃ y, y = slotWord h 0x68 (low_10_5b2b5 k b 2) := ⟨_, rfl⟩
  have he : encodeNat (.qpushFwd h k b) = some y := by rw [hw]; rfl
  unfold low_10_5b2b5 at hw
  have c0 : y / 2 ^ 0 % 2 ^ 5 = 2 := slot_const hw (Nat.le_of_ble_eq_true rfl) (by omega)
  have c1 : y / 2 ^ 1 % 2 ^ 4 = 1 := slot_const hw (Nat.le_of_ble_eq_true rfl) (by omega)
  have c2 : y / 2 ^ 12 % 2 ^ 8 = 0 := slot_const hw (Nat.le_of_ble_eq_true rfl) (by omega)
  have c3 : y / 2 ^ 15 % 2 ^ 5 = 0 := slot_const hw (Nat.le_of_ble_eq_true rfl) (by omega)
  have f0 : Sys2Proof.fld 2 10 y = k := slot_fld hw (Nat.le_of_ble_eq_true rfl) (by omega)
  have f1 : Sys2Proof.fld 5 5 y = b := slot_fld hw (Nat.le_of_ble_eq_true rfl) (by omega)
  rw [encode_of he, decode_slot hw (Nat.le_of_ble_eq_true rfl) (by omega), decodeOp_68]
  simp only [decodeOp68, slot_hdr hw (Nat.le_of_ble_eq_true rfl) (by omega), c0, c1, c2, c3, f0, f1, true_and, and_true, false_and, and_false, and_self, if_true, if_false, Nat.reduceEqDiff, Nat.reduceDiv]

theorem qbind (h : Hdr) (k : BitVec 2) (a : BitVec 5) : Statement (.qbind h k a) := by
  intro _
  have := k.isLt; have := a.isLt
  obtain ⟨y, hw⟩ : ∃ y, y = slotWord h 0x69 (low_15_10b2b5 k a 0) := ⟨_, rfl⟩
  have he : encodeNat (.qbind h k a) = some y := by rw [hw]; rfl
  unfold low_15_10b2b5 at hw
  have c0 : y / 2 ^ 0 % 2 ^ 5 = 0 := slot_const hw (Nat.le_of_ble_eq_true rfl) (by omega)
  have c1 : y / 2 ^ 0 % 2 ^ 10 = 0 := slot_const hw (Nat.le_of_ble_eq_true rfl) (by omega)
  have c2 : y / 2 ^ 17 % 2 ^ 3 = 0 := slot_const hw (Nat.le_of_ble_eq_true rfl) (by omega)
  have n0 : ¬y / 2 ^ 0 % 2 ^ 15 = 1 := slot_differs hw (Nat.le_of_ble_eq_true rfl) (by omega)
  have f0 : Sys2Proof.fld 2 15 y = k := slot_fld hw (Nat.le_of_ble_eq_true rfl) (by omega)
  have f1 : Sys2Proof.fld 5 10 y = a := slot_fld hw (Nat.le_of_ble_eq_true rfl) (by omega)
  rw [encode_of he, decode_slot hw (Nat.le_of_ble_eq_true rfl) (by omega), decodeOp_69]
  simp only [decodeOp69, slot_hdr hw (Nat.le_of_ble_eq_true rfl) (by omega), c0, c1, c2, n0, f0, f1, true_and, and_true, false_and, and_false, and_self, if_true, if_false, Nat.reduceEqDiff, Nat.reduceDiv]

theorem qunbind (h : Hdr) (k : BitVec 2) : Statement (.qunbind h k) := by
  intro _
  have := k.isLt
  obtain ⟨y, hw⟩ : ∃ y, y = slotWord h 0x69 (low_15b2 k 1) := ⟨_, rfl⟩
  have he : encodeNat (.qunbind h k) = some y := by rw [hw]; rfl
  unfold low_15b2 at hw
  have c0 : y / 2 ^ 0 % 2 ^ 5 = 1 := slot_const hw (Nat.le_of_ble_eq_true rfl) (by omega)
  have c1 : y / 2 ^ 0 % 2 ^ 10 = 1 := slot_const hw (Nat.le_of_ble_eq_true rfl) (by omega)
  have c2 : y / 2 ^ 0 % 2 ^ 15 = 1 := slot_const hw (Nat.le_of_ble_eq_true rfl) (by omega)
  have c3 : y / 2 ^ 7 % 2 ^ 8 = 0 := slot_const hw (Nat.le_of_ble_eq_true rfl) (by omega)
  have c4 : y / 2 ^ 17 % 2 ^ 3 = 0 := slot_const hw (Nat.le_of_ble_eq_true rfl) (by omega)
  have f0 : Sys2Proof.fld 2 15 y = k := slot_fld hw (Nat.le_of_ble_eq_true rfl) (by omega)
  rw [encode_of he, decode_slot hw (Nat.le_of_ble_eq_true rfl) (by omega), decodeOp_69]
  simp only [decodeOp69, slot_hdr hw (Nat.le_of_ble_eq_true rfl) (by omega), c0, c1, c2, c3, c4, f0, true_and, and_true, false_and, and_false, and_self, if_true, if_false, Nat.reduceEqDiff, Nat.reduceDiv]

theorem qrd (h : Hdr) (d : BitVec 5) (k : BitVec 2) : Statement (.qrd h d k) := by
  intro _
  have := d.isLt; have := k.isLt
  obtain ⟨y, hw⟩ : ∃ y, y = slotWord h 0x69 (low_15_5b5b2 d k 2) := ⟨_, rfl⟩
  have he : encodeNat (.qrd h d k) = some y := by rw [hw]; rfl
  unfold low_15_5b5b2 at hw
  have c0 : y / 2 ^ 0 % 2 ^ 5 = 2 := slot_const hw (Nat.le_of_ble_eq_true rfl) (by omega)
  have c1 : y / 2 ^ 7 % 2 ^ 8 = 0 := slot_const hw (Nat.le_of_ble_eq_true rfl) (by omega)
  have n0 : ¬y / 2 ^ 0 % 2 ^ 10 = 0 := slot_differs hw (Nat.le_of_ble_eq_true rfl) (by omega)
  have n1 : ¬y / 2 ^ 0 % 2 ^ 15 = 1 := slot_differs hw (Nat.le_of_ble_eq_true rfl) (by omega)
  have f0 : Sys2Proof.fld 5 15 y = d := slot_fld hw (Nat.le_of_ble_eq_true rfl) (by omega)
  have f1 : Sys2Proof.fld 2 5 y = k := slot_fld hw (Nat.le_of_ble_eq_true rfl) (by omega)
  rw [encode_of he, decode_slot hw (Nat.le_of_ble_eq_true rfl) (by omega), decodeOp_69]
  simp only [decodeOp69, slot_hdr hw (Nat.le_of_ble_eq_true rfl) (by omega), c0, c1, n0, n1, f0, f1, true_and, and_true, false_and, and_false, and_self, if_true, if_false, Nat.reduceEqDiff, Nat.reduceDiv]

theorem qstat (h : Hdr) (d : BitVec 5) (k : BitVec 2) : Statement (.qstat h d k) := by
  intro _
  have := d.isLt; have := k.isLt
  obtain ⟨y, hw⟩ : ∃ y, y = slotWord h 0x69 (low_15_5b5b2 d k 3) := ⟨_, rfl⟩
  have he : encodeNat (.qstat h d k) = some y := by rw [hw]; rfl
  unfold low_15_5b5b2 at hw
  have c0 : y / 2 ^ 0 % 2 ^ 5 = 3 := slot_const hw (Nat.le_of_ble_eq_true rfl) (by omega)
  have c1 : y / 2 ^ 7 % 2 ^ 8 = 0 := slot_const hw (Nat.le_of_ble_eq_true rfl) (by omega)
  have n0 : ¬y / 2 ^ 0 % 2 ^ 10 = 0 := slot_differs hw (Nat.le_of_ble_eq_true rfl) (by omega)
  have n1 : ¬y / 2 ^ 0 % 2 ^ 15 = 1 := slot_differs hw (Nat.le_of_ble_eq_true rfl) (by omega)
  have f0 : Sys2Proof.fld 5 15 y = d := slot_fld hw (Nat.le_of_ble_eq_true rfl) (by omega)
  have f1 : Sys2Proof.fld 2 5 y = k := slot_fld hw (Nat.le_of_ble_eq_true rfl) (by omega)
  rw [encode_of he, decode_slot hw (Nat.le_of_ble_eq_true rfl) (by omega), decodeOp_69]
  simp only [decodeOp69, slot_hdr hw (Nat.le_of_ble_eq_true rfl) (by omega), c0, c1, n0, n1, f0, f1, true_and, and_true, false_and, and_false, and_self, if_true, if_false, Nat.reduceEqDiff, Nat.reduceDiv]

theorem wop (h : Hdr) (w : BitVec 4) (cnt : BitVec 6) (lim : BitVec 10) : Statement (.wop h w cnt lim) := by
  intro _
  have := w.isLt; have := cnt.isLt; have := lim.isLt
  obtain ⟨y, hw⟩ : ∃ y, y = slotWord h 0x6A (low_16_10_0b4b6b10 w cnt lim 0) := ⟨_, rfl⟩
  have he : encodeNat (.wop h w cnt lim) = some y := by rw [hw]; rfl
  unfold low_16_10_0b4b6b10 at hw
  have f0 : Sys2Proof.fld 4 16 y = w := slot_fld hw (Nat.le_of_ble_eq_true rfl) (by omega)
  have f1 : Sys2Proof.fld 6 10 y = cnt := slot_fld hw (Nat.le_of_ble_eq_true rfl) (by omega)
  have f2 : Sys2Proof.fld 10 0 y = lim := slot_fld hw (Nat.le_of_ble_eq_true rfl) (by omega)
  rw [encode_of he, decode_slot hw (Nat.le_of_ble_eq_true rfl) (by omega), decodeOp_6A]
  simp only [decodeOp6A, slot_hdr hw (Nat.le_of_ble_eq_true rfl) (by omega), f0, f1, f2, true_and, and_true, false_and, and_false, and_self, if_true, if_false, Nat.reduceEqDiff, Nat.reduceDiv]

theorem wadv (h : Hdr) (w : BitVec 4) (cnt : BitVec 6) (lim : BitVec 10) : Statement (.wadv h w cnt lim) := by
  intro _
  have := w.isLt; have := cnt.isLt; have := lim.isLt
  obtain ⟨y, hw⟩ : ∃ y, y = slotWord h 0x6B (low_16_10_0b4b6b10 w cnt lim 0) := ⟨_, rfl⟩
  have he : encodeNat (.wadv h w cnt lim) = some y := by rw [hw]; rfl
  unfold low_16_10_0b4b6b10 at hw
  have f0 : Sys2Proof.fld 4 16 y = w := slot_fld hw (Nat.le_of_ble_eq_true rfl) (by omega)
  have f1 : Sys2Proof.fld 6 10 y = cnt := slot_fld hw (Nat.le_of_ble_eq_true rfl) (by omega)
  have f2 : Sys2Proof.fld 10 0 y = lim := slot_fld hw (Nat.le_of_ble_eq_true rfl) (by omega)
  rw [encode_of he, decode_slot hw (Nat.le_of_ble_eq_true rfl) (by omega), decodeOp_6B]
  simp only [decodeOp6B, slot_hdr hw (Nat.le_of_ble_eq_true rfl) (by omega), f0, f1, f2, true_and, and_true, false_and, and_false, and_self, if_true, if_false, Nat.reduceEqDiff, Nat.reduceDiv]

theorem wbindC (h : Hdr) (k : BitVec 4) (a : BitVec 5) (sp : BitVec 2) : Statement (.wbindC h k a sp) := by
  intro _
  have := k.isLt; have := a.isLt; have := sp.isLt
  obtain ⟨y, hw⟩ : ∃ y, y = slotWord h 0x6C (low_15_10_3b4b5b2 k a sp 0) := ⟨_, rfl⟩
  have he : encodeNat (.wbindC h k a sp) = some y := by rw [hw]; rfl
  unfold low_15_10_3b4b5b2 at hw
  have c0 : y / 2 ^ 0 % 2 ^ 3 = 0 := slot_const hw (Nat.le_of_ble_eq_true rfl) (by omega)
  have c1 : y / 2 ^ 5 % 2 ^ 5 = 0 := slot_const hw (Nat.le_of_ble_eq_true rfl) (by omega)
  have c2 : y / 2 ^ 19 % 2 ^ 1 = 0 := slot_const hw (Nat.le_of_ble_eq_true rfl) (by omega)
  have n0 : ¬y / 2 ^ 0 % 2 ^ 5 = 3 := slot_differs hw (Nat.le_of_ble_eq_true rfl) (by omega)
  have n1 : ¬y / 2 ^ 0 % 2 ^ 5 = 4 := slot_differs hw (Nat.le_of_ble_eq_true rfl) (by omega)
  have n2 : ¬y / 2 ^ 0 % 2 ^ 15 = 2 := slot_differs hw (Nat.le_of_ble_eq_true rfl) (by omega)
  have f0 : Sys2Proof.fld 4 15 y = k := slot_fld hw (Nat.le_of_ble_eq_true rfl) (by omega)
  have f1 : Sys2Proof.fld 5 10 y = a := slot_fld hw (Nat.le_of_ble_eq_true rfl) (by omega)
  have f2 : Sys2Proof.fld 2 3 y = sp := slot_fld hw (Nat.le_of_ble_eq_true rfl) (by omega)
  rw [encode_of he, decode_slot hw (Nat.le_of_ble_eq_true rfl) (by omega), decodeOp_6C]
  simp only [decodeOp6C, slot_hdr hw (Nat.le_of_ble_eq_true rfl) (by omega), c0, c1, c2, n0, n1, n2, f0, f1, f2, true_and, and_true, false_and, and_false, and_self, if_true, if_false, Nat.reduceEqDiff, Nat.reduceDiv]

theorem wbindP (h : Hdr) (k : BitVec 4) (a : BitVec 5) (sp : BitVec 2) : Statement (.wbindP h k a sp) := by
  intro _
  have := k.isLt; have := a.isLt; have := sp.isLt
  obtain ⟨y, hw⟩ : ∃ y, y = slotWord h 0x6C (low_15_10_3b4b5b2 k a sp 1) := ⟨_, rfl⟩
  have he : encodeNat (.wbindP h k a sp) = some y := by rw [hw]; rfl
  unfold low_15_10_3b4b5b2 at hw
  have c0 : y / 2 ^ 0 % 2 ^ 3 = 1 := slot_const hw (Nat.le_of_ble_eq_true rfl) (by omega)
  have c1 : y / 2 ^ 5 % 2 ^ 5 = 0 := slot_const hw (Nat.le_of_ble_eq_true rfl) (by omega)
  have c2 : y / 2 ^ 19 % 2 ^ 1 = 0 := slot_const hw (Nat.le_of_ble_eq_true rfl) (by omega)
  have n0 : ¬y / 2 ^ 0 % 2 ^ 5 = 3 := slot_differs hw (Nat.le_of_ble_eq_true rfl) (by omega)
  have n1 : ¬y / 2 ^ 0 % 2 ^ 5 = 4 := slot_differs hw (Nat.le_of_ble_eq_true rfl) (by omega)
  have n2 : ¬y / 2 ^ 0 % 2 ^ 15 = 2 := slot_differs hw (Nat.le_of_ble_eq_true rfl) (by omega)
  have f0 : Sys2Proof.fld 4 15 y = k := slot_fld hw (Nat.le_of_ble_eq_true rfl) (by omega)
  have f1 : Sys2Proof.fld 5 10 y = a := slot_fld hw (Nat.le_of_ble_eq_true rfl) (by omega)
  have f2 : Sys2Proof.fld 2 3 y = sp := slot_fld hw (Nat.le_of_ble_eq_true rfl) (by omega)
  rw [encode_of he, decode_slot hw (Nat.le_of_ble_eq_true rfl) (by omega), decodeOp_6C]
  simp only [decodeOp6C, slot_hdr hw (Nat.le_of_ble_eq_true rfl) (by omega), c0, c1, c2, n0, n1, n2, f0, f1, f2, true_and, and_true, false_and, and_false, and_self, if_true, if_false, Nat.reduceEqDiff, Nat.reduceDiv]

theorem wunbind (h : Hdr) (k : BitVec 4) : Statement (.wunbind h k) := by
  intro _
  have := k.isLt
  obtain ⟨y, hw⟩ : ∃ y, y = slotWord h 0x6C (low_15b4 k 2) := ⟨_, rfl⟩
  have he : encodeNat (.wunbind h k) = some y := by rw [hw]; rfl
  unfold low_15b4 at hw
  have c0 : y / 2 ^ 0 % 2 ^ 3 = 2 := slot_const hw (Nat.le_of_ble_eq_true rfl) (by omega)
  have c1 : y / 2 ^ 0 % 2 ^ 5 = 2 := slot_const hw (Nat.le_of_ble_eq_true rfl) (by omega)
  have c2 : y / 2 ^ 0 % 2 ^ 15 = 2 := slot_const hw (Nat.le_of_ble_eq_true rfl) (by omega)
  have c3 : y / 2 ^ 5 % 2 ^ 5 = 0 := slot_const hw (Nat.le_of_ble_eq_true rfl) (by omega)
  have c4 : y / 2 ^ 9 % 2 ^ 6 = 0 := slot_const hw (Nat.le_of_ble_eq_true rfl) (by omega)
  have c5 : y / 2 ^ 19 % 2 ^ 1 = 0 := slot_const hw (Nat.le_of_ble_eq_true rfl) (by omega)
  have f0 : Sys2Proof.fld 4 15 y = k := slot_fld hw (Nat.le_of_ble_eq_true rfl) (by omega)
  rw [encode_of he, decode_slot hw (Nat.le_of_ble_eq_true rfl) (by omega), decodeOp_6C]
  simp only [decodeOp6C, slot_hdr hw (Nat.le_of_ble_eq_true rfl) (by omega), c0, c1, c2, c3, c4, c5, f0, true_and, and_true, false_and, and_false, and_self, if_true, if_false, Nat.reduceEqDiff, Nat.reduceDiv]

theorem wstat (h : Hdr) (d : BitVec 5) (k : BitVec 4) : Statement (.wstat h d k) := by
  intro _
  have := d.isLt; have := k.isLt
  obtain ⟨y, hw⟩ : ∃ y, y = slotWord h 0x6C (low_15_5b5b4 d k 3) := ⟨_, rfl⟩
  have he : encodeNat (.wstat h d k) = some y := by rw [hw]; rfl
  unfold low_15_5b5b4 at hw
  have c0 : y / 2 ^ 0 % 2 ^ 3 = 3 := slot_const hw (Nat.le_of_ble_eq_true rfl) (by omega)
  have c1 : y / 2 ^ 0 % 2 ^ 5 = 3 := slot_const hw (Nat.le_of_ble_eq_true rfl) (by omega)
  have c2 : y / 2 ^ 9 % 2 ^ 6 = 0 := slot_const hw (Nat.le_of_ble_eq_true rfl) (by omega)
  have n0 : ¬y / 2 ^ 0 % 2 ^ 15 = 2 := slot_differs hw (Nat.le_of_ble_eq_true rfl) (by omega)
  have f0 : Sys2Proof.fld 5 15 y = d := slot_fld hw (Nat.le_of_ble_eq_true rfl) (by omega)
  have f1 : Sys2Proof.fld 4 5 y = k := slot_fld hw (Nat.le_of_ble_eq_true rfl) (by omega)
  rw [encode_of he, decode_slot hw (Nat.le_of_ble_eq_true rfl) (by omega), decodeOp_6C]
  simp only [decodeOp6C, slot_hdr hw (Nat.le_of_ble_eq_true rfl) (by omega), c0, c1, c2, n0, f0, f1, true_and, and_true, false_and, and_false, and_self, if_true, if_false, Nat.reduceEqDiff, Nat.reduceDiv]

theorem waddr (h : Hdr) (d : BitVec 5) (k : BitVec 4) : Statement (.waddr h d k) := by
  intro _
  have := d.isLt; have := k.isLt
  obtain ⟨y, hw⟩ : ∃ y, y = slotWord h 0x6C (low_15_5b5b4 d k 4) := ⟨_, rfl⟩
  have he : encodeNat (.waddr h d k) = some y := by rw [hw]; rfl
  unfold low_15_5b5b4 at hw
  have c0 : y / 2 ^ 0 % 2 ^ 3 = 4 := slot_const hw (Nat.le_of_ble_eq_true rfl) (by omega)
  have c1 : y / 2 ^ 0 % 2 ^ 5 = 4 := slot_const hw (Nat.le_of_ble_eq_true rfl) (by omega)
  have c2 : y / 2 ^ 9 % 2 ^ 6 = 0 := slot_const hw (Nat.le_of_ble_eq_true rfl) (by omega)
  have n0 : ¬y / 2 ^ 0 % 2 ^ 15 = 2 := slot_differs hw (Nat.le_of_ble_eq_true rfl) (by omega)
  have f0 : Sys2Proof.fld 5 15 y = d := slot_fld hw (Nat.le_of_ble_eq_true rfl) (by omega)
  have f1 : Sys2Proof.fld 4 5 y = k := slot_fld hw (Nat.le_of_ble_eq_true rfl) (by omega)
  rw [encode_of he, decode_slot hw (Nat.le_of_ble_eq_true rfl) (by omega), decodeOp_6C]
  simp only [decodeOp6C, slot_hdr hw (Nat.le_of_ble_eq_true rfl) (by omega), c0, c1, c2, n0, f0, f1, true_and, and_true, false_and, and_false, and_self, if_true, if_false, Nat.reduceEqDiff, Nat.reduceDiv]

theorem mxsc (h : Hdr) (pnm : BitVec 4) (a : BitVec 5) (lc : BitVec 3) (sp : BitVec 2) : Statement (.mxsc h pnm a lc sp) := by
  intro _
  have := pnm.isLt; have := a.isLt; have := lc.isLt; have := sp.isLt
  obtain ⟨y, hw⟩ : ∃ y, y = slotWord h 0x6D (low_16_11_4_0b4b5b3b2 pnm a lc sp 0) := ⟨_, rfl⟩
  have he : encodeNat (.mxsc h pnm a lc sp) = some y := by rw [hw]; rfl
  unfold low_16_11_4_0b4b5b3b2 at hw
  have c0 : y / 2 ^ 2 % 2 ^ 2 = 0 := slot_const hw (Nat.le_of_ble_eq_true rfl) (by omega)
  have c1 : y / 2 ^ 7 % 2 ^ 4 = 0 := slot_const hw (Nat.le_of_ble_eq_true rfl) (by omega)
  have f0 : Sys2Proof.fld 4 16 y = pnm := slot_fld hw (Nat.le_of_ble_eq_true rfl) (by omega)
  have f1 : Sys2Proof.fld 5 11 y = a := slot_fld hw (Nat.le_of_ble_eq_true rfl) (by omega)
  have f2 : Sys2Proof.fld 3 4 y = lc := slot_fld hw (Nat.le_of_ble_eq_true rfl) (by omega)
  have f3 : Sys2Proof.fld 2 0 y = sp := slot_fld hw (Nat.le_of_ble_eq_true rfl) (by omega)
  rw [encode_of he, decode_slot hw (Nat.le_of_ble_eq_true rfl) (by omega), decodeOp_6D]
  simp only [decodeOp6D, slot_hdr hw (Nat.le_of_ble_eq_true rfl) (by omega), c0, c1, f0, f1, f2, f3, true_and, and_true, false_and, and_false, and_self, if_true, if_false, Nat.reduceEqDiff, Nat.reduceDiv]

theorem bankAcq (h : Hdr) (a : BitVec 5) (b : BitVec 5) : Statement (.bankAcq h a b) := by
  intro _
  have := a.isLt; have := b.isLt
  obtain ⟨y, hw⟩ : ∃ y, y = slotWord h 0x6E (low_10_5b5b5 a b 0) := ⟨_, rfl⟩
  have he : encodeNat (.bankAcq h a b) = some y := by rw [hw]; rfl
  unfold low_10_5b5b5 at hw
  have c0 : y / 2 ^ 0 % 2 ^ 5 = 0 := slot_const hw (Nat.le_of_ble_eq_true rfl) (by omega)
  have c1 : y / 2 ^ 15 % 2 ^ 5 = 0 := slot_const hw (Nat.le_of_ble_eq_true rfl) (by omega)
  have n0 : ¬y / 2 ^ 0 % 2 ^ 10 = 1 := slot_differs hw (Nat.le_of_ble_eq_true rfl) (by omega)
  have n1 : ¬y / 2 ^ 0 % 2 ^ 15 = 2 := slot_differs hw (Nat.le_of_ble_eq_true rfl) (by omega)
  have f0 : Sys2Proof.fld 5 10 y = a := slot_fld hw (Nat.le_of_ble_eq_true rfl) (by omega)
  have f1 : Sys2Proof.fld 5 5 y = b := slot_fld hw (Nat.le_of_ble_eq_true rfl) (by omega)
  rw [encode_of he, decode_slot hw (Nat.le_of_ble_eq_true rfl) (by omega), decodeOp_6E]
  simp only [decodeOp6E, slot_hdr hw (Nat.le_of_ble_eq_true rfl) (by omega), c0, c1, n0, n1, f0, f1, true_and, and_true, false_and, and_false, and_self, if_true, if_false, Nat.reduceEqDiff, Nat.reduceDiv]

theorem bankRel (h : Hdr) (a : BitVec 5) : Statement (.bankRel h a) := by
  intro _
  have := a.isLt
  obtain ⟨y, hw⟩ : ∃ y, y = slotWord h 0x6E (low_10b5 a 1) := ⟨_, rfl⟩
  have he : encodeNat (.bankRel h a) = some y := by rw [hw]; rfl
  unfold low_10b5 at hw
  have c0 : y / 2 ^ 0 % 2 ^ 5 = 1 := slot_const hw (Nat.le_of_ble_eq_true rfl) (by omega)
  have c1 : y / 2 ^ 0 % 2 ^ 10 = 1 := slot_const hw (Nat.le_of_ble_eq_true rfl) (by omega)
  have c2 : y / 2 ^ 15 % 2 ^ 5 = 0 := slot_const hw (Nat.le_of_ble_eq_true rfl) (by omega)
  have n0 : ¬y / 2 ^ 0 % 2 ^ 15 = 2 := slot_differs hw (Nat.le_of_ble_eq_true rfl) (by omega)
  have f0 : Sys2Proof.fld 5 10 y = a := slot_fld hw (Nat.le_of_ble_eq_true rfl) (by omega)
  rw [encode_of he, decode_slot hw (Nat.le_of_ble_eq_true rfl) (by omega), decodeOp_6E]
  simp only [decodeOp6E, slot_hdr hw (Nat.le_of_ble_eq_true rfl) (by omega), c0, c1, c2, n0, f0, true_and, and_true, false_and, and_false, and_self, if_true, if_false, Nat.reduceEqDiff, Nat.reduceDiv]

theorem bankRd (h : Hdr) (d : BitVec 5) : Statement (.bankRd h d) := by
  intro _
  have := d.isLt
  obtain ⟨y, hw⟩ : ∃ y, y = slotWord h 0x6E (low_15b5 d 2) := ⟨_, rfl⟩
  have he : encodeNat (.bankRd h d) = some y := by rw [hw]; rfl
  unfold low_15b5 at hw
  have c0 : y / 2 ^ 0 % 2 ^ 5 = 2 := slot_const hw (Nat.le_of_ble_eq_true rfl) (by omega)
  have c1 : y / 2 ^ 0 % 2 ^ 10 = 2 := slot_const hw (Nat.le_of_ble_eq_true rfl) (by omega)
  have c2 : y / 2 ^ 0 % 2 ^ 15 = 2 := slot_const hw (Nat.le_of_ble_eq_true rfl) (by omega)
  have f0 : Sys2Proof.fld 5 15 y = d := slot_fld hw (Nat.le_of_ble_eq_true rfl) (by omega)
  rw [encode_of he, decode_slot hw (Nat.le_of_ble_eq_true rfl) (by omega), decodeOp_6E]
  simp only [decodeOp6E, slot_hdr hw (Nat.le_of_ble_eq_true rfl) (by omega), c0, c1, c2, f0, true_and, and_true, false_and, and_false, and_self, if_true, if_false, Nat.reduceEqDiff, Nat.reduceDiv]

theorem atomSwap (h : Hdr) (d : BitVec 5) (a : BitVec 5) (lc : BitVec 3) (sp : BitVec 2) (w4 : Bool) : Statement (.atomSwap h d a lc sp w4) := by
  intro _
  have := d.isLt; have := a.isLt; have := lc.isLt; have := sp.isLt; have := Bool.toNat_lt2 w4
  obtain ⟨y, hw⟩ : ∃ y, y = slotWord h 0x6F (low_15_10_7_5_4b5b5b3b2b1 d a lc sp w4 0) := ⟨_, rfl⟩
  have he : encodeNat (.atomSwap h d a lc sp w4) = some y := by rw [hw]; rfl
  unfold low_15_10_7_5_4b5b5b3b2b1 at hw
  have c0 : y / 2 ^ 0 % 2 ^ 4 = 0 := slot_const hw (Nat.le_of_ble_eq_true rfl) (by omega)
  have f0 : Sys2Proof.fld 5 15 y = d := slot_fld hw (Nat.le_of_ble_eq_true rfl) (by omega)
  have f1 : Sys2Proof.fld 5 10 y = a := slot_fld hw (Nat.le_of_ble_eq_true rfl) (by omega)
  have f2 : Sys2Proof.fld 3 7 y = lc := slot_fld hw (Nat.le_of_ble_eq_true rfl) (by omega)
  have f3 : Sys2Proof.fld 2 5 y = sp := slot_fld hw (Nat.le_of_ble_eq_true rfl) (by omega)
  have f4 : flag 4 y = w4 := slot_flag hw (Nat.le_of_ble_eq_true rfl) (by omega)
  rw [encode_of he, decode_slot hw (Nat.le_of_ble_eq_true rfl) (by omega), decodeOp_6F]
  simp only [decodeOp6F, slot_hdr hw (Nat.le_of_ble_eq_true rfl) (by omega), c0, f0, f1, f2, f3, f4, true_and, and_true, false_and, and_false, and_self, if_true, if_false, Nat.reduceEqDiff, Nat.reduceDiv]

theorem atomAdd (h : Hdr) (d : BitVec 5) (a : BitVec 5) (lc : BitVec 3) (sp : BitVec 2) (w4 : Bool) : Statement (.atomAdd h d a lc sp w4) := by
  intro _
  have := d.isLt; have := a.isLt; have := lc.isLt; have := sp.isLt; have := Bool.toNat_lt2 w4
  obtain ⟨y, hw⟩ : ∃ y, y = slotWord h 0x6F (low_15_10_7_5_4b5b5b3b2b1 d a lc sp w4 1) := ⟨_, rfl⟩
  have he : encodeNat (.atomAdd h d a lc sp w4) = some y := by rw [hw]; rfl
  unfold low_15_10_7_5_4b5b5b3b2b1 at hw
  have c0 : y / 2 ^ 0 % 2 ^ 4 = 1 := slot_const hw (Nat.le_of_ble_eq_true rfl) (by omega)
  have f0 : Sys2Proof.fld 5 15 y = d := slot_fld hw (Nat.le_of_ble_eq_true rfl) (by omega)
  have f1 : Sys2Proof.fld 5 10 y = a := slot_fld hw (Nat.le_of_ble_eq_true rfl) (by omega)
  have f2 : Sys2Proof.fld 3 7 y = lc := slot_fld hw (Nat.le_of_ble_eq_true rfl) (by omega)
  have f3 : Sys2Proof.fld 2 5 y = sp := slot_fld hw (Nat.le_of_ble_eq_true rfl) (by omega)
  have f4 : flag 4 y = w4 := slot_flag hw (Nat.le_of_ble_eq_true rfl) (by omega)
  rw [encode_of he, decode_slot hw (Nat.le_of_ble_eq_true rfl) (by omega), decodeOp_6F]
  simp only [decodeOp6F, slot_hdr hw (Nat.le_of_ble_eq_true rfl) (by omega), c0, f0, f1, f2, f3, f4, true_and, and_true, false_and, and_false, and_self, if_true, if_false, Nat.reduceEqDiff, Nat.reduceDiv]

theorem atomAnd (h : Hdr) (d : BitVec 5) (a : BitVec 5) (lc : BitVec 3) (sp : BitVec 2) (w4 : Bool) : Statement (.atomAnd h d a lc sp w4) := by
  intro _
  have := d.isLt; have := a.isLt; have := lc.isLt; have := sp.isLt; have := Bool.toNat_lt2 w4
  obtain ⟨y, hw⟩ : ∃ y, y = slotWord h 0x6F (low_15_10_7_5_4b5b5b3b2b1 d a lc sp w4 2) := ⟨_, rfl⟩
  have he : encodeNat (.atomAnd h d a lc sp w4) = some y := by rw [hw]; rfl
  unfold low_15_10_7_5_4b5b5b3b2b1 at hw
  have c0 : y / 2 ^ 0 % 2 ^ 4 = 2 := slot_const hw (Nat.le_of_ble_eq_true rfl) (by omega)
  have f0 : Sys2Proof.fld 5 15 y = d := slot_fld hw (Nat.le_of_ble_eq_true rfl) (by omega)
  have f1 : Sys2Proof.fld 5 10 y = a := slot_fld hw (Nat.le_of_ble_eq_true rfl) (by omega)
  have f2 : Sys2Proof.fld 3 7 y = lc := slot_fld hw (Nat.le_of_ble_eq_true rfl) (by omega)
  have f3 : Sys2Proof.fld 2 5 y = sp := slot_fld hw (Nat.le_of_ble_eq_true rfl) (by omega)
  have f4 : flag 4 y = w4 := slot_flag hw (Nat.le_of_ble_eq_true rfl) (by omega)
  rw [encode_of he, decode_slot hw (Nat.le_of_ble_eq_true rfl) (by omega), decodeOp_6F]
  simp only [decodeOp6F, slot_hdr hw (Nat.le_of_ble_eq_true rfl) (by omega), c0, f0, f1, f2, f3, f4, true_and, and_true, false_and, and_false, and_self, if_true, if_false, Nat.reduceEqDiff, Nat.reduceDiv]

theorem atomOr (h : Hdr) (d : BitVec 5) (a : BitVec 5) (lc : BitVec 3) (sp : BitVec 2) (w4 : Bool) : Statement (.atomOr h d a lc sp w4) := by
  intro _
  have := d.isLt; have := a.isLt; have := lc.isLt; have := sp.isLt; have := Bool.toNat_lt2 w4
  obtain ⟨y, hw⟩ : ∃ y, y = slotWord h 0x6F (low_15_10_7_5_4b5b5b3b2b1 d a lc sp w4 3) := ⟨_, rfl⟩
  have he : encodeNat (.atomOr h d a lc sp w4) = some y := by rw [hw]; rfl
  unfold low_15_10_7_5_4b5b5b3b2b1 at hw
  have c0 : y / 2 ^ 0 % 2 ^ 4 = 3 := slot_const hw (Nat.le_of_ble_eq_true rfl) (by omega)
  have f0 : Sys2Proof.fld 5 15 y = d := slot_fld hw (Nat.le_of_ble_eq_true rfl) (by omega)
  have f1 : Sys2Proof.fld 5 10 y = a := slot_fld hw (Nat.le_of_ble_eq_true rfl) (by omega)
  have f2 : Sys2Proof.fld 3 7 y = lc := slot_fld hw (Nat.le_of_ble_eq_true rfl) (by omega)
  have f3 : Sys2Proof.fld 2 5 y = sp := slot_fld hw (Nat.le_of_ble_eq_true rfl) (by omega)
  have f4 : flag 4 y = w4 := slot_flag hw (Nat.le_of_ble_eq_true rfl) (by omega)
  rw [encode_of he, decode_slot hw (Nat.le_of_ble_eq_true rfl) (by omega), decodeOp_6F]
  simp only [decodeOp6F, slot_hdr hw (Nat.le_of_ble_eq_true rfl) (by omega), c0, f0, f1, f2, f3, f4, true_and, and_true, false_and, and_false, and_self, if_true, if_false, Nat.reduceEqDiff, Nat.reduceDiv]

theorem atomXor (h : Hdr) (d : BitVec 5) (a : BitVec 5) (lc : BitVec 3) (sp : BitVec 2) (w4 : Bool) : Statement (.atomXor h d a lc sp w4) := by
  intro _
  have := d.isLt; have := a.isLt; have := lc.isLt; have := sp.isLt; have := Bool.toNat_lt2 w4
  obtain ⟨y, hw⟩ : ∃ y, y = slotWord h 0x6F (low_15_10_7_5_4b5b5b3b2b1 d a lc sp w4 4) := ⟨_, rfl⟩
  have he : encodeNat (.atomXor h d a lc sp w4) = some y := by rw [hw]; rfl
  unfold low_15_10_7_5_4b5b5b3b2b1 at hw
  have c0 : y / 2 ^ 0 % 2 ^ 4 = 4 := slot_const hw (Nat.le_of_ble_eq_true rfl) (by omega)
  have f0 : Sys2Proof.fld 5 15 y = d := slot_fld hw (Nat.le_of_ble_eq_true rfl) (by omega)
  have f1 : Sys2Proof.fld 5 10 y = a := slot_fld hw (Nat.le_of_ble_eq_true rfl) (by omega)
  have f2 : Sys2Proof.fld 3 7 y = lc := slot_fld hw (Nat.le_of_ble_eq_true rfl) (by omega)
  have f3 : Sys2Proof.fld 2 5 y = sp := slot_fld hw (Nat.le_of_ble_eq_true rfl) (by omega)
  have f4 : flag 4 y = w4 := slot_flag hw (Nat.le_of_ble_eq_true rfl) (by omega)
  rw [encode_of he, decode_slot hw (Nat.le_of_ble_eq_true rfl) (by omega), decodeOp_6F]
  simp only [decodeOp6F, slot_hdr hw (Nat.le_of_ble_eq_true rfl) (by omega), c0, f0, f1, f2, f3, f4, true_and, and_true, false_and, and_false, and_self, if_true, if_false, Nat.reduceEqDiff, Nat.reduceDiv]

theorem atomMin (h : Hdr) (d : BitVec 5) (a : BitVec 5) (lc : BitVec 3) (sp : BitVec 2) (w4 : Bool) : Statement (.atomMin h d a lc sp w4) := by
  intro _
  have := d.isLt; have := a.isLt; have := lc.isLt; have := sp.isLt; have := Bool.toNat_lt2 w4
  obtain ⟨y, hw⟩ : ∃ y, y = slotWord h 0x6F (low_15_10_7_5_4b5b5b3b2b1 d a lc sp w4 5) := ⟨_, rfl⟩
  have he : encodeNat (.atomMin h d a lc sp w4) = some y := by rw [hw]; rfl
  unfold low_15_10_7_5_4b5b5b3b2b1 at hw
  have c0 : y / 2 ^ 0 % 2 ^ 4 = 5 := slot_const hw (Nat.le_of_ble_eq_true rfl) (by omega)
  have f0 : Sys2Proof.fld 5 15 y = d := slot_fld hw (Nat.le_of_ble_eq_true rfl) (by omega)
  have f1 : Sys2Proof.fld 5 10 y = a := slot_fld hw (Nat.le_of_ble_eq_true rfl) (by omega)
  have f2 : Sys2Proof.fld 3 7 y = lc := slot_fld hw (Nat.le_of_ble_eq_true rfl) (by omega)
  have f3 : Sys2Proof.fld 2 5 y = sp := slot_fld hw (Nat.le_of_ble_eq_true rfl) (by omega)
  have f4 : flag 4 y = w4 := slot_flag hw (Nat.le_of_ble_eq_true rfl) (by omega)
  rw [encode_of he, decode_slot hw (Nat.le_of_ble_eq_true rfl) (by omega), decodeOp_6F]
  simp only [decodeOp6F, slot_hdr hw (Nat.le_of_ble_eq_true rfl) (by omega), c0, f0, f1, f2, f3, f4, true_and, and_true, false_and, and_false, and_self, if_true, if_false, Nat.reduceEqDiff, Nat.reduceDiv]

theorem atomMax (h : Hdr) (d : BitVec 5) (a : BitVec 5) (lc : BitVec 3) (sp : BitVec 2) (w4 : Bool) : Statement (.atomMax h d a lc sp w4) := by
  intro _
  have := d.isLt; have := a.isLt; have := lc.isLt; have := sp.isLt; have := Bool.toNat_lt2 w4
  obtain ⟨y, hw⟩ : ∃ y, y = slotWord h 0x6F (low_15_10_7_5_4b5b5b3b2b1 d a lc sp w4 6) := ⟨_, rfl⟩
  have he : encodeNat (.atomMax h d a lc sp w4) = some y := by rw [hw]; rfl
  unfold low_15_10_7_5_4b5b5b3b2b1 at hw
  have c0 : y / 2 ^ 0 % 2 ^ 4 = 6 := slot_const hw (Nat.le_of_ble_eq_true rfl) (by omega)
  have f0 : Sys2Proof.fld 5 15 y = d := slot_fld hw (Nat.le_of_ble_eq_true rfl) (by omega)
  have f1 : Sys2Proof.fld 5 10 y = a := slot_fld hw (Nat.le_of_ble_eq_true rfl) (by omega)
  have f2 : Sys2Proof.fld 3 7 y = lc := slot_fld hw (Nat.le_of_ble_eq_true rfl) (by omega)
  have f3 : Sys2Proof.fld 2 5 y = sp := slot_fld hw (Nat.le_of_ble_eq_true rfl) (by omega)
  have f4 : flag 4 y = w4 := slot_flag hw (Nat.le_of_ble_eq_true rfl) (by omega)
  rw [encode_of he, decode_slot hw (Nat.le_of_ble_eq_true rfl) (by omega), decodeOp_6F]
  simp only [decodeOp6F, slot_hdr hw (Nat.le_of_ble_eq_true rfl) (by omega), c0, f0, f1, f2, f3, f4, true_and, and_true, false_and, and_false, and_self, if_true, if_false, Nat.reduceEqDiff, Nat.reduceDiv]

theorem atomMinu (h : Hdr) (d : BitVec 5) (a : BitVec 5) (lc : BitVec 3) (sp : BitVec 2) (w4 : Bool) : Statement (.atomMinu h d a lc sp w4) := by
  intro _
  have := d.isLt; have := a.isLt; have := lc.isLt; have := sp.isLt; have := Bool.toNat_lt2 w4
  obtain ⟨y, hw⟩ : ∃ y, y = slotWord h 0x6F (low_15_10_7_5_4b5b5b3b2b1 d a lc sp w4 7) := ⟨_, rfl⟩
  have he : encodeNat (.atomMinu h d a lc sp w4) = some y := by rw [hw]; rfl
  unfold low_15_10_7_5_4b5b5b3b2b1 at hw
  have c0 : y / 2 ^ 0 % 2 ^ 4 = 7 := slot_const hw (Nat.le_of_ble_eq_true rfl) (by omega)
  have f0 : Sys2Proof.fld 5 15 y = d := slot_fld hw (Nat.le_of_ble_eq_true rfl) (by omega)
  have f1 : Sys2Proof.fld 5 10 y = a := slot_fld hw (Nat.le_of_ble_eq_true rfl) (by omega)
  have f2 : Sys2Proof.fld 3 7 y = lc := slot_fld hw (Nat.le_of_ble_eq_true rfl) (by omega)
  have f3 : Sys2Proof.fld 2 5 y = sp := slot_fld hw (Nat.le_of_ble_eq_true rfl) (by omega)
  have f4 : flag 4 y = w4 := slot_flag hw (Nat.le_of_ble_eq_true rfl) (by omega)
  rw [encode_of he, decode_slot hw (Nat.le_of_ble_eq_true rfl) (by omega), decodeOp_6F]
  simp only [decodeOp6F, slot_hdr hw (Nat.le_of_ble_eq_true rfl) (by omega), c0, f0, f1, f2, f3, f4, true_and, and_true, false_and, and_false, and_self, if_true, if_false, Nat.reduceEqDiff, Nat.reduceDiv]

theorem atomMaxu (h : Hdr) (d : BitVec 5) (a : BitVec 5) (lc : BitVec 3) (sp : BitVec 2) (w4 : Bool) : Statement (.atomMaxu h d a lc sp w4) := by
  intro _
  have := d.isLt; have := a.isLt; have := lc.isLt; have := sp.isLt; have := Bool.toNat_lt2 w4
  obtain ⟨y, hw⟩ : ∃ y, y = slotWord h 0x6F (low_15_10_7_5_4b5b5b3b2b1 d a lc sp w4 8) := ⟨_, rfl⟩
  have he : encodeNat (.atomMaxu h d a lc sp w4) = some y := by rw [hw]; rfl
  unfold low_15_10_7_5_4b5b5b3b2b1 at hw
  have c0 : y / 2 ^ 0 % 2 ^ 4 = 8 := slot_const hw (Nat.le_of_ble_eq_true rfl) (by omega)
  have f0 : Sys2Proof.fld 5 15 y = d := slot_fld hw (Nat.le_of_ble_eq_true rfl) (by omega)
  have f1 : Sys2Proof.fld 5 10 y = a := slot_fld hw (Nat.le_of_ble_eq_true rfl) (by omega)
  have f2 : Sys2Proof.fld 3 7 y = lc := slot_fld hw (Nat.le_of_ble_eq_true rfl) (by omega)
  have f3 : Sys2Proof.fld 2 5 y = sp := slot_fld hw (Nat.le_of_ble_eq_true rfl) (by omega)
  have f4 : flag 4 y = w4 := slot_flag hw (Nat.le_of_ble_eq_true rfl) (by omega)
  rw [encode_of he, decode_slot hw (Nat.le_of_ble_eq_true rfl) (by omega), decodeOp_6F]
  simp only [decodeOp6F, slot_hdr hw (Nat.le_of_ble_eq_true rfl) (by omega), c0, f0, f1, f2, f3, f4, true_and, and_true, false_and, and_false, and_self, if_true, if_false, Nat.reduceEqDiff, Nat.reduceDiv]

theorem atomCas (h : Hdr) (d : BitVec 5) (a : BitVec 5) (lc : BitVec 3) (sp : BitVec 2) (w4 : Bool) : Statement (.atomCas h d a lc sp w4) := by
  intro _
  have := d.isLt; have := a.isLt; have := lc.isLt; have := sp.isLt; have := Bool.toNat_lt2 w4
  obtain ⟨y, hw⟩ : ∃ y, y = slotWord h 0x6F (low_15_10_7_5_4b5b5b3b2b1 d a lc sp w4 9) := ⟨_, rfl⟩
  have he : encodeNat (.atomCas h d a lc sp w4) = some y := by rw [hw]; rfl
  unfold low_15_10_7_5_4b5b5b3b2b1 at hw
  have c0 : y / 2 ^ 0 % 2 ^ 4 = 9 := slot_const hw (Nat.le_of_ble_eq_true rfl) (by omega)
  have f0 : Sys2Proof.fld 5 15 y = d := slot_fld hw (Nat.le_of_ble_eq_true rfl) (by omega)
  have f1 : Sys2Proof.fld 5 10 y = a := slot_fld hw (Nat.le_of_ble_eq_true rfl) (by omega)
  have f2 : Sys2Proof.fld 3 7 y = lc := slot_fld hw (Nat.le_of_ble_eq_true rfl) (by omega)
  have f3 : Sys2Proof.fld 2 5 y = sp := slot_fld hw (Nat.le_of_ble_eq_true rfl) (by omega)
  have f4 : flag 4 y = w4 := slot_flag hw (Nat.le_of_ble_eq_true rfl) (by omega)
  rw [encode_of he, decode_slot hw (Nat.le_of_ble_eq_true rfl) (by omega), decodeOp_6F]
  simp only [decodeOp6F, slot_hdr hw (Nat.le_of_ble_eq_true rfl) (by omega), c0, f0, f1, f2, f3, f4, true_and, and_true, false_and, and_false, and_self, if_true, if_false, Nat.reduceEqDiff, Nat.reduceDiv]

theorem atomFadd (h : Hdr) (d : BitVec 5) (a : BitVec 5) (lc : BitVec 3) (sp : BitVec 2) (w4 : Bool) : Statement (.atomFadd h d a lc sp w4) := by
  intro _
  have := d.isLt; have := a.isLt; have := lc.isLt; have := sp.isLt; have := Bool.toNat_lt2 w4
  obtain ⟨y, hw⟩ : ∃ y, y = slotWord h 0x6F (low_15_10_7_5_4b5b5b3b2b1 d a lc sp w4 10) := ⟨_, rfl⟩
  have he : encodeNat (.atomFadd h d a lc sp w4) = some y := by rw [hw]; rfl
  unfold low_15_10_7_5_4b5b5b3b2b1 at hw
  have c0 : y / 2 ^ 0 % 2 ^ 4 = 10 := slot_const hw (Nat.le_of_ble_eq_true rfl) (by omega)
  have f0 : Sys2Proof.fld 5 15 y = d := slot_fld hw (Nat.le_of_ble_eq_true rfl) (by omega)
  have f1 : Sys2Proof.fld 5 10 y = a := slot_fld hw (Nat.le_of_ble_eq_true rfl) (by omega)
  have f2 : Sys2Proof.fld 3 7 y = lc := slot_fld hw (Nat.le_of_ble_eq_true rfl) (by omega)
  have f3 : Sys2Proof.fld 2 5 y = sp := slot_fld hw (Nat.le_of_ble_eq_true rfl) (by omega)
  have f4 : flag 4 y = w4 := slot_flag hw (Nat.le_of_ble_eq_true rfl) (by omega)
  rw [encode_of he, decode_slot hw (Nat.le_of_ble_eq_true rfl) (by omega), decodeOp_6F]
  simp only [decodeOp6F, slot_hdr hw (Nat.le_of_ble_eq_true rfl) (by omega), c0, f0, f1, f2, f3, f4, true_and, and_true, false_and, and_false, and_self, if_true, if_false, Nat.reduceEqDiff, Nat.reduceDiv]

theorem barArr (h : Hdr) (a : BitVec 5) (b : BitVec 5) (sc : BitVec 3) : Statement (.barArr h a b sc) := by
  intro _
  have := a.isLt; have := b.isLt; have := sc.isLt
  obtain ⟨y, hw⟩ : ∃ y, y = slotWord h 0x70 (low_10_5_2b5b5b3 a b sc 0) := ⟨_, rfl⟩
  have he : encodeNat (.barArr h a b sc) = some y := by rw [hw]; rfl
  unfold low_10_5_2b5b5b3 at hw
  have c0 : y / 2 ^ 0 % 2 ^ 2 = 0 := slot_const hw (Nat.le_of_ble_eq_true rfl) (by omega)
  have c1 : y / 2 ^ 15 % 2 ^ 5 = 0 := slot_const hw (Nat.le_of_ble_eq_true rfl) (by omega)
  have f0 : Sys2Proof.fld 5 10 y = a := slot_fld hw (Nat.le_of_ble_eq_true rfl) (by omega)
  have f1 : Sys2Proof.fld 5 5 y = b := slot_fld hw (Nat.le_of_ble_eq_true rfl) (by omega)
  have f2 : Sys2Proof.fld 3 2 y = sc := slot_fld hw (Nat.le_of_ble_eq_true rfl) (by omega)
  rw [encode_of he, decode_slot hw (Nat.le_of_ble_eq_true rfl) (by omega), decodeOp_70]
  simp only [decodeOp70, slot_hdr hw (Nat.le_of_ble_eq_true rfl) (by omega), c0, c1, f0, f1, f2, true_and, and_true, false_and, and_false, and_self, if_true, if_false, Nat.reduceEqDiff, Nat.reduceDiv]

theorem barSync (h : Hdr) (a : BitVec 5) (b : BitVec 5) (sc : BitVec 3) : Statement (.barSync h a b sc) := by
  intro _
  have := a.isLt; have := b.isLt; have := sc.isLt
  obtain ⟨y, hw⟩ : ∃ y, y = slotWord h 0x70 (low_10_5_2b5b5b3 a b sc 1) := ⟨_, rfl⟩
  have he : encodeNat (.barSync h a b sc) = some y := by rw [hw]; rfl
  unfold low_10_5_2b5b5b3 at hw
  have c0 : y / 2 ^ 0 % 2 ^ 2 = 1 := slot_const hw (Nat.le_of_ble_eq_true rfl) (by omega)
  have c1 : y / 2 ^ 15 % 2 ^ 5 = 0 := slot_const hw (Nat.le_of_ble_eq_true rfl) (by omega)
  have f0 : Sys2Proof.fld 5 10 y = a := slot_fld hw (Nat.le_of_ble_eq_true rfl) (by omega)
  have f1 : Sys2Proof.fld 5 5 y = b := slot_fld hw (Nat.le_of_ble_eq_true rfl) (by omega)
  have f2 : Sys2Proof.fld 3 2 y = sc := slot_fld hw (Nat.le_of_ble_eq_true rfl) (by omega)
  rw [encode_of he, decode_slot hw (Nat.le_of_ble_eq_true rfl) (by omega), decodeOp_70]
  simp only [decodeOp70, slot_hdr hw (Nat.le_of_ble_eq_true rfl) (by omega), c0, c1, f0, f1, f2, true_and, and_true, false_and, and_false, and_self, if_true, if_false, Nat.reduceEqDiff, Nat.reduceDiv]

theorem barWt (h : Hdr) (a : BitVec 5) (b : BitVec 5) (sc : BitVec 3) : Statement (.barWt h a b sc) := by
  intro _
  have := a.isLt; have := b.isLt; have := sc.isLt
  obtain ⟨y, hw⟩ : ∃ y, y = slotWord h 0x70 (low_10_5_2b5b5b3 a b sc 2) := ⟨_, rfl⟩
  have he : encodeNat (.barWt h a b sc) = some y := by rw [hw]; rfl
  unfold low_10_5_2b5b5b3 at hw
  have c0 : y / 2 ^ 0 % 2 ^ 2 = 2 := slot_const hw (Nat.le_of_ble_eq_true rfl) (by omega)
  have c1 : y / 2 ^ 15 % 2 ^ 5 = 0 := slot_const hw (Nat.le_of_ble_eq_true rfl) (by omega)
  have f0 : Sys2Proof.fld 5 10 y = a := slot_fld hw (Nat.le_of_ble_eq_true rfl) (by omega)
  have f1 : Sys2Proof.fld 5 5 y = b := slot_fld hw (Nat.le_of_ble_eq_true rfl) (by omega)
  have f2 : Sys2Proof.fld 3 2 y = sc := slot_fld hw (Nat.le_of_ble_eq_true rfl) (by omega)
  rw [encode_of he, decode_slot hw (Nat.le_of_ble_eq_true rfl) (by omega), decodeOp_70]
  simp only [decodeOp70, slot_hdr hw (Nat.le_of_ble_eq_true rfl) (by omega), c0, c1, f0, f1, f2, true_and, and_true, false_and, and_false, and_self, if_true, if_false, Nat.reduceEqDiff, Nat.reduceDiv]

theorem drain (h : Hdr) (d : BitVec 5) (sc : BitVec 3) : Statement (.drain h d sc) := by
  intro _
  have := d.isLt; have := sc.isLt
  obtain ⟨y, hw⟩ : ∃ y, y = slotWord h 0x71 (low_15_2b5b3 d sc 0) := ⟨_, rfl⟩
  have he : encodeNat (.drain h d sc) = some y := by rw [hw]; rfl
  unfold low_15_2b5b3 at hw
  have c0 : y / 2 ^ 0 % 2 ^ 2 = 0 := slot_const hw (Nat.le_of_ble_eq_true rfl) (by omega)
  have c1 : y / 2 ^ 5 % 2 ^ 10 = 0 := slot_const hw (Nat.le_of_ble_eq_true rfl) (by omega)
  have f0 : Sys2Proof.fld 5 15 y = d := slot_fld hw (Nat.le_of_ble_eq_true rfl) (by omega)
  have f1 : Sys2Proof.fld 3 2 y = sc := slot_fld hw (Nat.le_of_ble_eq_true rfl) (by omega)
  rw [encode_of he, decode_slot hw (Nat.le_of_ble_eq_true rfl) (by omega), decodeOp_71]
  simp only [decodeOp71, slot_hdr hw (Nat.le_of_ble_eq_true rfl) (by omega), c0, c1, f0, f1, true_and, and_true, false_and, and_false, and_self, if_true, if_false, Nat.reduceEqDiff, Nat.reduceDiv]

theorem rteClm (h : Hdr) (d : BitVec 5) (a : BitVec 5) (b : BitVec 5) : Statement (.rteClm h d a b) := by
  intro _
  have := d.isLt; have := a.isLt; have := b.isLt
  obtain ⟨y, hw⟩ : ∃ y, y = slotWord h 0x72 (low_15_10_5b5b5b5 d a b 0) := ⟨_, rfl⟩
  have he : encodeNat (.rteClm h d a b) = some y := by rw [hw]; rfl
  unfold low_15_10_5b5b5b5 at hw
  have c0 : y / 2 ^ 0 % 2 ^ 5 = 0 := slot_const hw (Nat.le_of_ble_eq_true rfl) (by omega)
  have f0 : Sys2Proof.fld 5 15 y = d := slot_fld hw (Nat.le_of_ble_eq_true rfl) (by omega)
  have f1 : Sys2Proof.fld 5 10 y = a := slot_fld hw (Nat.le_of_ble_eq_true rfl) (by omega)
  have f2 : Sys2Proof.fld 5 5 y = b := slot_fld hw (Nat.le_of_ble_eq_true rfl) (by omega)
  rw [encode_of he, decode_slot hw (Nat.le_of_ble_eq_true rfl) (by omega), decodeOp_72]
  simp only [decodeOp72, slot_hdr hw (Nat.le_of_ble_eq_true rfl) (by omega), c0, f0, f1, f2, true_and, and_true, false_and, and_false, and_self, if_true, if_false, Nat.reduceEqDiff, Nat.reduceDiv]

theorem rteSnd (h : Hdr) (vs : BitVec 5) (a : BitVec 5) (b : BitVec 5) : Statement (.rteSnd h vs a b) := by
  intro _
  have := vs.isLt; have := a.isLt; have := b.isLt
  obtain ⟨y, hw⟩ : ∃ y, y = slotWord h 0x72 (low_15_10_5b5b5b5 vs a b 1) := ⟨_, rfl⟩
  have he : encodeNat (.rteSnd h vs a b) = some y := by rw [hw]; rfl
  unfold low_15_10_5b5b5b5 at hw
  have c0 : y / 2 ^ 0 % 2 ^ 5 = 1 := slot_const hw (Nat.le_of_ble_eq_true rfl) (by omega)
  have f0 : Sys2Proof.fld 5 15 y = vs := slot_fld hw (Nat.le_of_ble_eq_true rfl) (by omega)
  have f1 : Sys2Proof.fld 5 10 y = a := slot_fld hw (Nat.le_of_ble_eq_true rfl) (by omega)
  have f2 : Sys2Proof.fld 5 5 y = b := slot_fld hw (Nat.le_of_ble_eq_true rfl) (by omega)
  rw [encode_of he, decode_slot hw (Nat.le_of_ble_eq_true rfl) (by omega), decodeOp_72]
  simp only [decodeOp72, slot_hdr hw (Nat.le_of_ble_eq_true rfl) (by omega), c0, f0, f1, f2, true_and, and_true, false_and, and_false, and_self, if_true, if_false, Nat.reduceEqDiff, Nat.reduceDiv]

theorem evtSig (h : Hdr) (a : BitVec 5) : Statement (.evtSig h a) := by
  intro _
  have := a.isLt
  obtain ⟨y, hw⟩ : ∃ y, y = slotWord h 0x73 (low_10b5 a 0) := ⟨_, rfl⟩
  have he : encodeNat (.evtSig h a) = some y := by rw [hw]; rfl
  unfold low_10b5 at hw
  have c0 : y / 2 ^ 0 % 2 ^ 5 = 0 := slot_const hw (Nat.le_of_ble_eq_true rfl) (by omega)
  have c1 : y / 2 ^ 0 % 2 ^ 10 = 0 := slot_const hw (Nat.le_of_ble_eq_true rfl) (by omega)
  have c2 : y / 2 ^ 15 % 2 ^ 5 = 0 := slot_const hw (Nat.le_of_ble_eq_true rfl) (by omega)
  have f0 : Sys2Proof.fld 5 10 y = a := slot_fld hw (Nat.le_of_ble_eq_true rfl) (by omega)
  rw [encode_of he, decode_slot hw (Nat.le_of_ble_eq_true rfl) (by omega), decodeOp_73]
  simp only [decodeOp73, slot_hdr hw (Nat.le_of_ble_eq_true rfl) (by omega), c0, c1, c2, f0, true_and, and_true, false_and, and_false, and_self, if_true, if_false, Nat.reduceEqDiff, Nat.reduceDiv]

theorem evtWait (h : Hdr) (a : BitVec 5) (b : BitVec 5) : Statement (.evtWait h a b) := by
  intro _
  have := a.isLt; have := b.isLt
  obtain ⟨y, hw⟩ : ∃ y, y = slotWord h 0x73 (low_10_5b5b5 a b 1) := ⟨_, rfl⟩
  have he : encodeNat (.evtWait h a b) = some y := by rw [hw]; rfl
  unfold low_10_5b5b5 at hw
  have c0 : y / 2 ^ 0 % 2 ^ 5 = 1 := slot_const hw (Nat.le_of_ble_eq_true rfl) (by omega)
  have c1 : y / 2 ^ 15 % 2 ^ 5 = 0 := slot_const hw (Nat.le_of_ble_eq_true rfl) (by omega)
  have n0 : ¬y / 2 ^ 0 % 2 ^ 10 = 0 := slot_differs hw (Nat.le_of_ble_eq_true rfl) (by omega)
  have n1 : ¬y / 2 ^ 0 % 2 ^ 10 = 2 := slot_differs hw (Nat.le_of_ble_eq_true rfl) (by omega)
  have f0 : Sys2Proof.fld 5 10 y = a := slot_fld hw (Nat.le_of_ble_eq_true rfl) (by omega)
  have f1 : Sys2Proof.fld 5 5 y = b := slot_fld hw (Nat.le_of_ble_eq_true rfl) (by omega)
  rw [encode_of he, decode_slot hw (Nat.le_of_ble_eq_true rfl) (by omega), decodeOp_73]
  simp only [decodeOp73, slot_hdr hw (Nat.le_of_ble_eq_true rfl) (by omega), c0, c1, n0, n1, f0, f1, true_and, and_true, false_and, and_false, and_self, if_true, if_false, Nat.reduceEqDiff, Nat.reduceDiv]

theorem evtRd (h : Hdr) (d : BitVec 5) (a : BitVec 5) : Statement (.evtRd h d a) := by
  intro _
  have := d.isLt; have := a.isLt
  obtain ⟨y, hw⟩ : ∃ y, y = slotWord h 0x73 (low_15_10b5b5 d a 2) := ⟨_, rfl⟩
  have he : encodeNat (.evtRd h d a) = some y := by rw [hw]; rfl
  unfold low_15_10b5b5 at hw
  have c0 : y / 2 ^ 0 % 2 ^ 5 = 2 := slot_const hw (Nat.le_of_ble_eq_true rfl) (by omega)
  have c1 : y / 2 ^ 0 % 2 ^ 10 = 2 := slot_const hw (Nat.le_of_ble_eq_true rfl) (by omega)
  have f0 : Sys2Proof.fld 5 15 y = d := slot_fld hw (Nat.le_of_ble_eq_true rfl) (by omega)
  have f1 : Sys2Proof.fld 5 10 y = a := slot_fld hw (Nat.le_of_ble_eq_true rfl) (by omega)
  rw [encode_of he, decode_slot hw (Nat.le_of_ble_eq_true rfl) (by omega), decodeOp_73]
  simp only [decodeOp73, slot_hdr hw (Nat.le_of_ble_eq_true rfl) (by omega), c0, c1, f0, f1, true_and, and_true, false_and, and_false, and_self, if_true, if_false, Nat.reduceEqDiff, Nat.reduceDiv]

theorem task (h : Hdr) (d : BitVec 5) (a : BitVec 5) : Statement (.task h d a) := by
  intro _
  have := d.isLt; have := a.isLt
  obtain ⟨y, hw⟩ : ∃ y, y = slotWord h 0x74 (low_15_10b5b5 d a 0) := ⟨_, rfl⟩
  have he : encodeNat (.task h d a) = some y := by rw [hw]; rfl
  unfold low_15_10b5b5 at hw
  have c0 : y / 2 ^ 0 % 2 ^ 10 = 0 := slot_const hw (Nat.le_of_ble_eq_true rfl) (by omega)
  have f0 : Sys2Proof.fld 5 15 y = d := slot_fld hw (Nat.le_of_ble_eq_true rfl) (by omega)
  have f1 : Sys2Proof.fld 5 10 y = a := slot_fld hw (Nat.le_of_ble_eq_true rfl) (by omega)
  rw [encode_of he, decode_slot hw (Nat.le_of_ble_eq_true rfl) (by omega), decodeOp_74]
  simp only [decodeOp74, slot_hdr hw (Nat.le_of_ble_eq_true rfl) (by omega), c0, f0, f1, true_and, and_true, false_and, and_false, and_self, if_true, if_false, Nat.reduceEqDiff, Nat.reduceDiv]

theorem dspj (h : Hdr) (d : BitVec 5) (a : BitVec 5) (b : BitVec 5) : Statement (.dspj h d a b) := by
  intro _
  have := d.isLt; have := a.isLt; have := b.isLt
  obtain ⟨y, hw⟩ : ∃ y, y = slotWord h 0x75 (low_15_10_5b5b5b5 d a b 0) := ⟨_, rfl⟩
  have he : encodeNat (.dspj h d a b) = some y := by rw [hw]; rfl
  unfold low_15_10_5b5b5b5 at hw
  have c0 : y / 2 ^ 0 % 2 ^ 5 = 0 := slot_const hw (Nat.le_of_ble_eq_true rfl) (by omega)
  have f0 : Sys2Proof.fld 5 15 y = d := slot_fld hw (Nat.le_of_ble_eq_true rfl) (by omega)
  have f1 : Sys2Proof.fld 5 10 y = a := slot_fld hw (Nat.le_of_ble_eq_true rfl) (by omega)
  have f2 : Sys2Proof.fld 5 5 y = b := slot_fld hw (Nat.le_of_ble_eq_true rfl) (by omega)
  rw [encode_of he, decode_slot hw (Nat.le_of_ble_eq_true rfl) (by omega), decodeOp_75]
  simp only [decodeOp75, slot_hdr hw (Nat.le_of_ble_eq_true rfl) (by omega), c0, f0, f1, f2, true_and, and_true, false_and, and_false, and_self, if_true, if_false, Nat.reduceEqDiff, Nat.reduceDiv]

theorem ctxRd (h : Hdr) (d : BitVec 5) (a : BitVec 5) (b : BitVec 5) : Statement (.ctxRd h d a b) := by
  intro _
  have := d.isLt; have := a.isLt; have := b.isLt
  obtain ⟨y, hw⟩ : ∃ y, y = slotWord h 0x76 (low_15_10_5b5b5b5 d a b 0) := ⟨_, rfl⟩
  have he : encodeNat (.ctxRd h d a b) = some y := by rw [hw]; rfl
  unfold low_15_10_5b5b5b5 at hw
  have c0 : y / 2 ^ 0 % 2 ^ 5 = 0 := slot_const hw (Nat.le_of_ble_eq_true rfl) (by omega)
  have f0 : Sys2Proof.fld 5 15 y = d := slot_fld hw (Nat.le_of_ble_eq_true rfl) (by omega)
  have f1 : Sys2Proof.fld 5 10 y = a := slot_fld hw (Nat.le_of_ble_eq_true rfl) (by omega)
  have f2 : Sys2Proof.fld 5 5 y = b := slot_fld hw (Nat.le_of_ble_eq_true rfl) (by omega)
  rw [encode_of he, decode_slot hw (Nat.le_of_ble_eq_true rfl) (by omega), decodeOp_76]
  simp only [decodeOp76, slot_hdr hw (Nat.le_of_ble_eq_true rfl) (by omega), c0, f0, f1, f2, true_and, and_true, false_and, and_false, and_self, if_true, if_false, Nat.reduceEqDiff, Nat.reduceDiv]

theorem ctxWr (h : Hdr) (d : BitVec 5) (a : BitVec 5) (b : BitVec 5) : Statement (.ctxWr h d a b) := by
  intro _
  have := d.isLt; have := a.isLt; have := b.isLt
  obtain ⟨y, hw⟩ : ∃ y, y = slotWord h 0x76 (low_15_10_5b5b5b5 d a b 1) := ⟨_, rfl⟩
  have he : encodeNat (.ctxWr h d a b) = some y := by rw [hw]; rfl
  unfold low_15_10_5b5b5b5 at hw
  have c0 : y / 2 ^ 0 % 2 ^ 5 = 1 := slot_const hw (Nat.le_of_ble_eq_true rfl) (by omega)
  have f0 : Sys2Proof.fld 5 15 y = d := slot_fld hw (Nat.le_of_ble_eq_true rfl) (by omega)
  have f1 : Sys2Proof.fld 5 10 y = a := slot_fld hw (Nat.le_of_ble_eq_true rfl) (by omega)
  have f2 : Sys2Proof.fld 5 5 y = b := slot_fld hw (Nat.le_of_ble_eq_true rfl) (by omega)
  rw [encode_of he, decode_slot hw (Nat.le_of_ble_eq_true rfl) (by omega), decodeOp_76]
  simp only [decodeOp76, slot_hdr hw (Nat.le_of_ble_eq_true rfl) (by omega), c0, f0, f1, f2, true_and, and_true, false_and, and_false, and_self, if_true, if_false, Nat.reduceEqDiff, Nat.reduceDiv]

theorem csvSave (h : Hdr) (a : BitVec 5) (b : BitVec 5) : Statement (.csvSave h a b) := by
  intro _
  have := a.isLt; have := b.isLt
  obtain ⟨y, hw⟩ : ∃ y, y = slotWord h 0x77 (low_10_5b5b5 a b 0) := ⟨_, rfl⟩
  have he : encodeNat (.csvSave h a b) = some y := by rw [hw]; rfl
  unfold low_10_5b5b5 at hw
  have c0 : y / 2 ^ 0 % 2 ^ 5 = 0 := slot_const hw (Nat.le_of_ble_eq_true rfl) (by omega)
  have c1 : y / 2 ^ 15 % 2 ^ 5 = 0 := slot_const hw (Nat.le_of_ble_eq_true rfl) (by omega)
  have n0 : ¬y / 2 ^ 0 % 2 ^ 10 = 2 := slot_differs hw (Nat.le_of_ble_eq_true rfl) (by omega)
  have f0 : Sys2Proof.fld 5 10 y = a := slot_fld hw (Nat.le_of_ble_eq_true rfl) (by omega)
  have f1 : Sys2Proof.fld 5 5 y = b := slot_fld hw (Nat.le_of_ble_eq_true rfl) (by omega)
  rw [encode_of he, decode_slot hw (Nat.le_of_ble_eq_true rfl) (by omega), decodeOp_77]
  simp only [decodeOp77, slot_hdr hw (Nat.le_of_ble_eq_true rfl) (by omega), c0, c1, n0, f0, f1, true_and, and_true, false_and, and_false, and_self, if_true, if_false, Nat.reduceEqDiff, Nat.reduceDiv]

theorem csvLd (h : Hdr) (a : BitVec 5) (b : BitVec 5) : Statement (.csvLd h a b) := by
  intro _
  have := a.isLt; have := b.isLt
  obtain ⟨y, hw⟩ : ∃ y, y = slotWord h 0x77 (low_10_5b5b5 a b 1) := ⟨_, rfl⟩
  have he : encodeNat (.csvLd h a b) = some y := by rw [hw]; rfl
  unfold low_10_5b5b5 at hw
  have c0 : y / 2 ^ 0 % 2 ^ 5 = 1 := slot_const hw (Nat.le_of_ble_eq_true rfl) (by omega)
  have c1 : y / 2 ^ 15 % 2 ^ 5 = 0 := slot_const hw (Nat.le_of_ble_eq_true rfl) (by omega)
  have n0 : ¬y / 2 ^ 0 % 2 ^ 10 = 2 := slot_differs hw (Nat.le_of_ble_eq_true rfl) (by omega)
  have f0 : Sys2Proof.fld 5 10 y = a := slot_fld hw (Nat.le_of_ble_eq_true rfl) (by omega)
  have f1 : Sys2Proof.fld 5 5 y = b := slot_fld hw (Nat.le_of_ble_eq_true rfl) (by omega)
  rw [encode_of he, decode_slot hw (Nat.le_of_ble_eq_true rfl) (by omega), decodeOp_77]
  simp only [decodeOp77, slot_hdr hw (Nat.le_of_ble_eq_true rfl) (by omega), c0, c1, n0, f0, f1, true_and, and_true, false_and, and_false, and_self, if_true, if_false, Nat.reduceEqDiff, Nat.reduceDiv]

theorem csvFree (h : Hdr) (a : BitVec 5) : Statement (.csvFree h a) := by
  intro _
  have := a.isLt
  obtain ⟨y, hw⟩ : ∃ y, y = slotWord h 0x77 (low_10b5 a 2) := ⟨_, rfl⟩
  have he : encodeNat (.csvFree h a) = some y := by rw [hw]; rfl
  unfold low_10b5 at hw
  have c0 : y / 2 ^ 0 % 2 ^ 5 = 2 := slot_const hw (Nat.le_of_ble_eq_true rfl) (by omega)
  have c1 : y / 2 ^ 0 % 2 ^ 10 = 2 := slot_const hw (Nat.le_of_ble_eq_true rfl) (by omega)
  have c2 : y / 2 ^ 15 % 2 ^ 5 = 0 := slot_const hw (Nat.le_of_ble_eq_true rfl) (by omega)
  have f0 : Sys2Proof.fld 5 10 y = a := slot_fld hw (Nat.le_of_ble_eq_true rfl) (by omega)
  rw [encode_of he, decode_slot hw (Nat.le_of_ble_eq_true rfl) (by omega), decodeOp_77]
  simp only [decodeOp77, slot_hdr hw (Nat.le_of_ble_eq_true rfl) (by omega), c0, c1, c2, f0, true_and, and_true, false_and, and_false, and_self, if_true, if_false, Nat.reduceEqDiff, Nat.reduceDiv]

theorem csvEnd (h : Hdr) (b : BitVec 5) : Statement (.csvEnd h b) := by
  intro _
  have := b.isLt
  obtain ⟨y, hw⟩ : ∃ y, y = slotWord h 0x77 (low_5b5 b 3) := ⟨_, rfl⟩
  have he : encodeNat (.csvEnd h b) = some y := by rw [hw]; rfl
  unfold low_5b5 at hw
  have c0 : y / 2 ^ 0 % 2 ^ 5 = 3 := slot_const hw (Nat.le_of_ble_eq_true rfl) (by omega)
  have c1 : y / 2 ^ 10 % 2 ^ 10 = 0 := slot_const hw (Nat.le_of_ble_eq_true rfl) (by omega)
  have c2 : y / 2 ^ 15 % 2 ^ 5 = 0 := slot_const hw (Nat.le_of_ble_eq_true rfl) (by omega)
  have n0 : ¬y / 2 ^ 0 % 2 ^ 10 = 2 := slot_differs hw (Nat.le_of_ble_eq_true rfl) (by omega)
  have f0 : Sys2Proof.fld 5 5 y = b := slot_fld hw (Nat.le_of_ble_eq_true rfl) (by omega)
  rw [encode_of he, decode_slot hw (Nat.le_of_ble_eq_true rfl) (by omega), decodeOp_77]
  simp only [decodeOp77, slot_hdr hw (Nat.le_of_ble_eq_true rfl) (by omega), c0, c1, c2, n0, f0, true_and, and_true, false_and, and_false, and_self, if_true, if_false, Nat.reduceEqDiff, Nat.reduceDiv]

theorem tret (h : Hdr) (a : BitVec 5) : Statement (.tret h a) := by
  intro _
  have := a.isLt
  obtain ⟨y, hw⟩ : ∃ y, y = slotWord h 0x78 (low_10b5 a 0) := ⟨_, rfl⟩
  have he : encodeNat (.tret h a) = some y := by rw [hw]; rfl
  unfold low_10b5 at hw
  have c0 : y / 2 ^ 0 % 2 ^ 10 = 0 := slot_const hw (Nat.le_of_ble_eq_true rfl) (by omega)
  have c1 : y / 2 ^ 15 % 2 ^ 5 = 0 := slot_const hw (Nat.le_of_ble_eq_true rfl) (by omega)
  have f0 : Sys2Proof.fld 5 10 y = a := slot_fld hw (Nat.le_of_ble_eq_true rfl) (by omega)
  rw [encode_of he, decode_slot hw (Nat.le_of_ble_eq_true rfl) (by omega), decodeOp_78]
  simp only [decodeOp78, slot_hdr hw (Nat.le_of_ble_eq_true rfl) (by omega), c0, c1, f0, true_and, and_true, false_and, and_false, and_self, if_true, if_false, Nat.reduceEqDiff, Nat.reduceDiv]

theorem tlbiAll (h : Hdr) (pkg : Bool) : Statement (.tlbiAll h pkg) := by
  intro _
  have := Bool.toNat_lt2 pkg
  obtain ⟨y, hw⟩ : ∃ y, y = slotWord h 0x79 (low_2b1 pkg 0) := ⟨_, rfl⟩
  have he : encodeNat (.tlbiAll h pkg) = some y := by rw [hw]; rfl
  unfold low_2b1 at hw
  have c0 : y / 2 ^ 0 % 2 ^ 2 = 0 := slot_const hw (Nat.le_of_ble_eq_true rfl) (by omega)
  have c1 : y / 2 ^ 3 % 2 ^ 2 = 0 := slot_const hw (Nat.le_of_ble_eq_true rfl) (by omega)
  have c2 : y / 2 ^ 3 % 2 ^ 7 = 0 := slot_const hw (Nat.le_of_ble_eq_true rfl) (by omega)
  have c3 : y / 2 ^ 3 % 2 ^ 17 = 0 := slot_const hw (Nat.le_of_ble_eq_true rfl) (by omega)
  have c4 : y / 2 ^ 15 % 2 ^ 5 = 0 := slot_const hw (Nat.le_of_ble_eq_true rfl) (by omega)
  have f0 : flag 2 y = pkg := slot_flag hw (Nat.le_of_ble_eq_true rfl) (by omega)
  rw [encode_of he, decode_slot hw (Nat.le_of_ble_eq_true rfl) (by omega), decodeOp_79]
  simp only [decodeOp79, slot_hdr hw (Nat.le_of_ble_eq_true rfl) (by omega), c0, c1, c2, c3, c4, f0, true_and, and_true, false_and, and_false, and_self, if_true, if_false, Nat.reduceEqDiff, Nat.reduceDiv]

theorem tlbiVf (h : Hdr) (a : BitVec 5) (pkg : Bool) : Statement (.tlbiVf h a pkg) := by
  intro _
  have := a.isLt; have := Bool.toNat_lt2 pkg
  obtain ⟨y, hw⟩ : ∃ y, y = slotWord h 0x79 (low_10_2b5b1 a pkg 1) := ⟨_, rfl⟩
  have he : encodeNat (.tlbiVf h a pkg) = some y := by rw [hw]; rfl
  unfold low_10_2b5b1 at hw
  have c0 : y / 2 ^ 0 % 2 ^ 2 = 1 := slot_const hw (Nat.le_of_ble_eq_true rfl) (by omega)
  have c1 : y / 2 ^ 3 % 2 ^ 2 = 0 := slot_const hw (Nat.le_of_ble_eq_true rfl) (by omega)
  have c2 : y / 2 ^ 3 % 2 ^ 7 = 0 := slot_const hw (Nat.le_of_ble_eq_true rfl) (by omega)
  have c3 : y / 2 ^ 15 % 2 ^ 5 = 0 := slot_const hw (Nat.le_of_ble_eq_true rfl) (by omega)
  have f0 : Sys2Proof.fld 5 10 y = a := slot_fld hw (Nat.le_of_ble_eq_true rfl) (by omega)
  have f1 : flag 2 y = pkg := slot_flag hw (Nat.le_of_ble_eq_true rfl) (by omega)
  rw [encode_of he, decode_slot hw (Nat.le_of_ble_eq_true rfl) (by omega), decodeOp_79]
  simp only [decodeOp79, slot_hdr hw (Nat.le_of_ble_eq_true rfl) (by omega), c0, c1, c2, c3, f0, f1, true_and, and_true, false_and, and_false, and_self, if_true, if_false, Nat.reduceEqDiff, Nat.reduceDiv]

theorem tlbiPg (h : Hdr) (a : BitVec 5) (b : BitVec 5) (pkg : Bool) : Statement (.tlbiPg h a b pkg) := by
  intro _
  have := a.isLt; have := b.isLt; have := Bool.toNat_lt2 pkg
  obtain ⟨y, hw⟩ : ∃ y, y = slotWord h 0x79 (low_10_5_2b5b5b1 a b pkg 2) := ⟨_, rfl⟩
  have he : encodeNat (.tlbiPg h a b pkg) = some y := by rw [hw]; rfl
  unfold low_10_5_2b5b5b1 at hw
  have c0 : y / 2 ^ 0 % 2 ^ 2 = 2 := slot_const hw (Nat.le_of_ble_eq_true rfl) (by omega)
  have c1 : y / 2 ^ 3 % 2 ^ 2 = 0 := slot_const hw (Nat.le_of_ble_eq_true rfl) (by omega)
  have c2 : y / 2 ^ 15 % 2 ^ 5 = 0 := slot_const hw (Nat.le_of_ble_eq_true rfl) (by omega)
  have f0 : Sys2Proof.fld 5 10 y = a := slot_fld hw (Nat.le_of_ble_eq_true rfl) (by omega)
  have f1 : Sys2Proof.fld 5 5 y = b := slot_fld hw (Nat.le_of_ble_eq_true rfl) (by omega)
  have f2 : flag 2 y = pkg := slot_flag hw (Nat.le_of_ble_eq_true rfl) (by omega)
  rw [encode_of he, decode_slot hw (Nat.le_of_ble_eq_true rfl) (by omega), decodeOp_79]
  simp only [decodeOp79, slot_hdr hw (Nat.le_of_ble_eq_true rfl) (by omega), c0, c1, c2, f0, f1, f2, true_and, and_true, false_and, and_false, and_self, if_true, if_false, Nat.reduceEqDiff, Nat.reduceDiv]

theorem monCfg (h : Hdr) (a : BitVec 5) (b : BitVec 5) : Statement (.monCfg h a b) := by
  intro _
  have := a.isLt; have := b.isLt
  obtain ⟨y, hw⟩ : ∃ y, y = slotWord h 0x7A (low_10_5b5b5 a b 0) := ⟨_, rfl⟩
  have he : encodeNat (.monCfg h a b) = some y := by rw [hw]; rfl
  unfold low_10_5b5b5 at hw
  have c0 : y / 2 ^ 0 % 2 ^ 5 = 0 := slot_const hw (Nat.le_of_ble_eq_true rfl) (by omega)
  have c1 : y / 2 ^ 15 % 2 ^ 5 = 0 := slot_const hw (Nat.le_of_ble_eq_true rfl) (by omega)
  have n0 : ¬y / 2 ^ 0 % 2 ^ 10 = 1 := slot_differs hw (Nat.le_of_ble_eq_true rfl) (by omega)
  have n1 : ¬y / 2 ^ 0 % 2 ^ 10 = 2 := slot_differs hw (Nat.le_of_ble_eq_true rfl) (by omega)
  have f0 : Sys2Proof.fld 5 10 y = a := slot_fld hw (Nat.le_of_ble_eq_true rfl) (by omega)
  have f1 : Sys2Proof.fld 5 5 y = b := slot_fld hw (Nat.le_of_ble_eq_true rfl) (by omega)
  rw [encode_of he, decode_slot hw (Nat.le_of_ble_eq_true rfl) (by omega), decodeOp_7A]
  simp only [decodeOp7A, slot_hdr hw (Nat.le_of_ble_eq_true rfl) (by omega), c0, c1, n0, n1, f0, f1, true_and, and_true, false_and, and_false, and_self, if_true, if_false, Nat.reduceEqDiff, Nat.reduceDiv]

theorem monRd (h : Hdr) (d : BitVec 5) (a : BitVec 5) : Statement (.monRd h d a) := by
  intro _
  have := d.isLt; have := a.isLt
  obtain ⟨y, hw⟩ : ∃ y, y = slotWord h 0x7A (low_15_10b5b5 d a 1) := ⟨_, rfl⟩
  have he : encodeNat (.monRd h d a) = some y := by rw [hw]; rfl
  unfold low_15_10b5b5 at hw
  have c0 : y / 2 ^ 0 % 2 ^ 5 = 1 := slot_const hw (Nat.le_of_ble_eq_true rfl) (by omega)
  have c1 : y / 2 ^ 0 % 2 ^ 10 = 1 := slot_const hw (Nat.le_of_ble_eq_true rfl) (by omega)
  have f0 : Sys2Proof.fld 5 15 y = d := slot_fld hw (Nat.le_of_ble_eq_true rfl) (by omega)
  have f1 : Sys2Proof.fld 5 10 y = a := slot_fld hw (Nat.le_of_ble_eq_true rfl) (by omega)
  rw [encode_of he, decode_slot hw (Nat.le_of_ble_eq_true rfl) (by omega), decodeOp_7A]
  simp only [decodeOp7A, slot_hdr hw (Nat.le_of_ble_eq_true rfl) (by omega), c0, c1, f0, f1, true_and, and_true, false_and, and_false, and_self, if_true, if_false, Nat.reduceEqDiff, Nat.reduceDiv]

theorem monClr (h : Hdr) (a : BitVec 5) : Statement (.monClr h a) := by
  intro _
  have := a.isLt
  obtain ⟨y, hw⟩ : ∃ y, y = slotWord h 0x7A (low_10b5 a 2) := ⟨_, rfl⟩
  have he : encodeNat (.monClr h a) = some y := by rw [hw]; rfl
  unfold low_10b5 at hw
  have c0 : y / 2 ^ 0 % 2 ^ 5 = 2 := slot_const hw (Nat.le_of_ble_eq_true rfl) (by omega)
  have c1 : y / 2 ^ 0 % 2 ^ 10 = 2 := slot_const hw (Nat.le_of_ble_eq_true rfl) (by omega)
  have c2 : y / 2 ^ 15 % 2 ^ 5 = 0 := slot_const hw (Nat.le_of_ble_eq_true rfl) (by omega)
  have f0 : Sys2Proof.fld 5 10 y = a := slot_fld hw (Nat.le_of_ble_eq_true rfl) (by omega)
  rw [encode_of he, decode_slot hw (Nat.le_of_ble_eq_true rfl) (by omega), decodeOp_7A]
  simp only [decodeOp7A, slot_hdr hw (Nat.le_of_ble_eq_true rfl) (by omega), c0, c1, c2, f0, true_and, and_true, false_and, and_false, and_self, if_true, if_false, Nat.reduceEqDiff, Nat.reduceDiv]

theorem wswOut (h : Hdr) (a : BitVec 5) (b : BitVec 5) : Statement (.wswOut h a b) := by
  intro _
  have := a.isLt; have := b.isLt
  obtain ⟨y, hw⟩ : ∃ y, y = slotWord h 0x7B (low_10_5b5b5 a b 0) := ⟨_, rfl⟩
  have he : encodeNat (.wswOut h a b) = some y := by rw [hw]; rfl
  unfold low_10_5b5b5 at hw
  have c0 : y / 2 ^ 0 % 2 ^ 5 = 0 := slot_const hw (Nat.le_of_ble_eq_true rfl) (by omega)
  have c1 : y / 2 ^ 15 % 2 ^ 5 = 0 := slot_const hw (Nat.le_of_ble_eq_true rfl) (by omega)
  have f0 : Sys2Proof.fld 5 10 y = a := slot_fld hw (Nat.le_of_ble_eq_true rfl) (by omega)
  have f1 : Sys2Proof.fld 5 5 y = b := slot_fld hw (Nat.le_of_ble_eq_true rfl) (by omega)
  rw [encode_of he, decode_slot hw (Nat.le_of_ble_eq_true rfl) (by omega), decodeOp_7B]
  simp only [decodeOp7B, slot_hdr hw (Nat.le_of_ble_eq_true rfl) (by omega), c0, c1, f0, f1, true_and, and_true, false_and, and_false, and_self, if_true, if_false, Nat.reduceEqDiff, Nat.reduceDiv]

theorem wswIn (h : Hdr) (a : BitVec 5) (b : BitVec 5) : Statement (.wswIn h a b) := by
  intro _
  have := a.isLt; have := b.isLt
  obtain ⟨y, hw⟩ : ∃ y, y = slotWord h 0x7B (low_10_5b5b5 a b 1) := ⟨_, rfl⟩
  have he : encodeNat (.wswIn h a b) = some y := by rw [hw]; rfl
  unfold low_10_5b5b5 at hw
  have c0 : y / 2 ^ 0 % 2 ^ 5 = 1 := slot_const hw (Nat.le_of_ble_eq_true rfl) (by omega)
  have c1 : y / 2 ^ 15 % 2 ^ 5 = 0 := slot_const hw (Nat.le_of_ble_eq_true rfl) (by omega)
  have f0 : Sys2Proof.fld 5 10 y = a := slot_fld hw (Nat.le_of_ble_eq_true rfl) (by omega)
  have f1 : Sys2Proof.fld 5 5 y = b := slot_fld hw (Nat.le_of_ble_eq_true rfl) (by omega)
  rw [encode_of he, decode_slot hw (Nat.le_of_ble_eq_true rfl) (by omega), decodeOp_7B]
  simp only [decodeOp7B, slot_hdr hw (Nat.le_of_ble_eq_true rfl) (by omega), c0, c1, f0, f1, true_and, and_true, false_and, and_false, and_self, if_true, if_false, Nat.reduceEqDiff, Nat.reduceDiv]

theorem dbgStep (h : Hdr) (a : BitVec 5) : Statement (.dbgStep h a) := by
  intro _
  have := a.isLt
  obtain ⟨y, hw⟩ : ∃ y, y = slotWord h 0x7C (low_10b5 a 0) := ⟨_, rfl⟩
  have he : encodeNat (.dbgStep h a) = some y := by rw [hw]; rfl
  unfold low_10b5 at hw
  have c0 : y / 2 ^ 0 % 2 ^ 5 = 0 := slot_const hw (Nat.le_of_ble_eq_true rfl) (by omega)
  have c1 : y / 2 ^ 0 % 2 ^ 10 = 0 := slot_const hw (Nat.le_of_ble_eq_true rfl) (by omega)
  have c2 : y / 2 ^ 15 % 2 ^ 5 = 0 := slot_const hw (Nat.le_of_ble_eq_true rfl) (by omega)
  have f0 : Sys2Proof.fld 5 10 y = a := slot_fld hw (Nat.le_of_ble_eq_true rfl) (by omega)
  rw [encode_of he, decode_slot hw (Nat.le_of_ble_eq_true rfl) (by omega), decodeOp_7C]
  simp only [decodeOp7C, slot_hdr hw (Nat.le_of_ble_eq_true rfl) (by omega), c0, c1, c2, f0, true_and, and_true, false_and, and_false, and_self, if_true, if_false, Nat.reduceEqDiff, Nat.reduceDiv]

theorem dbgStop (h : Hdr) (a : BitVec 5) : Statement (.dbgStop h a) := by
  intro _
  have := a.isLt
  obtain ⟨y, hw⟩ : ∃ y, y = slotWord h 0x7C (low_10b5 a 1) := ⟨_, rfl⟩
  have he : encodeNat (.dbgStop h a) = some y := by rw [hw]; rfl
  unfold low_10b5 at hw
  have c0 : y / 2 ^ 0 % 2 ^ 5 = 1 := slot_const hw (Nat.le_of_ble_eq_true rfl) (by omega)
  have c1 : y / 2 ^ 0 % 2 ^ 10 = 1 := slot_const hw (Nat.le_of_ble_eq_true rfl) (by omega)
  have c2 : y / 2 ^ 15 % 2 ^ 5 = 0 := slot_const hw (Nat.le_of_ble_eq_true rfl) (by omega)
  have f0 : Sys2Proof.fld 5 10 y = a := slot_fld hw (Nat.le_of_ble_eq_true rfl) (by omega)
  rw [encode_of he, decode_slot hw (Nat.le_of_ble_eq_true rfl) (by omega), decodeOp_7C]
  simp only [decodeOp7C, slot_hdr hw (Nat.le_of_ble_eq_true rfl) (by omega), c0, c1, c2, f0, true_and, and_true, false_and, and_false, and_self, if_true, if_false, Nat.reduceEqDiff, Nat.reduceDiv]

theorem dbgBrk (h : Hdr) (a : BitVec 5) (b : BitVec 5) : Statement (.dbgBrk h a b) := by
  intro _
  have := a.isLt; have := b.isLt
  obtain ⟨y, hw⟩ : ∃ y, y = slotWord h 0x7C (low_10_5b5b5 a b 2) := ⟨_, rfl⟩
  have he : encodeNat (.dbgBrk h a b) = some y := by rw [hw]; rfl
  unfold low_10_5b5b5 at hw
  have c0 : y / 2 ^ 0 % 2 ^ 5 = 2 := slot_const hw (Nat.le_of_ble_eq_true rfl) (by omega)
  have c1 : y / 2 ^ 15 % 2 ^ 5 = 0 := slot_const hw (Nat.le_of_ble_eq_true rfl) (by omega)
  have n0 : ¬y / 2 ^ 0 % 2 ^ 10 = 0 := slot_differs hw (Nat.le_of_ble_eq_true rfl) (by omega)
  have n1 : ¬y / 2 ^ 0 % 2 ^ 10 = 1 := slot_differs hw (Nat.le_of_ble_eq_true rfl) (by omega)
  have f0 : Sys2Proof.fld 5 10 y = a := slot_fld hw (Nat.le_of_ble_eq_true rfl) (by omega)
  have f1 : Sys2Proof.fld 5 5 y = b := slot_fld hw (Nat.le_of_ble_eq_true rfl) (by omega)
  rw [encode_of he, decode_slot hw (Nat.le_of_ble_eq_true rfl) (by omega), decodeOp_7C]
  simp only [decodeOp7C, slot_hdr hw (Nat.le_of_ble_eq_true rfl) (by omega), c0, c1, n0, n1, f0, f1, true_and, and_true, false_and, and_false, and_self, if_true, if_false, Nat.reduceEqDiff, Nat.reduceDiv]

theorem cfgRd (h : Hdr) (d : BitVec 5) (a : BitVec 5) (b : BitVec 5) : Statement (.cfgRd h d a b) := by
  intro _
  have := d.isLt; have := a.isLt; have := b.isLt
  obtain ⟨y, hw⟩ : ∃ y, y = slotWord h 0x7D (low_15_10_5b5b5b5 d a b 0) := ⟨_, rfl⟩
  have he : encodeNat (.cfgRd h d a b) = some y := by rw [hw]; rfl
  unfold low_15_10_5b5b5b5 at hw
  have c0 : y / 2 ^ 0 % 2 ^ 5 = 0 := slot_const hw (Nat.le_of_ble_eq_true rfl) (by omega)
  have f0 : Sys2Proof.fld 5 15 y = d := slot_fld hw (Nat.le_of_ble_eq_true rfl) (by omega)
  have f1 : Sys2Proof.fld 5 10 y = a := slot_fld hw (Nat.le_of_ble_eq_true rfl) (by omega)
  have f2 : Sys2Proof.fld 5 5 y = b := slot_fld hw (Nat.le_of_ble_eq_true rfl) (by omega)
  rw [encode_of he, decode_slot hw (Nat.le_of_ble_eq_true rfl) (by omega), decodeOp_7D]
  simp only [decodeOp7D, slot_hdr hw (Nat.le_of_ble_eq_true rfl) (by omega), c0, f0, f1, f2, true_and, and_true, false_and, and_false, and_self, if_true, if_false, Nat.reduceEqDiff, Nat.reduceDiv]

theorem cfgWr (h : Hdr) (d : BitVec 5) (a : BitVec 5) (b : BitVec 5) : Statement (.cfgWr h d a b) := by
  intro _
  have := d.isLt; have := a.isLt; have := b.isLt
  obtain ⟨y, hw⟩ : ∃ y, y = slotWord h 0x7D (low_15_10_5b5b5b5 d a b 1) := ⟨_, rfl⟩
  have he : encodeNat (.cfgWr h d a b) = some y := by rw [hw]; rfl
  unfold low_15_10_5b5b5b5 at hw
  have c0 : y / 2 ^ 0 % 2 ^ 5 = 1 := slot_const hw (Nat.le_of_ble_eq_true rfl) (by omega)
  have f0 : Sys2Proof.fld 5 15 y = d := slot_fld hw (Nat.le_of_ble_eq_true rfl) (by omega)
  have f1 : Sys2Proof.fld 5 10 y = a := slot_fld hw (Nat.le_of_ble_eq_true rfl) (by omega)
  have f2 : Sys2Proof.fld 5 5 y = b := slot_fld hw (Nat.le_of_ble_eq_true rfl) (by omega)
  rw [encode_of he, decode_slot hw (Nat.le_of_ble_eq_true rfl) (by omega), decodeOp_7D]
  simp only [decodeOp7D, slot_hdr hw (Nat.le_of_ble_eq_true rfl) (by omega), c0, f0, f1, f2, true_and, and_true, false_and, and_false, and_self, if_true, if_false, Nat.reduceEqDiff, Nat.reduceDiv]

theorem scribe : Statement .scribe := fun h => absurd rfl h

theorem govtabAssign : Statement .govtabAssign := fun h => absurd rfl h

theorem govtabRelease : Statement .govtabRelease := fun h => absurd rfl h

theorem qresBringIn : Statement .qresBringIn := fun h => absurd rfl h

theorem qresTakeOut : Statement .qresTakeOut := fun h => absurd rfl h

theorem releasedEffectPerform : Statement .releasedEffectPerform := fun h => absurd rfl h

theorem loadLanding : Statement .loadLanding := fun h => absurd rfl h

theorem deferredTrap : Statement .deferredTrap := fun h => absurd rfl h

theorem boundaryStop : Statement .boundaryStop := fun h => absurd rfl h

theorem boundedWaitExpiry : Statement .boundedWaitExpiry := fun h => absurd rfl h

theorem launchOrderWait : Statement .launchOrderWait := fun h => absurd rfl h

theorem paneOperationStart : Statement .paneOperationStart := fun h => absurd rfl h

theorem paneOperationComplete : Statement .paneOperationComplete := fun h => absurd rfl h

theorem paneReplay : Statement .paneReplay := fun h => absurd rfl h

theorem paneFetchFailure : Statement .paneFetchFailure := fun h => absurd rfl h

theorem paneGrant : Statement .paneGrant := fun h => absurd rfl h

theorem reencodeStart : Statement .reencodeStart := fun h => absurd rfl h

theorem reencodeEnd : Statement .reencodeEnd := fun h => absurd rfl h

theorem reencodeFailure : Statement .reencodeFailure := fun h => absurd rfl h

theorem gstepEffect : Statement .gstepEffect := fun h => absurd rfl h

theorem govEffect : Statement .govEffect := fun h => absurd rfl h

theorem bankGiveUp : Statement .bankGiveUp := fun h => absurd rfl h

theorem taskReady : Statement .taskReady := fun h => absurd rfl h

theorem taskComplete : Statement .taskComplete := fun h => absurd rfl h

theorem budgetExpired : Statement .budgetExpired := fun h => absurd rfl h

theorem yieldOverrun : Statement .yieldOverrun := fun h => absurd rfl h

theorem copyLineWrite : Statement .copyLineWrite := fun h => absurd rfl h

theorem copyChannelComplete : Statement .copyChannelComplete := fun h => absurd rfl h

theorem copyChannelHalt : Statement .copyChannelHalt := fun h => absurd rfl h

theorem carveMoveEnd : Statement .carveMoveEnd := fun h => absurd rfl h

theorem rangeInvalidationEnd : Statement .rangeInvalidationEnd := fun h => absurd rfl h

theorem collectiveChunk : Statement .collectiveChunk := fun h => absurd rfl h

theorem collectiveComplete : Statement .collectiveComplete := fun h => absurd rfl h

theorem collectiveHaltNotice : Statement .collectiveHaltNotice := fun h => absurd rfl h

theorem ringChunk : Statement .ringChunk := fun h => absurd rfl h

theorem ringChunkReceive : Statement .ringChunkReceive := fun h => absurd rfl h

theorem walkerCycle : Statement .walkerCycle := fun h => absurd rfl h

theorem walkerEntryComplete : Statement .walkerEntryComplete := fun h => absurd rfl h

theorem wellPushLine : Statement .wellPushLine := fun h => absurd rfl h

theorem freeSlotUpdate : Statement .freeSlotUpdate := fun h => absurd rfl h

theorem mirrorRequest : Statement .mirrorRequest := fun h => absurd rfl h

theorem mirrorReply : Statement .mirrorReply := fun h => absurd rfl h

theorem claimSend : Statement .claimSend := fun h => absurd rfl h

theorem claimGrant : Statement .claimGrant := fun h => absurd rfl h

theorem routeRefusal : Statement .routeRefusal := fun h => absurd rfl h

theorem stashRequest : Statement .stashRequest := fun h => absurd rfl h

theorem stashGrant : Statement .stashGrant := fun h => absurd rfl h

theorem stashRefusal : Statement .stashRefusal := fun h => absurd rfl h

theorem stashRelease : Statement .stashRelease := fun h => absurd rfl h

theorem remoteRead : Statement .remoteRead := fun h => absurd rfl h

theorem remoteWrite : Statement .remoteWrite := fun h => absurd rfl h

theorem remoteResponse : Statement .remoteResponse := fun h => absurd rfl h

theorem linkFailure : Statement .linkFailure := fun h => absurd rfl h

theorem messageFailure : Statement .messageFailure := fun h => absurd rfl h

theorem pageTableWalk : Statement .pageTableWalk := fun h => absurd rfl h

theorem l1Eviction : Statement .l1Eviction := fun h => absurd rfl h

theorem memoryErrorDetect : Statement .memoryErrorDetect := fun h => absurd rfl h

theorem errorReport : Statement .errorReport := fun h => absurd rfl h

theorem noticeDelivery : Statement .noticeDelivery := fun h => absurd rfl h

theorem streamWake : Statement .streamWake := fun h => absurd rfl h

theorem tail : Statement .tail := fun h => absurd rfl h

theorem stream : Statement .stream := fun h => absurd rfl h

theorem cpctlRun : Statement .cpctlRun := fun h => absurd rfl h

theorem cpctlStop : Statement .cpctlStop := fun h => absurd rfl h

theorem quiesceRequest : Statement .quiesceRequest := fun h => absurd rfl h

theorem quiesceWithdraw : Statement .quiesceWithdraw := fun h => absurd rfl h

theorem quiesceComplete : Statement .quiesceComplete := fun h => absurd rfl h

theorem hostRegisterWrite : Statement .hostRegisterWrite := fun h => absurd rfl h

theorem functionLevelReset : Statement .functionLevelReset := fun h => absurd rfl h

theorem powerOnReset : Statement .powerOnReset := fun h => absurd rfl h

theorem bootVerification : Statement .bootVerification := fun h => absurd rfl h

theorem powerRemoval : Statement .powerRemoval := fun h => absurd rfl h

theorem thermalWarning : Statement .thermalWarning := fun h => absurd rfl h

theorem thermtrip : Statement .thermtrip := fun h => absurd rfl h

theorem getVersion : Statement .getVersion := fun h => absurd rfl h

theorem getCapabilities : Statement .getCapabilities := fun h => absurd rfl h

theorem negotiateAlgorithms : Statement .negotiateAlgorithms := fun h => absurd rfl h

theorem getDigests : Statement .getDigests := fun h => absurd rfl h

theorem getCertificate : Statement .getCertificate := fun h => absurd rfl h

theorem challenge : Statement .challenge := fun h => absurd rfl h

theorem getMeasurements : Statement .getMeasurements := fun h => absurd rfl h

theorem unsupportedRequest : Statement .unsupportedRequest := fun h => absurd rfl h

theorem instructionStoreFill : Statement .instructionStoreFill := fun h => absurd rfl h

theorem linkReturn : Statement .linkReturn := fun h => absurd rfl h

theorem sidebandRefresh : Statement .sidebandRefresh := fun h => absurd rfl h

end Sys2Proof.Laws.Decode
end

