-- ==== Sys2Proof/Laws/Table.lean ====
section
/-!
SUPPORT. Sparse tables and memory: read after write, and the canonical form that every operation keeps.
-/

namespace Sys2Proof.Machine

variable {α : Type}

theorem SMap.get_erase (d : α) (t : SMap α) (k j : Nat) : (t.erase k).get d j = if k = j then d else t.get d j := by
  induction t with
  | nil => simp [SMap.erase, SMap.get]
  | cons c r ih =>
    obtain ⟨i, x⟩ := c
    by_cases h : i = k
    · subst h; by_cases h2 : i = j <;> simp_all [SMap.erase, SMap.get]
    · by_cases h2 : k = j
      · subst h2; simp_all [SMap.erase, SMap.get]
      · by_cases h3 : i = j <;> simp_all [SMap.erase, SMap.get]

theorem SMap.get_insert (d : α) (t : SMap α) (k : Nat) (x : α) (j : Nat) :
    (t.insert k x).get d j = if k = j then x else t.get d j := by
  induction t with
  | nil => simp [SMap.insert, SMap.get]
  | cons c r ih =>
    obtain ⟨i, y⟩ := c
    by_cases h : i = k
    · subst h; by_cases h2 : i = j <;> simp_all [SMap.insert, SMap.get]
    · by_cases h4 : k < i
      · simp [SMap.insert, SMap.get, h, h4]
      · have e : SMap.insert ((i, y) :: r) k x = (i, y) :: SMap.insert r k x := by simp only [SMap.insert, if_neg h, if_neg h4]
        rw [e]
        by_cases h3 : i = j
        · have h5 : ¬k = j := fun hk => h (h3.trans hk.symm)
          simp [SMap.get, h3, h5]
        · simp only [SMap.get, if_neg h3, ih]

/-! ## Rising keys -/

theorem SMap.rising_mono {t : SMap α} {lo hi : Nat} (h : lo ≤ hi) (ht : t.rising hi = true) : t.rising lo = true := by
  cases t with
  | nil => rfl
  | cons c r =>
    obtain ⟨i, x⟩ := c
    simp only [SMap.rising, Bool.and_eq_true, decide_eq_true_eq] at ht ⊢
    exact ⟨by omega, ht.2⟩

theorem SMap.rising_erase {t : SMap α} {lo : Nat} (k : Nat) (h : t.rising lo = true) : (t.erase k).rising lo = true := by
  induction t generalizing lo with
  | nil => rfl
  | cons c r ih =>
    obtain ⟨i, x⟩ := c
    simp only [SMap.rising, Bool.and_eq_true, decide_eq_true_eq] at h
    unfold SMap.erase
    split
    · exact SMap.rising_mono (by omega) (ih h.2)
    · simp only [SMap.rising, Bool.and_eq_true, decide_eq_true_eq]
      exact ⟨h.1, ih h.2⟩

theorem SMap.rising_insert {t : SMap α} {lo : Nat} (k : Nat) (x : α) (hk : lo ≤ k) (h : t.rising lo = true) :
    (t.insert k x).rising lo = true := by
  induction t generalizing lo with
  | nil => simp [SMap.insert, SMap.rising, hk]
  | cons c r ih =>
    obtain ⟨i, y⟩ := c
    simp only [SMap.rising, Bool.and_eq_true, decide_eq_true_eq] at h
    unfold SMap.insert
    split
    · rename_i e; subst e; simp [SMap.rising, h]
    · split
      · simp only [SMap.rising, Bool.and_eq_true, decide_eq_true_eq]
        exact ⟨hk, by omega, h.2⟩
      · simp only [SMap.rising, Bool.and_eq_true, decide_eq_true_eq]
        exact ⟨h.1, ih (by omega) h.2⟩

theorem SMap.mem_erase {t : SMap α} {k : Nat} {c : Nat × α} (h : c ∈ t.erase k) : c ∈ t := by
  induction t with
  | nil => exact h
  | cons e r ih =>
    obtain ⟨i, x⟩ := e
    unfold SMap.erase at h
    split at h
    · exact List.mem_cons_of_mem _ (ih h)
    · rcases List.mem_cons.1 h with h | h
      · exact h ▸ List.mem_cons_self
      · exact List.mem_cons_of_mem _ (ih h)

theorem SMap.mem_insert {t : SMap α} {k : Nat} {x : α} {c : Nat × α} (h : c ∈ t.insert k x) : c = (k, x) ∨ c ∈ t := by
  induction t with
  | nil => simpa [SMap.insert] using h
  | cons e r ih =>
    obtain ⟨i, y⟩ := e
    unfold SMap.insert at h
    split at h
    · rcases List.mem_cons.1 h with h | h
      · exact .inl h
      · exact .inr (List.mem_cons_of_mem _ h)
    · split at h
      · rcases List.mem_cons.1 h with h | h
        · exact .inl h
        · exact .inr h
      · rcases List.mem_cons.1 h with h | h
        · exact .inr (h ▸ List.mem_cons_self)
        · rcases ih h with h | h
          · exact .inl h
          · exact .inr (List.mem_cons_of_mem _ h)

theorem SMap.rising_filter {t : SMap α} {lo : Nat} (p : Nat × α → Bool) (h : t.rising lo = true) :
    SMap.rising lo (List.filter p t) = true := by
  induction t generalizing lo with
  | nil => rfl
  | cons c r ih =>
    obtain ⟨i, x⟩ := c
    simp only [SMap.rising, Bool.and_eq_true, decide_eq_true_eq] at h
    rw [List.filter_cons]
    split
    · simp only [SMap.rising, Bool.and_eq_true, decide_eq_true_eq]
      exact ⟨h.1, ih h.2⟩
    · exact SMap.rising_mono (by omega) (ih h.2)

/-! ## Read after write; the canonical form -/

variable [DecidableEq α]

/-- Read after write: the written key reads the new value, every other key as before. -/
theorem SMap.get_put (d : α) (t : SMap α) (k : Nat) (x : α) (j : Nat) :
    (t.put d k x).get d j = if k = j then x else t.get d j := by
  unfold SMap.put
  split
  · rename_i h; rw [SMap.get_erase, h]
  · rw [SMap.get_insert]

@[simp] theorem SMap.get_put_same (d : α) (t : SMap α) (k : Nat) (x : α) : (t.put d k x).get d k = x := by rw [SMap.get_put]; simp
theorem SMap.get_put_ne (d : α) (t : SMap α) {k j : Nat} (x : α) (h : k ≠ j) : (t.put d k x).get d j = t.get d j := by
  rw [SMap.get_put]; simp [h]
@[simp] theorem SMap.get_upd_same (d : α) (t : SMap α) (k : Nat) (f : α → α) : (t.upd d k f).get d k = f (t.get d k) :=
  SMap.get_put_same ..
theorem SMap.get_upd_ne (d : α) (t : SMap α) {k j : Nat} (f : α → α) (h : k ≠ j) : (t.upd d k f).get d j = t.get d j :=
  SMap.get_put_ne _ _ _ h

theorem SMap.wf_iff {d : α} {t : SMap α} : t.wf d = true ↔ t.rising 0 = true ∧ ∀ c ∈ t, c.2 ≠ d := by
  simp [SMap.wf, List.all_eq_true]

/-- A write keeps the canonical form. -/
theorem SMap.wf_put {d : α} {t : SMap α} (k : Nat) (x : α) (h : t.wf d = true) : (t.put d k x).wf d = true := by
  rw [SMap.wf_iff] at h ⊢
  unfold SMap.put
  split
  · exact ⟨SMap.rising_erase k h.1, fun c hc => h.2 c (SMap.mem_erase hc)⟩
  · rename_i hx
    refine ⟨SMap.rising_insert k x (Nat.zero_le k) h.1, fun c hc => ?_⟩
    rcases SMap.mem_insert hc with e | e
    · rw [e]; exact hx
    · exact h.2 c e

/-- Forgetting entries keeps the canonical form. -/
theorem SMap.wf_filter {d : α} {t : SMap α} (p : Nat × α → Bool) (h : t.wf d = true) : SMap.wf d (List.filter p t) = true := by
  rw [SMap.wf_iff] at h ⊢
  exact ⟨SMap.rising_filter p h.1, fun c hc => h.2 c (List.mem_of_mem_filter hc)⟩

/-! ## Memory -/

/-- A written byte reads back, and every other byte reads as before. -/
theorem readMem_writeMem (m : List Host.Cell) (k : Nat) (b : Byte) (j : Nat) :
    readMem (writeMem m k b) j = if k = j then b else readMem m j := SMap.get_put ..

theorem Memory.wf_writeMem {m : List Host.Cell} (k : Nat) (b : Byte) (h : Memory.wf m = true) : Memory.wf (writeMem m k b) = true :=
  SMap.wf_put k b h

/-- Every operation that stores bytes keeps the canonical form. -/
theorem Memory.wf_writeRange {m : List Host.Cell} (k : Nat) (bs : List Byte) (h : Memory.wf m = true) :
    Memory.wf (writeRange m k bs) = true := by
  induction bs generalizing m k with
  | nil => exact h
  | cons b r ih => exact ih _ (Memory.wf_writeMem k b h)

theorem Memory.wf_filter {m : List Host.Cell} (p : Host.Cell → Bool) (h : Memory.wf m = true) : Memory.wf (m.filter p) = true :=
  SMap.wf_filter p h

/-- A byte outside a written range reads as before. -/
theorem readMem_writeRange_out (m : List Host.Cell) (k : Nat) (bs : List Byte) (j : Nat) (h : j < k ∨ k + bs.length ≤ j) :
    readMem (writeRange m k bs) j = readMem m j := by
  induction bs generalizing m k with
  | nil => rfl
  | cons b r ih =>
    simp only [writeRange, List.length_cons] at h ⊢
    rw [ih _ _ (by omega), readMem_writeMem]
    split
    · omega
    · rfl

/-- A byte inside a written range reads the byte written there. -/
theorem readMem_writeRange_in (m : List Host.Cell) (k : Nat) (bs : List Byte) (j : Nat) (h : j < bs.length) :
    readMem (writeRange m k bs) (k + j) = bs[j] := by
  induction bs generalizing m k j with
  | nil => simp at h
  | cons b r ih =>
    cases j with
    | zero =>
      simp only [writeRange, Nat.add_zero, List.getElem_cons_zero]
      rw [readMem_writeRange_out _ _ _ _ (.inl (by omega)), readMem_writeMem]; simp
    | succ j =>
      simp only [writeRange, List.getElem_cons_succ, List.length_cons] at h ⊢
      have e : k + (j + 1) = k + 1 + j := by omega
      rw [e]; exact ih _ _ _ (by omega)

end Sys2Proof.Machine
end

