-- ==== Sys2Proof/Laws/State.lean ====
section
/-!
SUPPORT. One lemma per field per update of the state: what an update leaves alone, what it sets, and what the accessors read after it.
-/

namespace Sys2Proof.Machine.State

/-! ## setCtx -/

@[simp] theorem setCtx_cc (s : State) (a : Agent) (c : Ctx) : (s.setCtx a c).cc = s.cc := rfl
@[simp] theorem setCtx_powered (s : State) (a : Agent) (c : Ctx) : (s.setCtx a c).powered = s.powered := rfl
@[simp] theorem setCtx_fuses (s : State) (a : Agent) (c : Ctx) : (s.setCtx a c).fuses = s.fuses := rfl
@[simp] theorem setCtx_who (s : State) (a : Agent) (c : Ctx) : (s.setCtx a c).who = s.who := rfl
@[simp] theorem setCtx_pos (s : State) (a : Agent) (c : Ctx) : (s.setCtx a c).pos = s.pos := rfl
@[simp] theorem setCtx_word (s : State) (a : Agent) (c : Ctx) : (s.setCtx a c).word = s.word := rfl
@[simp] theorem setCtx_bpc (s : State) (a : Agent) (c : Ctx) : (s.setCtx a c).bpc = s.bpc := rfl
@[simp] theorem setCtx_bnxt (s : State) (a : Agent) (c : Ctx) : (s.setCtx a c).bnxt = s.bnxt := rfl
@[simp] theorem setCtx_ckb (s : State) (a : Agent) (c : Ctx) : (s.setCtx a c).ckb = s.ckb := rfl
@[simp] theorem setCtx_mark (s : State) (a : Agent) (c : Ctx) : (s.setCtx a c).mark = s.mark := rfl
@[simp] theorem setCtx_hmark (s : State) (a : Agent) (c : Ctx) : (s.setCtx a c).hmark = s.hmark := rfl
@[simp] theorem setCtx_srs (s : State) (a : Agent) (c : Ctx) : (s.setCtx a c).srs = s.srs := rfl
@[simp] theorem setCtx_verdict (s : State) (a : Agent) (c : Ctx) : (s.setCtx a c).verdict = s.verdict := rfl
@[simp] theorem setCtx_ids (s : State) (a : Agent) (c : Ctx) : (s.setCtx a c).ids = s.ids := rfl
@[simp] theorem setCtx_fresh (s : State) (a : Agent) (c : Ctx) : (s.setCtx a c).fresh = s.fresh := rfl
@[simp] theorem setCtx_ev (s : State) (a : Agent) (c : Ctx) : (s.setCtx a c).ev = s.ev := rfl
@[simp] theorem setCtx_agenda (s : State) (a : Agent) (c : Ctx) : (s.setCtx a c).agenda = s.agenda := rfl
@[simp] theorem setCtx_turns (s : State) (a : Agent) (c : Ctx) : (s.setCtx a c).turns = s.turns := rfl
@[simp] theorem setCtx_ctxs (s : State) (a : Agent) (c : Ctx) : (s.setCtx a c).ctxs = s.ctxs.put (ctxDefault a.key) a.key c := rfl
@[simp] theorem setCtx_cores (s : State) (a : Agent) (c : Ctx) : (s.setCtx a c).cores = s.cores := rfl
@[simp] theorem setCtx_clusters (s : State) (a : Agent) (c : Ctx) : (s.setCtx a c).clusters = s.clusters := rfl
@[simp] theorem setCtx_dies (s : State) (a : Agent) (c : Ctx) : (s.setCtx a c).dies = s.dies := rfl
@[simp] theorem setCtx_relqs (s : State) (a : Agent) (c : Ctx) : (s.setCtx a c).relqs = s.relqs := rfl
@[simp] theorem setCtx_mem (s : State) (a : Agent) (c : Ctx) : (s.setCtx a c).mem = s.mem := rfl
@[simp] theorem setCtx_poison (s : State) (a : Agent) (c : Ctx) : (s.setCtx a c).poison = s.poison := rfl
@[simp] theorem setCtx_tags (s : State) (a : Agent) (c : Ctx) : (s.setCtx a c).tags = s.tags := rfl
@[simp] theorem setCtx_metaName (s : State) (a : Agent) (c : Ctx) : (s.setCtx a c).metaName = s.metaName := rfl
@[simp] theorem setCtx_gov (s : State) (a : Agent) (c : Ctx) : (s.setCtx a c).gov = s.gov := rfl
@[simp] theorem setCtx_govQ (s : State) (a : Agent) (c : Ctx) : (s.setCtx a c).govQ = s.govQ := rfl
@[simp] theorem setCtx_regions (s : State) (a : Agent) (c : Ctx) : (s.setCtx a c).regions = s.regions := rfl
@[simp] theorem setCtx_queues (s : State) (a : Agent) (c : Ctx) : (s.setCtx a c).queues = s.queues := rfl
@[simp] theorem setCtx_wells (s : State) (a : Agent) (c : Ctx) : (s.setCtx a c).wells = s.wells := rfl
@[simp] theorem setCtx_leases (s : State) (a : Agent) (c : Ctx) : (s.setCtx a c).leases = s.leases := rfl
@[simp] theorem setCtx_tasks (s : State) (a : Agent) (c : Ctx) : (s.setCtx a c).tasks = s.tasks := rfl
@[simp] theorem setCtx_saved (s : State) (a : Agent) (c : Ctx) : (s.setCtx a c).saved = s.saved := rfl
@[simp] theorem setCtx_reencs (s : State) (a : Agent) (c : Ctx) : (s.setCtx a c).reencs = s.reencs := rfl
@[simp] theorem setCtx_rinvs (s : State) (a : Agent) (c : Ctx) : (s.setCtx a c).rinvs = s.rinvs := rfl
@[simp] theorem setCtx_walker (s : State) (a : Agent) (c : Ctx) : (s.setCtx a c).walker = s.walker := rfl
@[simp] theorem setCtx_pkgid (s : State) (a : Agent) (c : Ctx) : (s.setCtx a c).pkgid = s.pkgid := rfl
@[simp] theorem setCtx_host (s : State) (a : Agent) (c : Ctx) : (s.setCtx a c).host = s.host := rfl
@[simp] theorem setCtx_notices (s : State) (a : Agent) (c : Ctx) : (s.setCtx a c).notices = s.notices := rfl
@[simp] theorem setCtx_reports (s : State) (a : Agent) (c : Ctx) : (s.setCtx a c).reports = s.reports := rfl
@[simp] theorem setCtx_remotes (s : State) (a : Agent) (c : Ctx) : (s.setCtx a c).remotes = s.remotes := rfl
@[simp] theorem setCtx_outbox (s : State) (a : Agent) (c : Ctx) : (s.setCtx a c).outbox = s.outbox := rfl

/-! ## modCtx -/

@[simp] theorem modCtx_cc (s : State) (a : Agent) (f : Ctx → Ctx) : (s.modCtx a f).cc = s.cc := rfl
@[simp] theorem modCtx_powered (s : State) (a : Agent) (f : Ctx → Ctx) : (s.modCtx a f).powered = s.powered := rfl
@[simp] theorem modCtx_fuses (s : State) (a : Agent) (f : Ctx → Ctx) : (s.modCtx a f).fuses = s.fuses := rfl
@[simp] theorem modCtx_who (s : State) (a : Agent) (f : Ctx → Ctx) : (s.modCtx a f).who = s.who := rfl
@[simp] theorem modCtx_pos (s : State) (a : Agent) (f : Ctx → Ctx) : (s.modCtx a f).pos = s.pos := rfl
@[simp] theorem modCtx_word (s : State) (a : Agent) (f : Ctx → Ctx) : (s.modCtx a f).word = s.word := rfl
@[simp] theorem modCtx_bpc (s : State) (a : Agent) (f : Ctx → Ctx) : (s.modCtx a f).bpc = s.bpc := rfl
@[simp] theorem modCtx_bnxt (s : State) (a : Agent) (f : Ctx → Ctx) : (s.modCtx a f).bnxt = s.bnxt := rfl
@[simp] theorem modCtx_ckb (s : State) (a : Agent) (f : Ctx → Ctx) : (s.modCtx a f).ckb = s.ckb := rfl
@[simp] theorem modCtx_mark (s : State) (a : Agent) (f : Ctx → Ctx) : (s.modCtx a f).mark = s.mark := rfl
@[simp] theorem modCtx_hmark (s : State) (a : Agent) (f : Ctx → Ctx) : (s.modCtx a f).hmark = s.hmark := rfl
@[simp] theorem modCtx_srs (s : State) (a : Agent) (f : Ctx → Ctx) : (s.modCtx a f).srs = s.srs := rfl
@[simp] theorem modCtx_verdict (s : State) (a : Agent) (f : Ctx → Ctx) : (s.modCtx a f).verdict = s.verdict := rfl
@[simp] theorem modCtx_ids (s : State) (a : Agent) (f : Ctx → Ctx) : (s.modCtx a f).ids = s.ids := rfl
@[simp] theorem modCtx_fresh (s : State) (a : Agent) (f : Ctx → Ctx) : (s.modCtx a f).fresh = s.fresh := rfl
@[simp] theorem modCtx_ev (s : State) (a : Agent) (f : Ctx → Ctx) : (s.modCtx a f).ev = s.ev := rfl
@[simp] theorem modCtx_agenda (s : State) (a : Agent) (f : Ctx → Ctx) : (s.modCtx a f).agenda = s.agenda := rfl
@[simp] theorem modCtx_turns (s : State) (a : Agent) (f : Ctx → Ctx) : (s.modCtx a f).turns = s.turns := rfl
@[simp] theorem modCtx_ctxs (s : State) (a : Agent) (f : Ctx → Ctx) : (s.modCtx a f).ctxs = s.ctxs.put (ctxDefault a.key) a.key (f (s.ctx a)) := rfl
@[simp] theorem modCtx_cores (s : State) (a : Agent) (f : Ctx → Ctx) : (s.modCtx a f).cores = s.cores := rfl
@[simp] theorem modCtx_clusters (s : State) (a : Agent) (f : Ctx → Ctx) : (s.modCtx a f).clusters = s.clusters := rfl
@[simp] theorem modCtx_dies (s : State) (a : Agent) (f : Ctx → Ctx) : (s.modCtx a f).dies = s.dies := rfl
@[simp] theorem modCtx_relqs (s : State) (a : Agent) (f : Ctx → Ctx) : (s.modCtx a f).relqs = s.relqs := rfl
@[simp] theorem modCtx_mem (s : State) (a : Agent) (f : Ctx → Ctx) : (s.modCtx a f).mem = s.mem := rfl
@[simp] theorem modCtx_poison (s : State) (a : Agent) (f : Ctx → Ctx) : (s.modCtx a f).poison = s.poison := rfl
@[simp] theorem modCtx_tags (s : State) (a : Agent) (f : Ctx → Ctx) : (s.modCtx a f).tags = s.tags := rfl
@[simp] theorem modCtx_metaName (s : State) (a : Agent) (f : Ctx → Ctx) : (s.modCtx a f).metaName = s.metaName := rfl
@[simp] theorem modCtx_gov (s : State) (a : Agent) (f : Ctx → Ctx) : (s.modCtx a f).gov = s.gov := rfl
@[simp] theorem modCtx_govQ (s : State) (a : Agent) (f : Ctx → Ctx) : (s.modCtx a f).govQ = s.govQ := rfl
@[simp] theorem modCtx_regions (s : State) (a : Agent) (f : Ctx → Ctx) : (s.modCtx a f).regions = s.regions := rfl
@[simp] theorem modCtx_queues (s : State) (a : Agent) (f : Ctx → Ctx) : (s.modCtx a f).queues = s.queues := rfl
@[simp] theorem modCtx_wells (s : State) (a : Agent) (f : Ctx → Ctx) : (s.modCtx a f).wells = s.wells := rfl
@[simp] theorem modCtx_leases (s : State) (a : Agent) (f : Ctx → Ctx) : (s.modCtx a f).leases = s.leases := rfl
@[simp] theorem modCtx_tasks (s : State) (a : Agent) (f : Ctx → Ctx) : (s.modCtx a f).tasks = s.tasks := rfl
@[simp] theorem modCtx_saved (s : State) (a : Agent) (f : Ctx → Ctx) : (s.modCtx a f).saved = s.saved := rfl
@[simp] theorem modCtx_reencs (s : State) (a : Agent) (f : Ctx → Ctx) : (s.modCtx a f).reencs = s.reencs := rfl
@[simp] theorem modCtx_rinvs (s : State) (a : Agent) (f : Ctx → Ctx) : (s.modCtx a f).rinvs = s.rinvs := rfl
@[simp] theorem modCtx_walker (s : State) (a : Agent) (f : Ctx → Ctx) : (s.modCtx a f).walker = s.walker := rfl
@[simp] theorem modCtx_pkgid (s : State) (a : Agent) (f : Ctx → Ctx) : (s.modCtx a f).pkgid = s.pkgid := rfl
@[simp] theorem modCtx_host (s : State) (a : Agent) (f : Ctx → Ctx) : (s.modCtx a f).host = s.host := rfl
@[simp] theorem modCtx_notices (s : State) (a : Agent) (f : Ctx → Ctx) : (s.modCtx a f).notices = s.notices := rfl
@[simp] theorem modCtx_reports (s : State) (a : Agent) (f : Ctx → Ctx) : (s.modCtx a f).reports = s.reports := rfl
@[simp] theorem modCtx_remotes (s : State) (a : Agent) (f : Ctx → Ctx) : (s.modCtx a f).remotes = s.remotes := rfl
@[simp] theorem modCtx_outbox (s : State) (a : Agent) (f : Ctx → Ctx) : (s.modCtx a f).outbox = s.outbox := rfl

/-! ## modMe -/

@[simp] theorem modMe_cc (s : State) (f : Ctx → Ctx) : (s.modMe f).cc = s.cc := rfl
@[simp] theorem modMe_powered (s : State) (f : Ctx → Ctx) : (s.modMe f).powered = s.powered := rfl
@[simp] theorem modMe_fuses (s : State) (f : Ctx → Ctx) : (s.modMe f).fuses = s.fuses := rfl
@[simp] theorem modMe_who (s : State) (f : Ctx → Ctx) : (s.modMe f).who = s.who := rfl
@[simp] theorem modMe_pos (s : State) (f : Ctx → Ctx) : (s.modMe f).pos = s.pos := rfl
@[simp] theorem modMe_word (s : State) (f : Ctx → Ctx) : (s.modMe f).word = s.word := rfl
@[simp] theorem modMe_bpc (s : State) (f : Ctx → Ctx) : (s.modMe f).bpc = s.bpc := rfl
@[simp] theorem modMe_bnxt (s : State) (f : Ctx → Ctx) : (s.modMe f).bnxt = s.bnxt := rfl
@[simp] theorem modMe_ckb (s : State) (f : Ctx → Ctx) : (s.modMe f).ckb = s.ckb := rfl
@[simp] theorem modMe_mark (s : State) (f : Ctx → Ctx) : (s.modMe f).mark = s.mark := rfl
@[simp] theorem modMe_hmark (s : State) (f : Ctx → Ctx) : (s.modMe f).hmark = s.hmark := rfl
@[simp] theorem modMe_srs (s : State) (f : Ctx → Ctx) : (s.modMe f).srs = s.srs := rfl
@[simp] theorem modMe_verdict (s : State) (f : Ctx → Ctx) : (s.modMe f).verdict = s.verdict := rfl
@[simp] theorem modMe_ids (s : State) (f : Ctx → Ctx) : (s.modMe f).ids = s.ids := rfl
@[simp] theorem modMe_fresh (s : State) (f : Ctx → Ctx) : (s.modMe f).fresh = s.fresh := rfl
@[simp] theorem modMe_ev (s : State) (f : Ctx → Ctx) : (s.modMe f).ev = s.ev := rfl
@[simp] theorem modMe_agenda (s : State) (f : Ctx → Ctx) : (s.modMe f).agenda = s.agenda := rfl
@[simp] theorem modMe_turns (s : State) (f : Ctx → Ctx) : (s.modMe f).turns = s.turns := rfl
@[simp] theorem modMe_ctxs (s : State) (f : Ctx → Ctx) : (s.modMe f).ctxs = s.ctxs.put (ctxDefault s.who.key) s.who.key (f s.me) := rfl
@[simp] theorem modMe_cores (s : State) (f : Ctx → Ctx) : (s.modMe f).cores = s.cores := rfl
@[simp] theorem modMe_clusters (s : State) (f : Ctx → Ctx) : (s.modMe f).clusters = s.clusters := rfl
@[simp] theorem modMe_dies (s : State) (f : Ctx → Ctx) : (s.modMe f).dies = s.dies := rfl
@[simp] theorem modMe_relqs (s : State) (f : Ctx → Ctx) : (s.modMe f).relqs = s.relqs := rfl
@[simp] theorem modMe_mem (s : State) (f : Ctx → Ctx) : (s.modMe f).mem = s.mem := rfl
@[simp] theorem modMe_poison (s : State) (f : Ctx → Ctx) : (s.modMe f).poison = s.poison := rfl
@[simp] theorem modMe_tags (s : State) (f : Ctx → Ctx) : (s.modMe f).tags = s.tags := rfl
@[simp] theorem modMe_metaName (s : State) (f : Ctx → Ctx) : (s.modMe f).metaName = s.metaName := rfl
@[simp] theorem modMe_gov (s : State) (f : Ctx → Ctx) : (s.modMe f).gov = s.gov := rfl
@[simp] theorem modMe_govQ (s : State) (f : Ctx → Ctx) : (s.modMe f).govQ = s.govQ := rfl
@[simp] theorem modMe_regions (s : State) (f : Ctx → Ctx) : (s.modMe f).regions = s.regions := rfl
@[simp] theorem modMe_queues (s : State) (f : Ctx → Ctx) : (s.modMe f).queues = s.queues := rfl
@[simp] theorem modMe_wells (s : State) (f : Ctx → Ctx) : (s.modMe f).wells = s.wells := rfl
@[simp] theorem modMe_leases (s : State) (f : Ctx → Ctx) : (s.modMe f).leases = s.leases := rfl
@[simp] theorem modMe_tasks (s : State) (f : Ctx → Ctx) : (s.modMe f).tasks = s.tasks := rfl
@[simp] theorem modMe_saved (s : State) (f : Ctx → Ctx) : (s.modMe f).saved = s.saved := rfl
@[simp] theorem modMe_reencs (s : State) (f : Ctx → Ctx) : (s.modMe f).reencs = s.reencs := rfl
@[simp] theorem modMe_rinvs (s : State) (f : Ctx → Ctx) : (s.modMe f).rinvs = s.rinvs := rfl
@[simp] theorem modMe_walker (s : State) (f : Ctx → Ctx) : (s.modMe f).walker = s.walker := rfl
@[simp] theorem modMe_pkgid (s : State) (f : Ctx → Ctx) : (s.modMe f).pkgid = s.pkgid := rfl
@[simp] theorem modMe_host (s : State) (f : Ctx → Ctx) : (s.modMe f).host = s.host := rfl
@[simp] theorem modMe_notices (s : State) (f : Ctx → Ctx) : (s.modMe f).notices = s.notices := rfl
@[simp] theorem modMe_reports (s : State) (f : Ctx → Ctx) : (s.modMe f).reports = s.reports := rfl
@[simp] theorem modMe_remotes (s : State) (f : Ctx → Ctx) : (s.modMe f).remotes = s.remotes := rfl
@[simp] theorem modMe_outbox (s : State) (f : Ctx → Ctx) : (s.modMe f).outbox = s.outbox := rfl

/-! ## modCore -/

@[simp] theorem modCore_cc (s : State) (n : Nat) (f : CoreSt → CoreSt) : (s.modCore n f).cc = s.cc := rfl
@[simp] theorem modCore_powered (s : State) (n : Nat) (f : CoreSt → CoreSt) : (s.modCore n f).powered = s.powered := rfl
@[simp] theorem modCore_fuses (s : State) (n : Nat) (f : CoreSt → CoreSt) : (s.modCore n f).fuses = s.fuses := rfl
@[simp] theorem modCore_who (s : State) (n : Nat) (f : CoreSt → CoreSt) : (s.modCore n f).who = s.who := rfl
@[simp] theorem modCore_pos (s : State) (n : Nat) (f : CoreSt → CoreSt) : (s.modCore n f).pos = s.pos := rfl
@[simp] theorem modCore_word (s : State) (n : Nat) (f : CoreSt → CoreSt) : (s.modCore n f).word = s.word := rfl
@[simp] theorem modCore_bpc (s : State) (n : Nat) (f : CoreSt → CoreSt) : (s.modCore n f).bpc = s.bpc := rfl
@[simp] theorem modCore_bnxt (s : State) (n : Nat) (f : CoreSt → CoreSt) : (s.modCore n f).bnxt = s.bnxt := rfl
@[simp] theorem modCore_ckb (s : State) (n : Nat) (f : CoreSt → CoreSt) : (s.modCore n f).ckb = s.ckb := rfl
@[simp] theorem modCore_mark (s : State) (n : Nat) (f : CoreSt → CoreSt) : (s.modCore n f).mark = s.mark := rfl
@[simp] theorem modCore_hmark (s : State) (n : Nat) (f : CoreSt → CoreSt) : (s.modCore n f).hmark = s.hmark := rfl
@[simp] theorem modCore_srs (s : State) (n : Nat) (f : CoreSt → CoreSt) : (s.modCore n f).srs = s.srs := rfl
@[simp] theorem modCore_verdict (s : State) (n : Nat) (f : CoreSt → CoreSt) : (s.modCore n f).verdict = s.verdict := rfl
@[simp] theorem modCore_ids (s : State) (n : Nat) (f : CoreSt → CoreSt) : (s.modCore n f).ids = s.ids := rfl
@[simp] theorem modCore_fresh (s : State) (n : Nat) (f : CoreSt → CoreSt) : (s.modCore n f).fresh = s.fresh := rfl
@[simp] theorem modCore_ev (s : State) (n : Nat) (f : CoreSt → CoreSt) : (s.modCore n f).ev = s.ev := rfl
@[simp] theorem modCore_agenda (s : State) (n : Nat) (f : CoreSt → CoreSt) : (s.modCore n f).agenda = s.agenda := rfl
@[simp] theorem modCore_turns (s : State) (n : Nat) (f : CoreSt → CoreSt) : (s.modCore n f).turns = s.turns := rfl
@[simp] theorem modCore_ctxs (s : State) (n : Nat) (f : CoreSt → CoreSt) : (s.modCore n f).ctxs = s.ctxs := rfl
@[simp] theorem modCore_cores (s : State) (n : Nat) (f : CoreSt → CoreSt) : (s.modCore n f).cores = s.cores.upd {} n f := rfl
@[simp] theorem modCore_clusters (s : State) (n : Nat) (f : CoreSt → CoreSt) : (s.modCore n f).clusters = s.clusters := rfl
@[simp] theorem modCore_dies (s : State) (n : Nat) (f : CoreSt → CoreSt) : (s.modCore n f).dies = s.dies := rfl
@[simp] theorem modCore_relqs (s : State) (n : Nat) (f : CoreSt → CoreSt) : (s.modCore n f).relqs = s.relqs := rfl
@[simp] theorem modCore_mem (s : State) (n : Nat) (f : CoreSt → CoreSt) : (s.modCore n f).mem = s.mem := rfl
@[simp] theorem modCore_poison (s : State) (n : Nat) (f : CoreSt → CoreSt) : (s.modCore n f).poison = s.poison := rfl
@[simp] theorem modCore_tags (s : State) (n : Nat) (f : CoreSt → CoreSt) : (s.modCore n f).tags = s.tags := rfl
@[simp] theorem modCore_metaName (s : State) (n : Nat) (f : CoreSt → CoreSt) : (s.modCore n f).metaName = s.metaName := rfl
@[simp] theorem modCore_gov (s : State) (n : Nat) (f : CoreSt → CoreSt) : (s.modCore n f).gov = s.gov := rfl
@[simp] theorem modCore_govQ (s : State) (n : Nat) (f : CoreSt → CoreSt) : (s.modCore n f).govQ = s.govQ := rfl
@[simp] theorem modCore_regions (s : State) (n : Nat) (f : CoreSt → CoreSt) : (s.modCore n f).regions = s.regions := rfl
@[simp] theorem modCore_queues (s : State) (n : Nat) (f : CoreSt → CoreSt) : (s.modCore n f).queues = s.queues := rfl
@[simp] theorem modCore_wells (s : State) (n : Nat) (f : CoreSt → CoreSt) : (s.modCore n f).wells = s.wells := rfl
@[simp] theorem modCore_leases (s : State) (n : Nat) (f : CoreSt → CoreSt) : (s.modCore n f).leases = s.leases := rfl
@[simp] theorem modCore_tasks (s : State) (n : Nat) (f : CoreSt → CoreSt) : (s.modCore n f).tasks = s.tasks := rfl
@[simp] theorem modCore_saved (s : State) (n : Nat) (f : CoreSt → CoreSt) : (s.modCore n f).saved = s.saved := rfl
@[simp] theorem modCore_reencs (s : State) (n : Nat) (f : CoreSt → CoreSt) : (s.modCore n f).reencs = s.reencs := rfl
@[simp] theorem modCore_rinvs (s : State) (n : Nat) (f : CoreSt → CoreSt) : (s.modCore n f).rinvs = s.rinvs := rfl
@[simp] theorem modCore_walker (s : State) (n : Nat) (f : CoreSt → CoreSt) : (s.modCore n f).walker = s.walker := rfl
@[simp] theorem modCore_pkgid (s : State) (n : Nat) (f : CoreSt → CoreSt) : (s.modCore n f).pkgid = s.pkgid := rfl
@[simp] theorem modCore_host (s : State) (n : Nat) (f : CoreSt → CoreSt) : (s.modCore n f).host = s.host := rfl
@[simp] theorem modCore_notices (s : State) (n : Nat) (f : CoreSt → CoreSt) : (s.modCore n f).notices = s.notices := rfl
@[simp] theorem modCore_reports (s : State) (n : Nat) (f : CoreSt → CoreSt) : (s.modCore n f).reports = s.reports := rfl
@[simp] theorem modCore_remotes (s : State) (n : Nat) (f : CoreSt → CoreSt) : (s.modCore n f).remotes = s.remotes := rfl
@[simp] theorem modCore_outbox (s : State) (n : Nat) (f : CoreSt → CoreSt) : (s.modCore n f).outbox = s.outbox := rfl

/-! ## modCluster -/

@[simp] theorem modCluster_cc (s : State) (n : Nat) (f : Cluster → Cluster) : (s.modCluster n f).cc = s.cc := rfl
@[simp] theorem modCluster_powered (s : State) (n : Nat) (f : Cluster → Cluster) : (s.modCluster n f).powered = s.powered := rfl
@[simp] theorem modCluster_fuses (s : State) (n : Nat) (f : Cluster → Cluster) : (s.modCluster n f).fuses = s.fuses := rfl
@[simp] theorem modCluster_who (s : State) (n : Nat) (f : Cluster → Cluster) : (s.modCluster n f).who = s.who := rfl
@[simp] theorem modCluster_pos (s : State) (n : Nat) (f : Cluster → Cluster) : (s.modCluster n f).pos = s.pos := rfl
@[simp] theorem modCluster_word (s : State) (n : Nat) (f : Cluster → Cluster) : (s.modCluster n f).word = s.word := rfl
@[simp] theorem modCluster_bpc (s : State) (n : Nat) (f : Cluster → Cluster) : (s.modCluster n f).bpc = s.bpc := rfl
@[simp] theorem modCluster_bnxt (s : State) (n : Nat) (f : Cluster → Cluster) : (s.modCluster n f).bnxt = s.bnxt := rfl
@[simp] theorem modCluster_ckb (s : State) (n : Nat) (f : Cluster → Cluster) : (s.modCluster n f).ckb = s.ckb := rfl
@[simp] theorem modCluster_mark (s : State) (n : Nat) (f : Cluster → Cluster) : (s.modCluster n f).mark = s.mark := rfl
@[simp] theorem modCluster_hmark (s : State) (n : Nat) (f : Cluster → Cluster) : (s.modCluster n f).hmark = s.hmark := rfl
@[simp] theorem modCluster_srs (s : State) (n : Nat) (f : Cluster → Cluster) : (s.modCluster n f).srs = s.srs := rfl
@[simp] theorem modCluster_verdict (s : State) (n : Nat) (f : Cluster → Cluster) : (s.modCluster n f).verdict = s.verdict := rfl
@[simp] theorem modCluster_ids (s : State) (n : Nat) (f : Cluster → Cluster) : (s.modCluster n f).ids = s.ids := rfl
@[simp] theorem modCluster_fresh (s : State) (n : Nat) (f : Cluster → Cluster) : (s.modCluster n f).fresh = s.fresh := rfl
@[simp] theorem modCluster_ev (s : State) (n : Nat) (f : Cluster → Cluster) : (s.modCluster n f).ev = s.ev := rfl
@[simp] theorem modCluster_agenda (s : State) (n : Nat) (f : Cluster → Cluster) : (s.modCluster n f).agenda = s.agenda := rfl
@[simp] theorem modCluster_turns (s : State) (n : Nat) (f : Cluster → Cluster) : (s.modCluster n f).turns = s.turns := rfl
@[simp] theorem modCluster_ctxs (s : State) (n : Nat) (f : Cluster → Cluster) : (s.modCluster n f).ctxs = s.ctxs := rfl
@[simp] theorem modCluster_cores (s : State) (n : Nat) (f : Cluster → Cluster) : (s.modCluster n f).cores = s.cores := rfl
@[simp] theorem modCluster_clusters (s : State) (n : Nat) (f : Cluster → Cluster) : (s.modCluster n f).clusters = s.clusters.upd {} n f := rfl
@[simp] theorem modCluster_dies (s : State) (n : Nat) (f : Cluster → Cluster) : (s.modCluster n f).dies = s.dies := rfl
@[simp] theorem modCluster_relqs (s : State) (n : Nat) (f : Cluster → Cluster) : (s.modCluster n f).relqs = s.relqs := rfl
@[simp] theorem modCluster_mem (s : State) (n : Nat) (f : Cluster → Cluster) : (s.modCluster n f).mem = s.mem := rfl
@[simp] theorem modCluster_poison (s : State) (n : Nat) (f : Cluster → Cluster) : (s.modCluster n f).poison = s.poison := rfl
@[simp] theorem modCluster_tags (s : State) (n : Nat) (f : Cluster → Cluster) : (s.modCluster n f).tags = s.tags := rfl
@[simp] theorem modCluster_metaName (s : State) (n : Nat) (f : Cluster → Cluster) : (s.modCluster n f).metaName = s.metaName := rfl
@[simp] theorem modCluster_gov (s : State) (n : Nat) (f : Cluster → Cluster) : (s.modCluster n f).gov = s.gov := rfl
@[simp] theorem modCluster_govQ (s : State) (n : Nat) (f : Cluster → Cluster) : (s.modCluster n f).govQ = s.govQ := rfl
@[simp] theorem modCluster_regions (s : State) (n : Nat) (f : Cluster → Cluster) : (s.modCluster n f).regions = s.regions := rfl
@[simp] theorem modCluster_queues (s : State) (n : Nat) (f : Cluster → Cluster) : (s.modCluster n f).queues = s.queues := rfl
@[simp] theorem modCluster_wells (s : State) (n : Nat) (f : Cluster → Cluster) : (s.modCluster n f).wells = s.wells := rfl
@[simp] theorem modCluster_leases (s : State) (n : Nat) (f : Cluster → Cluster) : (s.modCluster n f).leases = s.leases := rfl
@[simp] theorem modCluster_tasks (s : State) (n : Nat) (f : Cluster → Cluster) : (s.modCluster n f).tasks = s.tasks := rfl
@[simp] theorem modCluster_saved (s : State) (n : Nat) (f : Cluster → Cluster) : (s.modCluster n f).saved = s.saved := rfl
@[simp] theorem modCluster_reencs (s : State) (n : Nat) (f : Cluster → Cluster) : (s.modCluster n f).reencs = s.reencs := rfl
@[simp] theorem modCluster_rinvs (s : State) (n : Nat) (f : Cluster → Cluster) : (s.modCluster n f).rinvs = s.rinvs := rfl
@[simp] theorem modCluster_walker (s : State) (n : Nat) (f : Cluster → Cluster) : (s.modCluster n f).walker = s.walker := rfl
@[simp] theorem modCluster_pkgid (s : State) (n : Nat) (f : Cluster → Cluster) : (s.modCluster n f).pkgid = s.pkgid := rfl
@[simp] theorem modCluster_host (s : State) (n : Nat) (f : Cluster → Cluster) : (s.modCluster n f).host = s.host := rfl
@[simp] theorem modCluster_notices (s : State) (n : Nat) (f : Cluster → Cluster) : (s.modCluster n f).notices = s.notices := rfl
@[simp] theorem modCluster_reports (s : State) (n : Nat) (f : Cluster → Cluster) : (s.modCluster n f).reports = s.reports := rfl
@[simp] theorem modCluster_remotes (s : State) (n : Nat) (f : Cluster → Cluster) : (s.modCluster n f).remotes = s.remotes := rfl
@[simp] theorem modCluster_outbox (s : State) (n : Nat) (f : Cluster → Cluster) : (s.modCluster n f).outbox = s.outbox := rfl

/-! ## modDie -/

@[simp] theorem modDie_cc (s : State) (n : Nat) (f : Die → Die) : (s.modDie n f).cc = s.cc := rfl
@[simp] theorem modDie_powered (s : State) (n : Nat) (f : Die → Die) : (s.modDie n f).powered = s.powered := rfl
@[simp] theorem modDie_fuses (s : State) (n : Nat) (f : Die → Die) : (s.modDie n f).fuses = s.fuses := rfl
@[simp] theorem modDie_who (s : State) (n : Nat) (f : Die → Die) : (s.modDie n f).who = s.who := rfl
@[simp] theorem modDie_pos (s : State) (n : Nat) (f : Die → Die) : (s.modDie n f).pos = s.pos := rfl
@[simp] theorem modDie_word (s : State) (n : Nat) (f : Die → Die) : (s.modDie n f).word = s.word := rfl
@[simp] theorem modDie_bpc (s : State) (n : Nat) (f : Die → Die) : (s.modDie n f).bpc = s.bpc := rfl
@[simp] theorem modDie_bnxt (s : State) (n : Nat) (f : Die → Die) : (s.modDie n f).bnxt = s.bnxt := rfl
@[simp] theorem modDie_ckb (s : State) (n : Nat) (f : Die → Die) : (s.modDie n f).ckb = s.ckb := rfl
@[simp] theorem modDie_mark (s : State) (n : Nat) (f : Die → Die) : (s.modDie n f).mark = s.mark := rfl
@[simp] theorem modDie_hmark (s : State) (n : Nat) (f : Die → Die) : (s.modDie n f).hmark = s.hmark := rfl
@[simp] theorem modDie_srs (s : State) (n : Nat) (f : Die → Die) : (s.modDie n f).srs = s.srs := rfl
@[simp] theorem modDie_verdict (s : State) (n : Nat) (f : Die → Die) : (s.modDie n f).verdict = s.verdict := rfl
@[simp] theorem modDie_ids (s : State) (n : Nat) (f : Die → Die) : (s.modDie n f).ids = s.ids := rfl
@[simp] theorem modDie_fresh (s : State) (n : Nat) (f : Die → Die) : (s.modDie n f).fresh = s.fresh := rfl
@[simp] theorem modDie_ev (s : State) (n : Nat) (f : Die → Die) : (s.modDie n f).ev = s.ev := rfl
@[simp] theorem modDie_agenda (s : State) (n : Nat) (f : Die → Die) : (s.modDie n f).agenda = s.agenda := rfl
@[simp] theorem modDie_turns (s : State) (n : Nat) (f : Die → Die) : (s.modDie n f).turns = s.turns := rfl
@[simp] theorem modDie_ctxs (s : State) (n : Nat) (f : Die → Die) : (s.modDie n f).ctxs = s.ctxs := rfl
@[simp] theorem modDie_cores (s : State) (n : Nat) (f : Die → Die) : (s.modDie n f).cores = s.cores := rfl
@[simp] theorem modDie_clusters (s : State) (n : Nat) (f : Die → Die) : (s.modDie n f).clusters = s.clusters := rfl
@[simp] theorem modDie_dies (s : State) (n : Nat) (f : Die → Die) : (s.modDie n f).dies = s.dies.upd {} n f := rfl
@[simp] theorem modDie_relqs (s : State) (n : Nat) (f : Die → Die) : (s.modDie n f).relqs = s.relqs := rfl
@[simp] theorem modDie_mem (s : State) (n : Nat) (f : Die → Die) : (s.modDie n f).mem = s.mem := rfl
@[simp] theorem modDie_poison (s : State) (n : Nat) (f : Die → Die) : (s.modDie n f).poison = s.poison := rfl
@[simp] theorem modDie_tags (s : State) (n : Nat) (f : Die → Die) : (s.modDie n f).tags = s.tags := rfl
@[simp] theorem modDie_metaName (s : State) (n : Nat) (f : Die → Die) : (s.modDie n f).metaName = s.metaName := rfl
@[simp] theorem modDie_gov (s : State) (n : Nat) (f : Die → Die) : (s.modDie n f).gov = s.gov := rfl
@[simp] theorem modDie_govQ (s : State) (n : Nat) (f : Die → Die) : (s.modDie n f).govQ = s.govQ := rfl
@[simp] theorem modDie_regions (s : State) (n : Nat) (f : Die → Die) : (s.modDie n f).regions = s.regions := rfl
@[simp] theorem modDie_queues (s : State) (n : Nat) (f : Die → Die) : (s.modDie n f).queues = s.queues := rfl
@[simp] theorem modDie_wells (s : State) (n : Nat) (f : Die → Die) : (s.modDie n f).wells = s.wells := rfl
@[simp] theorem modDie_leases (s : State) (n : Nat) (f : Die → Die) : (s.modDie n f).leases = s.leases := rfl
@[simp] theorem modDie_tasks (s : State) (n : Nat) (f : Die → Die) : (s.modDie n f).tasks = s.tasks := rfl
@[simp] theorem modDie_saved (s : State) (n : Nat) (f : Die → Die) : (s.modDie n f).saved = s.saved := rfl
@[simp] theorem modDie_reencs (s : State) (n : Nat) (f : Die → Die) : (s.modDie n f).reencs = s.reencs := rfl
@[simp] theorem modDie_rinvs (s : State) (n : Nat) (f : Die → Die) : (s.modDie n f).rinvs = s.rinvs := rfl
@[simp] theorem modDie_walker (s : State) (n : Nat) (f : Die → Die) : (s.modDie n f).walker = s.walker := rfl
@[simp] theorem modDie_pkgid (s : State) (n : Nat) (f : Die → Die) : (s.modDie n f).pkgid = s.pkgid := rfl
@[simp] theorem modDie_host (s : State) (n : Nat) (f : Die → Die) : (s.modDie n f).host = s.host := rfl
@[simp] theorem modDie_notices (s : State) (n : Nat) (f : Die → Die) : (s.modDie n f).notices = s.notices := rfl
@[simp] theorem modDie_reports (s : State) (n : Nat) (f : Die → Die) : (s.modDie n f).reports = s.reports := rfl
@[simp] theorem modDie_remotes (s : State) (n : Nat) (f : Die → Die) : (s.modDie n f).remotes = s.remotes := rfl
@[simp] theorem modDie_outbox (s : State) (n : Nat) (f : Die → Die) : (s.modDie n f).outbox = s.outbox := rfl

/-! ## modTask -/

@[simp] theorem modTask_cc (s : State) (n : Nat) (f : Task → Task) : (s.modTask n f).cc = s.cc := rfl
@[simp] theorem modTask_powered (s : State) (n : Nat) (f : Task → Task) : (s.modTask n f).powered = s.powered := rfl
@[simp] theorem modTask_fuses (s : State) (n : Nat) (f : Task → Task) : (s.modTask n f).fuses = s.fuses := rfl
@[simp] theorem modTask_who (s : State) (n : Nat) (f : Task → Task) : (s.modTask n f).who = s.who := rfl
@[simp] theorem modTask_pos (s : State) (n : Nat) (f : Task → Task) : (s.modTask n f).pos = s.pos := rfl
@[simp] theorem modTask_word (s : State) (n : Nat) (f : Task → Task) : (s.modTask n f).word = s.word := rfl
@[simp] theorem modTask_bpc (s : State) (n : Nat) (f : Task → Task) : (s.modTask n f).bpc = s.bpc := rfl
@[simp] theorem modTask_bnxt (s : State) (n : Nat) (f : Task → Task) : (s.modTask n f).bnxt = s.bnxt := rfl
@[simp] theorem modTask_ckb (s : State) (n : Nat) (f : Task → Task) : (s.modTask n f).ckb = s.ckb := rfl
@[simp] theorem modTask_mark (s : State) (n : Nat) (f : Task → Task) : (s.modTask n f).mark = s.mark := rfl
@[simp] theorem modTask_hmark (s : State) (n : Nat) (f : Task → Task) : (s.modTask n f).hmark = s.hmark := rfl
@[simp] theorem modTask_srs (s : State) (n : Nat) (f : Task → Task) : (s.modTask n f).srs = s.srs := rfl
@[simp] theorem modTask_verdict (s : State) (n : Nat) (f : Task → Task) : (s.modTask n f).verdict = s.verdict := rfl
@[simp] theorem modTask_ids (s : State) (n : Nat) (f : Task → Task) : (s.modTask n f).ids = s.ids := rfl
@[simp] theorem modTask_fresh (s : State) (n : Nat) (f : Task → Task) : (s.modTask n f).fresh = s.fresh := rfl
@[simp] theorem modTask_ev (s : State) (n : Nat) (f : Task → Task) : (s.modTask n f).ev = s.ev := rfl
@[simp] theorem modTask_agenda (s : State) (n : Nat) (f : Task → Task) : (s.modTask n f).agenda = s.agenda := rfl
@[simp] theorem modTask_turns (s : State) (n : Nat) (f : Task → Task) : (s.modTask n f).turns = s.turns := rfl
@[simp] theorem modTask_ctxs (s : State) (n : Nat) (f : Task → Task) : (s.modTask n f).ctxs = s.ctxs := rfl
@[simp] theorem modTask_cores (s : State) (n : Nat) (f : Task → Task) : (s.modTask n f).cores = s.cores := rfl
@[simp] theorem modTask_clusters (s : State) (n : Nat) (f : Task → Task) : (s.modTask n f).clusters = s.clusters := rfl
@[simp] theorem modTask_dies (s : State) (n : Nat) (f : Task → Task) : (s.modTask n f).dies = s.dies := rfl
@[simp] theorem modTask_relqs (s : State) (n : Nat) (f : Task → Task) : (s.modTask n f).relqs = s.relqs := rfl
@[simp] theorem modTask_mem (s : State) (n : Nat) (f : Task → Task) : (s.modTask n f).mem = s.mem := rfl
@[simp] theorem modTask_poison (s : State) (n : Nat) (f : Task → Task) : (s.modTask n f).poison = s.poison := rfl
@[simp] theorem modTask_tags (s : State) (n : Nat) (f : Task → Task) : (s.modTask n f).tags = s.tags := rfl
@[simp] theorem modTask_metaName (s : State) (n : Nat) (f : Task → Task) : (s.modTask n f).metaName = s.metaName := rfl
@[simp] theorem modTask_gov (s : State) (n : Nat) (f : Task → Task) : (s.modTask n f).gov = s.gov := rfl
@[simp] theorem modTask_govQ (s : State) (n : Nat) (f : Task → Task) : (s.modTask n f).govQ = s.govQ := rfl
@[simp] theorem modTask_regions (s : State) (n : Nat) (f : Task → Task) : (s.modTask n f).regions = s.regions := rfl
@[simp] theorem modTask_queues (s : State) (n : Nat) (f : Task → Task) : (s.modTask n f).queues = s.queues := rfl
@[simp] theorem modTask_wells (s : State) (n : Nat) (f : Task → Task) : (s.modTask n f).wells = s.wells := rfl
@[simp] theorem modTask_leases (s : State) (n : Nat) (f : Task → Task) : (s.modTask n f).leases = s.leases := rfl
@[simp] theorem modTask_tasks (s : State) (n : Nat) (f : Task → Task) : (s.modTask n f).tasks = s.tasks.upd {} n f := rfl
@[simp] theorem modTask_saved (s : State) (n : Nat) (f : Task → Task) : (s.modTask n f).saved = s.saved := rfl
@[simp] theorem modTask_reencs (s : State) (n : Nat) (f : Task → Task) : (s.modTask n f).reencs = s.reencs := rfl
@[simp] theorem modTask_rinvs (s : State) (n : Nat) (f : Task → Task) : (s.modTask n f).rinvs = s.rinvs := rfl
@[simp] theorem modTask_walker (s : State) (n : Nat) (f : Task → Task) : (s.modTask n f).walker = s.walker := rfl
@[simp] theorem modTask_pkgid (s : State) (n : Nat) (f : Task → Task) : (s.modTask n f).pkgid = s.pkgid := rfl
@[simp] theorem modTask_host (s : State) (n : Nat) (f : Task → Task) : (s.modTask n f).host = s.host := rfl
@[simp] theorem modTask_notices (s : State) (n : Nat) (f : Task → Task) : (s.modTask n f).notices = s.notices := rfl
@[simp] theorem modTask_reports (s : State) (n : Nat) (f : Task → Task) : (s.modTask n f).reports = s.reports := rfl
@[simp] theorem modTask_remotes (s : State) (n : Nat) (f : Task → Task) : (s.modTask n f).remotes = s.remotes := rfl
@[simp] theorem modTask_outbox (s : State) (n : Nat) (f : Task → Task) : (s.modTask n f).outbox = s.outbox := rfl

/-! ## modQueue -/

@[simp] theorem modQueue_cc (s : State) (n : Nat) (f : Queue → Queue) : (s.modQueue n f).cc = s.cc := rfl
@[simp] theorem modQueue_powered (s : State) (n : Nat) (f : Queue → Queue) : (s.modQueue n f).powered = s.powered := rfl
@[simp] theorem modQueue_fuses (s : State) (n : Nat) (f : Queue → Queue) : (s.modQueue n f).fuses = s.fuses := rfl
@[simp] theorem modQueue_who (s : State) (n : Nat) (f : Queue → Queue) : (s.modQueue n f).who = s.who := rfl
@[simp] theorem modQueue_pos (s : State) (n : Nat) (f : Queue → Queue) : (s.modQueue n f).pos = s.pos := rfl
@[simp] theorem modQueue_word (s : State) (n : Nat) (f : Queue → Queue) : (s.modQueue n f).word = s.word := rfl
@[simp] theorem modQueue_bpc (s : State) (n : Nat) (f : Queue → Queue) : (s.modQueue n f).bpc = s.bpc := rfl
@[simp] theorem modQueue_bnxt (s : State) (n : Nat) (f : Queue → Queue) : (s.modQueue n f).bnxt = s.bnxt := rfl
@[simp] theorem modQueue_ckb (s : State) (n : Nat) (f : Queue → Queue) : (s.modQueue n f).ckb = s.ckb := rfl
@[simp] theorem modQueue_mark (s : State) (n : Nat) (f : Queue → Queue) : (s.modQueue n f).mark = s.mark := rfl
@[simp] theorem modQueue_hmark (s : State) (n : Nat) (f : Queue → Queue) : (s.modQueue n f).hmark = s.hmark := rfl
@[simp] theorem modQueue_srs (s : State) (n : Nat) (f : Queue → Queue) : (s.modQueue n f).srs = s.srs := rfl
@[simp] theorem modQueue_verdict (s : State) (n : Nat) (f : Queue → Queue) : (s.modQueue n f).verdict = s.verdict := rfl
@[simp] theorem modQueue_ids (s : State) (n : Nat) (f : Queue → Queue) : (s.modQueue n f).ids = s.ids := rfl
@[simp] theorem modQueue_fresh (s : State) (n : Nat) (f : Queue → Queue) : (s.modQueue n f).fresh = s.fresh := rfl
@[simp] theorem modQueue_ev (s : State) (n : Nat) (f : Queue → Queue) : (s.modQueue n f).ev = s.ev := rfl
@[simp] theorem modQueue_agenda (s : State) (n : Nat) (f : Queue → Queue) : (s.modQueue n f).agenda = s.agenda := rfl
@[simp] theorem modQueue_turns (s : State) (n : Nat) (f : Queue → Queue) : (s.modQueue n f).turns = s.turns := rfl
@[simp] theorem modQueue_ctxs (s : State) (n : Nat) (f : Queue → Queue) : (s.modQueue n f).ctxs = s.ctxs := rfl
@[simp] theorem modQueue_cores (s : State) (n : Nat) (f : Queue → Queue) : (s.modQueue n f).cores = s.cores := rfl
@[simp] theorem modQueue_clusters (s : State) (n : Nat) (f : Queue → Queue) : (s.modQueue n f).clusters = s.clusters := rfl
@[simp] theorem modQueue_dies (s : State) (n : Nat) (f : Queue → Queue) : (s.modQueue n f).dies = s.dies := rfl
@[simp] theorem modQueue_relqs (s : State) (n : Nat) (f : Queue → Queue) : (s.modQueue n f).relqs = s.relqs := rfl
@[simp] theorem modQueue_mem (s : State) (n : Nat) (f : Queue → Queue) : (s.modQueue n f).mem = s.mem := rfl
@[simp] theorem modQueue_poison (s : State) (n : Nat) (f : Queue → Queue) : (s.modQueue n f).poison = s.poison := rfl
@[simp] theorem modQueue_tags (s : State) (n : Nat) (f : Queue → Queue) : (s.modQueue n f).tags = s.tags := rfl
@[simp] theorem modQueue_metaName (s : State) (n : Nat) (f : Queue → Queue) : (s.modQueue n f).metaName = s.metaName := rfl
@[simp] theorem modQueue_gov (s : State) (n : Nat) (f : Queue → Queue) : (s.modQueue n f).gov = s.gov := rfl
@[simp] theorem modQueue_govQ (s : State) (n : Nat) (f : Queue → Queue) : (s.modQueue n f).govQ = s.govQ := rfl
@[simp] theorem modQueue_regions (s : State) (n : Nat) (f : Queue → Queue) : (s.modQueue n f).regions = s.regions := rfl
@[simp] theorem modQueue_queues (s : State) (n : Nat) (f : Queue → Queue) : (s.modQueue n f).queues = s.queues.upd {} n f := rfl
@[simp] theorem modQueue_wells (s : State) (n : Nat) (f : Queue → Queue) : (s.modQueue n f).wells = s.wells := rfl
@[simp] theorem modQueue_leases (s : State) (n : Nat) (f : Queue → Queue) : (s.modQueue n f).leases = s.leases := rfl
@[simp] theorem modQueue_tasks (s : State) (n : Nat) (f : Queue → Queue) : (s.modQueue n f).tasks = s.tasks := rfl
@[simp] theorem modQueue_saved (s : State) (n : Nat) (f : Queue → Queue) : (s.modQueue n f).saved = s.saved := rfl
@[simp] theorem modQueue_reencs (s : State) (n : Nat) (f : Queue → Queue) : (s.modQueue n f).reencs = s.reencs := rfl
@[simp] theorem modQueue_rinvs (s : State) (n : Nat) (f : Queue → Queue) : (s.modQueue n f).rinvs = s.rinvs := rfl
@[simp] theorem modQueue_walker (s : State) (n : Nat) (f : Queue → Queue) : (s.modQueue n f).walker = s.walker := rfl
@[simp] theorem modQueue_pkgid (s : State) (n : Nat) (f : Queue → Queue) : (s.modQueue n f).pkgid = s.pkgid := rfl
@[simp] theorem modQueue_host (s : State) (n : Nat) (f : Queue → Queue) : (s.modQueue n f).host = s.host := rfl
@[simp] theorem modQueue_notices (s : State) (n : Nat) (f : Queue → Queue) : (s.modQueue n f).notices = s.notices := rfl
@[simp] theorem modQueue_reports (s : State) (n : Nat) (f : Queue → Queue) : (s.modQueue n f).reports = s.reports := rfl
@[simp] theorem modQueue_remotes (s : State) (n : Nat) (f : Queue → Queue) : (s.modQueue n f).remotes = s.remotes := rfl
@[simp] theorem modQueue_outbox (s : State) (n : Nat) (f : Queue → Queue) : (s.modQueue n f).outbox = s.outbox := rfl

/-! ## modWalker -/

@[simp] theorem modWalker_cc (s : State) (f : Walker → Walker) : (s.modWalker f).cc = s.cc := rfl
@[simp] theorem modWalker_powered (s : State) (f : Walker → Walker) : (s.modWalker f).powered = s.powered := rfl
@[simp] theorem modWalker_fuses (s : State) (f : Walker → Walker) : (s.modWalker f).fuses = s.fuses := rfl
@[simp] theorem modWalker_who (s : State) (f : Walker → Walker) : (s.modWalker f).who = s.who := rfl
@[simp] theorem modWalker_pos (s : State) (f : Walker → Walker) : (s.modWalker f).pos = s.pos := rfl
@[simp] theorem modWalker_word (s : State) (f : Walker → Walker) : (s.modWalker f).word = s.word := rfl
@[simp] theorem modWalker_bpc (s : State) (f : Walker → Walker) : (s.modWalker f).bpc = s.bpc := rfl
@[simp] theorem modWalker_bnxt (s : State) (f : Walker → Walker) : (s.modWalker f).bnxt = s.bnxt := rfl
@[simp] theorem modWalker_ckb (s : State) (f : Walker → Walker) : (s.modWalker f).ckb = s.ckb := rfl
@[simp] theorem modWalker_mark (s : State) (f : Walker → Walker) : (s.modWalker f).mark = s.mark := rfl
@[simp] theorem modWalker_hmark (s : State) (f : Walker → Walker) : (s.modWalker f).hmark = s.hmark := rfl
@[simp] theorem modWalker_srs (s : State) (f : Walker → Walker) : (s.modWalker f).srs = s.srs := rfl
@[simp] theorem modWalker_verdict (s : State) (f : Walker → Walker) : (s.modWalker f).verdict = s.verdict := rfl
@[simp] theorem modWalker_ids (s : State) (f : Walker → Walker) : (s.modWalker f).ids = s.ids := rfl
@[simp] theorem modWalker_fresh (s : State) (f : Walker → Walker) : (s.modWalker f).fresh = s.fresh := rfl
@[simp] theorem modWalker_ev (s : State) (f : Walker → Walker) : (s.modWalker f).ev = s.ev := rfl
@[simp] theorem modWalker_agenda (s : State) (f : Walker → Walker) : (s.modWalker f).agenda = s.agenda := rfl
@[simp] theorem modWalker_turns (s : State) (f : Walker → Walker) : (s.modWalker f).turns = s.turns := rfl
@[simp] theorem modWalker_ctxs (s : State) (f : Walker → Walker) : (s.modWalker f).ctxs = s.ctxs := rfl
@[simp] theorem modWalker_cores (s : State) (f : Walker → Walker) : (s.modWalker f).cores = s.cores := rfl
@[simp] theorem modWalker_clusters (s : State) (f : Walker → Walker) : (s.modWalker f).clusters = s.clusters := rfl
@[simp] theorem modWalker_dies (s : State) (f : Walker → Walker) : (s.modWalker f).dies = s.dies := rfl
@[simp] theorem modWalker_relqs (s : State) (f : Walker → Walker) : (s.modWalker f).relqs = s.relqs := rfl
@[simp] theorem modWalker_mem (s : State) (f : Walker → Walker) : (s.modWalker f).mem = s.mem := rfl
@[simp] theorem modWalker_poison (s : State) (f : Walker → Walker) : (s.modWalker f).poison = s.poison := rfl
@[simp] theorem modWalker_tags (s : State) (f : Walker → Walker) : (s.modWalker f).tags = s.tags := rfl
@[simp] theorem modWalker_metaName (s : State) (f : Walker → Walker) : (s.modWalker f).metaName = s.metaName := rfl
@[simp] theorem modWalker_gov (s : State) (f : Walker → Walker) : (s.modWalker f).gov = s.gov := rfl
@[simp] theorem modWalker_govQ (s : State) (f : Walker → Walker) : (s.modWalker f).govQ = s.govQ := rfl
@[simp] theorem modWalker_regions (s : State) (f : Walker → Walker) : (s.modWalker f).regions = s.regions := rfl
@[simp] theorem modWalker_queues (s : State) (f : Walker → Walker) : (s.modWalker f).queues = s.queues := rfl
@[simp] theorem modWalker_wells (s : State) (f : Walker → Walker) : (s.modWalker f).wells = s.wells := rfl
@[simp] theorem modWalker_leases (s : State) (f : Walker → Walker) : (s.modWalker f).leases = s.leases := rfl
@[simp] theorem modWalker_tasks (s : State) (f : Walker → Walker) : (s.modWalker f).tasks = s.tasks := rfl
@[simp] theorem modWalker_saved (s : State) (f : Walker → Walker) : (s.modWalker f).saved = s.saved := rfl
@[simp] theorem modWalker_reencs (s : State) (f : Walker → Walker) : (s.modWalker f).reencs = s.reencs := rfl
@[simp] theorem modWalker_rinvs (s : State) (f : Walker → Walker) : (s.modWalker f).rinvs = s.rinvs := rfl
@[simp] theorem modWalker_walker (s : State) (f : Walker → Walker) : (s.modWalker f).walker = f s.walker := rfl
@[simp] theorem modWalker_pkgid (s : State) (f : Walker → Walker) : (s.modWalker f).pkgid = s.pkgid := rfl
@[simp] theorem modWalker_host (s : State) (f : Walker → Walker) : (s.modWalker f).host = s.host := rfl
@[simp] theorem modWalker_notices (s : State) (f : Walker → Walker) : (s.modWalker f).notices = s.notices := rfl
@[simp] theorem modWalker_reports (s : State) (f : Walker → Walker) : (s.modWalker f).reports = s.reports := rfl
@[simp] theorem modWalker_remotes (s : State) (f : Walker → Walker) : (s.modWalker f).remotes = s.remotes := rfl
@[simp] theorem modWalker_outbox (s : State) (f : Walker → Walker) : (s.modWalker f).outbox = s.outbox := rfl

/-! ## modHost -/

@[simp] theorem modHost_cc (s : State) (f : HostRegs → HostRegs) : (s.modHost f).cc = s.cc := rfl
@[simp] theorem modHost_powered (s : State) (f : HostRegs → HostRegs) : (s.modHost f).powered = s.powered := rfl
@[simp] theorem modHost_fuses (s : State) (f : HostRegs → HostRegs) : (s.modHost f).fuses = s.fuses := rfl
@[simp] theorem modHost_who (s : State) (f : HostRegs → HostRegs) : (s.modHost f).who = s.who := rfl
@[simp] theorem modHost_pos (s : State) (f : HostRegs → HostRegs) : (s.modHost f).pos = s.pos := rfl
@[simp] theorem modHost_word (s : State) (f : HostRegs → HostRegs) : (s.modHost f).word = s.word := rfl
@[simp] theorem modHost_bpc (s : State) (f : HostRegs → HostRegs) : (s.modHost f).bpc = s.bpc := rfl
@[simp] theorem modHost_bnxt (s : State) (f : HostRegs → HostRegs) : (s.modHost f).bnxt = s.bnxt := rfl
@[simp] theorem modHost_ckb (s : State) (f : HostRegs → HostRegs) : (s.modHost f).ckb = s.ckb := rfl
@[simp] theorem modHost_mark (s : State) (f : HostRegs → HostRegs) : (s.modHost f).mark = s.mark := rfl
@[simp] theorem modHost_hmark (s : State) (f : HostRegs → HostRegs) : (s.modHost f).hmark = s.hmark := rfl
@[simp] theorem modHost_srs (s : State) (f : HostRegs → HostRegs) : (s.modHost f).srs = s.srs := rfl
@[simp] theorem modHost_verdict (s : State) (f : HostRegs → HostRegs) : (s.modHost f).verdict = s.verdict := rfl
@[simp] theorem modHost_ids (s : State) (f : HostRegs → HostRegs) : (s.modHost f).ids = s.ids := rfl
@[simp] theorem modHost_fresh (s : State) (f : HostRegs → HostRegs) : (s.modHost f).fresh = s.fresh := rfl
@[simp] theorem modHost_ev (s : State) (f : HostRegs → HostRegs) : (s.modHost f).ev = s.ev := rfl
@[simp] theorem modHost_agenda (s : State) (f : HostRegs → HostRegs) : (s.modHost f).agenda = s.agenda := rfl
@[simp] theorem modHost_turns (s : State) (f : HostRegs → HostRegs) : (s.modHost f).turns = s.turns := rfl
@[simp] theorem modHost_ctxs (s : State) (f : HostRegs → HostRegs) : (s.modHost f).ctxs = s.ctxs := rfl
@[simp] theorem modHost_cores (s : State) (f : HostRegs → HostRegs) : (s.modHost f).cores = s.cores := rfl
@[simp] theorem modHost_clusters (s : State) (f : HostRegs → HostRegs) : (s.modHost f).clusters = s.clusters := rfl
@[simp] theorem modHost_dies (s : State) (f : HostRegs → HostRegs) : (s.modHost f).dies = s.dies := rfl
@[simp] theorem modHost_relqs (s : State) (f : HostRegs → HostRegs) : (s.modHost f).relqs = s.relqs := rfl
@[simp] theorem modHost_mem (s : State) (f : HostRegs → HostRegs) : (s.modHost f).mem = s.mem := rfl
@[simp] theorem modHost_poison (s : State) (f : HostRegs → HostRegs) : (s.modHost f).poison = s.poison := rfl
@[simp] theorem modHost_tags (s : State) (f : HostRegs → HostRegs) : (s.modHost f).tags = s.tags := rfl
@[simp] theorem modHost_metaName (s : State) (f : HostRegs → HostRegs) : (s.modHost f).metaName = s.metaName := rfl
@[simp] theorem modHost_gov (s : State) (f : HostRegs → HostRegs) : (s.modHost f).gov = s.gov := rfl
@[simp] theorem modHost_govQ (s : State) (f : HostRegs → HostRegs) : (s.modHost f).govQ = s.govQ := rfl
@[simp] theorem modHost_regions (s : State) (f : HostRegs → HostRegs) : (s.modHost f).regions = s.regions := rfl
@[simp] theorem modHost_queues (s : State) (f : HostRegs → HostRegs) : (s.modHost f).queues = s.queues := rfl
@[simp] theorem modHost_wells (s : State) (f : HostRegs → HostRegs) : (s.modHost f).wells = s.wells := rfl
@[simp] theorem modHost_leases (s : State) (f : HostRegs → HostRegs) : (s.modHost f).leases = s.leases := rfl
@[simp] theorem modHost_tasks (s : State) (f : HostRegs → HostRegs) : (s.modHost f).tasks = s.tasks := rfl
@[simp] theorem modHost_saved (s : State) (f : HostRegs → HostRegs) : (s.modHost f).saved = s.saved := rfl
@[simp] theorem modHost_reencs (s : State) (f : HostRegs → HostRegs) : (s.modHost f).reencs = s.reencs := rfl
@[simp] theorem modHost_rinvs (s : State) (f : HostRegs → HostRegs) : (s.modHost f).rinvs = s.rinvs := rfl
@[simp] theorem modHost_walker (s : State) (f : HostRegs → HostRegs) : (s.modHost f).walker = s.walker := rfl
@[simp] theorem modHost_pkgid (s : State) (f : HostRegs → HostRegs) : (s.modHost f).pkgid = s.pkgid := rfl
@[simp] theorem modHost_host (s : State) (f : HostRegs → HostRegs) : (s.modHost f).host = f s.host := rfl
@[simp] theorem modHost_notices (s : State) (f : HostRegs → HostRegs) : (s.modHost f).notices = s.notices := rfl
@[simp] theorem modHost_reports (s : State) (f : HostRegs → HostRegs) : (s.modHost f).reports = s.reports := rfl
@[simp] theorem modHost_remotes (s : State) (f : HostRegs → HostRegs) : (s.modHost f).remotes = s.remotes := rfl
@[simp] theorem modHost_outbox (s : State) (f : HostRegs → HostRegs) : (s.modHost f).outbox = s.outbox := rfl

/-! ## send -/

@[simp] theorem send_cc (s : State) (m : Msg) : (s.send m).cc = s.cc := rfl
@[simp] theorem send_powered (s : State) (m : Msg) : (s.send m).powered = s.powered := rfl
@[simp] theorem send_fuses (s : State) (m : Msg) : (s.send m).fuses = s.fuses := rfl
@[simp] theorem send_who (s : State) (m : Msg) : (s.send m).who = s.who := rfl
@[simp] theorem send_pos (s : State) (m : Msg) : (s.send m).pos = s.pos := rfl
@[simp] theorem send_word (s : State) (m : Msg) : (s.send m).word = s.word := rfl
@[simp] theorem send_bpc (s : State) (m : Msg) : (s.send m).bpc = s.bpc := rfl
@[simp] theorem send_bnxt (s : State) (m : Msg) : (s.send m).bnxt = s.bnxt := rfl
@[simp] theorem send_ckb (s : State) (m : Msg) : (s.send m).ckb = s.ckb := rfl
@[simp] theorem send_mark (s : State) (m : Msg) : (s.send m).mark = s.mark := rfl
@[simp] theorem send_hmark (s : State) (m : Msg) : (s.send m).hmark = s.hmark := rfl
@[simp] theorem send_srs (s : State) (m : Msg) : (s.send m).srs = s.srs := rfl
@[simp] theorem send_verdict (s : State) (m : Msg) : (s.send m).verdict = s.verdict := rfl
@[simp] theorem send_ids (s : State) (m : Msg) : (s.send m).ids = s.ids := rfl
@[simp] theorem send_fresh (s : State) (m : Msg) : (s.send m).fresh = s.fresh := rfl
@[simp] theorem send_ev (s : State) (m : Msg) : (s.send m).ev = s.ev := rfl
@[simp] theorem send_agenda (s : State) (m : Msg) : (s.send m).agenda = s.agenda := rfl
@[simp] theorem send_turns (s : State) (m : Msg) : (s.send m).turns = s.turns := rfl
@[simp] theorem send_ctxs (s : State) (m : Msg) : (s.send m).ctxs = s.ctxs := rfl
@[simp] theorem send_cores (s : State) (m : Msg) : (s.send m).cores = s.cores := rfl
@[simp] theorem send_clusters (s : State) (m : Msg) : (s.send m).clusters = s.clusters := rfl
@[simp] theorem send_dies (s : State) (m : Msg) : (s.send m).dies = s.dies := rfl
@[simp] theorem send_relqs (s : State) (m : Msg) : (s.send m).relqs = s.relqs := rfl
@[simp] theorem send_mem (s : State) (m : Msg) : (s.send m).mem = s.mem := rfl
@[simp] theorem send_poison (s : State) (m : Msg) : (s.send m).poison = s.poison := rfl
@[simp] theorem send_tags (s : State) (m : Msg) : (s.send m).tags = s.tags := rfl
@[simp] theorem send_metaName (s : State) (m : Msg) : (s.send m).metaName = s.metaName := rfl
@[simp] theorem send_gov (s : State) (m : Msg) : (s.send m).gov = s.gov := rfl
@[simp] theorem send_govQ (s : State) (m : Msg) : (s.send m).govQ = s.govQ := rfl
@[simp] theorem send_regions (s : State) (m : Msg) : (s.send m).regions = s.regions := rfl
@[simp] theorem send_queues (s : State) (m : Msg) : (s.send m).queues = s.queues := rfl
@[simp] theorem send_wells (s : State) (m : Msg) : (s.send m).wells = s.wells := rfl
@[simp] theorem send_leases (s : State) (m : Msg) : (s.send m).leases = s.leases := rfl
@[simp] theorem send_tasks (s : State) (m : Msg) : (s.send m).tasks = s.tasks := rfl
@[simp] theorem send_saved (s : State) (m : Msg) : (s.send m).saved = s.saved := rfl
@[simp] theorem send_reencs (s : State) (m : Msg) : (s.send m).reencs = s.reencs := rfl
@[simp] theorem send_rinvs (s : State) (m : Msg) : (s.send m).rinvs = s.rinvs := rfl
@[simp] theorem send_walker (s : State) (m : Msg) : (s.send m).walker = s.walker := rfl
@[simp] theorem send_pkgid (s : State) (m : Msg) : (s.send m).pkgid = s.pkgid := rfl
@[simp] theorem send_host (s : State) (m : Msg) : (s.send m).host = s.host := rfl
@[simp] theorem send_notices (s : State) (m : Msg) : (s.send m).notices = s.notices := rfl
@[simp] theorem send_reports (s : State) (m : Msg) : (s.send m).reports = s.reports := rfl
@[simp] theorem send_remotes (s : State) (m : Msg) : (s.send m).remotes = s.remotes := rfl
@[simp] theorem send_outbox (s : State) (m : Msg) : (s.send m).outbox = s.outbox ++ [m] := rfl

/-! ## at_ -/

@[simp] theorem at_cc (s : State) (d : Nat) (e : Ev) : (s.at_ d e).cc = s.cc := rfl
@[simp] theorem at_powered (s : State) (d : Nat) (e : Ev) : (s.at_ d e).powered = s.powered := rfl
@[simp] theorem at_fuses (s : State) (d : Nat) (e : Ev) : (s.at_ d e).fuses = s.fuses := rfl
@[simp] theorem at_who (s : State) (d : Nat) (e : Ev) : (s.at_ d e).who = s.who := rfl
@[simp] theorem at_pos (s : State) (d : Nat) (e : Ev) : (s.at_ d e).pos = s.pos := rfl
@[simp] theorem at_word (s : State) (d : Nat) (e : Ev) : (s.at_ d e).word = s.word := rfl
@[simp] theorem at_bpc (s : State) (d : Nat) (e : Ev) : (s.at_ d e).bpc = s.bpc := rfl
@[simp] theorem at_bnxt (s : State) (d : Nat) (e : Ev) : (s.at_ d e).bnxt = s.bnxt := rfl
@[simp] theorem at_ckb (s : State) (d : Nat) (e : Ev) : (s.at_ d e).ckb = s.ckb := rfl
@[simp] theorem at_mark (s : State) (d : Nat) (e : Ev) : (s.at_ d e).mark = s.mark := rfl
@[simp] theorem at_hmark (s : State) (d : Nat) (e : Ev) : (s.at_ d e).hmark = s.hmark := rfl
@[simp] theorem at_srs (s : State) (d : Nat) (e : Ev) : (s.at_ d e).srs = s.srs := rfl
@[simp] theorem at_verdict (s : State) (d : Nat) (e : Ev) : (s.at_ d e).verdict = s.verdict := rfl
@[simp] theorem at_ids (s : State) (d : Nat) (e : Ev) : (s.at_ d e).ids = s.ids := rfl
@[simp] theorem at_fresh (s : State) (d : Nat) (e : Ev) : (s.at_ d e).fresh = s.fresh := rfl
@[simp] theorem at_ev (s : State) (d : Nat) (e : Ev) : (s.at_ d e).ev = s.ev := rfl
@[simp] theorem at_agenda (s : State) (d : Nat) (e : Ev) : (s.at_ d e).agenda = agendaInsert d e s.agenda := rfl
@[simp] theorem at_turns (s : State) (d : Nat) (e : Ev) : (s.at_ d e).turns = s.turns := rfl
@[simp] theorem at_ctxs (s : State) (d : Nat) (e : Ev) : (s.at_ d e).ctxs = s.ctxs := rfl
@[simp] theorem at_cores (s : State) (d : Nat) (e : Ev) : (s.at_ d e).cores = s.cores := rfl
@[simp] theorem at_clusters (s : State) (d : Nat) (e : Ev) : (s.at_ d e).clusters = s.clusters := rfl
@[simp] theorem at_dies (s : State) (d : Nat) (e : Ev) : (s.at_ d e).dies = s.dies := rfl
@[simp] theorem at_relqs (s : State) (d : Nat) (e : Ev) : (s.at_ d e).relqs = s.relqs := rfl
@[simp] theorem at_mem (s : State) (d : Nat) (e : Ev) : (s.at_ d e).mem = s.mem := rfl
@[simp] theorem at_poison (s : State) (d : Nat) (e : Ev) : (s.at_ d e).poison = s.poison := rfl
@[simp] theorem at_tags (s : State) (d : Nat) (e : Ev) : (s.at_ d e).tags = s.tags := rfl
@[simp] theorem at_metaName (s : State) (d : Nat) (e : Ev) : (s.at_ d e).metaName = s.metaName := rfl
@[simp] theorem at_gov (s : State) (d : Nat) (e : Ev) : (s.at_ d e).gov = s.gov := rfl
@[simp] theorem at_govQ (s : State) (d : Nat) (e : Ev) : (s.at_ d e).govQ = s.govQ := rfl
@[simp] theorem at_regions (s : State) (d : Nat) (e : Ev) : (s.at_ d e).regions = s.regions := rfl
@[simp] theorem at_queues (s : State) (d : Nat) (e : Ev) : (s.at_ d e).queues = s.queues := rfl
@[simp] theorem at_wells (s : State) (d : Nat) (e : Ev) : (s.at_ d e).wells = s.wells := rfl
@[simp] theorem at_leases (s : State) (d : Nat) (e : Ev) : (s.at_ d e).leases = s.leases := rfl
@[simp] theorem at_tasks (s : State) (d : Nat) (e : Ev) : (s.at_ d e).tasks = s.tasks := rfl
@[simp] theorem at_saved (s : State) (d : Nat) (e : Ev) : (s.at_ d e).saved = s.saved := rfl
@[simp] theorem at_reencs (s : State) (d : Nat) (e : Ev) : (s.at_ d e).reencs = s.reencs := rfl
@[simp] theorem at_rinvs (s : State) (d : Nat) (e : Ev) : (s.at_ d e).rinvs = s.rinvs := rfl
@[simp] theorem at_walker (s : State) (d : Nat) (e : Ev) : (s.at_ d e).walker = s.walker := rfl
@[simp] theorem at_pkgid (s : State) (d : Nat) (e : Ev) : (s.at_ d e).pkgid = s.pkgid := rfl
@[simp] theorem at_host (s : State) (d : Nat) (e : Ev) : (s.at_ d e).host = s.host := rfl
@[simp] theorem at_notices (s : State) (d : Nat) (e : Ev) : (s.at_ d e).notices = s.notices := rfl
@[simp] theorem at_reports (s : State) (d : Nat) (e : Ev) : (s.at_ d e).reports = s.reports := rfl
@[simp] theorem at_remotes (s : State) (d : Nat) (e : Ev) : (s.at_ d e).remotes = s.remotes := rfl
@[simp] theorem at_outbox (s : State) (d : Nat) (e : Ev) : (s.at_ d e).outbox = s.outbox := rfl

/-! ## after -/

@[simp] theorem after_cc (s : State) (n : Nat) (e : Ev) : (s.after n e).cc = s.cc := rfl
@[simp] theorem after_powered (s : State) (n : Nat) (e : Ev) : (s.after n e).powered = s.powered := rfl
@[simp] theorem after_fuses (s : State) (n : Nat) (e : Ev) : (s.after n e).fuses = s.fuses := rfl
@[simp] theorem after_who (s : State) (n : Nat) (e : Ev) : (s.after n e).who = s.who := rfl
@[simp] theorem after_pos (s : State) (n : Nat) (e : Ev) : (s.after n e).pos = s.pos := rfl
@[simp] theorem after_word (s : State) (n : Nat) (e : Ev) : (s.after n e).word = s.word := rfl
@[simp] theorem after_bpc (s : State) (n : Nat) (e : Ev) : (s.after n e).bpc = s.bpc := rfl
@[simp] theorem after_bnxt (s : State) (n : Nat) (e : Ev) : (s.after n e).bnxt = s.bnxt := rfl
@[simp] theorem after_ckb (s : State) (n : Nat) (e : Ev) : (s.after n e).ckb = s.ckb := rfl
@[simp] theorem after_mark (s : State) (n : Nat) (e : Ev) : (s.after n e).mark = s.mark := rfl
@[simp] theorem after_hmark (s : State) (n : Nat) (e : Ev) : (s.after n e).hmark = s.hmark := rfl
@[simp] theorem after_srs (s : State) (n : Nat) (e : Ev) : (s.after n e).srs = s.srs := rfl
@[simp] theorem after_verdict (s : State) (n : Nat) (e : Ev) : (s.after n e).verdict = s.verdict := rfl
@[simp] theorem after_ids (s : State) (n : Nat) (e : Ev) : (s.after n e).ids = s.ids := rfl
@[simp] theorem after_fresh (s : State) (n : Nat) (e : Ev) : (s.after n e).fresh = s.fresh := rfl
@[simp] theorem after_ev (s : State) (n : Nat) (e : Ev) : (s.after n e).ev = s.ev := rfl
@[simp] theorem after_agenda (s : State) (n : Nat) (e : Ev) : (s.after n e).agenda = agendaInsert (s.cc + n) e s.agenda := rfl
@[simp] theorem after_turns (s : State) (n : Nat) (e : Ev) : (s.after n e).turns = s.turns := rfl
@[simp] theorem after_ctxs (s : State) (n : Nat) (e : Ev) : (s.after n e).ctxs = s.ctxs := rfl
@[simp] theorem after_cores (s : State) (n : Nat) (e : Ev) : (s.after n e).cores = s.cores := rfl
@[simp] theorem after_clusters (s : State) (n : Nat) (e : Ev) : (s.after n e).clusters = s.clusters := rfl
@[simp] theorem after_dies (s : State) (n : Nat) (e : Ev) : (s.after n e).dies = s.dies := rfl
@[simp] theorem after_relqs (s : State) (n : Nat) (e : Ev) : (s.after n e).relqs = s.relqs := rfl
@[simp] theorem after_mem (s : State) (n : Nat) (e : Ev) : (s.after n e).mem = s.mem := rfl
@[simp] theorem after_poison (s : State) (n : Nat) (e : Ev) : (s.after n e).poison = s.poison := rfl
@[simp] theorem after_tags (s : State) (n : Nat) (e : Ev) : (s.after n e).tags = s.tags := rfl
@[simp] theorem after_metaName (s : State) (n : Nat) (e : Ev) : (s.after n e).metaName = s.metaName := rfl
@[simp] theorem after_gov (s : State) (n : Nat) (e : Ev) : (s.after n e).gov = s.gov := rfl
@[simp] theorem after_govQ (s : State) (n : Nat) (e : Ev) : (s.after n e).govQ = s.govQ := rfl
@[simp] theorem after_regions (s : State) (n : Nat) (e : Ev) : (s.after n e).regions = s.regions := rfl
@[simp] theorem after_queues (s : State) (n : Nat) (e : Ev) : (s.after n e).queues = s.queues := rfl
@[simp] theorem after_wells (s : State) (n : Nat) (e : Ev) : (s.after n e).wells = s.wells := rfl
@[simp] theorem after_leases (s : State) (n : Nat) (e : Ev) : (s.after n e).leases = s.leases := rfl
@[simp] theorem after_tasks (s : State) (n : Nat) (e : Ev) : (s.after n e).tasks = s.tasks := rfl
@[simp] theorem after_saved (s : State) (n : Nat) (e : Ev) : (s.after n e).saved = s.saved := rfl
@[simp] theorem after_reencs (s : State) (n : Nat) (e : Ev) : (s.after n e).reencs = s.reencs := rfl
@[simp] theorem after_rinvs (s : State) (n : Nat) (e : Ev) : (s.after n e).rinvs = s.rinvs := rfl
@[simp] theorem after_walker (s : State) (n : Nat) (e : Ev) : (s.after n e).walker = s.walker := rfl
@[simp] theorem after_pkgid (s : State) (n : Nat) (e : Ev) : (s.after n e).pkgid = s.pkgid := rfl
@[simp] theorem after_host (s : State) (n : Nat) (e : Ev) : (s.after n e).host = s.host := rfl
@[simp] theorem after_notices (s : State) (n : Nat) (e : Ev) : (s.after n e).notices = s.notices := rfl
@[simp] theorem after_reports (s : State) (n : Nat) (e : Ev) : (s.after n e).reports = s.reports := rfl
@[simp] theorem after_remotes (s : State) (n : Nat) (e : Ev) : (s.after n e).remotes = s.remotes := rfl
@[simp] theorem after_outbox (s : State) (n : Nat) (e : Ev) : (s.after n e).outbox = s.outbox := rfl

/-! ## unschedule -/

@[simp] theorem unschedule_cc (s : State) (p : Ev → Bool) : (s.unschedule p).cc = s.cc := rfl
@[simp] theorem unschedule_powered (s : State) (p : Ev → Bool) : (s.unschedule p).powered = s.powered := rfl
@[simp] theorem unschedule_fuses (s : State) (p : Ev → Bool) : (s.unschedule p).fuses = s.fuses := rfl
@[simp] theorem unschedule_who (s : State) (p : Ev → Bool) : (s.unschedule p).who = s.who := rfl
@[simp] theorem unschedule_pos (s : State) (p : Ev → Bool) : (s.unschedule p).pos = s.pos := rfl
@[simp] theorem unschedule_word (s : State) (p : Ev → Bool) : (s.unschedule p).word = s.word := rfl
@[simp] theorem unschedule_bpc (s : State) (p : Ev → Bool) : (s.unschedule p).bpc = s.bpc := rfl
@[simp] theorem unschedule_bnxt (s : State) (p : Ev → Bool) : (s.unschedule p).bnxt = s.bnxt := rfl
@[simp] theorem unschedule_ckb (s : State) (p : Ev → Bool) : (s.unschedule p).ckb = s.ckb := rfl
@[simp] theorem unschedule_mark (s : State) (p : Ev → Bool) : (s.unschedule p).mark = s.mark := rfl
@[simp] theorem unschedule_hmark (s : State) (p : Ev → Bool) : (s.unschedule p).hmark = s.hmark := rfl
@[simp] theorem unschedule_srs (s : State) (p : Ev → Bool) : (s.unschedule p).srs = s.srs := rfl
@[simp] theorem unschedule_verdict (s : State) (p : Ev → Bool) : (s.unschedule p).verdict = s.verdict := rfl
@[simp] theorem unschedule_ids (s : State) (p : Ev → Bool) : (s.unschedule p).ids = s.ids := rfl
@[simp] theorem unschedule_fresh (s : State) (p : Ev → Bool) : (s.unschedule p).fresh = s.fresh := rfl
@[simp] theorem unschedule_ev (s : State) (p : Ev → Bool) : (s.unschedule p).ev = s.ev := rfl
@[simp] theorem unschedule_agenda (s : State) (p : Ev → Bool) : (s.unschedule p).agenda = s.agenda.filter (fun x => !p x.2) := rfl
@[simp] theorem unschedule_turns (s : State) (p : Ev → Bool) : (s.unschedule p).turns = s.turns := rfl
@[simp] theorem unschedule_ctxs (s : State) (p : Ev → Bool) : (s.unschedule p).ctxs = s.ctxs := rfl
@[simp] theorem unschedule_cores (s : State) (p : Ev → Bool) : (s.unschedule p).cores = s.cores := rfl
@[simp] theorem unschedule_clusters (s : State) (p : Ev → Bool) : (s.unschedule p).clusters = s.clusters := rfl
@[simp] theorem unschedule_dies (s : State) (p : Ev → Bool) : (s.unschedule p).dies = s.dies := rfl
@[simp] theorem unschedule_relqs (s : State) (p : Ev → Bool) : (s.unschedule p).relqs = s.relqs := rfl
@[simp] theorem unschedule_mem (s : State) (p : Ev → Bool) : (s.unschedule p).mem = s.mem := rfl
@[simp] theorem unschedule_poison (s : State) (p : Ev → Bool) : (s.unschedule p).poison = s.poison := rfl
@[simp] theorem unschedule_tags (s : State) (p : Ev → Bool) : (s.unschedule p).tags = s.tags := rfl
@[simp] theorem unschedule_metaName (s : State) (p : Ev → Bool) : (s.unschedule p).metaName = s.metaName := rfl
@[simp] theorem unschedule_gov (s : State) (p : Ev → Bool) : (s.unschedule p).gov = s.gov := rfl
@[simp] theorem unschedule_govQ (s : State) (p : Ev → Bool) : (s.unschedule p).govQ = s.govQ := rfl
@[simp] theorem unschedule_regions (s : State) (p : Ev → Bool) : (s.unschedule p).regions = s.regions := rfl
@[simp] theorem unschedule_queues (s : State) (p : Ev → Bool) : (s.unschedule p).queues = s.queues := rfl
@[simp] theorem unschedule_wells (s : State) (p : Ev → Bool) : (s.unschedule p).wells = s.wells := rfl
@[simp] theorem unschedule_leases (s : State) (p : Ev → Bool) : (s.unschedule p).leases = s.leases := rfl
@[simp] theorem unschedule_tasks (s : State) (p : Ev → Bool) : (s.unschedule p).tasks = s.tasks := rfl
@[simp] theorem unschedule_saved (s : State) (p : Ev → Bool) : (s.unschedule p).saved = s.saved := rfl
@[simp] theorem unschedule_reencs (s : State) (p : Ev → Bool) : (s.unschedule p).reencs = s.reencs := rfl
@[simp] theorem unschedule_rinvs (s : State) (p : Ev → Bool) : (s.unschedule p).rinvs = s.rinvs := rfl
@[simp] theorem unschedule_walker (s : State) (p : Ev → Bool) : (s.unschedule p).walker = s.walker := rfl
@[simp] theorem unschedule_pkgid (s : State) (p : Ev → Bool) : (s.unschedule p).pkgid = s.pkgid := rfl
@[simp] theorem unschedule_host (s : State) (p : Ev → Bool) : (s.unschedule p).host = s.host := rfl
@[simp] theorem unschedule_notices (s : State) (p : Ev → Bool) : (s.unschedule p).notices = s.notices := rfl
@[simp] theorem unschedule_reports (s : State) (p : Ev → Bool) : (s.unschedule p).reports = s.reports := rfl
@[simp] theorem unschedule_remotes (s : State) (p : Ev → Bool) : (s.unschedule p).remotes = s.remotes := rfl
@[simp] theorem unschedule_outbox (s : State) (p : Ev → Bool) : (s.unschedule p).outbox = s.outbox := rfl

/-! ## notify -/

@[simp] theorem notify_cc (s : State) (n : Notice) : (s.notify n).cc = s.cc := rfl
@[simp] theorem notify_powered (s : State) (n : Notice) : (s.notify n).powered = s.powered := rfl
@[simp] theorem notify_fuses (s : State) (n : Notice) : (s.notify n).fuses = s.fuses := rfl
@[simp] theorem notify_who (s : State) (n : Notice) : (s.notify n).who = s.who := rfl
@[simp] theorem notify_pos (s : State) (n : Notice) : (s.notify n).pos = s.pos := rfl
@[simp] theorem notify_word (s : State) (n : Notice) : (s.notify n).word = s.word := rfl
@[simp] theorem notify_bpc (s : State) (n : Notice) : (s.notify n).bpc = s.bpc := rfl
@[simp] theorem notify_bnxt (s : State) (n : Notice) : (s.notify n).bnxt = s.bnxt := rfl
@[simp] theorem notify_ckb (s : State) (n : Notice) : (s.notify n).ckb = s.ckb := rfl
@[simp] theorem notify_mark (s : State) (n : Notice) : (s.notify n).mark = s.mark := rfl
@[simp] theorem notify_hmark (s : State) (n : Notice) : (s.notify n).hmark = s.hmark := rfl
@[simp] theorem notify_srs (s : State) (n : Notice) : (s.notify n).srs = s.srs := rfl
@[simp] theorem notify_verdict (s : State) (n : Notice) : (s.notify n).verdict = s.verdict := rfl
@[simp] theorem notify_ids (s : State) (n : Notice) : (s.notify n).ids = s.ids := rfl
@[simp] theorem notify_fresh (s : State) (n : Notice) : (s.notify n).fresh = s.fresh := rfl
@[simp] theorem notify_ev (s : State) (n : Notice) : (s.notify n).ev = s.ev := rfl
@[simp] theorem notify_agenda (s : State) (n : Notice) : (s.notify n).agenda = s.agenda := rfl
@[simp] theorem notify_turns (s : State) (n : Notice) : (s.notify n).turns = s.turns := rfl
@[simp] theorem notify_ctxs (s : State) (n : Notice) : (s.notify n).ctxs = s.ctxs := rfl
@[simp] theorem notify_cores (s : State) (n : Notice) : (s.notify n).cores = s.cores := rfl
@[simp] theorem notify_clusters (s : State) (n : Notice) : (s.notify n).clusters = s.clusters := rfl
@[simp] theorem notify_dies (s : State) (n : Notice) : (s.notify n).dies = s.dies := rfl
@[simp] theorem notify_relqs (s : State) (n : Notice) : (s.notify n).relqs = s.relqs := rfl
@[simp] theorem notify_mem (s : State) (n : Notice) : (s.notify n).mem = s.mem := rfl
@[simp] theorem notify_poison (s : State) (n : Notice) : (s.notify n).poison = s.poison := rfl
@[simp] theorem notify_tags (s : State) (n : Notice) : (s.notify n).tags = s.tags := rfl
@[simp] theorem notify_metaName (s : State) (n : Notice) : (s.notify n).metaName = s.metaName := rfl
@[simp] theorem notify_gov (s : State) (n : Notice) : (s.notify n).gov = s.gov := rfl
@[simp] theorem notify_govQ (s : State) (n : Notice) : (s.notify n).govQ = s.govQ := rfl
@[simp] theorem notify_regions (s : State) (n : Notice) : (s.notify n).regions = s.regions := rfl
@[simp] theorem notify_queues (s : State) (n : Notice) : (s.notify n).queues = s.queues := rfl
@[simp] theorem notify_wells (s : State) (n : Notice) : (s.notify n).wells = s.wells := rfl
@[simp] theorem notify_leases (s : State) (n : Notice) : (s.notify n).leases = s.leases := rfl
@[simp] theorem notify_tasks (s : State) (n : Notice) : (s.notify n).tasks = s.tasks := rfl
@[simp] theorem notify_saved (s : State) (n : Notice) : (s.notify n).saved = s.saved := rfl
@[simp] theorem notify_reencs (s : State) (n : Notice) : (s.notify n).reencs = s.reencs := rfl
@[simp] theorem notify_rinvs (s : State) (n : Notice) : (s.notify n).rinvs = s.rinvs := rfl
@[simp] theorem notify_walker (s : State) (n : Notice) : (s.notify n).walker = s.walker := rfl
@[simp] theorem notify_pkgid (s : State) (n : Notice) : (s.notify n).pkgid = s.pkgid := rfl
@[simp] theorem notify_host (s : State) (n : Notice) : (s.notify n).host = s.host := rfl
@[simp] theorem notify_notices (s : State) (n : Notice) : (s.notify n).notices = s.notices ++ [n] := rfl
@[simp] theorem notify_reports (s : State) (n : Notice) : (s.notify n).reports = s.reports := rfl
@[simp] theorem notify_remotes (s : State) (n : Notice) : (s.notify n).remotes = s.remotes := rfl
@[simp] theorem notify_outbox (s : State) (n : Notice) : (s.notify n).outbox = s.outbox := rfl

/-! ## addFlight -/

@[simp] theorem addFlight_cc (s : State) (a : Agent) (e : Flight) : (s.addFlight a e).cc = s.cc := rfl
@[simp] theorem addFlight_powered (s : State) (a : Agent) (e : Flight) : (s.addFlight a e).powered = s.powered := rfl
@[simp] theorem addFlight_fuses (s : State) (a : Agent) (e : Flight) : (s.addFlight a e).fuses = s.fuses := rfl
@[simp] theorem addFlight_who (s : State) (a : Agent) (e : Flight) : (s.addFlight a e).who = s.who := rfl
@[simp] theorem addFlight_pos (s : State) (a : Agent) (e : Flight) : (s.addFlight a e).pos = s.pos := rfl
@[simp] theorem addFlight_word (s : State) (a : Agent) (e : Flight) : (s.addFlight a e).word = s.word := rfl
@[simp] theorem addFlight_bpc (s : State) (a : Agent) (e : Flight) : (s.addFlight a e).bpc = s.bpc := rfl
@[simp] theorem addFlight_bnxt (s : State) (a : Agent) (e : Flight) : (s.addFlight a e).bnxt = s.bnxt := rfl
@[simp] theorem addFlight_ckb (s : State) (a : Agent) (e : Flight) : (s.addFlight a e).ckb = s.ckb := rfl
@[simp] theorem addFlight_mark (s : State) (a : Agent) (e : Flight) : (s.addFlight a e).mark = s.mark := rfl
@[simp] theorem addFlight_hmark (s : State) (a : Agent) (e : Flight) : (s.addFlight a e).hmark = s.hmark := rfl
@[simp] theorem addFlight_srs (s : State) (a : Agent) (e : Flight) : (s.addFlight a e).srs = s.srs := rfl
@[simp] theorem addFlight_verdict (s : State) (a : Agent) (e : Flight) : (s.addFlight a e).verdict = s.verdict := rfl
@[simp] theorem addFlight_ids (s : State) (a : Agent) (e : Flight) : (s.addFlight a e).ids = s.ids := rfl
@[simp] theorem addFlight_fresh (s : State) (a : Agent) (e : Flight) : (s.addFlight a e).fresh = s.fresh := rfl
@[simp] theorem addFlight_ev (s : State) (a : Agent) (e : Flight) : (s.addFlight a e).ev = s.ev := rfl
@[simp] theorem addFlight_agenda (s : State) (a : Agent) (e : Flight) : (s.addFlight a e).agenda = s.agenda := rfl
@[simp] theorem addFlight_turns (s : State) (a : Agent) (e : Flight) : (s.addFlight a e).turns = s.turns := rfl
@[simp] theorem addFlight_cores (s : State) (a : Agent) (e : Flight) : (s.addFlight a e).cores = s.cores := rfl
@[simp] theorem addFlight_clusters (s : State) (a : Agent) (e : Flight) : (s.addFlight a e).clusters = s.clusters := rfl
@[simp] theorem addFlight_dies (s : State) (a : Agent) (e : Flight) : (s.addFlight a e).dies = s.dies := rfl
@[simp] theorem addFlight_relqs (s : State) (a : Agent) (e : Flight) : (s.addFlight a e).relqs = s.relqs := rfl
@[simp] theorem addFlight_mem (s : State) (a : Agent) (e : Flight) : (s.addFlight a e).mem = s.mem := rfl
@[simp] theorem addFlight_poison (s : State) (a : Agent) (e : Flight) : (s.addFlight a e).poison = s.poison := rfl
@[simp] theorem addFlight_tags (s : State) (a : Agent) (e : Flight) : (s.addFlight a e).tags = s.tags := rfl
@[simp] theorem addFlight_metaName (s : State) (a : Agent) (e : Flight) : (s.addFlight a e).metaName = s.metaName := rfl
@[simp] theorem addFlight_gov (s : State) (a : Agent) (e : Flight) : (s.addFlight a e).gov = s.gov := rfl
@[simp] theorem addFlight_govQ (s : State) (a : Agent) (e : Flight) : (s.addFlight a e).govQ = s.govQ := rfl
@[simp] theorem addFlight_regions (s : State) (a : Agent) (e : Flight) : (s.addFlight a e).regions = s.regions := rfl
@[simp] theorem addFlight_queues (s : State) (a : Agent) (e : Flight) : (s.addFlight a e).queues = s.queues := rfl
@[simp] theorem addFlight_wells (s : State) (a : Agent) (e : Flight) : (s.addFlight a e).wells = s.wells := rfl
@[simp] theorem addFlight_leases (s : State) (a : Agent) (e : Flight) : (s.addFlight a e).leases = s.leases := rfl
@[simp] theorem addFlight_tasks (s : State) (a : Agent) (e : Flight) : (s.addFlight a e).tasks = s.tasks := rfl
@[simp] theorem addFlight_saved (s : State) (a : Agent) (e : Flight) : (s.addFlight a e).saved = s.saved := rfl
@[simp] theorem addFlight_reencs (s : State) (a : Agent) (e : Flight) : (s.addFlight a e).reencs = s.reencs := rfl
@[simp] theorem addFlight_rinvs (s : State) (a : Agent) (e : Flight) : (s.addFlight a e).rinvs = s.rinvs := rfl
@[simp] theorem addFlight_walker (s : State) (a : Agent) (e : Flight) : (s.addFlight a e).walker = s.walker := rfl
@[simp] theorem addFlight_pkgid (s : State) (a : Agent) (e : Flight) : (s.addFlight a e).pkgid = s.pkgid := rfl
@[simp] theorem addFlight_host (s : State) (a : Agent) (e : Flight) : (s.addFlight a e).host = s.host := rfl
@[simp] theorem addFlight_notices (s : State) (a : Agent) (e : Flight) : (s.addFlight a e).notices = s.notices := rfl
@[simp] theorem addFlight_reports (s : State) (a : Agent) (e : Flight) : (s.addFlight a e).reports = s.reports := rfl
@[simp] theorem addFlight_remotes (s : State) (a : Agent) (e : Flight) : (s.addFlight a e).remotes = s.remotes := rfl
@[simp] theorem addFlight_outbox (s : State) (a : Agent) (e : Flight) : (s.addFlight a e).outbox = s.outbox := rfl

/-! ## result -/

@[simp] theorem result_cc (s : State) (L : Nat) (ws : List RegWrite) : (s.result L ws).cc = s.cc := rfl
@[simp] theorem result_powered (s : State) (L : Nat) (ws : List RegWrite) : (s.result L ws).powered = s.powered := rfl
@[simp] theorem result_fuses (s : State) (L : Nat) (ws : List RegWrite) : (s.result L ws).fuses = s.fuses := rfl
@[simp] theorem result_who (s : State) (L : Nat) (ws : List RegWrite) : (s.result L ws).who = s.who := rfl
@[simp] theorem result_pos (s : State) (L : Nat) (ws : List RegWrite) : (s.result L ws).pos = s.pos := rfl
@[simp] theorem result_word (s : State) (L : Nat) (ws : List RegWrite) : (s.result L ws).word = s.word := rfl
@[simp] theorem result_bpc (s : State) (L : Nat) (ws : List RegWrite) : (s.result L ws).bpc = s.bpc := rfl
@[simp] theorem result_bnxt (s : State) (L : Nat) (ws : List RegWrite) : (s.result L ws).bnxt = s.bnxt := rfl
@[simp] theorem result_ckb (s : State) (L : Nat) (ws : List RegWrite) : (s.result L ws).ckb = s.ckb := rfl
@[simp] theorem result_mark (s : State) (L : Nat) (ws : List RegWrite) : (s.result L ws).mark = s.mark := rfl
@[simp] theorem result_hmark (s : State) (L : Nat) (ws : List RegWrite) : (s.result L ws).hmark = s.hmark := rfl
@[simp] theorem result_srs (s : State) (L : Nat) (ws : List RegWrite) : (s.result L ws).srs = s.srs := rfl
@[simp] theorem result_verdict (s : State) (L : Nat) (ws : List RegWrite) : (s.result L ws).verdict = s.verdict := rfl
@[simp] theorem result_ids (s : State) (L : Nat) (ws : List RegWrite) : (s.result L ws).ids = s.ids := rfl
@[simp] theorem result_fresh (s : State) (L : Nat) (ws : List RegWrite) : (s.result L ws).fresh = s.fresh := rfl
@[simp] theorem result_ev (s : State) (L : Nat) (ws : List RegWrite) : (s.result L ws).ev = s.ev := rfl
@[simp] theorem result_agenda (s : State) (L : Nat) (ws : List RegWrite) : (s.result L ws).agenda = s.agenda := rfl
@[simp] theorem result_turns (s : State) (L : Nat) (ws : List RegWrite) : (s.result L ws).turns = s.turns := rfl
@[simp] theorem result_cores (s : State) (L : Nat) (ws : List RegWrite) : (s.result L ws).cores = s.cores := rfl
@[simp] theorem result_clusters (s : State) (L : Nat) (ws : List RegWrite) : (s.result L ws).clusters = s.clusters := rfl
@[simp] theorem result_dies (s : State) (L : Nat) (ws : List RegWrite) : (s.result L ws).dies = s.dies := rfl
@[simp] theorem result_relqs (s : State) (L : Nat) (ws : List RegWrite) : (s.result L ws).relqs = s.relqs := rfl
@[simp] theorem result_mem (s : State) (L : Nat) (ws : List RegWrite) : (s.result L ws).mem = s.mem := rfl
@[simp] theorem result_poison (s : State) (L : Nat) (ws : List RegWrite) : (s.result L ws).poison = s.poison := rfl
@[simp] theorem result_tags (s : State) (L : Nat) (ws : List RegWrite) : (s.result L ws).tags = s.tags := rfl
@[simp] theorem result_metaName (s : State) (L : Nat) (ws : List RegWrite) : (s.result L ws).metaName = s.metaName := rfl
@[simp] theorem result_gov (s : State) (L : Nat) (ws : List RegWrite) : (s.result L ws).gov = s.gov := rfl
@[simp] theorem result_govQ (s : State) (L : Nat) (ws : List RegWrite) : (s.result L ws).govQ = s.govQ := rfl
@[simp] theorem result_regions (s : State) (L : Nat) (ws : List RegWrite) : (s.result L ws).regions = s.regions := rfl
@[simp] theorem result_queues (s : State) (L : Nat) (ws : List RegWrite) : (s.result L ws).queues = s.queues := rfl
@[simp] theorem result_wells (s : State) (L : Nat) (ws : List RegWrite) : (s.result L ws).wells = s.wells := rfl
@[simp] theorem result_leases (s : State) (L : Nat) (ws : List RegWrite) : (s.result L ws).leases = s.leases := rfl
@[simp] theorem result_tasks (s : State) (L : Nat) (ws : List RegWrite) : (s.result L ws).tasks = s.tasks := rfl
@[simp] theorem result_saved (s : State) (L : Nat) (ws : List RegWrite) : (s.result L ws).saved = s.saved := rfl
@[simp] theorem result_reencs (s : State) (L : Nat) (ws : List RegWrite) : (s.result L ws).reencs = s.reencs := rfl
@[simp] theorem result_rinvs (s : State) (L : Nat) (ws : List RegWrite) : (s.result L ws).rinvs = s.rinvs := rfl
@[simp] theorem result_walker (s : State) (L : Nat) (ws : List RegWrite) : (s.result L ws).walker = s.walker := rfl
@[simp] theorem result_pkgid (s : State) (L : Nat) (ws : List RegWrite) : (s.result L ws).pkgid = s.pkgid := rfl
@[simp] theorem result_host (s : State) (L : Nat) (ws : List RegWrite) : (s.result L ws).host = s.host := rfl
@[simp] theorem result_notices (s : State) (L : Nat) (ws : List RegWrite) : (s.result L ws).notices = s.notices := rfl
@[simp] theorem result_reports (s : State) (L : Nat) (ws : List RegWrite) : (s.result L ws).reports = s.reports := rfl
@[simp] theorem result_remotes (s : State) (L : Nat) (ws : List RegWrite) : (s.result L ws).remotes = s.remotes := rfl
@[simp] theorem result_outbox (s : State) (L : Nat) (ws : List RegWrite) : (s.result L ws).outbox = s.outbox := rfl

/-! ## hold -/

@[simp] theorem hold_cc (s : State) (h : Hold) : (s.hold h).cc = s.cc := rfl
@[simp] theorem hold_powered (s : State) (h : Hold) : (s.hold h).powered = s.powered := rfl
@[simp] theorem hold_fuses (s : State) (h : Hold) : (s.hold h).fuses = s.fuses := rfl
@[simp] theorem hold_who (s : State) (h : Hold) : (s.hold h).who = s.who := rfl
@[simp] theorem hold_pos (s : State) (h : Hold) : (s.hold h).pos = s.pos := rfl
@[simp] theorem hold_word (s : State) (h : Hold) : (s.hold h).word = s.word := rfl
@[simp] theorem hold_bpc (s : State) (h : Hold) : (s.hold h).bpc = s.bpc := rfl
@[simp] theorem hold_bnxt (s : State) (h : Hold) : (s.hold h).bnxt = s.bnxt := rfl
@[simp] theorem hold_ckb (s : State) (h : Hold) : (s.hold h).ckb = s.ckb := rfl
@[simp] theorem hold_mark (s : State) (h : Hold) : (s.hold h).mark = s.mark := rfl
@[simp] theorem hold_hmark (s : State) (h : Hold) : (s.hold h).hmark = s.hmark := rfl
@[simp] theorem hold_srs (s : State) (h : Hold) : (s.hold h).srs = s.srs := rfl
@[simp] theorem hold_verdict (s : State) (h : Hold) : (s.hold h).verdict = .hold { h with pos := s.pos } := rfl
@[simp] theorem hold_ids (s : State) (h : Hold) : (s.hold h).ids = s.ids := rfl
@[simp] theorem hold_fresh (s : State) (h : Hold) : (s.hold h).fresh = s.fresh := rfl
@[simp] theorem hold_ev (s : State) (h : Hold) : (s.hold h).ev = s.ev := rfl
@[simp] theorem hold_agenda (s : State) (h : Hold) : (s.hold h).agenda = s.agenda := rfl
@[simp] theorem hold_turns (s : State) (h : Hold) : (s.hold h).turns = s.turns := rfl
@[simp] theorem hold_ctxs (s : State) (h : Hold) : (s.hold h).ctxs = s.ctxs := rfl
@[simp] theorem hold_cores (s : State) (h : Hold) : (s.hold h).cores = s.cores := rfl
@[simp] theorem hold_clusters (s : State) (h : Hold) : (s.hold h).clusters = s.clusters := rfl
@[simp] theorem hold_dies (s : State) (h : Hold) : (s.hold h).dies = s.dies := rfl
@[simp] theorem hold_relqs (s : State) (h : Hold) : (s.hold h).relqs = s.relqs := rfl
@[simp] theorem hold_mem (s : State) (h : Hold) : (s.hold h).mem = s.mem := rfl
@[simp] theorem hold_poison (s : State) (h : Hold) : (s.hold h).poison = s.poison := rfl
@[simp] theorem hold_tags (s : State) (h : Hold) : (s.hold h).tags = s.tags := rfl
@[simp] theorem hold_metaName (s : State) (h : Hold) : (s.hold h).metaName = s.metaName := rfl
@[simp] theorem hold_gov (s : State) (h : Hold) : (s.hold h).gov = s.gov := rfl
@[simp] theorem hold_govQ (s : State) (h : Hold) : (s.hold h).govQ = s.govQ := rfl
@[simp] theorem hold_regions (s : State) (h : Hold) : (s.hold h).regions = s.regions := rfl
@[simp] theorem hold_queues (s : State) (h : Hold) : (s.hold h).queues = s.queues := rfl
@[simp] theorem hold_wells (s : State) (h : Hold) : (s.hold h).wells = s.wells := rfl
@[simp] theorem hold_leases (s : State) (h : Hold) : (s.hold h).leases = s.leases := rfl
@[simp] theorem hold_tasks (s : State) (h : Hold) : (s.hold h).tasks = s.tasks := rfl
@[simp] theorem hold_saved (s : State) (h : Hold) : (s.hold h).saved = s.saved := rfl
@[simp] theorem hold_reencs (s : State) (h : Hold) : (s.hold h).reencs = s.reencs := rfl
@[simp] theorem hold_rinvs (s : State) (h : Hold) : (s.hold h).rinvs = s.rinvs := rfl
@[simp] theorem hold_walker (s : State) (h : Hold) : (s.hold h).walker = s.walker := rfl
@[simp] theorem hold_pkgid (s : State) (h : Hold) : (s.hold h).pkgid = s.pkgid := rfl
@[simp] theorem hold_host (s : State) (h : Hold) : (s.hold h).host = s.host := rfl
@[simp] theorem hold_notices (s : State) (h : Hold) : (s.hold h).notices = s.notices := rfl
@[simp] theorem hold_reports (s : State) (h : Hold) : (s.hold h).reports = s.reports := rfl
@[simp] theorem hold_remotes (s : State) (h : Hold) : (s.hold h).remotes = s.remotes := rfl
@[simp] theorem hold_outbox (s : State) (h : Hold) : (s.hold h).outbox = s.outbox := rfl

/-! ## The accessors after an update -/

@[simp] theorem core_modCore (s : State) (n : Nat) (f : CoreSt → CoreSt) : (s.modCore n f).core n = f (s.core n) := SMap.get_upd_same ..
theorem core_modCore_ne (s : State) {n k : Nat} (f : CoreSt → CoreSt) (h : n ≠ k) : (s.modCore n f).core k = s.core k := SMap.get_upd_ne _ _ _ h
@[simp] theorem cluster_modCluster (s : State) (n : Nat) (f : Cluster → Cluster) : (s.modCluster n f).cluster n = f (s.cluster n) := SMap.get_upd_same ..
theorem cluster_modCluster_ne (s : State) {n k : Nat} (f : Cluster → Cluster) (h : n ≠ k) : (s.modCluster n f).cluster k = s.cluster k := SMap.get_upd_ne _ _ _ h
@[simp] theorem die_modDie (s : State) (n : Nat) (f : Die → Die) : (s.modDie n f).die n = f (s.die n) := SMap.get_upd_same ..
theorem die_modDie_ne (s : State) {n k : Nat} (f : Die → Die) (h : n ≠ k) : (s.modDie n f).die k = s.die k := SMap.get_upd_ne _ _ _ h
@[simp] theorem task_modTask (s : State) (n : Nat) (f : Task → Task) : (s.modTask n f).task n = f (s.task n) := SMap.get_upd_same ..
theorem task_modTask_ne (s : State) {n k : Nat} (f : Task → Task) (h : n ≠ k) : (s.modTask n f).task k = s.task k := SMap.get_upd_ne _ _ _ h
@[simp] theorem queue_modQueue (s : State) (n : Nat) (f : Queue → Queue) : (s.modQueue n f).queue n = f (s.queue n) := SMap.get_upd_same ..
theorem queue_modQueue_ne (s : State) {n k : Nat} (f : Queue → Queue) (h : n ≠ k) : (s.modQueue n f).queue k = s.queue k := SMap.get_upd_ne _ _ _ h
@[simp] theorem ctx_setCtx (s : State) (a : Agent) (c : Ctx) : (s.setCtx a c).ctx a = c := SMap.get_put_same ..
theorem ctx_setCtx_ne (s : State) {a b : Agent} (c : Ctx) (h : a.key ≠ b.key) : (s.setCtx a c).ctx b = s.ctx b := by
  show (s.ctxs.put _ a.key c).get _ b.key = _
  unfold SMap.put
  split
  · rw [SMap.get_erase, if_neg h]; rfl
  · rw [SMap.get_insert, if_neg h]; rfl
@[simp] theorem ctx_modCtx (s : State) (a : Agent) (f : Ctx → Ctx) : (s.modCtx a f).ctx a = f (s.ctx a) := ctx_setCtx ..
theorem ctx_modCtx_ne (s : State) {a b : Agent} (f : Ctx → Ctx) (h : a.key ≠ b.key) : (s.modCtx a f).ctx b = s.ctx b := ctx_setCtx_ne _ _ h
@[simp] theorem me_modMe (s : State) (f : Ctx → Ctx) : (s.modMe f).me = f s.me := ctx_setCtx ..
/-- A result in flight is the last entry of the issuing agent's. -/
theorem me_result (s : State) (L : Nat) (ws : List RegWrite) :
    (s.result L ws).me = { s.me with flight := s.me.flight ++ [{ id := 0, writes := ws, dist := L }] } := ctx_setCtx ..
/-- A result in flight changes no register that slots read. -/
@[simp] theorem regs_result (s : State) (L : Nat) (ws : List RegWrite) : (s.result L ws).regs = s.regs := by
  show (s.result L ws).me.live = _; rw [me_result]; rfl
@[simp] theorem core_setCtx_other (s : State) (a : Agent) (c : Ctx) (n : Nat) : (s.setCtx a c).core n = s.core n := rfl
@[simp] theorem cluster_setCtx_other (s : State) (a : Agent) (c : Ctx) (n : Nat) : (s.setCtx a c).cluster n = s.cluster n := rfl
@[simp] theorem die_setCtx_other (s : State) (a : Agent) (c : Ctx) (n : Nat) : (s.setCtx a c).die n = s.die n := rfl
@[simp] theorem task_setCtx_other (s : State) (a : Agent) (c : Ctx) (n : Nat) : (s.setCtx a c).task n = s.task n := rfl
@[simp] theorem queue_setCtx_other (s : State) (a : Agent) (c : Ctx) (n : Nat) : (s.setCtx a c).queue n = s.queue n := rfl
@[simp] theorem well_setCtx_other (s : State) (a : Agent) (c : Ctx) (n : Nat) : (s.setCtx a c).well n = s.well n := rfl
@[simp] theorem core_modCtx_other (s : State) (a : Agent) (f : Ctx → Ctx) (n : Nat) : (s.modCtx a f).core n = s.core n := rfl
@[simp] theorem cluster_modCtx_other (s : State) (a : Agent) (f : Ctx → Ctx) (n : Nat) : (s.modCtx a f).cluster n = s.cluster n := rfl
@[simp] theorem die_modCtx_other (s : State) (a : Agent) (f : Ctx → Ctx) (n : Nat) : (s.modCtx a f).die n = s.die n := rfl
@[simp] theorem task_modCtx_other (s : State) (a : Agent) (f : Ctx → Ctx) (n : Nat) : (s.modCtx a f).task n = s.task n := rfl
@[simp] theorem queue_modCtx_other (s : State) (a : Agent) (f : Ctx → Ctx) (n : Nat) : (s.modCtx a f).queue n = s.queue n := rfl
@[simp] theorem well_modCtx_other (s : State) (a : Agent) (f : Ctx → Ctx) (n : Nat) : (s.modCtx a f).well n = s.well n := rfl
@[simp] theorem core_modMe_other (s : State) (f : Ctx → Ctx) (n : Nat) : (s.modMe f).core n = s.core n := rfl
@[simp] theorem cluster_modMe_other (s : State) (f : Ctx → Ctx) (n : Nat) : (s.modMe f).cluster n = s.cluster n := rfl
@[simp] theorem die_modMe_other (s : State) (f : Ctx → Ctx) (n : Nat) : (s.modMe f).die n = s.die n := rfl
@[simp] theorem task_modMe_other (s : State) (f : Ctx → Ctx) (n : Nat) : (s.modMe f).task n = s.task n := rfl
@[simp] theorem queue_modMe_other (s : State) (f : Ctx → Ctx) (n : Nat) : (s.modMe f).queue n = s.queue n := rfl
@[simp] theorem well_modMe_other (s : State) (f : Ctx → Ctx) (n : Nat) : (s.modMe f).well n = s.well n := rfl
@[simp] theorem cluster_modCore_other (s : State) (k : Nat) (f : CoreSt → CoreSt) (n : Nat) : (s.modCore k f).cluster n = s.cluster n := rfl
@[simp] theorem die_modCore_other (s : State) (k : Nat) (f : CoreSt → CoreSt) (n : Nat) : (s.modCore k f).die n = s.die n := rfl
@[simp] theorem task_modCore_other (s : State) (k : Nat) (f : CoreSt → CoreSt) (n : Nat) : (s.modCore k f).task n = s.task n := rfl
@[simp] theorem queue_modCore_other (s : State) (k : Nat) (f : CoreSt → CoreSt) (n : Nat) : (s.modCore k f).queue n = s.queue n := rfl
@[simp] theorem well_modCore_other (s : State) (k : Nat) (f : CoreSt → CoreSt) (n : Nat) : (s.modCore k f).well n = s.well n := rfl
@[simp] theorem ctx_modCore (s : State) (n : Nat) (f : CoreSt → CoreSt) (a : Agent) : (s.modCore n f).ctx a = s.ctx a := rfl
@[simp] theorem core_modCluster_other (s : State) (k : Nat) (f : Cluster → Cluster) (n : Nat) : (s.modCluster k f).core n = s.core n := rfl
@[simp] theorem die_modCluster_other (s : State) (k : Nat) (f : Cluster → Cluster) (n : Nat) : (s.modCluster k f).die n = s.die n := rfl
@[simp] theorem task_modCluster_other (s : State) (k : Nat) (f : Cluster → Cluster) (n : Nat) : (s.modCluster k f).task n = s.task n := rfl
@[simp] theorem queue_modCluster_other (s : State) (k : Nat) (f : Cluster → Cluster) (n : Nat) : (s.modCluster k f).queue n = s.queue n := rfl
@[simp] theorem well_modCluster_other (s : State) (k : Nat) (f : Cluster → Cluster) (n : Nat) : (s.modCluster k f).well n = s.well n := rfl
@[simp] theorem ctx_modCluster (s : State) (n : Nat) (f : Cluster → Cluster) (a : Agent) : (s.modCluster n f).ctx a = s.ctx a := rfl
@[simp] theorem core_modDie_other (s : State) (k : Nat) (f : Die → Die) (n : Nat) : (s.modDie k f).core n = s.core n := rfl
@[simp] theorem cluster_modDie_other (s : State) (k : Nat) (f : Die → Die) (n : Nat) : (s.modDie k f).cluster n = s.cluster n := rfl
@[simp] theorem task_modDie_other (s : State) (k : Nat) (f : Die → Die) (n : Nat) : (s.modDie k f).task n = s.task n := rfl
@[simp] theorem queue_modDie_other (s : State) (k : Nat) (f : Die → Die) (n : Nat) : (s.modDie k f).queue n = s.queue n := rfl
@[simp] theorem well_modDie_other (s : State) (k : Nat) (f : Die → Die) (n : Nat) : (s.modDie k f).well n = s.well n := rfl
@[simp] theorem ctx_modDie (s : State) (n : Nat) (f : Die → Die) (a : Agent) : (s.modDie n f).ctx a = s.ctx a := rfl
@[simp] theorem core_modTask_other (s : State) (k : Nat) (f : Task → Task) (n : Nat) : (s.modTask k f).core n = s.core n := rfl
@[simp] theorem cluster_modTask_other (s : State) (k : Nat) (f : Task → Task) (n : Nat) : (s.modTask k f).cluster n = s.cluster n := rfl
@[simp] theorem die_modTask_other (s : State) (k : Nat) (f : Task → Task) (n : Nat) : (s.modTask k f).die n = s.die n := rfl
@[simp] theorem queue_modTask_other (s : State) (k : Nat) (f : Task → Task) (n : Nat) : (s.modTask k f).queue n = s.queue n := rfl
@[simp] theorem well_modTask_other (s : State) (k : Nat) (f : Task → Task) (n : Nat) : (s.modTask k f).well n = s.well n := rfl
@[simp] theorem ctx_modTask (s : State) (n : Nat) (f : Task → Task) (a : Agent) : (s.modTask n f).ctx a = s.ctx a := rfl
@[simp] theorem core_modQueue_other (s : State) (k : Nat) (f : Queue → Queue) (n : Nat) : (s.modQueue k f).core n = s.core n := rfl
@[simp] theorem cluster_modQueue_other (s : State) (k : Nat) (f : Queue → Queue) (n : Nat) : (s.modQueue k f).cluster n = s.cluster n := rfl
@[simp] theorem die_modQueue_other (s : State) (k : Nat) (f : Queue → Queue) (n : Nat) : (s.modQueue k f).die n = s.die n := rfl
@[simp] theorem task_modQueue_other (s : State) (k : Nat) (f : Queue → Queue) (n : Nat) : (s.modQueue k f).task n = s.task n := rfl
@[simp] theorem well_modQueue_other (s : State) (k : Nat) (f : Queue → Queue) (n : Nat) : (s.modQueue k f).well n = s.well n := rfl
@[simp] theorem ctx_modQueue (s : State) (n : Nat) (f : Queue → Queue) (a : Agent) : (s.modQueue n f).ctx a = s.ctx a := rfl
@[simp] theorem core_modWalker_other (s : State) (f : Walker → Walker) (n : Nat) : (s.modWalker f).core n = s.core n := rfl
@[simp] theorem cluster_modWalker_other (s : State) (f : Walker → Walker) (n : Nat) : (s.modWalker f).cluster n = s.cluster n := rfl
@[simp] theorem die_modWalker_other (s : State) (f : Walker → Walker) (n : Nat) : (s.modWalker f).die n = s.die n := rfl
@[simp] theorem task_modWalker_other (s : State) (f : Walker → Walker) (n : Nat) : (s.modWalker f).task n = s.task n := rfl
@[simp] theorem queue_modWalker_other (s : State) (f : Walker → Walker) (n : Nat) : (s.modWalker f).queue n = s.queue n := rfl
@[simp] theorem well_modWalker_other (s : State) (f : Walker → Walker) (n : Nat) : (s.modWalker f).well n = s.well n := rfl
@[simp] theorem ctx_modWalker (s : State) (f : Walker → Walker) (a : Agent) : (s.modWalker f).ctx a = s.ctx a := rfl
@[simp] theorem core_modHost_other (s : State) (f : HostRegs → HostRegs) (n : Nat) : (s.modHost f).core n = s.core n := rfl
@[simp] theorem cluster_modHost_other (s : State) (f : HostRegs → HostRegs) (n : Nat) : (s.modHost f).cluster n = s.cluster n := rfl
@[simp] theorem die_modHost_other (s : State) (f : HostRegs → HostRegs) (n : Nat) : (s.modHost f).die n = s.die n := rfl
@[simp] theorem task_modHost_other (s : State) (f : HostRegs → HostRegs) (n : Nat) : (s.modHost f).task n = s.task n := rfl
@[simp] theorem queue_modHost_other (s : State) (f : HostRegs → HostRegs) (n : Nat) : (s.modHost f).queue n = s.queue n := rfl
@[simp] theorem well_modHost_other (s : State) (f : HostRegs → HostRegs) (n : Nat) : (s.modHost f).well n = s.well n := rfl
@[simp] theorem ctx_modHost (s : State) (f : HostRegs → HostRegs) (a : Agent) : (s.modHost f).ctx a = s.ctx a := rfl
@[simp] theorem core_send_other (s : State) (m : Msg) (n : Nat) : (s.send m).core n = s.core n := rfl
@[simp] theorem cluster_send_other (s : State) (m : Msg) (n : Nat) : (s.send m).cluster n = s.cluster n := rfl
@[simp] theorem die_send_other (s : State) (m : Msg) (n : Nat) : (s.send m).die n = s.die n := rfl
@[simp] theorem task_send_other (s : State) (m : Msg) (n : Nat) : (s.send m).task n = s.task n := rfl
@[simp] theorem queue_send_other (s : State) (m : Msg) (n : Nat) : (s.send m).queue n = s.queue n := rfl
@[simp] theorem well_send_other (s : State) (m : Msg) (n : Nat) : (s.send m).well n = s.well n := rfl
@[simp] theorem ctx_send (s : State) (m : Msg) (a : Agent) : (s.send m).ctx a = s.ctx a := rfl
@[simp] theorem core_at_other (s : State) (d : Nat) (e : Ev) (n : Nat) : (s.at_ d e).core n = s.core n := rfl
@[simp] theorem cluster_at_other (s : State) (d : Nat) (e : Ev) (n : Nat) : (s.at_ d e).cluster n = s.cluster n := rfl
@[simp] theorem die_at_other (s : State) (d : Nat) (e : Ev) (n : Nat) : (s.at_ d e).die n = s.die n := rfl
@[simp] theorem task_at_other (s : State) (d : Nat) (e : Ev) (n : Nat) : (s.at_ d e).task n = s.task n := rfl
@[simp] theorem queue_at_other (s : State) (d : Nat) (e : Ev) (n : Nat) : (s.at_ d e).queue n = s.queue n := rfl
@[simp] theorem well_at_other (s : State) (d : Nat) (e : Ev) (n : Nat) : (s.at_ d e).well n = s.well n := rfl
@[simp] theorem ctx_at (s : State) (d : Nat) (e : Ev) (a : Agent) : (s.at_ d e).ctx a = s.ctx a := rfl
@[simp] theorem core_after_other (s : State) (k : Nat) (e : Ev) (n : Nat) : (s.after k e).core n = s.core n := rfl
@[simp] theorem cluster_after_other (s : State) (k : Nat) (e : Ev) (n : Nat) : (s.after k e).cluster n = s.cluster n := rfl
@[simp] theorem die_after_other (s : State) (k : Nat) (e : Ev) (n : Nat) : (s.after k e).die n = s.die n := rfl
@[simp] theorem task_after_other (s : State) (k : Nat) (e : Ev) (n : Nat) : (s.after k e).task n = s.task n := rfl
@[simp] theorem queue_after_other (s : State) (k : Nat) (e : Ev) (n : Nat) : (s.after k e).queue n = s.queue n := rfl
@[simp] theorem well_after_other (s : State) (k : Nat) (e : Ev) (n : Nat) : (s.after k e).well n = s.well n := rfl
@[simp] theorem ctx_after (s : State) (n : Nat) (e : Ev) (a : Agent) : (s.after n e).ctx a = s.ctx a := rfl
@[simp] theorem core_unschedule_other (s : State) (p : Ev → Bool) (n : Nat) : (s.unschedule p).core n = s.core n := rfl
@[simp] theorem cluster_unschedule_other (s : State) (p : Ev → Bool) (n : Nat) : (s.unschedule p).cluster n = s.cluster n := rfl
@[simp] theorem die_unschedule_other (s : State) (p : Ev → Bool) (n : Nat) : (s.unschedule p).die n = s.die n := rfl
@[simp] theorem task_unschedule_other (s : State) (p : Ev → Bool) (n : Nat) : (s.unschedule p).task n = s.task n := rfl
@[simp] theorem queue_unschedule_other (s : State) (p : Ev → Bool) (n : Nat) : (s.unschedule p).queue n = s.queue n := rfl
@[simp] theorem well_unschedule_other (s : State) (p : Ev → Bool) (n : Nat) : (s.unschedule p).well n = s.well n := rfl
@[simp] theorem ctx_unschedule (s : State) (p : Ev → Bool) (a : Agent) : (s.unschedule p).ctx a = s.ctx a := rfl
@[simp] theorem core_notify_other (s : State) (k : Notice) (n : Nat) : (s.notify k).core n = s.core n := rfl
@[simp] theorem cluster_notify_other (s : State) (k : Notice) (n : Nat) : (s.notify k).cluster n = s.cluster n := rfl
@[simp] theorem die_notify_other (s : State) (k : Notice) (n : Nat) : (s.notify k).die n = s.die n := rfl
@[simp] theorem task_notify_other (s : State) (k : Notice) (n : Nat) : (s.notify k).task n = s.task n := rfl
@[simp] theorem queue_notify_other (s : State) (k : Notice) (n : Nat) : (s.notify k).queue n = s.queue n := rfl
@[simp] theorem well_notify_other (s : State) (k : Notice) (n : Nat) : (s.notify k).well n = s.well n := rfl
@[simp] theorem ctx_notify (s : State) (n : Notice) (a : Agent) : (s.notify n).ctx a = s.ctx a := rfl
@[simp] theorem core_addFlight_other (s : State) (a : Agent) (e : Flight) (n : Nat) : (s.addFlight a e).core n = s.core n := rfl
@[simp] theorem cluster_addFlight_other (s : State) (a : Agent) (e : Flight) (n : Nat) : (s.addFlight a e).cluster n = s.cluster n := rfl
@[simp] theorem die_addFlight_other (s : State) (a : Agent) (e : Flight) (n : Nat) : (s.addFlight a e).die n = s.die n := rfl
@[simp] theorem task_addFlight_other (s : State) (a : Agent) (e : Flight) (n : Nat) : (s.addFlight a e).task n = s.task n := rfl
@[simp] theorem queue_addFlight_other (s : State) (a : Agent) (e : Flight) (n : Nat) : (s.addFlight a e).queue n = s.queue n := rfl
@[simp] theorem well_addFlight_other (s : State) (a : Agent) (e : Flight) (n : Nat) : (s.addFlight a e).well n = s.well n := rfl
@[simp] theorem core_result_other (s : State) (L : Nat) (ws : List RegWrite) (n : Nat) : (s.result L ws).core n = s.core n := rfl
@[simp] theorem cluster_result_other (s : State) (L : Nat) (ws : List RegWrite) (n : Nat) : (s.result L ws).cluster n = s.cluster n := rfl
@[simp] theorem die_result_other (s : State) (L : Nat) (ws : List RegWrite) (n : Nat) : (s.result L ws).die n = s.die n := rfl
@[simp] theorem task_result_other (s : State) (L : Nat) (ws : List RegWrite) (n : Nat) : (s.result L ws).task n = s.task n := rfl
@[simp] theorem queue_result_other (s : State) (L : Nat) (ws : List RegWrite) (n : Nat) : (s.result L ws).queue n = s.queue n := rfl
@[simp] theorem well_result_other (s : State) (L : Nat) (ws : List RegWrite) (n : Nat) : (s.result L ws).well n = s.well n := rfl
@[simp] theorem core_hold_other (s : State) (h : Hold) (n : Nat) : (s.hold h).core n = s.core n := rfl
@[simp] theorem cluster_hold_other (s : State) (h : Hold) (n : Nat) : (s.hold h).cluster n = s.cluster n := rfl
@[simp] theorem die_hold_other (s : State) (h : Hold) (n : Nat) : (s.hold h).die n = s.die n := rfl
@[simp] theorem task_hold_other (s : State) (h : Hold) (n : Nat) : (s.hold h).task n = s.task n := rfl
@[simp] theorem queue_hold_other (s : State) (h : Hold) (n : Nat) : (s.hold h).queue n = s.queue n := rfl
@[simp] theorem well_hold_other (s : State) (h : Hold) (n : Nat) : (s.hold h).well n = s.well n := rfl
@[simp] theorem ctx_hold (s : State) (h : Hold) (a : Agent) : (s.hold h).ctx a = s.ctx a := rfl

end Sys2Proof.Machine.State
end

