-- ==== Sys2Proof/Laws/Slots.lean ====
section
/-!
SUPPORT. What a slot can do, said once: an issued slot is its family's action on the noted state, a slot whose guard reads false notes its word only, a
slot that fails a check traps; each of them answers a next state.
-/

namespace Sys2Proof.Machine

open State

/-! ## Slots after the lead slot -/

/-- A slot, said of the noted state. -/
theorem slotOp_eq (i : Instr) (h : Hdr) (s : State) (k : State → Res) : slotOp i h s k =
    match slotCheck (s.noted i) i with
    | some t => Host.Outcome.next ((s.noted i).raise t)
    | none => if (s.noted i).guard h.g then k (s.noted i) else Host.Outcome.next (s.noted i) := rfl

/-- A slot that issues is its family's action. -/
theorem slotOp_issues {i : Instr} {h : Hdr} {s : State} (hi : Issues i h s) (k : State → Res) : slotOp i h s k = k (s.noted i) := by
  have h2 : (s.noted i).guard h.g = true := hi.2
  rw [slotOp_eq]
  rw [hi.1]; simp only [h2, if_true]

/-- A slot whose guard reads false has no effect (02 R32). -/
theorem slotOp_skipped {i : Instr} {h : Hdr} {s : State} (hc : slotCheck (s.noted i) i = none) (hg : s.guard h.g = false)
    (k : State → Res) : slotOp i h s k = .next (s.noted i) := by
  have h2 : (s.noted i).guard h.g = false := hg
  rw [slotOp_eq]
  rw [hc]; simp [h2]

/-- A slot that fails a check of its word traps (02 R30). -/
theorem slotOp_trapped {i : Instr} {h : Hdr} {s : State} {t : TrapRec} (hc : slotCheck (s.noted i) i = some t) (k : State → Res) :
    slotOp i h s k = .next ((s.noted i).raise t) := by
  rw [slotOp_eq]
  rw [hc]

/-- A slot answers a next state when its family's action does. -/
theorem slotOp_next {i : Instr} {h : Hdr} {s : State} {k : State → Res} (hk : ∀ s, ∃ t, k s = .next t) : ∃ t, slotOp i h s k = .next t := by
  rw [slotOp_eq]
  split
  · exact ⟨_, rfl⟩
  · split
    · exact hk _
    · exact ⟨_, rfl⟩

theorem trapAt_next (s : State) (c n : Nat) (d1 d2 d3 : BitVec 64) : ∃ t, trapAt s c n d1 d2 d3 = .next t := ⟨_, rfl⟩
theorem withhold_next (s : State) (e : Effect) (r : List Word) : ∃ t, withhold s e r = .next t := by
  unfold withhold; split <;> exact ⟨_, rfl⟩
theorem freezeFor_next {s : State} {n : Nat} {k : State → Res} (hk : ∃ t, k s = .next t) : ∃ t, freezeFor s n k = .next t := by
  unfold freezeFor; split
  · exact ⟨_, rfl⟩
  · exact hk

/-- An effect is withheld while the buffer has room (06 R119). -/
theorem withhold_room {s : State} (h : s.room) (e : Effect) (r : List Word) : withhold s e r = .next (s.addHeld e r) := by
  have h2 : ¬256 ≤ withheldEntries s.me := by unfold State.room at h; omega
  unfold withhold; simp [h2]

/-! ## The lead slot -/

/-- A lead slot, said of the state in which it acts. -/
theorem leadOp_eq (i : Instr) (h : LHdr) (s : State) (n : Nat) (k : State → Res) : leadOp i h s n k =
    match i.ill with
    | some .reserved => trapAt (s.leads i h) 0x02
    | some .format => trapAt (s.leads i h) 0x07
    | none => match firstHead h.pm (fun q => !((s.leads i h).head q).bound) with
      | some q => trapAt (s.leads i h) 0x16 0 (q.setWidth 64)
      | none => match firstHead h.pm (fun q => ((s.leads i h).latched s.who ((s.leads i h).head q)).isNone) with
        | some q => Host.Outcome.next ((s.leads i h).hold ((s.leads i h).queueHold q))
        | none => if (s.leads i h).guard h.g then k (s.leads i h) else (s.leads i h).endBundle h (s.leads i h).bnxt n := rfl

/-- A lead slot that issues is its family's action. -/
theorem leadOp_issues {i : Instr} {h : LHdr} {s : State} (hi : LeadIssues i h s) (n : Nat) (k : State → Res) :
    leadOp i h s n k = k (s.leads i h) := by
  obtain ⟨⟨h1, h2, h3⟩, h4⟩ := hi
  have h5 : (s.leads i h).guard h.g = true := h4
  rw [leadOp_eq]
  rw [h1, h2, h3]; simp only [h5, if_true]

/-- The end of a bundle answers a next state. -/
theorem endBundle_next (s : State) (h : LHdr) (pc : BitVec 64) (cost : Nat) (post : State → State) :
    ∃ t, s.endBundle h pc cost post = .next t := by
  unfold State.endBundle
  extract_lets
  split <;> exact ⟨_, rfl⟩

/-- A lead slot answers a next state when its family's action does. -/
theorem leadOp_next {i : Instr} {h : LHdr} {s : State} {n : Nat} {k : State → Res} (hk : ∀ s, ∃ t, k s = .next t) :
    ∃ t, leadOp i h s n k = .next t := by
  rw [leadOp_eq]
  split
  · exact ⟨_, rfl⟩
  · exact ⟨_, rfl⟩
  · split
    · exact ⟨_, rfl⟩
    · split
      · exact ⟨_, rfl⟩
      · split
        · exact hk _
        · exact endBundle_next ..

/-! ## What a slot with one result leaves -/

@[simp] theorem leaves_mem (s : State) (i : Instr) (L : Nat) (ws : List RegWrite) : (s.leaves i L ws).mem = s.mem := rfl
@[simp] theorem leaves_who (s : State) (i : Instr) (L : Nat) (ws : List RegWrite) : (s.leaves i L ws).who = s.who := rfl
@[simp] theorem leaves_verdict (s : State) (i : Instr) (L : Nat) (ws : List RegWrite) : (s.leaves i L ws).verdict = s.verdict := rfl
/-- The slot's result is the last one in flight of the issuing agent. -/
theorem leaves_me (s : State) (i : Instr) (L : Nat) (ws : List RegWrite) :
    (s.leaves i L ws).me = { s.me with flight := s.me.flight ++ [{ id := 0, writes := ws, dist := L }] } := me_result (s.noted i) L ws
/-- A slot with one result changes no register that slots read. -/
@[simp] theorem leaves_regs (s : State) (i : Instr) (L : Nat) (ws : List RegWrite) : (s.leaves i L ws).regs = s.regs := regs_result (s.noted i) L ws
/-- No other agent changes. -/
theorem leaves_ctx_ne (s : State) (i : Instr) (L : Nat) (ws : List RegWrite) {a : Agent} (h : s.who.key ≠ a.key) :
    (s.leaves i L ws).ctx a = s.ctx a := ctx_modCtx_ne (s.noted i) _ h
@[simp] theorem withholds_mem (s : State) (i : Instr) (e : Effect) (r : List Word) : (s.withholds i e r).mem = s.mem := rfl
/-- A withheld effect is the last one of the issuing agent's. -/
theorem withholds_me (s : State) (i : Instr) (e : Effect) (r : List Word) :
    (s.withholds i e r).me = { s.me with held := s.me.held ++ [{ pos := s.pos, word := encode i, bund := s.bpc.setWidth 57, regs := r, eff := e }] } :=
  ctx_setCtx (s.noted i) ..

end Sys2Proof.Machine
end

