-- ==== Sys2Proof/Tests/Slice0.lean ====
section
/-!
SUPPORT. Tests: slot words from the spec's field maps decode to their instructions, ill-formed terms are refused, the spec's worked cases come out, and every
hypothesis of a statement is met by some state.
-/

namespace Sys2Proof.Tests

open Sys2Proof Sys2Proof.Machine

set_option Elab.async false

/-! ## Helpers -/

/-- A header with the stop bit and guard f5. -/
def h5 : Hdr := { stop := true, g := 5 }
/-- A lead header with its stop bit, guard f5, heads 0 and 3 popped, CK and the hint. -/
def lh9 : LHdr := { stop := true, g := 5, pm := 9, ck := true, y := false, hint := true }
/-- A header with guard f0. -/
def h0 : Hdr := { stop := false, g := 0 }
/-- A lead header with guard f0 and no flags. -/
def l0 : LHdr := { stop := false, g := 0, pm := 0, ck := false, y := false, hint := false }
/-- Registers with some scalars. -/
def rg (xs : List (Nat × Nat)) : Regs := Regs.putAll {} (xs.map (fun p => .s (BitVec.ofNat 5 p.1) (BitVec.ofNat 64 p.2)))
/-- An agent that is issuing, with some scalars; a context has the whole pad as its window. -/
def ag (a : Agent) (xs : List (Nat × Nat)) : State :=
  ({ State.reset with who := a } : State).modCtx a (fun c => { c with st := .front, live := rg xs, stage := (rg xs).c, padwin := 0x400000 })
/-- A core's context that is issuing. -/
def cx (xs : List (Nat × Nat)) : State := ag (.ctx 0 0) xs
/-- A scribe that is issuing. -/
def sc (xs : List (Nat × Nat)) : State := ag (.scribe 0) xs
/-- Change the issuing agent. -/
def me (s : State) (f : Ctx → Ctx) : State := s.modMe f
/-- A result that is an error, or a value that satisfies `p`. -/
def okAnd {ε α : Type} (x : Except ε α) (p : α → Bool) : Bool := match x with
  | .ok a => p a
  | .error _ => false
/-- The state of a next outcome. -/
def nextOf (r : Res) : Option State := match r with
  | .next t => some t
  | _ => none
/-- The results in flight that a step leaves for the issuing agent: their distances and writes. -/
def flights (r : Res) : List (Nat × List RegWrite) := match r with
  | .next t => t.me.flight.map (fun e => (e.dist, e.writes))
  | _ => []
/-- The cause that a slot raised. -/
def raised (r : Res) : Option Nat := match r with
  | .next t => (match t.verdict with
    | .trap x => some x.cause
    | _ => none)
  | _ => none

/-! ## Decoding: words from the field maps of 02 R34 and the tables of 04, 08, 09, 12 and 15 -/

theorem test_decode_lead : ([
    (0x8059A000, .next lh9),
    (0x8159A309, .br lh9 777),
    (0x8259AA0C, .bru lh9 5 false 12),
    (0x8359B500, .jmpi lh9 21),
    (0x8459A309, .call lh9 777),
    (0x8559B500, .calli lh9 21),
    (0x8659A000, .ret lh9),
    (0x8759B500, .loop lh9 21),
    (0x8759B551, .loopPipe lh9 21 10),
    (0x8859A150, .sloop lh9 1 10),
    (0x8959A000, .lclose lh9),
    (0x8A59A309, .lexit lh9 777),
    (0x8B59A000, .halt lh9),
    (0x8C59A309, .trapi lh9 777),
    (0x8D59A309, .bkpt lh9 777)] : List (SlotWord × Instr)).all (fun p => decide (decode p.1 = .ok p.2)) = true := by decide

theorem test_decode_scalar : ([
    (0x905AAB80, .add h5 21 10 28),
    (0x905AAB81, .addSs h5 21 10 28),
    (0x905AAB82, .addUs h5 21 10 28),
    (0x905AAB83, .addW h5 21 10 28),
    (0x915AAB80, .sub h5 21 10 28),
    (0x915AAB81, .subSs h5 21 10 28),
    (0x915AAB82, .subUs h5 21 10 28),
    (0x915AAB83, .subW h5 21 10 28),
    (0x925AA80C, .addi h5 21 10 12),
    (0x935AAB80, .mul h5 21 10 28),
    (0x945AAB80, .mulh h5 21 10 28),
    (0x945AAB81, .mulhU h5 21 10 28),
    (0x955AAB80, .div h5 21 10 28),
    (0x955AAB81, .divU h5 21 10 28),
    (0x955AAB82, .divRem h5 21 10 28),
    (0x955AAB83, .divURem h5 21 10 28),
    (0x965AAB80, .and h5 21 10 28),
    (0x965AAB81, .or h5 21 10 28),
    (0x965AAB82, .xor h5 21 10 28),
    (0x965AAB83, .andn h5 21 10 28),
    (0x965AAB84, .orn h5 21 10 28),
    (0x965AAB85, .xnor h5 21 10 28),
    (0x975AAB80, .shl h5 21 10 28),
    (0x975AAB81, .shr h5 21 10 28),
    (0x975AAB82, .sar h5 21 10 28),
    (0x975AAB83, .ror h5 21 10 28),
    (0x985AA80C, .shli h5 21 10 12),
    (0x985AA84C, .shri h5 21 10 12),
    (0x985AA88C, .sari h5 21 10 12),
    (0x985AA8CC, .rori h5 21 10 12),
    (0x995AAB80, .min h5 21 10 28),
    (0x995AAB81, .max h5 21 10 28),
    (0x995AAB82, .minu h5 21 10 28),
    (0x995AAB83, .maxu h5 21 10 28),
    (0x9A5AA800, .popc h5 21 10),
    (0x9A5AA801, .clz h5 21 10),
    (0x9A5AA802, .ctz h5 21 10),
    (0x9A5AA803, .bitrev h5 21 10),
    (0x9A5AA804, .byterev h5 21 10),
    (0x9B5AAA6F, .fld h5 21 10 true false 1 47),
    (0x9C5A8172, .movi h5 21 370),
    (0x9D5A8172, .movhi h5 21 370),
    (0x9E5AAB86, .lea h5 21 10 28 6),
    (0x9F5AAB86, .sel h5 21 10 28 6)] : List (SlotWord × Instr)).all (fun p => decide (decode p.1 = .ok p.2)) = true := by decide

theorem test_decode_predicate_float_special : ([
    (0xA055571A, .cmp h5 5 10 28 6 true),
    (0xA1555635, .cmpi h5 5 10 12 false 53),
    (0xA255531A, .plog h5 5 10 12 6 true false),
    (0xA3555030, .pmov h5 5 10 12 false),
    (0xA45AAB88, .fadd h5 21 10 28 false true),
    (0xA45AAB89, .fsub h5 21 10 28 false true),
    (0xA45AAB8A, .fmul h5 21 10 28 false true),
    (0xA45AAB8B, .ffma h5 21 10 28 false true),
    (0xA45AAB8C, .fmin h5 21 10 28 false true),
    (0xA45AAB8D, .fmax h5 21 10 28 false true),
    (0xA5555704, .fcmp h5 5 10 28 false 1 false),
    (0xA5555005, .ficvt h5 5 10 true),
    (0xA555500D, .fcvti h5 5 10 true),
    (0xA5555011, .fwiden h5 5 10),
    (0xA5555015, .fnarrow h5 5 10),
    (0xA65A8172, .rdsr h5 21 370),
    (0xA7505572, .wrsr h5 21 370)] : List (SlotWord × Instr)).all (fun p => decide (decode p.1 = .ok p.2)) = true := by decide

theorem test_decode_load_store : ([
    (0xA85AAA51, .lds h5 21 10 4 2 17),
    (0xA95AAA51, .ldsp h5 21 10 4 2 17),
    (0xAA5AAA51, .ldsv h5 21 10 4 2 17),
    (0xAB5AA866, .sts h5 21 10 3 6),
    (0xAC5AAA51, .ldv h5 21 10 4 2 17),
    (0xAD5AAA46, .ldvs h5 21 10 4 6),
    (0xAE5AAA51, .ldvx h5 21 10 4 2 17),
    (0xAF5AA866, .stv h5 21 10 3 6),
    (0xB05AAB25, .stvs h5 21 10 12 9 1),
    (0xB15AA866, .stvx h5 21 10 3 6),
    (0xB250A81C, .pref h5 true 10 28),
    (0xB3505540, .chk h5 21 10),
    (0xB3505541, .chkVec h5 21 10)] : List (SlotWord × Instr)).all (fun p => decide (decode p.1 = .ok p.2)) = true := by decide

theorem test_decode_engine : ([
    (0xB4505540, .cpchGo h5 21 10),
    (0xB45AA801, .cpchSt h5 21 10),
    (0xB4505402, .cpchStop h5 21),
    (0xB5505540, .memcPhase h5 21 10),
    (0xB55AAB99, .memcRinv h5 21 10 28 6),
    (0xB5505542, .memcCreg h5 21 10),
    (0xB5505543, .memcCerr h5 21 10),
    (0xB6505400, .coll h5 21),
    (0xB6505401, .ring h5 21),
    (0xB65AA802, .rsemRd h5 21 10),
    (0xB6505546, .rsemSet h5 21 10),
    (0xB650554A, .rsemAdd h5 21 10),
    (0xB7505540, .stabWr h5 21 10),
    (0xB75AAB81, .stabRd h5 21 10 28),
    (0xB7505402, .stabGo h5 21),
    (0xB7500003, .stabStop h5),
    (0xB75AA804, .stabReg h5 21 10),
    (0xB7505545, .stabLink h5 21 10),
    (0xB7500006, .stabClr h5)] : List (SlotWord × Instr)).all (fun p => decide (decode p.1 = .ok p.2)) = true := by decide

theorem test_decode_vector_arith : ([
    (0xB85AAB93, .vadd h5 21 10 28 9 true),
    (0xB95AAB93, .vsub h5 21 10 28 9 true),
    (0xBA5AAB93, .vmul h5 21 10 28 9 true),
    (0xBB5AAB93, .vfma h5 21 10 28 9 true),
    (0xBC5AAB92, .vmin h5 21 10 28 9),
    (0xBC5AAB93, .vmax h5 21 10 28 9),
    (0xBD5AA804, .vabs h5 21 10 2),
    (0xBD5AA805, .vneg h5 21 10 2),
    (0xBE5AAB80, .vand h5 21 10 28),
    (0xBE5AAB82, .vor h5 21 10 28),
    (0xBE5AAB84, .vxor h5 21 10 28),
    (0xBE5AAB86, .vandn h5 21 10 28),
    (0xBE5AAB88, .vorn h5 21 10 28),
    (0xBE5AAB8A, .vxnor h5 21 10 28),
    (0xBF5AAB80, .vshl h5 21 10 28 false),
    (0xBF5AAB82, .vshr h5 21 10 28 false),
    (0xBF5AAB84, .vsar h5 21 10 28 false),
    (0xC05D70DA, .vcmp h5 true 10 28 6 13 false),
    (0xC15AA992, .vsel h5 21 10 12 9)] : List (SlotWord × Instr)).all (fun p => decide (decode p.1 = .ok p.2)) = true := by decide

theorem test_decode_vector_move : ([
    (0xC25AA800, .vmaskPopc h5 21 10),
    (0xC25AA802, .vmaskFfs h5 21 10),
    (0xC25AA804, .vmaskTov h5 21 10),
    (0xC252A806, .vmaskFromv h5 5 10),
    (0xC252A808, .vmaskFromp h5 5 10),
    (0xC35AAB92, .vswz h5 21 10 28 9),
    (0xC45AAB93, .vperm h5 21 10 28 9 true),
    (0xC55AA804, .vbc h5 21 10 2),
    (0xC55AAB93, .vbcLane h5 21 10 28 9),
    (0xC65AA992, .vrsum h5 21 10 12 9),
    (0xC65AA993, .vrmax h5 21 10 12 9),
    (0xC65AAB92, .vrmin h5 21 10 12 9),
    (0xC75AAB92, .vcvt h5 21 10 28 9),
    (0xC75AAB93, .vcvf h5 21 10 28 9),
    (0xC85AAB93, .vsxp h5 21 10 28 9 true),
    (0xC95AA8DA, .vplnSplit h5 21 10 true 2 13),
    (0xC95AA8DB, .vplnJoin h5 21 10 true 2 13),
    (0xCA5AAB93, .vdiv h5 21 10 28 9 true),
    (0xCB5AAB93, .vupd h5 21 10 28 9 true),
    (0xCC5AAB92, .vidx h5 21 10 28 9),
    (0xCD5AAB93, .vdot h5 21 10 28 9 true),
    (0xCE5AAB92, .vrnd h5 21 10 28 9),
    (0xCF5AAB93, .vhash h5 21 10 28 9 true)] : List (SlotWord × Instr)).all (fun p => decide (decode p.1 = .ok p.2)) = true := by decide

theorem test_decode_transform : ([
    (0xD05AA804, .xsin h5 21 10 2),
    (0xD05AA805, .xcos h5 21 10 2),
    (0xD15AA804, .xex2 h5 21 10 2),
    (0xD15AA805, .xlg2 h5 21 10 2),
    (0xD25AA804, .xrcp h5 21 10 2),
    (0xD25AA805, .xrsq h5 21 10 2),
    (0xD35AA804, .xtanh h5 21 10 2),
    (0xD35AA805, .xsigm h5 21 10 2),
    (0xD45AA892, .xtrn h5 21 10 4 9),
    (0xD55AAB93, .xcvt h5 21 10 28 9 true),
    (0xD65AA804, .xcmp h5 21 10 2),
    (0xD75AA800, .xexd h5 21 10)] : List (SlotWord × Instr)).all (fun p => decide (decode p.1 = .ok p.2)) = true := by decide

theorem test_decode_pane_governor : ([
    (0xDC555165, .mxld h5 5 10 2 6 1 false true),
    (0xDD5AAE4D, .mxa h5 5 10 28 9 true false true),
    (0xDE5AA012, .mxav h5 5 10 2 false true false),
    (0xDF5AAE49, .mxrd h5 5 10 28 9 1),
    (0xE05AAE49, .mxrk h5 5 10 28 9 true),
    (0xE15A8000, .mxpnRd h5 21),
    (0xE15A810A, .mxpnClaim h5 21 10),
    (0xE15A820A, .mxpnRel h5 21 10),
    (0xE25AAE00, .mxsvSave h5 5 10 28),
    (0xE25AAE01, .mxsvLd h5 5 10 28),
    (0xE25AA002, .mxsvSt h5 5 10),
    (0xE3505400, .govPol h5 21),
    (0xE35AAB81, .govRd h5 21 10 28),
    (0xE3505542, .govSet h5 21 10),
    (0xE3505403, .govClr h5 21),
    (0xE4505540, .gmeasMb h5 21 10),
    (0xE4505541, .gmeasTot h5 21 10),
    (0xE55AAB80, .gstep h5 21 10 28)] : List (SlotWord × Instr)).all (fun p => decide (decode p.1 = .ok p.2)) = true := by decide

theorem test_decode_queue_well_bank : ([
    (0xE8505541, .qpush h5 21 10 true),
    (0xE8500542, .qpushFwd h5 1 10),
    (0xE950A800, .qbind h5 1 10),
    (0xE9508001, .qunbind h5 1),
    (0xE95A8042, .qrd h5 21 2),
    (0xE95A8043, .qstat h5 21 2),
    (0xEA55C80C, .wop h5 5 50 12),
    (0xEB55C80C, .wadv h5 5 50 12),
    (0xEC52A818, .wbindC h5 5 10 3),
    (0xEC52A819, .wbindP h5 5 10 3),
    (0xEC528002, .wunbind h5 5),
    (0xEC5A8143, .wstat h5 21 10),
    (0xEC5A8144, .waddr h5 21 10),
    (0xED555042, .mxsc h5 5 10 4 2),
    (0xEE505540, .bankAcq h5 21 10),
    (0xEE505401, .bankRel h5 21),
    (0xEE5A8002, .bankRd h5 21)] : List (SlotWord × Instr)).all (fun p => decide (decode p.1 = .ok p.2)) = true := by decide

theorem test_decode_atomic_sync : ([
    (0xEF5AAA50, .atomSwap h5 21 10 4 2 true),
    (0xEF5AAA51, .atomAdd h5 21 10 4 2 true),
    (0xEF5AAA52, .atomAnd h5 21 10 4 2 true),
    (0xEF5AAA53, .atomOr h5 21 10 4 2 true),
    (0xEF5AAA54, .atomXor h5 21 10 4 2 true),
    (0xEF5AAA55, .atomMin h5 21 10 4 2 true),
    (0xEF5AAA56, .atomMax h5 21 10 4 2 true),
    (0xEF5AAA57, .atomMinu h5 21 10 4 2 true),
    (0xEF5AAA58, .atomMaxu h5 21 10 4 2 true),
    (0xEF5AAA59, .atomCas h5 21 10 4 2 true),
    (0xEF5AAA5A, .atomFadd h5 21 10 4 2 true),
    (0xF0505550, .barArr h5 21 10 4),
    (0xF0505551, .barSync h5 21 10 4),
    (0xF0505552, .barWt h5 21 10 4),
    (0xF15A8008, .drain h5 21 2),
    (0xF25AAB80, .rteClm h5 21 10 28),
    (0xF25AAB81, .rteSnd h5 21 10 28),
    (0xF3505400, .evtSig h5 21),
    (0xF3505541, .evtWait h5 21 10),
    (0xF35AA802, .evtRd h5 21 10)] : List (SlotWord × Instr)).all (fun p => decide (decode p.1 = .ok p.2)) = true := by decide

theorem test_decode_system : ([
    (0xF45AA800, .task h5 21 10),
    (0xF55AAB80, .dspj h5 21 10 28),
    (0xF65AAB80, .ctxRd h5 21 10 28),
    (0xF65AAB81, .ctxWr h5 21 10 28),
    (0xF7505540, .csvSave h5 21 10),
    (0xF7505541, .csvLd h5 21 10),
    (0xF7505402, .csvFree h5 21),
    (0xF75002A3, .csvEnd h5 21),
    (0xF8505400, .tret h5 21),
    (0xF9500004, .tlbiAll h5 true),
    (0xF9505401, .tlbiVf h5 21 false),
    (0xF9505546, .tlbiPg h5 21 10 true),
    (0xFA505540, .monCfg h5 21 10),
    (0xFA5AA801, .monRd h5 21 10),
    (0xFA505402, .monClr h5 21),
    (0xFB505540, .wswOut h5 21 10),
    (0xFB505541, .wswIn h5 21 10),
    (0xFC505400, .dbgStep h5 21),
    (0xFC505401, .dbgStop h5 21),
    (0xFC505542, .dbgBrk h5 21 10),
    (0xFD5AAB80, .cfgRd h5 21 10 28),
    (0xFD5AAB81, .cfgWr h5 21 10 28)] : List (SlotWord × Instr)).all (fun p => decide (decode p.1 = .ok p.2)) = true := by decide
/-! ## Ill-formed terms are refused (02 R35, R36) -/

theorem test_ill_scalar :
    ([.fld h0 1 2 false false 3 0, .fld h0 1 2 true true 0 0, .fld h0 1 2 false false 2 33, .cmp h0 2 1 1 12 false, .cmp h0 1 1 1 0 true,
      .cmpi h0 2 1 13 false 0, .cmpi h0 0 1 0 true 0, .plog h0 2 0 0 0 true true, .plog h0 1 0 0 0 true false, .pmov h0 2 1 5 false,
      .pmov h0 2 16 1 false, .pmov h0 1 1 2 true, .fcmp h0 0 1 1 true 0 true, .rdsr h0 1 0x013, .rdsr h0 1 0x01E, .wrsr h0 1 0x033, .ldsp h0 5 1 0 0 0,
      .memcRinv h0 1 1 1 5, .atomCas h0 3 1 0 0 false, .barArr h0 1 1 6, .barSync h0 1 1 6, .barWt h0 1 1 7, .drain h0 1 6, .wbindC h0 1 1 1,
      .wbindP h0 1 1 0, .mxsc h0 0 1 0 0] : List Instr).all (fun i => i.ill == some .reserved) = true := by decide
theorem test_ill_vector :
    ([.vcvt h0 1 2 4 0, .vcvt h0 1 2 16 0xD, .vcvf h0 1 2 15 0, .vsxp h0 1 2 5 6 false, .vplnSplit h0 1 2 false 1 0xD, .vplnSplit h0 1 2 true 0 0xD,
      .vplnJoin h0 1 2 false 3 5, .vupd h0 30 1 1 0 false, .vupd h0 1 1 29 0 false, .vrnd h0 1 2 8 0, .xtrn h0 1 2 7 0xD, .xcmp h0 3 1 0, .xexd h0 1 3,
      .mxld h0 0 2 6 0 0 false false, .mxld h0 1 3 6 0 0 false false, .mxld h0 1 2 6 0 1 false false, .mxrd h0 0 1 1 0 5, .mxrd h0 0 1 1 0xD 4] :
      List Instr).all (fun i => i.ill == some .reserved) = true := by decide
theorem test_ill_format :
    ([.stvs h0 1 1 1 6 0, .vadd h0 1 1 1 3 false, .vsub h0 1 1 1 0xA false, .vmul h0 1 1 1 0xE false, .vfma h0 1 1 1 7 false, .vmin h0 1 1 1 5, .vmax h0 1 1 1 8,
      .vabs h0 1 1 4, .vneg h0 1 1 6, .vcmp h0 false 1 1 1 3 false, .vsel h0 1 1 1 1, .vswz h0 1 1 1 9, .vperm h0 1 1 1 2 false, .vbc h0 1 1 0xC,
      .vbcLane h0 1 1 1 0xB, .vrsum h0 1 1 1 3, .vrmax h0 1 1 1 4, .vrmin h0 1 1 1 5, .vcvt h0 1 1 0 6, .vcvf h0 1 1 0 0xE, .vsxp h0 1 1 0 0 false,
      .vplnSplit h0 1 1 false 0 0xE, .vplnJoin h0 1 1 false 0 0xF, .vdiv h0 1 1 1 3 false, .vupd h0 1 1 1 0xD false, .vidx h0 1 1 1 1, .vdot h0 1 1 1 0 false,
      .vrnd h0 1 1 0 9, .vhash h0 1 1 1 2 false, .xsin h0 1 1 0xD, .xcos h0 1 1 3, .xex2 h0 1 1 9, .xlg2 h0 1 1 0xC, .xrcp h0 1 1 6, .xrsq h0 1 1 7, .xtanh h0 1 1 8,
      .xsigm h0 1 1 0xD, .xtrn h0 1 1 0 1, .xcvt h0 1 1 1 0 false, .xcmp h0 2 1 6, .mxld h0 1 2 0 0 0 false false, .mxa h0 0 1 1 0xD false false false,
      .mxav h0 0 1 0xC false false false, .mxrd h0 0 1 1 6 0, .mxrk h0 0 1 1 3 false] : List Instr).all (fun i => i.ill == some .format) = true := by
  decide
/-- 02 R38: the unassigned OP values, and a reserved field of ADD that is not zero, are refused by name. -/
theorem test_refused_words :
    (decode 0x0E000000, decode 0x5B000000, decode 0xFF000000, decode 0x10000008) =
      (.error .unassigned, .error .unassigned, .error .unassigned, .error .reserved) := by decide

/-! ## The statements' slots issue -/

/-- Slots of the scalar, load-store, vector, transform and queue units issue on a core's context. -/
theorem witness_core_slots :
    ∀ i ∈ [Instr.add h0 1 2 3, .addSs h0 1 2 3, .addUs h0 1 2 3, .addW h0 1 2 3, .sub h0 1 2 3, .subSs h0 1 2 3, .subUs h0 1 2 3, .subW h0 1 2 3,
        .addi h0 1 2 0x3FF, .mul h0 1 2 3, .mulh h0 1 2 3, .mulhU h0 1 2 3, .and h0 1 2 3, .or h0 1 2 3, .xor h0 1 2 3, .andn h0 1 2 3, .orn h0 1 2 3,
        .xnor h0 1 2 3, .shl h0 1 2 3, .shr h0 1 2 3, .sar h0 1 2 3, .ror h0 1 2 3, .shli h0 1 2 63, .shri h0 1 2 63, .sari h0 1 2 63, .rori h0 1 2 63,
        .min h0 1 2 3, .max h0 1 2 3, .minu h0 1 2 3, .maxu h0 1 2 3, .popc h0 1 2, .clz h0 1 2, .ctz h0 1 2, .bitrev h0 1 2, .byterev h0 1 2,
        .fld h0 1 2 true false 2 32, .fld h0 1 2 false true 0 56, .movi h0 1 0x7FFF, .movhi h0 1 1, .lea h0 1 2 3 7, .sel h0 1 2 3 4, .cmp h0 2 1 3 11 true,
        .cmpi h0 2 1 11 true 0x3F, .plog h0 2 1 3 6 true false, .plog h0 2 1 3 6 false true, .pmov h0 2 15 1 true, .pmov h0 2 31 4 true, .fadd h0 1 2 3 true false,
        .fsub h0 1 2 3 false true, .fmul h0 1 2 3 true true, .ffma h0 1 2 3 false false, .fmin h0 1 2 3 true true, .fmax h0 1 2 3 false false,
        .fcmp h0 2 1 3 true 5 true, .ficvt h0 15 2 true, .fcvti h0 15 2 false, .fwiden h0 15 2, .fnarrow h0 15 2, .rdsr h0 1 0x037, .wrsr h0 1 0x012],
      Issues i h0 (cx [(2, 5), (3, 7)]) := by unfold Issues; decide
theorem witness_vector_slots :
    ∀ i ∈ [Instr.vadd h0 1 2 3 0 true, .vadd h0 1 2 3 9 true, .vsub h0 1 2 3 0xD false, .vmul h0 1 2 3 0xB false, .vfma h0 1 2 3 2 true, .vdiv h0 1 2 3 0xC true,
        .vmin h0 1 2 3 1, .vmax h0 1 2 3 9, .vabs h0 1 2 0xD, .vneg h0 1 2 0xC, .vand h0 1 2 3, .vor h0 1 2 3, .vxor h0 1 2 3, .vandn h0 1 2 3, .vorn h0 1 2 3,
        .vxnor h0 1 2 3, .vshl h0 1 2 31 true, .vshr h0 1 2 3 false, .vsar h0 1 2 3 false, .vidx h0 1 2 3 0xD, .vidx h0 1 2 3 0xC, .vcmp h0 true 1 2 3 0xD true,
        .vsel h0 1 2 3 0xD, .vmaskPopc h0 1 2, .vmaskFfs h0 1 2, .vmaskTov h0 1 2, .vmaskFromv h0 1 2, .vmaskFromp h0 1 2, .vswz h0 1 2 31 0, .vbcLane h0 1 2 3 0xD,
        .xtrn h0 1 2 6 0xD, .vperm h0 1 2 3 0xD true, .vbc h0 1 2 0, .vrsum h0 1 2 3 0xD, .vrmax h0 1 2 3 9, .vrmin h0 1 2 3 1, .vdot h0 1 2 3 0xA true,
        .vhash h0 1 2 3 0xD true, .vupd h0 29 2 28 1 false, .vupd h0 1 2 3 0 true, .xsin h0 1 2 0, .xcos h0 1 2 1, .xex2 h0 1 2 2, .xlg2 h0 1 2 0, .xrcp h0 1 2 1,
        .xrsq h0 1 2 2, .xtanh h0 1 2 0, .xsigm h0 1 2 1, .vcvt h0 1 2 16 4, .vcvf h0 1 2 3 8, .vsxp h0 1 2 31 7 true, .vplnSplit h0 1 2 true 3 6,
        .vplnJoin h0 1 2 false 1 8, .vrnd h0 1 2 16 2, .xcmp h0 30 2 9, .xexd h0 1 30, .chk h0 1 2, .chkVec h0 1 2, .pref h0 true 1 31],
      Issues i h0 (cx [(2, 5), (3, 7)]) := by unfold Issues; decide
theorem witness_vector_values : Fmt.int Fmt.i8 = true ∧ (1 : Mask).getLsbD 0 = true ∧ (specialResult .sin (f32.decode 0x3F800000)).isNone = true ∧
    chunkBad (chunkOf 0 (List.replicate 128 0)) = false := by decide +kernel

/-- The order of values that FCMP's and VCMP's conditions follow: zeros of both signs are equal, nothing is ordered with NaN (04 R85; 08 R152). -/
theorem test_conditions : fpCond 0 (.fin true 0 0) (.fin false 0 5) = true ∧ fpCond 2 (.fin true 1 0) (.fin false 1 (-9)) = true ∧ fpCond 5 (.inf false) (.fin false 3 90) = true ∧
    ((List.range 8).filter (fun c => fpCond (BitVec.ofNat 3 c) .nan (.inf true))) = [1, 6] ∧ Fmt.int 1 = false ∧ Fmt.int 0xC = true ∧
    ((List.range 4).filter (fun c => vcmpElem c 0xC (BitVec.ofNat 4096 0xFFFFFFFF) 1 0)) = [1, 2, 3] := by decide +kernel

/-! ## Frames, guards, results, traps -/

/-- A false guard: f1 is false at reset. -/
theorem witness_false_guard : (cx []).guard 1 = false ∧
    ∀ i ∈ [Instr.add { h0 with g := 1 } 1 2 3, .vadd { h0 with g := 1 } 1 2 3 0 true, .stvs { h0 with g := 1 } 1 2 3 9 1, .drain { h0 with g := 1 } 1 5,
        .evtSig { h0 with g := 1 } 2, .qpush { h0 with g := 1 } 1 2 true],
      ((encodeNat i).map (fun y => decide (0x10 ≤ y / 2 ^ 24 % 128) && BitVec.ofNat 4 (y / 2 ^ 20) == 1)).getD false = true ∧
      slotCheck ((cx []).noted i) i = none := by decide
theorem witness_false_guard_checked : (encodeNat (.task { h0 with g := 1 } 1 2)).isSome = true ∧
    (slotCheck ((cx []).noted (.task { h0 with g := 1 } 1 2)) (.task { h0 with g := 1 } 1 2)).map (·.cause) = some 0x04 := by decide
/-- The names at both ends of the rotated ranges (04 R74). -/
theorem test_rotation : (physSV 15 15, physSV 1 16, physSV 1 31, physF 7 7, physF 1 8, physF 1 15) = (15, 17, 16, 7, 9, 8) := by decide
/-- An address that is not aligned, and one that lies outside the window as well (log 12). -/
theorem witness_misaligned : ∀ a ∈ [0x1001, 0x800001],
    let s := me (cx [(2, a)]) (fun c => { c with live := { c.live with m := c.live.m.set 4 (1 <<< 127) } })
    activeElem 0 (s.rm 4) 127 = true ∧
    ∀ p ∈ [(Instr.lds h0 1 2 0 2 0, effAddr s 2 0 8, 8), (.ldsp h0 4 2 0 2 0, effAddr s 2 0 16, 16), (.ldsv h0 1 2 0 2 0, effAddr s 2 0 4, 4),
        (.ldv h0 1 2 0 2 0, effAddr s 2 0 512, 128), (.ldvs h0 1 2 0 0, effAddr s 2 0 128, 128), (.ldvx h0 1 2 0 2 3, laneAddr s 2 3 0, 4),
        (.sts h0 1 2 2 0, effAddr s 2 0 8, 8), (.stv h0 1 2 2 0, effAddr s 2 0 512, 128), (.stvx h0 1 2 2 3, laneAddr s 2 3 0, 4),
        (.stvs h0 1 2 4 0 2, s.rs 2, fmtBits 0 / 8), (.atomSwap h0 1 2 0 2 true, s.rs 2, 4), (.atomAdd h0 1 2 0 2 false, s.rs 2, 8),
        (.atomCas h0 2 2 0 2 false, s.rs 2, 8), (.atomFadd h0 1 2 0 2 true, s.rs 2, 4)],
      p.2.1.toNat % p.2.2 ≠ 0 ∧ Issues p.1 h0 s := by unfold Issues; decide +kernel
theorem witness_privileged : (cx []).who.onCore = true ∧
    ∀ i ∈ [Instr.stabGo h0 1, .stabStop h0, .govSet h0 2 3, .govClr h0 2, .gstep h0 1 2 3, .govPol h0 2],
      privileged i = true ∧ unitCheck ((cx []).noted i) i = none := by decide
theorem witness_governor_traps : govTableOf (cx []) ((cx []).procOf (cx []).who) = none ∧ govTableOf (sc []) ((sc []).procOf (sc []).who) = none ∧
    ((sc []).rs 2).toNat % 16 = 0 ∧ (∀ i ∈ [Instr.govRd h0 1 2 3, .gmeasMb h0 2 3, .gmeasTot h0 2 3, .xcvt h0 1 2 3 7 true], Issues i h0 (cx [])) ∧
    ∀ i ∈ [Instr.govRd h0 1 2 3, .govSet h0 2 3, .govClr h0 2, .gmeasMb h0 2 3, .gmeasTot h0 2 3, .gstep h0 1 2 3, .govPol h0 2], Issues i h0 (sc []) := by
  unfold Issues; decide
theorem witness_governor_range :
    let s := modGov (sc [(2, 4096), (3, 1), (4, 4095), (5, 2), (6, 1024), (7, 4097), (8, 0x80000)]) 0 (fun _ => { proc := some 0 })
    let c := modGov (cx [(2, 4096), (3, 1)]) 0 (fun _ => { proc := some 0 })
    4096 ≤ (s.rs 2).toNat ∧ 1024 ≤ (s.rs 6).toNat ∧ (s.rs 0).toNat = 0 ∧ 4096 < (s.rs 7).toNat ∧ 4096 < (s.rs 4).toNat + (s.rs 5).toNat ∧ setWordOk (s.rs 8) = false ∧
    govTableOf s (s.procOf s.who) = some 0 ∧ (govTable s 0).kappa = none ∧ 4096 ≤ (c.rs 2).toNat ∧ govTableOf c (c.procOf c.who) = some 0 ∧
    (govEntry c 0 1).fmt ≠ 7 ∧ (∀ i ∈ [Instr.xcvt h0 1 1 2 7 true, .xcvt h0 1 1 3 7 false], Issues i h0 c) ∧
    ∀ i ∈ [Instr.govRd h0 1 2 3, .govClr h0 2, .govSet h0 2 3, .govSet h0 4 8, .gmeasMb h0 6 3, .gmeasTot h0 6 3, .gstep h0 1 4 5, .gstep h0 1 3 0, .gstep h0 1 3 7,
      .gstep h0 1 3 3], Issues i h0 s := by unfold Issues; decide
theorem witness_full_stacks :
    let s := me (cx [(3, 2)]) (fun c => { c with live := { c.live with c := { c.live.c with rets := List.replicate 16 4, loops := List.replicate 6 {} } } })
    s.me.live.c.rets.length = 16 ∧ s.me.live.c.loops.length = 6 ∧ s.me.live.c.loops = {} :: List.replicate 5 {} ∧ ({} : Level).fin = 0 ∧ (s.rs 2).toNat % 4 = 0 ∧
    (s.rs 3).toNat % 4 ≠ 0 ∧ ∀ i ∈ [Instr.call l0 1, .calli l0 2, .calli l0 3, .jmpi l0 3, .loop l0 1, .loopPipe l0 1 2, .sloop l0 3 2, .lexit l0 0], LeadIssues i l0 s := by
  unfold LeadIssues LeadPasses; decide
theorem witness_empty_stacks : (cx []).me.live.c.rets = [] ∧ (cx []).me.live.c.loops = [] ∧
    ∀ i ∈ [Instr.ret l0, .lclose l0, .lexit l0 1], LeadIssues i l0 (cx []) := by unfold LeadIssues LeadPasses; decide
theorem witness_unbound_head : ((cx []).head 3).bound = false ∧
    ∀ i ∈ [Instr.qpushFwd h0 3 1, .qunbind h0 3, .qrd h0 1 3, .qstat h0 1 3], Issues i h0 (cx []) := by unfold Issues; decide
theorem witness_ungranted_pane : (cx []).me.panes.getD 3 none = none ∧ (8 : BitVec 4).getLsbD 3 = true ∧
    ∀ i ∈ [Instr.mxa h0 7 1 2 9 false false true, .mxav h0 7 1 9 false false true, .mxrk h0 7 1 2 0 true, .mxrd h0 7 1 2 0 0, .mxsvSt h0 7 1, .mxsvSave h0 7 1 2,
      .mxsvLd h0 7 1 2, .mxld h0 8 2 2 0 0 false true, .mxsc h0 8 1 0 2], Issues i h0 (cx []) := by unfold Issues; decide
/-- A context with pane 0 granted as physical pane 0. -/
def px (xs : List (Nat × Nat)) (p : Pane) : State :=
  (me (cx xs) (fun c => { c with panes := c.panes.set 0 (some 0) })).modCore 0 (fun k => { k with panes := k.panes.set 0 { p with owner := some (0, 0) } })
theorem witness_early_read :
    let s := px [] { t0 := { done := 9 } }
    let t := px [] { t1 := { done := 9 } }
    (s.me.panes.getD 0 none).isSome = true ∧ s.me.icyc.toNat < ((paneOf s 0 (mainPane s 0)).tile 0).done ∧ wbits (s.rs 2) 63 0 = 0 ∧ coverOf s s.who ≠ 3 ∧
    (1 : BitVec 4).getLsbD 0 = true ∧ (t.me.panes.getD 0 none).isSome = true ∧ t.me.icyc.toNat < ((paneOf t 0 (mainPane t 0)).tile 1).done ∧
    ((paneOf t 0 (mainPane t 0)).tile 0).done ≤ t.me.icyc.toNat ∧ Issues (.mxpnRel h0 3 1) h0 t ∧
    ∀ i ∈ [Instr.mxsvSt h0 0 1, .mxrd h0 0 1 2 0 0, .mxsvSave h0 0 1 2, .mxsvLd h0 0 1 2, .mxpnRel h0 3 1], Issues i h0 s := by
  unfold Issues; decide +kernel
theorem witness_trap_return : targetOf (sc [(2, 8)]) ((sc [(2, 8)]).rs 2) = some (.ctx 1 0) ∧ Issues (.tret h0 2) h0 (sc [(2, 8)]) ∧
    (((sc [(2, 8)]).modCtx (.ctx 1 0) (fun c => { c with st := .stopped })).ctx (.ctx 1 0)).st = .stopped ∧ ((sc [(2, 8)]).ctx (.ctx 1 0)).st ≠ .stopped := by
  unfold Issues; decide
theorem witness_trap_entry : (cx []).me.stopReq = none ∧ ((me (cx []) (fun c => { c with stopReq := some (0x72, 1) })).ctx (.ctx 0 0)).stopReq = some (0x72, 1) := by
  decide

/-! ## Division, memory access -/

theorem witness_division : (cx [(2, 5)]).rs 2 ≠ 0 ∧ (cx [(2, 5)]).rs 3 = 0 ∧
    ∀ i ∈ [Instr.div h0 1 2 3, .divU h0 1 2 3, .divRem h0 1 2 3, .divURem h0 1 2 3, .div h0 1 3 2, .divU h0 1 3 2, .divRem h0 1 3 2, .divURem h0 1 3 2],
      Issues i h0 (cx [(2, 5)]) := by unfold Issues; decide
/-- 04 R79: −2^63 by −1 gives −2^63 and the remainder 0. -/
theorem test_division_corner :
    flights (exec (.div h0 1 2 3) (cx [(2, 0x8000000000000000), (3, 0xFFFFFFFFFFFFFFFF)])) = [(24, [.s 1 0x8000000000000000])] ∧
    flights (exec (.divRem h0 1 2 3) (cx [(2, 0x8000000000000000), (3, 0xFFFFFFFFFFFFFFFF)])) = [(24, [.s 1 0])] := by decide
theorem test_division_by_zero : raised (exec (.divU h0 1 2 3) (cx [(2, 5)])) = some 0x15 := by decide
theorem witness_loads :
    let s := cx [(2, 0x1000)]
    (∀ i ∈ [Instr.lds h0 1 2 0 2 0, .ldsp h0 4 2 0 2 0, .ldsv h0 1 2 0 2 0, .ldv h0 1 2 0 2 0, .ldvx h0 1 2 0 2 3, .ldvs h0 1 2 0 0], Issues i h0 s) ∧
    (okAnd (resolveAccess s .load .p (effAddr s 2 0 8) 8 8) (fun r => r.1.length == 1 && !r.1.any (fun x => x.1.fabric || ownUnknown r.2 s.who x.1 x.2)) &&
     okAnd (resolveAccess s .load .p (effAddr s 2 0 512) 512 128) (fun r => r.1.length == 4 && !r.1.any (fun x => x.1.fabric || ownUnknown r.2 s.who x.1 x.2)) &&
     okAnd (resolveLanes s .load .p (laneAddr s 2 3) 128 0) (fun r => r.1.length == 128 && !r.1.any (fun x => x.1.fabric || ownUnknown r.2 s.who x.1 x.2))) = true := by
  unfold Issues; decide +kernel
/-- The first bytes of the chunk that XCMP packs from 128 zero bytes. -/
def chunk0 : List Byte := (chunkOf 0 (List.replicate 128 0)).take 128
theorem witness_chunks :
    let ok := fun (s : State) (p : List Byte × Bool × Nat × State → Bool) => decide ((effAddr s 2 0 128).toNat % 128 = 0) &&
      okAnd (chunkSegs s (effAddr s 2 0 128)) (fun g => !g.any (fun x => ownUnknown s s.who x.1 x.2) && p (readSegs s s.who g))
    let s := (cx [(2, 0x1000)]).storeAt (padKey 0 0x1000) chunk0
    (ok s (fun r => !r.2.1 && !chunkBad r.1) && ok ((cx [(2, 0x1000)]).storeAt (padKey 0 0x1000) [0xFF, 0xFF]) (fun r => !r.2.1 && chunkBad r.1) &&
      ok { s with poison := [padKey 0 0x1000 / 8] } (fun r => r.2.1)) = true := by decide +kernel
theorem witness_checks : (cx [(2, 5)]).rs 2 ≠ (cx [(2, 5)]).rs 3 ∧ (cx []).rs 2 = (cx []).rs 3 ∧ (cx []).rv 2 = (cx []).rv 3 := by decide +kernel
theorem witness_vectors_differ : (me (cx []) (fun c => { c with live := { c.live with v := c.live.v.set 3 1 } })).rv 2 ≠
    (me (cx []) (fun c => { c with live := { c.live with v := c.live.v.set 3 1 } })).rv 3 := by decide +kernel
theorem witness_stores :
    let s := me (cx [(2, 0x1000)]) (fun c => { c with live := { c.live with m := c.live.m.set 4 (1 <<< 127) } })
    withheldEntries s.me < 256 ∧
    (∀ i ∈ [Instr.sts h0 1 2 2 0, .stv h0 1 2 2 0, .stvx h0 1 2 2 3, .stvs h0 1 2 4 0 2, .stvs h0 1 2 4 0xD 2], Issues i h0 s) ∧
    (okAnd (resolveAccess s .store .p (effAddr s 2 0 8) 8 8) (fun r => r.1.length == 1) && okAnd (resolveAccess s .store .p (effAddr s 2 0 512) 512 128) (fun r => r.1.length == 4) &&
     okAnd (resolveLanes s .store .p (laneAddr s 2 3) 128 0) (fun r => r.1.length == 128) &&
     activeElem 0 (s.rm 4) 127 && okAnd (resolveStvs s .p (s.rs 2) 0 (s.rm 4) (s.rv 1) 128 0) (fun r => r.1.length == 1) &&
     (List.range 64).all (fun e => !activeElem 0xD (s.rm 4) e)) = true := by unfold Issues; decide +kernel
/-- A store of the pad: its place, and its bytes at it. -/
def padLoc (o : Nat) : Loc := { space := .p, key := padKey 0 o }
theorem witness_released_store : (padLoc 0).coded = none ∧ (padLoc 0).fabric = false ∧ leaseMet (cx []) (.ctx 0 0) 1 (padLoc 0) 8 = none ∧
    (∀ n, (((cx []).core n).l1.get {} (lineKey (padLoc 0))).dirty = 0 ∧ (((cx []).core n).l1.get {} (lineKey (padLoc 0))).owned = false) := by
  refine ⟨by decide, by decide, by decide, fun n => ⟨rfl, rfl⟩⟩
/-- Bytes 0x10 to 0x3F of a bound well block, the notice well's, are leased (12 R229). -/
theorem witness_leased_store : (leaseMet (cx []) (.ctx 0 0) 1 (padLoc 0x3FBF90) 1).isSome = true ∧ (leaseMet (cx []) (.ctx 0 0) 1 (padLoc 0x3FBFC0) 1).isSome = false ∧
    ((cx []).ctx (.ctx 0 0)).st = .front := by decide +kernel

/-! ## The lead slot -/

/-- Change the control registers of the issuing agent, staged alike. -/
def ctl (s : State) (f : Ctl → Ctl) : State := me s (fun c => { c with live := { c.live with c := f c.live.c }, stage := f c.live.c })
theorem witness_transfers :
    let s := ctl (cx [(2, 0x1FFFFFFFFFFFFFC)]) (fun c => { c with rets := List.replicate 15 0x1FFFFFFFFFFFFFC })
    let t := me s (fun c => { c with live := { c.live with m := c.live.m.set 4 (BitVec.allOnes 128) } })
    let u := me s (fun c => { c with live := { c.live with m := c.live.m.set 4 1 } })
    s.me.stage = s.me.live.c ∧ s.srs = [] ∧ s.rm 4 = 0 ∧ t.rm 4 = BitVec.allOnes 128 ∧ u.rm 4 ≠ 0 ∧ u.rm 4 ≠ BitVec.allOnes 128 ∧ u.me.stage = u.me.live.c ∧
    (s.rs 2).toNat % 4 = 0 ∧ s.me.live.c.rets.length ≠ 16 ∧ s.me.live.c.rets = 0x1FFFFFFFFFFFFFC :: List.replicate 14 0x1FFFFFFFFFFFFFC ∧
    ∀ i ∈ [Instr.next l0, .br l0 0x1000, .bru l0 4 true 0x80, .bru l0 4 false 0x7F, .jmpi l0 2, .call l0 0xFFF, .calli l0 2, .ret l0],
      LeadIssues i l0 s ∧ LeadIssues i l0 t ∧ LeadIssues i l0 u := by unfold LeadIssues LeadPasses; decide +kernel
/-- The end of a bundle as a checkpoint or not, with Y, with pops of two bound heads whose elements are there, and with a WRSR of %rot. -/
theorem witness_bundle_ends :
    let s := ctl ((cx []).modQueue ((cx []).queueKey (cx []).who 5) (fun q => { q with present := true, home := some 0, log2cap := 1, pushed := 1, els := [(77, true)] }))
      (fun c => { c with qh := c.qh.set 3 { bound := true, queue := 5 } })
    let h : LHdr := { l0 with pm := 8 }
    LeadIssues (.next h) h s ∧ LeadIssues (.next { h with ck := true }) { h with ck := true } s ∧ LeadIssues (.next { h with y := true }) { h with y := true } s ∧
    s.ckb = false ∧ s.who.onCore = true ∧ s.me.st = .front ∧ s.me.step = false ∧ s.srs = [] ∧ s.me.stage = s.me.live.c ∧
    LeadIssues (.next l0) l0 { s with srs := [(0x012, 1), (0x008, 5)] } := by unfold LeadIssues LeadPasses; decide +kernel
theorem witness_skipped_transfers :
    let s := ctl (cx []) (fun c => { c with qh := c.qh.set 1 { bound := true, queue := 5 } })
    let h : LHdr := { l0 with g := 1 }
    s.me.stage = s.me.live.c ∧ s.srs = [] ∧ s.guard 1 = false ∧
    ∀ i ∈ [Instr.br h 1, .bru h 4 true 1, .jmpi h 2, .call h 1, .calli h 2, .ret h, .loop h 2, .loopPipe h 2 3, .sloop h 1 2, .lclose h, .lexit h 0],
      LeadPasses i h s := by unfold LeadPasses; decide +kernel
/-- A context before the end of a loop level, with head 3 at an element of queue 5 whose EOS is `e`, or at none. -/
def looping (l : Level) (els : List (BitVec 64 × Bool)) : State :=
  let s := cx [(2, 9), (3, 1)]
  ctl (s.modQueue (s.queueKey s.who 5) (fun q => { q with present := true, home := some 0, log2cap := 1, pushed := BitVec.ofNat 32 els.length, els := els }))
    (fun c => { c with loops := [l], qh := c.qh.set 3 { bound := true, queue := 5 } })
theorem witness_loops :
    ∀ l ∈ [({ kc := 2 } : Level), { kc := 1 }, { kc := 0, fin := 4 }, { kind := .pipelined, kc := 2 }, { kind := .pipelined, kc := 1, ec := 1 },
        { kind := .pipelined, kc := 1 }, { kind := .stream, head := 3 }, { kind := .stream, head := 3, done := true, ec := 1 },
        { kind := .stream, head := 3, done := true }, { kind := .stream, head := 2 }],
      let s := looping l [(77, true)]
      s.me.stage = s.me.live.c ∧ s.srs = [] ∧ s.ckb = false ∧ s.me.live.c.loops = l :: [] ∧ s.me.live.c.loops.length ≠ 6 ∧ (s.head 3).bound = true ∧
      ∀ i ∈ [Instr.loop l0 2, .loopPipe l0 2 3, .sloop l0 3 2, .lclose l0, .lexit l0 1, .lexit l0 0], LeadIssues i l0 s := by
  unfold LeadIssues LeadPasses; decide +kernel
theorem witness_stream_loops :
    let l : Level := { kind := .stream, head := 3 }
    ∀ els ∈ [[(77, true)], [(77, false)], []], (looping l els).latched (looping l els).who ((looping l els).head 3) = els.head? ∧
      ((looping l els).head 2).bound = false ∧ LeadIssues (.lclose l0) l0 (looping l els) := by
  unfold LeadIssues LeadPasses; decide +kernel
theorem witness_halt :
    let s := cx []
    let w : Withheld := { pos := 1, word := 0, bund := 0, eff := .rsem 0 5 true 1 }
    let t := { me s (fun c => { c with held := [w] }) with remotes := [(8, { who := .ctx 0 0, write := true })] }
    s.who.onCore = true ∧ (sc []).who.onCore = false ∧ s.me.stage = s.me.live.c ∧ s.srs = [] ∧ s.me.held = [] ∧ s.unperformed s.who = false ∧
    s.remotePending s.who 5 = false ∧ t.remotePending t.who 5 = true ∧ w ∈ t.me.held ∧ (sc []).me.stage = (sc []).me.live.c ∧
    ∀ i ∈ [Instr.halt l0, .trapi l0 0x1FFF, .bkpt l0 0], LeadIssues i l0 s ∧ LeadIssues i l0 t ∧ LeadIssues i l0 (sc []) := by
  unfold LeadIssues LeadPasses; decide
/-- 04 R75: a branch of the largest negative displacement goes 16,384 bytes back, and CALL leaves the next bundle's address. -/
theorem test_branch : ((nextOf (exec (.br l0 0x1000) { cx [] with bpc := 0x10000, bnxt := 0x10010 })).map (fun t => t.me.live.c.pc)) = some 0xC000 ∧
    ((nextOf (exec (.call l0 0xFFF) { cx [] with bpc := 0x10000, bnxt := 0x10010 })).map (fun t => (t.me.live.c.pc, t.me.live.c.rets))) =
      some (0x13FFC, [0x10010]) := by decide +kernel

/-! ## Queues, wells, atomics, synchronisation, banks, routing -/

/-- A context with queue 5 resident at its scribe, one element left in it, and head 3 at that element. -/
def qx (xs : List (Nat × Nat)) : State :=
  ctl ((cx xs).modQueue ((cx xs).queueKey (cx xs).who 5) (fun q => { q with present := true, home := some 0, log2cap := 1, pushed := 1, els := [(77, true)] }))
    (fun c => { c with qh := c.qh.set 3 { bound := true, queue := 5 } })
theorem witness_queues :
    let s := qx [(2, 5)]
    let q := s.queue (s.queueKey s.who 5)
    withheldEntries s.me < 256 ∧ q.present = true ∧ q.home.isSome = true ∧ 0 < q.space ∧ q.head = none ∧ (s.head 0).bound = false ∧ (s.head 3).bound = true ∧
    s.latched s.who (s.head 3) = some (77, true) ∧ (s.rs 2).toNat < 4096 ∧
    ∀ i ∈ [Instr.qpush h0 1 2 true, .qpushFwd h0 3 2, .qbind h0 0 2, .qunbind h0 3, .qrd h0 1 3, .qstat h0 1 3], Issues i h0 s := by
  unfold Issues; decide +kernel
/-- A core context whose w2 is bound to the notice well as a consumer one behind its write pointer. -/
def wx : State := ctl (cx []) (fun c => { c with w := c.w.set 2 { bound := true, blk := 0x3FBF80, own := 0xFFFFFFFF } })
theorem witness_wells :
    (handle wx 2).bound = true ∧ withheldEntries wx.me < 256 ∧ (1 : BitVec 6).toNat ≤ (wellCount wx (handle wx 2)).toNat ∧
    ∀ i ∈ [Instr.wop h0 2 1 0, .wadv h0 2 1 0x3FF, .wadv h0 2 0 0, .wop h0 2 0 0, .wunbind h0 2, .wstat h0 1 2, .waddr h0 1 2], Issues i h0 wx := by
  unfold Issues; decide +kernel
/-- 12 R232: a handle one behind the write pointer of an empty notice well counts one slot, and its address is that of slot 127. -/
theorem test_well_status : flights (exec (.wstat h0 1 2) wx) = [(2, [.s 1 0x1FFFFFFFF])] ∧
    flights (exec (.waddr h0 1 2) wx) = [(2, [.s 1 (BitVec.ofNat 64 (0x3FC000 + 127 * 128))])] := by decide +kernel
/-- A state with a well block of two slots of 128 bytes at pad address 0x1000. -/
def bx : State := (cx [(2, 0x1000), (3, 0x3FBF80)]).storeAt (padKey 0 0x1000) ([0, 0x20, 0, 0, 0, 0, 0, 0, 2, 0, 0, 0, 0x80, 0, 0, 0])
theorem witness_binding :
    (∀ i ∈ [Instr.wbindP h0 1 2 2, .wbindC h0 1 2 2, .wbindC h0 1 3 2], Issues i h0 bx) ∧ (handle bx 1).bound = false ∧
    (∀ a ∈ [(2 : BitVec 5), 3], (bx.rs a).toNat % 64 = 0 ∧ okAnd (resolve bx bx.who .atomic (Space.ofCode 2) (bx.rs a) 64) (fun r =>
      !bx.poisoned r.1.key 64 && (wellBad bx r.1.key).isNone && (bx.well r.1.key).cons.isNone && (a == 3 || (bx.well r.1.key).prod.isNone)) = true) := by
  unfold Issues; decide +kernel
theorem witness_atomics :
    let s := cx [(2, 0x1004), (3, 0x1008)]
    withheldEntries s.me < 256 ∧ (s.rs 2).toNat % 4 = 0 ∧ (s.rs 3).toNat % 8 = 0 ∧
    (∀ p ∈ [(true, (2 : BitVec 5)), (false, 3)], ∀ i ∈ [Instr.atomSwap h0 4 p.2 0 2 p.1, .atomAdd h0 4 p.2 0 2 p.1, .atomAnd h0 4 p.2 0 2 p.1, .atomOr h0 4 p.2 0 2 p.1,
        .atomXor h0 4 p.2 0 2 p.1, .atomMin h0 4 p.2 0 2 p.1, .atomMax h0 4 p.2 0 2 p.1, .atomMinu h0 4 p.2 0 2 p.1, .atomMaxu h0 4 p.2 0 2 p.1,
        .atomCas h0 4 p.2 0 2 p.1, .atomFadd h0 4 p.2 0 2 p.1], Issues i h0 s) ∧
    (∀ p ∈ [((2 : BitVec 5), 4), (3, 8)], okAnd (resolve s s.who .atomic (Space.ofCode 2) (s.rs p.1) p.2) (fun r => r.1.coded.isNone && !r.1.fabric) = true) := by
  unfold Issues; decide +kernel
theorem witness_atomic_values : (0xFFFFFFFF < 2 ^ (if true then 32 else 64)) ∧ 0x80000000 < 2 ^ 32 ∧ atomNew .add true 0xFFFFFFFF 1 0 = 0 ∧
    atomNew .min true 0x80000000 1 0 = 0x80000000 ∧ atomNew .minu true 0x80000000 1 0 = 1 := by decide
/-- A context with a barrier object of one member at pad address 0x1000, and a semaphore of its cluster at 255. -/
def ex (xs : List (Nat × Nat)) : State :=
  ((cx xs).storeAt (padKey 0 0x1000) [1, 0, 0, 0]).modCluster 0 (fun c => { c with sems := c.sems.put {} 63 { count := 255 } })
theorem witness_synchronisation :
    let s := ex [(2, 0x1000), (3, 0x200), (4, 0x200000000), (5, 0xFF3F), (6, 0x3F)]
    withheldEntries s.me < 256 ∧ (s.rs 2).toNat % 64 = 0 ∧ (s.rs 3).toNat < 2 ^ 10 ∧ (s.rs 4).toNat < 2 ^ 34 ∧
    okAnd (resolve s s.who .atomic (Space.ofCode ((s.rs 3).extractLsb' 8 2)) (s.rs 2) 64) (fun r => !r.1.fabric && !objectBad (objectNow r.2 s.who r.1)) = true ∧
    okAnd (resolve s s.who .load (Space.ofCode ((s.rs 4).extractLsb' 32 2)) (s.rs 2) 64) (fun r => !r.1.fabric) = true ∧
    evtBad (s.rs 5) true = false ∧ evtBad (s.rs 6) false = false ∧ s.who.cluster? = some (wbits (s.rs 5) 21 16) ∧
    (semOf s 0 63).resv + wbits (s.rs 5) 15 8 ≤ (semOf s 0 63).count.toNat ∧
    ∀ i ∈ [Instr.barArr h0 2 3 5, .barSync h0 2 3 0, .barWt h0 2 4 2, .drain h0 1 5, .evtSig h0 5, .evtWait h0 5 7, .evtRd h0 1 6], Issues i h0 s := by
  unfold Issues; decide +kernel
theorem witness_synchronisation_forms :
    let s := ex [(2, 0x1000), (3, 0x200), (5, 0x013F), (6, 0x3F)]
    let u := me s (fun c => { c with post := some { kind := .wt, pos := 1, want := 7 } })
    let w : Withheld := { pos := 1, word := 0, bund := 0, eff := .barWait 0 }
    wbits (s.rs 5) 21 16 = 0 ∧ s.who.cluster? = some 0 ∧ evtBad (s.rs 5) true = false ∧ (semOf s 0 63).resv + wbits (s.rs 5) 15 8 ≤ (semOf s 0 63).count.toNat ∧
    (u.ctx s.who).post = some { kind := .wt, pos := 1, want := 7 } ∧ awaits w { kind := .wt, pos := 1, want := 7 } = true ∧
    ∀ i ∈ [Instr.evtWait h0 5 7, .evtRd h0 1 6], Issues i h0 s := by unfold Issues; decide +kernel
theorem test_semaphore : flights (exec (.evtRd h0 1 6) (ex [(6, 0x3F)])) = [(2, [.s 1 255])] := by decide +kernel
theorem witness_banks :
    let s := cx [(2, 0xFFFFFFFF), (3, 0xFFFFFF)]
    s.who.cluster? = some 0 ∧ (s.rs 2).toNat < 2 ^ 32 ∧ (s.rs 3).toNat < 2 ^ 24 ∧ (s.cluster 0).banks = [] ∧ s.ckb = false ∧ { s with ckb := true }.ckb = true ∧
    ∀ i ∈ [Instr.bankAcq h0 2 3, .bankRel h0 2, .bankRd h0 1], Issues i h0 s ∧ Issues i h0 { s with ckb := true } := by unfold Issues; decide +kernel
/-- Scribe 0 of a cluster with one step of vault space. -/
def vx (xs : List (Nat × Nat)) : State := (sc xs).modCluster 0 (fun c => { c with steps := 1 })
theorem witness_routing :
    let s := vx [(2, 0), (3, 0x100000000)]
    withheldEntries s.me < 256 ∧ (s.rs 2).toNat % 64 = 0 ∧ vaultPasses s s.who (s.rs 2).toNat 64 = true ∧ bits (s.rs 2).toNat 32 27 / 16 = s.who.die ∧
    wbits (s.rs 3) 63 48 = 0 ∧ wbits (s.rs 3) 47 32 ≠ 0 ∧ wbits (s.rs 3) 63 61 = 0 ∧ Issues (.rteClm h0 1 2 3) h0 s := by unfold Issues; decide +kernel

theorem witness_token_slot :
    let s := (me (cx [(2, 0), (3, 0xFFF0000000000000 - 0xE000000000000000)]) (fun c => { c with vaultwin := 0x10000 })).modCluster 0 (fun c => { c with steps := 1 })
    withheldEntries s.me < 256 ∧ vaultPasses s s.who (s.rs 2).toNat 64 = true ∧ wbits (s.rs 3) 63 61 = 0 ∧ Issues (.rteSnd h0 1 2 3) h0 s := by
  unfold Issues; decide +kernel
theorem witness_far_token :
    let s := cx [(2, 0), (3, 0x1000000000000000)]
    (s.rs 2).toNat % 64 = 0 ∧ wbits (s.rs 3) 63 61 = 0 ∧ (s.rs 2).toNat < 2 ^ 33 ∧ (s.rs 3).getLsbD 60 = true ∧ Issues (.rteSnd h0 1 2 3) h0 s := by
  unfold Issues; decide +kernel

/-! ## Engines, the governor, panes -/

/-- An identity map of the first 512 MiB for process 0 of function 0 on die 0. -/
def tl (s : State) : State := s.modDie 0 (fun d => { d with tlb := [{ proc := 0, vf := 0, page := 0, size := 29, pa := 0, pte := 0x1F }] })
theorem witness_engine_slots :
    let s := tl (cx [(1, 0x1000), (2, 0), (3, 0x2000000000000), (4, 12), (5, 0x7F), (6, 1), (7, 0x80000000)])
    let t := me s (fun c => { c with vaultwin := 0x1000000000000 })
    withheldEntries s.me < 256 ∧ s.who.cluster? = some 0 ∧ (t.who.onCore = true → t.me.vaultwin.getLsbD 48 = true) ∧
    chanCode (chanOf s 0 15) ≠ 1 ∧ otherTask s (chanOf s 0 0) = false ∧ (s.rs 3).toNat < 2 ^ 50 ∧ (s.rs 0) = 0 ∧ s.rs 1 ≠ 0 ∧ (s.rs 1).toNat % 64 = 0 ∧
    okAnd (resolve s s.who .atomic (Space.ofCode ((s.rs 3).extractLsb' 48 2)) (s.rs 1) 64) (fun r => !r.1.fabric) = true ∧ (s.rs 1).toNat % 128 = 0 ∧
    okAnd (resolveAccess s .store (Space.ofCode ((s.rs 2).extractLsb' 8 2)) (s.rs 1) 32 32) (fun r => r.1.length == 1) = true ∧
    wbits (s.rs 7) 63 32 = 0 ∧ wbits (s.rs 7) 30 18 = 0 ∧ walkerReg s.walker 9 = some 0 ∧ waitCount s.me.waits s.pos < stabTime s ∧
    waitCount (me s (fun c => { c with waits := [(0, 64)] })).me.waits s.pos = stabTime s ∧
    (∀ i ∈ [Instr.memcPhase h0 4 5], Issues i h0 t) ∧
    (∀ i ∈ [Instr.cpchGo h0 2 4, .cpchStop h0 2, .cpchSt h0 1 2, .memcRinv h0 0 1 3 4, .memcRinv h0 1 1 3 0, .memcCerr h0 2 1, .stabWr h0 1 5,
        .stabGo h0 5, .stabStop h0, .stabClr h0, .stabRd h0 1 5 6, .stabReg h0 1 6], Issues i h0 s ∨ Issues i h0 { s with who := .scribe 0 }) := by
  unfold Issues; decide +kernel
theorem witness_engine_slots_scribe :
    let s := tl (sc [(1, 0x1000), (2, 0), (3, 7), (4, 255), (5, 3)])
    withheldEntries s.me < 256 ∧ waitCount s.me.waits s.pos < rsemTime ∧
    ∀ i ∈ [Instr.memcCreg h0 2 3, .coll h0 1, .ring h0 1, .rsemSet h0 4 1, .rsemAdd h0 4 1, .rsemRd h0 1 4, .stabWr h0 1 4, .stabGo h0 4, .stabStop h0,
      .stabLink h0 2 2, .stabClr h0, .stabRd h0 1 4 5, .stabReg h0 1 2], Issues i h0 s := by unfold Issues; decide +kernel
/-- A state whose process 0 has governor table 0 with a policy. -/
def gv (s : State) : State := modGov s 0 (fun _ => { proc := some 0, kappa := some (0x3FF0000000000000, 1) })
theorem witness_governor :
    let s := tl ((gv (cx [(2, 4095), (3, 1), (4, 0x888), (5, 1023), (6, 0x1000)])).storeAt 0x1000 [0, 0, 0, 0, 0, 0, 0xF0, 0x3F, 1, 0, 0, 0, 0, 0, 0, 0])
    govTableOf s (s.procOf s.who) = some 0 ∧ (s.rs 2).toNat < 4096 ∧ setWordOk (s.rs 4) = true ∧ (s.rs 5).toNat < 1024 ∧ 0 < (s.rs 3).toNat ∧
    (s.rs 2).toNat + (s.rs 3).toNat ≤ 4096 ∧ (govTable s 0).kappa.isSome = true ∧ (s.rs 6).toNat % 16 = 0 ∧
    okAnd (resolve s s.who .load .m (s.rs 6) 16) (fun l =>
      let r := readSegs l.2 s.who [(l.1, 16)]
      let kappa := f64.decode (field r.1 0 8)
      decide (0 < latencyOf l.2 s.who l.1 false) && !r.2.1 && kappa.isFin && !kappa.isZero && !kappa.sign && field r.1 8 2 != 0 && zeroBytes r.1 10 6) = true ∧
    ∀ i ∈ [Instr.govRd h0 1 2 3, .govSet h0 2 4, .govClr h0 2, .gmeasMb h0 5 3, .gmeasTot h0 5 3, .gstep h0 1 2 3, .govPol h0 6],
      Issues i h0 s ∨ Issues i h0 { s with who := .scribe 0 } := by unfold Issues; decide +kernel
theorem witness_governor_scribe :
    let s := tl (gv (sc [(2, 4095), (3, 1), (4, 0x888), (5, 1023), (6, 0x1000)]))
    govTableOf s (s.procOf s.who) = some 0 ∧ ∀ i ∈ [Instr.govRd h0 1 2 3, .govSet h0 2 4, .govClr h0 2, .gmeasMb h0 5 3, .gmeasTot h0 5 3, .gstep h0 1 2 3,
      .govPol h0 6], Issues i h0 s := by unfold Issues; decide +kernel
theorem witness_policy :
    let s := (gv (sc [(6, 0x1000)])).storeAt 0x1000 [0, 0, 0, 0, 0, 0, 0xF0, 0x3F, 1, 0, 0, 0, 0, 0, 0, 0]
    let t := me (tl s) (fun c => { c with waits := [(0, 1000)] })
    let u := s.modDie 0 (fun d => { d with tlb := [{ proc := 0, vf := 0, page := 0, size := 29, pa := 2 ^ 51, pte := 0x1F }] })
    okAnd (resolve t t.who .load .m (t.rs 6) 16) (fun l => let r := readSegs l.2 t.who [(l.1, 16)]
      !l.1.fabric && decide (latencyOf l.2 t.who l.1 false ≤ waitCount t.me.waits t.pos) && !r.2.1 && (f64.decode (field r.1 0 8)).isFin) = true ∧
    okAnd (resolve u u.who .load .m (u.rs 6) 16) (fun l => l.1.fabric) = true ∧ Issues (.govPol h0 6) h0 t ∧ Issues (.govPol h0 6) h0 u := by
  unfold Issues; decide +kernel
theorem witness_governed_conversion : let s := gv (cx [(2, 4095)])
    govTableOf s (s.procOf s.who) = some 0 ∧ (s.rs 2).toNat < 4096 ∧ (govEntry s 0 4095).fmt = 2 ∧ Issues (.xcvt h0 1 2 2 2 true) h0 s ∧ Issues (.xcvt h0 1 2 2 2 false) h0 s := by
  unfold Issues; decide +kernel
theorem witness_tile_read : let s := px [(2, 0)] {}
    let p := paneOf s s.who.core (mainPane s 0)
    (s.me.panes.getD 0 none).isSome = true ∧ (p.tile 1).done ≤ s.me.icyc.toNat ∧ p.ops = [] ∧ (p.tile 1).poison = false ∧ coverOf s s.who ≠ 3 ∧
    wbits (s.rs 2) 15 14 = 0 ∧ wbits (s.rs 2) 63 20 = 0 ∧ p.t0.done ≤ s.me.icyc.toNat ∧ p.t1.done ≤ s.me.icyc.toNat ∧
    (∀ q, q < 4 → (1 : BitVec 4).getLsbD q = true → q = 0) ∧
    ∀ i ∈ [Instr.mxsvSt h0 1 3, .mxrd h0 1 3 2 0 4, .mxrd h0 1 3 2 9 0, .mxpnRd h0 3, .mxpnClaim h0 3 0xF, .mxpnRel h0 3 1], Issues i h0 s := by
  unfold Issues; decide +kernel
/-- A grant word with a granted pane, its physical pane and two claims that wait. -/
theorem witness_grants_word :
    let c : Ctx := { panes := (Vector.replicate 4 none).set 1 (some 3), claim := 0xC }
    c.panes.getD 1 none = some 3 ∧ grantWord c = 0xCC2 := by decide
/-- A region descriptor of one row of 32 elements with its planes in the pad: FP16 tiles are fetched from it. -/
def region1 : List Byte := [1, 0, 0, 0, 32, 0, 0, 0, 0, 0, 0, 2]
/-- A fetch whose pieces resolve, none under an effect of its own context that is not known. -/
def fetchOk (s : State) (p : Plan) : Bool := match p with
  | .go q d _ none s1 => okAnd (resolvePieces { s1 with ids := s1.ids + 1 } s.who .engRd d.space (tilePieces d q))
      (fun r => !r.1.any (fun x => ownUnknown r.2 s.who x.1 x.2))
  | _ => false
theorem witness_pane_operations :
    let s := (tl (px [(2, 0x1000), (4, 0x2000), (5, 2), (6, 0xB0FF00000000000 - 0xB0F000000000000)] {})).storeAt 0x1000 region1
    let p := paneOf s s.who.core (mainPane s 0)
    (s.me.panes.getD 0 none).isSome = true ∧ mainPane s 0 < 4 ∧ maskPanes 1 = [0] ∧ bankPlan s 0 false 2 = (2, 4) ∧ Fmt.gangOf 2 ≤ (bankPlan s 0 false 2).2 ∧
    fmtKind 2 = fmtKind (bankPlan s 0 false 2).1 ∧ wbits (s.rs 3) 63 52 = 0 ∧ (gangShape 4 = (24, 24)) ∧ (p.tile 0).done ≤ s.me.icyc.toNat ∧ p.ops = [] ∧
    (s.rs 4).toNat % 64 = 0 ∧ wbits (s.rs 5) 63 2 = 0 ∧ wbits (s.rs 5) 63 7 = 0 ∧ wbits (s.rs 5) 3 2 = 0 ∧ (p.tile 0).poison = false ∧
    okAnd (resolveRange s s.who .store .p 3 (s.rs 4) 64) (fun r => r.1.length == 1) = true ∧
    okAnd (resolve s s.who .engRd .p (s.rs 4) 64) (fun r => !ownUnknown r.2 s.who r.1 64 && !r.1.fabric) = true ∧
    okAnd (resolveRange s s.who .engRd .p 3 (s.rs 4) 64) (fun r => !r.1.any (fun x => ownUnknown r.2 s.who x.1 x.2 || x.1.fabric)) = true ∧
    fetchOk s (planFetch s (s.rs 2) (s.rs 3) 2 24 24 true) = true ∧ fetchOk s (planFetch s (s.rs 2) (s.rs 3) 2 1 24 false) = true ∧
    okAnd (resolveAccess s .load .p (s.rs 4) 8 8) (fun r => !r.1.any (fun x => ownUnknown r.2 s.who x.1 x.2)) = true ∧
    ∀ i ∈ [Instr.mxa h0 0 2 3 2 false false true, .mxav h0 0 1 2 false true true, .mxrk h0 0 2 3 2 true, .mxsvSave h0 0 4 5, .mxsvLd h0 0 4 5,
      .mxld h0 1 2 2 0 0 false true, .mxsc h0 1 4 0 2], Issues i h0 s := by unfold Issues; decide +kernel

/-! ## System families -/

/-- A program image of one context with no table, at 0x1000, and a task descriptor that names it, at 0x2000. -/
def image1 : List Byte := [72, 76, 81, 80, 2, 0, 0, 1, 0, 0, 0, 0, 0, 0, 0, 0, 232, 3, 0, 0, 0, 0, 0, 0, 1, 0, 0, 0, 64, 0, 0, 0, 64, 0, 0, 0, 0, 0, 0, 0, 0, 0, 0, 0, 0,
  0, 0, 0, 16, 0, 0, 0, 0, 0, 0, 0, 0, 0, 0, 0, 16, 180, 129, 243]
/-- A program image with one variant: its coverage level, contexts, panes, units, key, LANDING and well records. -/
def imageV (cover ctxs panes units key land : Nat) (wells : List Byte) : List Byte :=
  let code := 88 + wells.length
  let h := toBytes 4 0x50514C48 ++ [2, 0] ++ toBytes 1 cover ++ toBytes 1 ctxs ++ toBytes 4 units ++ [1] ++ toBytes 1 (wells.length / 16) ++ [0, 0] ++ toBytes 8 1000 ++ toBytes 4 1 ++
    toBytes 4 64 ++ toBytes 4 code ++ toBytes 12 land ++ toBytes 4 16 ++ toBytes 8 0
  h ++ toBytes 4 (crc32 h) ++ toBytes 2 key ++ toBytes 2 panes ++ toBytes 4 units ++ toBytes 8 code ++ toBytes 8 1000 ++ wells
/-- The outcome of TASK that a scribe's state leads to, as a number for each clause of `Claims.TaskResults`. -/
def taskPath (s0 : State) : Nat :=
  let s := s0.noted (.task h0 1 2)
  match readImage s s.who ((s.rs 2).toNat / 64 * 64) 64 with
  | .error f => if f.cause = 0 then 1 else 2
  | .ok (bs, s1) => if (descBad bs).isSome then 3 else (match readProgram s1 s1.who (field bs 0 8) with
    | .error r => if r.cause = 0 then 4 else 5
    | .ok (p, s2) => (match taskKey s2 s1.who bs with
      | .inr _ => 6
      | .inl key => (match decideLaunch s2 0 (field bs 8 1) key p with
        | .inr r => if r = 1 then 7 else 8
        | .inl (_, v, picks) => (match startTask s2 s1.who (.scribe 0) 0 (field bs 8 1) bs p v picks with
          | .error r => if r.cause = 0 then 9 else 10
          | .ok _ => if p.wells.isEmpty then 11 else 12))))
/-- A scribe whose launch word names the descriptor at 0x2000, with an image at 0x1000. -/
def launching (img desc : List Byte) : State := ((tl (sc [(2, 0x2000)])).storeAt 0x1000 img).storeAt 0x2000 desc
/-- A state whose pages map the fabric. -/
def overFabric (s : State) : State := s.modDie 0 (fun d => { d with tlb := [{ proc := 0, vf := 0, page := 0, size := 29, pa := 2 ^ 51, pte := 0x1F }] })
theorem witness_task :
    let s := launching image1 [0, 0x10]
    let o := (sc [(2, 0x2010), (3, 0x2020), (4, 0x2001)]).modTask 7 (fun t => { t with launcher := .scribe 0, started := true })
    let v := fun (key : Nat) (wells : List Byte) => launching (imageV 0 1 1 1 key 0 wells) [0, 0x10]
    let full := (List.range 8).foldl (fun (s : State) j => s.modCtx (.ctx 0 j) (fun c => { c with st := .halted })) s
    let well := fun (ea : Nat) => [3, 0, 1, 2, 0, 0, 0, 0] ++ toBytes 8 ea
    let far := s.modDie 0 (fun d => { d with tlb := d.tlb ++ [{ proc := 0, vf := 0, page := 1, size := 29, pa := 2 ^ 51, pte := 0x1F }] })
    (s.rs 2).getLsbD 5 = false ∧ (s.rs 2).getLsbD 4 = false ∧ (s.rs 2).toNat % 16 = 0 ∧ isCp s.who = false ∧ Issues (.task h0 1 2) h0 s ∧
    (o.rs 2).getLsbD 4 = true ∧ (o.rs 2).getLsbD 5 = false ∧ (o.rs 2).toNat % 16 = 0 ∧ (earlierTasks o o.who).length = 1 ∧ (o.rs 3).getLsbD 5 = true ∧
    (o.rs 4).toNat % 16 ≠ 0 ∧ (∀ a ∈ [2, 3, 4], Issues (.task h0 1 a) h0 o) ∧ isCp (.cp 3) = true ∧
    [overFabric s, sc [(2, 0x40000000)], launching image1 [0, 0x10, 0, 0, 0, 0, 0, 0, 0, 0, 0, 1], far.storeAt 0x2003 [0x20], launching [] [0, 0x10],
      launching image1 [0, 0x10, 0, 0, 0, 0, 0, 0, 0, 0, 1], v 5 [], full, v 0 (well 0x1001), v 0 []].map taskPath =
      [1, 2, 3, 4, 5, 6, 7, 8, 10, 11] := by unfold Issues; decide +kernel
/-- The launch of an image on core 0, and the variant and panes that it picks. -/
def launched (img : List Byte) : Option (State × State × Program × Variant × List Nat) :=
  match readProgram (launching img []) (.scribe 0) 0x1000 with
  | .error _ => none
  | .ok (p, s) => (match decideLaunch s 0 0 0 p with
    | .inr _ => none
    | .inl (_, v, picks) => (match startTask s (.scribe 0) (.scribe 0) 0 0 ([0, 0x10] ++ List.replicate 62 0) p v picks with
      | .error _ => none
      | .ok t => some (s, t, p, v, picks)))
/-- Members of index 0 and 1 of a task whose variant takes one pane, and of one that takes a pair under coverage level 3. -/
theorem witness_member :
    (launched (imageV 0 2 1 1 0 0xFFF [])).any (fun x => (((freeCtxs x.1 0).take (field x.2.2.1.head 7 1))[1]? == some 1) &&
      panePicks x.1 0 (field x.2.2.1.head 6 1) x.2.2.2.1.panes == some x.2.2.2.2 && x.2.2.2.2 == [0] &&
      (x.2.1.ctx (.ctx 0 0)).panes.getD 0 none == some 0 && (x.2.1.ctx (.ctx 0 1)).panes.getD 0 none == none && (x.2.1.ctx (.ctx 0 1)).live.getS 2 == 1) = true ∧
    (launched (imageV 3 1 1 3 0 0 [])).any (fun x => ((freeCtxs x.1 0).take (field x.2.2.1.head 7 1))[0]? == some 0 && field x.2.2.1.head 6 1 == 3 &&
      panePicks x.1 0 3 x.2.2.2.1.panes == some x.2.2.2.2 && (paneOf x.2.1 0 1).owner == some (0, 0)) = true := by decide +kernel
theorem witness_task_refused :
    let s := (List.range 8).foldl (fun (s : State) k => (List.range 8).foldl (fun (s : State) j => s.modCtx (.ctx k j) (fun c => { c with st := .halted })) s)
      ((tl (sc [(2, 0x2000)])).storeAt 0x1000 image1)
    (match launch s s.who (.scribe 0) 0 ([0, 0x10] ++ List.replicate 62 0) with
      | .ok x => !x.1.getLsbD 0 && wbits x.1 3 1 != 0
      | .error _ => false) = true := by decide +kernel
/-- The outcome of DSPJ that a scribe's state leads to, as a number for each clause of `Claims.DispatchResults`. -/
def dispatchPath (s0 : State) : Nat :=
  let s := s0.noted (.dspj h0 1 2 3)
  let n := s.rs 3
  let takes := fun (bs : List Byte) =>
    let es := dispatchEntries bs
    if (List.range 8).any (fun i => field bs (16 * i + 4) 4 != 0) then 7 else if !dispatchOrdered 0 es then 8
    else if n = 0 then 10 else if es.all (fun e => decide (e.1 < n.toNat)) then 9
    else (match es.find? (fun e => e.1 != 0 && decide (n.toNat ≤ e.1)) with
      | some e => if e.2 % 4 = 0 then 12 else 11
      | none => 0)
  match resolveAccess s .load .m (s.rs 2) 128 128 with
  | .error _ => 1
  | .ok (segs, s') => (match segs with
    | [(l, 128)] =>
      if l.fabric then (match farRead s' s'.who .slot .load (s.rs 2) l 128 with
        | .error f => if f.cause = 0 then 2 else 3
        | .ok bs => 100 + takes bs)
      else if waitCount s.me.waits s.pos < latencyOf s' s'.who l false then 4
      else
        let r := readSegs s' s'.who [(l, 128)]
        if r.2.1 then 5 else if l.coded.isNone && !((s'.core 0).l1.get {} (lineKey l)).owned then takes r.1 else 0
    | _ => 0)
theorem witness_dispatch :
    let s := fun (n : Nat) (bs : List Byte) => me ((tl (sc [(2, 0x1000), (3, n)])).storeAt 0x1000 bs) (fun c => { c with waits := [(0, 1000)] })
    let ok := s 1 [1, 0, 0, 0, 0, 0, 0, 0, 0x40]
    let far := fun (f : FarRead) => me (overFabric (sc [(2, 0x1000), (3, 0)])) (fun c => { c with far := [{ f with use_ := .slot, key := 2 ^ 51 + 0x1000, len := 128 }] })
    (∀ x ∈ [ok, s 0 []], Issues (.dspj h0 1 2 3) h0 x) ∧ ok.who.onCore = false ∧
    [sc [(2, 0x1001)], overFabric (sc [(2, 0x1000)]), far { use_ := .slot, id := 1, key := 0, len := 0, cause := 0x21 },
      far { use_ := .slot, id := 1, key := 0, len := 0, got := some (List.replicate 128 0) }, me ok (fun c => { c with waits := [] }), { ok with poison := [0x1000 / 8] },
      s 1 [1, 0, 0, 0, 1], s 1 (List.replicate 16 0 ++ [1]), s 2 [1], s 0 [], s 1 [1, 0, 0, 0, 0, 0, 0, 0, 0x41], ok].map dispatchPath =
      [1, 2, 3, 110, 4, 5, 7, 8, 9, 10, 11, 12] := by unfold Issues; decide +kernel
/-- A scribe with context 0 of core 1 stopped. -/
def stopped (s : State) : State := s.modCtx (.ctx 1 0) (fun c => { c with st := .stopped })
theorem witness_context_access :
    let s := sc [(2, 8), (3, 0x001F), (4, 0x7008)]
    targetOf s (s.rs 2) = some (.ctx 1 0) ∧ (s.rs 3).toNat < 2 ^ 16 ∧ (s.rs 4).toNat < 2 ^ 16 ∧ ctxIndexOk 0 31 = true ∧ ctxValueOk 0 31 (s.rs 4) = true ∧
    ((stopped s).ctx (.ctx 1 0)).st = .stopped ∧ (s.ctx (.ctx 1 0)).st ≠ .stopped ∧
    ∀ i ∈ [Instr.ctxRd h0 1 2 3, .ctxWr h0 4 2 3], Issues i h0 s ∧ Issues i h0 (stopped s) := by unfold Issues; decide +kernel
/-- A scribe with a stopped member of task 7 in context 0 of core 1. -/
def member (xs : List (Nat × Nat)) : State :=
  (((stopped (tl (sc xs))).modCtx (.ctx 1 0) (fun c => { c with task := some 7 })).modTask 7 (fun t => { t with ctxs := [8], started := true, core := 1 }))
theorem witness_context_save :
    let s := { member [(2, 8), (3, 0x10000)] with mem := [], leases := [] }
    targetOf s (s.rs 2) = some (.ctx 1 0) ∧ (s.rs 3).toNat % 4096 = 0 ∧ (s.ctx (.ctx 1 0)).st = .stopped ∧ saveReady s (.ctx 1 0) = true ∧
    saveReady (s.modCtx (.ctx 1 0) (fun c => { c with flight := [{ id := 3, kind := .load, dist := 1, arrived := false }] })) (.ctx 1 0) = false ∧
    (let u := landErrors ((settleScales s (.ctx 1 0)).writeBackAll 1 (.ctx 1 0)) (.ctx 1 0) (fun e => e.kind == .load && e.arrived && e.fault.isSome)
     okAnd (putImage u (s.rs 3) (contextImage u (.ctx 1 0))) (fun _ => true) = true) ∧
    ∀ i ∈ [Instr.csvSave h0 2 3, .csvFree h0 2], Issues i h0 s := by unfold Issues; decide +kernel
/-- A free context, a saved member and its image, a header of which few bytes are not zero. -/
def savedImage : State :=
  { (member [(2, 8), (3, 0x10000)]).modCtx (.ctx 1 0) (fun _ => {}) with
    leases := []
    saved := [{ image := 0x10000, task := 7, who := .ctx 1 0, banks := List.replicate 8 [] }]
    mem := [(0x10000, 88), (0x10001, 67), (0x10002, 81), (0x10003, 80), (0x10004, 2), (0x100A1, 16), (0x100A9, 16), (0x100B1, 128), (0x100B9, 144),
      (0x100C9, 144), (0x100D9, 144), (0x100E9, 144), (0x100F9, 144), (0x10360, 1), (0x10362, 1)] }
theorem witness_context_restore :
    let s := savedImage
    (s.ctx (.ctx 1 0)).st = .free ∧ (s.ctx (.ctx 1 0)).task = none ∧ (restorable s (s.rs 3)).isSome = true ∧ (memberAt s (s.rs 3)).isSome = true ∧
    Issues (.csvLd h0 2 3) h0 s ∧ Issues (.csvEnd h0 3) h0 s := by unfold Issues; decide +kernel
theorem witness_restored_image : okAnd (loadImage savedImage 0x10000) (fun r =>
    okAnd (restoreImage r.2 (.ctx 1 0) { image := 0x10000, task := 7, who := .ctx 1 0, banks := List.replicate 8 [] } r.1 8) (fun _ => true)) = true := by
  decide +kernel
theorem witness_invalidation :
    let s := sc [(2, 31)]
    s.who.die < 4 ∧ (s.rs 2).toNat < 32 ∧ ∀ i ∈ [Instr.tlbiAll h0 true, .tlbiVf h0 2 false, .tlbiPg h0 2 3 true], Issues i h0 s := by unfold Issues; decide +kernel
theorem witness_invalidation_waits :
    let s := (sc [(2, 31)]).modDie 0 (fun d => { d with walks := [{ who := .ctx 0 0, cl := 0, fin := 5 }] })
    (tlbiDies s false).any (walkRuns s (s.cc - waitCount s.me.waits s.pos)) = true ∧
    (tlbiDies (sc []) true).any (walkRuns (sc []) ((sc []).cc - waitCount (sc []).me.waits (sc []).pos)) = false := by decide +kernel
theorem witness_monitors :
    let s := sc [(2, 3), (3, 0x0307), (4, 1)]
    monSel s (s.rs 2) = some (.core 0 3) ∧ (s.rs 3).toNat < 2 ^ 16 ∧ 1 ≤ (s.rs 3).toNat % 256 ∧ (s.rs 3).toNat % 256 ≤ 7 ∧ 1 ≤ (s.rs 4).toNat % 256 ∧
    ∀ i ∈ [Instr.monCfg h0 2 3, .monCfg h0 2 4, .monClr h0 2, .monRd h0 1 2], Issues i h0 s := by unfold Issues; decide +kernel
theorem witness_switch :
    let s := tl (me (sc [(2, 0), (3, 0x10000)]) (fun c => { c with waits := [(0, 66)] }))
    let t := s.modCtx (.ctx 1 0) (fun c => { c with st := .waiting })
    (s.rs 2).toNat < 32 ∧ worldSwitchTime ≤ waitCount s.me.waits s.pos ∧ waitCount (sc []).me.waits 0 < worldSwitchTime ∧
    liveReached s s.who (s.rs 2).toNat = [] ∧ liveReached t t.who (t.rs 2).toNat = [.ctx 1 0] ∧ Agent.ctx 1 0 ∈ reached s.who ∧ live t (.ctx 1 0) = true ∧
    t.vfOf (.ctx 1 0) = (s.rs 2).toNat ∧ (t.ctx (.ctx 1 0)).stopReq = none ∧ okAnd (putImage s (s.rs 3) (monitorImage s s.who.die 0)) (fun _ => true) = true ∧
    okAnd (readImage s s.who (s.rs 3).toNat 8192) (fun _ => true) = true ∧
    ∀ i ∈ [Instr.wswOut h0 2 3, .wswIn h0 2 3], Issues i h0 s ∧ Issues i h0 t := by unfold Issues; decide +kernel
theorem witness_debug :
    let s := sc [(2, 8), (3, 0x408), (4, 0x1000001)]
    targetOf s (s.rs 2) = some (.ctx 1 0) ∧ targetOf s (s.rs 3) 11 = some (.ctx 1 0) ∧ ((stopped s).ctx (.ctx 1 0)).st = .stopped ∧
    running (s.modCtx (.ctx 1 0) (fun c => { c with st := .waiting })) (.ctx 1 0) = true ∧ (s.rs 4).getLsbD 1 = false ∧ wbits (s.rs 4) 63 57 = 0 ∧
    ∀ i ∈ [Instr.dbgStep h0 2, .dbgStop h0 2, .dbgBrk h0 3 4], Issues i h0 s ∧ Issues i h0 (stopped s) := by unfold Issues; decide +kernel
theorem witness_configuration :
    let s := stopped (ag (.cp 0) [(2, 8), (3, 1), (4, 2), (5, 3), (6, 4), (7, 0x12), (8, 0x20), (9, 0x7F), (10, 0x1000), (11, 0x04000001)])
    targetOf s (s.rs 2) = some (.ctx 1 0) ∧ (s.ctx (.ctx 1 0)).st = .stopped ∧
    (∀ p ∈ [((3 : BitVec 5), CfgReg.share), (4, .owner), (5, .padwin), (6, .vaultwin), (7, .metaName), (8, .pkgid), (9, .group 63)],
      cfgReg (s.rs p.1).toNat = some p.2 ∧ cfgDenied s p.2 = false ∧ Issues (.cfgRd h0 1 2 p.1) h0 s) ∧
    (∀ p ∈ [((11 : BitVec 5), CfgReg.share), (0, .owner), (0, .padwin), (0, .vaultwin), (10, .metaName), (3, .pkgid), (0, .group 63)],
      cfgValueOk p.2 (s.rs p.1) = true ∧ Issues (.cfgWr h0 p.1 2 3) h0 s) := by unfold Issues; decide +kernel

/-! ## Steps without an encoding -/

theorem witness_governor_events :
    let s := { gv State.reset with govQ := [(1, .set 0 5 0x888), (2, .clr 0 5), (3, .step 0 0 8 (.ctx 0 0) 9)] }
    (govTable s 0).proc = some 0 ∧ (31 < 32 ∧ 1023 < 1024) ∧ s.govQ.find? (fun e => e.1 == 1) = some (1, .set 0 5 0x888) ∧
    s.govQ.find? (fun e => e.1 == 2) = some (2, .clr 0 5) ∧ s.govQ.find? (fun e => e.1 == 3) = some (3, .step 0 0 8 (.ctx 0 0) 9) ∧
    (govTable s 0).kappa = some (0x3FF0000000000000, 1) := by decide +kernel
/-- Queue 5 of process 0: one element, in its storage at 0x1000. -/
def stored (h : Option Nat) : State := (tl State.reset).modQueue 5 (fun q => { q with present := true, log2cap := 1, store := 0x1000, pushed := 1, els := [(77, true)], home := h })
theorem witness_residency :
    let s := stored none
    let t := stored (some 0)
    let full := (List.range 64).foldl (fun (u : State) n => u.modQueue (100 + n) (fun q => { q with present := true, home := some 0 })) s
    (s.queue 5).present = true ∧ (s.queue 5).home = none ∧ residents s 0 < 64 ∧ 64 ≤ residents full 0 ∧ (full.queue 5).present = true ∧
    okAnd (readElements (s.given (.qresBringIn 0 5 0)) 0 (s.vfOf (.scribe 0)) (.scribe 0) (s.queue 5) 1 0) (fun r => r.1.length == 1) = true ∧
    (s.queue 6).present = false ∧ (t.queue 5).home = some 0 ∧ pinned t (t.queue 5) = false ∧ (t.queue 5).head = none ∧ (t.queue 5).resv = 0 ∧
    popsHeld t 5 = false ∧ popsHeld (t.modCtx (.ctx 0 0) (fun c => { c with held := [{ pos := 0, word := 0, bund := 0, eff := .qpop 5 }] })) 5 = true ∧
    okAnd (writeElements (t.given (.qresTakeOut 0 5)) 0 (t.vfOf (.scribe 0)) (.scribe 0) (t.queue 5) (t.queue 5).els 0) (fun _ => true) = true := by decide +kernel
theorem witness_boundaries :
    let a := Agent.ctx 0 0
    let s := cx []
    let r : TrapRec := { cause := 0x20 }
    a.ok = true ∧ ((me s (fun c => { c with pendHeld := some r })).ctx a).pendHeld = some r ∧
    ((me s (fun c => { c with pend := [r, r] })).ctx a).pendHeld = none ∧ ((me s (fun c => { c with pend := [r, r] })).ctx a).pend = r :: [r] ∧ causeDue s.cc r = true ∧
    ((me s (fun c => { c with wait := some {} })).ctx a).wait = some {} ∧ ((me s (fun c => { c with stopReq := some (0x74, 3) })).ctx a).stopReq = some (0x74, 3) := by
  decide +kernel
/-- A released effect of context 0 of core 0. -/
def released (e : Effect) : State := { cx [] with relqs := [(Agent.relKey (.ctx 0 0), [{ id := 3, who := .ctx 0 0, w := { pos := 0, word := 0, bund := 0, eff := e } }])] }
theorem witness_arrivals :
    let a := Agent.ctx 0 0
    let fl := fun (f : Option TrapRec) => me (cx []) (fun c => { c with flight := [{ id := 3, kind := .load, dist := 1, arrived := false, waits := 1, fault := f }] })
    a.ok = true ∧ nextEffect (cx []) [] ((cx []).relqs.get [] a.relKey) = none ∧
    (nextEffect (released (.rsem 0 255 true 65535)) [] ((released (.rsem 0 255 true 65535)).relqs.get [] a.relKey)).map (·.w.eff) = some (.rsem 0 255 true 65535) ∧
    (nextEffect (released (.store 1 0 0 0 0 [])) [] ((released (.store 1 0 0 0 0 [])).relqs.get [] a.relKey)).map (·.id) = some 3 ∧
    ((fl none).ctx a).flight = [] ++ { id := 3, kind := .load, dist := 1, arrived := false, waits := 1 } :: [] ∧
    ((fl (some { cause := 0x51 })).ctx a).flight = [] ++ { id := 3, kind := .load, dist := 1, arrived := false, waits := 1, fault := some { cause := 0x51 } } :: [] ∧
    ((fl none).ctx a).st = .front := by decide +kernel
theorem witness_landing_errors :
    let e : Flight := { id := 3, kind := .load, dist := 0, fault := some { cause := 0x51 } }
    landsBad e = true ∧ e ∈ ((me (cx []) (fun c => { c with flight := [e] })).ctx (.ctx 0 0)).flight ∧
    ((me (cx []) (fun c => { c with flight := [e] })).ctx (.ctx 0 0)).st = .front ∧
    ({ id := 3, kind := .load, dist := 1, arrived := false, waits := 1, fault := some { cause := 0x26, dfr := true } } : Flight).fault = some { cause := 0x26, dfr := true } ∧
    (((cx []).core 0).istore.filter (fun x => x.1 % 128 == 5 % 128)).length ≤ 4 := by decide
theorem witness_boundary_stop : ((me (cx []) (fun c => { c with stopReq := some (0x70, 0) })).ctx (.ctx 0 0)).stopReq = some (0x70, 0) ∧
    ((me (cx []) (fun c => { c with stopReq := some (0x72, 5) })).ctx (.ctx 0 0)).stopReq = some (0x72, 5) := by decide
/-- Task 7 with a context on core 1 that is free, or halted, and one in front of its core. -/
def tasked (st : CtxSt) : State :=
  (State.reset.modCtx (.ctx 1 0) (fun c => { c with task := some 7, st := st })).modTask 7 (fun t => { t with ctxs := [8], started := true, core := 1 })
theorem witness_tasks :
    let s := tasked .free
    let t := tasked .halted
    (s.ctx (agentOf 8)).task = some 7 ∧ (s.ctx (agentOf 8)).st = .free ∧ taskDone s 7 = false ∧ taskDone t 7 = true ∧ (s.task 7).started = true ∧
    (s.task 7).expired = false ∧ ((tasked .front).ctx (.ctx 1 0)).st = .front ∧ ((tasked .front).ctx (.ctx 1 0)).overrun = false ∧
    ((tasked .front).ctx (.ctx 1 0)).runFrom + ((tasked .front).core 1).yq ≤ ({ tasked .front with cc := 1048576 } : State).cc ∧
    (s.ctx (.scribe 63)).st ≠ .front ∧ scribeWordBad 0x1FFFFFFFFFFFFFD = false ∧ scribeWordBad 0 = false := by decide +kernel
/-- Pane 3 of core 5 with operations. -/
def paned (os : List PaneOp) : State := State.reset.modCore 5 (fun k => { k with panes := k.panes.set 3 { ops := os } })
theorem witness_panes :
    let o : PaneOp := { id := 4, fam := .mxa, who := .ctx 5 0 }
    let l : PaneOp := { o with fam := .mxld, req := some {}, started := true }
    let f : PaneOp := { o with fault := some { cause := 0x20 } }
    (nextStart ((paned [o]).given (.paneOperationStart 5 3)) [] (paneOf (paned [o]) 5 3).ops).map (·.2.1.id) = some 4 ∧
    (paneOf (paned [l]) 5 3).ops.find? (fun o => o.started && o.replay.isNone && decide (o.doneCc ≤ (paned [l]).cc)) = some l ∧
    (paneOf (paned [{ o with started := true }]) 5 3).ops.find? (fun o => o.started && o.replay.isNone && decide (o.doneCc ≤ 0)) = some { o with started := true } ∧
    (paneOf (paned [{ o with replay := some 0 }]) 5 3).ops.find? (fun o => o.replay == some 0) = some { o with replay := some 0 } ∧
    (paneOf (paned [f]) 5 3).ops.find? (fun o => o.fault.isSome) = some f := by decide +kernel
theorem witness_pane_restores :
    let o : PaneOp := { id := 4, fam := .restore, who := .ctx 5 0, buf := List.replicate 64 0 }
    let b : PaneOp := { o with buf := List.replicate 64 0xFF }
    (∀ x ∈ [o, b], (nextStart ((paned [x]).given (.paneOperationStart 5 3)) [] (paneOf (paned [x]) 5 3).ops).map (·.2.1) = some x) ∧
    tileImageBad o.buf = false ∧ tileImageBad b.buf = true := by decide +kernel
theorem witness_pane_saves :
    let v : PaneOp := { id := 4, fam := .save, who := .ctx 5 0, started := true }
    (paneOf (paned [v]) 5 3).ops.find? (fun o => o.started && o.replay.isNone && decide (o.doneCc ≤ 0)) = some v ∧
    ((paned [v]).relqs.get [] v.who.relKey).any (fun r => r.who == v.who && decide (r.id < v.id)) = false ∧ (paned [v]).remotePending v.who 5 = false ∧
    (paned [v]).turns.any (performsBefore 5) = false ∧ ([Turn.perform (.ctx 4 0)]).any (performsBefore 5) = true ∧
    (({ id := 9, fam := .mxld, who := .ctx 5 0 } : PaneOp) ∈
      (paneOf (paned [{ id := 4, fam := .mxld, who := .ctx 5 0, fault := some { cause := 0x20 } }, { id := 9, fam := .mxld, who := .ctx 5 0 }]) 5 3).ops) := by decide +kernel
theorem witness_grants :
    let s := State.reset.modCtx (.ctx 5 7) (fun c => { c with claim := 0xF })
    let t := s.modCore 5 (fun k => { k with panes := k.panes.set 3 { owner := some (0, 0) } })
    (s.ctx (.ctx 5 7)).claim ≠ 0 ∧ (∀ j, j < 8 → j ≠ 7 → (s.ctx (.ctx 5 j)).claim = 0) ∧ claimFits s (.ctx 5 7) 0xF = true ∧ claimFits t (.ctx 5 7) 0xF = false := by
  decide +kernel
/-- Re-encodes from a region in the pad of cluster 0, one whose base is not at a tile. -/
def recoding (base : Byte) : State :=
  { (State.reset.modCtx (.ctx 0 0) (fun c => { c with padwin := 0x400000 })) with
    reencs := [(1, { desc := [1, 0, 0, 0, 32, 0, 0, 0, 0, 0x80, 2, 2] ++ List.replicate 20 0 ++ [base], who := .ctx 0 0, id := { padwin := 0x400000 }, fmt := 2 })] }
/-- The planes of the re-encode of `recoding` in its source and in its new encoding, and the state that they leave, where they resolve. -/
def reencSegs (s : State) : Option (List (Loc × Nat) × List (Loc × Nat) × State) :=
  match s.reencs.find? (fun e => e.1 == 1) with
  | some (_, r) => (match parseDesc r.desc with
    | some d =>
      let src := sourceEnc s r d
      (match asIdent s r.who r.id (fun s => resolveTiles s r.who .engRd d.space ((encTiles d src.1 src.2).map (·.2))) with
      | .ok (so, s1) => (match asIdent s1 r.who r.id (fun s => resolveTiles s r.who .engWr d.space ((encTiles d r.fmt r.b32).map (·.2))) with
        | .ok (sn, s2) => some (so, sn, s2)
        | .error _ => none)
      | .error _ => none)
    | none => none)
  | none => none
/-- A lease over the first bytes of the pad of cluster 0. -/
def padLease (k : LeaseKind) : Lease := { kind := k, lo := linOf (padLoc 0), hi := linOf (padLoc 0) + 1, who := .scribe 0, ref := 77 }
/-- A re-encode that may start; one that a bounded lease, another's re-encode, a well's lease, poison holds back or fails. -/
theorem witness_reencodes :
    let starts := fun (s : State) => (reencSegs s).any (fun x =>
      !reencBehind x.2.2 1 (x.2.2.reencs.get {} 1) && !x.2.1.all (fun g => tagOf x.2.2 g.1 == tagWord false 2 0) && x.1.length == 1)
    let wells := fun (s : State) => (reencSegs s).any (fun x => (leasedBy x.2.2 (fun y => y.kind == .well || y.kind == .coll) (x.1 ++ x.2.1)).isSome)
    let waits := fun (s : State) => (reencSegs s).any (fun x =>
      (leasedBy x.2.2 (fun y => y.kind == .reenc || (y.kind == .fetch && !(notAwaited x.2.2 1).contains y.ref)) (x.1 ++ x.2.1)).isSome)
    let poison := fun (s : State) => (reencSegs s).any (fun x => x.1.any (fun g => x.2.2.poisonedAt g.1 g.2))
    let s := recoding 0
    let leased := fun (k : LeaseKind) => { s with leases := [padLease k] }
    let bad : State := { s with poison := [padKey 0 0 / 8] }
    ((s.reencs.find? (fun e => e.1 == 1)).any (fun e => e.2.waiters.isEmpty) && starts s && !wells s && !waits s && !poison s && wells (leased .well) &&
      starts (leased .well) && !waits (leased .well) && waits (leased .reenc) && waits (leased .fetch) && poison bad && starts bad && !waits bad && !wells bad) = true := by decide +kernel
theorem witness_reencode_writes :
    (∀ c, ((recoding 0).core c).l1 = []) ∧ ((reencSegs ({ recoding 0 with ev := .reencodeEnd 1 })).any (fun x => x.2.1.all (fun g => g.1.coded.isNone) &&
      x.2.1.length == 1)) = true := by
  refine ⟨fun c => rfl, by decide +kernel⟩
theorem witness_failed_reencode :
    (match (recoding 1).reencs.find? (fun e => e.1 == 1) with
      | some (_, r) => (match parseDesc r.desc with
        | some d => okAnd (asIdent (recoding 1) r.who r.id (fun s => resolveTiles s r.who .engRd d.space ((encTiles d (sourceEnc (recoding 1) r d).1 (sourceEnc (recoding 1) r d).2).map (·.2)))) (fun _ => true)
        | none => true)
      | none => true) = false := by decide +kernel
/-- Channel 15 of cluster 0, copying one line from pad address 0 to pad address 0x1000, with its semaphore 63. -/
def chanDesc : List Byte := [0, 0, 0, 0, 0, 0, 0, 0, 0, 0x10, 0, 0, 0, 0, 0, 0, 128, 0, 0, 0, 2, 2, 0, 0, 0, 0x7F]
/-- That channel with some lines done. -/
def copying (n : Nat) : State :=
  (State.reset.modCtx (.ctx 0 0) (fun c => { c with st := .front })).modCluster 0 (fun c =>
    { c with chans := c.chans.put {} 15 { st := .running, desc := chanDesc, who := .ctx 0 0, id := { padwin := 0x400000 }, done := n, srcPos := n } })
theorem witness_copies :
    let s := copying 0
    let c := chanOf s 0 15
    c.st = .running ∧ c.waits = none ∧ c.nextCc ≤ s.cc ∧ s.agenda = [] ∧ c.stop = false ∧ chanTouching s 0 15 = false ∧ c.done < field c.desc 0x10 4 ∧
    field c.desc 0x10 4 ≤ (chanOf (copying 128) 0 15).done ∧ bits (field c.desc 0x16 1) 1 0 = 0 ∧ c.well = none ∧ c.bar = none ∧ bit (field c.desc 0x15 1) 4 = false ∧
    c.raw = [] ∧ c.out = [] ∧ c.srcPos = c.done ∧ c.task = none ∧ (s.ctx c.who).task = none ∧ (s.ctx c.who).st = .front ∧
    okAnd (chanPlace (s.given (.copyLineWrite 0 15)) c .engRd (field c.desc 0x14 1) (field c.desc 0 8 + c.done) 128 128) (fun a =>
      a.1 == padLoc 0 && !a.2.poisoned a.1.key 128 &&
      okAnd (chanPlace (modChan a.2 0 15 (fun c => { c with raw := [], out := a.2.bytesAt a.1.key 128, srcPos := c.srcPos + 128 }))
        { c with raw := [], out := a.2.bytesAt a.1.key 128, srcPos := c.srcPos + 128 } .engWr (field c.desc 0x15 1) (field c.desc 8 8 + c.done) 128 128)
        (fun b => b.1 == padLoc 0x1000 && (leaseMet b.2 (.scribe 0) b.2.ids b.1 128).isNone)) = true := by decide +kernel
theorem witness_memory_engines :
    let s := { State.reset.modCluster 0 (fun c => { c with moving := true, moveSteps := 1, moveHi := 2 ^ 23, moveSem := some 63 }) with
      rinvs := [(1, { cores := [511], len := 128 })] }
    (s.cluster 0).moving = true ∧ (s.cluster 0).moveEnd ≤ s.cc ∧ (s.cluster 0).moveQ = [] ∧ (State.reset.cluster 0).moving = false ∧
    s.rinvs.find? (fun e => e.1 == 1) = some (1, { cores := [511], len := 128 }) ∧ 511 ∈ ({ cores := [511], len := 128 } : Rinv).cores := by decide +kernel
/-- The header of a message of the downstream neighbour of `walking`. -/
def downHdr : MsgHdr := { pkg := 2, die := 0, dest := 0, tag := 0 }
/-- A die's ring engine with an operation. -/
def ringing (o : RingOp) : State :=
  (tl (State.reset.modCtx (.scribe 0) (fun c => { c with st := .front }))).modDie 0 (fun d => { d with ring := some o, rsem := d.rsem.put 0 5 1 })
/-- A collective operation of one buffer of four bytes, and a chunk of it, in a group of `n` of which this die has rank `rank` and is its own successor. -/
def collOp : RingOp := { nbuf := 1, bufs := [0x10000], lens := [4], own := [1, 2, 3, 4], who := .scribe 0 }
def collChunk (rank : Nat) (result : Bool) : CollChunk :=
  { pkg := 0, die := 0, grp := 0, no := 0, op := 0, fmt := 0, nbuf := 1, lens := [4], rank := rank, tag := 0, idx := 0, result := result, bad := false, bytes := [1, 2, 3, 4] }
def grouped (o : RingOp) (n rank : Nat) : State :=
  (ringing o).modDie 0 (fun d => { d with group := d.group.put 0 0 (BitVec.ofNat 64 (n - 1 + rank * 2 ^ 16)) })
theorem witness_rings :
    let o := collOp
    let s := grouped o 3 1
    let ck := collChunk 0 false
    let put := fun (s : State) (ck : CollChunk) (on : Bool) =>
      let o' := { o with pred := some (ck.pkg, ck.die) }
      let u := (s.given (.collectiveChunk 0 ck)).modDie 0 (fun d => { d with ring := d.ring.map (fun o => { o with pred := some (ck.pkg, ck.die) }) })
      okAnd (opSegs (if on then sendColl u 0 o' ck.idx true ck.bytes else u) o' .engWr 0x10000 4) (fun r => r.1.length == 1)
    (Ev.collectiveChunk 0 ck).ok = true ∧ (State.reset.die 0).ring = none ∧ (s.die 0).ring = some o ∧ o.coll = true ∧ ck.bad = false ∧ ck.no = o.no ∧ groupOf s 0 0 = (3, 1, 0, 0) ∧
    (ck.rank + 1) % 3 = 1 ∧ groupOf (grouped o 3 2) 0 0 = (3, 2, 0, 0) ∧ groupOf (grouped o 3 0) 0 0 = (3, 0, 0, 0) ∧ groupOf (ringing o) 0 0 = (1, 0, 0, 0) ∧
    (chunkTable o.lens)[0]? = some (0, 0, 4, 0) ∧ put (grouped o 3 2) (collChunk 1 false) true = true ∧ put (grouped o 3 0) (collChunk 2 true) true = true ∧
    put s (collChunk 0 true) false = true ∧ o.nextCc ≤ s.cc ∧ (s.die 0).ringQ = [] ∧ o.task = none ∧ (s.ctx o.who).task = none ∧ (s.ctx o.who).st = .front ∧
    ringCount s 0 true 1 ≤ ck.no ∧ (collChunk 1 false).rank ≠ ck.rank ∧
    (match exec .collectiveChunk ((grouped o 1 0).given (.collectiveChunk 0 (collChunk 0 false))) with
      | .next t => (ringMembers t 0 0).all (fun d => wroteAll t d 0 0) && ringMembers t 0 0 == [0]
      | _ => false) = true := by decide +kernel
/-- The last result of a group that spans packages at rank 1 of 3, whose notice then goes on from rank 0 and ends at rank 1. -/
theorem witness_ring_notices :
    let o : RingOp := { collOp with wrote := 1 }
    let ck : CollChunk := { collChunk 2 true with idx := 1 }
    ck.result = true ∧ ck.idx = (chunkTable o.lens).length ∧ wroteAll (grouped o 3 0) 0 o.grp o.no = true ∧ wroteAll (grouped o 3 1) 0 o.grp o.no = true ∧
    (ck.rank + 1) % 3 = 0 ∧ (collChunk 0 true).rank + 1 = 1 ∧ (0 + 1) % 3 + 2 = 3 ∧ (1 + 1) % 3 + 2 ≠ 3 ∧ groupOf (grouped o 3 0) 0 0 = (3, 0, 0, 0) ∧
    (match exec .collectiveChunk ((grouped collOp 3 1).given (.collectiveChunk 0 (collChunk 0 true))) with
      | .next t => (ringMembers t 0 0).length != 3 && wroteAll t 0 0 0
      | _ => false) = true := by decide +kernel
/-- 15 R282, R296: dies 0, 1 and 2 hold ranks 1, 0 and 2 of a ring of three; die 3, whose register holds its reset value, is no member of it. -/
theorem test_ring_members :
    let reg := fun (rank succ : Nat) => BitVec.ofNat 64 (2 + rank * 2 ^ 16 + succ * 2 ^ 48)
    let put := fun (s : State) (die rank succ : Nat) => s.modDie die (fun d => { d with group := d.group.put 0 0 (reg rank succ) })
    let s := put (put (put State.reset 0 1 2) 1 0 0) 2 2 1
    ringMembers s 0 0 = [0, 1, 2] ∧ ringMembers s 1 0 = [0, 1, 2] ∧ ringMembers s 3 0 = [3] := by decide +kernel
theorem witness_rings_end :
    let o : RingOp := { collOp with wrote := 1, who := .ctx 0 0 }
    let s := ringing o
    (chunkTable o.lens).length ≤ o.wrote ∧ o.bar = none ∧ (s.die 0).ringQ = [] ∧ o.who.onCore = true ∧ bit ({ o with sem := 0x41 } : RingOp).sem 6 = true ∧
    okAnd (bufferSegs (s.given (.collectiveComplete 0)) o (o.bufs.zip o.lens)) (fun r => r.1.length == 1) = true ∧
    downHdr.ok = true ∧ downHdr.dest = 0 ∧ ((s.die 0).ring.filter (fun o => o.coll == true && o.grp == 0 && o.no == 0)).isSome = true ∧
    ((s.die 0).ring.filter (fun o => o.coll == true && o.grp == 1 && o.no == 0)).isSome = false ∧ ringCount s 0 true 1 ≤ 0 := by decide +kernel
theorem witness_ring_chunks :
    let o : RingOp := { coll := false, nch := 1, first := 5, who := .scribe 0 }
    let s := ringing o
    let u := fun (s : State) (o : RingOp) => setRingSem (s.given (.ringChunk 0)) 0 (o.first + o.next) ((ringSem s 0 (o.first + o.next)).toNat - 1)
    let far : RingOp := { o with src := 0x40000000 }
    let p : State := { s with poison := [0] }
    o.nextCc ≤ s.cc ∧ o.wrote ≠ o.nch ∧ o.next < o.nch ∧ ringSem s 0 5 = 1 ∧ ringSem (ringing { o with first := 6 }) 0 6 = 0 ∧
    okAnd (opSegs (u s o) o .engRd 0 65536) (fun r => r.1.all (fun x => !r.2.poisonedAt x.1 x.2)) = true ∧
    okAnd (opSegs (u p o) o .engRd 0 65536) (fun r => r.1.any (fun x => r.2.poisonedAt x.1 x.2)) = true ∧
    okAnd (opSegs (u (ringing far) far) far .engRd 0x40000000 65536) (fun _ => true) = false ∧ ({ o with wrote := 1 } : RingOp).wrote = o.nch ∧ o.bar = none ∧
    o.task = none ∧ (s.ctx o.who).task = none ∧ (s.ctx o.who).st = .front ∧ (s.die 0).ringQ = [] := by decide +kernel
theorem witness_ring_receives :
    let rc : RingChunk := { pkg := 1, die := 0, tag := 0, proc := 0, vf := 0, op := 3, fmt := 0, dst := 0x20000, sem := 5, bytes := [1] }
    let s := tl State.reset
    let seg := fun (s : State) (rc : RingChunk) (p : List (Loc × Nat) → State → Bool) =>
      okAnd (pageSegs (s.given (.ringChunkReceive 0 rc)) (.cp 0) rc.proc rc.vf .engWr 3 rc.dst.toNat rc.bytes.length) (fun r => p r.1 r.2)
    let leased : State := { s with leases := [{ kind := .well, lo := linOf { space := .m, key := 0x20000 }, hi := linOf { space := .m, key := 0x20000 } + 1, who := .scribe 0, ref := 0 }] }
    let poison : State := { s with poison := [0x20000 / 8] }
    (Ev.ringChunkReceive 0 rc).ok = true ∧ rc.written = false ∧ rc.bad = false ∧ ({ rc with written := true } : RingChunk).written = true ∧ ({ rc with bad := true } : RingChunk).bad = true ∧
    seg s rc (fun g u => (leaseOver u (fun _ => true) g).isNone && g.all (fun x => !u.poisonedAt x.1 x.2)) = true ∧
    seg leased rc (fun g u => (leaseOver u (fun _ => true) g).isSome) = true ∧
    seg poison { rc with op := 0 } (fun g u => (leaseOver u (fun _ => true) g).isNone && g.any (fun x => u.poisonedAt x.1 x.2)) = true ∧
    (match pageSegs (s.given (.ringChunkReceive 0 rc)) (.cp 0) 0 0 .engWr 3 0x40000000 1 with
      | .error f => f.cause != 0
      | .ok _ => false) = true := by decide +kernel
/-- The walker at an entry: its kind and its DSREQ. -/
def walking (kind need : Nat) : State :=
  { State.reset with walker := { st := 1, ent := some (BitVec.ofNat 256 (kind + need * 2 ^ 24)), dslink := 0x80000002, asked := true, blk := List.replicate 40 0 ++ [7] } }
theorem witness_walker :
    let s := walking 5 0
    let t := walking 1 1
    let g : State := { s with walker := { s.walker with mirror := true, goWait := some (3, .scribe 0), st := 0 } }
    s.walker.st = 1 ∧ s.walker.ent = some 5 ∧ s.walker.busy = false ∧ entryKind (entryBytes 5) = 5 ∧ t.walker.ent = some 0x1000001 ∧
    entryKind (entryBytes 0x1000001) ≠ 5 ∧ t.walker.dsfree < field (entryBytes 0x1000001) 3 1 ∧ fromDown s.walker downHdr = true ∧ s.walker.mirror = false ∧
    fromDown s.walker { downHdr with die := 1 } = false ∧ g.walker.mirror = true ∧ fromDown g.walker downHdr = true ∧ g.walker.goWait = some (3, .scribe 0) ∧
    2 ≠ s.pkgid.toNat ∧ (s.modHost (fun h => { h with routes := h.routes.put 0 2 1 })).routeUp 2 = true ∧ askedOf s.walker 7 = true ∧
    (∀ k ∈ ({ s.walker with busy := true } : Walker).tasks, (s.task k).gone = true) := by decide +kernel
/-- A walker at an entry whose bytes 0 to 2 and 14 on are given, with its issue block. -/
def atEntry (b0 b1 b2 : Nat) (ref : Nat) (blk : List Byte) : State :=
  (State.reset.given .walkerCycle).modWalker (fun w =>
    { w with st := 1, ent := some (BitVec.ofNat 256 (b0 + b1 * 2 ^ 8 + b2 * 2 ^ 16 + ref * 2 ^ 96)), blk := blk ++ List.replicate (64 - blk.length) 0 })
theorem witness_walker_latch :
    let go := fun (img : BitVec 256) (s : State) (p : Except AFault (List Byte × State) → Bool) =>
      let v := (s.given .walkerCycle).modWalker (fun w => { w with ent := some img, blk := [], asked := false, granted := false, refusedPush := false })
      (stabEntryBad (entryBytes img)).isNone && decide (entryKind (entryBytes img) ≠ 5) &&
        p (readEngineDesc v (.cp 0) .walker (identOf s (.cp 0)) (field (entryBytes img) 0x18 8 + 64 * field (entryBytes img) 1 1) 64)
    let s := tl State.reset
    let at1 := BitVec.ofNat 256 (1 + 0x3000 * 2 ^ 192)
    s.walker.ent = none ∧ s.walker.newUs = none ∧ s.walker.newDs = none ∧ s.walker.table.get 0 s.walker.cur = 0 ∧ (stabEntryBad (entryBytes 0)).isSome = true ∧
    go at1 s (fun r => okAnd r (fun x => (stabBlockBad (entryBytes at1) x.1).isNone)) = true ∧
    go at1 (s.storeAt 0x3000 [0x10]) (fun r => okAnd r (fun x => (stabBlockBad (entryBytes at1) x.1).isSome && decide (x.2.mem = [(0x3000, 0x10)] ++ s.mem))) = true ∧
    go (BitVec.ofNat 256 (1 + 0x40000000 * 2 ^ 192)) s (fun r => match r with
      | .error f => f.cause != 0
      | .ok _ => false) = true ∧
    go at1 (State.reset.modDie 0 (fun d => { d with tlb := [{ proc := 0, vf := 0, page := 0, size := 29, pa := 2 ^ 51, pte := 0x1F }] })) (fun r => match r with
      | .error f => f.cause == 0 && f.d1.toNat == 2 ^ 51 + 0x3000
      | .ok _ => false) = true := by decide +kernel
theorem witness_walker_conditions :
    let up := atEntry 1 0 0 0x80000000 [0x40]
    let full := (atEntry 1 0 0x11 0 []).modWalker (fun w => { w with stash := w.stash.put {} 0 { used := true } })
    let host := atEntry 1 0 0x0D 0 []
    let peer := atEntry 1 0 0x09 0 (List.replicate 40 0 ++ [7])
    let pop := atEntry 1 0 0x02 0 []
    (launchWord up.walker.blk 0 ≠ 0 ∧ wellFilled up (refWell 0 0x80000000) = 0 ∧ bit 0x80000000 31 = true) ∧
    (stashOp (entryBytes (full.walker.ent.getD 0)) = 1 ∧ stashLimit (entryBytes (full.walker.ent.getD 0)) = 1 ∧
      (full.walker.stash.filter (fun x => x.2.used && !x.2.peer)).length = 1) ∧
    (stashOp (entryBytes (host.walker.ent.getD 0)) = 1 ∧ stashLoc (entryBytes (host.walker.ent.getD 0)) = 3 ∧ offTarget host.walker.blk = 0 ∧
      stashLimit (entryBytes (host.walker.ent.getD 0)) = 64) ∧
    (stashOp (entryBytes (peer.walker.ent.getD 0)) = 1 ∧ stashLoc (entryBytes (peer.walker.ent.getD 0)) = 2 ∧ peer.walker.granted = false ∧
      stashLimit (entryBytes (peer.walker.ent.getD 0)) = 64 ∧ peer.walker.asked = false) ∧
    (stashOp (entryBytes (pop.walker.ent.getD 0)) = 2 ∧ stashFind pop.walker (fun x => x.used && !x.peer && x.mb == 0) = none ∧
      stashFind (pop.modWalker (fun w => { w with stash := w.stash.put {} 3 { used := true } })).walker (fun x => x.used && !x.peer && x.mb == 0) = some 3) ∧
    (∀ s ∈ [full, host, peer, pop], (match checkLaunches s.walker.blk [0, 1, 2, 3] s with
      | .ready r => !r
      | _ => false) = true ∧ s.walker.busy = false ∧ entryKind (entryBytes (s.walker.ent.getD 0)) = 1 ∧
      field (entryBytes (s.walker.ent.getD 0)) 3 1 ≤ s.walker.dsfree ∧ bit (field (entryBytes (s.walker.ent.getD 0)) 0xC 4) 31 = false) := by decide +kernel
theorem witness_walker_issue :
    let s := tl (atEntry 1 0 0 0 [])
    let launch := fun (n : Nat) => ((s.modWalker (fun w => { w with blk := toBytes 8 n ++ List.replicate 56 0 })).storeAt 0x1000 image1).storeAt 0x2000 [0, 0x10]
    let kind := fun (c : LaunchCheck) => (match c with
      | .ready r => if r then 1 else 0
      | .error .. => 2
      | .absent .. => 3)
    let away := (s.modWalker (fun w => { w with blk := toBytes 8 0x2000 ++ List.replicate 56 0 })).modDie 0 (fun d =>
      { d with tlb := [{ proc := 0, vf := 0, page := 0, size := 29, pa := 2 ^ 51, pte := 0x1F }] })
    kind (checkLaunches (launch 0x2000).walker.blk [0, 1, 2, 3] (launch 0x2000)) = 0 ∧
    kind (checkLaunches (launch 0x2000).walker.blk [0, 1, 2, 3] ((List.range 8).foldl (fun (s : State) k => (List.range 8).foldl (fun (s : State) j =>
      s.modCtx (.ctx k j) (fun c => { c with st := .halted })) s) (launch 0x2000))) = 1 ∧
    kind (checkLaunches (launch 0x40000000).walker.blk [0, 1, 2, 3] (launch 0x40000000)) = 2 ∧
    kind (checkLaunches away.walker.blk [0, 1, 2, 3] away) = 3 ∧
    okAnd (writeRecord s 0 (List.replicate 16 0)) (fun u => match launchAll s.walker.blk [0, 1, 2, 3] u with
      | .ok _ => true
      | .error _ => false) = true ∧
    okAnd (writeRecord s 0x40000000 (List.replicate 16 0)) (fun _ => true) = false ∧
    okAnd (resolveRange s (.cp 0) .engWr .m 3 0x5000 16) (fun r => r.1.all (fun g => !g.1.fabric) && (leaseOver r.2 (fun _ => true) r.1).isNone) = true := by
  decide +kernel
theorem witness_walker_times :
    let w : Walker := { busy := true, popSlot := some 3, issueCc := 4, runEnt := 0 }
    ({ State.reset with walker := w, cc := 5 } : State).walker.issueCc + field (entryBytes w.runEnt) 8 4 < 5 ∧ w.issueCc + field (entryBytes w.runEnt) 8 4 = 4 := by
  decide +kernel
theorem witness_stash :
    let w : Walker := { (walking 1 0).walker with stash := (List.range 64).map (fun i => (i, ({ used := true, peer := true, pkg := 7 } : Stash))) }
    let v : Walker := { w with stash := w.stash.take 63 }
    (∀ i, i < 64 → (w.stash.get {} i).used = true) ∧ (v.stash.get {} 63).used = false ∧ (∀ j, j < 63 → (v.stash.get {} j).used = true) ∧
    (let x := w.stash.get {} 0; x.used && x.peer && x.pkg == 7) = true := by decide +kernel
/-- A claim object in vault 0 with one slot and `n` slots taken. -/
def claimed (n : Byte) : State :=
  (State.reset.modCluster 0 (fun c => { c with steps := 1 })).storeAt (vaultKey 0) [1, 0, 0, 0, n, 0, 0, 0, 0, 2, 0, 0, 0, 0, 0, 0, 0, 0x10, 0, 0, 0, 0, 0, 0, 0, 0x20]
theorem witness_claims :
    let c : Claim := { who := .scribe 0, obj := 0, tid := 5, cnt := 2, ref := 3 }
    let k : Token := { who := .scribe 0, pkg := 0, die := 0, dest := 0, obj := 0, tid := 5, rq := 5, tag := 1, vf := 32, far := false, payload := 1 }
    let s := claimed 0
    c.who.ok = true ∧ laterInOrder (s.given (.claimGrant c)) (.claimGrant c) = false ∧ claimBad (s.bytesAt (vaultKey 0) 64) = false ∧
    (Ev.claimSend k).ok = true ∧ (Ev.claimSend { k with far := true, vf := 5 }).ok = true ∧ downHdr.ok = true ∧ laterInOrder (s.given (.claimSend k)) (.claimSend k) = false ∧ k.pkg = s.pkgid.toNat ∧ k.far = false ∧
    laterInOrder (s.given (.claimSend { k with far := true, vf := 5 })) (.claimSend { k with far := true, vf := 5 }) = false ∧ rightsOk s 5 = false ∧
    rightsOk s 32 = true ∧ vaultPresent s 0 64 = true ∧ vaultPresent State.reset 0 64 = false ∧ 1 ≠ s.pkgid.toNat ∧
    (let o := s.bytesAt (vaultKey k.obj.toNat) 64
     field o 4 4 < bits (field o 0 4) 15 0 ∧ slotPresent s (field o 16 8 + field o 4 4 * field o 8 4) (field o 24 8 + 4 * field o 4 4) = true) ∧
    (let o := (claimed 1).bytesAt (vaultKey k.obj.toNat) 64
     bits (field o 0 4) 15 0 ≤ field o 4 4 ∧ claimBad o = false) ∧
    (let q := (stored (some 0)).queue ((stored (some 0)).queueKey (.scribe 0) 5)
     q.present = true ∧ q.home.isSome = true ∧ 0 < q.space) ∧ (s.queue (s.queueKey (.scribe 0) 5)).present = false := by decide +kernel
/-- A pad's place on the fabric: kind 2, its cluster, its offset. -/
def padFabric (o : Nat) : Nat := 2 ^ 51 + 2 * 2 ^ 33 + o
theorem witness_fabric :
    let s := State.reset.storeAt (padKey 0 0x1000) [0, 0x20, 0, 0, 0, 0, 0, 0, 2, 0, 0, 0, 0x80, 0, 0, 0]
    downHdr.ok = true ∧ 5 < 2 ^ 32 ∧ 7 ≠ s.pkgid.toNat ∧ rightsOk s 0 = false ∧ rightsOk s 32 = true ∧ fabricPlace s 0 8 = none ∧ fabricPlace s (padFabric 8) 8 = some (padLoc 8) ∧
    s.poisoned (padLoc 8).key 8 = false ∧ s.leases.all (fun x => !decide (x.lo < (padLoc 8).key + 8 ∧ (padLoc 8).key < x.hi)) = true ∧
    fabricPlace s (padFabric 0x1000) 64 = some (padLoc 0x1000) ∧ wellBad s (padLoc 0x1000).key = none ∧ slotFree s (padLoc 0x1000).key = true ∧
    pointerAddr s (padLoc 0x1000).key = 0x2000 ∧ s.leases.all (fun x => !decide (x.lo < (padLoc 0x2000).key + 128 ∧ (padLoc 0x2000).key < x.hi)) = true := by
  decide +kernel
theorem witness_fabric_refusals :
    let s := State.reset
    let poison : State := { s with poison := [(padLoc 8).key / 8] }
    let leased : State := { s with leases := [{ kind := .well, lo := linOf (padLoc 8), hi := linOf (padLoc 8) + 8, who := .scribe 0, ref := 0 }] }
    fabricPlace poison (padFabric 8) 8 = some (padLoc 8) ∧ poison.poisonedAt (padLoc 8) 8 = true ∧ s.poisonedAt (padLoc 8) 8 = false ∧
    (leaseOver (leased.given .noticeDelivery) (fun _ => true) (lineSegs (padLoc 8) 2 8)).isSome = true ∧ (leaseOver (s.given .noticeDelivery) (fun _ => true) (lineSegs (padLoc 8) 2 8)).isNone = true ∧
    (padLoc 8).space = .p ∧ (padLoc 8).coded = none := by decide +kernel
theorem witness_responses :
    let e : Flight := { id := 3, kind := .load, dist := 1, arrived := false, waits := 1 }
    let r := fun (p : Awaiter) => ({ who := .ctx 0 0, purpose := p, len := 8 } : Remote)
    let s := { me (cx []) (fun c => { c with flight := [e] }) with remotes := [(8, r (.load 3 0)), (9, { r .effect with write := true })] }
    let c := { (copying 0).modCluster 0 (fun k => { k with chans := k.chans.put {} 15 { chanOf (copying 0) 0 15 with waits := some 8 } }) with remotes := [(8, r (.chan 0 15))] }
    let o : RingOp := { coll := false, nch := 1, who := .scribe 0 }
    let g := { ringing o with remotes := [(8, r (.ring 0 0 0))] }
    s.remotes.find? (fun r => r.1 == 8) = some (8, r (.load 3 0)) ∧ s.remotes.find? (fun r => r.1 == 9) = some (9, { r .effect with write := true }) ∧
    (s.ctx (.ctx 0 0)).flight = [] ++ e :: [] ∧ e.fault = none ∧ c.remotes.find? (fun r => r.1 == 8) = some (8, r (.chan 0 15)) ∧
    (chanOf c 0 15).waits = some 8 ∧ g.remotes.find? (fun r => r.1 == 8) = some (8, r (.ring 0 0 0)) ∧ (g.die 0).ring = some o ∧ o.coll = false := by decide +kernel
theorem witness_awaited :
    let r := fun (p : Awaiter) => ({ who := .ctx 0 0, purpose := p, len := 8, det0 := some 3 } : Remote)
    let s := { grouped { collOp with wrote := 1 } 3 0 with remotes := [(8, r (.ask 5)), (9, r (.coll 0 0 0)), (10, r .effect)] }
    s.remotes.find? (fun r => r.1 == 8) = some (8, r (.ask 5)) ∧ s.remotes.find? (fun r => r.1 == 9) = some (9, r (.coll 0 0 0)) ∧
    s.remotes.find? (fun r => r.1 == 10) = some (10, r .effect) ∧ wroteAll s 0 0 0 = true ∧ (r .effect).det0 = some 3 ∧ (3 : BitVec 64) ≠ 4 ∧ (r .effect).lane < 128 ∧
    ((cx []).ctx (.ctx 0 0)).task = none ∧ ((cx []).ctx (.ctx 0 0)).st = .front := by decide +kernel
/-- Tables at 0x2000 that map page 0 of process 0 for reads, through four levels. -/
def mapped : State :=
  (((((State.reset.modHost (fun h => { h with proctab := 0x2001 })).storeNum 0x2000 8 0x4001).storeNum 0x4000 8 0x10001).storeNum 0x10000 8 0x20001).storeNum 0x20000 8 0x30001).storeNum
    0x30000 8 0x40007
theorem witness_walks :
    canonical 8 = true ∧ tlbFind (mapped.die 0).tlb 0 8 = none ∧ tlbFind (ownTlb mapped (.ctx 0 0) (accOf 0)) 0 8 = none ∧
    okAnd (walk mapped [] 0 0 (accOf 0) 8) (fun r => r.1.pa == 0x40000 && r.2.length == 3) = true ∧
    okAnd (walk State.reset [] 0 0 (accOf 0) 8) (fun _ => true) = false ∧ (((cx []).core 0).l1.get {} 5).dirty = 0 := by decide +kernel
theorem witness_detections : (Ev.memoryErrorDetect (.ctx 0 0) 5 0 true).ok = true ∧ (Ev.memoryErrorDetect (.scribe 63) 3 0 true).ok = true := by decide
theorem witness_notices :
    let n : Notice := { dest := .pf, cause := 0x54, kind := 3 }
    let r : Report := { who := .scribe 0, owners := [(1, 2)] }
    let s := { State.reset.modHost (fun h => { h with mbox := { base := 0x2001, prod := 63 } }) with notices := [n], reports := [(4, r)] }
    s.notices = n :: [] ∧ s.host.mbox.base.getLsbD 0 = true ∧ (s.host.mbox.prod - s.host.mbox.cons).toNat < 64 ∧ State.reset.host.mbox.base.getLsbD 0 = false ∧
    s.reports.find? (fun r => r.1 == 4) = some (4, r) ∧
    (let d := ((State.reset.modDie 0 (fun d => { d with cpring := 0x8001, cpprod := 255 })).die 0)
     d.cpring.getLsbD 0 = true ∧ (d.cpprod - d.cpcons).toNat < 256) ∧
    (let t := State.reset.storeNum (padKey 0 0x3FBF90) 4 128
     wellSlots t (padKey 0 0x3FBF80) ≤ wellFilled t (padKey 0 0x3FBF80)) := by decide +kernel
theorem witness_host :
    let s := State.reset
    s.host.boot ≠ 3 ∧ (s.die 3).tail.toNat < 0x1000 ∧ (s.ctx (.cp 3)).st ≠ .front ∧ ((ag (.cp 3) []).ctx (.cp 3)).st = .front ∧ (ag (.cp 3) []).host.boot ≠ 3 ∧
    (s.modHost (fun h => { h with boot := 3 })).host.boot = 3 ∧
    (let t := s.modDie 3 (fun d => { d with tail := 0x1000 })
     (t.die 3).seen.toNat < 0x1000 ∧ 0x1000 ≤ (t.die 3).tail.toNat) := by decide +kernel
theorem witness_quiesce :
    let s := (tasked .free).modHost (fun h => { h with quiesce := true })
    let t := s.modCtx (.ctx 1 0) (fun c => { c with stopReq := some (0x70, 0) })
    s.host.boot ≠ 3 ∧ s.host.quiesce = true ∧ s.host.quiesced = false ∧ stopsPending s = false ∧ stopsPending t = true ∧
    liveContexts s (fun v => v == 31) = [] ∧ liveContexts s (fun v => v == 0) = [.ctx 1 0] ∧ live s (agentOf 8) = true ∧
    ({ s with walker := { st := 2 } } : State).walker.st = 2 := by decide +kernel
theorem witness_boot_three : (State.reset.modHost (fun h => { h with boot := 3 })).powered = true ∧ (State.reset.modHost (fun h => { h with boot := 3 })).host.boot = 3 := by
  decide
theorem witness_rom : State.reset.host.boot = 0 ∧ bootReason 0 [] = 1 ∧ (State.reset.modHost (fun h => { h with boot := 1 })).host.boot = 1 ∧
    ({ State.reset with powered := false } : State).powered = false ∧ ¬512 ≤ ([] : List Byte).length := by decide +kernel

/-! ## Steps -/

/-- Run the slots of a bundle, where each goes on. -/
def goSlots (s : State) : List (Nat × Instr) → Option State
  | [] => some s
  | p :: r => match exec p.2 { s with pos := p.1, verdict := .go } with
    | .next t => if t.verdict = .go then goSlots t r else none
    | _ => none
theorem slotsGo_of_goSlots (ps : List (Nat × Instr)) : ∀ s u, goSlots s ps = some u → SlotsGo s ps u := by
  induction ps with
  | nil => intro s u h; exact Option.some.inj h
  | cons p r ih =>
    intro s u h
    unfold goSlots at h
    split at h
    · rename_i t ht
      split at h
      · rename_i hv; exact ⟨t, ht, hv, ih t u h⟩
      · cases h
    · cases h
/-- A state about to issue a bundle whose second slot is ADDI s2, s2, 16. -/
def runs : State := State.reset.withFetchWord 32 0x12010810
/-- The agent whose turn it is. -/
def turnOf (s : State) : Agent := match s.turns with
  | .issue a :: _ => a
  | _ => .cp 0
theorem witness_step_runs :
    let s := runs
    let a := turnOf s
    let f := fetchFrom a (s.ctx a).live.c.pc 8 { s with turns := s.turns.tail } []
    s.powered = true ∧ s.notices = [] ∧ dueEvent s = none ∧ s.turns = .issue a :: s.turns.tail ∧ Ready s a ∧ stopDue (f.2.ctx a) = none ∧
    (match f.1 with
      | .words ws =>
        let ck := checkpointBundle (landCycle f.2 a (s.ctx a).live.c.pc ws.length) (slotsOf ws)
        (bundleCheck a.onCore (f.2.unitsOf a) (s.ctx a).live.c.pc ws).isNone && (slotsOf ws).any (fun p => p.2 == .addi { stop := false, g := 0 } 2 2 16) &&
        (!ck || loadsArrived (f.2.ctx a)) && (match slotsOf ws with
          | p :: r => p.1 == 0 && (match goSlots (beginSlots (landCycle f.2 a (s.ctx a).live.c.pc ws.length) a ck) (r ++ [p]) with
            | some u => !exceeds f.2 u a ck
            | none => false)
          | [] => false)
      | _ => false) = true := by unfold Ready; decide +kernel
theorem witness_step_events :
    let s := { State.reset with agenda := [(0, .thermtrip 1)] }
    let t := { State.reset with notices := [{ dest := .pf, cause := 0x54, kind := 3 }] }
    s.powered = true ∧ s.notices = [] ∧ (dueEvent s).map (·.1) = some (.thermtrip 1) ∧ t.notices ≠ [] := by decide +kernel
theorem witness_canonical_memory : Memory.wf State.reset.mem = true ∧ (nextOf (step runs)).isSome = true := by decide +kernel
theorem witness_unassigned : ([0, 0x0E000000] : List SlotWord)[1]? = some 0x0E000000 ∧ unassigned (wordOp 0x0E000000) = true ∧ unassigned (wordOp 0) = false := by
  decide
theorem witness_encoded : encodeNat (.add h0 1 2 3) ≠ none ∧ decode 0x10010831 = .error .reserved := by decide

end Sys2Proof.Tests
end

section
/-!
SUPPORT. The meanings that answer a next state: the operations that the slots share.
-/

namespace Sys2Proof.Machine

open State

/-- A meaning answers a next state: it neither faults nor refuses. -/
def Answers (r : Res) : Prop := ∃ t, r = .next t

theorem answers_next (t : State) : Answers (.next t) := ⟨t, rfl⟩
theorem answers_trapAt (s : State) (c n : Nat) (d1 d2 d3 : BitVec 64) : Answers (trapAt s c n d1 d2 d3) := ⟨_, rfl⟩
theorem answers_withhold (s : State) (e : Effect) (r : List Word) : Answers (withhold s e r) := withhold_next s e r
theorem answers_ite {c : Prop} [Decidable c] {a b : Res} (ha : Answers a) (hb : Answers b) : Answers (if c then a else b) := by
  split <;> assumption

/-! ## Operations on queues, wells, clusters and objects -/

theorem answers_faultAt (s : State) (f : AFault) : Answers (faultAt s f) := answers_ite (answers_next _) (answers_next _)
theorem answers_raiseOrWait (s : State) (t : TrapRec) : Answers (raiseOrWait s t) := answers_ite (answers_next _) (answers_next _)
theorem answers_freezeFor {s : State} {n : Nat} {k : State → Res} (hk : Answers (k s)) : Answers (freezeFor s n k) := freezeFor_next hk

theorem answers_touchQueue {s : State} {key k : Nat} {go : Res} (hgo : Answers go) : Answers (touchQueue s key k go) :=
  answers_ite (answers_next _) (answers_ite (answers_next _) hgo)

theorem answers_pushChecks {s : State} {b : Word} {go : Nat → Res} (hgo : ∀ key, Answers (go key)) : Answers (pushChecks s b go) :=
  answers_ite (answers_next _) (answers_ite (answers_next _) (hgo _))

theorem answers_pushOp (s : State) (b : Word) (k : Nat) (x : Word) (eos : Bool) (rd : List Word) : Answers (pushOp s b k x eos rd) :=
  answers_pushChecks fun _ => answers_touchQueue (answers_ite (answers_next _) (answers_withhold ..))

theorem answers_wellWait {s : State} {k : BitVec 4} {cnt : BitVec 6} {lim : BitVec 10} {go : WHandle → Res} (hgo : ∀ h, Answers (go h)) :
    Answers (wellWait s k cnt lim go) :=
  answers_ite (answers_next _) (answers_ite (answers_next _) (hgo _))

theorem answers_bindOp (s : State) (k : BitVec 4) (prod : Bool) (sp : BitVec 2) (ea : Word) : Answers (bindOp s k prod sp ea) := by
  refine answers_ite (answers_next _) ?_
  split
  · exact answers_next _
  · refine answers_ite (answers_next _) ?_
    split
    · exact answers_next _
    · exact answers_ite (answers_next _) (answers_next _)

theorem answers_ownCluster {s : State} {ea : Word} {k : Nat → Res} (hk : ∀ cl, Answers (k cl)) : Answers (ownCluster s ea k) := by
  unfold ownCluster
  split
  · exact hk _
  · exact answers_next _

theorem answers_evtOwn {s : State} {x : Word} {k : Nat → Res} (hk : ∀ cl, Answers (k cl)) : Answers (evtOwn s x k) :=
  answers_ownCluster fun cl => answers_ite (answers_next _) (hk cl)

theorem answers_objectOp {s : State} {acc : Acc} {sp : BitVec 2} {ea : Word} {k : Loc → State → Res} (hk : ∀ l s, Answers (k l s)) :
    Answers (objectOp s acc sp ea k) := by
  refine answers_ite (answers_next _) ?_
  split
  · exact answers_next _
  · exact answers_ite (answers_next _) (hk _ _)

/-! ## Operations of the governor, of tasks and of the system families -/

theorem answers_govTrapAt (s : State) (x : Nat) : Answers (govTrapAt s x) := by
  unfold govTrapAt; split <;> exact answers_trapAt ..

theorem answers_dispatch (s : State) (d : BitVec 5) (n : Word) (bs : List Byte) : Answers (dispatch s d n bs) := by
  unfold dispatch
  extract_lets es
  split
  · exact answers_trapAt ..
  · refine answers_ite (answers_trapAt ..) (answers_ite (answers_next _) ?_)
    split
    · exact answers_trapAt ..
    · exact answers_ite (answers_trapAt ..) (answers_next _)

theorem answers_taskGo (d : BitVec 5) (s : State) (w : Word) (clu : Nat) : Answers (execTask.go d s w clu) := by
  unfold execTask.go
  extract_lets cl
  split
  · exact answers_faultAt ..
  · split
    · exact answers_raiseOrWait ..
    · exact answers_next _

theorem answers_onTarget {s : State} {w : Word} {k : Agent → Res} (hk : ∀ a, Answers (k a)) : Answers (onTarget s w k) := by
  unfold onTarget
  split
  · exact hk _
  · exact answers_trapAt ..

theorem answers_onImage {s : State} {ea : BitVec 64} {k : Res} (hk : Answers k) : Answers (onImage s ea k) := answers_ite (answers_next _) hk

theorem answers_forgetTlb (s : State) (pkg : Bool) (p : TlbEntry → Bool) (q : WalkNode → Bool) : Answers (forgetTlb s pkg p q) :=
  answers_ite (answers_next _) (answers_next _)

theorem answers_monOp {s : State} {a : BitVec 5} {k : MonSel → Res} (hk : ∀ m, Answers (k m)) : Answers (monOp s a k) := by
  unfold monOp
  split
  · exact hk _
  · exact answers_trapAt ..

theorem answers_cfgOp {s : State} {a b : BitVec 5} {k : CfgReg → Agent → Res} (hk : ∀ r t, Answers (k r t)) : Answers (cfgOp s a b k) := by
  unfold cfgOp
  split
  · exact answers_trapAt ..
  · exact answers_ite (answers_trapAt ..) (answers_ite (hk _ _) (answers_onTarget (hk _)))

theorem answers_whileIdle (s : State) (w : Word) (t : Agent) (f : Ctx → Ctx) : Answers (whileIdle s w t f) :=
  answers_ite (answers_next _) (answers_trapAt ..)

theorem answers_swapQueue (s : State) (x : BitVec 64) : Answers (swapQueue s x) := by
  unfold swapQueue
  extract_lets proc q
  split
  · exact answers_trapAt ..
  · exact answers_next _
  · exact answers_next _

/-! ## Loads and the operations of the panes -/

theorem answers_issueLoad (s : State) (lc : BitVec 3) (sp : Space) (va : Nat → BitVec 64) (segs : List (Loc × Nat)) (shape : LoadShape)
    (walk : Nat) : Answers (issueLoad s lc sp va segs shape walk) := answers_ite (answers_next _) (answers_next _)

theorem answers_panesOp {s : State} {ps : List Nat} {k : Res} (hk : Answers k) : Answers (panesOp s ps k) := answers_ite hk (answers_trapAt ..)
theorem answers_maskOp {s : State} {m : BitVec 4} {k : Res} (hk : Answers k) : Answers (maskOp s m k) := answers_ite (answers_trapAt ..) hk
theorem answers_tileOp {s : State} {z : Nat} {k : Res} (hk : Answers k) : Answers (tileOp s z k) :=
  answers_ite (answers_trapAt ..) (answers_ite (answers_next _) hk)
theorem answers_shapeOp {s : State} {z : Nat} {zs : Bool} {rows width : Nat} {t : TileKind} {go : Res} (hgo : Answers go) :
    Answers (shapeOp s z zs rows width t go) := answers_ite hgo (answers_ite (answers_trapAt ..) (answers_ite hgo (answers_trapAt ..)))
theorem answers_gangOp {s : State} {z : Nat} {qb rv : Bool} {fmt : BitVec 4} {k : Nat → Nat → Res} (hk : ∀ m n, Answers (k m n)) :
    Answers (gangOp s z qb rv fmt k) := answers_ite (answers_trapAt ..) (hk _ _)

theorem answers_issueFetch (s : State) (q : TileReq) (d : RegionDesc) (desc : List (Loc × Nat)) (stale : Option (Nat × Nat)) (s0 : State)
    (ops : Nat → TileReq → Option TrapRec → Option Nat → State → State) : Answers (issueFetch s q d desc stale s0 ops) := by
  unfold issueFetch
  extract_lets a cls
  split
  split
  · exact answers_next _
  · exact answers_next _
  · refine answers_ite (answers_next _) ?_
    extract_lets
    split <;> exact answers_next _

/-- What a plan answers at issue, if it ends the slot there. -/
def Plan.Answered : Plan → Prop
  | .trap r => Answers r
  | _ => True

theorem planFetch_answered (s : State) (daddr coord : Word) (f : BitVec 4) (nr nc : Nat) (tr : Bool) :
    (planFetch s daddr coord f nr nc tr).Answered := by
  unfold planFetch
  extract_lets q
  split
  · trivial
  split
  · trivial
  split
  · trivial
  split
  · split <;> trivial
  extract_lets q
  split
  · trivial
  rename_i d _
  extract_lets proceed
  have hp : ∀ b st s, (proceed b st s).Answered := by
    intro b st s
    simp only [proceed]
    split
    · exact answers_trapAt ..
    · split <;> trivial
  split
  · exact hp ..
  · split
    · exact answers_trapAt ..
    · extract_lets g
      split
      · exact answers_govTrapAt ..
      · exact hp ..

theorem answers_of_planFetch {s : State} {daddr coord : Word} {f : BitVec 4} {nr nc : Nat} {tr : Bool} {r : Res}
    (h : planFetch s daddr coord f nr nc tr = .trap r) : Answers r := by
  have hp := planFetch_answered s daddr coord f nr nc tr
  rwa [h] at hp

end Sys2Proof.Machine
end

section
/-!
SUPPORT. What each slot answers: the trap of a failed check, the noted state under a false guard, and always a next state (02 R30, R32).
-/

namespace Sys2Proof.Machine

open State

/-- What a slot's meaning answers in a state, whatever its action: the trap of a failed check, the noted state when the guard of its header reads
false, and in every case a next state (02 R30, R32). -/
structure SlotOutcome (i : Instr) (h : Hdr) (s : State) (r : Res) : Prop where
  trapped : ∀ t, slotCheck (s.noted i) i = some t → r = .next ((s.noted i).raise t)
  skipped : slotCheck (s.noted i) i = none → s.guard h.g = false → r = .next (s.noted i)
  answers : Answers r

variable {i : Instr} {h : Hdr} {s : State}

theorem slotOp_outcome {k : State → Res} (hk : ∀ s, Answers (k s)) : SlotOutcome i h s (slotOp i h s k) where
  trapped _ hc := slotOp_trapped hc k
  skipped hc hg := slotOp_skipped hc hg k
  answers := slotOp_next hk

theorem slotOp_outcome_next {f : State → State} : SlotOutcome i h s (slotOp i h s (fun s => .next (f s))) := slotOp_outcome fun _ => answers_next _

/-! ## Families -/

theorem scalarOp_outcome {L : Nat} {d : BitVec 5} {f : State → Word} : SlotOutcome i h s (scalarOp i h L d s f) := slotOp_outcome_next
theorem vecOp_outcome {L : Nat} {d : BitVec 5} {f : State → VReg} : SlotOutcome i h s (vecOp i h L d s f) := slotOp_outcome_next
theorem sfOp_outcome {d a b : BitVec 5} {rz dbl : Bool} {f : FVal → FVal → FVal} :
    SlotOutcome i h s (sfOp i h d a b rz dbl s f) := scalarOp_outcome
theorem xfnOp_outcome {fn : Config.Fn} {L : Nat} {d a : BitVec 5} {fmt : BitVec 4} : SlotOutcome i h s (xfnOp i h fn L d a fmt s) := vecOp_outcome
theorem vredOp_outcome {o : Red} {d a : BitVec 5} {mk fmt : BitVec 4} : SlotOutcome i h s (vredOp i h o d a mk fmt s) := slotOp_outcome_next
theorem divOp_outcome {d b : BitVec 5} {f : State → Word} : SlotOutcome i h s (divOp i h d b s f) :=
  slotOp_outcome fun _ => answers_ite (answers_trapAt ..) (answers_next _)

theorem loadOp_outcome {a : BitVec 5} {lc : BitVec 3} {sp : BitVec 2} {off : BitVec 5} {n g al : Nat} {shape : State → LoadShape} :
    SlotOutcome i h s (loadOp i h a lc sp off n g al s shape) := by
  refine slotOp_outcome fun s => ?_
  extract_lets sp ea
  split
  · exact answers_next _
  · exact answers_issueLoad ..

theorem storeOp_outcome {a : BitVec 5} {sp : BitVec 2} {off : BitVec 5} {n g al kind : Nat} {data : State → List Byte} {reg : State → VReg} :
    SlotOutcome i h s (storeOp i h a sp off n g al kind s data reg) := by
  refine slotOp_outcome fun s => ?_
  extract_lets ea
  split
  · exact answers_next _
  · exact answers_withhold ..

theorem measure_outcome {a b : BitVec 5} {f : Word → GovLayer → GovLayer} : SlotOutcome i h s (measure i h a b s f) := by
  refine slotOp_outcome fun s => ?_
  extract_lets l
  split
  · exact answers_trapAt ..
  · exact answers_ite (answers_govTrapAt ..) (answers_next _)

theorem atomOp_outcome {op : AtomOp} {d a : BitVec 5} {lc : BitVec 3} {sp : BitVec 2} {w4 : Bool} :
    SlotOutcome i h s (atomOp i h op d a lc sp w4 s) := by
  refine slotOp_outcome fun s => answers_ite (answers_next _) ?_
  split
  · exact answers_next _
  · exact answers_ite (answers_trapAt ..) (answers_ite (answers_next _) (answers_withhold ..))

theorem arriveOp_outcome {a b : BitVec 5} {sc : BitVec 3} {sync : Bool} : SlotOutcome i h s (arriveOp i h a b sc sync s) :=
  slotOp_outcome fun _ => answers_ite (answers_trapAt ..) (answers_objectOp fun _ _ => answers_withhold ..)

theorem blockStart_outcome {a : BitVec 5} {al : Nat} {e : BitVec 64 → Effect} : SlotOutcome i h s (blockStart i h a al s e) :=
  slotOp_outcome fun _ => answers_ite (answers_next _) (answers_withhold ..)

/-! ## Scalar, vector and load/store slots -/

theorem plog_outcome (h : Hdr) (fd a b tt : BitVec 4) (pw mkx : Bool) (s : State) :
    SlotOutcome (.plog h fd a b tt pw mkx) h s (execPlog h fd a b tt pw mkx s) :=
  slotOp_outcome fun _ => answers_ite (answers_next _) (answers_next _)

theorem xexd_outcome (h : Hdr) (d a : BitVec 5) (s : State) : SlotOutcome (.xexd h d a) h s (execXexd h d a s) :=
  slotOp_outcome fun _ => answers_ite (answers_trapAt ..) (answers_next _)

theorem ldvx_outcome (h : Hdr) (d a : BitVec 5) (lc : BitVec 3) (sp : BitVec 2) (ix : BitVec 5) (s : State) :
    SlotOutcome (.ldvx h d a lc sp ix) h s (execLdvx h d a lc sp ix s) := by
  refine slotOp_outcome fun s => ?_
  split
  · exact answers_next _
  · exact answers_issueLoad ..

theorem ldvs_outcome (h : Hdr) (d a : BitVec 5) (lc : BitVec 3) (off : BitVec 5) (s : State) :
    SlotOutcome (.ldvs h d a lc off) h s (execLdvs h d a lc off s) := by
  refine slotOp_outcome fun s => answers_ite (answers_next _) ?_
  split
  · exact answers_next _
  · exact answers_ite (answers_next _) (answers_next _)

theorem stvx_outcome (h : Hdr) (d a : BitVec 5) (sp : BitVec 2) (ix : BitVec 5) (s : State) :
    SlotOutcome (.stvx h d a sp ix) h s (execStvx h d a sp ix s) := by
  refine slotOp_outcome fun s => ?_
  split
  · exact answers_next _
  · exact answers_withhold ..

theorem stvs_outcome (h : Hdr) (vs a : BitVec 5) (mk fmt : BitVec 4) (sp : BitVec 2) (s : State) :
    SlotOutcome (.stvs h vs a mk fmt sp) h s (execStvs h vs a mk fmt sp s) := by
  refine slotOp_outcome fun s => answers_ite (answers_next _) (answers_ite (answers_next _) ?_)
  split
  · exact answers_next _
  · exact answers_withhold ..

theorem pref_outcome (h : Hdr) (home : Bool) (a off : BitVec 5) (s : State) : SlotOutcome (.pref h home a off) h s (execPref h home a off s) := by
  refine slotOp_outcome fun s => ?_
  extract_lets ea line
  split
  · exact answers_next _
  · exact answers_ite (answers_next _) (answers_next _)

theorem chk_outcome (h : Hdr) (a b : BitVec 5) (s : State) : SlotOutcome (.chk h a b) h s (execChk h a b s) :=
  slotOp_outcome fun _ => answers_ite (answers_next _) (answers_trapAt ..)
theorem chkVec_outcome (h : Hdr) (a b : BitVec 5) (s : State) : SlotOutcome (.chkVec h a b) h s (execChkVec h a b s) :=
  slotOp_outcome fun _ => answers_ite (answers_next _) (answers_trapAt ..)

/-! ## Copies, memory control, collectives and the schedule table -/

theorem cpchGo_outcome (h : Hdr) (a b : BitVec 5) (s : State) : SlotOutcome (.cpchGo h a b) h s (execCpchGo h a b s) :=
  slotOp_outcome fun _ => answers_ite (answers_trapAt ..) (answers_ownCluster fun _ =>
    answers_ite (answers_trapAt ..) (answers_ite (answers_next _) (answers_withhold ..)))
theorem cpchSt_outcome (h : Hdr) (d a : BitVec 5) (s : State) : SlotOutcome (.cpchSt h d a) h s (execCpchSt h d a s) :=
  slotOp_outcome fun _ => answers_ownCluster fun _ => answers_next _
theorem cpchStop_outcome (h : Hdr) (a : BitVec 5) (s : State) : SlotOutcome (.cpchStop h a) h s (execCpchStop h a s) :=
  slotOp_outcome fun _ => answers_ownCluster fun _ => answers_ite (answers_trapAt ..) (answers_withhold ..)
theorem memcPhase_outcome (h : Hdr) (a b : BitVec 5) (s : State) : SlotOutcome (.memcPhase h a b) h s (execMemcPhase h a b s) :=
  slotOp_outcome fun _ => answers_ite (answers_trapAt ..) (answers_ite (answers_trapAt ..) (answers_ownCluster fun _ =>
    answers_ite (answers_trapAt ..) (answers_withhold ..)))
theorem memcRinv_outcome (h : Hdr) (d a b : BitVec 5) (sc : BitVec 3) (s : State) :
    SlotOutcome (.memcRinv h d a b sc) h s (execMemcRinv h d a b sc s) :=
  slotOp_outcome fun _ => answers_ite (answers_trapAt ..) (answers_ite (answers_withhold ..) (answers_objectOp fun _ _ => answers_withhold ..))
theorem memcCreg_outcome (h : Hdr) (a b : BitVec 5) (s : State) : SlotOutcome (.memcCreg h a b) h s (execMemcCreg h a b s) :=
  slotOp_outcome fun _ => answers_ite (answers_trapAt ..) (answers_ite (answers_trapAt ..) (answers_withhold ..))
theorem memcCerr_outcome (h : Hdr) (a b : BitVec 5) (s : State) : SlotOutcome (.memcCerr h a b) h s (execMemcCerr h a b s) := by
  refine slotOp_outcome fun s => answers_ite (answers_trapAt ..) ?_
  split
  · exact answers_next _
  · exact answers_withhold ..
theorem rsemRd_outcome (h : Hdr) (d a : BitVec 5) (s : State) : SlotOutcome (.rsemRd h d a) h s (execRsemRd h d a s) :=
  slotOp_outcome fun _ => answers_ite (answers_trapAt ..) (answers_freezeFor (answers_next _))
theorem rsemSet_outcome (h : Hdr) (a b : BitVec 5) (s : State) : SlotOutcome (.rsemSet h a b) h s (execRsemSet h a b s) :=
  slotOp_outcome fun _ => answers_ite (answers_trapAt ..) (answers_withhold ..)
theorem rsemAdd_outcome (h : Hdr) (a b : BitVec 5) (s : State) : SlotOutcome (.rsemAdd h a b) h s (execRsemAdd h a b s) :=
  slotOp_outcome fun _ => answers_ite (answers_trapAt ..) (answers_withhold ..)
theorem stabWr_outcome (h : Hdr) (a b : BitVec 5) (s : State) : SlotOutcome (.stabWr h a b) h s (execStabWr h a b s) :=
  slotOp_outcome fun _ => answers_ite (answers_trapAt ..) (answers_ite (answers_next _) (answers_withhold ..))
theorem stabRd_outcome (h : Hdr) (d a b : BitVec 5) (s : State) : SlotOutcome (.stabRd h d a b) h s (execStabRd h d a b s) :=
  slotOp_outcome fun _ => answers_ite (answers_trapAt ..) (answers_ite (answers_trapAt ..) (answers_freezeFor (answers_next _)))
theorem stabGo_outcome (h : Hdr) (a : BitVec 5) (s : State) : SlotOutcome (.stabGo h a) h s (execStabGo h a s) :=
  slotOp_outcome fun _ => answers_ite (answers_trapAt ..) (answers_withhold ..)
theorem stabStop_outcome (h : Hdr) (s : State) : SlotOutcome (.stabStop h) h s (execStabStop h s) := slotOp_outcome fun _ => answers_withhold ..
theorem stabReg_outcome (h : Hdr) (d a : BitVec 5) (s : State) : SlotOutcome (.stabReg h d a) h s (execStabReg h d a s) :=
  slotOp_outcome fun _ => answers_ite (answers_trapAt ..) (answers_freezeFor (answers_next _))
theorem stabLink_outcome (h : Hdr) (a b : BitVec 5) (s : State) : SlotOutcome (.stabLink h a b) h s (execStabLink h a b s) :=
  slotOp_outcome fun _ => answers_ite (answers_trapAt ..) (answers_ite (answers_trapAt ..) (answers_withhold ..))
theorem stabClr_outcome (h : Hdr) (s : State) : SlotOutcome (.stabClr h) h s (execStabClr h s) := slotOp_outcome fun _ => answers_withhold ..

/-! ## The governor -/

theorem govPol_outcome (h : Hdr) (a : BitVec 5) (s : State) : SlotOutcome (.govPol h a) h s (execGovPol h a s) := by
  refine slotOp_outcome fun s => answers_ite (answers_trapAt ..) ?_
  split
  · exact answers_trapAt ..
  split
  · exact answers_next _
  · refine answers_ite ?_ (answers_freezeFor (answers_ite (answers_trapAt ..) (answers_ite (answers_trapAt ..) (answers_next _))))
    split
    · exact answers_faultAt ..
    · exact answers_ite (answers_trapAt ..) (answers_next _)

theorem govRd_outcome (h : Hdr) (d a b : BitVec 5) (s : State) : SlotOutcome (.govRd h d a b) h s (execGovRd h d a b s) := by
  refine slotOp_outcome fun s => ?_
  extract_lets x
  split
  · exact answers_trapAt ..
  · exact answers_ite (answers_govTrapAt ..) (answers_next _)
theorem govSet_outcome (h : Hdr) (a b : BitVec 5) (s : State) : SlotOutcome (.govSet h a b) h s (execGovSet h a b s) := by
  refine slotOp_outcome fun s => ?_
  extract_lets x
  split
  · exact answers_trapAt ..
  · exact answers_ite (answers_govTrapAt ..) (answers_next _)
theorem govClr_outcome (h : Hdr) (a : BitVec 5) (s : State) : SlotOutcome (.govClr h a) h s (execGovClr h a s) := by
  refine slotOp_outcome fun s => ?_
  extract_lets x
  split
  · exact answers_trapAt ..
  · exact answers_ite (answers_govTrapAt ..) (answers_next _)
theorem gstep_outcome (h : Hdr) (d a b : BitVec 5) (s : State) : SlotOutcome (.gstep h d a b) h s (execGstep h d a b s) := by
  refine slotOp_outcome fun s => ?_
  extract_lets x n
  split
  · exact answers_trapAt ..
  · exact answers_ite (answers_govTrapAt ..) (answers_ite (answers_trapAt ..) (answers_next _))
theorem xcvt_outcome (h : Hdr) (d a b : BitVec 5) (fmt : BitVec 4) (x : Bool) (s : State) :
    SlotOutcome (.xcvt h d a b fmt x) h s (execXcvt h d a b fmt x s) := by
  refine slotOp_outcome fun s => ?_
  extract_lets n
  split
  · exact answers_trapAt ..
  · exact answers_ite (answers_govTrapAt ..) (answers_ite (answers_govTrapAt ..) (answers_ite (answers_next _) (answers_next _)))

/-! ## Queues, wells, banks, synchronisation and routing -/

theorem qpush_outcome (h : Hdr) (a b : BitVec 5) (eos : Bool) (s : State) : SlotOutcome (.qpush h a b eos) h s (execQpush h a b eos s) :=
  slotOp_outcome fun _ => answers_pushOp ..
theorem qpushFwd_outcome (h : Hdr) (k : BitVec 2) (b : BitVec 5) (s : State) : SlotOutcome (.qpushFwd h k b) h s (execQpushFwd h k b s) := by
  refine slotOp_outcome fun s => answers_ite (answers_trapAt ..) ?_
  split
  · exact answers_pushChecks fun _ => answers_next _
  · exact answers_pushOp ..
theorem qbind_outcome (h : Hdr) (k : BitVec 2) (a : BitVec 5) (s : State) : SlotOutcome (.qbind h k a) h s (execQbind h k a s) :=
  slotOp_outcome fun _ => answers_touchQueue (answers_ite (answers_next _) (answers_next _))
theorem qunbind_outcome (h : Hdr) (k : BitVec 2) (s : State) : SlotOutcome (.qunbind h k) h s (execQunbind h k s) :=
  slotOp_outcome fun _ => answers_ite (answers_trapAt ..) (answers_withhold ..)
theorem qrd_outcome (h : Hdr) (d : BitVec 5) (k : BitVec 2) (s : State) : SlotOutcome (.qrd h d k) h s (execQrd h d k s) := by
  refine slotOp_outcome fun s => answers_ite (answers_trapAt ..) ?_
  split <;> exact answers_next _
theorem qstat_outcome (h : Hdr) (d : BitVec 5) (k : BitVec 2) (s : State) : SlotOutcome (.qstat h d k) h s (execQstat h d k s) :=
  slotOp_outcome fun _ => answers_ite (answers_trapAt ..) (answers_next _)
theorem wop_outcome (h : Hdr) (w : BitVec 4) (cnt : BitVec 6) (lim : BitVec 10) (s : State) :
    SlotOutcome (.wop h w cnt lim) h s (execWop h w cnt lim s) :=
  slotOp_outcome fun _ => answers_wellWait fun _ => answers_next _
theorem wadv_outcome (h : Hdr) (w : BitVec 4) (cnt : BitVec 6) (lim : BitVec 10) (s : State) :
    SlotOutcome (.wadv h w cnt lim) h s (execWadv h w cnt lim s) :=
  slotOp_outcome fun _ => answers_wellWait fun _ => answers_ite (answers_next _) (answers_withhold ..)
theorem wbindC_outcome (h : Hdr) (k : BitVec 4) (a : BitVec 5) (sp : BitVec 2) (s : State) :
    SlotOutcome (.wbindC h k a sp) h s (execWbindC h k a sp s) :=
  slotOp_outcome fun _ => answers_bindOp ..
theorem wbindP_outcome (h : Hdr) (k : BitVec 4) (a : BitVec 5) (sp : BitVec 2) (s : State) :
    SlotOutcome (.wbindP h k a sp) h s (execWbindP h k a sp s) :=
  slotOp_outcome fun _ => answers_bindOp ..
theorem wunbind_outcome (h : Hdr) (k : BitVec 4) (s : State) : SlotOutcome (.wunbind h k) h s (execWunbind h k s) :=
  slotOp_outcome fun _ => answers_ite (answers_next _) (answers_withhold ..)
theorem wstat_outcome (h : Hdr) (d : BitVec 5) (k : BitVec 4) (s : State) : SlotOutcome (.wstat h d k) h s (execWstat h d k s) :=
  slotOp_outcome fun _ => answers_ite (answers_trapAt ..) (answers_next _)
theorem waddr_outcome (h : Hdr) (d : BitVec 5) (k : BitVec 4) (s : State) : SlotOutcome (.waddr h d k) h s (execWaddr h d k s) :=
  slotOp_outcome fun _ => answers_ite (answers_trapAt ..) (answers_next _)
theorem bankAcq_outcome (h : Hdr) (a b : BitVec 5) (s : State) : SlotOutcome (.bankAcq h a b) h s (execBankAcq h a b s) :=
  slotOp_outcome fun _ => answers_ite (answers_trapAt ..) (answers_ite (answers_trapAt ..) (answers_ownCluster fun _ =>
    answers_ite (answers_next _) (answers_next _)))
theorem bankRel_outcome (h : Hdr) (a : BitVec 5) (s : State) : SlotOutcome (.bankRel h a) h s (execBankRel h a s) :=
  slotOp_outcome fun _ => answers_ite (answers_trapAt ..) (answers_ownCluster fun _ => answers_withhold ..)
theorem bankRd_outcome (h : Hdr) (d : BitVec 5) (s : State) : SlotOutcome (.bankRd h d) h s (execBankRd h d s) :=
  slotOp_outcome fun _ => answers_ownCluster fun _ => answers_next _
theorem barWt_outcome (h : Hdr) (a b : BitVec 5) (sc : BitVec 3) (s : State) : SlotOutcome (.barWt h a b sc) h s (execBarWt h a b sc s) :=
  slotOp_outcome fun _ => answers_ite (answers_trapAt ..) (answers_objectOp fun _ _ => answers_withhold ..)
theorem drain_outcome (h : Hdr) (d : BitVec 5) (sc : BitVec 3) (s : State) : SlotOutcome (.drain h d sc) h s (execDrain h d sc s) :=
  slotOp_outcome fun _ => answers_withhold ..
theorem rteClm_outcome (h : Hdr) (d a b : BitVec 5) (s : State) : SlotOutcome (.rteClm h d a b) h s (execRteClm h d a b s) :=
  slotOp_outcome fun _ => answers_ite (answers_next _) (answers_ite (answers_next _) (answers_ite (answers_trapAt ..) (answers_withhold ..)))
theorem rteSnd_outcome (h : Hdr) (vs a b : BitVec 5) (s : State) : SlotOutcome (.rteSnd h vs a b) h s (execRteSnd h vs a b s) :=
  slotOp_outcome fun _ => answers_ite (answers_next _) (answers_ite (answers_trapAt ..) (answers_ite (answers_next _) (answers_withhold ..)))
theorem evtSig_outcome (h : Hdr) (a : BitVec 5) (s : State) : SlotOutcome (.evtSig h a) h s (execEvtSig h a s) :=
  slotOp_outcome fun _ => answers_ite (answers_trapAt ..) (answers_ite (answers_next _) (answers_withhold ..))
theorem evtWait_outcome (h : Hdr) (a b : BitVec 5) (s : State) : SlotOutcome (.evtWait h a b) h s (execEvtWait h a b s) :=
  slotOp_outcome fun _ => answers_ite (answers_trapAt ..) (answers_evtOwn fun _ => answers_ite (answers_next _) (answers_withhold ..))
theorem evtRd_outcome (h : Hdr) (d a : BitVec 5) (s : State) : SlotOutcome (.evtRd h d a) h s (execEvtRd h d a s) :=
  slotOp_outcome fun _ => answers_ite (answers_trapAt ..) (answers_evtOwn fun _ => answers_next _)

/-! ## Tasks and the system families -/

theorem task_outcome (h : Hdr) (d a : BitVec 5) (s : State) : SlotOutcome (.task h d a) h s (execTask h d a s) := by
  refine slotOp_outcome fun s => answers_ite (answers_trapAt ..) ?_
  generalize earlierTasks s s.who = early
  cases early with
  | nil => exact answers_taskGo ..
  | cons t r => exact answers_ite (answers_next _) (answers_taskGo ..)

theorem dspj_outcome (h : Hdr) (d a b : BitVec 5) (s : State) : SlotOutcome (.dspj h d a b) h s (execDspj h d a b s) := by
  refine slotOp_outcome fun s => ?_
  extract_lets ea n
  split
  · exact answers_next _
  split
  · refine answers_ite ?_ (answers_freezeFor (answers_ite (answers_trapAt ..) (answers_dispatch ..)))
    split
    · exact answers_faultAt ..
    · exact answers_dispatch ..
  · exact answers_next _

theorem ctxRd_outcome (h : Hdr) (d a b : BitVec 5) (s : State) : SlotOutcome (.ctxRd h d a b) h s (execCtxRd h d a b s) :=
  slotOp_outcome fun _ => answers_onTarget fun _ => answers_ite (answers_trapAt ..) (answers_next _)
theorem ctxWr_outcome (h : Hdr) (d a b : BitVec 5) (s : State) : SlotOutcome (.ctxWr h d a b) h s (execCtxWr h d a b s) :=
  slotOp_outcome fun _ => answers_onTarget fun _ => answers_ite (answers_trapAt ..) (answers_ite (answers_trapAt ..)
    (answers_ite (answers_trapAt ..) (answers_next _)))
theorem tret_outcome (h : Hdr) (a : BitVec 5) (s : State) : SlotOutcome (.tret h a) h s (execTret h a s) :=
  slotOp_outcome fun _ => answers_onTarget fun _ => answers_ite (answers_trapAt ..) (answers_next _)
theorem dbgStep_outcome (h : Hdr) (a : BitVec 5) (s : State) : SlotOutcome (.dbgStep h a) h s (execDbgStep h a s) :=
  slotOp_outcome fun _ => answers_onTarget fun _ => answers_ite (answers_trapAt ..) (answers_next _)
theorem dbgStop_outcome (h : Hdr) (a : BitVec 5) (s : State) : SlotOutcome (.dbgStop h a) h s (execDbgStop h a s) :=
  slotOp_outcome fun _ => answers_onTarget fun _ => answers_ite (answers_trapAt ..) (answers_next _)
theorem dbgBrk_outcome (h : Hdr) (a b : BitVec 5) (s : State) : SlotOutcome (.dbgBrk h a b) h s (execDbgBrk h a b s) := by
  refine slotOp_outcome fun s => ?_
  extract_lets w
  split
  · exact answers_trapAt ..
  · exact answers_ite (answers_trapAt ..) (answers_next _)
theorem tlbiAll_outcome (h : Hdr) (pkg : Bool) (s : State) : SlotOutcome (.tlbiAll h pkg) h s (execTlbiAll h pkg s) :=
  slotOp_outcome fun _ => answers_forgetTlb ..
theorem tlbiVf_outcome (h : Hdr) (a : BitVec 5) (pkg : Bool) (s : State) : SlotOutcome (.tlbiVf h a pkg) h s (execTlbiVf h a pkg s) :=
  slotOp_outcome fun _ => answers_ite (answers_trapAt ..) (answers_forgetTlb ..)
theorem tlbiPg_outcome (h : Hdr) (a b : BitVec 5) (pkg : Bool) (s : State) : SlotOutcome (.tlbiPg h a b pkg) h s (execTlbiPg h a b pkg s) :=
  slotOp_outcome fun _ => answers_ite (answers_trapAt ..) (answers_forgetTlb ..)
theorem monCfg_outcome (h : Hdr) (a b : BitVec 5) (s : State) : SlotOutcome (.monCfg h a b) h s (execMonCfg h a b s) :=
  slotOp_outcome fun _ => answers_monOp fun _ => answers_ite (answers_trapAt ..) (answers_next _)
theorem monRd_outcome (h : Hdr) (d a : BitVec 5) (s : State) : SlotOutcome (.monRd h d a) h s (execMonRd h d a s) :=
  slotOp_outcome fun _ => answers_monOp fun _ => answers_next _
theorem monClr_outcome (h : Hdr) (a : BitVec 5) (s : State) : SlotOutcome (.monClr h a) h s (execMonClr h a s) :=
  slotOp_outcome fun _ => answers_monOp fun _ => answers_next _
theorem wswOut_outcome (h : Hdr) (a b : BitVec 5) (s : State) : SlotOutcome (.wswOut h a b) h s (execWswOut h a b s) := by
  refine slotOp_outcome fun s => answers_ite (answers_trapAt ..) (answers_ite (answers_next _) ?_)
  split <;> exact answers_next _
theorem wswIn_outcome (h : Hdr) (a b : BitVec 5) (s : State) : SlotOutcome (.wswIn h a b) h s (execWswIn h a b s) := by
  refine slotOp_outcome fun s => answers_ite (answers_trapAt ..) ?_
  split
  · exact answers_faultAt ..
  · exact answers_freezeFor (answers_next _)
theorem cfgRd_outcome (h : Hdr) (d a b : BitVec 5) (s : State) : SlotOutcome (.cfgRd h d a b) h s (execCfgRd h d a b s) :=
  slotOp_outcome fun _ => answers_cfgOp fun _ _ => answers_next _
theorem cfgWr_outcome (h : Hdr) (d a b : BitVec 5) (s : State) : SlotOutcome (.cfgWr h d a b) h s (execCfgWr h d a b s) := by
  refine slotOp_outcome fun s => answers_cfgOp fun r t => answers_ite (answers_trapAt ..) (answers_ite (answers_trapAt ..) ?_)
  cases r with
  | owner | padwin | vaultwin => exact answers_whileIdle ..
  | scribe => exact answers_ite (answers_trapAt ..) (answers_next _)
  | qres => exact answers_swapQueue ..
  | metaTag => exact answers_trapAt ..
  | share | govtab | metaName | pkgid | group => exact answers_next _
theorem csvSave_outcome (h : Hdr) (a b : BitVec 5) (s : State) : SlotOutcome (.csvSave h a b) h s (execCsvSave h a b s) := by
  refine slotOp_outcome fun s => answers_onTarget fun t => answers_onImage
    (answers_ite (answers_trapAt ..) (answers_ite (answers_next _) ?_))
  extract_lets u
  split <;> exact answers_next _
theorem csvLd_outcome (h : Hdr) (a b : BitVec 5) (s : State) : SlotOutcome (.csvLd h a b) h s (execCsvLd h a b s) := by
  refine slotOp_outcome fun s => answers_onTarget fun t => answers_onImage (answers_ite (answers_trapAt ..) ?_)
  split
  · exact answers_trapAt ..
  split
  · exact answers_raiseOrWait ..
  split <;> exact answers_next _
theorem csvFree_outcome (h : Hdr) (a : BitVec 5) (s : State) : SlotOutcome (.csvFree h a) h s (execCsvFree h a s) :=
  slotOp_outcome fun _ => answers_onTarget fun _ => answers_ite (answers_trapAt ..) (answers_next _)
theorem csvEnd_outcome (h : Hdr) (b : BitVec 5) (s : State) : SlotOutcome (.csvEnd h b) h s (execCsvEnd h b s) := by
  refine slotOp_outcome fun s => answers_onImage ?_
  split
  · exact answers_trapAt ..
  · exact answers_next _

/-! ## The matrix families -/

theorem mxld_outcome (h : Hdr) (pnm : BitVec 4) (a : BitVec 5) (fmt : BitVec 4) (lc : BitVec 3) (gw : BitVec 2) (qb tr : Bool) (s : State) :
    SlotOutcome (.mxld h pnm a fmt lc gw qb tr) h s (execMxld h pnm a fmt lc gw qb tr s) := by
  refine slotOp_outcome fun s => answers_panesOp (answers_ite (answers_trapAt ..) ?_)
  extract_lets g K N d ops
  split
  · exact answers_of_planFetch ‹_›
  · exact answers_next _
  · exact answers_next _
  · exact answers_issueFetch ..

theorem mxa_outcome (h : Hdr) (z : BitVec 3) (a b : BitVec 5) (fmt : BitVec 4) (qb rv zs : Bool) (s : State) :
    SlotOutcome (.mxa h z a b fmt qb rv zs) h s (execMxa h z a b fmt qb rv zs s) := by
  refine slotOp_outcome fun s => answers_panesOp (answers_ite (answers_trapAt ..) (answers_gangOp fun kin w => ?_))
  extract_lets m d issue ops
  split
  · exact answers_of_planFetch ‹_›
  · exact answers_next _
  · exact answers_ite (answers_trapAt ..) (answers_shapeOp (answers_next _))
  · exact answers_ite (answers_trapAt ..) (answers_shapeOp (answers_issueFetch ..))

theorem mxav_outcome (h : Hdr) (z : BitVec 3) (a : BitVec 5) (fmt : BitVec 4) (qb rv zs : Bool) (s : State) :
    SlotOutcome (.mxav h z a fmt qb rv zs) h s (execMxav h z a fmt qb rv zs s) :=
  slotOp_outcome fun _ => answers_panesOp (answers_gangOp fun _ _ => answers_ite (answers_trapAt ..) (answers_shapeOp (answers_next _)))

theorem mxrk_outcome (h : Hdr) (z : BitVec 3) (a b : BitVec 5) (fmt : BitVec 4) (zs : Bool) (s : State) :
    SlotOutcome (.mxrk h z a b fmt zs) h s (execMxrk h z a b fmt zs s) := by
  refine slotOp_outcome fun s => answers_panesOp (answers_ite (answers_trapAt ..) ?_)
  extract_lets m d issue ops
  split
  · exact answers_of_planFetch ‹_›
  · exact answers_next _
  · exact answers_ite (answers_trapAt ..) (answers_shapeOp (answers_next _))
  · exact answers_ite (answers_trapAt ..) (answers_shapeOp (answers_issueFetch ..))

theorem mxsc_outcome (h : Hdr) (pnm : BitVec 4) (a : BitVec 5) (lc : BitVec 3) (sp : BitVec 2) (s : State) :
    SlotOutcome (.mxsc h pnm a lc sp) h s (execMxsc h pnm a lc sp s) := by
  refine slotOp_outcome fun s => answers_panesOp ?_
  split
  · exact answers_next _
  · exact answers_issueLoad ..

theorem mxrd_outcome (h : Hdr) (z : BitVec 3) (a b : BitVec 5) (fmt : BitVec 4) (rnd : BitVec 3) (s : State) :
    SlotOutcome (.mxrd h z a b fmt rnd) h s (execMxrd h z a b fmt rnd s) :=
  slotOp_outcome fun _ => answers_panesOp (answers_ite (answers_trapAt ..) (answers_tileOp
    (answers_ite (answers_trapAt ..) (answers_ite (answers_trapAt ..) (answers_next _)))))

theorem mxsvSt_outcome (h : Hdr) (z : BitVec 3) (d : BitVec 5) (s : State) : SlotOutcome (.mxsvSt h z d) h s (execMxsvSt h z d s) :=
  slotOp_outcome fun _ => answers_panesOp (answers_tileOp (answers_next _))

theorem mxsvSave_outcome (h : Hdr) (z : BitVec 3) (a b : BitVec 5) (s : State) : SlotOutcome (.mxsvSave h z a b) h s (execMxsvSave h z a b s) := by
  refine slotOp_outcome fun s => answers_panesOp (answers_ite (answers_trapAt ..) (answers_tileOp
    (answers_ite (answers_trapAt ..) (answers_ite (answers_next _) ?_))))
  split <;> exact answers_next _

theorem mxsvLd_outcome (h : Hdr) (z : BitVec 3) (a b : BitVec 5) (s : State) : SlotOutcome (.mxsvLd h z a b) h s (execMxsvLd h z a b s) := by
  refine slotOp_outcome fun s => answers_panesOp (answers_ite (answers_trapAt ..) (answers_tileOp (answers_ite (answers_next _) ?_)))
  split
  · exact answers_next _
  refine answers_ite (answers_next _) ?_
  split
  · exact answers_ite (answers_next _) (answers_next _)
  extract_lets n
  split
  · exact answers_next _
  · exact answers_ite (answers_next _) (answers_next _)

theorem mxpnRel_outcome (h : Hdr) (d : BitVec 5) (mk : BitVec 4) (s : State) : SlotOutcome (.mxpnRel h d mk) h s (execMxpnRel h d mk s) := by
  refine slotOp_outcome fun s => answers_maskOp ?_
  extract_lets c mine ps tiles due
  split
  · exact answers_trapAt ..
  · exact answers_ite (answers_next _) (answers_next _)

theorem mxpnClaim_outcome (h : Hdr) (d : BitVec 5) (mk : BitVec 4) (s : State) : SlotOutcome (.mxpnClaim h d mk) h s (execMxpnClaim h d mk s) :=
  slotOp_outcome fun _ => answers_maskOp (answers_ite (answers_next _) (answers_next _))

/-! ## The lead slot -/

theorem answers_endBundle (s : State) (h : LHdr) (pc : BitVec 64) (cost : Nat) (post : State → State) : Answers (s.endBundle h pc cost post) :=
  endBundle_next ..

theorem answers_pushLevel (h : LHdr) (s : State) (l : Level) (f8 : Option Bool) : Answers (pushLevel h s l f8) :=
  answers_ite (answers_trapAt ..) (answers_endBundle ..)

theorem answers_closeLevel (h : LHdr) (s : State) (l : Level) (more : Bool) : Answers (closeLevel h s l more) :=
  answers_ite (answers_endBundle ..) (answers_ite (answers_endBundle ..) (answers_endBundle ..))

theorem answers_execNext (h : LHdr) (s : State) : Answers (execNext h s) := leadOp_next fun _ => answers_endBundle ..
theorem answers_execBr (h : LHdr) (disp : BitVec 13) (s : State) : Answers (execBr h disp s) := by
  unfold execBr
  exact leadOp_next fun _ => answers_endBundle ..
theorem answers_execBru (h : LHdr) (mk : BitVec 4) (nsel : Bool) (disp : BitVec 8) (s : State) : Answers (execBru h mk nsel disp s) :=
  leadOp_next fun _ => answers_ite (answers_trapAt ..) (answers_ite (answers_endBundle ..) (answers_endBundle ..))
theorem answers_execJmpi (h : LHdr) (a : BitVec 5) (s : State) : Answers (execJmpi h a s) :=
  leadOp_next fun _ => answers_ite (answers_trapAt ..) (answers_endBundle ..)
theorem answers_execCall (h : LHdr) (disp : BitVec 13) (s : State) : Answers (execCall h disp s) := by
  unfold execCall
  exact leadOp_next fun _ => answers_ite (answers_trapAt ..) (answers_endBundle ..)
theorem answers_execCalli (h : LHdr) (a : BitVec 5) (s : State) : Answers (execCalli h a s) :=
  leadOp_next fun _ => answers_ite (answers_trapAt ..) (answers_ite (answers_trapAt ..) (answers_endBundle ..))
theorem answers_execRet (h : LHdr) (s : State) : Answers (execRet h s) := by
  refine leadOp_next fun s => ?_
  split
  · exact answers_trapAt ..
  · exact answers_endBundle ..
theorem answers_execLoop (h : LHdr) (a : BitVec 5) (s : State) : Answers (execLoop h a s) := leadOp_next fun _ => answers_pushLevel ..
theorem answers_execLoopPipe (h : LHdr) (a b : BitVec 5) (s : State) : Answers (execLoopPipe h a b s) := leadOp_next fun _ => answers_pushLevel ..
theorem answers_execSloop (h : LHdr) (k : BitVec 2) (b : BitVec 5) (s : State) : Answers (execSloop h k b s) :=
  leadOp_next fun _ => answers_ite (answers_trapAt ..) (answers_ite (answers_trapAt ..) (answers_pushLevel ..))

theorem answers_execLclose (h : LHdr) (s : State) : Answers (execLclose h s) := by
  refine leadOp_next fun s => ?_
  split
  · exact answers_trapAt ..
  extract_lets l
  split
  · exact answers_ite (answers_endBundle ..) (answers_endBundle ..)
  · exact answers_closeLevel ..
  · refine answers_ite (answers_closeLevel ..) (answers_ite (answers_trapAt ..) ?_)
    split
    · exact answers_next _
    · exact answers_closeLevel ..

theorem answers_execLexit (h : LHdr) (disp : BitVec 13) (s : State) : Answers (execLexit h disp s) := by
  refine leadOp_next fun s => ?_
  split
  · exact answers_trapAt ..
  · exact answers_ite (answers_endBundle ..) (answers_ite (answers_trapAt ..) (answers_endBundle ..))

theorem answers_execHalt (h : LHdr) (s : State) : Answers (execHalt h s) := leadOp_next fun _ => answers_endBundle ..
theorem answers_execTrapi (h : LHdr) (code : BitVec 13) (s : State) : Answers (execTrapi h code s) := leadOp_next fun _ => answers_endBundle ..
theorem answers_execBkpt (h : LHdr) (code : BitVec 13) (s : State) : Answers (execBkpt h code s) := leadOp_next fun _ => answers_endBundle ..

end Sys2Proof.Machine
end

section
/-!
SUPPORT. The decoder read backwards: the word of an accepted instruction is the word that was read (02 R31, R34, R35), OP by OP.
-/

namespace Sys2Proof.Machine

/-! ## Fields of a word, read and put back -/

theorem fld_toNat (n lo x : Nat) : (fld n lo x).toNat = x / 2 ^ lo % 2 ^ n := by simp [fld]

theorem flag_toNat (lo x : Nat) : (flag lo x).toNat = x / 2 ^ lo % 2 := by
  rcases Nat.mod_two_eq_zero_or_one (x / 2 ^ lo) with h | h <;> simp [flag, h]

/-- A word is its header, its OP and its low 20 bits, put together again (02 R31). -/
theorem slotWord_hdrOf {x : Nat} (hx : x < 2 ^ 32) : slotWord (hdrOf x) (x / 2 ^ 24 % 128) (x % 2 ^ 20) = x := by
  simp only [slotWord, hdrOf, fld_toNat, flag_toNat]; omega

/-- A word is its lead header, its OP and its low 13 bits, put together again (02 R34). -/
theorem leadWord_lhdrOf {x : Nat} (hx : x < 2 ^ 32) : leadWord (lhdrOf x) (x / 2 ^ 24 % 128) (x % 2 ^ 13) = x := by
  simp only [leadWord, lhdrOf, fld_toNat, flag_toNat]; omega

/-! ## Layouts: fields read from a word, with the fixed bits of that word, are its low bits (02 R34, R35) -/

section
variable {x : Nat}

theorem low_0b13_fields : low_0b13 (fld 13 0 x) 0 = x % 2 ^ 13 := by
  simp only [low_0b13, fld_toNat]; omega
theorem low_9_8_0b4b1b8_fields : low_9_8_0b4b1b8 (fld 4 9 x) (flag 8 x) (fld 8 0 x) 0 = x % 2 ^ 13 := by
  simp only [low_9_8_0b4b1b8, fld_toNat, flag_toNat]; omega
theorem low_8b5_fields {k : Nat} (hk : x % 2 ^ 8 = k) : low_8b5 (fld 5 8 x) k = x % 2 ^ 13 := by
  subst hk; simp only [low_8b5, fld_toNat]; omega
theorem low_8_3b5b5_fields {k : Nat} (hk : x % 2 ^ 3 = k) : low_8_3b5b5 (fld 5 8 x) (fld 5 3 x) k = x % 2 ^ 13 := by
  subst hk; simp only [low_8_3b5b5, fld_toNat]; omega
theorem low_8_3b2b5_fields {k : Nat} (hk : x / 2 ^ 10 % 2 ^ 3 * 2 ^ 10 + x % 2 ^ 3 = k) : low_8_3b2b5 (fld 2 8 x) (fld 5 3 x) k = x % 2 ^ 13 := by
  subst hk; simp only [low_8_3b2b5, fld_toNat]; omega
theorem low_15_10_5b5b5b5_fields {k : Nat} (hk : x % 2 ^ 5 = k) : low_15_10_5b5b5b5 (fld 5 15 x) (fld 5 10 x) (fld 5 5 x) k = x % 2 ^ 20 := by
  subst hk; simp only [low_15_10_5b5b5b5, fld_toNat]; omega
theorem low_15_10_0b5b5b10_fields : low_15_10_0b5b5b10 (fld 5 15 x) (fld 5 10 x) (fld 10 0 x) 0 = x % 2 ^ 20 := by
  simp only [low_15_10_0b5b5b10, fld_toNat]; omega
theorem low_15_10_0b5b5b6_fields {k : Nat} (hk : x / 2 ^ 6 % 2 ^ 4 * 2 ^ 6 = k) :
    low_15_10_0b5b5b6 (fld 5 15 x) (fld 5 10 x) (fld 6 0 x) k = x % 2 ^ 20 := by
  subst hk; simp only [low_15_10_0b5b5b6, fld_toNat]; omega
theorem low_15_10b5b5_fields {k : Nat} (hk : x % 2 ^ 10 = k) : low_15_10b5b5 (fld 5 15 x) (fld 5 10 x) k = x % 2 ^ 20 := by
  subst hk; simp only [low_15_10b5b5, fld_toNat]; omega
theorem low_15_10_9_8_6_0b5b5b1b1b2b6_fields :
    low_15_10_9_8_6_0b5b5b1b1b2b6 (fld 5 15 x) (fld 5 10 x) (flag 9 x) (flag 8 x) (fld 2 6 x) (fld 6 0 x) 0 = x % 2 ^ 20 := by
  simp only [low_15_10_9_8_6_0b5b5b1b1b2b6, fld_toNat, flag_toNat]; omega
theorem low_15_0b5b15_fields : low_15_0b5b15 (fld 5 15 x) (fld 15 0 x) 0 = x % 2 ^ 20 := by
  simp only [low_15_0b5b15, fld_toNat]; omega
theorem low_15_10_5_0b5b5b5b3_fields {k : Nat} (hk : x / 2 ^ 3 % 2 ^ 2 * 2 ^ 3 = k) :
    low_15_10_5_0b5b5b5b3 (fld 5 15 x) (fld 5 10 x) (fld 5 5 x) (fld 3 0 x) k = x % 2 ^ 20 := by
  subst hk; simp only [low_15_10_5_0b5b5b5b3, fld_toNat]; omega
theorem low_15_10_5_0b5b5b5b4_fields {k : Nat} (hk : x / 2 ^ 4 % 2 ^ 1 * 2 ^ 4 = k) :
    low_15_10_5_0b5b5b5b4 (fld 5 15 x) (fld 5 10 x) (fld 5 5 x) (fld 4 0 x) k = x % 2 ^ 20 := by
  subst hk; simp only [low_15_10_5_0b5b5b5b4, fld_toNat]; omega
theorem low_16_11_6_2_1b4b5b5b4b1_fields {k : Nat} (hk : x % 2 ^ 1 = k) :
    low_16_11_6_2_1b4b5b5b4b1 (fld 4 16 x) (fld 5 11 x) (fld 5 6 x) (fld 4 2 x) (flag 1 x) k = x % 2 ^ 20 := by
  subst hk; simp only [low_16_11_6_2_1b4b5b5b4b1, fld_toNat, flag_toNat]; omega
theorem low_16_11_7_6_0b4b5b4b1b6_fields : low_16_11_7_6_0b4b5b4b1b6 (fld 4 16 x) (fld 5 11 x) (fld 4 7 x) (flag 6 x) (fld 6 0 x) 0 = x % 2 ^ 20 := by
  simp only [low_16_11_7_6_0b4b5b4b1b6, fld_toNat, flag_toNat]; omega
theorem low_16_11_6_2_1_0b4b4b4b4b1b1_fields {k : Nat} (hk : x / 2 ^ 15 % 2 ^ 1 * 2 ^ 15 + x / 2 ^ 10 % 2 ^ 1 * 2 ^ 10 = k) :
    low_16_11_6_2_1_0b4b4b4b4b1b1 (fld 4 16 x) (fld 4 11 x) (fld 4 6 x) (fld 4 2 x) (flag 1 x) (flag 0 x) k = x % 2 ^ 20 := by
  subst hk; simp only [low_16_11_6_2_1_0b4b4b4b4b1b1, fld_toNat, flag_toNat]; omega
theorem low_16_11_2_1b4b5b4b1_fields {k : Nat} (hk : x / 2 ^ 6 % 2 ^ 5 * 2 ^ 6 + x % 2 ^ 1 = k) :
    low_16_11_2_1b4b5b4b1 (fld 4 16 x) (fld 5 11 x) (fld 4 2 x) (flag 1 x) k = x % 2 ^ 20 := by
  subst hk; simp only [low_16_11_2_1b4b5b4b1, fld_toNat, flag_toNat]; omega
theorem low_15_10_5_4_3b5b5b5b1b1_fields {k : Nat} (hk : x % 2 ^ 3 = k) :
    low_15_10_5_4_3b5b5b5b1b1 (fld 5 15 x) (fld 5 10 x) (fld 5 5 x) (flag 4 x) (flag 3 x) k = x % 2 ^ 20 := by
  subst hk; simp only [low_15_10_5_4_3b5b5b5b1b1, fld_toNat, flag_toNat]; omega
theorem low_16_11_6_5_2_1b4b5b5b1b3b1_fields {k : Nat} (hk : x % 2 ^ 1 = k) :
    low_16_11_6_5_2_1b4b5b5b1b3b1 (fld 4 16 x) (fld 5 11 x) (fld 5 6 x) (flag 5 x) (fld 3 2 x) (flag 1 x) k = x % 2 ^ 20 := by
  subst hk; simp only [low_16_11_6_5_2_1b4b5b5b1b3b1, fld_toNat, flag_toNat]; omega
theorem low_16_11_2b4b5b1_fields {k : Nat} (hk : x / 2 ^ 3 % 2 ^ 8 * 2 ^ 3 + x % 2 ^ 2 = k) :
    low_16_11_2b4b5b1 (fld 4 16 x) (fld 5 11 x) (flag 2 x) k = x % 2 ^ 20 := by
  subst hk; simp only [low_16_11_2b4b5b1, fld_toNat, flag_toNat]; omega
theorem low_16_11b4b5_fields {k : Nat} (hk : x % 2 ^ 11 = k) : low_16_11b4b5 (fld 4 16 x) (fld 5 11 x) k = x % 2 ^ 20 := by
  subst hk; simp only [low_16_11b4b5, fld_toNat]; omega
theorem low_15_0b5b10_fields {k : Nat} (hk : x / 2 ^ 10 % 2 ^ 5 * 2 ^ 10 = k) : low_15_0b5b10 (fld 5 15 x) (fld 10 0 x) k = x % 2 ^ 20 := by
  subst hk; simp only [low_15_0b5b10, fld_toNat]; omega
theorem low_10_0b5b10_fields {k : Nat} (hk : x / 2 ^ 15 % 2 ^ 5 * 2 ^ 15 = k) : low_10_0b5b10 (fld 5 10 x) (fld 10 0 x) k = x % 2 ^ 20 := by
  subst hk; simp only [low_10_0b5b10, fld_toNat]; omega
theorem low_15_10_7_5_0b5b5b3b2b5_fields :
    low_15_10_7_5_0b5b5b3b2b5 (fld 5 15 x) (fld 5 10 x) (fld 3 7 x) (fld 2 5 x) (fld 5 0 x) 0 = x % 2 ^ 20 := by
  simp only [low_15_10_7_5_0b5b5b3b2b5, fld_toNat]; omega
theorem low_15_10_5_0b5b5b2b5_fields {k : Nat} (hk : x / 2 ^ 7 % 2 ^ 3 * 2 ^ 7 = k) :
    low_15_10_5_0b5b5b2b5 (fld 5 15 x) (fld 5 10 x) (fld 2 5 x) (fld 5 0 x) k = x % 2 ^ 20 := by
  subst hk; simp only [low_15_10_5_0b5b5b2b5, fld_toNat]; omega
theorem low_15_10_7_0b5b5b3b5_fields {k : Nat} (hk : x / 2 ^ 5 % 2 ^ 2 * 2 ^ 5 = k) :
    low_15_10_7_0b5b5b3b5 (fld 5 15 x) (fld 5 10 x) (fld 3 7 x) (fld 5 0 x) k = x % 2 ^ 20 := by
  subst hk; simp only [low_15_10_7_0b5b5b3b5, fld_toNat]; omega
theorem low_15_10_6_2_0b5b5b4b4b2_fields :
    low_15_10_6_2_0b5b5b4b4b2 (fld 5 15 x) (fld 5 10 x) (fld 4 6 x) (fld 4 2 x) (fld 2 0 x) 0 = x % 2 ^ 20 := by
  simp only [low_15_10_6_2_0b5b5b4b4b2, fld_toNat]; omega
theorem low_15_10_0b1b5b5_fields {k : Nat} (hk : x / 2 ^ 16 % 2 ^ 4 * 2 ^ 16 + x / 2 ^ 5 % 2 ^ 5 * 2 ^ 5 = k) :
    low_15_10_0b1b5b5 (flag 15 x) (fld 5 10 x) (fld 5 0 x) k = x % 2 ^ 20 := by
  subst hk; simp only [low_15_10_0b1b5b5, fld_toNat, flag_toNat]; omega
theorem low_10_5b5b5_fields {k : Nat} (hk : x / 2 ^ 15 % 2 ^ 5 * 2 ^ 15 + x % 2 ^ 5 = k) : low_10_5b5b5 (fld 5 10 x) (fld 5 5 x) k = x % 2 ^ 20 := by
  subst hk; simp only [low_10_5b5b5, fld_toNat]; omega
theorem low_10b5_fields {k : Nat} (hk : x / 2 ^ 15 % 2 ^ 5 * 2 ^ 15 + x % 2 ^ 10 = k) : low_10b5 (fld 5 10 x) k = x % 2 ^ 20 := by
  subst hk; simp only [low_10b5, fld_toNat]; omega
theorem low_15_10_5_2b5b5b5b3_fields {k : Nat} (hk : x % 2 ^ 2 = k) :
    low_15_10_5_2b5b5b5b3 (fld 5 15 x) (fld 5 10 x) (fld 5 5 x) (fld 3 2 x) k = x % 2 ^ 20 := by
  subst hk; simp only [low_15_10_5_2b5b5b5b3, fld_toNat]; omega
theorem low_15_10_5_1_0b5b5b5b4b1_fields : low_15_10_5_1_0b5b5b5b4b1 (fld 5 15 x) (fld 5 10 x) (fld 5 5 x) (fld 4 1 x) (flag 0 x) 0 = x % 2 ^ 20 := by
  simp only [low_15_10_5_1_0b5b5b5b4b1, fld_toNat, flag_toNat]; omega
theorem low_15_10_5_1b5b5b5b4_fields {k : Nat} (hk : x % 2 ^ 1 = k) :
    low_15_10_5_1b5b5b5b4 (fld 5 15 x) (fld 5 10 x) (fld 5 5 x) (fld 4 1 x) k = x % 2 ^ 20 := by
  subst hk; simp only [low_15_10_5_1b5b5b5b4, fld_toNat]; omega
theorem low_15_10_1b5b5b4_fields {k : Nat} (hk : x / 2 ^ 5 % 2 ^ 5 * 2 ^ 5 + x % 2 ^ 1 = k) :
    low_15_10_1b5b5b4 (fld 5 15 x) (fld 5 10 x) (fld 4 1 x) k = x % 2 ^ 20 := by
  subst hk; simp only [low_15_10_1b5b5b4, fld_toNat]; omega
theorem low_15_10_5_0b5b5b5b1_fields {k : Nat} (hk : x / 2 ^ 1 % 2 ^ 4 * 2 ^ 1 = k) :
    low_15_10_5_0b5b5b5b1 (fld 5 15 x) (fld 5 10 x) (fld 5 5 x) (flag 0 x) k = x % 2 ^ 20 := by
  subst hk; simp only [low_15_10_5_0b5b5b5b1, fld_toNat, flag_toNat]; omega
theorem low_19_15_10_5_1_0b1b4b5b5b4b1_fields :
    low_19_15_10_5_1_0b1b4b5b5b4b1 (flag 19 x) (fld 4 15 x) (fld 5 10 x) (fld 5 5 x) (fld 4 1 x) (flag 0 x) 0 = x % 2 ^ 20 := by
  simp only [low_19_15_10_5_1_0b1b4b5b5b4b1, fld_toNat, flag_toNat]; omega
theorem low_15_10_5_1b5b5b4b4_fields {k : Nat} (hk : x / 2 ^ 9 % 2 ^ 1 * 2 ^ 9 + x % 2 ^ 1 = k) :
    low_15_10_5_1b5b5b4b4 (fld 5 15 x) (fld 5 10 x) (fld 4 5 x) (fld 4 1 x) k = x % 2 ^ 20 := by
  subst hk; simp only [low_15_10_5_1b5b5b4b4, fld_toNat]; omega
theorem low_15_10b5b4_fields {k : Nat} (hk : x / 2 ^ 14 % 2 ^ 1 * 2 ^ 14 + x % 2 ^ 10 = k) :
    low_15_10b5b4 (fld 5 15 x) (fld 4 10 x) k = x % 2 ^ 20 := by
  subst hk; simp only [low_15_10b5b4, fld_toNat]; omega
theorem low_15_10b4b5_fields {k : Nat} (hk : x / 2 ^ 19 % 2 ^ 1 * 2 ^ 19 + x % 2 ^ 10 = k) :
    low_15_10b4b5 (fld 4 15 x) (fld 5 10 x) k = x % 2 ^ 20 := by
  subst hk; simp only [low_15_10b4b5, fld_toNat]; omega
theorem low_15_10b4b4_fields {k : Nat} (hk : x / 2 ^ 19 % 2 ^ 1 * 2 ^ 19 + x / 2 ^ 14 % 2 ^ 1 * 2 ^ 14 + x % 2 ^ 10 = k) :
    low_15_10b4b4 (fld 4 15 x) (fld 4 10 x) k = x % 2 ^ 20 := by
  subst hk; simp only [low_15_10b4b4, fld_toNat]; omega
theorem low_15_10_7_5_1b5b5b1b2b4_fields {k : Nat} (hk : x / 2 ^ 8 % 2 ^ 2 * 2 ^ 8 + x % 2 ^ 1 = k) :
    low_15_10_7_5_1b5b5b1b2b4 (fld 5 15 x) (fld 5 10 x) (flag 7 x) (fld 2 5 x) (fld 4 1 x) k = x % 2 ^ 20 := by
  subst hk; simp only [low_15_10_7_5_1b5b5b1b2b4, fld_toNat, flag_toNat]; omega
theorem low_15_10_5_1b5b5b3b4_fields {k : Nat} (hk : x / 2 ^ 8 % 2 ^ 2 * 2 ^ 8 + x % 2 ^ 1 = k) :
    low_15_10_5_1b5b5b3b4 (fld 5 15 x) (fld 5 10 x) (fld 3 5 x) (fld 4 1 x) k = x % 2 ^ 20 := by
  subst hk; simp only [low_15_10_5_1b5b5b3b4, fld_toNat]; omega
theorem low_16_11_7_4_2_1_0b4b5b4b3b2b1b1_fields :
    low_16_11_7_4_2_1_0b4b5b4b3b2b1b1 (fld 4 16 x) (fld 5 11 x) (fld 4 7 x) (fld 3 4 x) (fld 2 2 x) (flag 1 x) (flag 0 x) 0 = x % 2 ^ 20 := by
  simp only [low_16_11_7_4_2_1_0b4b5b4b3b2b1b1, fld_toNat, flag_toNat]; omega
theorem low_17_12_7_3_2_1_0b3b5b5b4b1b1b1_fields :
    low_17_12_7_3_2_1_0b3b5b5b4b1b1b1 (fld 3 17 x) (fld 5 12 x) (fld 5 7 x) (fld 4 3 x) (flag 2 x) (flag 1 x) (flag 0 x) 0 = x % 2 ^ 20 := by
  simp only [low_17_12_7_3_2_1_0b3b5b5b4b1b1b1, fld_toNat, flag_toNat]; omega
theorem low_17_12_3_2_1_0b3b5b4b1b1b1_fields {k : Nat} (hk : x / 2 ^ 7 % 2 ^ 5 * 2 ^ 7 = k) :
    low_17_12_3_2_1_0b3b5b4b1b1b1 (fld 3 17 x) (fld 5 12 x) (fld 4 3 x) (flag 2 x) (flag 1 x) (flag 0 x) k = x % 2 ^ 20 := by
  subst hk; simp only [low_17_12_3_2_1_0b3b5b4b1b1b1, fld_toNat, flag_toNat]; omega
theorem low_17_12_7_3_0b3b5b5b4b3_fields :
    low_17_12_7_3_0b3b5b5b4b3 (fld 3 17 x) (fld 5 12 x) (fld 5 7 x) (fld 4 3 x) (fld 3 0 x) 0 = x % 2 ^ 20 := by
  simp only [low_17_12_7_3_0b3b5b5b4b3, fld_toNat]; omega
theorem low_17_12_7_3_0b3b5b5b4b1_fields {k : Nat} (hk : x / 2 ^ 1 % 2 ^ 2 * 2 ^ 1 = k) :
    low_17_12_7_3_0b3b5b5b4b1 (fld 3 17 x) (fld 5 12 x) (fld 5 7 x) (fld 4 3 x) (flag 0 x) k = x % 2 ^ 20 := by
  subst hk; simp only [low_17_12_7_3_0b3b5b5b4b1, fld_toNat, flag_toNat]; omega
theorem low_15b5_fields {k : Nat} (hk : x % 2 ^ 15 = k) : low_15b5 (fld 5 15 x) k = x % 2 ^ 20 := by
  subst hk; simp only [low_15b5, fld_toNat]; omega
theorem low_15_0b5b4_fields {k : Nat} (hk : x / 2 ^ 4 % 2 ^ 11 * 2 ^ 4 = k) : low_15_0b5b4 (fld 5 15 x) (fld 4 0 x) k = x % 2 ^ 20 := by
  subst hk; simp only [low_15_0b5b4, fld_toNat]; omega
theorem low_17_12_7b3b5b5_fields {k : Nat} (hk : x % 2 ^ 7 = k) : low_17_12_7b3b5b5 (fld 3 17 x) (fld 5 12 x) (fld 5 7 x) k = x % 2 ^ 20 := by
  subst hk; simp only [low_17_12_7b3b5b5, fld_toNat]; omega
theorem low_17_12b3b5_fields {k : Nat} (hk : x % 2 ^ 12 = k) : low_17_12b3b5 (fld 3 17 x) (fld 5 12 x) k = x % 2 ^ 20 := by
  subst hk; simp only [low_17_12b3b5, fld_toNat]; omega
theorem low_10_5_0b5b5b1_fields {k : Nat} (hk : x / 2 ^ 15 % 2 ^ 5 * 2 ^ 15 + x / 2 ^ 1 % 2 ^ 4 * 2 ^ 1 = k) :
    low_10_5_0b5b5b1 (fld 5 10 x) (fld 5 5 x) (flag 0 x) k = x % 2 ^ 20 := by
  subst hk; simp only [low_10_5_0b5b5b1, fld_toNat, flag_toNat]; omega
theorem low_10_5b2b5_fields {k : Nat} (hk : x / 2 ^ 12 % 2 ^ 8 * 2 ^ 12 + x % 2 ^ 5 = k) : low_10_5b2b5 (fld 2 10 x) (fld 5 5 x) k = x % 2 ^ 20 := by
  subst hk; simp only [low_10_5b2b5, fld_toNat]; omega
theorem low_15_10b2b5_fields {k : Nat} (hk : x / 2 ^ 17 % 2 ^ 3 * 2 ^ 17 + x % 2 ^ 10 = k) :
    low_15_10b2b5 (fld 2 15 x) (fld 5 10 x) k = x % 2 ^ 20 := by
  subst hk; simp only [low_15_10b2b5, fld_toNat]; omega
theorem low_15b2_fields {k : Nat} (hk : x / 2 ^ 17 % 2 ^ 3 * 2 ^ 17 + x % 2 ^ 15 = k) : low_15b2 (fld 2 15 x) k = x % 2 ^ 20 := by
  subst hk; simp only [low_15b2, fld_toNat]; omega
theorem low_15_5b5b2_fields {k : Nat} (hk : x / 2 ^ 7 % 2 ^ 8 * 2 ^ 7 + x % 2 ^ 5 = k) : low_15_5b5b2 (fld 5 15 x) (fld 2 5 x) k = x % 2 ^ 20 := by
  subst hk; simp only [low_15_5b5b2, fld_toNat]; omega
theorem low_16_10_0b4b6b10_fields : low_16_10_0b4b6b10 (fld 4 16 x) (fld 6 10 x) (fld 10 0 x) 0 = x % 2 ^ 20 := by
  simp only [low_16_10_0b4b6b10, fld_toNat]; omega
theorem low_15_10_3b4b5b2_fields {k : Nat} (hk : x / 2 ^ 19 % 2 ^ 1 * 2 ^ 19 + x / 2 ^ 5 % 2 ^ 5 * 2 ^ 5 + x % 2 ^ 3 = k) :
    low_15_10_3b4b5b2 (fld 4 15 x) (fld 5 10 x) (fld 2 3 x) k = x % 2 ^ 20 := by
  subst hk; simp only [low_15_10_3b4b5b2, fld_toNat]; omega
theorem low_15b4_fields {k : Nat} (hk : x / 2 ^ 19 % 2 ^ 1 * 2 ^ 19 + x % 2 ^ 15 = k) : low_15b4 (fld 4 15 x) k = x % 2 ^ 20 := by
  subst hk; simp only [low_15b4, fld_toNat]; omega
theorem low_15_5b5b4_fields {k : Nat} (hk : x / 2 ^ 9 % 2 ^ 6 * 2 ^ 9 + x % 2 ^ 5 = k) : low_15_5b5b4 (fld 5 15 x) (fld 4 5 x) k = x % 2 ^ 20 := by
  subst hk; simp only [low_15_5b5b4, fld_toNat]; omega
theorem low_16_11_4_0b4b5b3b2_fields {k : Nat} (hk : x / 2 ^ 7 % 2 ^ 4 * 2 ^ 7 + x / 2 ^ 2 % 2 ^ 2 * 2 ^ 2 = k) :
    low_16_11_4_0b4b5b3b2 (fld 4 16 x) (fld 5 11 x) (fld 3 4 x) (fld 2 0 x) k = x % 2 ^ 20 := by
  subst hk; simp only [low_16_11_4_0b4b5b3b2, fld_toNat]; omega
theorem low_15_10_7_5_4b5b5b3b2b1_fields {k : Nat} (hk : x % 2 ^ 4 = k) :
    low_15_10_7_5_4b5b5b3b2b1 (fld 5 15 x) (fld 5 10 x) (fld 3 7 x) (fld 2 5 x) (flag 4 x) k = x % 2 ^ 20 := by
  subst hk; simp only [low_15_10_7_5_4b5b5b3b2b1, fld_toNat, flag_toNat]; omega
theorem low_10_5_2b5b5b3_fields {k : Nat} (hk : x / 2 ^ 15 % 2 ^ 5 * 2 ^ 15 + x % 2 ^ 2 = k) :
    low_10_5_2b5b5b3 (fld 5 10 x) (fld 5 5 x) (fld 3 2 x) k = x % 2 ^ 20 := by
  subst hk; simp only [low_10_5_2b5b5b3, fld_toNat]; omega
theorem low_15_2b5b3_fields {k : Nat} (hk : x / 2 ^ 5 % 2 ^ 10 * 2 ^ 5 + x % 2 ^ 2 = k) : low_15_2b5b3 (fld 5 15 x) (fld 3 2 x) k = x % 2 ^ 20 := by
  subst hk; simp only [low_15_2b5b3, fld_toNat]; omega
theorem low_5b5_fields {k : Nat} (hk : x / 2 ^ 10 % 2 ^ 10 * 2 ^ 10 + x % 2 ^ 5 = k) : low_5b5 (fld 5 5 x) k = x % 2 ^ 20 := by
  subst hk; simp only [low_5b5, fld_toNat]; omega
theorem low_2b1_fields {k : Nat} (hk : x / 2 ^ 3 % 2 ^ 17 * 2 ^ 3 + x % 2 ^ 2 = k) : low_2b1 (flag 2 x) k = x % 2 ^ 20 := by
  subst hk; simp only [low_2b1, flag_toNat]; omega
theorem low_10_2b5b1_fields {k : Nat} (hk : x / 2 ^ 15 % 2 ^ 5 * 2 ^ 15 + x / 2 ^ 3 % 2 ^ 7 * 2 ^ 3 + x % 2 ^ 2 = k) :
    low_10_2b5b1 (fld 5 10 x) (flag 2 x) k = x % 2 ^ 20 := by
  subst hk; simp only [low_10_2b5b1, fld_toNat, flag_toNat]; omega
theorem low_10_5_2b5b5b1_fields {k : Nat} (hk : x / 2 ^ 15 % 2 ^ 5 * 2 ^ 15 + x / 2 ^ 3 % 2 ^ 2 * 2 ^ 3 + x % 2 ^ 2 = k) :
    low_10_5_2b5b5b1 (fld 5 10 x) (fld 5 5 x) (flag 2 x) k = x % 2 ^ 20 := by
  subst hk; simp only [low_10_5_2b5b5b1, fld_toNat, flag_toNat]; omega

end

/-! ## What the decoder reads, by OP value -/

/-- What is read from a word as a slot of OP `op` with header `h`: an instruction whose own word has this header, this OP and the low bits of the
word read, and which acts as a slot with this header (02 R31). -/
structure ReadsSlot (h : Hdr) (op x : Nat) (i : Instr) : Prop where
  word : encodeNat i = some (slotWord h op (x % 2 ^ 20))
  outcome : ∀ s, SlotOutcome i h s (exec i s)

/-- What is read from a word as a lead slot of OP `op` with header `h` (02 R34). -/
structure ReadsLead (h : LHdr) (op x : Nat) (i : Instr) : Prop where
  word : encodeNat i = some (leadWord h op (x % 2 ^ 13))
  answers : ∀ s, Answers (exec i s)

theorem slotWord_low {h : Hdr} {op low x : Nat} (e : low = x % 2 ^ 20) :
    some (slotWord h op low) = some (slotWord h op (x % 2 ^ 20)) := by rw [e]

theorem leadWord_low {h : LHdr} {op low x : Nat} (e : low = x % 2 ^ 13) :
    some (leadWord h op low) = some (leadWord h op (x % 2 ^ 13)) := by rw [e]

/-- An arm of the decoder that answers gives its own instruction, where its condition holds, or leaves the answer to the arms after it. The
eleven arms of OP 0x6F are taken apart with it one at a time, being too many for one split. -/
theorem ok_of_ite_ok {p : Prop} [Decidable p] {a i : Instr} {r : Except DecodeErr Instr} (e : (if p then .ok a else r) = .ok i) :
    p ∧ a = i ∨ r = .ok i := by
  split at e
  case isTrue hp => cases e; exact .inl ⟨hp, rfl⟩
  case isFalse => exact .inr e

section
variable {h : LHdr} {x : Nat} {i : Instr}

theorem decodeOp00_reads (e : decodeOp00 h x = .ok i) : ReadsLead h 0x00 x i := by
  unfold decodeOp00 at e
  split_ifs at e; cases e
  exact ⟨leadWord_low (by unfold low; omega), fun _ => answers_execNext ..⟩

theorem decodeOp01_reads (e : decodeOp01 h x = .ok i) : ReadsLead h 0x01 x i := by
  cases e
  exact ⟨leadWord_low low_0b13_fields, fun _ => answers_execBr ..⟩

theorem decodeOp02_reads (e : decodeOp02 h x = .ok i) : ReadsLead h 0x02 x i := by
  cases e
  exact ⟨leadWord_low low_9_8_0b4b1b8_fields, fun _ => answers_execBru ..⟩

theorem decodeOp03_reads (e : decodeOp03 h x = .ok i) : ReadsLead h 0x03 x i := by
  unfold decodeOp03 at e
  split_ifs at e; cases e
  exact ⟨leadWord_low (low_8b5_fields (by omega)), fun _ => answers_execJmpi ..⟩

theorem decodeOp04_reads (e : decodeOp04 h x = .ok i) : ReadsLead h 0x04 x i := by
  cases e
  exact ⟨leadWord_low low_0b13_fields, fun _ => answers_execCall ..⟩

theorem decodeOp05_reads (e : decodeOp05 h x = .ok i) : ReadsLead h 0x05 x i := by
  unfold decodeOp05 at e
  split_ifs at e; cases e
  exact ⟨leadWord_low (low_8b5_fields (by omega)), fun _ => answers_execCalli ..⟩

theorem decodeOp06_reads (e : decodeOp06 h x = .ok i) : ReadsLead h 0x06 x i := by
  unfold decodeOp06 at e
  split_ifs at e; cases e
  exact ⟨leadWord_low (by unfold low; omega), fun _ => answers_execRet ..⟩

theorem decodeOp07_reads (e : decodeOp07 h x = .ok i) : ReadsLead h 0x07 x i := by
  unfold decodeOp07 at e
  split_ifs at e <;> cases e
  · exact ⟨leadWord_low (low_8b5_fields (by omega)), fun _ => answers_execLoop ..⟩
  · exact ⟨leadWord_low (low_8_3b5b5_fields (by omega)), fun _ => answers_execLoopPipe ..⟩

theorem decodeOp08_reads (e : decodeOp08 h x = .ok i) : ReadsLead h 0x08 x i := by
  unfold decodeOp08 at e
  split_ifs at e; cases e
  exact ⟨leadWord_low (low_8_3b2b5_fields (by omega)), fun _ => answers_execSloop ..⟩

theorem decodeOp09_reads (e : decodeOp09 h x = .ok i) : ReadsLead h 0x09 x i := by
  unfold decodeOp09 at e
  split_ifs at e; cases e
  exact ⟨leadWord_low (by unfold low; omega), fun _ => answers_execLclose ..⟩

theorem decodeOp0A_reads (e : decodeOp0A h x = .ok i) : ReadsLead h 0x0A x i := by
  cases e
  exact ⟨leadWord_low low_0b13_fields, fun _ => answers_execLexit ..⟩

theorem decodeOp0B_reads (e : decodeOp0B h x = .ok i) : ReadsLead h 0x0B x i := by
  unfold decodeOp0B at e
  split_ifs at e; cases e
  exact ⟨leadWord_low (by unfold low; omega), fun _ => answers_execHalt ..⟩

theorem decodeOp0C_reads (e : decodeOp0C h x = .ok i) : ReadsLead h 0x0C x i := by
  cases e
  exact ⟨leadWord_low low_0b13_fields, fun _ => answers_execTrapi ..⟩

theorem decodeOp0D_reads (e : decodeOp0D h x = .ok i) : ReadsLead h 0x0D x i := by
  cases e
  exact ⟨leadWord_low low_0b13_fields, fun _ => answers_execBkpt ..⟩

end

section
variable {h : Hdr} {x : Nat} {i : Instr}

theorem decodeOp10_reads (e : decodeOp10 h x = .ok i) : ReadsSlot h 0x10 x i := by
  unfold decodeOp10 at e
  split_ifs at e <;> cases e
  · exact ⟨slotWord_low (low_15_10_5b5b5b5_fields (by omega)), fun _ => by unfold exec execAdd; exact scalarOp_outcome⟩
  · exact ⟨slotWord_low (low_15_10_5b5b5b5_fields (by omega)), fun _ => by unfold exec execAddSs; exact scalarOp_outcome⟩
  · exact ⟨slotWord_low (low_15_10_5b5b5b5_fields (by omega)), fun _ => by unfold exec execAddUs; exact scalarOp_outcome⟩
  · exact ⟨slotWord_low (low_15_10_5b5b5b5_fields (by omega)), fun _ => by unfold exec execAddW; exact scalarOp_outcome⟩

theorem decodeOp11_reads (e : decodeOp11 h x = .ok i) : ReadsSlot h 0x11 x i := by
  unfold decodeOp11 at e
  split_ifs at e <;> cases e
  · exact ⟨slotWord_low (low_15_10_5b5b5b5_fields (by omega)), fun _ => by unfold exec execSub; exact scalarOp_outcome⟩
  · exact ⟨slotWord_low (low_15_10_5b5b5b5_fields (by omega)), fun _ => by unfold exec execSubSs; exact scalarOp_outcome⟩
  · exact ⟨slotWord_low (low_15_10_5b5b5b5_fields (by omega)), fun _ => by unfold exec execSubUs; exact scalarOp_outcome⟩
  · exact ⟨slotWord_low (low_15_10_5b5b5b5_fields (by omega)), fun _ => by unfold exec execSubW; exact scalarOp_outcome⟩

theorem decodeOp12_reads (e : decodeOp12 h x = .ok i) : ReadsSlot h 0x12 x i := by
  cases e
  exact ⟨slotWord_low low_15_10_0b5b5b10_fields, fun _ => by unfold exec execAddi; exact scalarOp_outcome⟩

theorem decodeOp13_reads (e : decodeOp13 h x = .ok i) : ReadsSlot h 0x13 x i := by
  unfold decodeOp13 at e
  split_ifs at e; cases e
  exact ⟨slotWord_low (low_15_10_5b5b5b5_fields (by omega)), fun _ => by unfold exec execMul; exact scalarOp_outcome⟩

theorem decodeOp14_reads (e : decodeOp14 h x = .ok i) : ReadsSlot h 0x14 x i := by
  unfold decodeOp14 at e
  split_ifs at e <;> cases e
  · exact ⟨slotWord_low (low_15_10_5b5b5b5_fields (by omega)), fun _ => by unfold exec execMulh; exact scalarOp_outcome⟩
  · exact ⟨slotWord_low (low_15_10_5b5b5b5_fields (by omega)), fun _ => by unfold exec execMulhU; exact scalarOp_outcome⟩

theorem decodeOp15_reads (e : decodeOp15 h x = .ok i) : ReadsSlot h 0x15 x i := by
  unfold decodeOp15 at e
  split_ifs at e <;> cases e
  · exact ⟨slotWord_low (low_15_10_5b5b5b5_fields (by omega)), fun _ => by unfold exec execDiv; exact divOp_outcome⟩
  · exact ⟨slotWord_low (low_15_10_5b5b5b5_fields (by omega)), fun _ => by unfold exec execDivU; exact divOp_outcome⟩
  · exact ⟨slotWord_low (low_15_10_5b5b5b5_fields (by omega)), fun _ => by unfold exec execDivRem; exact divOp_outcome⟩
  · exact ⟨slotWord_low (low_15_10_5b5b5b5_fields (by omega)), fun _ => by unfold exec execDivURem; exact divOp_outcome⟩

theorem decodeOp16_reads (e : decodeOp16 h x = .ok i) : ReadsSlot h 0x16 x i := by
  unfold decodeOp16 at e
  split_ifs at e <;> cases e
  · exact ⟨slotWord_low (low_15_10_5b5b5b5_fields (by omega)), fun _ => by unfold exec execAnd; exact scalarOp_outcome⟩
  · exact ⟨slotWord_low (low_15_10_5b5b5b5_fields (by omega)), fun _ => by unfold exec execOr; exact scalarOp_outcome⟩
  · exact ⟨slotWord_low (low_15_10_5b5b5b5_fields (by omega)), fun _ => by unfold exec execXor; exact scalarOp_outcome⟩
  · exact ⟨slotWord_low (low_15_10_5b5b5b5_fields (by omega)), fun _ => by unfold exec execAndn; exact scalarOp_outcome⟩
  · exact ⟨slotWord_low (low_15_10_5b5b5b5_fields (by omega)), fun _ => by unfold exec execOrn; exact scalarOp_outcome⟩
  · exact ⟨slotWord_low (low_15_10_5b5b5b5_fields (by omega)), fun _ => by unfold exec execXnor; exact scalarOp_outcome⟩

theorem decodeOp17_reads (e : decodeOp17 h x = .ok i) : ReadsSlot h 0x17 x i := by
  unfold decodeOp17 at e
  split_ifs at e <;> cases e
  · exact ⟨slotWord_low (low_15_10_5b5b5b5_fields (by omega)), fun _ => by unfold exec execShl; exact scalarOp_outcome⟩
  · exact ⟨slotWord_low (low_15_10_5b5b5b5_fields (by omega)), fun _ => by unfold exec execShr; exact scalarOp_outcome⟩
  · exact ⟨slotWord_low (low_15_10_5b5b5b5_fields (by omega)), fun _ => by unfold exec execSar; exact scalarOp_outcome⟩
  · exact ⟨slotWord_low (low_15_10_5b5b5b5_fields (by omega)), fun _ => by unfold exec execRor; exact scalarOp_outcome⟩

theorem decodeOp18_reads (e : decodeOp18 h x = .ok i) : ReadsSlot h 0x18 x i := by
  unfold decodeOp18 at e
  split_ifs at e <;> cases e
  · exact ⟨slotWord_low (low_15_10_0b5b5b6_fields (by omega)), fun _ => by unfold exec execShli; exact scalarOp_outcome⟩
  · exact ⟨slotWord_low (low_15_10_0b5b5b6_fields (by omega)), fun _ => by unfold exec execShri; exact scalarOp_outcome⟩
  · exact ⟨slotWord_low (low_15_10_0b5b5b6_fields (by omega)), fun _ => by unfold exec execSari; exact scalarOp_outcome⟩
  · exact ⟨slotWord_low (low_15_10_0b5b5b6_fields (by omega)), fun _ => by unfold exec execRori; exact scalarOp_outcome⟩

theorem decodeOp19_reads (e : decodeOp19 h x = .ok i) : ReadsSlot h 0x19 x i := by
  unfold decodeOp19 at e
  split_ifs at e <;> cases e
  · exact ⟨slotWord_low (low_15_10_5b5b5b5_fields (by omega)), fun _ => by unfold exec execMin; exact scalarOp_outcome⟩
  · exact ⟨slotWord_low (low_15_10_5b5b5b5_fields (by omega)), fun _ => by unfold exec execMax; exact scalarOp_outcome⟩
  · exact ⟨slotWord_low (low_15_10_5b5b5b5_fields (by omega)), fun _ => by unfold exec execMinu; exact scalarOp_outcome⟩
  · exact ⟨slotWord_low (low_15_10_5b5b5b5_fields (by omega)), fun _ => by unfold exec execMaxu; exact scalarOp_outcome⟩

theorem decodeOp1A_reads (e : decodeOp1A h x = .ok i) : ReadsSlot h 0x1A x i := by
  unfold decodeOp1A at e
  split_ifs at e <;> cases e
  · exact ⟨slotWord_low (low_15_10b5b5_fields (by omega)), fun _ => by unfold exec execPopc; exact scalarOp_outcome⟩
  · exact ⟨slotWord_low (low_15_10b5b5_fields (by omega)), fun _ => by unfold exec execClz; exact scalarOp_outcome⟩
  · exact ⟨slotWord_low (low_15_10b5b5_fields (by omega)), fun _ => by unfold exec execCtz; exact scalarOp_outcome⟩
  · exact ⟨slotWord_low (low_15_10b5b5_fields (by omega)), fun _ => by unfold exec execBitrev; exact scalarOp_outcome⟩
  · exact ⟨slotWord_low (low_15_10b5b5_fields (by omega)), fun _ => by unfold exec execByterev; exact scalarOp_outcome⟩

theorem decodeOp1B_reads (e : decodeOp1B h x = .ok i) : ReadsSlot h 0x1B x i := by
  cases e
  exact ⟨slotWord_low low_15_10_9_8_6_0b5b5b1b1b2b6_fields, fun _ => by unfold exec execFld; exact scalarOp_outcome⟩

theorem decodeOp1C_reads (e : decodeOp1C h x = .ok i) : ReadsSlot h 0x1C x i := by
  cases e
  exact ⟨slotWord_low low_15_0b5b15_fields, fun _ => by unfold exec execMovi; exact scalarOp_outcome⟩

theorem decodeOp1D_reads (e : decodeOp1D h x = .ok i) : ReadsSlot h 0x1D x i := by
  cases e
  exact ⟨slotWord_low low_15_0b5b15_fields, fun _ => by unfold exec execMovhi; exact scalarOp_outcome⟩

theorem decodeOp1E_reads (e : decodeOp1E h x = .ok i) : ReadsSlot h 0x1E x i := by
  unfold decodeOp1E at e
  split_ifs at e; cases e
  exact ⟨slotWord_low (low_15_10_5_0b5b5b5b3_fields (by omega)), fun _ => by unfold exec execLea; exact scalarOp_outcome⟩

theorem decodeOp1F_reads (e : decodeOp1F h x = .ok i) : ReadsSlot h 0x1F x i := by
  unfold decodeOp1F at e
  split_ifs at e; cases e
  exact ⟨slotWord_low (low_15_10_5_0b5b5b5b4_fields (by omega)), fun _ => by unfold exec execSel; exact scalarOp_outcome⟩

theorem decodeOp20_reads (e : decodeOp20 h x = .ok i) : ReadsSlot h 0x20 x i := by
  unfold decodeOp20 at e
  split_ifs at e; cases e
  exact ⟨slotWord_low (low_16_11_6_2_1b4b5b5b4b1_fields (by omega)), fun _ => by unfold exec execCmp; exact slotOp_outcome_next⟩

theorem decodeOp21_reads (e : decodeOp21 h x = .ok i) : ReadsSlot h 0x21 x i := by
  cases e
  exact ⟨slotWord_low low_16_11_7_6_0b4b5b4b1b6_fields, fun _ => by unfold exec execCmpi; exact slotOp_outcome_next⟩

theorem decodeOp22_reads (e : decodeOp22 h x = .ok i) : ReadsSlot h 0x22 x i := by
  unfold decodeOp22 at e
  split_ifs at e; cases e
  exact ⟨slotWord_low (low_16_11_6_2_1_0b4b4b4b4b1b1_fields (by omega)), fun _ => plog_outcome ..⟩

theorem decodeOp23_reads (e : decodeOp23 h x = .ok i) : ReadsSlot h 0x23 x i := by
  unfold decodeOp23 at e
  split_ifs at e; cases e
  exact ⟨slotWord_low (low_16_11_2_1b4b5b4b1_fields (by omega)), fun _ => by unfold exec execPmov; exact slotOp_outcome_next⟩

theorem decodeOp24_reads (e : decodeOp24 h x = .ok i) : ReadsSlot h 0x24 x i := by
  unfold decodeOp24 at e
  split_ifs at e <;> cases e
  · exact ⟨slotWord_low (low_15_10_5_4_3b5b5b5b1b1_fields (by omega)), fun _ => by unfold exec execFadd; exact sfOp_outcome⟩
  · exact ⟨slotWord_low (low_15_10_5_4_3b5b5b5b1b1_fields (by omega)), fun _ => by unfold exec execFsub; exact sfOp_outcome⟩
  · exact ⟨slotWord_low (low_15_10_5_4_3b5b5b5b1b1_fields (by omega)), fun _ => by unfold exec execFmul; exact sfOp_outcome⟩
  · exact ⟨slotWord_low (low_15_10_5_4_3b5b5b5b1b1_fields (by omega)), fun _ => by unfold exec execFfma; exact scalarOp_outcome⟩
  · exact ⟨slotWord_low (low_15_10_5_4_3b5b5b5b1b1_fields (by omega)), fun _ => by unfold exec execFmin; exact sfOp_outcome⟩
  · exact ⟨slotWord_low (low_15_10_5_4_3b5b5b5b1b1_fields (by omega)), fun _ => by unfold exec execFmax; exact sfOp_outcome⟩

theorem decodeOp25_reads (e : decodeOp25 h x = .ok i) : ReadsSlot h 0x25 x i := by
  unfold decodeOp25 at e
  split_ifs at e <;> cases e
  · exact ⟨slotWord_low (low_16_11_6_5_2_1b4b5b5b1b3b1_fields (by omega)), fun _ => by unfold exec execFcmp; exact slotOp_outcome_next⟩
  · exact ⟨slotWord_low (low_16_11_2b4b5b1_fields (by omega)), fun _ => by unfold exec execFicvt; exact scalarOp_outcome⟩
  · exact ⟨slotWord_low (low_16_11_2b4b5b1_fields (by omega)), fun _ => by unfold exec execFcvti; exact scalarOp_outcome⟩
  · exact ⟨slotWord_low (low_16_11b4b5_fields (by omega)), fun _ => by unfold exec execFwiden; exact scalarOp_outcome⟩
  · exact ⟨slotWord_low (low_16_11b4b5_fields (by omega)), fun _ => by unfold exec execFnarrow; exact scalarOp_outcome⟩

theorem decodeOp26_reads (e : decodeOp26 h x = .ok i) : ReadsSlot h 0x26 x i := by
  unfold decodeOp26 at e
  split_ifs at e; cases e
  exact ⟨slotWord_low (low_15_0b5b10_fields (by omega)), fun _ => by unfold exec execRdsr; exact scalarOp_outcome⟩

theorem decodeOp27_reads (e : decodeOp27 h x = .ok i) : ReadsSlot h 0x27 x i := by
  unfold decodeOp27 at e
  split_ifs at e; cases e
  exact ⟨slotWord_low (low_10_0b5b10_fields (by omega)), fun _ => by unfold exec execWrsr; exact slotOp_outcome_next⟩

theorem decodeOp28_reads (e : decodeOp28 h x = .ok i) : ReadsSlot h 0x28 x i := by
  cases e
  exact ⟨slotWord_low low_15_10_7_5_0b5b5b3b2b5_fields, fun _ => by unfold exec execLds; exact loadOp_outcome⟩

theorem decodeOp29_reads (e : decodeOp29 h x = .ok i) : ReadsSlot h 0x29 x i := by
  cases e
  exact ⟨slotWord_low low_15_10_7_5_0b5b5b3b2b5_fields, fun _ => by unfold exec execLdsp; exact loadOp_outcome⟩

theorem decodeOp2A_reads (e : decodeOp2A h x = .ok i) : ReadsSlot h 0x2A x i := by
  cases e
  exact ⟨slotWord_low low_15_10_7_5_0b5b5b3b2b5_fields, fun _ => by unfold exec execLdsv; exact loadOp_outcome⟩

theorem decodeOp2B_reads (e : decodeOp2B h x = .ok i) : ReadsSlot h 0x2B x i := by
  unfold decodeOp2B at e
  split_ifs at e; cases e
  exact ⟨slotWord_low (low_15_10_5_0b5b5b2b5_fields (by omega)), fun _ => by unfold exec execSts; exact storeOp_outcome⟩

theorem decodeOp2C_reads (e : decodeOp2C h x = .ok i) : ReadsSlot h 0x2C x i := by
  cases e
  exact ⟨slotWord_low low_15_10_7_5_0b5b5b3b2b5_fields, fun _ => by unfold exec execLdv; exact loadOp_outcome⟩

theorem decodeOp2D_reads (e : decodeOp2D h x = .ok i) : ReadsSlot h 0x2D x i := by
  unfold decodeOp2D at e
  split_ifs at e; cases e
  exact ⟨slotWord_low (low_15_10_7_0b5b5b3b5_fields (by omega)), fun _ => ldvs_outcome ..⟩

theorem decodeOp2E_reads (e : decodeOp2E h x = .ok i) : ReadsSlot h 0x2E x i := by
  cases e
  exact ⟨slotWord_low low_15_10_7_5_0b5b5b3b2b5_fields, fun _ => ldvx_outcome ..⟩

theorem decodeOp2F_reads (e : decodeOp2F h x = .ok i) : ReadsSlot h 0x2F x i := by
  unfold decodeOp2F at e
  split_ifs at e; cases e
  exact ⟨slotWord_low (low_15_10_5_0b5b5b2b5_fields (by omega)), fun _ => by unfold exec execStv; exact storeOp_outcome⟩

theorem decodeOp30_reads (e : decodeOp30 h x = .ok i) : ReadsSlot h 0x30 x i := by
  cases e
  exact ⟨slotWord_low low_15_10_6_2_0b5b5b4b4b2_fields, fun _ => stvs_outcome ..⟩

theorem decodeOp31_reads (e : decodeOp31 h x = .ok i) : ReadsSlot h 0x31 x i := by
  unfold decodeOp31 at e
  split_ifs at e; cases e
  exact ⟨slotWord_low (low_15_10_5_0b5b5b2b5_fields (by omega)), fun _ => stvx_outcome ..⟩

theorem decodeOp32_reads (e : decodeOp32 h x = .ok i) : ReadsSlot h 0x32 x i := by
  unfold decodeOp32 at e
  split_ifs at e; cases e
  exact ⟨slotWord_low (low_15_10_0b1b5b5_fields (by omega)), fun _ => pref_outcome ..⟩

theorem decodeOp33_reads (e : decodeOp33 h x = .ok i) : ReadsSlot h 0x33 x i := by
  unfold decodeOp33 at e
  split_ifs at e <;> cases e
  · exact ⟨slotWord_low (low_10_5b5b5_fields (by omega)), fun _ => chk_outcome ..⟩
  · exact ⟨slotWord_low (low_10_5b5b5_fields (by omega)), fun _ => chkVec_outcome ..⟩

theorem decodeOp34_reads (e : decodeOp34 h x = .ok i) : ReadsSlot h 0x34 x i := by
  unfold decodeOp34 at e
  split_ifs at e <;> cases e
  · exact ⟨slotWord_low (low_10_5b5b5_fields (by omega)), fun _ => cpchGo_outcome ..⟩
  · exact ⟨slotWord_low (low_15_10b5b5_fields (by omega)), fun _ => cpchSt_outcome ..⟩
  · exact ⟨slotWord_low (low_10b5_fields (by omega)), fun _ => cpchStop_outcome ..⟩

theorem decodeOp35_reads (e : decodeOp35 h x = .ok i) : ReadsSlot h 0x35 x i := by
  unfold decodeOp35 at e
  split_ifs at e <;> cases e
  · exact ⟨slotWord_low (low_10_5b5b5_fields (by omega)), fun _ => memcPhase_outcome ..⟩
  · exact ⟨slotWord_low (low_15_10_5_2b5b5b5b3_fields (by omega)), fun _ => memcRinv_outcome ..⟩
  · exact ⟨slotWord_low (low_10_5b5b5_fields (by omega)), fun _ => memcCreg_outcome ..⟩
  · exact ⟨slotWord_low (low_10_5b5b5_fields (by omega)), fun _ => memcCerr_outcome ..⟩

theorem decodeOp36_reads (e : decodeOp36 h x = .ok i) : ReadsSlot h 0x36 x i := by
  unfold decodeOp36 at e
  split_ifs at e <;> cases e
  · exact ⟨slotWord_low (low_10b5_fields (by omega)), fun _ => by unfold exec execColl; exact blockStart_outcome⟩
  · exact ⟨slotWord_low (low_10b5_fields (by omega)), fun _ => by unfold exec execRing; exact blockStart_outcome⟩
  · exact ⟨slotWord_low (low_15_10b5b5_fields (by omega)), fun _ => rsemRd_outcome ..⟩
  · exact ⟨slotWord_low (low_10_5b5b5_fields (by omega)), fun _ => rsemSet_outcome ..⟩
  · exact ⟨slotWord_low (low_10_5b5b5_fields (by omega)), fun _ => rsemAdd_outcome ..⟩

theorem decodeOp37_reads (e : decodeOp37 h x = .ok i) : ReadsSlot h 0x37 x i := by
  unfold decodeOp37 at e
  split_ifs at e <;> cases e
  · exact ⟨slotWord_low (low_10_5b5b5_fields (by omega)), fun _ => stabWr_outcome ..⟩
  · exact ⟨slotWord_low (low_15_10_5b5b5b5_fields (by omega)), fun _ => stabRd_outcome ..⟩
  · exact ⟨slotWord_low (low_10b5_fields (by omega)), fun _ => stabGo_outcome ..⟩
  · exact ⟨slotWord_low (by unfold low; omega), fun _ => stabStop_outcome ..⟩
  · exact ⟨slotWord_low (low_15_10b5b5_fields (by omega)), fun _ => stabReg_outcome ..⟩
  · exact ⟨slotWord_low (low_10_5b5b5_fields (by omega)), fun _ => stabLink_outcome ..⟩
  · exact ⟨slotWord_low (by unfold low; omega), fun _ => stabClr_outcome ..⟩

theorem decodeOp38_reads (e : decodeOp38 h x = .ok i) : ReadsSlot h 0x38 x i := by
  cases e
  exact ⟨slotWord_low low_15_10_5_1_0b5b5b5b4b1_fields, fun _ => by unfold exec execVadd; exact vecOp_outcome⟩

theorem decodeOp39_reads (e : decodeOp39 h x = .ok i) : ReadsSlot h 0x39 x i := by
  cases e
  exact ⟨slotWord_low low_15_10_5_1_0b5b5b5b4b1_fields, fun _ => by unfold exec execVsub; exact vecOp_outcome⟩

theorem decodeOp3A_reads (e : decodeOp3A h x = .ok i) : ReadsSlot h 0x3A x i := by
  cases e
  exact ⟨slotWord_low low_15_10_5_1_0b5b5b5b4b1_fields, fun _ => by unfold exec execVmul; exact vecOp_outcome⟩

theorem decodeOp3B_reads (e : decodeOp3B h x = .ok i) : ReadsSlot h 0x3B x i := by
  cases e
  exact ⟨slotWord_low low_15_10_5_1_0b5b5b5b4b1_fields, fun _ => by unfold exec execVfma; exact vecOp_outcome⟩

theorem decodeOp3C_reads (e : decodeOp3C h x = .ok i) : ReadsSlot h 0x3C x i := by
  unfold decodeOp3C at e
  split_ifs at e <;> cases e
  · exact ⟨slotWord_low (low_15_10_5_1b5b5b5b4_fields (by omega)), fun _ => by unfold exec execVmin; exact vecOp_outcome⟩
  · exact ⟨slotWord_low (low_15_10_5_1b5b5b5b4_fields (by omega)), fun _ => by unfold exec execVmax; exact vecOp_outcome⟩

theorem decodeOp3D_reads (e : decodeOp3D h x = .ok i) : ReadsSlot h 0x3D x i := by
  unfold decodeOp3D at e
  split_ifs at e <;> cases e
  · exact ⟨slotWord_low (low_15_10_1b5b5b4_fields (by omega)), fun _ => by unfold exec execVabs; exact vecOp_outcome⟩
  · exact ⟨slotWord_low (low_15_10_1b5b5b4_fields (by omega)), fun _ => by unfold exec execVneg; exact vecOp_outcome⟩

theorem decodeOp3E_reads (e : decodeOp3E h x = .ok i) : ReadsSlot h 0x3E x i := by
  unfold decodeOp3E at e
  split_ifs at e <;> cases e
  · exact ⟨slotWord_low (low_15_10_5b5b5b5_fields (by omega)), fun _ => by unfold exec execVand; exact vecOp_outcome⟩
  · exact ⟨slotWord_low (low_15_10_5b5b5b5_fields (by omega)), fun _ => by unfold exec execVor; exact vecOp_outcome⟩
  · exact ⟨slotWord_low (low_15_10_5b5b5b5_fields (by omega)), fun _ => by unfold exec execVxor; exact vecOp_outcome⟩
  · exact ⟨slotWord_low (low_15_10_5b5b5b5_fields (by omega)), fun _ => by unfold exec execVandn; exact vecOp_outcome⟩
  · exact ⟨slotWord_low (low_15_10_5b5b5b5_fields (by omega)), fun _ => by unfold exec execVorn; exact vecOp_outcome⟩
  · exact ⟨slotWord_low (low_15_10_5b5b5b5_fields (by omega)), fun _ => by unfold exec execVxnor; exact vecOp_outcome⟩

theorem decodeOp3F_reads (e : decodeOp3F h x = .ok i) : ReadsSlot h 0x3F x i := by
  unfold decodeOp3F at e
  split_ifs at e <;> cases e
  · exact ⟨slotWord_low (low_15_10_5_0b5b5b5b1_fields (by omega)), fun _ => by unfold exec execVshl; exact vecOp_outcome⟩
  · exact ⟨slotWord_low (low_15_10_5_0b5b5b5b1_fields (by omega)), fun _ => by unfold exec execVshr; exact vecOp_outcome⟩
  · exact ⟨slotWord_low (low_15_10_5_0b5b5b5b1_fields (by omega)), fun _ => by unfold exec execVsar; exact vecOp_outcome⟩

theorem decodeOp40_reads (e : decodeOp40 h x = .ok i) : ReadsSlot h 0x40 x i := by
  cases e
  exact ⟨slotWord_low low_19_15_10_5_1_0b1b4b5b5b4b1_fields, fun _ => by unfold exec execVcmp; exact slotOp_outcome_next⟩

theorem decodeOp41_reads (e : decodeOp41 h x = .ok i) : ReadsSlot h 0x41 x i := by
  unfold decodeOp41 at e
  split_ifs at e; cases e
  exact ⟨slotWord_low (low_15_10_5_1b5b5b4b4_fields (by omega)), fun _ => by unfold exec execVsel; exact vecOp_outcome⟩

theorem decodeOp42_reads (e : decodeOp42 h x = .ok i) : ReadsSlot h 0x42 x i := by
  unfold decodeOp42 at e
  split_ifs at e <;> cases e
  · exact ⟨slotWord_low (low_15_10b5b4_fields (by omega)), fun _ => by unfold exec execVmaskPopc; exact slotOp_outcome_next⟩
  · exact ⟨slotWord_low (low_15_10b5b4_fields (by omega)), fun _ => by unfold exec execVmaskFfs; exact slotOp_outcome_next⟩
  · exact ⟨slotWord_low (low_15_10b5b4_fields (by omega)), fun _ => by unfold exec execVmaskTov; exact vecOp_outcome⟩
  · exact ⟨slotWord_low (low_15_10b4b5_fields (by omega)), fun _ => by unfold exec execVmaskFromv; exact slotOp_outcome_next⟩
  · exact ⟨slotWord_low (low_15_10b4b4_fields (by omega)), fun _ => by unfold exec execVmaskFromp; exact slotOp_outcome_next⟩

theorem decodeOp43_reads (e : decodeOp43 h x = .ok i) : ReadsSlot h 0x43 x i := by
  unfold decodeOp43 at e
  split_ifs at e; cases e
  exact ⟨slotWord_low (low_15_10_5_1b5b5b5b4_fields (by omega)), fun _ => by unfold exec execVswz; exact vecOp_outcome⟩

theorem decodeOp44_reads (e : decodeOp44 h x = .ok i) : ReadsSlot h 0x44 x i := by
  cases e
  exact ⟨slotWord_low low_15_10_5_1_0b5b5b5b4b1_fields, fun _ => by unfold exec execVperm; exact vecOp_outcome⟩

theorem decodeOp45_reads (e : decodeOp45 h x = .ok i) : ReadsSlot h 0x45 x i := by
  unfold decodeOp45 at e
  split_ifs at e <;> cases e
  · exact ⟨slotWord_low (low_15_10_1b5b5b4_fields (by omega)), fun _ => by unfold exec execVbc; exact vecOp_outcome⟩
  · exact ⟨slotWord_low (low_15_10_5_1b5b5b5b4_fields (by omega)), fun _ => by unfold exec execVbcLane; exact vecOp_outcome⟩

theorem decodeOp46_reads (e : decodeOp46 h x = .ok i) : ReadsSlot h 0x46 x i := by
  unfold decodeOp46 at e
  split_ifs at e <;> cases e
  · exact ⟨slotWord_low (low_15_10_5_1b5b5b4b4_fields (by omega)), fun _ => by unfold exec execVrsum; exact vredOp_outcome⟩
  · exact ⟨slotWord_low (low_15_10_5_1b5b5b4b4_fields (by omega)), fun _ => by unfold exec execVrmax; exact vredOp_outcome⟩
  · exact ⟨slotWord_low (low_15_10_5_1b5b5b4b4_fields (by omega)), fun _ => by unfold exec execVrmin; exact vredOp_outcome⟩

theorem decodeOp47_reads (e : decodeOp47 h x = .ok i) : ReadsSlot h 0x47 x i := by
  unfold decodeOp47 at e
  split_ifs at e <;> cases e
  · exact ⟨slotWord_low (low_15_10_5_1b5b5b5b4_fields (by omega)), fun _ => by unfold exec execVcvt; exact vecOp_outcome⟩
  · exact ⟨slotWord_low (low_15_10_5_1b5b5b5b4_fields (by omega)), fun _ => by unfold exec execVcvf; exact vecOp_outcome⟩

theorem decodeOp48_reads (e : decodeOp48 h x = .ok i) : ReadsSlot h 0x48 x i := by
  cases e
  exact ⟨slotWord_low low_15_10_5_1_0b5b5b5b4b1_fields, fun _ => by unfold exec execVsxp; exact vecOp_outcome⟩

theorem decodeOp49_reads (e : decodeOp49 h x = .ok i) : ReadsSlot h 0x49 x i := by
  unfold decodeOp49 at e
  split_ifs at e <;> cases e
  · exact ⟨slotWord_low (low_15_10_7_5_1b5b5b1b2b4_fields (by omega)), fun _ => by unfold exec execVplnSplit; exact vecOp_outcome⟩
  · exact ⟨slotWord_low (low_15_10_7_5_1b5b5b1b2b4_fields (by omega)), fun _ => by unfold exec execVplnJoin; exact vecOp_outcome⟩

theorem decodeOp4A_reads (e : decodeOp4A h x = .ok i) : ReadsSlot h 0x4A x i := by
  cases e
  exact ⟨slotWord_low low_15_10_5_1_0b5b5b5b4b1_fields, fun _ => by unfold exec execVdiv; exact vecOp_outcome⟩

theorem decodeOp4B_reads (e : decodeOp4B h x = .ok i) : ReadsSlot h 0x4B x i := by
  cases e
  exact ⟨slotWord_low low_15_10_5_1_0b5b5b5b4b1_fields, fun _ => by unfold exec execVupd; exact slotOp_outcome_next⟩

theorem decodeOp4C_reads (e : decodeOp4C h x = .ok i) : ReadsSlot h 0x4C x i := by
  unfold decodeOp4C at e
  split_ifs at e; cases e
  exact ⟨slotWord_low (low_15_10_5_1b5b5b5b4_fields (by omega)), fun _ => by unfold exec execVidx; exact vecOp_outcome⟩

theorem decodeOp4D_reads (e : decodeOp4D h x = .ok i) : ReadsSlot h 0x4D x i := by
  cases e
  exact ⟨slotWord_low low_15_10_5_1_0b5b5b5b4b1_fields, fun _ => by unfold exec execVdot; exact vecOp_outcome⟩

theorem decodeOp4E_reads (e : decodeOp4E h x = .ok i) : ReadsSlot h 0x4E x i := by
  unfold decodeOp4E at e
  split_ifs at e; cases e
  exact ⟨slotWord_low (low_15_10_5_1b5b5b5b4_fields (by omega)), fun _ => by unfold exec execVrnd; exact vecOp_outcome⟩

theorem decodeOp4F_reads (e : decodeOp4F h x = .ok i) : ReadsSlot h 0x4F x i := by
  cases e
  exact ⟨slotWord_low low_15_10_5_1_0b5b5b5b4b1_fields, fun _ => by unfold exec execVhash; exact vecOp_outcome⟩

theorem decodeOp50_reads (e : decodeOp50 h x = .ok i) : ReadsSlot h 0x50 x i := by
  unfold decodeOp50 at e
  split_ifs at e <;> cases e
  · exact ⟨slotWord_low (low_15_10_1b5b5b4_fields (by omega)), fun _ => by unfold exec execXsin; exact xfnOp_outcome⟩
  · exact ⟨slotWord_low (low_15_10_1b5b5b4_fields (by omega)), fun _ => by unfold exec execXcos; exact xfnOp_outcome⟩

theorem decodeOp51_reads (e : decodeOp51 h x = .ok i) : ReadsSlot h 0x51 x i := by
  unfold decodeOp51 at e
  split_ifs at e <;> cases e
  · exact ⟨slotWord_low (low_15_10_1b5b5b4_fields (by omega)), fun _ => by unfold exec execXex2; exact xfnOp_outcome⟩
  · exact ⟨slotWord_low (low_15_10_1b5b5b4_fields (by omega)), fun _ => by unfold exec execXlg2; exact xfnOp_outcome⟩

theorem decodeOp52_reads (e : decodeOp52 h x = .ok i) : ReadsSlot h 0x52 x i := by
  unfold decodeOp52 at e
  split_ifs at e <;> cases e
  · exact ⟨slotWord_low (low_15_10_1b5b5b4_fields (by omega)), fun _ => by unfold exec execXrcp; exact xfnOp_outcome⟩
  · exact ⟨slotWord_low (low_15_10_1b5b5b4_fields (by omega)), fun _ => by unfold exec execXrsq; exact xfnOp_outcome⟩

theorem decodeOp53_reads (e : decodeOp53 h x = .ok i) : ReadsSlot h 0x53 x i := by
  unfold decodeOp53 at e
  split_ifs at e <;> cases e
  · exact ⟨slotWord_low (low_15_10_1b5b5b4_fields (by omega)), fun _ => by unfold exec execXtanh; exact xfnOp_outcome⟩
  · exact ⟨slotWord_low (low_15_10_1b5b5b4_fields (by omega)), fun _ => by unfold exec execXsigm; exact xfnOp_outcome⟩

theorem decodeOp54_reads (e : decodeOp54 h x = .ok i) : ReadsSlot h 0x54 x i := by
  unfold decodeOp54 at e
  split_ifs at e; cases e
  exact ⟨slotWord_low (low_15_10_5_1b5b5b3b4_fields (by omega)), fun _ => by unfold exec execXtrn; exact vecOp_outcome⟩

theorem decodeOp55_reads (e : decodeOp55 h x = .ok i) : ReadsSlot h 0x55 x i := by
  cases e
  exact ⟨slotWord_low low_15_10_5_1_0b5b5b5b4b1_fields, fun _ => xcvt_outcome ..⟩

theorem decodeOp56_reads (e : decodeOp56 h x = .ok i) : ReadsSlot h 0x56 x i := by
  unfold decodeOp56 at e
  split_ifs at e; cases e
  exact ⟨slotWord_low (low_15_10_1b5b5b4_fields (by omega)), fun _ => by unfold exec execXcmp; exact slotOp_outcome_next⟩

theorem decodeOp57_reads (e : decodeOp57 h x = .ok i) : ReadsSlot h 0x57 x i := by
  unfold decodeOp57 at e
  split_ifs at e; cases e
  exact ⟨slotWord_low (low_15_10b5b5_fields (by omega)), fun _ => xexd_outcome ..⟩

theorem decodeOp5C_reads (e : decodeOp5C h x = .ok i) : ReadsSlot h 0x5C x i := by
  cases e
  exact ⟨slotWord_low low_16_11_7_4_2_1_0b4b5b4b3b2b1b1_fields, fun _ => mxld_outcome ..⟩

theorem decodeOp5D_reads (e : decodeOp5D h x = .ok i) : ReadsSlot h 0x5D x i := by
  cases e
  exact ⟨slotWord_low low_17_12_7_3_2_1_0b3b5b5b4b1b1b1_fields, fun _ => mxa_outcome ..⟩

theorem decodeOp5E_reads (e : decodeOp5E h x = .ok i) : ReadsSlot h 0x5E x i := by
  unfold decodeOp5E at e
  split_ifs at e; cases e
  exact ⟨slotWord_low (low_17_12_3_2_1_0b3b5b4b1b1b1_fields (by omega)), fun _ => mxav_outcome ..⟩

theorem decodeOp5F_reads (e : decodeOp5F h x = .ok i) : ReadsSlot h 0x5F x i := by
  cases e
  exact ⟨slotWord_low low_17_12_7_3_0b3b5b5b4b3_fields, fun _ => mxrd_outcome ..⟩

theorem decodeOp60_reads (e : decodeOp60 h x = .ok i) : ReadsSlot h 0x60 x i := by
  unfold decodeOp60 at e
  split_ifs at e; cases e
  exact ⟨slotWord_low (low_17_12_7_3_0b3b5b5b4b1_fields (by omega)), fun _ => mxrk_outcome ..⟩

theorem decodeOp61_reads (e : decodeOp61 h x = .ok i) : ReadsSlot h 0x61 x i := by
  unfold decodeOp61 at e
  split_ifs at e <;> cases e
  · exact ⟨slotWord_low (low_15b5_fields (by omega)), fun _ => by unfold exec execMxpnRd; exact slotOp_outcome_next⟩
  · exact ⟨slotWord_low (low_15_0b5b4_fields (by omega)), fun _ => mxpnClaim_outcome ..⟩
  · exact ⟨slotWord_low (low_15_0b5b4_fields (by omega)), fun _ => mxpnRel_outcome ..⟩

theorem decodeOp62_reads (e : decodeOp62 h x = .ok i) : ReadsSlot h 0x62 x i := by
  unfold decodeOp62 at e
  split_ifs at e <;> cases e
  · exact ⟨slotWord_low (low_17_12_7b3b5b5_fields (by omega)), fun _ => mxsvSave_outcome ..⟩
  · exact ⟨slotWord_low (low_17_12_7b3b5b5_fields (by omega)), fun _ => mxsvLd_outcome ..⟩
  · exact ⟨slotWord_low (low_17_12b3b5_fields (by omega)), fun _ => mxsvSt_outcome ..⟩

theorem decodeOp63_reads (e : decodeOp63 h x = .ok i) : ReadsSlot h 0x63 x i := by
  unfold decodeOp63 at e
  split_ifs at e <;> cases e
  · exact ⟨slotWord_low (low_10b5_fields (by omega)), fun _ => govPol_outcome ..⟩
  · exact ⟨slotWord_low (low_15_10_5b5b5b5_fields (by omega)), fun _ => govRd_outcome ..⟩
  · exact ⟨slotWord_low (low_10_5b5b5_fields (by omega)), fun _ => govSet_outcome ..⟩
  · exact ⟨slotWord_low (low_10b5_fields (by omega)), fun _ => govClr_outcome ..⟩

theorem decodeOp64_reads (e : decodeOp64 h x = .ok i) : ReadsSlot h 0x64 x i := by
  unfold decodeOp64 at e
  split_ifs at e <;> cases e
  · exact ⟨slotWord_low (low_10_5b5b5_fields (by omega)), fun _ => by unfold exec execGmeasMb; exact measure_outcome⟩
  · exact ⟨slotWord_low (low_10_5b5b5_fields (by omega)), fun _ => by unfold exec execGmeasTot; exact measure_outcome⟩

theorem decodeOp65_reads (e : decodeOp65 h x = .ok i) : ReadsSlot h 0x65 x i := by
  unfold decodeOp65 at e
  split_ifs at e; cases e
  exact ⟨slotWord_low (low_15_10_5b5b5b5_fields (by omega)), fun _ => gstep_outcome ..⟩

theorem decodeOp68_reads (e : decodeOp68 h x = .ok i) : ReadsSlot h 0x68 x i := by
  unfold decodeOp68 at e
  split_ifs at e <;> cases e
  · exact ⟨slotWord_low (low_10_5_0b5b5b1_fields (by omega)), fun _ => qpush_outcome ..⟩
  · exact ⟨slotWord_low (low_10_5b2b5_fields (by omega)), fun _ => qpushFwd_outcome ..⟩

theorem decodeOp69_reads (e : decodeOp69 h x = .ok i) : ReadsSlot h 0x69 x i := by
  unfold decodeOp69 at e
  split_ifs at e <;> cases e
  · exact ⟨slotWord_low (low_15_10b2b5_fields (by omega)), fun _ => qbind_outcome ..⟩
  · exact ⟨slotWord_low (low_15b2_fields (by omega)), fun _ => qunbind_outcome ..⟩
  · exact ⟨slotWord_low (low_15_5b5b2_fields (by omega)), fun _ => qrd_outcome ..⟩
  · exact ⟨slotWord_low (low_15_5b5b2_fields (by omega)), fun _ => qstat_outcome ..⟩

theorem decodeOp6A_reads (e : decodeOp6A h x = .ok i) : ReadsSlot h 0x6A x i := by
  cases e
  exact ⟨slotWord_low low_16_10_0b4b6b10_fields, fun _ => wop_outcome ..⟩

theorem decodeOp6B_reads (e : decodeOp6B h x = .ok i) : ReadsSlot h 0x6B x i := by
  cases e
  exact ⟨slotWord_low low_16_10_0b4b6b10_fields, fun _ => wadv_outcome ..⟩

theorem decodeOp6C_reads (e : decodeOp6C h x = .ok i) : ReadsSlot h 0x6C x i := by
  unfold decodeOp6C at e
  split_ifs at e <;> cases e
  · exact ⟨slotWord_low (low_15_10_3b4b5b2_fields (by omega)), fun _ => wbindC_outcome ..⟩
  · exact ⟨slotWord_low (low_15_10_3b4b5b2_fields (by omega)), fun _ => wbindP_outcome ..⟩
  · exact ⟨slotWord_low (low_15b4_fields (by omega)), fun _ => wunbind_outcome ..⟩
  · exact ⟨slotWord_low (low_15_5b5b4_fields (by omega)), fun _ => wstat_outcome ..⟩
  · exact ⟨slotWord_low (low_15_5b5b4_fields (by omega)), fun _ => waddr_outcome ..⟩

theorem decodeOp6D_reads (e : decodeOp6D h x = .ok i) : ReadsSlot h 0x6D x i := by
  unfold decodeOp6D at e
  split_ifs at e; cases e
  exact ⟨slotWord_low (low_16_11_4_0b4b5b3b2_fields (by omega)), fun _ => mxsc_outcome ..⟩

theorem decodeOp6E_reads (e : decodeOp6E h x = .ok i) : ReadsSlot h 0x6E x i := by
  unfold decodeOp6E at e
  split_ifs at e <;> cases e
  · exact ⟨slotWord_low (low_10_5b5b5_fields (by omega)), fun _ => bankAcq_outcome ..⟩
  · exact ⟨slotWord_low (low_10b5_fields (by omega)), fun _ => bankRel_outcome ..⟩
  · exact ⟨slotWord_low (low_15b5_fields (by omega)), fun _ => bankRd_outcome ..⟩

theorem decodeOp6F_reads (e : decodeOp6F h x = .ok i) : ReadsSlot h 0x6F x i := by
  unfold decodeOp6F at e
  obtain ⟨hk, rfl⟩ | e := ok_of_ite_ok e
  · exact ⟨slotWord_low (low_15_10_7_5_4b5b5b3b2b1_fields (by omega)), fun _ => by unfold exec execAtomSwap; exact atomOp_outcome⟩
  obtain ⟨hk, rfl⟩ | e := ok_of_ite_ok e
  · exact ⟨slotWord_low (low_15_10_7_5_4b5b5b3b2b1_fields (by omega)), fun _ => by unfold exec execAtomAdd; exact atomOp_outcome⟩
  obtain ⟨hk, rfl⟩ | e := ok_of_ite_ok e
  · exact ⟨slotWord_low (low_15_10_7_5_4b5b5b3b2b1_fields (by omega)), fun _ => by unfold exec execAtomAnd; exact atomOp_outcome⟩
  obtain ⟨hk, rfl⟩ | e := ok_of_ite_ok e
  · exact ⟨slotWord_low (low_15_10_7_5_4b5b5b3b2b1_fields (by omega)), fun _ => by unfold exec execAtomOr; exact atomOp_outcome⟩
  obtain ⟨hk, rfl⟩ | e := ok_of_ite_ok e
  · exact ⟨slotWord_low (low_15_10_7_5_4b5b5b3b2b1_fields (by omega)), fun _ => by unfold exec execAtomXor; exact atomOp_outcome⟩
  obtain ⟨hk, rfl⟩ | e := ok_of_ite_ok e
  · exact ⟨slotWord_low (low_15_10_7_5_4b5b5b3b2b1_fields (by omega)), fun _ => by unfold exec execAtomMin; exact atomOp_outcome⟩
  obtain ⟨hk, rfl⟩ | e := ok_of_ite_ok e
  · exact ⟨slotWord_low (low_15_10_7_5_4b5b5b3b2b1_fields (by omega)), fun _ => by unfold exec execAtomMax; exact atomOp_outcome⟩
  obtain ⟨hk, rfl⟩ | e := ok_of_ite_ok e
  · exact ⟨slotWord_low (low_15_10_7_5_4b5b5b3b2b1_fields (by omega)), fun _ => by unfold exec execAtomMinu; exact atomOp_outcome⟩
  obtain ⟨hk, rfl⟩ | e := ok_of_ite_ok e
  · exact ⟨slotWord_low (low_15_10_7_5_4b5b5b3b2b1_fields (by omega)), fun _ => by unfold exec execAtomMaxu; exact atomOp_outcome⟩
  obtain ⟨hk, rfl⟩ | e := ok_of_ite_ok e
  · exact ⟨slotWord_low (low_15_10_7_5_4b5b5b3b2b1_fields (by omega)), fun _ => by unfold exec execAtomCas; exact atomOp_outcome⟩
  obtain ⟨hk, rfl⟩ | e := ok_of_ite_ok e
  · exact ⟨slotWord_low (low_15_10_7_5_4b5b5b3b2b1_fields (by omega)), fun _ => by unfold exec execAtomFadd; exact atomOp_outcome⟩
  cases e

theorem decodeOp70_reads (e : decodeOp70 h x = .ok i) : ReadsSlot h 0x70 x i := by
  unfold decodeOp70 at e
  split_ifs at e <;> cases e
  · exact ⟨slotWord_low (low_10_5_2b5b5b3_fields (by omega)), fun _ => by unfold exec execBarArr; exact arriveOp_outcome⟩
  · exact ⟨slotWord_low (low_10_5_2b5b5b3_fields (by omega)), fun _ => by unfold exec execBarSync; exact arriveOp_outcome⟩
  · exact ⟨slotWord_low (low_10_5_2b5b5b3_fields (by omega)), fun _ => barWt_outcome ..⟩

theorem decodeOp71_reads (e : decodeOp71 h x = .ok i) : ReadsSlot h 0x71 x i := by
  unfold decodeOp71 at e
  split_ifs at e; cases e
  exact ⟨slotWord_low (low_15_2b5b3_fields (by omega)), fun _ => drain_outcome ..⟩

theorem decodeOp72_reads (e : decodeOp72 h x = .ok i) : ReadsSlot h 0x72 x i := by
  unfold decodeOp72 at e
  split_ifs at e <;> cases e
  · exact ⟨slotWord_low (low_15_10_5b5b5b5_fields (by omega)), fun _ => rteClm_outcome ..⟩
  · exact ⟨slotWord_low (low_15_10_5b5b5b5_fields (by omega)), fun _ => rteSnd_outcome ..⟩

theorem decodeOp73_reads (e : decodeOp73 h x = .ok i) : ReadsSlot h 0x73 x i := by
  unfold decodeOp73 at e
  split_ifs at e <;> cases e
  · exact ⟨slotWord_low (low_10b5_fields (by omega)), fun _ => evtSig_outcome ..⟩
  · exact ⟨slotWord_low (low_10_5b5b5_fields (by omega)), fun _ => evtWait_outcome ..⟩
  · exact ⟨slotWord_low (low_15_10b5b5_fields (by omega)), fun _ => evtRd_outcome ..⟩

theorem decodeOp74_reads (e : decodeOp74 h x = .ok i) : ReadsSlot h 0x74 x i := by
  unfold decodeOp74 at e
  split_ifs at e; cases e
  exact ⟨slotWord_low (low_15_10b5b5_fields (by omega)), fun _ => task_outcome ..⟩

theorem decodeOp75_reads (e : decodeOp75 h x = .ok i) : ReadsSlot h 0x75 x i := by
  unfold decodeOp75 at e
  split_ifs at e; cases e
  exact ⟨slotWord_low (low_15_10_5b5b5b5_fields (by omega)), fun _ => dspj_outcome ..⟩

theorem decodeOp76_reads (e : decodeOp76 h x = .ok i) : ReadsSlot h 0x76 x i := by
  unfold decodeOp76 at e
  split_ifs at e <;> cases e
  · exact ⟨slotWord_low (low_15_10_5b5b5b5_fields (by omega)), fun _ => ctxRd_outcome ..⟩
  · exact ⟨slotWord_low (low_15_10_5b5b5b5_fields (by omega)), fun _ => ctxWr_outcome ..⟩

theorem decodeOp77_reads (e : decodeOp77 h x = .ok i) : ReadsSlot h 0x77 x i := by
  unfold decodeOp77 at e
  split_ifs at e <;> cases e
  · exact ⟨slotWord_low (low_10_5b5b5_fields (by omega)), fun _ => csvSave_outcome ..⟩
  · exact ⟨slotWord_low (low_10_5b5b5_fields (by omega)), fun _ => csvLd_outcome ..⟩
  · exact ⟨slotWord_low (low_10b5_fields (by omega)), fun _ => csvFree_outcome ..⟩
  · exact ⟨slotWord_low (low_5b5_fields (by omega)), fun _ => csvEnd_outcome ..⟩

theorem decodeOp78_reads (e : decodeOp78 h x = .ok i) : ReadsSlot h 0x78 x i := by
  unfold decodeOp78 at e
  split_ifs at e; cases e
  exact ⟨slotWord_low (low_10b5_fields (by omega)), fun _ => tret_outcome ..⟩

theorem decodeOp79_reads (e : decodeOp79 h x = .ok i) : ReadsSlot h 0x79 x i := by
  unfold decodeOp79 at e
  split_ifs at e <;> cases e
  · exact ⟨slotWord_low (low_2b1_fields (by omega)), fun _ => tlbiAll_outcome ..⟩
  · exact ⟨slotWord_low (low_10_2b5b1_fields (by omega)), fun _ => tlbiVf_outcome ..⟩
  · exact ⟨slotWord_low (low_10_5_2b5b5b1_fields (by omega)), fun _ => tlbiPg_outcome ..⟩

theorem decodeOp7A_reads (e : decodeOp7A h x = .ok i) : ReadsSlot h 0x7A x i := by
  unfold decodeOp7A at e
  split_ifs at e <;> cases e
  · exact ⟨slotWord_low (low_10_5b5b5_fields (by omega)), fun _ => monCfg_outcome ..⟩
  · exact ⟨slotWord_low (low_15_10b5b5_fields (by omega)), fun _ => monRd_outcome ..⟩
  · exact ⟨slotWord_low (low_10b5_fields (by omega)), fun _ => monClr_outcome ..⟩

theorem decodeOp7B_reads (e : decodeOp7B h x = .ok i) : ReadsSlot h 0x7B x i := by
  unfold decodeOp7B at e
  split_ifs at e <;> cases e
  · exact ⟨slotWord_low (low_10_5b5b5_fields (by omega)), fun _ => wswOut_outcome ..⟩
  · exact ⟨slotWord_low (low_10_5b5b5_fields (by omega)), fun _ => wswIn_outcome ..⟩

theorem decodeOp7C_reads (e : decodeOp7C h x = .ok i) : ReadsSlot h 0x7C x i := by
  unfold decodeOp7C at e
  split_ifs at e <;> cases e
  · exact ⟨slotWord_low (low_10b5_fields (by omega)), fun _ => dbgStep_outcome ..⟩
  · exact ⟨slotWord_low (low_10b5_fields (by omega)), fun _ => dbgStop_outcome ..⟩
  · exact ⟨slotWord_low (low_10_5b5b5_fields (by omega)), fun _ => dbgBrk_outcome ..⟩

theorem decodeOp7D_reads (e : decodeOp7D h x = .ok i) : ReadsSlot h 0x7D x i := by
  unfold decodeOp7D at e
  split_ifs at e <;> cases e
  · exact ⟨slotWord_low (low_15_10_5b5b5b5_fields (by omega)), fun _ => cfgRd_outcome ..⟩
  · exact ⟨slotWord_low (low_15_10_5b5b5b5_fields (by omega)), fun _ => cfgWr_outcome ..⟩

end

end Sys2Proof.Machine
end

section
/-!
CERTIFICATES. Encoding and decoding, and what encoded instructions answer.
-/

namespace Sys2Proof.Machine

/-! ## The OP value chooses the family (02 R37, R38) -/

section
variable {op x : Nat} {i : Instr}

/-- Below 0x10 the OP values are those of the lead slot. -/
theorem decodeOp_readsLead (ho : op < 0x10) (e : decodeOp op x = .ok i) : ReadsLead (lhdrOf x) op x i := by
  interval_cases op
  · exact decodeOp00_reads e
  · exact decodeOp01_reads e
  · exact decodeOp02_reads e
  · exact decodeOp03_reads e
  · exact decodeOp04_reads e
  · exact decodeOp05_reads e
  · exact decodeOp06_reads e
  · exact decodeOp07_reads e
  · exact decodeOp08_reads e
  · exact decodeOp09_reads e
  · exact decodeOp0A_reads e
  · exact decodeOp0B_reads e
  · exact decodeOp0C_reads e
  · exact decodeOp0D_reads e
  · exact nomatch e
  · exact nomatch e

/-- From 0x10 on the OP values are those of the other slots. -/
theorem decodeOp_readsSlot (ho : 0x10 ≤ op) (ho' : op < 0x80) (e : decodeOp op x = .ok i) : ReadsSlot (hdrOf x) op x i := by
  interval_cases op
  · exact decodeOp10_reads e
  · exact decodeOp11_reads e
  · exact decodeOp12_reads e
  · exact decodeOp13_reads e
  · exact decodeOp14_reads e
  · exact decodeOp15_reads e
  · exact decodeOp16_reads e
  · exact decodeOp17_reads e
  · exact decodeOp18_reads e
  · exact decodeOp19_reads e
  · exact decodeOp1A_reads e
  · exact decodeOp1B_reads e
  · exact decodeOp1C_reads e
  · exact decodeOp1D_reads e
  · exact decodeOp1E_reads e
  · exact decodeOp1F_reads e
  · exact decodeOp20_reads e
  · exact decodeOp21_reads e
  · exact decodeOp22_reads e
  · exact decodeOp23_reads e
  · exact decodeOp24_reads e
  · exact decodeOp25_reads e
  · exact decodeOp26_reads e
  · exact decodeOp27_reads e
  · exact decodeOp28_reads e
  · exact decodeOp29_reads e
  · exact decodeOp2A_reads e
  · exact decodeOp2B_reads e
  · exact decodeOp2C_reads e
  · exact decodeOp2D_reads e
  · exact decodeOp2E_reads e
  · exact decodeOp2F_reads e
  · exact decodeOp30_reads e
  · exact decodeOp31_reads e
  · exact decodeOp32_reads e
  · exact decodeOp33_reads e
  · exact decodeOp34_reads e
  · exact decodeOp35_reads e
  · exact decodeOp36_reads e
  · exact decodeOp37_reads e
  · exact decodeOp38_reads e
  · exact decodeOp39_reads e
  · exact decodeOp3A_reads e
  · exact decodeOp3B_reads e
  · exact decodeOp3C_reads e
  · exact decodeOp3D_reads e
  · exact decodeOp3E_reads e
  · exact decodeOp3F_reads e
  · exact decodeOp40_reads e
  · exact decodeOp41_reads e
  · exact decodeOp42_reads e
  · exact decodeOp43_reads e
  · exact decodeOp44_reads e
  · exact decodeOp45_reads e
  · exact decodeOp46_reads e
  · exact decodeOp47_reads e
  · exact decodeOp48_reads e
  · exact decodeOp49_reads e
  · exact decodeOp4A_reads e
  · exact decodeOp4B_reads e
  · exact decodeOp4C_reads e
  · exact decodeOp4D_reads e
  · exact decodeOp4E_reads e
  · exact decodeOp4F_reads e
  · exact decodeOp50_reads e
  · exact decodeOp51_reads e
  · exact decodeOp52_reads e
  · exact decodeOp53_reads e
  · exact decodeOp54_reads e
  · exact decodeOp55_reads e
  · exact decodeOp56_reads e
  · exact decodeOp57_reads e
  · exact nomatch e
  · exact nomatch e
  · exact nomatch e
  · exact nomatch e
  · exact decodeOp5C_reads e
  · exact decodeOp5D_reads e
  · exact decodeOp5E_reads e
  · exact decodeOp5F_reads e
  · exact decodeOp60_reads e
  · exact decodeOp61_reads e
  · exact decodeOp62_reads e
  · exact decodeOp63_reads e
  · exact decodeOp64_reads e
  · exact decodeOp65_reads e
  · exact nomatch e
  · exact nomatch e
  · exact decodeOp68_reads e
  · exact decodeOp69_reads e
  · exact decodeOp6A_reads e
  · exact decodeOp6B_reads e
  · exact decodeOp6C_reads e
  · exact decodeOp6D_reads e
  · exact decodeOp6E_reads e
  · exact decodeOp6F_reads e
  · exact decodeOp70_reads e
  · exact decodeOp71_reads e
  · exact decodeOp72_reads e
  · exact decodeOp73_reads e
  · exact decodeOp74_reads e
  · exact decodeOp75_reads e
  · exact decodeOp76_reads e
  · exact decodeOp77_reads e
  · exact decodeOp78_reads e
  · exact decodeOp79_reads e
  · exact decodeOp7A_reads e
  · exact decodeOp7B_reads e
  · exact decodeOp7C_reads e
  · exact decodeOp7D_reads e
  · exact nomatch e
  · exact nomatch e

end

section
variable {w : SlotWord} {i : Instr}

/-- What `decode` gives is read from the word's own OP, in the form of a lead slot or of another slot. -/
theorem decode_reads (e : decode w = .ok i) :
    ReadsLead (lhdrOf w.toNat) (w.toNat / 2 ^ 24 % 128) w.toNat i ∨ ReadsSlot (hdrOf w.toNat) (w.toNat / 2 ^ 24 % 128) w.toNat i := by
  rcases Nat.lt_or_ge (w.toNat / 2 ^ 24 % 128) 0x10 with ho | ho
  · exact .inl (decodeOp_readsLead ho e)
  · exact .inr (decodeOp_readsSlot ho (Nat.mod_lt _ (by decide)) e)

theorem encodeNat_of_decode (e : decode w = .ok i) : encodeNat i = some w.toNat := by
  rcases decode_reads e with hl | hs
  · rw [hl.word, leadWord_lhdrOf w.isLt]
  · rw [hs.word, slotWord_hdrOf w.isLt]

theorem answers_of_decode (e : decode w = .ok i) (s : State) : Answers (exec i s) := by
  rcases decode_reads e with hl | hs
  · exact hl.answers s
  · exact (hs.outcome s).answers

end

/-- Settles O2: the field lemmas of `Laws.Decode`, one for each encoded instruction; the events have no encoding. -/
theorem encodedInstructionsDecode : Obligations.EncodedInstructionsDecode := by
  intro i
  cases i with
  | next h => exact Laws.Decode.next h
  | br h disp => exact Laws.Decode.br h disp
  | bru h mk nsel disp => exact Laws.Decode.bru h mk nsel disp
  | jmpi h a => exact Laws.Decode.jmpi h a
  | call h disp => exact Laws.Decode.call h disp
  | calli h a => exact Laws.Decode.calli h a
  | ret h => exact Laws.Decode.ret h
  | loop h a => exact Laws.Decode.loop h a
  | loopPipe h a b => exact Laws.Decode.loopPipe h a b
  | sloop h k b => exact Laws.Decode.sloop h k b
  | lclose h => exact Laws.Decode.lclose h
  | lexit h disp => exact Laws.Decode.lexit h disp
  | halt h => exact Laws.Decode.halt h
  | trapi h code => exact Laws.Decode.trapi h code
  | bkpt h code => exact Laws.Decode.bkpt h code
  | add h d a b => exact Laws.Decode.add h d a b
  | addSs h d a b => exact Laws.Decode.addSs h d a b
  | addUs h d a b => exact Laws.Decode.addUs h d a b
  | addW h d a b => exact Laws.Decode.addW h d a b
  | sub h d a b => exact Laws.Decode.sub h d a b
  | subSs h d a b => exact Laws.Decode.subSs h d a b
  | subUs h d a b => exact Laws.Decode.subUs h d a b
  | subW h d a b => exact Laws.Decode.subW h d a b
  | addi h d a imm => exact Laws.Decode.addi h d a imm
  | mul h d a b => exact Laws.Decode.mul h d a b
  | mulh h d a b => exact Laws.Decode.mulh h d a b
  | mulhU h d a b => exact Laws.Decode.mulhU h d a b
  | div h d a b => exact Laws.Decode.div h d a b
  | divU h d a b => exact Laws.Decode.divU h d a b
  | divRem h d a b => exact Laws.Decode.divRem h d a b
  | divURem h d a b => exact Laws.Decode.divURem h d a b
  | and h d a b => exact Laws.Decode.and h d a b
  | or h d a b => exact Laws.Decode.or h d a b
  | xor h d a b => exact Laws.Decode.xor h d a b
  | andn h d a b => exact Laws.Decode.andn h d a b
  | orn h d a b => exact Laws.Decode.orn h d a b
  | xnor h d a b => exact Laws.Decode.xnor h d a b
  | shl h d a b => exact Laws.Decode.shl h d a b
  | shr h d a b => exact Laws.Decode.shr h d a b
  | sar h d a b => exact Laws.Decode.sar h d a b
  | ror h d a b => exact Laws.Decode.ror h d a b
  | shli h d a n => exact Laws.Decode.shli h d a n
  | shri h d a n => exact Laws.Decode.shri h d a n
  | sari h d a n => exact Laws.Decode.sari h d a n
  | rori h d a n => exact Laws.Decode.rori h d a n
  | min h d a b => exact Laws.Decode.min h d a b
  | max h d a b => exact Laws.Decode.max h d a b
  | minu h d a b => exact Laws.Decode.minu h d a b
  | maxu h d a b => exact Laws.Decode.maxu h d a b
  | popc h d a => exact Laws.Decode.popc h d a
  | clz h d a => exact Laws.Decode.clz h d a
  | ctz h d a => exact Laws.Decode.ctz h d a
  | bitrev h d a => exact Laws.Decode.bitrev h d a
  | byterev h d a => exact Laws.Decode.byterev h d a
  | fld h d a ins sg sz pos => exact Laws.Decode.fld h d a ins sg sz pos
  | movi h d imm => exact Laws.Decode.movi h d imm
  | movhi h d imm => exact Laws.Decode.movhi h d imm
  | lea h d a b sh => exact Laws.Decode.lea h d a b sh
  | sel h d a b p => exact Laws.Decode.sel h d a b p
  | cmp h fd a b cc pw => exact Laws.Decode.cmp h fd a b cc pw
  | cmpi h fd a cc pw imm => exact Laws.Decode.cmpi h fd a cc pw imm
  | plog h fd a b tt pw mkx => exact Laws.Decode.plog h fd a b tt pw mkx
  | pmov h fd a cc pw => exact Laws.Decode.pmov h fd a cc pw
  | fadd h d a b rz dbl => exact Laws.Decode.fadd h d a b rz dbl
  | fsub h d a b rz dbl => exact Laws.Decode.fsub h d a b rz dbl
  | fmul h d a b rz dbl => exact Laws.Decode.fmul h d a b rz dbl
  | ffma h d a b rz dbl => exact Laws.Decode.ffma h d a b rz dbl
  | fmin h d a b rz dbl => exact Laws.Decode.fmin h d a b rz dbl
  | fmax h d a b rz dbl => exact Laws.Decode.fmax h d a b rz dbl
  | fcmp h fd a b dbl cc pw => exact Laws.Decode.fcmp h fd a b dbl cc pw
  | ficvt h d a dbl => exact Laws.Decode.ficvt h d a dbl
  | fcvti h d a dbl => exact Laws.Decode.fcvti h d a dbl
  | fwiden h d a => exact Laws.Decode.fwiden h d a
  | fnarrow h d a => exact Laws.Decode.fnarrow h d a
  | rdsr h d num => exact Laws.Decode.rdsr h d num
  | wrsr h a num => exact Laws.Decode.wrsr h a num
  | lds h d a lc sp off => exact Laws.Decode.lds h d a lc sp off
  | ldsp h d a lc sp off => exact Laws.Decode.ldsp h d a lc sp off
  | ldsv h d a lc sp off => exact Laws.Decode.ldsv h d a lc sp off
  | sts h d a sp off => exact Laws.Decode.sts h d a sp off
  | ldv h d a lc sp off => exact Laws.Decode.ldv h d a lc sp off
  | ldvs h d a lc off => exact Laws.Decode.ldvs h d a lc off
  | ldvx h d a lc sp ix => exact Laws.Decode.ldvx h d a lc sp ix
  | stv h d a sp off => exact Laws.Decode.stv h d a sp off
  | stvs h vs a mk fmt sp => exact Laws.Decode.stvs h vs a mk fmt sp
  | stvx h d a sp ix => exact Laws.Decode.stvx h d a sp ix
  | pref h home a off => exact Laws.Decode.pref h home a off
  | chk h a b => exact Laws.Decode.chk h a b
  | chkVec h a b => exact Laws.Decode.chkVec h a b
  | cpchGo h a b => exact Laws.Decode.cpchGo h a b
  | cpchSt h d a => exact Laws.Decode.cpchSt h d a
  | cpchStop h a => exact Laws.Decode.cpchStop h a
  | memcPhase h a b => exact Laws.Decode.memcPhase h a b
  | memcRinv h d a b sc => exact Laws.Decode.memcRinv h d a b sc
  | memcCreg h a b => exact Laws.Decode.memcCreg h a b
  | memcCerr h a b => exact Laws.Decode.memcCerr h a b
  | coll h a => exact Laws.Decode.coll h a
  | ring h a => exact Laws.Decode.ring h a
  | rsemRd h d a => exact Laws.Decode.rsemRd h d a
  | rsemSet h a b => exact Laws.Decode.rsemSet h a b
  | rsemAdd h a b => exact Laws.Decode.rsemAdd h a b
  | stabWr h a b => exact Laws.Decode.stabWr h a b
  | stabRd h d a b => exact Laws.Decode.stabRd h d a b
  | stabGo h a => exact Laws.Decode.stabGo h a
  | stabStop h => exact Laws.Decode.stabStop h
  | stabReg h d a => exact Laws.Decode.stabReg h d a
  | stabLink h a b => exact Laws.Decode.stabLink h a b
  | stabClr h => exact Laws.Decode.stabClr h
  | vadd h d a b fmt x => exact Laws.Decode.vadd h d a b fmt x
  | vsub h d a b fmt x => exact Laws.Decode.vsub h d a b fmt x
  | vmul h d a b fmt x => exact Laws.Decode.vmul h d a b fmt x
  | vfma h d a b fmt x => exact Laws.Decode.vfma h d a b fmt x
  | vmin h d a b fmt => exact Laws.Decode.vmin h d a b fmt
  | vmax h d a b fmt => exact Laws.Decode.vmax h d a b fmt
  | vabs h d a fmt => exact Laws.Decode.vabs h d a fmt
  | vneg h d a fmt => exact Laws.Decode.vneg h d a fmt
  | vand h d a b => exact Laws.Decode.vand h d a b
  | vor h d a b => exact Laws.Decode.vor h d a b
  | vxor h d a b => exact Laws.Decode.vxor h d a b
  | vandn h d a b => exact Laws.Decode.vandn h d a b
  | vorn h d a b => exact Laws.Decode.vorn h d a b
  | vxnor h d a b => exact Laws.Decode.vxnor h d a b
  | vshl h d a b x => exact Laws.Decode.vshl h d a b x
  | vshr h d a b x => exact Laws.Decode.vshr h d a b x
  | vsar h d a b x => exact Laws.Decode.vsar h d a b x
  | vcmp h c1 d a b fmt x => exact Laws.Decode.vcmp h c1 d a b fmt x
  | vsel h d a mk fmt => exact Laws.Decode.vsel h d a mk fmt
  | vmaskPopc h d a => exact Laws.Decode.vmaskPopc h d a
  | vmaskFfs h d a => exact Laws.Decode.vmaskFfs h d a
  | vmaskTov h d a => exact Laws.Decode.vmaskTov h d a
  | vmaskFromv h d a => exact Laws.Decode.vmaskFromv h d a
  | vmaskFromp h d a => exact Laws.Decode.vmaskFromp h d a
  | vswz h d a c fmt => exact Laws.Decode.vswz h d a c fmt
  | vperm h d a b fmt x => exact Laws.Decode.vperm h d a b fmt x
  | vbc h d a fmt => exact Laws.Decode.vbc h d a fmt
  | vbcLane h d a b fmt => exact Laws.Decode.vbcLane h d a b fmt
  | vrsum h d a mk fmt => exact Laws.Decode.vrsum h d a mk fmt
  | vrmax h d a mk fmt => exact Laws.Decode.vrmax h d a mk fmt
  | vrmin h d a mk fmt => exact Laws.Decode.vrmin h d a mk fmt
  | vcvt h d a rnd fmt => exact Laws.Decode.vcvt h d a rnd fmt
  | vcvf h d a rnd fmt => exact Laws.Decode.vcvf h d a rnd fmt
  | vsxp h d a rnd fmt x => exact Laws.Decode.vsxp h d a rnd fmt x
  | vplnSplit h d a b32 pl fmt => exact Laws.Decode.vplnSplit h d a b32 pl fmt
  | vplnJoin h d a b32 pl fmt => exact Laws.Decode.vplnJoin h d a b32 pl fmt
  | vdiv h d a b fmt x => exact Laws.Decode.vdiv h d a b fmt x
  | vupd h d a b fmt x => exact Laws.Decode.vupd h d a b fmt x
  | vidx h d a b fmt => exact Laws.Decode.vidx h d a b fmt
  | vdot h d a b fmt x => exact Laws.Decode.vdot h d a b fmt x
  | vrnd h d a rnd fmt => exact Laws.Decode.vrnd h d a rnd fmt
  | vhash h d a b fmt x => exact Laws.Decode.vhash h d a b fmt x
  | xsin h d a fmt => exact Laws.Decode.xsin h d a fmt
  | xcos h d a fmt => exact Laws.Decode.xcos h d a fmt
  | xex2 h d a fmt => exact Laws.Decode.xex2 h d a fmt
  | xlg2 h d a fmt => exact Laws.Decode.xlg2 h d a fmt
  | xrcp h d a fmt => exact Laws.Decode.xrcp h d a fmt
  | xrsq h d a fmt => exact Laws.Decode.xrsq h d a fmt
  | xtanh h d a fmt => exact Laws.Decode.xtanh h d a fmt
  | xsigm h d a fmt => exact Laws.Decode.xsigm h d a fmt
  | xtrn h d a cols fmt => exact Laws.Decode.xtrn h d a cols fmt
  | xcvt h d a b fmt x => exact Laws.Decode.xcvt h d a b fmt x
  | xcmp h d a fmt => exact Laws.Decode.xcmp h d a fmt
  | xexd h d a => exact Laws.Decode.xexd h d a
  | mxld h pnm a fmt lc gw qb tr => exact Laws.Decode.mxld h pnm a fmt lc gw qb tr
  | mxa h z a b fmt qb rv zs => exact Laws.Decode.mxa h z a b fmt qb rv zs
  | mxav h z a fmt qb rv zs => exact Laws.Decode.mxav h z a fmt qb rv zs
  | mxrd h z a b fmt rnd => exact Laws.Decode.mxrd h z a b fmt rnd
  | mxrk h z a b fmt zs => exact Laws.Decode.mxrk h z a b fmt zs
  | mxpnRd h d => exact Laws.Decode.mxpnRd h d
  | mxpnClaim h d mk => exact Laws.Decode.mxpnClaim h d mk
  | mxpnRel h d mk => exact Laws.Decode.mxpnRel h d mk
  | mxsvSave h z a b => exact Laws.Decode.mxsvSave h z a b
  | mxsvLd h z a b => exact Laws.Decode.mxsvLd h z a b
  | mxsvSt h z d => exact Laws.Decode.mxsvSt h z d
  | govPol h a => exact Laws.Decode.govPol h a
  | govRd h d a b => exact Laws.Decode.govRd h d a b
  | govSet h a b => exact Laws.Decode.govSet h a b
  | govClr h a => exact Laws.Decode.govClr h a
  | gmeasMb h a b => exact Laws.Decode.gmeasMb h a b
  | gmeasTot h a b => exact Laws.Decode.gmeasTot h a b
  | gstep h d a b => exact Laws.Decode.gstep h d a b
  | qpush h a b eos => exact Laws.Decode.qpush h a b eos
  | qpushFwd h k b => exact Laws.Decode.qpushFwd h k b
  | qbind h k a => exact Laws.Decode.qbind h k a
  | qunbind h k => exact Laws.Decode.qunbind h k
  | qrd h d k => exact Laws.Decode.qrd h d k
  | qstat h d k => exact Laws.Decode.qstat h d k
  | wop h w cnt lim => exact Laws.Decode.wop h w cnt lim
  | wadv h w cnt lim => exact Laws.Decode.wadv h w cnt lim
  | wbindC h k a sp => exact Laws.Decode.wbindC h k a sp
  | wbindP h k a sp => exact Laws.Decode.wbindP h k a sp
  | wunbind h k => exact Laws.Decode.wunbind h k
  | wstat h d k => exact Laws.Decode.wstat h d k
  | waddr h d k => exact Laws.Decode.waddr h d k
  | mxsc h pnm a lc sp => exact Laws.Decode.mxsc h pnm a lc sp
  | bankAcq h a b => exact Laws.Decode.bankAcq h a b
  | bankRel h a => exact Laws.Decode.bankRel h a
  | bankRd h d => exact Laws.Decode.bankRd h d
  | atomSwap h d a lc sp w4 => exact Laws.Decode.atomSwap h d a lc sp w4
  | atomAdd h d a lc sp w4 => exact Laws.Decode.atomAdd h d a lc sp w4
  | atomAnd h d a lc sp w4 => exact Laws.Decode.atomAnd h d a lc sp w4
  | atomOr h d a lc sp w4 => exact Laws.Decode.atomOr h d a lc sp w4
  | atomXor h d a lc sp w4 => exact Laws.Decode.atomXor h d a lc sp w4
  | atomMin h d a lc sp w4 => exact Laws.Decode.atomMin h d a lc sp w4
  | atomMax h d a lc sp w4 => exact Laws.Decode.atomMax h d a lc sp w4
  | atomMinu h d a lc sp w4 => exact Laws.Decode.atomMinu h d a lc sp w4
  | atomMaxu h d a lc sp w4 => exact Laws.Decode.atomMaxu h d a lc sp w4
  | atomCas h d a lc sp w4 => exact Laws.Decode.atomCas h d a lc sp w4
  | atomFadd h d a lc sp w4 => exact Laws.Decode.atomFadd h d a lc sp w4
  | barArr h a b sc => exact Laws.Decode.barArr h a b sc
  | barSync h a b sc => exact Laws.Decode.barSync h a b sc
  | barWt h a b sc => exact Laws.Decode.barWt h a b sc
  | drain h d sc => exact Laws.Decode.drain h d sc
  | rteClm h d a b => exact Laws.Decode.rteClm h d a b
  | rteSnd h vs a b => exact Laws.Decode.rteSnd h vs a b
  | evtSig h a => exact Laws.Decode.evtSig h a
  | evtWait h a b => exact Laws.Decode.evtWait h a b
  | evtRd h d a => exact Laws.Decode.evtRd h d a
  | task h d a => exact Laws.Decode.task h d a
  | dspj h d a b => exact Laws.Decode.dspj h d a b
  | ctxRd h d a b => exact Laws.Decode.ctxRd h d a b
  | ctxWr h d a b => exact Laws.Decode.ctxWr h d a b
  | csvSave h a b => exact Laws.Decode.csvSave h a b
  | csvLd h a b => exact Laws.Decode.csvLd h a b
  | csvFree h a => exact Laws.Decode.csvFree h a
  | csvEnd h b => exact Laws.Decode.csvEnd h b
  | tret h a => exact Laws.Decode.tret h a
  | tlbiAll h pkg => exact Laws.Decode.tlbiAll h pkg
  | tlbiVf h a pkg => exact Laws.Decode.tlbiVf h a pkg
  | tlbiPg h a b pkg => exact Laws.Decode.tlbiPg h a b pkg
  | monCfg h a b => exact Laws.Decode.monCfg h a b
  | monRd h d a => exact Laws.Decode.monRd h d a
  | monClr h a => exact Laws.Decode.monClr h a
  | wswOut h a b => exact Laws.Decode.wswOut h a b
  | wswIn h a b => exact Laws.Decode.wswIn h a b
  | dbgStep h a => exact Laws.Decode.dbgStep h a
  | dbgStop h a => exact Laws.Decode.dbgStop h a
  | dbgBrk h a b => exact Laws.Decode.dbgBrk h a b
  | cfgRd h d a b => exact Laws.Decode.cfgRd h d a b
  | cfgWr h d a b => exact Laws.Decode.cfgWr h d a b
  | _ => exact fun h => absurd rfl h

/-- Settles O3: the decoder reads every field of an accepted word and checks every other bit, so that the word is its parts put together again. -/
theorem decodedWordsEncode : Obligations.DecodedWordsEncode := fun w _ e => by
  rw [encode_of (encodeNat_of_decode e), BitVec.ofNat_toNat, BitVec.setWidth_eq]

/-- Settles O9: an encoded instruction is what the decoder reads from its word, and all that it reads answers a next state. -/
theorem encodedInstructionsAnswer : Obligations.EncodedInstructionsAnswer := fun i s h =>
  answers_of_decode (encodedInstructionsDecode i h) s

/-! ## The guard of a slot (02 R30, R31) -/

/-- The guard of a word's header is bits [23:20] of the word, also where the word is cut to 32 bits. -/
theorem hdrOf_guard (y : Nat) : (hdrOf (BitVec.ofNat 32 y).toNat).g = BitVec.ofNat 4 (y / 2 ^ 20) := by
  apply BitVec.eq_of_toNat_eq
  simp only [hdrOf, fld_toNat, BitVec.toNat_ofNat]
  omega

/-- A word of an OP from 0x10 on decodes to an instruction that acts under the guard in bits [23:20] of that word. -/
theorem slotOutcome_of_encodeNat {i : Instr} {y : Nat} (hy : encodeNat i = some y) (ho : 0x10 ≤ y / 2 ^ 24 % 128) (s : State) :
    SlotOutcome i (hdrOf (BitVec.ofNat 32 y).toNat) s (exec i s) := by
  have e : decode (BitVec.ofNat 32 y) = .ok i := encode_of hy ▸ encodedInstructionsDecode i (by simp [hy])
  have hop : (BitVec.ofNat 32 y).toNat / 2 ^ 24 % 128 = y / 2 ^ 24 % 128 := by
    simp only [BitVec.toNat_ofNat]; omega
  exact (decodeOp_readsSlot (hop ▸ ho) (Nat.mod_lt _ (by decide)) e).outcome s

/-- Settles O11, by what a slot's meaning answers under a false guard. -/
theorem falseGuardHasNoEffect : Obligations.FalseGuardHasNoEffect := fun s _ y hy ho hg => by
  have hs := slotOutcome_of_encodeNat hy ho s
  exact ⟨fun hc => hs.skipped hc (hdrOf_guard y ▸ hg), hs.trapped⟩

end Sys2Proof.Machine
end

section
/-!
CERTIFICATES. Frames of slots, worked words, the NOP word, unassigned OP values.
-/

namespace Sys2Proof.Machine

open State

/-! ## Frames of a slot's state (02 R27; 04 R65; 06 R119) -/

/-- No other agent changes with a withheld effect. -/
theorem withholds_ctx_ne (s : State) (i : Instr) (e : Effect) (r : List Word) {a : Agent} (h : s.who.key ≠ a.key) :
    (s.withholds i e r).ctx a = s.ctx a := ctx_modCtx_ne (s.noted i) _ h

theorem resultFrame : Claims.ResultFrame := fun s i L ws _ =>
  ⟨leaves_me s i L ws, fun hb => leaves_ctx_ne s i L ws hb.symm, fun _ => rfl, rfl⟩

theorem withheldFrame : Claims.WithheldFrame := fun s i e regs _ =>
  ⟨withholds_me s i e regs, fun hb => withholds_ctx_ne s i e regs hb.symm, fun _ => rfl, rfl⟩

/-- Settles O10: both kinds of state differ from the noted one in the issuing agent's context alone. -/
theorem slotFrames : Obligations.SlotFrames := ⟨resultFrame, withheldFrame⟩

/-! ## Worked words -/

/-- Settles O1, by running the decoder. -/
theorem decodedWords : Obligations.DecodedWords := by
  unfold Obligations.DecodedWords
  decide

/-! ## The NOP word (02 R33) -/

theorem isNop_iff (w : SlotWord) : isNop w = true ↔ w = 0x00000000 ∨ w = 0x80000000 := by
  simp only [isNop, beq_iff_eq, ← BitVec.toNat_inj, BitVec.reduceToNat]
  have := w.isLt
  omega

theorem unitOf_of_isNop {w : SlotWord} (h : isNop w = true) (onCore : Bool) (p : Nat) : unitOf onCore (p, w) = none := by
  simp [unitOf, h]

/-- The slots of a bundle are its words that decode, but for NOP words after the lead. -/
theorem mem_slotsOf {ws : List SlotWord} {k : Nat} {i : Instr} :
    (k, i) ∈ slotsOf ws ↔ ∃ w, ws[k]? = some w ∧ (k = 0 ∨ isNop w = false) ∧ decode w = .ok i := by
  simp only [slotsOf, List.mem_filterMap, Prod.exists, List.mem_zipIdx_iff_getElem?]
  constructor
  · rintro ⟨w, j, hw, h⟩
    split at h
    case isTrue => cases h
    case isFalse hn =>
      split at h
      · next hd =>
        cases h
        exact ⟨w, hw, by simpa [or_iff_not_imp_left] using hn, hd⟩
      · cases h
  · rintro ⟨w, hw, hn, hd⟩
    refine ⟨w, k, hw, ?_⟩
    rw [if_neg (by simpa [or_iff_not_imp_left] using hn), hd]

/-- Settles O4, with the two NOP words run through the decoder. -/
theorem nopWord : Obligations.NopWord :=
  ⟨isNop_iff, fun _ onCore p h => unitOf_of_isNop h onCore p, fun _ _ _ => mem_slotsOf, by decide, by decide⟩

/-! ## Unassigned OP values (02 R38) -/

theorem unassigned_iff (op : Nat) :
    unassigned op = true ↔ op ∈ [0x0E, 0x0F, 0x58, 0x59, 0x5A, 0x5B, 0x66, 0x67, 0x7E, 0x7F] := by
  simp only [unassigned, Bool.or_eq_true, Bool.and_eq_true, beq_iff_eq, decide_eq_true_eq, List.mem_cons, List.not_mem_nil, or_false]
  omega

theorem decodeOp_of_unassigned {op : Nat} (h : unassigned op = true) (x : Nat) : decodeOp op x = .error .unassigned := by
  rw [unassigned_iff] at h
  fin_cases h <;> rfl

theorem decode_of_unassigned {w : SlotWord} (h : unassigned (wordOp w) = true) : decode w = .error .unassigned :=
  decodeOp_of_unassigned h _

theorem not_isNop_of_unassigned {w : SlotWord} (h : unassigned (wordOp w) = true) : isNop w = false := by
  by_contra hn
  rcases (isNop_iff w).mp (by simpa using hn) with rfl | rfl <;> exact absurd h (by decide)

/-- The first acting slot with an unassigned OP value is the lowest word with one: such a word is no NOP. -/
theorem find_unassigned {ws : List SlotWord} {k : Nat} {w : SlotWord} (hw : ws[k]? = some w) (hu : unassigned (wordOp w) = true)
    (hlow : ∀ j x, j < k → ws[j]? = some x → unassigned (wordOp x) = false) :
    ((ws.zipIdx.map fun x => (x.2, x.1)).filter fun p => !isNop p.2).find? (fun p => unassigned (wordOp p.2)) = some (k, w) := by
  obtain ⟨hk, hw⟩ := List.getElem?_eq_some_iff.mp hw
  rw [List.find?_filter, List.find?_eq_some_iff_getElem]
  refine ⟨by simp [hu, not_isNop_of_unassigned hu], k, by simpa using hk, by simp [hw], fun j hj => ?_⟩
  have hj' : unassigned (wordOp ws[j]) = false := hlow j ws[j] hj (List.getElem?_eq_getElem _)
  simp [hj']

theorem bundleCheck_of_unassigned {ws : List SlotWord} {k : Nat} {w : SlotWord} (hw : ws[k]? = some w)
    (hu : unassigned (wordOp w) = true) (hlow : ∀ j x, j < k → ws[j]? = some x → unassigned (wordOp x) = false)
    (onCore : Bool) (u : BitVec 32) (bpc : BitVec 64) :
    bundleCheck onCore u bpc ws = some (checkTrap bpc 0x01 0 (k, w)) := by
  simp only [bundleCheck, find_unassigned hw hu hlow, Option.map_some, Option.orElse_some]

/-- Settles O5: the unassigned OP value is the first check of a bundle. -/
theorem unassignedOpcodes : Obligations.UnassignedOpcodes :=
  ⟨fun _ => unassigned_iff _, fun _ => decode_of_unassigned, fun s a bpc ws k w hw hu hlow => by
    rw [issueWords, bundleCheck_of_unassigned hw hu hlow]
    exact ⟨rfl, rfl⟩⟩

end Sys2Proof.Machine
end

section
/-!
CERTIFICATES. The scalar integer families (04 R78-R80): additions, products, divisions, logic, shifts, selection, bit counts, fields.
-/

namespace Sys2Proof.Machine

open State

/-! ## A slot with one scalar result -/

/-- A slot that issues leaves the writes that its action makes; the action reads the state, whatever slot word is noted there. -/
theorem slotOp_leaves {i : Instr} {h : Hdr} {s : State} {L : Nat} {ws : List RegWrite} {k : State → Res}
    (hk : ∀ w, k { s with word := w } = .next (State.result { s with word := w } L ws)) (hi : Issues i h s) :
    slotOp i h s k = .next (s.leaves i L ws) := (slotOp_issues hi k).trans (hk _)

/-- A scalar slot that issues leaves its function's value. -/
theorem scalarOp_leaves {i : Instr} {h : Hdr} {s : State} {L : Nat} {d : BitVec 5} {f : State → Word} {x : Word}
    (hx : ∀ w, f { s with word := w } = x) (hi : Issues i h s) :
    scalarOp i h L d s f = .next (s.leaves i L [s.wS d x]) :=
  slotOp_leaves (fun w => by rw [hx w]; rfl) hi

/-- A division by a divisor that is not zero leaves its result (04 R79). -/
theorem divOp_leaves {i : Instr} {h : Hdr} {s : State} {d b : BitVec 5} {f : State → Word} {x : Word}
    (hx : ∀ w, f { s with word := w } = x) (hb : s.rs b ≠ 0) (hi : Issues i h s) :
    divOp i h d b s f = .next (s.leaves i 24 [s.wS d x]) := by
  refine slotOp_leaves (fun w => ?_) hi
  have hb' : State.rs { s with word := w } b ≠ 0 := hb
  rw [if_neg hb', hx w]
  rfl

/-- A division by zero traps (04 R79). -/
theorem divOp_zero {i : Instr} {h : Hdr} {s : State} {b : BitVec 5} (d : BitVec 5) (f : State → Word) (hb : s.rs b = 0) (hi : Issues i h s) :
    divOp i h d b s f = trapAt (s.noted i) 0x15 := by
  have hb' : (s.noted i).rs b = 0 := hb
  rw [divOp, slotOp_issues hi, if_pos hb']

/-! ## Additions, products and divisions (04 R78, R79) -/

theorem clampInt_eq {lo hi : Int} (h : lo ≤ hi) (x : Int) : clampInt lo hi x = max lo (min hi x) := by
  unfold clampInt
  split
  · omega
  · split <;> omega

theorem satS_eq (x : Int) : satS x = BitVec.ofInt 64 (max (-2 ^ 63) (min (2 ^ 63 - 1) x)) :=
  congrArg (BitVec.ofInt 64) (clampInt_eq (by decide) x)

theorem satU_eq {x : Int} {n : Nat} (h : max 0 (min (2 ^ 64 - 1) x) = n) : satU x = BitVec.ofNat 64 n := by
  rw [satU, wordOf, clampInt_eq (by decide), h, BitVec.ofInt_natCast]

theorem satU_add (m n : Nat) : satU (m + n) = BitVec.ofNat 64 (min (2 ^ 64 - 1) (m + n)) := satU_eq (by omega)

theorem satU_sub (x y : Word) : satU ((x.toNat : Int) - y.toNat) = BitVec.ofNat 64 (x.toNat - y.toNat) := satU_eq (by omega)

theorem scalarAdditionResults : Claims.ScalarAdditionResults := fun s h d a b imm =>
  ⟨by unfold exec execAdd; exact scalarOp_leaves fun _ => rfl,
   by unfold exec execAddSs; exact scalarOp_leaves fun _ => satS_eq _,
   by unfold exec execAddUs; exact scalarOp_leaves fun _ => satU_add _ _,
   by unfold exec execAddW; exact scalarOp_leaves fun _ => rfl,
   by unfold exec execSub; exact scalarOp_leaves fun _ => rfl,
   by unfold exec execSubSs; exact scalarOp_leaves fun _ => satS_eq _,
   by unfold exec execSubUs; exact scalarOp_leaves fun _ => satU_sub _ _,
   by unfold exec execSubW; exact scalarOp_leaves fun _ => rfl,
   by unfold exec execAddi; exact scalarOp_leaves fun _ => rfl⟩

theorem scalarProductAndQuotientResults : Claims.ScalarProductAndQuotientResults := fun s h d a b =>
  ⟨by unfold exec execMul; exact scalarOp_leaves fun _ => rfl,
   by unfold exec execMulh; exact scalarOp_leaves fun _ => rfl,
   by unfold exec execMulhU; exact scalarOp_leaves fun _ => rfl,
   fun hb =>
    ⟨by unfold exec execDiv; exact divOp_leaves (fun _ => rfl) hb,
     by unfold exec execDivU; exact divOp_leaves (fun _ => by rw [← BitVec.toNat_udiv, BitVec.ofNat_toNat, BitVec.setWidth_eq]; rfl) hb,
     by unfold exec execDivRem; exact divOp_leaves (fun _ => rfl) hb,
     by unfold exec execDivURem; exact divOp_leaves (fun _ => by rw [← BitVec.toNat_umod, BitVec.ofNat_toNat, BitVec.setWidth_eq]; rfl) hb⟩⟩

/-- Settles O16: each slot leaves its function's value, and the saturating functions clamp to the range. -/
theorem scalarArithmeticResults : Obligations.ScalarArithmeticResults := ⟨scalarAdditionResults, scalarProductAndQuotientResults⟩

/-- Settles O17: the divisor is looked at before any result. -/
theorem divisionByZeroTraps : Obligations.DivisionByZeroTraps := fun s h d a b hb => by
  simp only [List.forall_mem_cons, List.not_mem_nil, false_implies, implies_true, and_true]
  exact
    ⟨by unfold exec execDiv; exact divOp_zero d _ hb,
     by unfold exec execDivU; exact divOp_zero d _ hb,
     by unfold exec execDivRem; exact divOp_zero d _ hb,
     by unfold exec execDivURem; exact divOp_zero d _ hb⟩

/-! ## Logic and shifts (04 R78) -/

theorem shCount_eq (x : Word) : shCount x = x.toNat % 64 := by simp [shCount, wbits, bits]

/-- Settles O18, with the shift counts read off as remainders. -/
theorem scalarLogicAndShiftResults : Obligations.ScalarLogicAndShiftResults := fun s h d a b n =>
  ⟨by unfold exec execAnd; exact scalarOp_leaves fun _ => rfl,
   by unfold exec execOr; exact scalarOp_leaves fun _ => rfl,
   by unfold exec execXor; exact scalarOp_leaves fun _ => rfl,
   by unfold exec execAndn; exact scalarOp_leaves fun _ => rfl,
   by unfold exec execOrn; exact scalarOp_leaves fun _ => rfl,
   by unfold exec execXnor; exact scalarOp_leaves fun _ => rfl,
   by unfold exec execShl; exact scalarOp_leaves fun _ => by rw [shCount_eq]; rfl,
   by unfold exec execShr; exact scalarOp_leaves fun _ => by rw [shCount_eq]; rfl,
   by unfold exec execSar; exact scalarOp_leaves fun _ => by rw [shCount_eq]; rfl,
   by unfold exec execRor; exact scalarOp_leaves fun _ => by rw [shCount_eq]; rfl,
   by unfold exec execShli; exact scalarOp_leaves fun _ => rfl,
   by unfold exec execShri; exact scalarOp_leaves fun _ => rfl,
   by unfold exec execSari; exact scalarOp_leaves fun _ => rfl,
   by unfold exec execRori; exact scalarOp_leaves fun _ => rfl⟩

end Sys2Proof.Machine
end

section
/-!
SUPPORT. Numbers by their bits: fields packed into a number, reversals, counts, sign extension.
-/

namespace Sys2Proof.Machine

/-! ## Packed fields -/

theorem packNat_lt {w : Nat} {f : Nat → Nat} {n : Nat} (hf : ∀ k < n, f k < 2 ^ w) : packNat w f n < 2 ^ (w * n) := by
  induction n with
  | zero => simp [packNat]
  | succ n ih =>
    have hp := ih fun k hk => hf k (by omega)
    have hn : (f n + 1) * 2 ^ (w * n) ≤ 2 ^ w * 2 ^ (w * n) := Nat.mul_le_mul_right _ (hf n (by omega))
    rw [Nat.mul_add, Nat.mul_one, Nat.pow_add, Nat.mul_comm (2 ^ (w * n)), packNat]
    rw [Nat.add_mul, Nat.one_mul] at hn
    omega

/-- Field `k` of packed fields is what was packed there. -/
theorem packNat_field {w : Nat} {f : Nat → Nat} {n k : Nat} (hf : ∀ k < n, f k < 2 ^ w) (hk : k < n) :
    packNat w f n / 2 ^ (w * k) % 2 ^ w = f k := by
  induction n with
  | zero => omega
  | succ n ih =>
    have hf' : ∀ k < n, f k < 2 ^ w := fun k hk => hf k (by omega)
    rw [packNat]
    rcases Nat.lt_succ_iff_lt_or_eq.mp hk with h | rfl
    · have e : f n * 2 ^ (w * n) = 2 ^ (w * k) * (2 ^ w * (f n * 2 ^ (w * (n - k - 1)))) := by
        have hn : w * n = w * k + (w + w * (n - k - 1)) := by
          conv_lhs => rw [show n = k + (1 + (n - k - 1)) by omega]
          rw [Nat.mul_add, Nat.mul_add, Nat.mul_one]
        rw [hn, Nat.pow_add, Nat.pow_add]
        ring
      rw [e, Nat.add_mul_div_left _ _ (Nat.two_pow_pos _), Nat.add_mul_mod_self_left, ih hf' h]
    · rw [Nat.add_mul_div_right _ _ (Nat.two_pow_pos _), Nat.div_eq_of_lt (packNat_lt hf'), Nat.zero_add, Nat.mod_eq_of_lt (hf k hk)]

theorem bit_eq_testBit (x n : Nat) : bit x n = x.testBit n := by
  rw [Nat.testBit_eq_decide_div_mod_eq]
  rfl

theorem bit_toNat {w : Nat} (x : BitVec w) (n : Nat) : bit x.toNat n = x.getLsbD n := bit_eq_testBit ..

/-- Bit `k` of packed bits. -/
theorem testBit_packNat {f : Nat → Bool} {n k : Nat} (hk : k < n) : (packNat 1 (fun i => (f i).toNat) n).testBit k = f k := by
  have h := packNat_field (w := 1) (f := fun i => (f i).toNat) (fun i _ => by cases f i <;> decide) hk
  rw [Nat.one_mul, Nat.pow_one] at h
  rw [Nat.testBit_eq_decide_div_mod_eq, h]
  cases f k <;> rfl

/-- Bit `k` of a mask given bit by bit. -/
theorem getLsbD_ofMask (f : Nat → Bool) {k : Nat} (hk : k < 128) : (ofMask f).getLsbD k = f k := by
  rw [ofMask, BitVec.getLsbD_ofNat, testBit_packNat hk, decide_eq_true hk, Bool.true_and]

theorem wbits_bit (x : Word) (k : Nat) : wbits x k k = (x.getLsbD k).toNat := by
  rw [← bit_toNat, bit, wbits, bits, Nat.add_sub_cancel_left, Nat.pow_one]
  rcases Nat.mod_two_eq_zero_or_one (x.toNat / 2 ^ k) with h | h <;> simp [h]

/-! ## Reversals (04 R78) -/

theorem getLsbD_bitRev (x : Word) {k : Nat} (hk : k < 64) : (bitRev x).getLsbD k = x.getLsbD (63 - k) := by
  simp only [bitRev, wbits_bit]
  rw [BitVec.getLsbD_ofNat, testBit_packNat hk, decide_eq_true hk, Bool.true_and]

theorem extractLsb'_byteRev (x : Word) {k : Nat} (hk : k < 8) : (byteRev x).extractLsb' (8 * k) 8 = x.extractLsb' (8 * (7 - k)) 8 := by
  have hb : ∀ i < 8, wbits x (8 * (7 - i) + 7) (8 * (7 - i)) < 2 ^ 8 := fun i _ => by
    rw [wbits, bits, Nat.add_assoc, Nat.add_sub_cancel_left]
    exact Nat.mod_lt _ (by decide)
  apply BitVec.eq_of_toNat_eq
  rw [BitVec.extractLsb'_toNat, BitVec.extractLsb'_toNat, Nat.shiftRight_eq_div_pow, Nat.shiftRight_eq_div_pow, byteRev,
    BitVec.toNat_ofNat, Nat.mod_eq_of_lt (packNat_lt hb), packNat_field hb hk, wbits, bits, Nat.add_assoc, Nat.add_sub_cancel_left]

/-! ## Counts (04 R78) -/

theorem toNat_popcount (x : Word) : (BitVec.ofNat 64 (popcount 64 x.toNat)).toNat = ((List.range 64).filter (fun k => x.getLsbD k)).length := by
  have hle : popcount 64 x.toNat ≤ 64 := by simpa [popcount] using List.length_filter_le (fun i => bit x.toNat i) (List.range 64)
  rw [BitVec.toNat_ofNat, Nat.mod_eq_of_lt (by omega), popcount]
  simp only [bit_toNat]

/-- What the count of leading zeros says of the bits (04 R78). -/
theorem clz_bits (x : Word) : clzN 64 x.toNat ≤ 64 ∧ (∀ k, 64 - clzN 64 x.toNat ≤ k → x.getLsbD k = false) ∧
    (clzN 64 x.toNat < 64 → x.getLsbD (63 - clzN 64 x.toNat) = true) := by
  unfold clzN
  by_cases h : x.toNat = 0
  · have hx : x = 0 := BitVec.eq_of_toNat_eq h
    simp [hx]
  · have hlog : x.toNat.log2 < 64 := (Nat.log2_lt h).mpr x.isLt
    rw [if_neg h]
    refine ⟨by omega, fun k hk => ?_, fun _ => ?_⟩
    · refine Nat.testBit_lt_two_pow (Nat.lt_of_lt_of_le Nat.lt_log2_self (Nat.pow_le_pow_right (by decide) ?_))
      omega
    · have e : 63 - (64 - 1 - x.toNat.log2) = x.toNat.log2 := by omega
      rw [e]
      exact Nat.testBit_log2 h

/-- What the count of trailing zeros says of the bits (04 R78). -/
theorem ctz_bits (x : Word) : ctzN 64 x.toNat ≤ 64 ∧ (∀ k, k < ctzN 64 x.toNat → x.getLsbD k = false) ∧
    (ctzN 64 x.toNat < 64 → x.getLsbD (ctzN 64 x.toNat) = true) := by
  simp only [ctzN, bit_toNat]
  cases h : (List.range 64).find? (fun i => x.getLsbD i) with
  | none =>
    rw [List.find?_range_eq_none] at h
    exact ⟨by simp, fun k hk => by simpa using h k hk, fun hk => absurd hk (by simp)⟩
  | some n =>
    obtain ⟨hn, hr, hlow⟩ := List.find?_range_eq_some.mp h
    have hlt := List.mem_range.mp hr
    exact ⟨hlt.le, fun k hk => by simpa using hlow k hk, fun _ => hn⟩

/-! ## Fields (04 R80) -/

/-- The signed reading of the low bits of a number is that of a bit vector of as many bits. -/
theorem sext_eq_toInt (n x : Nat) (hn : 0 < n) : sext n x = (BitVec.ofNat n x).toInt := by
  have e : 2 ^ n = 2 * 2 ^ (n - 1) := by rw [← Nat.pow_succ', Nat.succ_eq_add_one, Nat.sub_add_cancel hn]
  have hc : x % 2 ^ n < 2 ^ (n - 1) ↔ 2 * (x % 2 ^ n) < 2 ^ n := by omega
  simp only [BitVec.toInt_eq_toNat_cond, BitVec.toNat_ofNat, sext, hc, Nat.cast_pow, Nat.cast_ofNat]

theorem fldWidth_pos (sz : BitVec 2) : 0 < fldWidth sz := Nat.mul_pos (by decide) (Nat.two_pow_pos _)

/-- The bits of a field inserted (04 R80). -/
theorem getLsbD_fldValue_insert (x d : Word) (sg : Bool) (sz : BitVec 2) (p : BitVec 6) {k : Nat} (hk : k < 64) :
    (fldValue x d true sg sz p).getLsbD k =
      if p.toNat ≤ k ∧ k < p.toNat + fldWidth sz then x.getLsbD (k - p.toNat) else d.getLsbD k := by
  have hw : k - p.toNat < fldWidth sz ∧ p.toNat ≤ k ↔ p.toNat ≤ k ∧ k < p.toNat + fldWidth sz := by omega
  simp only [fldValue, if_true, BitVec.getLsbD_or, BitVec.getLsbD_and, BitVec.getLsbD_not, BitVec.getLsbD_ofNat, Nat.testBit_mul_two_pow,
    Nat.testBit_two_pow_sub_one, Nat.testBit_mod_two_pow, BitVec.testBit_toNat, hk, decide_true, Bool.true_and]
  by_cases h : p.toNat ≤ k ∧ k < p.toNat + fldWidth sz
  · obtain ⟨h1, h2⟩ := hw.mpr h
    simp [h, h1]
  · rw [if_neg h, ← hw, not_and_or] at *
    rcases h with h | h <;> simp [h]

/-- The bits of a field extracted (04 R80). -/
theorem getLsbD_fldValue_extract (x d : Word) (sg : Bool) (sz : BitVec 2) (p : BitVec 6) {k : Nat} (hk : k < 64) :
    (fldValue x d false sg sz p).getLsbD k =
      x.getLsbD (p.toNat + (if k < fldWidth sz then k else if sg then fldWidth sz - 1 else 64)) := by
  have hW := fldWidth_pos sz
  have e : p.toNat + fldWidth sz - 1 + 1 - p.toNat = fldWidth sz := by omega
  have hf (j : Nat) : (wbits x (p.toNat + fldWidth sz - 1) p.toNat).testBit j = (decide (j < fldWidth sz) && x.getLsbD (p.toNat + j)) := by
    rw [wbits, bits, e, Nat.testBit_mod_two_pow, Nat.testBit_div_two_pow, Nat.add_comm j, BitVec.testBit_toNat]
  simp only [fldValue, Bool.false_eq_true, if_false]
  cases sg with
  | false =>
    simp only [Bool.false_eq_true, if_false, BitVec.getLsbD_ofNat, hf, hk, decide_true, Bool.true_and]
    by_cases h : k < fldWidth sz <;> simp [h]
  | true =>
    have hs : wordOf (sext (fldWidth sz) (wbits x (p.toNat + fldWidth sz - 1) p.toNat)) =
        (BitVec.ofNat (fldWidth sz) (wbits x (p.toNat + fldWidth sz - 1) p.toNat)).signExtend 64 := by
      rw [sext_eq_toInt _ _ hW]; rfl
    simp only [if_true, hs, BitVec.getLsbD_signExtend, BitVec.msb_eq_getLsbD_last, BitVec.getLsbD_ofNat, hf, hk, decide_true, Bool.true_and]
    by_cases h : k < fldWidth sz <;> simp [h, hW]

end Sys2Proof.Machine
end

section
/-!
CERTIFICATES. Scalar selection, bit counts and fields (04 R78, R80).
-/

namespace Sys2Proof.Machine

open State

/-- A count of at most 64 bits fits its word. -/
theorem toNat_ofNat_of_le_64 {n : Nat} (h : n ≤ 64) : (BitVec.ofNat 64 n).toNat = n := by
  rw [BitVec.toNat_ofNat, Nat.mod_eq_of_lt (by omega)]

/-- Settles O19: each slot leaves its function's value; counts, reversals and fields are then read bit by bit. -/
theorem scalarSelectionResults : Obligations.ScalarSelectionResults := fun s h d a b p sh imm ins sg sz pos =>
  ⟨by unfold exec execMin; exact scalarOp_leaves fun _ => by simp only [BitVec.slt_iff_toInt_lt]; rfl,
   by unfold exec execMax; exact scalarOp_leaves fun _ => by simp only [BitVec.slt_iff_toInt_lt]; rfl,
   by unfold exec execMinu; exact scalarOp_leaves fun _ => by simp only [BitVec.ult_iff_lt, BitVec.lt_def]; rfl,
   by unfold exec execMaxu; exact scalarOp_leaves fun _ => by simp only [BitVec.ult_iff_lt, BitVec.lt_def]; rfl,
   by unfold exec execMovi; exact scalarOp_leaves fun _ => rfl,
   by unfold exec execMovhi; exact scalarOp_leaves fun _ => rfl,
   by unfold exec execLea; exact scalarOp_leaves fun _ => rfl,
   by unfold exec execSel; exact scalarOp_leaves fun _ => rfl,
   fun hi => ⟨_, by unfold exec execPopc; exact scalarOp_leaves (fun _ => rfl) hi, toNat_popcount (s.rs a)⟩,
   fun hi => by
    have hb := clz_bits (s.rs a)
    refine ⟨BitVec.ofNat 64 (clzN 64 (s.rs a).toNat), by unfold exec execClz; exact scalarOp_leaves (fun _ => rfl) hi, ?_⟩
    rwa [toNat_ofNat_of_le_64 hb.1],
   fun hi => by
    have hb := ctz_bits (s.rs a)
    refine ⟨BitVec.ofNat 64 (ctzN 64 (s.rs a).toNat), by unfold exec execCtz; exact scalarOp_leaves (fun _ => rfl) hi, ?_⟩
    rwa [toNat_ofNat_of_le_64 hb.1],
   fun hi => ⟨bitRev (s.rs a), by unfold exec execBitrev; exact scalarOp_leaves (fun _ => rfl) hi, fun _ => getLsbD_bitRev _⟩,
   fun hi => ⟨byteRev (s.rs a), by unfold exec execByterev; exact scalarOp_leaves (fun _ => rfl) hi, fun _ => extractLsb'_byteRev _⟩,
   fun hi => by
    refine ⟨fldValue (s.rs a) (s.rs d) ins sg sz pos, by unfold exec execFld; exact scalarOp_leaves (fun _ => rfl) hi, fun k hk => ?_⟩
    cases ins with
    | true => exact getLsbD_fldValue_insert _ _ sg sz pos hk
    | false => exact getLsbD_fldValue_extract _ _ sg sz pos hk⟩

end Sys2Proof.Machine
end

section
/-!
CERTIFICATES. Scalar floating point (04 R84, R85), compares and predicate operations (04 R81-R83, R85), and what their conditions mean.
-/

namespace Sys2Proof.Machine

open State

/-- Settles O21: each family is one rounding of the exact operation on the values that its registers hold. -/
theorem scalarFloatResults : Obligations.ScalarFloatResults := fun s h d a b rz dbl d4 =>
  ⟨by unfold exec execFadd sfOp; exact scalarOp_leaves fun _ => rfl,
   by unfold exec execFsub sfOp; exact scalarOp_leaves fun _ => rfl,
   by unfold exec execFmul sfOp; exact scalarOp_leaves fun _ => rfl,
   by unfold exec execFfma; exact scalarOp_leaves fun _ => rfl,
   by unfold exec execFmin sfOp; exact scalarOp_leaves fun _ => rfl,
   by unfold exec execFmax sfOp; exact scalarOp_leaves fun _ => rfl,
   by unfold exec execFicvt; exact scalarOp_leaves fun _ => rfl,
   by unfold exec execFcvti; exact scalarOp_leaves fun _ => rfl,
   by unfold exec execFwiden; exact scalarOp_leaves fun _ => rfl,
   by unfold exec execFnarrow; exact scalarOp_leaves fun _ => rfl⟩

/-! ## Writes of a test -/

theorem predWrites_eq (s : State) (fd : BitVec 4) (pw x : Bool) : predWrites s fd pw x = pairWrites s fd pw x := by
  cases pw <;> rfl

/-- A test that issues leaves its writes (04 R81). -/
theorem slotOp_predWrites {i : Instr} {h : Hdr} {s : State} {L : Nat} {fd : BitVec 4} {pw x : Bool} {f : State → Bool}
    (hx : ∀ w, f { s with word := w } = x) (hi : Issues i h s) :
    slotOp i h s (fun s => .next (s.result L (predWrites s fd pw (f s)))) = .next (s.leaves i L (pairWrites s fd pw x)) :=
  slotOp_leaves (fun w => by rw [hx w, predWrites_eq]; rfl) hi

theorem predicateSlotResults : Claims.PredicateResults := fun s h fd a b p q cc tt c3 pw dbl imm =>
  ⟨by unfold exec execCmp; exact slotOp_predWrites fun _ => rfl,
   by unfold exec execCmpi; exact slotOp_predWrites fun _ => rfl,
   by unfold exec execPlog; exact slotOp_predWrites (f := fun s => truthTable tt (s.rf p) (s.rf q)) fun _ => rfl,
   fun hi => ⟨ofMask (fun k => truthTable tt ((s.rm p).getLsbD k) ((s.rm q).getLsbD k)),
    by unfold exec execPlog; exact slotOp_leaves (fun _ => rfl) hi, fun _ hk => getLsbD_ofMask _ hk⟩,
   by unfold exec execPmov; exact slotOp_predWrites fun _ => rfl,
   by unfold exec execFcmp; exact slotOp_predWrites fun _ => rfl⟩

/-! ## The order of values (07 R132) -/

/-- The exact value of a finite number. -/
def finRat (a : Bool) (m : Nat) (e : Int) : ℚ := (if a then -1 else 1) * (m : ℚ) * 2 ^ e

/-- A number scaled to a lower exponent is its value in units of that exponent. -/
theorem scaled_eq (a : Bool) (m : Nat) {e l : Int} (h : l ≤ e) : (scaled a m e l : ℚ) = finRat a m e / 2 ^ l := by
  have he : (2 : ℚ) ^ (e - l).toNat = 2 ^ e / 2 ^ l := by
    rw [← zpow_natCast, Int.toNat_of_nonneg (by omega), zpow_sub₀ (by norm_num)]
  cases a <;> simp [scaled, finRat, he, mul_div_assoc, neg_div]

theorem lt_fin_iff (a b : Bool) (m n : Nat) (e k : Int) :
    (FVal.fin a m e).lt (.fin b n k) = true ↔ finRat a m e < finRat b n k := by
  have hl : (0 : ℚ) < 2 ^ min e k := zpow_pos (by norm_num) _
  rw [FVal.lt, decide_eq_true_iff, ← Int.cast_lt (R := ℚ), scaled_eq a m (min_le_left e k), scaled_eq b n (min_le_right e k),
    div_lt_div_iff_of_pos_right hl]

theorem eq_fin_iff (a b : Bool) (m n : Nat) (e k : Int) :
    (FVal.fin a m e).eq (.fin b n k) = true ↔ finRat a m e = finRat b n k := by
  have h1 := lt_fin_iff a b m n e k
  have h2 := lt_fin_iff b a n m k e
  simp only [FVal.eq, FVal.isNan, Bool.not_false, Bool.true_and, Bool.and_eq_true, Bool.not_eq_true', ← Bool.not_eq_true, h1, h2,
    not_lt]
  exact ⟨fun h => le_antisymm h.2 h.1, fun h => ⟨h.ge, h.le⟩⟩

/-- Of two values at most one is below the other. -/
theorem lt_asymm_val {x y : FVal} (h : x.lt y = true) : y.lt x = false := by
  cases x with
  | nan => simp [FVal.lt] at h
  | inf a => cases y <;> simp_all [FVal.lt]
  | fin a m e => cases y with
    | nan => rfl
    | inf b => simp_all [FVal.lt]
    | fin b n k =>
      rw [lt_fin_iff] at h
      rw [← Bool.not_eq_true, lt_fin_iff]
      exact h.asymm

theorem isNan_eq_false {x : FVal} (h : x ≠ .nan) : x.isNan = false := by
  cases x with
  | nan => exact absurd rfl h
  | inf a => rfl
  | fin a m e => rfl

/-- Not above is below or equal. -/
theorem not_lt_eq {x y : FVal} (hx : x ≠ .nan) (hy : y ≠ .nan) : (!y.lt x) = (x.lt y || x.eq y) := by
  simp only [FVal.eq, isNan_eq_false hx, isNan_eq_false hy, Bool.not_false, Bool.true_and]
  cases h : x.lt y with
  | true => simp [lt_asymm_val h]
  | false => simp

theorem eq_comm_val (x y : FVal) : x.eq y = y.eq x := by
  unfold FVal.eq
  cases x.isNan <;> cases y.isNan <;> simp [Bool.and_comm]

/-- The conditions of a comparison with a NaN (04 R85). -/
theorem fpCond_nan {x y : FVal} (h : x = .nan ∨ y = .nan) (c : BitVec 3) : fpCond c x y = decide (c = 1 ∨ c = 6) := by
  have hun : (x.isNan || y.isNan) = true := by rcases h with rfl | rfl <;> simp [FVal.isNan]
  simp only [fpCond, hun, Bool.not_true, Bool.false_and, Bool.true_or]
  revert c
  decide

/-- The conditions of a comparison without a NaN (04 R85). -/
theorem fpCond_ordered {x y : FVal} (hx : x ≠ .nan) (hy : y ≠ .nan) :
    fpCond 0 x y = x.eq y ∧ fpCond 1 x y = !x.eq y ∧ fpCond 2 x y = x.lt y ∧ fpCond 3 x y = (x.lt y || x.eq y) ∧
      fpCond 4 x y = y.lt x ∧ fpCond 5 x y = (y.lt x || x.eq y) ∧ fpCond 6 x y = false ∧ fpCond 7 x y = true := by
  have h5 : (!x.lt y) = (y.lt x || x.eq y) := eq_comm_val x y ▸ not_lt_eq hy hx
  rw [← not_lt_eq hx hy, ← h5]
  simp [fpCond, isNan_eq_false hx, isNan_eq_false hy]

/-! ## Integer conditions and tests (04 R81, R83) -/

theorem not_slt_eq (x y : Word) : (!x.slt y) = decide (y.toInt ≤ x.toInt) := by simp [BitVec.slt_eq_decide, ← decide_not]

theorem not_ult_eq (x y : Word) : (!x.ult y) = decide (y.toNat ≤ x.toNat) := by simp [BitVec.ult_eq_decide, ← decide_not]

theorem and_ne_zero_iff (x y : Word) : (x &&& y != 0) = true ↔ ∃ k, x.getLsbD k = true ∧ y.getLsbD k = true := by
  rw [bne_iff_ne, ne_eq, BitVec.eq_of_getLsbD_eq_iff]
  simp only [BitVec.getLsbD_and, BitVec.ofNat_eq_ofNat, BitVec.getLsbD_zero, not_forall, Bool.not_eq_false, Bool.and_eq_true]
  exact ⟨fun ⟨k, _, h⟩ => ⟨k, h⟩, fun ⟨k, h⟩ => ⟨k, BitVec.lt_of_getLsbD h.1, h⟩⟩

theorem getLsbD_63_eq (x : Word) : x.getLsbD 63 = decide (x.toInt < 0) := by
  rw [← BitVec.msb_eq_toInt, BitVec.msb_eq_getLsbD_last]

theorem conditionMeanings : Claims.ConditionMeanings := by
  refine ⟨fun x y => ⟨fpCond_nan, fpCond_ordered, ?_, ?_, ?_, ?_, ?_⟩, fun a b m n e k => ⟨lt_fin_iff .., eq_fin_iff ..⟩, fun s x y a => ⟨?_, ?_⟩⟩
  · cases x <;> simp [FVal.lt]
  · cases x <;> simp [FVal.lt]
  · cases x <;> simp [FVal.lt]
  · cases x <;> simp [FVal.lt]
  · intro a
    cases x with
    | nan => rfl
    | inf b => cases a <;> cases b <;> rfl
    | fin b m e => cases a <;> rfl
  · have h11 : intCond 11 x y = !(x &&& y != 0) := by simp [intCond, bne]
    refine ⟨beq_eq_decide .., by rw [decide_not, ← beq_eq_decide]; rfl, BitVec.slt_eq_decide, not_slt_eq .., not_slt_eq ..,
      BitVec.slt_eq_decide, BitVec.ult_eq_decide, not_ult_eq .., not_ult_eq .., BitVec.ult_eq_decide, and_ne_zero_iff x y, ?_⟩
    rw [h11, Bool.not_eq_true', ← Bool.not_eq_true, and_ne_zero_iff, not_exists]
  · refine ⟨rfl, rfl, ?_, beq_eq_decide .., getLsbD_63_eq _⟩
    rw [decide_not, ← beq_eq_decide]
    rfl

/-- Settles O20: the tests write their conditions, and the conditions are those of the values. -/
theorem predicateResults : Obligations.PredicateResults := ⟨predicateSlotResults, conditionMeanings⟩

end Sys2Proof.Machine
end

section
/-!
SUPPORT. What a noted slot word leaves alone, folds that keep a part of the state, and registers read after writes.
CERTIFICATES. Special registers (04 R86, R87) and results in flight (04 R65, R66, R74).
-/

namespace Sys2Proof.Machine

/-! ## The noted slot word -/

namespace State

@[simp] theorem noted_who (s : State) (i : Instr) : (s.noted i).who = s.who := rfl
@[simp] theorem noted_me (s : State) (i : Instr) : (s.noted i).me = s.me := rfl
@[simp] theorem noted_ctx (s : State) (i : Instr) (a : Agent) : (s.noted i).ctx a = s.ctx a := rfl
@[simp] theorem noted_mem (s : State) (i : Instr) : (s.noted i).mem = s.mem := rfl
@[simp] theorem noted_rot (s : State) (i : Instr) : (s.noted i).rot = s.rot := rfl
@[simp] theorem noted_rs (s : State) (i : Instr) (a : BitVec 5) : (s.noted i).rs a = s.rs a := rfl
@[simp] theorem noted_rv (s : State) (i : Instr) (a : BitVec 5) : (s.noted i).rv a = s.rv a := rfl
@[simp] theorem noted_rm (s : State) (i : Instr) (a : BitVec 4) : (s.noted i).rm a = s.rm a := rfl

theorem ctx_srs (s : State) (l : List (BitVec 10 × Word)) (a : Agent) : State.ctx { s with srs := l } a = s.ctx a := rfl

end State

open State

/-- A fold of steps that each keep a part of the state keeps it. -/
theorem foldl_keeps {α β γ : Type} {f : β → α → β} {p : β → γ} (h : ∀ b x, p (f b x) = p b) (l : List α) (b : β) :
    p (l.foldl f b) = p b := by
  induction l generalizing b with
  | nil => rfl
  | cons x r ih => rw [List.foldl_cons, ih, h]

/-! ## Special registers (04 R86, R87) -/

/-- The trap and counter registers after a write of a special register, and what such a write leaves alone (04 R86). -/
theorem writeTrapSr_fields (c : Ctx) (n : BitVec 10) (x : Word) :
    (writeTrapSr c n x).tcause = (if n = 0x030 then x.setWidth 7 else c.tcause) ∧
    (writeTrapSr c n x).tbund = (if n = 0x031 then x.setWidth 57 else c.tbund) ∧
    (writeTrapSr c n x).tckpt = (if n = 0x032 then x.setWidth 57 else c.tckpt) ∧
    (writeTrapSr c n x).frz = (if n = 0x00A then x.setWidth 48 else c.frz) ∧
    (writeTrapSr c n x).stage = c.stage ∧ (writeTrapSr c n x).live = c.live ∧ (writeTrapSr c n x).flight = c.flight := by
  simp only [← BitVec.toNat_inj, BitVec.reduceToNat, writeTrapSr]
  split_ifs <;> simp_all

/-- What WRSR makes of the issuing agent's record (04 R87). -/
theorem wrsr_issues {h : Hdr} {a : BitVec 5} {n : BitVec 10} {s : State} (hi : Issues (.wrsr h a n) h s) :
    ∃ t, execWrsr h a n s = .next t ∧ t.ctx s.who = writeTrapSr { s.me with stage := writeCtl s.me.stage n (s.rs a) } n (s.rs a) ∧
      t.mem = s.mem := by
  have hwho : (s.noted (.wrsr h a n)).who = s.who := noted_who ..
  have hme : (s.noted (.wrsr h a n)).me = s.me := noted_me ..
  have hx : (s.noted (.wrsr h a n)).rs a = s.rs a := noted_rs ..
  have hmem : (s.noted (.wrsr h a n)).mem = s.mem := noted_mem ..
  rw [execWrsr, slotOp_issues hi]
  generalize s.noted (.wrsr h a n) = u at *
  rw [← hwho, ← hme, ← hx, ← hmem]
  refine ⟨_, rfl, ?_⟩
  have hctx : ((u.modStage (fun c => writeCtl c n (u.rs a))).modMe (fun c => writeTrapSr c n (u.rs a))).ctx u.who =
      writeTrapSr { u.me with stage := writeCtl u.me.stage n (u.rs a) } n (u.rs a) := by
    rw [modMe, modStage, modMe, modCtx_who, ctx_modCtx, ctx_modCtx]
    rfl
  have hmem' : ((u.modStage (fun c => writeCtl c n (u.rs a))).modMe (fun c => writeTrapSr c n (u.rs a))).mem = u.mem := by
    rw [modMe_mem, modStage, modMe_mem]
  generalize State.modMe _ _ = v at hctx hmem' ⊢
  split
  · exact ⟨(ctx_srs ..).trans hctx, hmem'⟩
  · exact ⟨hctx, hmem'⟩

theorem specialRegisterAccess : Claims.SpecialRegisterAccess := fun s h d a n =>
  ⟨by unfold exec execRdsr; exact scalarOp_leaves fun _ => rfl, fun hi => by
    obtain ⟨t, he, hctx, hmem⟩ := wrsr_issues hi
    obtain ⟨hcause, hbund, hckpt, hfrz, hstage, hlive, hflight⟩ := writeTrapSr_fields { s.me with stage := writeCtl s.me.stage n (s.rs a) } n (s.rs a)
    refine ⟨t, by unfold exec; exact he, ?_⟩
    rw [hctx]
    exact ⟨hstage, hlive, hflight, hcause, hbund, hckpt, hfrz, hmem⟩⟩

theorem lc_writeCtl (c : Ctl) (x : Word) {k : Nat} (hk : k < 8) : (writeCtl c (BitVec.ofNat 10 k) x).lc[k] = BitVec.ofNat 12 (min x.toNat 4095) := by
  have hn : (BitVec.ofNat 10 k).toNat = k := by rw [BitVec.toNat_ofNat, Nat.mod_eq_of_lt (by omega)]
  simp [writeCtl, hn, hk]

/-- A loop index reads what was written to it, if its level is present (04 R71, R87). -/
theorem loopIdx_writeCtl (c : Ctl) (x : Word) {k : Nat} (hk : k < 6) :
    loopIdx (writeCtl c (BitVec.ofNat 10 (0x018 + k)) x) k = if k < c.loops.length then x else 0 := by
  have hn : (BitVec.ofNat 10 (0x018 + k)).toNat = 0x018 + k := by rw [BitVec.toNat_ofNat, Nat.mod_eq_of_lt (by omega)]
  have hw : writeCtl c (BitVec.ofNat 10 (0x018 + k)) x = setLoopIdx c k x := by
    rw [writeCtl, hn, if_neg (by omega), if_neg (by omega), if_neg (by omega), if_pos (by omega), Nat.add_sub_cancel_left]
  rw [hw, setLoopIdx, loopIdx]
  by_cases h : k < c.loops.length
  · simp only [h, if_true]
    rw [List.getElem?_reverse (by simpa using h)]
    have hlt : c.loops.length - 1 - k < c.loops.length := by omega
    simp [hlt]
  · simp only [h, if_false]
    rw [List.getElem?_eq_none (by simpa using h)]
    rfl

/-- A return-store entry reads what was written to it, if it lies within the depth (04 R69, R87). -/
theorem rasEntry_writeCtl (c : Ctl) (x : Word) {k : Nat} (hk : k < 16) :
    rasEntry (writeCtl c (BitVec.ofNat 10 (0x020 + k)) x) k = if k < c.rets.length then (x.setWidth 57).setWidth 64 else 0 := by
  have hn : (BitVec.ofNat 10 (0x020 + k)).toNat = 0x020 + k := by rw [BitVec.toNat_ofNat, Nat.mod_eq_of_lt (by omega)]
  have hw : writeCtl c (BitVec.ofNat 10 (0x020 + k)) x = setRas c k x := by
    rw [writeCtl, hn, if_neg (by omega), if_neg (by omega), if_neg (by omega), if_neg (by omega), if_pos (by omega), Nat.add_sub_cancel_left]
  rw [hw, setRas, rasEntry]
  by_cases h : k < c.rets.length <;> simp [h]

theorem specialRegisterWriteValues : Claims.SpecialRegisterWriteValues := fun c x _ =>
  ⟨lc_writeCtl c x, rfl, rfl, loopIdx_writeCtl c x, rasEntry_writeCtl c x⟩

/-- Settles O22: a read leaves the register's value; a write is seen in the control registers of the next bundle and in the trap registers. -/
theorem specialRegisters : Obligations.SpecialRegisters := ⟨specialRegisterAccess, specialRegisterWriteValues⟩

end Sys2Proof.Machine
end

section
/-!
CERTIFICATES. Results in flight: when they are written, in what order, and to which rotated names (04 R65, R66, R74; 06 R103).
-/

namespace Sys2Proof.Machine

open State

/-! ## Registers after one write (04 R66; 02 R31) -/

namespace Regs

theorem getElem_set_toNat {α : Type} {w : Nat} (v : Vector α (2 ^ w)) (n q : BitVec w) (x : α) :
    (v.set n.toNat x n.isLt).get q.toFin = if n = q then x else v.get q.toFin := by
  have h : n.toFin.val = q.toFin.val ↔ n = q := BitVec.toNat_inj
  simp only [Vector.get_eq_getElem, Vector.getElem_set, ← h]
  rfl

theorem getD_ite_some {α : Type} (p : Prop) [Decidable p] (x d : α) : (if p then some x else none).getD d = if p then x else d := by
  split <;> rfl

theorem getS_put (r : Regs) (w : RegWrite) {q : BitVec 5} (hq : q ≠ 0) :
    (r.put w).getS q = (match w with | .s n x => if n = q then some x else none | _ => none).getD (r.getS q) := by
  cases w with
  | s n x =>
    show (r.put (.s n x)).getS q = (if n = q then some x else none).getD (r.getS q)
    rw [getD_ite_some, put]
    split
    case isTrue hn => rw [if_neg fun e : n = q => hq (e ▸ hn)]
    case isFalse => exact getElem_set_toNat r.s n q x
  | v n x => rfl
  | f n x => simp only [put]; split <;> rfl
  | m n x => simp only [put]; split <;> rfl
  | c p x => rfl

theorem getV_put (r : Regs) (w : RegWrite) (q : BitVec 5) :
    (r.put w).getV q = (match w with | .v n x => if n = q then some x else none | _ => none).getD (r.getV q) := by
  cases w with
  | s n x => simp only [put]; split <;> rfl
  | v n x => exact (getElem_set_toNat r.v n q x).trans (getD_ite_some ..).symm
  | f n x => simp only [put]; split <;> rfl
  | m n x => simp only [put]; split <;> rfl
  | c p x => rfl

theorem getM_put (r : Regs) (w : RegWrite) {q : BitVec 4} (hq : q ≠ 0) :
    (r.put w).getM q = (match w with | .m n x => if n = q then some x else none | _ => none).getD (r.getM q) := by
  cases w with
  | s n x => simp only [put]; split <;> rfl
  | v n x => rfl
  | f n x => simp only [put]; split <;> rfl
  | m n x =>
    show (r.put (.m n x)).getM q = (if n = q then some x else none).getD (r.getM q)
    rw [getD_ite_some, put]
    split
    case isTrue hn => rw [if_neg fun e : n = q => hq (e ▸ hn)]
    case isFalse => exact getElem_set_toNat r.m n q x
  | c p x => rfl

theorem getF_setF (r : Regs) (n : BitVec 4) (x : Bool) {q : BitVec 4} (hq : q ≠ 0) : (r.setF n x).getF q = if n = q then x else r.getF q := by
  have hlt : q.toNat < 16 := q.isLt
  have hbit : (BitVec.ofNat 16 (2 ^ n.toNat)).getLsbD q.toNat = decide (n = q) := by
    rw [BitVec.getLsbD_ofNat, Nat.testBit_two_pow, decide_eq_true hlt, Bool.true_and, decide_eq_decide, BitVec.toNat_inj]
  have hx : (if x then BitVec.ofNat 16 (2 ^ n.toNat) else 0).getLsbD q.toNat = (x && decide (n = q)) := by
    cases x
    · exact BitVec.getLsbD_zero
    · exact hbit
  simp only [getF, setF, BitVec.getLsbD_or, BitVec.getLsbD_and, BitVec.getLsbD_not, hbit, hx, hlt, decide_true, Bool.true_and, beq_eq_false_iff_ne.mpr hq,
    Bool.false_or]
  by_cases h : n = q <;> simp [h]

theorem getF_put (r : Regs) (w : RegWrite) {q : BitVec 4} (hq : q ≠ 0) :
    (r.put w).getF q = (match w with | .f n x => if n = q then some x else none | _ => none).getD (r.getF q) := by
  cases w with
  | s n x => simp only [put]; split <;> rfl
  | v n x => rfl
  | f n x =>
    show (r.put (.f n x)).getF q = (if n = q then some x else none).getD (r.getF q)
    rw [getD_ite_some, put]
    split
    case isTrue hn => rw [if_neg fun e : n = q => hq (e ▸ hn)]
    case isFalse => exact getF_setF r n x hq
  | m n x => simp only [put]; split <;> rfl
  | c p x => rfl

/-- A write of s0 is discarded. -/
theorem getS_zero_put (r : Regs) (w : RegWrite) : (r.put w).getS 0 = r.getS 0 := by
  cases w with
  | s n x =>
    rcases eq_or_ne n 0 with rfl | hn
    · rfl
    · rw [put, if_neg hn]
      exact (getElem_set_toNat r.s n 0 x).trans (if_neg hn)
  | v n x => rfl
  | f n x => simp only [put]; split <;> rfl
  | m n x => simp only [put]; split <;> rfl
  | c p x => rfl

/-- A write of m0 is discarded. -/
theorem getM_zero_put (r : Regs) (w : RegWrite) : (r.put w).getM 0 = r.getM 0 := by
  cases w with
  | s n x => simp only [put]; split <;> rfl
  | v n x => rfl
  | f n x => simp only [put]; split <;> rfl
  | m n x =>
    rcases eq_or_ne n 0 with rfl | hn
    · rfl
    · rw [put, if_neg hn]
      exact (getElem_set_toNat r.m n 0 x).trans (if_neg hn)
  | c p x => rfl

/-- No write of a result changes the control registers. -/
theorem c_put (r : Regs) (w : RegWrite) : (r.put w).c = r.c := by
  cases w with
  | s n x => simp only [put]; split <;> rfl
  | v n x => rfl
  | f n x => simp only [put]; split <;> rfl
  | m n x => simp only [put]; split <;> rfl
  | c p x => rfl

/-! ## Registers after writes in order -/

/-- Of the writes that name a register the last prevails (04 R66). -/
theorem read_putAll {β : Type} {read : Regs → β} {sel : RegWrite → Option β} (h : ∀ r w, read (r.put w) = (sel w).getD (read r))
    (ws : List RegWrite) (r : Regs) : read (r.putAll ws) = ((ws.filterMap sel).getLast?).getD (read r) := by
  induction ws generalizing r with
  | nil => rfl
  | cons w ws ih =>
    have hcons : r.putAll (w :: ws) = (r.put w).putAll ws := rfl
    rw [hcons, ih, h]
    cases hw : sel w with
    | none => simp [hw]
    | some x => simp [hw, List.getLast?_cons]

/-- What no write changes, no writes change. -/
theorem putAll_keeps {β : Type} {read : Regs → β} (h : ∀ r w, read (r.put w) = read r) (ws : List RegWrite) (r : Regs) :
    read (r.putAll ws) = read r := foldl_keeps h ws r

end Regs

/-! ## Results that land (04 R65, R66) -/

/-- Results that land write their registers one after another, and leave the rest of their context but for its checkpoint. -/
theorem foldl_landEntry (due : List Flight) (c : Ctx) : (due.foldl landEntry c).live = c.live.putAll (due.flatMap entryWrites) ∧
    (due.foldl landEntry c).flight = c.flight ∧ (due.foldl landEntry c).held = c.held := by
  induction due generalizing c with
  | nil => exact ⟨rfl, rfl, rfl⟩
  | cons e r ih =>
    obtain ⟨hlive, hflight, hheld⟩ := ih (landEntry c e)
    refine ⟨?_, hflight, hheld⟩
    rw [List.foldl_cons, hlive, List.flatMap_cons, Regs.putAll, Regs.putAll, List.foldl_append]
    rfl

/-- Setting the scales of panes changes no agent and no memory (09 R183). -/
theorem landScales_keeps (s : State) (a : Agent) (ws : List RegWrite) :
    (landScales s a ws).ctxs = s.ctxs ∧ (landScales s a ws).mem = s.mem :=
  Prod.ext_iff.mp (foldl_keeps (p := fun s : State => (s.ctxs, s.mem)) (fun s w => by cases w <;> rfl) ws s)

theorem resultsLand : Claims.ResultsLand := fun s a => by
  intro c due ws t u
  obtain ⟨hctxs, hmem⟩ := landScales_keeps
    (s.setCtx a ((c.flight.filter due).foldl landEntry { c with flight := c.flight.filter (fun e => !due e) })) a ws
  obtain ⟨hlive, hflight, hheld⟩ := foldl_landEntry (c.flight.filter due) { c with flight := c.flight.filter (fun e => !due e) }
  have ht : t.ctx a = (c.flight.filter due).foldl landEntry { c with flight := c.flight.filter (fun e => !due e) } := by
    rw [State.ctx, show t.ctxs = _ from hctxs]
    exact ctx_setCtx ..
  have hu : u = c.live.putAll ws := (congrArg Ctx.live ht).trans hlive
  refine ⟨fun r => ?_, fun r => ?_, fun r => ?_, fun r => ?_, ?_, (congrArg Ctx.flight ht).trans hflight, (congrArg Ctx.held ht).trans hheld, fun k => ?_⟩
  · rw [hu]
    split
    case isTrue h => exact h ▸ Regs.putAll_keeps (read := fun x => x.getS 0) Regs.getS_zero_put ws c.live
    case isFalse h => exact Regs.read_putAll (read := fun x => x.getS r) (fun x w => Regs.getS_put x w h) ws c.live
  · rw [hu]
    exact Regs.read_putAll (read := fun x => x.getV r) (fun x w => Regs.getV_put x w r) ws c.live
  · rw [hu]
    split
    case isTrue h => exact h ▸ rfl
    case isFalse h => exact Regs.read_putAll (read := fun x => x.getF r) (fun x w => Regs.getF_put x w h) ws c.live
  · rw [hu]
    split
    case isTrue h => exact h ▸ Regs.putAll_keeps (read := fun x => x.getM 0) Regs.getM_zero_put ws c.live
    case isFalse h => exact Regs.read_putAll (read := fun x => x.getM r) (fun x w => Regs.getM_put x w h) ws c.live
  · rw [hu]
    exact Regs.putAll_keeps Regs.c_put ws c.live
  · exact congrArg (fun m => readMem m k) hmem

/-! ## Latency (04 R65; 06 R103) -/

theorem iterate_ageFlight (n : Nat) (c : Ctx) :
    ageFlight^[n] c = { c with flight := c.flight.map (fun e => { e with dist := e.dist - n }) } := by
  induction n generalizing c with
  | zero => simp
  | succ n ih =>
    rw [Function.iterate_succ_apply, ih]
    simp [ageFlight, Nat.sub_sub, Nat.add_comm]

theorem resultLatency : Claims.ResultLatency := fun s i L n ws => by
  have hme : (s.leaves i L ws).ctx s.who = _ := leaves_me s i L ws
  simp only [hme, iterate_ageFlight]
  simp

/-! ## Rotated names (04 R74) -/

theorem toNat_physSV (r : BitVec 4) (n : BitVec 5) :
    (physSV r n).toNat = if n.toNat < 16 then n.toNat else 16 + (n.toNat - 16 + r.toNat) % 16 := by
  unfold physSV
  split
  · rfl
  · rw [BitVec.toNat_ofNat, Nat.mod_eq_of_lt (by omega)]

theorem toNat_physF (r : BitVec 4) (n : BitVec 4) :
    (physF r n).toNat = if n.toNat < 8 then n.toNat else 8 + (n.toNat - 8 + r.toNat) % 8 := by
  unfold physF
  split
  · rfl
  · rw [BitVec.toNat_ofNat, Nat.mod_eq_of_lt (by omega)]

theorem physSV_injective (r : BitVec 4) {n m : BitVec 5} (h : physSV r n = physSV r m) : n = m := by
  have h := congrArg BitVec.toNat h
  rw [toNat_physSV, toNat_physSV] at h
  have hn := n.isLt
  have hm := m.isLt
  apply BitVec.eq_of_toNat_eq
  split at h <;> split at h <;> omega

theorem physF_injective (r : BitVec 4) {n m : BitVec 4} (h : physF r n = physF r m) : n = m := by
  have h := congrArg BitVec.toNat h
  rw [toNat_physF, toNat_physF] at h
  have hn := n.isLt
  have hm := m.isLt
  apply BitVec.eq_of_toNat_eq
  split at h <;> split at h <;> omega

theorem rotatedNames : Claims.RotatedNames := fun r n _ p _ =>
  ⟨fun h => if_pos h, fun h => by rw [toNat_physSV, if_neg (by omega)], fun h => if_pos h, fun h => by rw [toNat_physF, if_neg (by omega)],
   physSV_injective r, physF_injective r⟩

/-- Settles O12: landing is a fold of register writes in issue order, ageing lowers distances alone, and rotation permutes the upper names. -/
theorem resultsInFlight : Obligations.ResultsInFlight := ⟨resultsLand, resultLatency, rotatedNames⟩

end Sys2Proof.Machine
end

section
/-!
SUPPORT. The end of a bundle, said once: what each of its parts makes of the issuing agent's record, and what it leaves alone
(02 R34; 04 R66; 06 R117, R118; 14 R258; 22 R366).
-/

namespace Sys2Proof.Machine

open State

/-! ## Samples (15 R293) -/

/-- A state without its cores, dies and notices: what a monitor's sample leaves alone. -/
def State.unsampled (s : State) : State := { s with cores := [], dies := [], notices := [] }

theorem unsampled_sample (s : State) (a : Agent) (src v : Nat) : (s.sample a src v).unsampled = s.unsampled := by
  unfold State.sample
  refine (foldl_keeps (p := State.unsampled) (fun s k => ?_) ..).trans (foldl_keeps (p := State.unsampled) (fun s k => ?_) ..)
  · dsimp only
    split
    · split <;> rfl
    · rfl
  · dsimp only
    split
    · split <;> rfl
    · rfl

/-- A state without the agents' records, cores, dies and notices: what the end of a bundle without a checkpoint leaves alone. -/
def State.frame (s : State) : State := { s.unsampled with ctxs := [] }

theorem frame_sample (s : State) (a : Agent) (src v : Nat) : (s.sample a src v).frame = s.frame :=
  congrArg (fun t : State => { t with ctxs := [] }) (unsampled_sample s a src v)
theorem frame_modCtx (s : State) (a : Agent) (f : Ctx → Ctx) : (s.modCtx a f).frame = s.frame := rfl
theorem frame_modMe (s : State) (f : Ctx → Ctx) : (s.modMe f).frame = s.frame := rfl
theorem frame_modCore (s : State) (n : Nat) (f : CoreSt → CoreSt) : (s.modCore n f).frame = s.frame := rfl
theorem frame_notify (s : State) (n : Notice) : (s.notify n).frame = s.frame := rfl

theorem ctx_sample (s : State) (a : Agent) (src v : Nat) (b : Agent) : (s.sample a src v).ctx b = s.ctx b :=
  by have h := congrArg (fun t : State => t.ctx b) (unsampled_sample s a src v); exact h

section
variable {s t : State}

theorem who_of_frame (h : t.frame = s.frame) : t.who = s.who := by have h' := congrArg State.who h; exact h'
theorem srs_of_frame (h : t.frame = s.frame) : t.srs = s.srs := by have h' := congrArg State.srs h; exact h'
theorem mem_of_frame (h : t.frame = s.frame) : t.mem = s.mem := by have h' := congrArg State.mem h; exact h'
theorem ckb_of_frame (h : t.frame = s.frame) : t.ckb = s.ckb := by have h' := congrArg State.ckb h; exact h'
theorem bpc_of_frame (h : t.frame = s.frame) : t.bpc = s.bpc := by have h' := congrArg State.bpc h; exact h'

end

/-! ## Pops (02 R34; 12 R228) -/

/-- The staged control registers after the pop of one head, if a pop mask names it. -/
def popHead (live : Ctl) (pm : BitVec 4) (c : Ctl) (k : Nat) : Ctl :=
  if pm.getLsbD k && decide (c.qh.getD k {} = live.qh.getD k {}) then
    { c with qh := c.qh.setIfInBounds k { live.qh.getD k {} with pos := (live.qh.getD k {}).pos + 1 } }
  else c
/-- The staged control registers after the pops of a pop mask. -/
def poppedCtl (live : Ctl) (pm : BitVec 4) (c : Ctl) : Ctl := (List.range 4).foldl (popHead live pm) c

/-- Pops change the queue heads of the staged control registers alone. -/
theorem poppedCtl_qh (live : Ctl) (pm : BitVec 4) (c : Ctl) : { poppedCtl live pm c with qh := c.qh } = c := by
  have h : { poppedCtl live pm c with qh := live.qh } = { c with qh := live.qh } := by
    refine foldl_keeps (p := fun x : Ctl => { x with qh := live.qh }) (fun x k => ?_) ..
    unfold popHead
    split <;> rfl
  exact congrArg (fun x : Ctl => { x with qh := c.qh }) h

theorem popHead_same {live c : Ctl} {k : Nat} (pm : BitVec 4) (h : c.qh.getD k {} = live.qh.getD k {}) : popHead live pm c k =
    if pm.getLsbD k then { c with qh := c.qh.setIfInBounds k { live.qh.getD k {} with pos := (live.qh.getD k {}).pos + 1 } } else c := by
  simp only [popHead, h, decide_true, Bool.and_true]

/-- Each head that the mask names, and no other, is popped, where no slot of the bundle has staged another head (12 R228). -/
theorem poppedCtl_get {live c : Ctl} (h : c.qh = live.qh) (pm : BitVec 4) (k : Fin 4) :
    (poppedCtl live pm c).qh.get k = if pm.getLsbD k.val then { live.qh.get k with pos := (live.qh.get k).pos + 1 } else live.qh.get k := by
  suffices hn : ∀ n ≤ 4, ∀ k : Fin 4, ((List.range n).foldl (popHead live pm) c).qh.get k =
      if pm.getLsbD k.val && decide (k.val < n) then { live.qh.get k with pos := (live.qh.get k).pos + 1 } else live.qh.get k by
    simpa [poppedCtl] using hn 4 le_rfl k
  intro n hn
  induction n with
  | zero => simp [h]
  | succ n ih =>
    intro k
    have hlt : n < 4 := hn
    have hget : ∀ v : Vector QHead 4, v.getD n {} = v.get ⟨n, hlt⟩ := fun v => by simp [Vector.getD, hlt, Vector.get_eq_getElem]
    have hsame : ((List.range n).foldl (popHead live pm) c).qh.getD n {} = live.qh.getD n {} := by
      rw [hget, hget, ih (by omega)]
      simp
    rw [List.range_succ, List.foldl_append, List.foldl_cons, List.foldl_nil, popHead_same pm hsame, hget]
    have hk := ih (by omega) k
    by_cases hkn : k.val = n
    · subst hkn
      cases hp : pm.getLsbD k.val with
      | false => simpa [hp] using hk
      | true => simp [Vector.get_eq_getElem]
    · have hle : k.val < n + 1 ↔ k.val < n := by omega
      simp only [hle, ← hk]
      split
      · simp [Vector.get_eq_getElem, Vector.getElem_setIfInBounds_ne, Ne.symm hkn]
      · rfl

/-- The pop of one head, if a pop mask names it. -/
def State.popOne (pm : BitVec 4) (s : State) (k : Nat) : State :=
  if pm.getLsbD k then
    let h := s.regs.c.qh.getD k {}
    let s := s.modStage (fun c => if c.qh.getD k {} = h then { c with qh := c.qh.setIfInBounds k { h with pos := h.pos + 1 } } else c)
    s.addHeld (.qpop (s.queueKey s.who h.queue.toNat)) []
  else s

theorem popHeads_eq (s : State) (pm : BitVec 4) : s.popHeads pm = (List.range 4).foldl (State.popOne pm) s := rfl

/-- A pop changes nothing but the issuing agent's record. -/
theorem frame_popOne (pm : BitVec 4) (s : State) (k : Nat) : (s.popOne pm k).frame = s.frame := by
  unfold State.popOne
  split
  · rw [addHeld, frame_modMe, modStage, frame_modMe]
  · rfl

theorem frame_popHeads (pm : BitVec 4) (s : State) : (s.popHeads pm).frame = s.frame := foldl_keeps (frame_popOne pm) _ s

/-- A pop changes the staged head, and is withheld as an effect. -/
theorem me_popOne (pm : BitVec 4) (s : State) (k : Nat) :
    ∃ ps, (s.popOne pm k).me = { s.me with stage := popHead s.me.live.c pm s.me.stage k, held := s.me.held ++ ps } := by
  unfold State.popOne popHead
  cases hk : pm.getLsbD k with
  | false => exact ⟨[], by simp⟩
  | true =>
    simp only [if_true, addHeld, modStage, me_modMe, Bool.true_and, decide_eq_true_eq, regs]
    exact ⟨_, rfl⟩

/-- The pops of a bundle change the issuing agent's staged heads, and are withheld as effects. -/
theorem me_popHeads (pm : BitVec 4) (s : State) :
    ∃ ps, (s.popHeads pm).me = { s.me with stage := poppedCtl s.me.live.c pm s.me.stage, held := s.me.held ++ ps } := by
  rw [popHeads_eq, poppedCtl]
  induction List.range 4 generalizing s with
  | nil => exact ⟨[], by simp⟩
  | cons k l ih =>
    obtain ⟨ps, hme⟩ := ih (s.popOne pm k)
    obtain ⟨qs, hq⟩ := me_popOne pm s k
    exact ⟨qs ++ ps, by simp only [List.foldl_cons, hme, hq, List.append_assoc]⟩

/-! ## Checkpoints (06 R117, R118) -/

theorem settleBanks_keeps (s : State) (key : Nat) : (s.settleBanks key).ctxs = s.ctxs ∧ (s.settleBanks key).mem = s.mem := by
  unfold State.settleBanks
  refine Prod.ext_iff.mp (foldl_keeps (p := fun s : State => (s.ctxs, s.mem)) (fun s r => ?_) ..)
  dsimp only
  split <;> rfl

/-- The record that a release leaves: its withheld effects are gone. -/
theorem ctx_release (s : State) (a : Agent) : (s.release a).ctx a = { s.ctx a with held := [] } ∧ (s.release a).mem = s.mem := by
  unfold State.release
  extract_lets c sorted rs s1
  obtain ⟨hctxs, hmem⟩ := settleBanks_keeps (s1.modCtx a (fun c => { c with held := [] })) a.relKey
  refine ⟨?_, hmem⟩
  rw [State.ctx, hctxs]
  exact ctx_modCtx ..

/-- The registers that a checkpoint establishes: bindings that an unbind ended are gone (06 R118; 12 R227, R231). -/
def checkpointRegs (s : State) (a : Agent) : Regs := { (s.ctx a).live with c := endBindings s a (s.ctx a).live.c (s.ctx a).held }

/-- The record that establishing a checkpoint leaves. -/
theorem ctx_establish (s : State) (a : Agent) (bund : BitVec 57) : (s.establish a bund).ctx a = { s.ctx a with
    live := checkpointRegs s a, ckpt := checkpointRegs s a, ckBund := bund, tiles := 0, held := []
    flight := (s.ctx a).flight.map (fun e => { e with ck := true, distCk := e.dist }) } ∧ (s.establish a bund).mem = s.mem := by
  unfold State.establish
  extract_lets s1 s2
  obtain ⟨hctx, hmem⟩ := ctx_release s2 a
  refine ⟨?_, hmem⟩
  rw [hctx]
  simp only [s2, s1, ctx_modCtx]
  rfl

/-! ## What a yield and a stop leave of an agent's record -/

/-- The parts of an agent's record that a bundle settles: its registers, its checkpoint, its results in flight, its withheld effects and its issue cycles. -/
def Ctx.settled (c : Ctx) : Regs × Regs × BitVec 57 × List Flight × List Withheld × BitVec 48 :=
  (c.live, c.ckpt, c.ckBund, c.flight, c.held, c.icyc)

theorem settled_fields {c d : Ctx} (h : c.settled = d.settled) : c.live = d.live ∧ c.ckpt = d.ckpt ∧ c.ckBund = d.ckBund ∧
    c.flight = d.flight ∧ c.held = d.held ∧ c.icyc = d.icyc := by
  simpa [Ctx.settled] using h

theorem settled_yieldCtx (s : State) (a : Agent) : ((s.yieldCtx a).ctx a).settled = (s.ctx a).settled := by
  unfold State.yieldCtx
  rw [ctx_modCore, ctx_modCtx]
  unfold State.endRun
  split <;> rfl

theorem frame_yieldCtx (s : State) (a : Agent) : (s.yieldCtx a).frame = s.frame := by
  rw [yieldCtx, frame_modCore, frame_modCtx]

theorem ctxs_vacate (s : State) (a : Agent) : (s.vacate a).ctxs = s.ctxs := by cases a <;> rfl
theorem frame_vacate (s : State) (a : Agent) : (s.vacate a).frame = s.frame := by cases a <;> rfl

theorem ctx_vacate (s : State) (a b : Agent) : (s.vacate a).ctx b = s.ctx b := congrArg (SMap.get _ · _) (ctxs_vacate s a)

theorem settled_stopWith (s : State) (a : Agent) (t : TrapRec) (kind : Nat) : ((s.stopWith a t kind).ctx a).settled = (s.ctx a).settled := by
  unfold State.stopWith
  rw [ctx_notify, ctx_vacate, ctx_modCtx]
  rfl

theorem frame_stopWith (s : State) (a : Agent) (t : TrapRec) (kind : Nat) : (s.stopWith a t kind).frame = s.frame := by
  unfold State.stopWith
  rw [frame_notify, frame_vacate, frame_modCtx]

theorem settled_boundaryStopAt (s : State) (a : Agent) (cause : Nat) (det : Det) :
    ((s.boundaryStopAt a cause det).ctx a).settled = (s.ctx a).settled := by
  rw [boundaryStopAt, settled_stopWith, ctx_modCtx]
  rfl

theorem frame_boundaryStopAt (s : State) (a : Agent) (cause : Nat) (det : Det) : (s.boundaryStopAt a cause det).frame = s.frame := by
  rw [boundaryStopAt, frame_stopWith, frame_modCtx]

end Sys2Proof.Machine
end

section
/-!
SUPPORT. The end of a bundle, said once: the registers, the checkpoint and the position that it leaves to the issuing agent.
-/

namespace Sys2Proof.Machine

open State

/-! ## The end of a bundle in its parts -/

/-- The issuing agent's record after its bundle: the control registers that the next bundle reads, one issue cycle more (02 R27; 04 R66; 06 R103). -/
def passBundle (srs : List (BitVec 10 × Word)) (pc : BitVec 64) (cost : Nat) (busy : Bool) (cc : Nat) (c : Ctx) : Ctx :=
  let c := { c with live := { c.live with c := { srs.foldl (fun (k : Ctl) w => writeCtl k w.1 w.2) c.stage with pc := pc } }
                    icyc := c.icyc + 1, empty := Nat.max cost c.empty
                    wait := none, waits := [], issuedAt := cc + 1, far := c.far.filter (fun f => f.use_ != .slot)
                    mb := if busy ∧ c.runs < 4 then c.mb + 1 else c.mb }
  { ageFlight c with stage := c.live.c }

/-- A command processor's HEAD is its next bundle (23 R394). -/
def moveHead (s : State) (a : Agent) (pc : BitVec 64) : State := match a with
  | .cp d => s.modDie d (fun x => { x with head := pc })
  | _ => s

/-- A bundle's pops, its record, its sample; without its checkpoint. -/
def settleBundle (s : State) (h : LHdr) (pc : BitVec 64) (cost : Nat) : State :=
  let u := s.popHeads h.pm
  moveHead ((u.modMe (passBundle u.srs pc cost (u.paneBusy s.who) u.cc)).sample s.who 0x01 1) s.who pc

/-- An agent yields, if its bundle says so (14 R258). -/
def yieldIf (s : State) (a : Agent) (y : Bool) : State := if y ∧ a.onCore ∧ (s.ctx a).st = .front then s.yieldCtx a else s
/-- A single-stepped agent takes its stop (22 R366). -/
def stepStop (s : State) (a : Agent) : State :=
  if (s.ctx a).step ∧ (s.ctx a).empty = 0 ∧ (s.ctx a).st ≠ .halted ∧ (s.ctx a).st ≠ .stopped then s.boundaryStopAt a 0x71 {} else s

theorem endBundle_post (s : State) (h : LHdr) (pc : BitVec 64) (cost : Nat) (post : State → State) : s.endBundle h pc cost post =
    .next (stepStop (yieldIf (post (if (settleBundle s h pc cost).ckb then
      (settleBundle s h pc cost).establish s.who ((settleBundle s h pc cost).bpc.setWidth 57) else settleBundle s h pc cost)) s.who h.y) s.who) :=
  (apply_ite Host.Outcome.next ..).symm

/-! ## What each part leaves -/

/-- The control registers that a bundle leaves to the next (02 R27, R34; 04 R66). -/
def nextCtl (s : State) (h : LHdr) (pc : BitVec 64) : Ctl :=
  { s.srs.foldl (fun (k : Ctl) w => writeCtl k w.1 w.2) (poppedCtl s.me.live.c h.pm s.me.stage) with pc := pc }

theorem ctx_moveHead (s : State) (a b : Agent) (pc : BitVec 64) : (moveHead s a pc).ctx b = s.ctx b := by cases a <;> rfl
theorem frame_moveHead (s : State) (a : Agent) (pc : BitVec 64) : (moveHead s a pc).frame = s.frame := by cases a <;> rfl

theorem frame_settleBundle (s : State) (h : LHdr) (pc : BitVec 64) (cost : Nat) : (settleBundle s h pc cost).frame = s.frame := by
  rw [settleBundle, frame_moveHead, frame_sample, frame_modMe, frame_popHeads]

/-- The record that a bundle without a checkpoint settles. -/
theorem ctx_settleBundle (s : State) (h : LHdr) (pc : BitVec 64) (cost : Nat) : ∃ ps,
    ((settleBundle s h pc cost).ctx s.who).settled = Ctx.settled { s.me with
      live := { s.me.live with c := nextCtl s h pc }, icyc := s.me.icyc + 1, held := s.me.held ++ ps
      flight := s.me.flight.map (fun e => { e with dist := e.dist - 1 }) } ∧
    ((settleBundle s h pc cost).ctx s.who).st = s.me.st ∧ ((settleBundle s h pc cost).ctx s.who).step = s.me.step := by
  obtain ⟨ps, hpop⟩ := me_popHeads h.pm s
  have hframe := frame_popHeads h.pm s
  have hctx : (settleBundle s h pc cost).ctx s.who = passBundle (s.popHeads h.pm).srs pc cost ((s.popHeads h.pm).paneBusy s.who)
      (s.popHeads h.pm).cc (s.popHeads h.pm).me := by
    rw [settleBundle, ctx_moveHead, ctx_sample, ← who_of_frame hframe]
    exact me_modMe ..
  refine ⟨ps, ?_⟩
  rw [hctx, hpop, srs_of_frame hframe]
  exact ⟨rfl, rfl, rfl⟩

theorem settled_yieldIf (s : State) (a : Agent) (y : Bool) : ((yieldIf s a y).ctx a).settled = (s.ctx a).settled := by
  unfold yieldIf
  split
  · exact settled_yieldCtx s a
  · rfl

theorem frame_yieldIf (s : State) (a : Agent) (y : Bool) : (yieldIf s a y).frame = s.frame := by
  unfold yieldIf
  split
  · exact frame_yieldCtx s a
  · rfl

theorem settled_stepStop (s : State) (a : Agent) : ((stepStop s a).ctx a).settled = (s.ctx a).settled := by
  unfold stepStop
  split
  · exact settled_boundaryStopAt s a _ _
  · rfl

theorem frame_stepStop (s : State) (a : Agent) : (stepStop s a).frame = s.frame := by
  unfold stepStop
  split
  · exact frame_boundaryStopAt s a _ _
  · rfl

theorem stepStop_unstepped {s : State} {a : Agent} (h : (s.ctx a).step = false) : stepStop s a = s := by simp [stepStop, h]

/-- A front context that yields is waiting, and no position is its own (14 R258). -/
theorem yieldIf_yields {s : State} {a : Agent} (hcore : a.onCore = true) (hst : (s.ctx a).st = .front) :
    ((yieldIf s a true).ctx a).st = .waiting ∧ ((yieldIf s a true).ctx a).step = (s.ctx a).step ∧
      ((yieldIf s a true).core a.core).posA ≠ some a.ctxNo ∧ ((yieldIf s a true).core a.core).posB ≠ some a.ctxNo := by
  have hstep : ∀ c : Ctx, (endRun c).step = c.step := fun c => by unfold endRun; split <;> rfl
  rw [yieldIf, if_pos ⟨rfl, hcore, hst⟩, yieldCtx, ctx_modCore, ctx_modCtx, core_modCore]
  refine ⟨rfl, hstep _, ?_, ?_⟩ <;> (dsimp only; split <;> simp_all)

/-- What the end of a bundle leaves (02 R34; 04 R66; 06 R117, R118; 14 R258). -/
structure BundleEnd (s : State) (h : LHdr) (pc : BitVec 64) (t : State) : Prop where
  mem : t.mem = s.mem
  icyc : (t.ctx s.who).icyc = s.me.icyc + 1
  regs : { (t.ctx s.who).live with c := s.me.live.c } = s.me.live
  ctl : { (t.ctx s.who).live.c with w := (nextCtl s h pc).w, qh := (nextCtl s h pc).qh } = nextCtl s h pc
  plain : s.ckb = false → (t.ctx s.who).live.c = nextCtl s h pc ∧ (t.ctx s.who).ckpt = s.me.ckpt ∧ (t.ctx s.who).ckBund = s.me.ckBund ∧
    (t.ctx s.who).flight = s.me.flight.map (fun e => { e with dist := e.dist - 1 }) ∧ s.me.held <+: (t.ctx s.who).held
  checkpoint : s.ckb = true → (t.ctx s.who).ckpt = (t.ctx s.who).live ∧ (t.ctx s.who).ckBund = s.bpc.setWidth 57 ∧ (t.ctx s.who).held = []
  yields : h.y = true → s.who.onCore = true → s.me.st = .front → s.me.step = false →
    (t.ctx s.who).st = .waiting ∧ (t.core s.who.core).posA ≠ some s.who.ctxNo ∧ (t.core s.who.core).posB ≠ some s.who.ctxNo

theorem endBundle_ends (s : State) (h : LHdr) (pc : BitVec 64) (cost : Nat) : ∃ t, s.endBundle h pc cost = .next t ∧ BundleEnd s h pc t := by
  obtain ⟨ps, hset, hst, hstep⟩ := ctx_settleBundle s h pc cost
  have hframe := frame_settleBundle s h pc cost
  rw [endBundle_post, ckb_of_frame hframe, bpc_of_frame hframe]
  generalize settleBundle s h pc cost = u at *
  obtain ⟨hlive, hckpt, hckb, hflight, hheld, hicyc⟩ := settled_fields hset
  obtain ⟨v, hv⟩ : ∃ v, v = id (if s.ckb = true then u.establish s.who (s.bpc.setWidth 57) else u) := ⟨_, rfl⟩
  rw [← hv]
  obtain ⟨hlive', hckpt', hckb', hflight', hheld', hicyc'⟩ :=
    settled_fields ((settled_stepStop (yieldIf v s.who h.y) s.who).trans (settled_yieldIf v s.who h.y))
  have hmem' := mem_of_frame ((frame_stepStop (yieldIf v s.who h.y) s.who).trans (frame_yieldIf v s.who h.y))
  have hyields : (v.ctx s.who).st = s.me.st → (v.ctx s.who).step = s.me.step →
      h.y = true → s.who.onCore = true → s.me.st = .front → s.me.step = false →
      ((stepStop (yieldIf v s.who h.y) s.who).ctx s.who).st = .waiting ∧
      ((stepStop (yieldIf v s.who h.y) s.who).core s.who.core).posA ≠ some s.who.ctxNo ∧
      ((stepStop (yieldIf v s.who h.y) s.who).core s.who.core).posB ≠ some s.who.ctxNo := by
    intro hvst hvstep hy hcore hfront hnostep
    obtain ⟨hwait, hsame, hpos⟩ := yieldIf_yields hcore (hvst.trans hfront)
    rw [hy, stepStop_unstepped (hsame.trans (hvstep.trans hnostep))]
    exact ⟨hwait, hpos⟩
  refine ⟨_, rfl, ?_⟩
  generalize stepStop (yieldIf v s.who h.y) s.who = t at *
  cases hck : s.ckb with
  | false =>
    obtain rfl : v = u := by simpa [hck] using hv
    exact {
      mem := hmem'.trans (mem_of_frame hframe)
      icyc := hicyc'.trans hicyc
      regs := by rw [hlive', hlive]
      ctl := by rw [hlive', hlive]
      plain := fun _ => ⟨by rw [hlive', hlive], hckpt'.trans hckpt, hckb'.trans hckb, hflight'.trans hflight, ⟨ps, by rw [hheld', hheld]⟩⟩
      checkpoint := fun hc => absurd (hck.symm.trans hc) (by decide)
      yields := hyields hst hstep }
  | true =>
    obtain ⟨hctx, hmem⟩ := ctx_establish u s.who (s.bpc.setWidth 57)
    have hv' : u.establish s.who (s.bpc.setWidth 57) = v := by simpa [hck] using hv.symm
    rw [hv'] at hctx hmem
    rw [hctx] at hlive' hckpt' hckb' hheld' hicyc' hyields
    dsimp only [checkpointRegs, endBindings] at hlive' hckpt' hckb' hheld' hicyc' hyields
    exact {
      mem := hmem'.trans (hmem.trans (mem_of_frame hframe))
      icyc := hicyc'.trans hicyc
      regs := by rw [hlive', hlive]
      ctl := by rw [hlive', hlive]
      plain := fun hc => absurd (hck.symm.trans hc) (by decide)
      checkpoint := fun _ => ⟨hckpt'.trans hlive'.symm, hckb', hheld'⟩
      yields := hyields hst hstep }

end Sys2Proof.Machine
end

section
/-!
PROOF. Transfers of control (04 R69), the end of a bundle, and transfers whose guard reads false: O26.
-/

namespace Sys2Proof.Machine

open State

/-! ## The lead slot's state -/

@[simp] theorem leads_who (s : State) (i : Instr) (h : LHdr) : (s.leads i h).who = s.who := rfl
@[simp] theorem leads_me (s : State) (i : Instr) (h : LHdr) : (s.leads i h).me = s.me := rfl
@[simp] theorem leads_srs (s : State) (i : Instr) (h : LHdr) : (s.leads i h).srs = s.srs := rfl
@[simp] theorem leads_bpc (s : State) (i : Instr) (h : LHdr) : (s.leads i h).bpc = s.bpc := rfl
@[simp] theorem leads_bnxt (s : State) (i : Instr) (h : LHdr) : (s.leads i h).bnxt = s.bnxt := rfl
@[simp] theorem leads_ckb (s : State) (i : Instr) (h : LHdr) : (s.leads i h).ckb = (s.ckb || leadCheckpoint i h) := rfl
@[simp] theorem leads_rm (s : State) (i : Instr) (h : LHdr) (n : BitVec 4) : (s.leads i h).rm n = s.rm n := rfl

/-- A lead slot that passes its checks and whose guard reads false ends its bundle at the next bundle (02 R32). -/
theorem leadOp_skips {i : Instr} {h : LHdr} {s : State} (hp : LeadPasses i h s) (hg : s.guard h.g = false) (n : Nat) (k : State → Res) :
    leadOp i h s n k = (s.leads i h).endBundle h s.bnxt n := by
  obtain ⟨hill, hbound, hlatched⟩ := hp
  have hg' : (s.leads i h).guard h.g = false := hg
  rw [leadOp_eq, hill, hbound, hlatched]
  simp only [hg', Bool.false_eq_true, if_false, leads_bnxt]

/-! ## Bundles that end -/

/-- In `u` the issuing agent's bundle is as in `s`, with the control registers of the next bundle at `c`. -/
structure Stages (s u : State) (c : Ctl) : Prop where
  who : u.who = s.who
  mem : u.mem = s.mem
  srs : u.srs = s.srs
  live : u.me.live = s.me.live
  icyc : u.me.icyc = s.me.icyc
  stage : u.me.stage = c

section
variable {s u : State} {c : Ctl}

theorem stages_leads (hst : s.me.stage = s.me.live.c) (w : BitVec 32) (b : Bool) :
    Stages s { s with word := w, pos := 0, ckb := b } s.me.live.c := ⟨rfl, rfl, rfl, rfl, rfl, hst⟩

theorem Stages.modStage (h : Stages s u c) (f : Ctl → Ctl) : Stages s (u.modStage f) (f c) where
  who := h.who
  mem := h.mem
  srs := h.srs
  live := by rw [State.modStage, me_modMe]; exact h.live
  icyc := by rw [State.modStage, me_modMe]; exact h.icyc
  stage := by rw [State.modStage, me_modMe]; exact congrArg f h.stage

theorem Stages.leadResult (h : Stages s u c) (w : RegWrite) : Stages s (u.leadResult w) c where
  who := h.who
  mem := h.mem
  srs := h.srs
  live := by rw [State.leadResult, me_modMe]; exact h.live
  icyc := by rw [State.leadResult, me_modMe]; exact h.icyc
  stage := by rw [State.leadResult, me_modMe]; exact h.stage

/-- The loop levels, return addresses and rotation that a bundle without WRSR leaves are the staged ones. -/
theorem nextCtl_of_no_srs (h : u.srs = []) (hd : LHdr) (pc : BitVec 64) :
    { nextCtl u hd pc with qh := u.me.stage.qh } = { u.me.stage with pc := pc } := by
  have hq := poppedCtl_qh u.me.live.c hd.pm u.me.stage
  rw [nextCtl, h, List.foldl_nil]
  exact congrArg (fun x : Ctl => { x with pc := pc }) hq

/-- A bundle ends with the address, the return addresses and the loop levels that it has staged. -/
theorem Stages.ends (h : Stages s u c) (hsrs : s.srs = []) (hd : LHdr) (pc : BitVec 64) (cost : Nat) :
    EndsBundle s (u.endBundle hd pc cost) pc c.rets c.loops := by
  obtain ⟨t, ht, hend⟩ := endBundle_ends u hd pc cost
  have hctl := hend.ctl
  have hnext := nextCtl_of_no_srs (h.srs.trans hsrs) hd pc
  have hregs := hend.regs
  have hicyc := hend.icyc
  rw [h.who] at hctl hregs hicyc
  rw [h.stage] at hnext
  rw [h.live] at hregs
  generalize nextCtl u hd pc = n at *
  have hpc : n.pc = pc := by have h' := congrArg Ctl.pc hnext; exact h'
  have hrets : n.rets = c.rets := by have h' := congrArg Ctl.rets hnext; exact h'
  have hloops : n.loops = c.loops := by have h' := congrArg Ctl.loops hnext; exact h'
  refine ⟨t, ht, ?_, ?_, ?_, hicyc.trans (congrArg (· + 1) h.icyc), (congrArg Regs.s hregs :), (congrArg Regs.v hregs :),
    (congrArg Regs.f hregs :), (congrArg Regs.m hregs :), hend.mem.trans h.mem⟩
  · rw [← hpc, ← hctl]
  · rw [← hrets, ← hctl]
  · rw [← hloops, ← hctl]

/-- A lead slot that issues ends its bundle as its family's action does, of whatever word. -/
theorem leadOp_ends {i : Instr} {h : LHdr} {n : Nat} {k : State → Res} {pc : BitVec 64} {rets : List (BitVec 57)} {loops : List Level}
    (hi : LeadIssues i h s) (hk : ∀ w b, EndsBundle s (k { s with word := w, pos := 0, ckb := b }) pc rets loops) :
    EndsBundle s (leadOp i h s n k) pc rets loops := by
  rw [leadOp_issues hi]
  exact hk _ _

/-- A lead slot whose guard reads false ends its bundle at the next bundle. -/
theorem leadOp_skips_ends (hst : s.me.stage = s.me.live.c) (hsrs : s.srs = []) {i : Instr} {h : LHdr} (hp : LeadPasses i h s)
    (hg : s.guard h.g = false) (n : Nat) (k : State → Res) : EndsBundle s (leadOp i h s n k) s.bnxt s.me.live.c.rets s.me.live.c.loops := by
  rw [leadOp_skips hp hg]
  exact Stages.ends (stages_leads hst _ _) hsrs h s.bnxt n

end

/-! ## The transfers -/

theorem jumpMisaligned_of_aligned {x : Word} (h : x.toNat % 4 = 0) : ¬ jumpMisaligned x = true := by
  have h0 : x.extractLsb' 0 2 = 0 := BitVec.eq_of_toNat_eq (by simpa using h)
  simp [jumpMisaligned, h0]

section
variable {s : State} {h : LHdr} (hst : s.me.stage = s.me.live.c) (hsrs : s.srs = [])
include hst hsrs

theorem next_ends (hi : LeadIssues (.next h) h s) :
    EndsBundle s (exec (.next h) s) s.bnxt s.me.live.c.rets s.me.live.c.loops := by
  unfold exec execNext
  exact leadOp_ends hi fun w b => (stages_leads hst w b).ends hsrs h _ _

theorem br_ends (d : BitVec 13) (hi : LeadIssues (.br h d) h s) :
    EndsBundle s (exec (.br h d) s) (s.bpc + 4 * d.signExtend 64) s.me.live.c.rets s.me.live.c.loops := by
  unfold exec execBr
  exact leadOp_ends hi fun w b => (stages_leads hst w b).ends hsrs h _ _

theorem jmpi_ends {a : BitVec 5} (ha : (s.rs a).toNat % 4 = 0) (hi : LeadIssues (.jmpi h a) h s) :
    EndsBundle s (exec (.jmpi h a) s) (s.rs a) s.me.live.c.rets s.me.live.c.loops := by
  unfold exec execJmpi
  refine leadOp_ends hi fun w b => ?_
  rw [if_neg]
  · exact (stages_leads hst w b).ends hsrs h _ _
  · exact jumpMisaligned_of_aligned ha

theorem call_ends (d : BitVec 13) (hroom : s.me.live.c.rets.length ≠ 16) (hi : LeadIssues (.call h d) h s) :
    EndsBundle s (exec (.call h d) s) (s.bpc + 4 * d.signExtend 64) (s.bnxt.setWidth 57 :: s.me.live.c.rets) s.me.live.c.loops := by
  unfold exec execCall
  refine leadOp_ends hi fun w b => ?_
  rw [if_neg]
  · exact ((stages_leads hst w b).modStage _).ends hsrs h _ _
  · exact hroom

theorem calli_ends {a : BitVec 5} (ha : (s.rs a).toNat % 4 = 0) (hroom : s.me.live.c.rets.length ≠ 16) (hi : LeadIssues (.calli h a) h s) :
    EndsBundle s (exec (.calli h a) s) (s.rs a) (s.bnxt.setWidth 57 :: s.me.live.c.rets) s.me.live.c.loops := by
  unfold exec execCalli
  refine leadOp_ends hi fun w b => ?_
  rw [if_neg, if_neg]
  · exact ((stages_leads hst w b).modStage _).ends hsrs h _ _
  · exact hroom
  · exact jumpMisaligned_of_aligned ha

theorem ret_ends {r : BitVec 57} {rs : List (BitVec 57)} (hrets : s.me.live.c.rets = r :: rs) (hi : LeadIssues (.ret h) h s) :
    EndsBundle s (exec (.ret h) s) (r.signExtend 64) rs s.me.live.c.loops := by
  unfold exec execRet
  refine leadOp_ends hi fun w b => ?_
  have hu : (State.regs { s with word := w, pos := 0, ckb := b }).c.rets = r :: rs := hrets
  simp only [hu]
  exact ((stages_leads hst w b).modStage (fun c => { c with rets := rs })).ends hsrs h _ _

theorem bru_taken {mk : BitVec 4} {nsel : Bool} (d : BitVec 8) (hm : s.rm mk = if nsel then 0 else BitVec.allOnes 128)
    (hi : LeadIssues (.bru h mk nsel d) h s) :
    EndsBundle s (exec (.bru h mk nsel d) s) (s.bpc + 4 * d.signExtend 64) s.me.live.c.rets s.me.live.c.loops := by
  unfold exec execBru
  refine leadOp_ends hi fun w b => ?_
  have hu : State.rm { s with word := w, pos := 0, ckb := b } mk = if nsel then 0 else BitVec.allOnes 128 := hm
  cases nsel
  all_goals
    simp only [hu]
    exact (stages_leads hst w b).ends hsrs h _ _

theorem bru_not_taken {mk : BitVec 4} {nsel : Bool} (d : BitVec 8) (hm : s.rm mk = if nsel then BitVec.allOnes 128 else 0)
    (hi : LeadIssues (.bru h mk nsel d) h s) :
    EndsBundle s (exec (.bru h mk nsel d) s) s.bnxt s.me.live.c.rets s.me.live.c.loops := by
  unfold exec execBru
  refine leadOp_ends hi fun w b => ?_
  have hu : State.rm { s with word := w, pos := 0, ckb := b } mk = if nsel then BitVec.allOnes 128 else 0 := hm
  cases nsel
  all_goals
    simp only [hu]
    exact (stages_leads hst w b).ends hsrs h _ _

end

/-- BRU of a mask that is neither all ones nor all zeros traps, the mask in its details. -/
theorem bru_mixed {s : State} {h : LHdr} {mk : BitVec 4} {nsel : Bool} {d : BitVec 8} (h0 : s.rm mk ≠ 0) (h1 : s.rm mk ≠ BitVec.allOnes 128)
    (hi : LeadIssues (.bru h mk nsel d) h s) : execBru h mk nsel d s = .next ((s.leads (.bru h mk nsel d) h).raise
      ((s.leads (.bru h mk nsel d) h).slotTrap 0x10 0 ((s.rm mk).extractLsb' 0 64) ((s.rm mk).extractLsb' 64 64))) := by
  have hlow : (s.rm mk).setWidth 64 = (s.rm mk).extractLsb' 0 64 := rfl
  have hhigh : (s.rm mk >>> 64).setWidth 64 = (s.rm mk).extractLsb' 64 64 := rfl
  rw [execBru, leadOp_issues hi]
  simp only [leads_rm, beq_eq_false_iff_ne.mpr h0, beq_eq_false_iff_ne.mpr h1, Bool.not_false, Bool.and_self, if_true, trapAt, hlow, hhigh]

theorem transfers : Claims.TransferResults := by
  intro s h d13 d8 mk nsel a hst hsrs
  exact ⟨next_ends hst hsrs, br_ends hst hsrs d13, bru_taken hst hsrs d8, bru_not_taken hst hsrs d8, fun h0 h1 hi => by unfold exec; exact bru_mixed h0 h1 hi,
    jmpi_ends hst hsrs, call_ends hst hsrs d13, calli_ends hst hsrs, fun r rs => ret_ends hst hsrs⟩

/-! ## The end of a bundle -/

/-- What a WRSR slot writes last prevails (04 R66). -/
theorem rot_of_last_write {s : State} {x : Word} {ws : List (BitVec 10 × Word)} (h : s.srs = ws ++ [(0x008, x)]) (hd : LHdr) (pc : BitVec 64) :
    (nextCtl s hd pc).rot = x.setWidth 4 := by
  rw [nextCtl, h, List.foldl_append]
  rfl

theorem bundleEnds : Claims.BundleEnds := by
  intro s h hi
  have hck : (s.leads (.next h) h).ckb = (s.ckb || h.ck) := by rw [leads_ckb]; simp [leadCheckpoint]
  obtain ⟨t, ht, hend⟩ := endBundle_ends (s.leads (.next h) h) h (s.leads (.next h) h).bnxt 0
  have he : execNext h s = .next t := by rw [execNext, leadOp_issues hi]; exact ht
  have hplain := hend.plain
  have hcheckpoint := hend.checkpoint
  have hyields := hend.yields
  have hctl := hend.ctl
  rw [hck, leads_who, leads_me] at hplain
  rw [hck, leads_who, leads_bpc] at hcheckpoint
  rw [leads_who, leads_me] at hyields
  rw [leads_who] at hctl
  refine ⟨t, by unfold exec; exact he, hcheckpoint, fun hc => ?_, hyields, fun x ws hw => ?_, fun hst hsrs hc k => ?_⟩
  · obtain ⟨_, hckpt, hckb, _, hheld⟩ := hplain hc
    exact ⟨hckpt, hckb, hheld⟩
  · exact (congrArg Ctl.rot hctl).trans (rot_of_last_write ((leads_srs ..).trans hw) h _)
  · obtain ⟨hlive, _⟩ := hplain hc
    rw [hlive, nextCtl, leads_srs, leads_me, hsrs, List.foldl_nil]
    exact poppedCtl_get (congrArg Ctl.qh hst) h.pm k

/-! ## Skipped transfers -/

theorem skippedTransfers : Claims.SkippedTransfers := by
  intro s h d13 d8 mk nsel a b k hst hsrs hg i hmem hp
  simp only [List.mem_cons, List.not_mem_nil, or_false] at hmem
  obtain rfl | rfl | rfl | rfl | rfl | rfl | rfl | rfl | rfl | rfl | rfl := hmem
  · unfold exec execBr; exact leadOp_skips_ends hst hsrs hp hg _ _
  · unfold exec execBru; exact leadOp_skips_ends hst hsrs hp hg _ _
  · unfold exec execJmpi; exact leadOp_skips_ends hst hsrs hp hg _ _
  · unfold exec execCall; exact leadOp_skips_ends hst hsrs hp hg _ _
  · unfold exec execCalli; exact leadOp_skips_ends hst hsrs hp hg _ _
  · unfold exec execRet; exact leadOp_skips_ends hst hsrs hp hg _ _
  · unfold exec execLoop; exact leadOp_skips_ends hst hsrs hp hg _ _
  · unfold exec execLoopPipe; exact leadOp_skips_ends hst hsrs hp hg _ _
  · unfold exec execSloop; exact leadOp_skips_ends hst hsrs hp hg _ _
  · unfold exec execLclose; exact leadOp_skips_ends hst hsrs hp hg _ _
  · unfold exec execLexit; exact leadOp_skips_ends hst hsrs hp hg _ _

/-- Settles O26: each transfer stages its return addresses, and the end of a bundle is said once, by `endBundle_ends`. -/
theorem transferResults : Obligations.TransferResults := ⟨transfers, bundleEnds, skippedTransfers⟩

end Sys2Proof.Machine
end

section
/-!
PROOF. Loop levels, and the predicate f8 and the rotation that they write (04 R72-R75): O27.
-/

namespace Sys2Proof.Machine

open State

/-! ## Outcomes that write f8 -/

/-- An outcome leaves this rotation, and the write `w` as the first of the bundle's issue cycle (04 R66, R73). -/
def LeavesFirst (s : State) (r : Res) (rot : BitVec 4) (w : RegWrite) : Prop :=
  ∃ t, r = .next t ∧ (t.ctx s.who).live.c.rot = rot ∧
    (t.ctx s.who).flight = (s.me.flight.take s.mark ++ { id := 0, writes := [w], dist := 1 } :: s.me.flight.drop s.mark).map
      (fun e => { e with dist := e.dist - 1 })

/-- A bundle whose lead slot has left the write `w` first, and that is no checkpoint bundle. -/
structure WritesFirst (s u : State) (c : Ctl) (w : RegWrite) : Prop extends Stages s u c where
  ckb : u.ckb = false
  flight : u.me.flight = s.me.flight.take s.mark ++ { id := 0, writes := [w], dist := 1 } :: s.me.flight.drop s.mark

section
variable {s u : State} {c : Ctl} {w : RegWrite}

theorem WritesFirst.modStage (h : WritesFirst s u c w) (f : Ctl → Ctl) : WritesFirst s (u.modStage f) (f c) w where
  toStages := h.toStages.modStage f
  ckb := h.ckb
  flight := by rw [State.modStage, me_modMe]; exact h.flight

/-- A lead slot's result, of a bundle with the results in flight and their mark as before. -/
theorem Stages.writesFirst (h : Stages s u c) (hck : u.ckb = false) (hflight : u.me.flight = s.me.flight) (hmark : u.mark = s.mark) (w : RegWrite) :
    WritesFirst s (u.leadResult w) c w where
  toStages := h.leadResult w
  ckb := hck
  flight := by rw [State.leadResult, me_modMe, hflight, hmark]

theorem WritesFirst.leaves (h : WritesFirst s u c w) (hsrs : s.srs = []) (hd : LHdr) (pc : BitVec 64) (cost : Nat) :
    LeavesFirst s (u.endBundle hd pc cost) c.rot w := by
  obtain ⟨t, ht, hend⟩ := endBundle_ends u hd pc cost
  obtain ⟨hlive, -, -, hflight, -⟩ := hend.plain h.ckb
  have hnext := nextCtl_of_no_srs (h.srs.trans hsrs) hd pc
  rw [h.who] at hlive hflight
  rw [h.stage] at hnext
  have hrot : (nextCtl u hd pc).rot = c.rot := by have h' := congrArg Ctl.rot hnext; exact h'
  exact ⟨t, ht, by rw [hlive, hrot], by rw [hflight, h.flight]⟩

theorem leads_plain {i : Instr} {h : LHdr} (hck : s.ckb = false) (hno : leadCheckpoint i h = false) :
    s.leads i h = { s with word := encode i, pos := 0, ckb := false } := by rw [State.leads, hck, hno]; rfl

theorem leadOp_leavesFirst {i : Instr} {h : LHdr} {n : Nat} {k : State → Res} {rot : BitVec 4} (hi : LeadIssues i h s) (hck : s.ckb = false)
    (hno : leadCheckpoint i h = false) (hk : ∀ x, LeavesFirst s (k { s with word := x, pos := 0, ckb := false }) rot w) :
    LeavesFirst s (leadOp i h s n k) rot w := by
  rw [leadOp_issues hi, leads_plain hck hno]
  exact hk _

end

/-! ## LOOP and SLOOP -/

section
variable {s : State} {h : LHdr} (hst : s.me.stage = s.me.live.c) (hsrs : s.srs = [])
include hst hsrs

theorem pushLevel_ends (w : BitVec 32) (ck : Bool) (hroom : s.me.live.c.loops.length ≠ 6) (l : Level) (f8 : Option Bool) :
    EndsBundle s (pushLevel h { s with word := w, pos := 0, ckb := ck } l f8) s.bnxt s.me.live.c.rets (l :: s.me.live.c.loops) := by
  have hpush := (stages_leads hst w ck).modStage (fun c => { c with loops := l :: s.regs.c.loops })
  rw [pushLevel, if_neg (by exact hroom)]
  cases f8 with
  | none => exact hpush.ends hsrs h _ _
  | some x => exact (hpush.leadResult _).ends hsrs h _ _

theorem pushLevel_leavesFirst (w : BitVec 32) (hroom : s.me.live.c.loops.length ≠ 6) (l : Level) (x : Bool) :
    LeavesFirst s (pushLevel h { s with word := w, pos := 0, ckb := false } l (some x)) s.rot (.f (physF s.rot 8) x) := by
  have hpush := (stages_leads hst w false).modStage (fun c => { c with loops := l :: s.regs.c.loops })
  have hflight : ({ s with word := w, pos := 0, ckb := false }.modStage (fun c => { c with loops := l :: s.regs.c.loops })).me.flight =
      s.me.flight := by rw [State.modStage, me_modMe]; rfl
  have hrot : ({ s with word := w, pos := 0, ckb := false }.modStage (fun c => { c with loops := l :: s.regs.c.loops })).rot = s.rot :=
    congrArg (fun r : Regs => r.c.rot) hpush.live
  have hwrite : ({ s with word := w, pos := 0, ckb := false }.modStage (fun c => { c with loops := l :: s.regs.c.loops })).wF 8 x =
      .f (physF s.rot 8) x := by rw [State.wF, hrot]
  rw [pushLevel, if_neg (by exact hroom), ← hwrite]
  exact (hpush.writesFirst rfl hflight rfl _).leaves hsrs h _ _

theorem loop_ends {a : BitVec 5} (hroom : s.me.live.c.loops.length ≠ 6) (hi : LeadIssues (.loop h a) h s) :
    EndsBundle s (exec (.loop h a) s) s.bnxt s.me.live.c.rets ({ kind := .counted, kc := s.rs a, start := s.bnxt } :: s.me.live.c.loops) := by
  unfold exec execLoop
  exact leadOp_ends hi fun w b => pushLevel_ends hst hsrs w b hroom _ _

theorem loopPipe_ends {a b : BitVec 5} (hroom : s.me.live.c.loops.length ≠ 6) (hi : LeadIssues (.loopPipe h a b) h s) :
    EndsBundle s (exec (.loopPipe h a b) s) s.bnxt s.me.live.c.rets
      ({ kind := .pipelined, kc := s.rs a, ec := s.rs b, start := s.bnxt } :: s.me.live.c.loops) := by
  unfold exec execLoopPipe
  exact leadOp_ends hi fun w b => pushLevel_ends hst hsrs w b hroom _ _

theorem sloop_ends {k : BitVec 2} {b : BitVec 5} (hroom : s.me.live.c.loops.length ≠ 6) (hbound : (s.head k).bound = true)
    (hi : LeadIssues (.sloop h k b) h s) : EndsBundle s (exec (.sloop h k b) s) s.bnxt s.me.live.c.rets
      ({ kind := .stream, ec := s.rs b, start := s.bnxt, head := k } :: s.me.live.c.loops) := by
  unfold exec execSloop
  refine leadOp_ends hi fun w b => ?_
  have hu : (State.head { s with word := w, pos := 0, ckb := b } k).bound = true := hbound
  rw [if_neg (by exact hroom), if_neg (by rw [hu]; decide)]
  exact pushLevel_ends hst hsrs w b hroom _ _

theorem loopPipe_writes {a b : BitVec 5} (hck : s.ckb = false) (hno : h.ck = false) (hroom : s.me.live.c.loops.length ≠ 6)
    (hi : LeadIssues (.loopPipe h a b) h s) : LeavesFirst s (exec (.loopPipe h a b) s) s.rot (.f (physF s.rot 8) (s.rs a != 0)) := by
  unfold exec execLoopPipe
  exact leadOp_leavesFirst hi hck (by simp [leadCheckpoint, hno]) fun w => pushLevel_leavesFirst hst hsrs w hroom _ _

theorem sloop_writes {k : BitVec 2} {b : BitVec 5} (hck : s.ckb = false) (hno : h.ck = false) (hroom : s.me.live.c.loops.length ≠ 6)
    (hbound : (s.head k).bound = true) (hi : LeadIssues (.sloop h k b) h s) :
    LeavesFirst s (exec (.sloop h k b) s) s.rot (.f (physF s.rot 8) true) := by
  unfold exec execSloop
  refine leadOp_leavesFirst hi hck (by simp [leadCheckpoint, hno]) fun w => ?_
  have hu : (State.head { s with word := w, pos := 0, ckb := false } k).bound = true := hbound
  rw [if_neg (by exact hroom), if_neg (by rw [hu]; decide)]
  exact pushLevel_leavesFirst hst hsrs w hroom _ _

end

/-! ## LCLOSE and LEXIT -/

section
variable {s u : State} {c : Ctl}

/-- The levels inside the innermost one stay, and the innermost one is replaced. -/
theorem Stages.setTop (hs : Stages s u c) {l0 : Level} {ls : List Level} (hl : s.me.live.c.loops = l0 :: ls) (l : Level) :
    Stages s (setTop u l) { c with loops := l :: ls } := by
  have hloops : u.regs.c.loops.drop 1 = ls := by rw [State.regs, hs.live, hl]; rfl
  rw [← hloops]
  exact hs.modStage (fun c => { c with loops := l :: u.regs.c.loops.drop 1 })

theorem Stages.popTop (hs : Stages s u c) {l0 : Level} {ls : List Level} (hl : s.me.live.c.loops = l0 :: ls) :
    Stages s (popTop u) { c with loops := ls } := by
  have hloops : u.regs.c.loops.drop 1 = ls := by rw [State.regs, hs.live, hl]; rfl
  rw [← hloops]
  exact hs.modStage (fun c => { c with loops := u.regs.c.loops.drop 1 })

/-- The rotation after one more pass (04 R73). -/
theorem Stages.rot_next (hs : Stages s u c) : u.rot + 15 = s.rot - 1 := by
  have hrot : u.rot = s.rot := congrArg (fun r : Regs => r.c.rot) hs.live
  rw [hrot, BitVec.sub_eq_add_neg]
  rfl

theorem Stages.rotateF8 (hs : Stages s u c) (x : Bool) : Stages s (rotateF8 u x) { c with rot := s.rot - 1 } := by
  rw [← hs.rot_next]
  exact (hs.modStage (fun c => { c with rot := u.rot + 15 })).leadResult _

theorem Stages.rotateF8_writes (hs : Stages s u c) (hck : u.ckb = false) (hflight : u.me.flight = s.me.flight) (hmark : u.mark = s.mark) (x : Bool) :
    WritesFirst s (Sys2Proof.Machine.rotateF8 u x) { c with rot := s.rot - 1 } (.f (physF (s.rot - 1) 8) x) := by
  rw [← hs.rot_next]
  refine (hs.modStage (fun c => { c with rot := u.rot + 15 })).writesFirst hck ?_ hmark _
  rw [State.modStage, me_modMe]
  exact hflight

/-- The level that LCLOSE of a pipelined or stream level leaves for another pass (04 R73). -/
def passLevel (l : Level) (more : Bool) : Level :=
  if more then { l with kc := if l.kind = .pipelined then l.kc - 1 else l.kc, idx := l.idx + 1 }
  else { l with kc := 0, done := true, ec := l.ec - 1, idx := l.idx + 1 }

theorem closeLevel_again {h : LHdr} {l : Level} {more : Bool} (hpass : more = true ∨ l.ec ≠ 0) :
    closeLevel h u l more = (setTop (rotateF8 u more) (passLevel l more)).endBundle h l.start 0 := by
  cases more with
  | true =>
    simp only [closeLevel, if_true, passLevel]
    split <;> simp_all
  | false => rw [closeLevel, if_neg (by decide), if_pos (by simpa using hpass)]; rfl

theorem closeLevel_last {h : LHdr} {l : Level} (hec : l.ec = 0) :
    closeLevel h u l false = (popTop (rotateF8 u false)).endBundle h u.bnxt (if l.kind = .stream then 4 else 0) := by
  rw [closeLevel, if_neg (by decide), if_neg (by simpa using hec)]

theorem closeLevel_again_ends (hs : Stages s u c) (hsrs : s.srs = []) {h : LHdr} {l0 l : Level} {ls : List Level} {more : Bool}
    (hl : s.me.live.c.loops = l0 :: ls) (hpass : more = true ∨ l.ec ≠ 0) :
    EndsBundle s (closeLevel h u l more) l.start c.rets (passLevel l more :: ls) := by
  rw [closeLevel_again hpass]
  exact ((hs.rotateF8 more).setTop hl _).ends hsrs h _ _

theorem closeLevel_last_ends (hs : Stages s u c) (hsrs : s.srs = []) {h : LHdr} {l0 l : Level} {ls : List Level}
    (hl : s.me.live.c.loops = l0 :: ls) (hec : l.ec = 0) : EndsBundle s (closeLevel h u l false) u.bnxt c.rets ls := by
  rw [closeLevel_last hec]
  exact ((hs.rotateF8 false).popTop hl).ends hsrs h _ _

theorem closeLevel_leavesFirst (hs : Stages s u c) (hsrs : s.srs = []) (hck : u.ckb = false) (hflight : u.me.flight = s.me.flight)
    (hmark : u.mark = s.mark) (h : LHdr) (l : Level) (more : Bool) :
    LeavesFirst s (closeLevel h u l more) (s.rot - 1) (.f (physF (s.rot - 1) 8) more) := by
  have hw := hs.rotateF8_writes hck hflight hmark more
  by_cases hpass : more = true ∨ l.ec ≠ 0
  · rw [closeLevel_again hpass]
    exact (hw.modStage (fun c => { c with loops := passLevel l more :: (rotateF8 u more).regs.c.loops.drop 1 })).leaves hsrs h _ _
  · obtain ⟨hmore, hec⟩ : more = false ∧ l.ec = 0 := by simpa using hpass
    subst hmore
    rw [closeLevel_last hec]
    exact (hw.modStage (fun c => { c with loops := (rotateF8 u false).regs.c.loops.drop 1 })).leaves hsrs h _ _

end

/-- The innermost level with its end, which its first LCLOSE notes (04 R73). -/
def closing (nxt : BitVec 64) (l : Level) : Level := if l.fin = 0 then { l with fin := nxt } else l

section
variable (nxt : BitVec 64) (l : Level)

theorem closing_keeps : { closing nxt l with fin := l.fin } = l := by unfold closing; split <;> rfl
@[simp] theorem closing_kind : (closing nxt l).kind = l.kind := (congrArg Level.kind (closing_keeps nxt l) :)
@[simp] theorem closing_kc : (closing nxt l).kc = l.kc := (congrArg Level.kc (closing_keeps nxt l) :)
@[simp] theorem closing_ec : (closing nxt l).ec = l.ec := (congrArg Level.ec (closing_keeps nxt l) :)
@[simp] theorem closing_idx : (closing nxt l).idx = l.idx := (congrArg Level.idx (closing_keeps nxt l) :)
@[simp] theorem closing_start : (closing nxt l).start = l.start := (congrArg Level.start (closing_keeps nxt l) :)
@[simp] theorem closing_head : (closing nxt l).head = l.head := (congrArg Level.head (closing_keeps nxt l) :)
@[simp] theorem closing_done : (closing nxt l).done = l.done := (congrArg Level.done (closing_keeps nxt l) :)

end

/-- LCLOSE of the innermost level `l`, at its lead slot's state (04 R73). -/
def lcloseAct (h : LHdr) (u : State) (l : Level) : Res :=
  match l.kind with
  | .counted => if 1 < l.kc.toNat then (setTop u { l with kc := l.kc - 1, idx := l.idx + 1 }).endBundle h l.start 0
    else (popTop u).endBundle h u.bnxt 0
  | .pipelined => closeLevel h u l (decide (1 < l.kc.toNat))
  | .stream =>
    if l.done then closeLevel h u l false
    else if !(u.head l.head).bound then trapAt u 0x16 0 (l.head.setWidth 64)
    else match u.latched u.who (u.head l.head) with
      | none => .next (u.hold (u.queueHold l.head))
      | some e => closeLevel h u l (!e.2)

section
variable {s : State} {h : LHdr} {l : Level} {ls : List Level}

theorem execLclose_acts (hl : s.me.live.c.loops = l :: ls) (hi : LeadIssues (.lclose h) h s) :
    execLclose h s = lcloseAct h (s.leads (.lclose h) h) (closing s.bnxt l) := by
  have hu : (s.leads (.lclose h) h).regs.c.loops = l :: ls := hl
  rw [execLclose, leadOp_issues hi]
  simp only [hu]
  rfl

/-- LCLOSE ends its bundle as its action does, of whatever word. -/
theorem lclose_ends (hl : s.me.live.c.loops = l :: ls) {pc : BitVec 64} {rets : List (BitVec 57)} {loops : List Level}
    (hk : ∀ w b, EndsBundle s (lcloseAct h { s with word := w, pos := 0, ckb := b } (closing s.bnxt l)) pc rets loops)
    (hi : LeadIssues (.lclose h) h s) : EndsBundle s (exec (.lclose h) s) pc rets loops := by
  have he : EndsBundle s (execLclose h s) pc rets loops := by rw [execLclose_acts hl hi]; exact hk _ _
  unfold exec
  exact he

/-- LCLOSE leaves its first write as its action does, of whatever word. -/
theorem lclose_leavesFirst (hl : s.me.live.c.loops = l :: ls) (hck : s.ckb = false) (hno : h.ck = false) {rot : BitVec 4} {w : RegWrite}
    (hk : ∀ x, LeavesFirst s (lcloseAct h { s with word := x, pos := 0, ckb := false } (closing s.bnxt l)) rot w)
    (hi : LeadIssues (.lclose h) h s) : LeavesFirst s (exec (.lclose h) s) rot w := by
  have he : LeavesFirst s (execLclose h s) rot w := by
    rw [execLclose_acts hl hi, leads_plain hck (by simp [leadCheckpoint, hno])]
    exact hk _
  unfold exec
  exact he

end

section
variable {h : LHdr} {u : State} {l : Level}

theorem lcloseAct_counted_again (hk : l.kind = .counted) (hkc : 1 < l.kc.toNat) :
    lcloseAct h u l = (setTop u { l with kc := l.kc - 1, idx := l.idx + 1 }).endBundle h l.start 0 := by
  rw [lcloseAct, hk]; exact if_pos hkc
theorem lcloseAct_counted_last (hk : l.kind = .counted) (hkc : l.kc.toNat ≤ 1) :
    lcloseAct h u l = (popTop u).endBundle h u.bnxt 0 := by
  rw [lcloseAct, hk]; exact if_neg (Nat.not_lt.mpr hkc)
theorem lcloseAct_pipelined (hk : l.kind = .pipelined) : lcloseAct h u l = closeLevel h u l (decide (1 < l.kc.toNat)) := by
  rw [lcloseAct, hk]
theorem lcloseAct_done (hk : l.kind = .stream) (hd : l.done = true) : lcloseAct h u l = closeLevel h u l false := by
  rw [lcloseAct, hk]; exact if_pos hd
theorem lcloseAct_unbound (hk : l.kind = .stream) (hd : l.done = false) (hb : (u.head l.head).bound = false) :
    lcloseAct h u l = .next (u.raise (u.slotTrap 0x16 0 (l.head.setWidth 64))) := by
  rw [lcloseAct, hk]; simp only [hd, hb]; rfl
theorem lcloseAct_empty (hk : l.kind = .stream) (hd : l.done = false) (hb : (u.head l.head).bound = true)
    (he : u.latched u.who (u.head l.head) = none) : lcloseAct h u l = .next (u.hold (u.queueHold l.head)) := by
  rw [lcloseAct, hk]; simp only [hd, hb, he]; rfl
theorem lcloseAct_element (hk : l.kind = .stream) (hd : l.done = false) (hb : (u.head l.head).bound = true) {e : BitVec 64 × Bool}
    (he : u.latched u.who (u.head l.head) = some e) : lcloseAct h u l = closeLevel h u l (!e.2) := by
  rw [lcloseAct, hk]; simp only [hd, hb, he]; rfl

end

/-! ## The level of another pass -/

theorem passLevel_pipelined (nxt : BitVec 64) {l : Level} (hk : l.kind = .pipelined) :
    passLevel (closing nxt l) true = { closing nxt l with kc := l.kc - 1, idx := l.idx + 1 } := by simp [passLevel, hk]
theorem passLevel_stream (nxt : BitVec 64) {l : Level} (hk : l.kind = .stream) :
    passLevel (closing nxt l) true = { closing nxt l with idx := l.idx + 1 } := by simp [passLevel, hk]
theorem passLevel_drain (nxt : BitVec 64) (l : Level) :
    passLevel (closing nxt l) false = { closing nxt l with kc := 0, done := true, ec := l.ec - 1, idx := l.idx + 1 } := by simp [passLevel]

theorem decide_one_lt {x : BitVec 64} (h : x.toNat ≤ 1) : decide (1 < x.toNat) = false := decide_eq_false (Nat.not_lt.mpr h)

section
variable {s : State} {h : LHdr} {l : Level} {ls : List Level} (hst : s.me.stage = s.me.live.c) (hsrs : s.srs = [])
  (hl : s.me.live.c.loops = l :: ls)
include hst hsrs hl

theorem lclose_counted_again (hk : l.kind = .counted) (hkc : 1 < l.kc.toNat) (hi : LeadIssues (.lclose h) h s) :
    EndsBundle s (exec (.lclose h) s) l.start s.me.live.c.rets ({ closing s.bnxt l with kc := l.kc - 1, idx := l.idx + 1 } :: ls) := by
  refine lclose_ends hl (fun w b => ?_) hi
  rw [lcloseAct_counted_again (by simpa using hk) (by simpa using hkc)]
  simpa only [closing_start, closing_kc, closing_idx] using ((stages_leads hst w b).setTop hl
    { closing s.bnxt l with kc := (closing s.bnxt l).kc - 1, idx := (closing s.bnxt l).idx + 1 }).ends hsrs h (closing s.bnxt l).start 0

theorem lclose_counted_last (hk : l.kind = .counted) (hkc : l.kc.toNat ≤ 1) (hi : LeadIssues (.lclose h) h s) :
    EndsBundle s (exec (.lclose h) s) s.bnxt s.me.live.c.rets ls := by
  refine lclose_ends hl (fun w b => ?_) hi
  rw [lcloseAct_counted_last (by simpa using hk) (by simpa using hkc)]
  exact ((stages_leads hst w b).popTop hl).ends hsrs h _ _

/-- LCLOSE goes back to the start of a level that has another pass (04 R73). -/
theorem lclose_again {more : Bool} {l' : Level} (hact : ∀ w b, lcloseAct h { s with word := w, pos := 0, ckb := b } (closing s.bnxt l) =
    closeLevel h { s with word := w, pos := 0, ckb := b } (closing s.bnxt l) more) (hpass : more = true ∨ l.ec ≠ 0)
    (hl' : passLevel (closing s.bnxt l) more = l') (hi : LeadIssues (.lclose h) h s) :
    EndsBundle s (exec (.lclose h) s) l.start s.me.live.c.rets (l' :: ls) := by
  refine lclose_ends hl (fun w b => ?_) hi
  rw [hact, ← closing_start s.bnxt l, ← hl']
  exact closeLevel_again_ends (stages_leads hst w b) hsrs hl (by simpa using hpass)

/-- LCLOSE pops a level that has no other pass (04 R73). -/
theorem lclose_last (hact : ∀ w b, lcloseAct h { s with word := w, pos := 0, ckb := b } (closing s.bnxt l) =
    closeLevel h { s with word := w, pos := 0, ckb := b } (closing s.bnxt l) false) (hec : l.ec = 0) (hi : LeadIssues (.lclose h) h s) :
    EndsBundle s (exec (.lclose h) s) s.bnxt s.me.live.c.rets ls := by
  refine lclose_ends hl (fun w b => ?_) hi
  rw [hact]
  exact closeLevel_last_ends (stages_leads hst w b) hsrs hl (by simpa using hec)

theorem lclose_writes {more : Bool} (hck : s.ckb = false) (hno : h.ck = false)
    (hact : ∀ w b, lcloseAct h { s with word := w, pos := 0, ckb := b } (closing s.bnxt l) =
      closeLevel h { s with word := w, pos := 0, ckb := b } (closing s.bnxt l) more) (hi : LeadIssues (.lclose h) h s) :
    LeavesFirst s (exec (.lclose h) s) (s.rot - 1) (.f (physF (s.rot - 1) 8) more) := by
  refine lclose_leavesFirst hl hck hno (fun w => ?_) hi
  rw [hact]
  exact closeLevel_leavesFirst (stages_leads hst w false) hsrs rfl rfl rfl h _ _

theorem lexit_to (d : BitVec 13) (hd : d ≠ 0) (hi : LeadIssues (.lexit h d) h s) :
    EndsBundle s (exec (.lexit h d) s) (s.bpc + 4 * d.signExtend 64) s.me.live.c.rets ls := by
  unfold exec execLexit
  refine leadOp_ends hi fun w b => ?_
  have hu : (State.regs { s with word := w, pos := 0, ckb := b }).c.loops = l :: ls := hl
  simp only [hu, if_pos hd]
  exact ((stages_leads hst w b).popTop hl).ends hsrs h _ _

theorem lexit_end {d : BitVec 13} (hd : d = 0) (hfin : l.fin ≠ 0) (hi : LeadIssues (.lexit h d) h s) :
    EndsBundle s (exec (.lexit h d) s) l.fin s.me.live.c.rets ls := by
  unfold exec execLexit
  refine leadOp_ends hi fun w b => ?_
  have hu : (State.regs { s with word := w, pos := 0, ckb := b }).c.loops = l :: ls := hl
  simp only [hu, hd, ne_eq, not_true_eq_false, if_false, if_neg hfin]
  exact ((stages_leads hst w b).popTop hl).ends hsrs h _ _

end

/-! ## The action of LCLOSE on a pipelined or stream level -/

section
variable {s : State} {l : Level}

theorem closes_pipelined (h : LHdr) (hk : l.kind = .pipelined) (w : BitVec 32) (b : Bool) :
    lcloseAct h { s with word := w, pos := 0, ckb := b } (closing s.bnxt l) =
      closeLevel h { s with word := w, pos := 0, ckb := b } (closing s.bnxt l) (decide (1 < l.kc.toNat)) := by
  rw [lcloseAct_pipelined (by simpa using hk), closing_kc]

theorem closes_done (h : LHdr) (hk : l.kind = .stream) (hd : l.done = true) (w : BitVec 32) (b : Bool) :
    lcloseAct h { s with word := w, pos := 0, ckb := b } (closing s.bnxt l) =
      closeLevel h { s with word := w, pos := 0, ckb := b } (closing s.bnxt l) false :=
  lcloseAct_done (by simpa using hk) (by simpa using hd)

theorem closes_element (h : LHdr) (hk : l.kind = .stream) (hd : l.done = false) (hb : (s.head l.head).bound = true) {e : BitVec 64 × Bool}
    (he : s.latched s.who (s.head l.head) = some e) (w : BitVec 32) (b : Bool) :
    lcloseAct h { s with word := w, pos := 0, ckb := b } (closing s.bnxt l) =
      closeLevel h { s with word := w, pos := 0, ckb := b } (closing s.bnxt l) (!e.2) :=
  lcloseAct_element (by simpa using hk) (by simpa using hd) (by rw [closing_head]; exact hb) (by rw [closing_head]; exact he)

end

/-! ## The claims -/

theorem loopLevels : Claims.LoopResults := by
  intro s h d13 a b k l ls hst hsrs
  refine ⟨fun hroom => ⟨loop_ends hst hsrs hroom, loopPipe_ends hst hsrs hroom, sloop_ends hst hsrs hroom⟩, fun hl => ⟨
    lclose_counted_again hst hsrs hl, lclose_counted_last hst hsrs hl, fun hk hkc => ?_, fun hk hkc hec => ?_, fun hk hkc hec => ?_, fun hk => ⟨?_, ?_, ?_⟩,
    lexit_to hst hsrs hl d13, lexit_end hst hsrs hl⟩⟩
  · refine lclose_again hst hsrs hl (closes_pipelined h hk) (Or.inl (decide_eq_true hkc)) ?_
    rw [decide_eq_true hkc]
    exact passLevel_pipelined s.bnxt hk
  · refine lclose_again hst hsrs hl (closes_pipelined h hk) (Or.inr hec) ?_
    rw [decide_one_lt hkc]
    exact passLevel_drain s.bnxt l
  · have hact := closes_pipelined (s := s) h hk
    rw [decide_one_lt hkc] at hact
    exact lclose_last hst hsrs hl hact hec
  · intro e hd hb he hmore
    refine lclose_again hst hsrs hl (closes_element h hk hd hb he) (Or.inl (by simp [hmore])) ?_
    rw [hmore]
    exact passLevel_stream s.bnxt hk
  · intro hlast
    have hact : ∀ w b, lcloseAct h { s with word := w, pos := 0, ckb := b } (closing s.bnxt l) =
        closeLevel h { s with word := w, pos := 0, ckb := b } (closing s.bnxt l) false := by
      obtain hd | ⟨e, hb, he, heos⟩ := hlast
      · exact closes_done h hk hd
      · cases hd : l.done with
        | true => exact closes_done h hk hd
        | false => simpa [heos] using closes_element h hk hd hb he
    exact ⟨fun hec => lclose_again hst hsrs hl hact (Or.inr hec) (passLevel_drain s.bnxt l), fun hec => lclose_last hst hsrs hl hact hec⟩
  · intro hd hi
    refine ⟨fun hb => ?_, fun hb he => ?_⟩
    · have hx : execLclose h s = _ := (execLclose_acts hl hi).trans
        (lcloseAct_unbound (by simpa using hk) (by simpa using hd) (by rw [closing_head]; exact hb))
      rw [closing_head] at hx
      unfold exec
      exact hx
    · have hx : execLclose h s = _ := (execLclose_acts hl hi).trans
        (lcloseAct_empty (by simpa using hk) (by simpa using hd) (by rw [closing_head]; exact hb) (by rw [closing_head]; exact he))
      rw [closing_head] at hx
      unfold exec
      exact hx

theorem loopPredicates : Claims.LoopPredicates := by
  intro s h a b k l ls hst hsrs hck hno
  exact ⟨fun hroom => ⟨loopPipe_writes hst hsrs hck hno hroom, sloop_writes hst hsrs hck hno hroom⟩, fun hl => ⟨
    fun hk => lclose_writes hst hsrs hl hck hno (closes_pipelined h hk),
    fun hk hd => lclose_writes hst hsrs hl hck hno (closes_done h hk hd),
    fun e hk hd hb he => lclose_writes hst hsrs hl hck hno (closes_element h hk hd hb he)⟩⟩

/-- Settles O27: a lead slot stages its loop levels and its rotation, and leaves its predicate first; `endBundle_ends` says what the bundle makes of them. -/
theorem loopResults : Obligations.LoopResults := ⟨loopLevels, loopPredicates⟩

end Sys2Proof.Machine
end

section
/-!
PROOF. HALT, TRAPI and BKPT (04 R76, R77): O28, which a single-stepped context refutes.
-/

namespace Sys2Proof.Machine

/-- A single-stepped context, a remote write of which has not performed (15 R291; 18 R322). -/
def steppedContext : State :=
  ({ who := .ctx 0 0, remotes := [(8, { who := .ctx 0 0, write := true })] } : State).setCtx (.ctx 0 0) { st := .front, step := true }

/-- A lead slot with nothing but its family's action. -/
def plainLead : LHdr := { stop := false, g := 0, pm := 0, ck := false, y := false, hint := false }

theorem steppedContext_issues : LeadIssues (.trapi plainLead 0) plainLead steppedContext := by unfold LeadIssues LeadPasses; decide

/-- The cause of the stop or trap that an outcome leaves to an agent. -/
def causeOf (a : Agent) (r : Res) : Option (BitVec 7) := match r with
  | .next t => some (t.ctx a).tcause
  | _ => none

/-- The bundle of TRAPI ends with the stop of the single step, 0x71 (22 R366), before the effects that its trap waits for have performed. -/
theorem steppedContext_stops : causeOf (.ctx 0 0) (exec (.trapi plainLead 0) steppedContext) = some 0x71 := by decide +kernel

/-- Refutes O28: where the remote effects of TRAPI have not performed, the claim leaves %tcause as it was; a single-stepped context takes the stop of its step
at the end of the bundle, which writes 0x71 there. -/
theorem not_haltAndSoftwareTraps : ¬ Obligations.HaltAndSoftwareTraps := by
  intro hall
  obtain ⟨-, htraps, -⟩ := hall steppedContext plainLead 0 (by decide) (by decide)
  obtain ⟨-, hwaits⟩ := htraps (.trapi plainLead 0, 0x73) (by simp) steppedContext_issues
  obtain ⟨t, ht, -, hcause, -⟩ := hwaits (Or.inl (by decide))
  have hstop := steppedContext_stops
  rw [show exec (.trapi plainLead 0) steppedContext = .next t from ht] at hstop
  have hsame : (t.ctx (.ctx 0 0)).tcause = 0 := hcause
  rw [causeOf, hsame] at hstop
  exact absurd hstop (by decide)

end Sys2Proof.Machine
end

section
/-!
SUPPORT. What the translation of an address leaves alone: it installs walks and translations at cores and dies (22 R387), and nothing else.
-/

namespace Sys2Proof.Machine

open State

/-- A result that comes with a state that differs from `s` in its cores, dies and notices alone. -/
def Translates {α : Type} (s : State) (r : Except AFault (α × State)) : Prop := ∀ x t, r = .ok (x, t) → t.unsampled = s.unsampled

theorem translates_error {α : Type} (s : State) (f : AFault) : Translates (α := α) s (.error f) := fun _ _ h => nomatch h

theorem translates_ok {α : Type} {s t : State} (x : α) (h : t.unsampled = s.unsampled) : Translates s (.ok (x, t)) := by
  intro y u hu
  obtain ⟨-, rfl⟩ : x = y ∧ t = u := by simpa using hu
  exact h

theorem unsampled_fillOwn (s : State) (a : Agent) (acc : Acc) (e : TlbEntry) : (fillOwn s a acc e).unsampled = s.unsampled := by
  unfold fillOwn
  split <;> rfl

theorem unsampled_finishWalk (s : State) (a : Agent) (acc : Acc) (e : TlbEntry) (ns : List WalkNode) :
    (finishWalk s a acc e ns).unsampled = s.unsampled := unsampled_fillOwn ..

/-- A held translation, used or refused, comes with the state given. -/
theorem translates_map {s t : State} (r : Except AFault Loc) (h : t.unsampled = s.unsampled) : Translates s (r.map (fun l => (l, t))) := by
  cases r with
  | error f => exact translates_error s f
  | ok l => exact translates_ok l h

theorem translate_translates (s : State) (a : Agent) (proc vf : Nat) (acc : Acc) (sp : Space) (va : BitVec 64) :
    Translates s (translate s a proc vf acc sp va) := by
  unfold translate
  split
  · exact translates_error s _
  · dsimp only
    split
    · exact translates_map _ rfl
    · split
      · exact translates_map _ (unsampled_fillOwn ..)
      · split
        · exact translates_error s _
        · exact translates_ok _ (unsampled_finishWalk ..)

theorem resolve_translates (s : State) (a : Agent) (acc : Acc) (sp : Space) (ea : BitVec 64) (n : Nat) :
    Translates s (resolve s a acc sp ea n) := by
  unfold resolve
  split
  · split
    · exact translates_ok _ rfl
    · exact translates_error s _
  · split
    · exact translates_ok _ rfl
    · exact translates_error s _
  · exact translate_translates s a _ _ acc sp ea

theorem resolveRange_translates (a : Agent) (acc : Acc) (sp : Space) (fuel : Nat) :
    ∀ (s : State) (ea : BitVec 64) (n : Nat), Translates s (resolveRange s a acc sp fuel ea n) := by
  induction fuel with
  | zero => exact fun s ea n => translates_ok _ rfl
  | succ fuel ih =>
    intro s ea n
    rw [resolveRange]
    split
    · exact translates_ok _ rfl
    · dsimp only
      split
      · exact translates_error s _
      next l t hl =>
        split
        · exact translates_error s _
        next r u hr => exact translates_ok _ ((ih _ _ _ _ _ hr).trans (resolve_translates _ _ _ _ _ _ _ _ hl))

theorem resolveAccess_translates (s : State) (acc : Acc) (sp : Space) (ea : BitVec 64) (n al : Nat) :
    Translates s (resolveAccess s acc sp ea n al) := by
  unfold resolveAccess
  split
  · exact translates_error s _
  · split
    · exact translates_error s _
    next r hr => exact fun x t h => resolveRange_translates _ _ _ _ _ _ _ _ _ (hr.trans h)

theorem resolveLanes_translates (acc : Acc) (sp : Space) (addr : Nat → BitVec 64) (k : Nat) :
    ∀ (s : State) (i : Nat), Translates s (resolveLanes s acc sp addr k i) := by
  induction k with
  | zero => exact fun s i => translates_ok _ rfl
  | succ k ih =>
    intro s i
    rw [resolveLanes]
    split
    · exact translates_error s _
    · split
      · exact translates_error s _
      next l t hl =>
        split
        · exact translates_error s _
        next r u hr => exact translates_ok _ ((ih _ _ _ _ hr).trans (resolve_translates _ _ _ _ _ _ _ _ hl))

theorem resolveStvs_translates (sp : Space) (ea : BitVec 64) (f : BitVec 4) (m : Mask) (v : VReg) (k : Nat) :
    ∀ (s : State) (i : Nat), Translates s (resolveStvs s sp ea f m v k i) := by
  induction k with
  | zero => exact fun s i => translates_ok _ rfl
  | succ k ih =>
    intro s i
    rw [resolveStvs]
    split
    · exact ih s (i + 1)
    · dsimp only
      split
      · exact translates_error s _
      next l t hl =>
        split
        · exact translates_error s _
        next ps u hr =>
          have hu := (ih _ _ _ _ hr).trans (resolve_translates _ _ _ _ _ _ _ _ hl)
          split
          · split
            · exact translates_ok _ hu
            · exact translates_ok _ hu
          · exact translates_ok _ hu

/-! ## What follows for the issuing agent -/

section
variable {s t : State}

theorem who_of_unsampled (h : t.unsampled = s.unsampled) : t.who = s.who := by have h' := congrArg State.who h; exact h'
theorem mem_of_unsampled (h : t.unsampled = s.unsampled) : t.mem = s.mem := by have h' := congrArg State.mem h; exact h'
theorem ctx_of_unsampled (h : t.unsampled = s.unsampled) (a : Agent) : t.ctx a = s.ctx a := by
  have h' := congrArg (fun u : State => u.ctx a) h
  exact h'
theorem me_of_unsampled (h : t.unsampled = s.unsampled) : t.me = s.me := by rw [State.me, who_of_unsampled h, ctx_of_unsampled h, State.me]

end

/-! ## Line traffic (14 R261) -/

theorem addTraffic_keeps (s : State) (a : Agent) (n : Nat) :
    (addTraffic s a n).ctx a = { s.ctx a with by_ := if (s.ctx a).runs < 4 then (s.ctx a).by_ + n else (s.ctx a).by_ } := by
  rw [addTraffic, ctx_modCtx]
  split <;> rfl

end Sys2Proof.Machine
end

section
/-!
PROOF. The store families (04 R92, R93, R95; 06 R119): O24.
-/

namespace Sys2Proof.Machine

open State

theorem noted_effAddr (s : State) (i : Instr) (a off : BitVec 5) (g : Nat) : effAddr (s.noted i) a off g = effAddr s a off g := rfl
theorem noted_laneAddr (s : State) (i : Instr) (a ix : BitVec 5) : laneAddr (s.noted i) a ix = laneAddr s a ix := rfl

/-- A store whose places are resolved is withheld: its walks and its line traffic leave the withheld-store buffer as it was. -/
theorem store_withholds {s t : State} {i : Instr} (ht : t.unsampled = (s.noted i).unsampled) (hroom : s.room) (e : Effect) (n : Nat) :
    withhold (addTraffic t s.who n) e [] = .next ((addTraffic t s.who n).addHeld e []) ∧ t.mem = s.mem := by
  have hwho : t.who = s.who := (who_of_unsampled ht).trans (noted_who s i)
  have hctx : t.ctx s.who = s.me := (ctx_of_unsampled ht s.who).trans (noted_ctx s i s.who)
  have hheld : (addTraffic t s.who n).me.held = s.me.held := by
    have hme : (addTraffic t s.who n).me = (addTraffic t s.who n).ctx s.who := by rw [← hwho]; rfl
    rw [hme, addTraffic_keeps, hctx]
  refine ⟨withhold_room ?_ e [], (mem_of_unsampled ht).trans (noted_mem s i)⟩
  unfold State.room withheldEntries at *
  rwa [hheld]

section
variable {s : State} {h : Hdr} (hroom : s.room)
include hroom

theorem storeOp_withholds {i : Instr} {a off : BitVec 5} {spc : BitVec 2} {n g al kind : Nat}
    {data : State → List Byte} {reg : State → VReg} (hdata : ∀ w : BitVec 32, data { s with word := w } = data s)
    (hreg : ∀ w : BitVec 32, reg { s with word := w } = reg s) (hi : Issues i h s) {segs : List (Loc × Nat)} {t : State}
    (hfound : resolveAccess (s.noted i) .store (Space.ofCode spc) (effAddr s a off g) n al = .ok (segs, t)) :
    storeOp i h a spc off n g al kind s data reg =
      .next ((addTraffic t s.who (storeTraffic t s.who (cutPieces segs (data s)))).addHeld
        (.store kind (effAddr s a off g) 0 0 (reg s) (cutPieces segs (data s))) []) ∧ t.mem = s.mem := by
  have hdata' : data (s.noted i) = data s := hdata _
  have hreg' : reg (s.noted i) = reg s := hreg _
  rw [storeOp, slotOp_issues hi]
  simp only [noted_effAddr, hfound, hdata', hreg', noted_who]
  exact store_withholds (resolveAccess_translates _ _ _ _ _ _ _ _ hfound) hroom _ _

theorem stvx_withholds {d a ix : BitVec 5} {sp : BitVec 2} (hi : Issues (.stvx h d a sp ix) h s) {segs : List (Loc × Nat)} {t : State}
    (hfound : resolveLanes (s.noted (.stvx h d a sp ix)) .store (Space.ofCode sp) (laneAddr s a ix) 128 0 = .ok (segs, t)) :
    execStvx h d a sp ix s =
      .next ((addTraffic t s.who (storeTraffic t s.who (cutPieces segs (toBytes 512 (s.rv d).toNat)))).addHeld
        (.store 4 (s.rs a) 0 (s.rv ix) (s.rv d) (cutPieces segs (toBytes 512 (s.rv d).toNat))) []) ∧ t.mem = s.mem := by
  rw [execStvx, slotOp_issues hi]
  generalize Instr.stvx h d a sp ix = i at *
  rw [noted_laneAddr, hfound]
  dsimp only
  rw [noted_rs, noted_rv, noted_rv, noted_who]
  exact store_withholds (resolveLanes_translates _ _ _ _ _ _ _ _ hfound) hroom _ _

theorem stvs_withholds {d a : BitVec 5} {mk fmt : BitVec 4} {sp : BitVec 2} (hi : Issues (.stvs h d a mk fmt sp) h s)
    (hact : ∃ e, e < elemCount fmt ∧ activeElem fmt (s.rm mk) e = true) (hal : (s.rs a).toNat % (fmtBits fmt / 8) = 0) {ps : List Piece} {t : State}
    (hfound : resolveStvs (s.noted (.stvs h d a mk fmt sp)) (Space.ofCode sp) (s.rs a) fmt (s.rm mk) (s.rv d) (elemCount fmt) 0 = .ok (ps, t)) :
    execStvs h d a mk fmt sp s =
      .next ((addTraffic t s.who (storeTraffic t s.who ps)).addHeld (.store 3 (s.rs a) (s.rm mk) 0 (s.rv d) ps) []) ∧ t.mem = s.mem := by
  obtain ⟨e, he, hactive⟩ := hact
  have hsome : ¬ (List.range (elemCount fmt)).all (fun i => !activeElem fmt (s.rm mk) i) = true := by
    simp only [List.all_eq_true, List.mem_range, Bool.not_eq_true', not_forall]
    exact ⟨e, he, by simp [hactive]⟩
  rw [execStvs, slotOp_issues hi]
  generalize Instr.stvs h d a mk fmt sp = i at *
  dsimp only
  rw [noted_rm, noted_rs, if_neg hsome, if_neg (fun hne => hne hal), noted_rv, hfound]
  dsimp only
  rw [noted_who]
  exact store_withholds (resolveStvs_translates _ _ _ _ _ _ _ _ _ _ hfound) hroom _ _

end

/-- A masked store without an active element has no effect (04 R95). -/
theorem stvs_inactive {s : State} {h : Hdr} {d a : BitVec 5} {mk fmt : BitVec 4} {sp : BitVec 2} (hi : Issues (.stvs h d a mk fmt sp) h s)
    (hno : ∀ e, e < elemCount fmt → activeElem fmt (s.rm mk) e = false) :
    execStvs h d a mk fmt sp s = .next (s.noted (.stvs h d a mk fmt sp)) := by
  have hall : (List.range (elemCount fmt)).all (fun i => !activeElem fmt (s.rm mk) i) = true := by simpa using hno
  rw [execStvs, slotOp_issues hi]
  generalize Instr.stvs h d a mk fmt sp = i
  dsimp only
  rw [noted_rm, if_pos hall]

/-- Settles O24: resolution changes cores and dies alone (`Translates`), so the buffer has the room that it had. -/
theorem storeResults : Obligations.StoreResults := by
  intro s h d a ix off sp mk fmt hroom
  refine ⟨fun hi segs t hf => ?_, fun hi segs t hf => ?_, fun hi segs t hf => ?_, fun hi => ⟨fun hno => ?_, fun hact hal ps t hf => ?_⟩⟩
  · have hx := storeOp_withholds hroom (kind := 1) (data := fun s => toBytes 8 (s.rs d).toNat) (reg := fun s => (s.rs d).setWidth 4096)
      (fun _ => rfl) (fun _ => rfl) hi hf
    unfold exec
    exact hx
  · have hx := storeOp_withholds hroom (kind := 2) (data := fun s => toBytes 512 (s.rv d).toNat) (reg := fun s => s.rv d)
      (fun _ => rfl) (fun _ => rfl) hi hf
    unfold exec
    exact hx
  · have hx := stvx_withholds hroom hi hf
    unfold exec
    exact hx
  · have hx := stvs_inactive hi hno
    unfold exec
    exact hx
  · have hx := stvs_withholds hroom hi hact hal hf
    unfold exec
    exact hx

end Sys2Proof.Machine
end

section
/-!
SUPPORT. What the reading of memory leaves alone: caches, memory, marks and notices change, never an agent's record or the bundle's verdict
(17 R299, R308-R310; 18 R316; 21 R358, R359).
-/

namespace Sys2Proof.Machine

open State

/-- The agents' records and the verdict on the bundle. -/
def State.agents (s : State) := (s.ctxs, s.verdict)

/-! ## The home and its codec -/

theorem agents_touchSlice (s : State) (l : Loc) : (s.touchSlice l).agents = s.agents := rfl
theorem agents_touchMeta (s : State) (sort no : Nat) : (s.touchMeta sort no).agents = s.agents := rfl
theorem agents_setPoison (s : State) (k n : Nat) : (s.setPoison k n).agents = s.agents := rfl
theorem agents_storeAt (s : State) (k : Nat) (bs : List Byte) : (s.storeAt k bs).agents = s.agents := by
  unfold State.storeAt State.unpoison
  split <;> rfl
theorem agents_storeNum (s : State) (k n x : Nat) : (s.storeNum k n x).agents = s.agents := agents_storeAt ..
theorem agents_modCore (s : State) (n : Nat) (f : CoreSt → CoreSt) : (s.modCore n f).agents = s.agents := rfl
theorem agents_codecEvent (s : State) (a : Agent) (c : CodedLoc) (reason sats : Nat) : (codecEvent s a c reason sats).agents = s.agents := rfl

theorem agents_readBlock (s : State) (a : Agent) (c : CodedLoc) : (readBlock s a c).2.agents = s.agents := by
  unfold readBlock
  dsimp only
  split
  · exact agents_codecEvent ..
  · rfl

theorem agents_mergeBlock (s : State) (a : Agent) (c : CodedLoc) (bs : List (Option Byte)) : (mergeBlock s a c bs).agents = s.agents := by
  unfold mergeBlock
  extract_lets reg pa n full bad old s1 merged ms enc dec sat err reg' s2 s3 s4
  have h1 : s1.agents = s.agents := agents_readBlock s a c
  have h2 : s2.agents = s1.agents := agents_storeNum ..
  have h3 : s3.agents = s2.agents := by
    unfold s3
    split
    · exact agents_setPoison ..
    · rfl
  have h4 : s4.agents = s3.agents := agents_touchMeta ..
  have hall : s4.agents = s.agents := ((h4.trans h3).trans h2).trans h1
  split
  · exact (agents_codecEvent ..).trans hall
  · exact hall

theorem agents_mergeBytes (a : Agent) (fuel : Nat) : ∀ (s : State) (c : CodedLoc) (bs : List Byte), (mergeBytes s a fuel c bs).agents = s.agents := by
  induction fuel with
  | zero => exact fun s c bs => rfl
  | succ fuel ih =>
    intro s c bs
    rw [mergeBytes]
    split
    · rfl
    · exact (ih ..).trans (agents_mergeBlock ..)

theorem agents_codedBytesAt (a : Agent) (fuel : Nat) : ∀ (s : State) (c : CodedLoc) (n : Nat), (codedBytesAt s a fuel c n).2.agents = s.agents := by
  induction fuel with
  | zero => exact fun s c n => rfl
  | succ fuel ih =>
    intro s c n
    rw [codedBytesAt]
    split
    · rfl
    · exact (ih ..).trans (agents_readBlock ..)

theorem agents_homeRead (s : State) (a : Agent) (l : Loc) (n : Nat) : (s.homeRead a l n).2.agents = s.agents := by
  unfold State.homeRead
  split
  · dsimp only
    split
    · exact agents_touchSlice s l
    · rfl
  · exact (agents_touchSlice ..).trans (agents_codedBytesAt ..)

theorem agents_homeWrite (s : State) (a : Agent) (l : Loc) (bs : List Byte) : (s.homeWrite a l bs).agents = s.agents := by
  unfold State.homeWrite
  split
  · dsimp only
    split
    · exact (agents_touchSlice ..).trans (agents_storeAt ..)
    · exact agents_storeAt ..
  · exact (agents_touchSlice ..).trans (agents_mergeBytes ..)

/-! ## The L1 -/

theorem agents_writeBackLine (s : State) (core key : Nat) (a : Agent) : (s.writeBackLine core key a).agents = s.agents := by
  unfold State.writeBackLine
  extract_lets ln loc bs runs s1
  split
  · rfl
  · refine (agents_modCore s1 core _).trans ?_
    unfold s1
    split
    · refine foldl_keeps (p := State.agents) (fun s r => ?_) ..
      refine (foldl_keeps (p := State.agents) (fun s o => ?_) ..).trans (agents_homeWrite ..)
      split
      · exact agents_setPoison ..
      · rfl
    · refine foldl_keeps (p := State.agents) (fun s o => ?_) ..
      dsimp only
      split
      · rfl
      · split
        · exact (agents_setPoison ..).trans (agents_mergeBlock ..)
        · exact agents_mergeBlock ..

theorem agents_evictLine (s : State) (core key : Nat) (a : Agent) : (s.evictLine core key a).agents = s.agents :=
  (agents_modCore ..).trans (agents_writeBackLine s core key a)

theorem agents_recallLine (s : State) (but : Option Nat) (key : Nat) : (s.recallLine but key).agents = s.agents := by
  unfold State.recallLine
  refine foldl_keeps (p := State.agents) (fun s e => ?_) ..
  split
  · exact (agents_modCore ..).trans (agents_writeBackLine ..)
  · rfl

theorem agents_installLine (s : State) (core key : Nat) (ln : L1Line) (a : Agent) : (s.installLine core key ln a).agents = s.agents := by
  unfold State.installLine
  extract_lets ways s1
  refine (agents_modCore s1 core _).trans ?_
  unfold s1
  split
  · rfl
  · cases ways with
    | nil => rfl
    | cons e r => exact agents_evictLine ..

theorem agents_fillLine (s : State) (core : Nat) (l : Loc) (a : Agent) : (s.fillLine core l a).agents = s.agents :=
  ((agents_installLine ..).trans (agents_homeRead ..)).trans (agents_recallLine s _ _)

theorem agents_l1Read (s : State) (core : Nat) (l : Loc) (n : Nat) (a : Agent) : (s.l1Read core l n a).2.2.agents = s.agents := by
  unfold State.l1Read
  dsimp only
  split
  · rfl
  · exact agents_fillLine ..

theorem agents_beforeStrong (s : State) (a : Agent) (l : Loc) : (s.beforeStrong a l).agents = s.agents := by
  unfold State.beforeStrong
  refine (agents_recallLine ..).trans ?_
  split
  · exact agents_writeBackLine ..
  · rfl

/-! ## Loads -/

theorem agents_readTarget (s : State) (a : Agent) (l : Loc) (n : Nat) : (readTarget s a l n).2.2.2.agents = s.agents := by
  unfold readTarget
  split
  · rfl
  · rfl
  · split
    · rfl
    · split
      · exact agents_l1Read ..
      · exact (agents_homeRead ..).trans (agents_beforeStrong ..)

theorem agents_openBytes (s : State) (l : Loc) (bs : List Byte) : (openBytes s l bs).2.agents = s.agents := by
  unfold openBytes
  split <;> rfl

theorem agents_readSegs (a : Agent) (segs : List (Loc × Nat)) : ∀ s : State, (readSegs s a segs).2.2.2.agents = s.agents := by
  induction segs with
  | nil => exact fun s => rfl
  | cons x r ih =>
    intro s
    rw [readSegs]
    exact ((ih _).trans (agents_openBytes ..)).trans (agents_readTarget ..)

/-! ## Messages and landings to come -/

theorem agents_after (s : State) (n : Nat) (e : Ev) : (s.after n e).agents = s.agents := rfl

theorem agents_sendStep (s : State) (n pkg tag : Nat) (e : Ev) : (s.sendStep n pkg tag e).agents = s.agents := by
  unfold State.sendStep
  split
  · rfl
  · split <;> rfl

theorem agents_remoteRead (s : State) (rem : Remote) (pa n vf : Nat) : (s.remoteRead rem pa n vf).agents = s.agents :=
  agents_sendStep ..

theorem ctx_of_agents {s t : State} (h : t.agents = s.agents) (a : Agent) : t.ctx a = s.ctx a := by
  have hctxs : t.ctxs = s.ctxs := congrArg Prod.fst h
  rw [State.ctx, hctxs, State.ctx]
theorem verdict_of_agents {s t : State} (h : t.agents = s.agents) : t.verdict = s.verdict := congrArg Prod.snd h

end Sys2Proof.Machine
end

section
/-!
PROOF. The load families (04 R90, R92-R94; 08 R170), PREF and CHK (04 R96, R97): O23.
-/

namespace Sys2Proof.Machine

open State

/-! ## What a load of resolved segments leaves -/

/-- The segments of a load that lie at no fabric address: it reads them at issue (04 R92; 17 R408). -/
def nearSegs (segs : List (Loc × Nat)) : List (Loc × Nat) := segs.filter (fun x => !x.1.fabric)
/-- The segments of a load that lie at fabric addresses, with their offsets: it asks for them (17 R408). -/
def farSegs (segs : List (Loc × Nat)) : List (Loc × Nat × Nat) := (segOffsets 0 segs).filter (fun x => x.1.fabric)

/-- The bytes that a load has read at issue, at their offsets. -/
def loadBytes (s : State) (segs : List (Loc × Nat)) : List Byte :=
  if (farSegs segs).isEmpty then (readSegs s s.who (nearSegs segs)).1 else
    (segOffsets 0 segs).foldl (fun b x => if x.1.fabric then b else patch b x.2.2 (readSegs s s.who [(x.1, x.2.1)]).1)
      (List.replicate (segs.map (·.2)).sum 0)

/-- The error that the bytes which a load reads carry, of the first segment with one (04 R98). -/
def loadError (s : State) (va : Nat → BitVec 64) (segs : List (Loc × Nat)) : Option TrapRec :=
  if (readSegs s s.who (nearSegs segs)).2.1 then
    (match (segOffsets 0 segs).find? (fun x => !x.1.fabric && (readSegs s s.who [(x.1, x.2.1)]).2.1) with
     | some (l, _, o) => some (s.slotTrap 0x51 0 (BitVec.ofNat 64 (Loc.addr s l)) (va o))
     | none => some (s.slotTrap 0x51 0 0 (va 0)))
  else none

/-- The entry that a load appends (04 R90, R92). -/
def loadEntry (s : State) (lc : BitVec 3) (sp : Space) (va : Nat → BitVec 64) (segs : List (Loc × Nat)) (shape : LoadShape) : Flight :=
  { id := (readSegs s s.who (nearSegs segs)).2.2.2.ids, kind := .load, dist := Nat.max (s.regs.c.lc.get lc.toFin).toNat 1, cls := spaceClass sp
    arrived := false, fault := loadError s va segs, shape := shape, buf := loadBytes s segs, waits := 1 + (farSegs segs).length }

/-- The state in which a load has read, counted its traffic and taken its number (14 R261). -/
def loadRead (s : State) (segs : List (Loc × Nat)) : State :=
  (addTraffic (readSegs s s.who (nearSegs segs)).2.2.2 s.who (lineTraffic s s.who segs)).newId.2

/-- A load appends its entry, asks for its bytes at fabric addresses, and is to land. -/
theorem issueLoad_eq {s : State} {lc : BitVec 3} {sp : Space} {va : Nat → BitVec 64} {segs : List (Loc × Nat)} {shape : LoadShape} {walk : Nat}
    (hno : segs.any (fun x => ownUnknown s s.who x.1 x.2) = false) :
    ∃ (ask : State → Loc × Nat × Nat → Remote) (n : Nat) (e : Ev), issueLoad s lc sp va segs shape walk =
      .next (((farSegs segs).foldl (fun u x => u.remoteRead (ask u x) x.1.key x.2.1)
        ((loadRead s segs).addFlight s.who (loadEntry s lc sp va segs shape))).after n e) := by
  unfold issueLoad
  rw [hno, if_neg (by decide)]
  exact ⟨_, _, _, rfl⟩

theorem ctx_loadRead (s : State) (segs : List (Loc × Nat)) : ∃ n, (loadRead s segs).ctx s.who = { s.me with by_ := n } := by
  have hread : (addTraffic (readSegs s s.who (nearSegs segs)).2.2.2 s.who (lineTraffic s s.who segs)).ctx s.who =
      (loadRead s segs).ctx s.who := rfl
  rw [← hread, addTraffic_keeps, ctx_of_agents (agents_readSegs ..)]
  exact ⟨_, rfl⟩

/-- A load whose bytes all pass their checks appends its entry, and changes nothing else of its context but the count of its traffic. -/
theorem issueLoad_appends {s : State} {lc : BitVec 3} {sp : Space} {va : Nat → BitVec 64} {segs : List (Loc × Nat)} {shape : LoadShape} {walk : Nat}
    (hno : segs.any (fun x => ownUnknown s s.who x.1 x.2) = false) : ∃ t n, issueLoad s lc sp va segs shape walk = .next t ∧
      t.ctx s.who = { s.me with flight := s.me.flight ++ [loadEntry s lc sp va segs shape], by_ := n } := by
  obtain ⟨ask, m, e, heq⟩ := issueLoad_eq (walk := walk) (lc := lc) (sp := sp) (va := va) (shape := shape) hno
  obtain ⟨n, hread⟩ := ctx_loadRead s segs
  refine ⟨_, n, heq, ?_⟩
  have hasks := foldl_keeps (f := fun u x => u.remoteRead (ask u x) x.1.key x.2.1) (p := State.agents) (fun u x => agents_remoteRead ..) (farSegs segs)
    ((loadRead s segs).addFlight s.who (loadEntry s lc sp va segs shape))
  rw [ctx_of_agents ((agents_after ..).trans hasks), State.addFlight, ctx_modCtx, hread]

/-! ## Its entry -/

theorem loadError_isSome (s : State) (va : Nat → BitVec 64) (segs : List (Loc × Nat)) :
    (loadError s va segs).isSome = (readSegs s s.who (nearSegs segs)).2.1 := by
  unfold loadError
  cases (readSegs s s.who (nearSegs segs)).2.1 with
  | false => rfl
  | true =>
    rw [if_pos rfl]
    split <;> rfl

theorem nearSegs_of_near {segs : List (Loc × Nat)} (h : segs.all (fun x => !x.1.fabric) = true) : nearSegs segs = segs :=
  List.filter_eq_self.mpr (List.all_eq_true.mp h)

theorem segOffsets_fst (segs : List (Loc × Nat)) : ∀ o, ∀ x ∈ segOffsets o segs, ∃ y ∈ segs, x.1 = y.1 := by
  induction segs with
  | nil => exact fun o x hx => absurd hx (List.not_mem_nil)
  | cons p r ih =>
    intro o x hx
    rw [segOffsets, List.mem_cons] at hx
    obtain rfl | hx := hx
    · exact ⟨p, List.mem_cons_self, rfl⟩
    · obtain ⟨y, hy, hxy⟩ := ih _ x hx
      exact ⟨y, List.mem_cons_of_mem _ hy, hxy⟩

theorem farSegs_of_near {segs : List (Loc × Nat)} (h : segs.all (fun x => !x.1.fabric) = true) : farSegs segs = [] := by
  refine List.filter_eq_nil_iff.mpr fun x hx => ?_
  obtain ⟨y, hy, hxy⟩ := segOffsets_fst segs 0 x hx
  simpa [hxy] using List.all_eq_true.mp h y hy

/-- A load of no fabric address waits for its landing alone, and holds the bytes and the error that it reads at issue. -/
theorem loadEntry_near {s : State} {lc : BitVec 3} {sp : Space} {va : Nat → BitVec 64} {segs : List (Loc × Nat)} {shape : LoadShape}
    (h : segs.all (fun x => !x.1.fabric) = true) : (loadEntry s lc sp va segs shape).waits = 1 ∧
      (loadEntry s lc sp va segs shape).buf = (readSegs s s.who segs).1 ∧
      (loadEntry s lc sp va segs shape).fault.isSome = (readSegs s s.who segs).2.1 := by
  simp only [loadEntry, loadError_isSome, loadBytes, farSegs_of_near h, nearSegs_of_near h, List.length_nil, List.isEmpty_nil, if_true, and_self]

/-! ## The load families -/

/-- A load of these resolved segments lands later, with its entry as `Claims.LoadResults` says. -/
def Lands (s : State) (r : Res) (u : State) (segs : List (Loc × Nat)) (lc : BitVec 3) (shape : LoadShape) : Prop :=
  ∃ t e, r = .next t ∧ (t.ctx s.who).flight = s.me.flight ++ [e] ∧ (t.ctx s.who).live = s.me.live ∧ (t.ctx s.who).held = s.me.held ∧
    e.kind = .load ∧ e.arrived = false ∧ e.dist = max (s.regs.c.lc.get lc.toFin).toNat 1 ∧ e.shape = shape ∧
    (segs.all (fun x => !x.1.fabric) → e.waits = 1 ∧ e.buf = (readSegs u s.who segs).1 ∧ e.fault.isSome = (readSegs u s.who segs).2.1)

/-- The walks of a load's resolution leave its agent's record as it was. -/
theorem issueLoad_lands {s u : State} {i : Instr} (hu : u.unsampled = (s.noted i).unsampled) {lc : BitVec 3} {sp : Space} {va : Nat → BitVec 64}
    {segs : List (Loc × Nat)} {shape : LoadShape} {walk : Nat} (hno : segs.any (fun x => ownUnknown u s.who x.1 x.2) = false) :
    Lands s (issueLoad u lc sp va segs shape walk) u segs lc shape := by
  have hwho : u.who = s.who := (who_of_unsampled hu).trans (noted_who s i)
  have hme : u.me = s.me := (me_of_unsampled hu).trans (noted_me s i)
  have hdist : (loadEntry u lc sp va segs shape).dist = max (s.regs.c.lc.get lc.toFin).toNat 1 := by rw [State.regs, ← hme]; rfl
  rw [← hwho] at hno
  obtain ⟨t, n, ht, hctx⟩ := issueLoad_appends (lc := lc) (sp := sp) (va := va) (shape := shape) (walk := walk) hno
  rw [hwho, hme] at hctx
  refine ⟨t, loadEntry u lc sp va segs shape, ht, by rw [hctx], by rw [hctx], by rw [hctx], rfl, rfl, hdist, rfl, fun hnear => ?_⟩
  rw [← hwho]
  exact loadEntry_near hnear

section
variable {s : State} {h : Hdr}

theorem loadOp_lands {i : Instr} {a off : BitVec 5} {lc : BitVec 3} {spc : BitVec 2} {n g al : Nat} {shape : State → LoadShape} {sh : LoadShape}
    (hshape : ∀ w : BitVec 32, shape { s with word := w } = sh) (hi : Issues i h s) {segs : List (Loc × Nat)} {u : State}
    (hfound : resolveAccess (s.noted i) .load (Space.ofCode spc) (effAddr s a off g) n al = .ok (segs, u))
    (hno : segs.any (fun x => ownUnknown u s.who x.1 x.2) = false) : Lands s (loadOp i h a lc spc off n g al s shape) u segs lc sh := by
  have hshape' : shape (s.noted i) = sh := hshape _
  rw [loadOp, slotOp_issues hi]
  dsimp only
  rw [noted_effAddr, hfound, hshape']
  exact issueLoad_lands (resolveAccess_translates _ _ _ _ _ _ _ _ hfound) hno

theorem ldvx_lands {d a ix : BitVec 5} {lc : BitVec 3} {sp : BitVec 2} (hi : Issues (.ldvx h d a lc sp ix) h s) {segs : List (Loc × Nat)} {u : State}
    (hfound : resolveLanes (s.noted (.ldvx h d a lc sp ix)) .load (Space.ofCode sp) (laneAddr s a ix) 128 0 = .ok (segs, u))
    (hno : segs.any (fun x => ownUnknown u s.who x.1 x.2) = false) :
    Lands s (execLdvx h d a lc sp ix s) u segs lc (.vec (physSV s.rot d)) := by
  rw [execLdvx, slotOp_issues hi]
  generalize Instr.ldvx h d a lc sp ix = i at *
  rw [noted_laneAddr, hfound, noted_rot]
  exact issueLoad_lands (resolveLanes_translates _ _ _ _ _ _ _ _ hfound) hno

end

/-! ## LDVS (04 R94; 08 R170) -/

/-- What LDVS reads of a chunk: the error that it carries, or its lanes. -/
def chunkEntry (u : State) (ea : BitVec 64) (d : BitVec 5) (lc : BitVec 3) (segs : List (Loc × Nat)) : Flight :=
  let r := readSegs u u.who segs
  { id := u.ids, kind := .load, dist := Nat.max (u.regs.c.lc.get lc.toFin).toNat 1, cls := 0, arrived := false
    fault := if r.2.1 then some (u.slotTrap 0x51 0 ea ea) else if chunkBad r.1 then some (u.slotTrap 0x46 0 ea) else none
    shape := .vec (physSV u.rot d), buf := if chunkBad r.1 then [] else (chunkLanes r.1).flatMap (fun w => toBytes 4 w.toNat), waits := 1 }

/-- LDVS of an aligned address, in the state of its slot. -/
def ldvsAct (ea : BitVec 64) (d : BitVec 5) (lc : BitVec 3) (u : State) : Res :=
  match chunkSegs u ea with
  | .error f => .next (u.raise (faultRec u f))
  | .ok segs =>
    if segs.any (fun x => ownUnknown u u.who x.1 x.2) then .next (u.hold {}) else
    let r := readSegs u u.who segs
    .next ((u.newId.2.addFlight u.who (chunkEntry u ea d lc segs)).after (r.2.2.1 + segs.length - 1) (.loadLanding u.who u.ids))

theorem ldvsAct_appends {u : State} {ea : BitVec 64} {d : BitVec 5} {lc : BitVec 3} {segs : List (Loc × Nat)} (hfound : chunkSegs u ea = .ok segs)
    (hno : segs.any (fun x => ownUnknown u u.who x.1 x.2) = false) : ∃ n e, ldvsAct ea d lc u =
      .next ((u.newId.2.addFlight u.who (chunkEntry u ea d lc segs)).after n e) := by
  rw [ldvsAct, hfound]
  dsimp only
  rw [hno, if_neg (by decide)]
  exact ⟨_, _, rfl⟩

theorem execLdvs_acts (h : Hdr) (d a off : BitVec 5) (lc : BitVec 3) (s : State) : execLdvs h d a lc off s =
    slotOp (.ldvs h d a lc off) h s (fun u => if (effAddr u a off 128).toNat % 128 ≠ 0 then
      .next (u.raise (faultRec u (misaligned (effAddr u a off 128)))) else ldvsAct (effAddr u a off 128) d lc u) := rfl

theorem noted_unknown (s : State) (i : Instr) (segs : List (Loc × Nat)) :
    segs.any (fun x => ownUnknown (s.noted i) (s.noted i).who x.1 x.2) = segs.any (fun x => ownUnknown s s.who x.1 x.2) := rfl

/-- LDVS appends its entry (04 R94). -/
theorem execLdvs_appends {s : State} {h : Hdr} {d a off : BitVec 5} {lc : BitVec 3} (hi : Issues (.ldvs h d a lc off) h s)
    (hal : (effAddr s a off 128).toNat % 128 = 0) {segs : List (Loc × Nat)}
    (hfound : chunkSegs (s.noted (.ldvs h d a lc off)) (effAddr s a off 128) = .ok segs)
    (hno : segs.any (fun x => ownUnknown s s.who x.1 x.2) = false) : ∃ n e, execLdvs h d a lc off s =
      .next (((s.noted (.ldvs h d a lc off)).newId.2.addFlight s.who
        (chunkEntry (s.noted (.ldvs h d a lc off)) (effAddr s a off 128) d lc segs)).after n e) := by
  rw [execLdvs_acts, slotOp_issues hi, noted_effAddr, if_neg (fun hne => hne hal)]
  have hact := ldvsAct_appends (d := d) (lc := lc) hfound ((noted_unknown ..).trans hno)
  rwa [noted_who] at hact

/-- What the entry of LDVS holds. -/
theorem chunkEntry_holds (s : State) (i : Instr) (ea : BitVec 64) (d : BitVec 5) (lc : BitVec 3) (segs : List (Loc × Nat)) :
    let e := chunkEntry (s.noted i) ea d lc segs
    let r := readSegs (s.noted i) s.who segs
    e.kind = .load ∧ e.arrived = false ∧ e.dist = max (s.regs.c.lc.get lc.toFin).toNat 1 ∧ e.shape = .vec (physSV s.rot d) ∧
      (r.2.1 = true → ∃ f, e.fault = some f ∧ f.cause = 0x51) ∧
      (r.2.1 = false → chunkBad r.1 = true → ∃ f, e.fault = some f ∧ f.cause = 0x46) ∧
      (r.2.1 = false → chunkBad r.1 = false → e.fault = none ∧ e.buf = (chunkLanes r.1).flatMap (fun w => toBytes 4 w.toNat)) := by
  refine ⟨rfl, rfl, rfl, rfl, fun hbad => ?_, fun hok hbad => ?_, fun hok hgood => ?_⟩
  · exact ⟨_, if_pos hbad, rfl⟩
  · exact ⟨_, (if_neg (by rw [noted_who, hok]; decide)).trans (if_pos hbad), rfl⟩
  · exact ⟨(if_neg (by rw [noted_who, hok]; decide)).trans (if_neg (by rw [noted_who, hgood]; decide)), if_neg (by rw [noted_who, hgood]; decide)⟩

/-! ## PREF and CHK (04 R96, R97) -/

/-- A state in which the bundle's verdict, and the issuing agent's registers, run state and withheld effects, are as they were. -/
def Quiet (s t : State) : Prop :=
  t.verdict = s.verdict ∧ (t.ctx s.who).live = s.me.live ∧ (t.ctx s.who).st = s.me.st ∧ (t.ctx s.who).held = s.me.held

theorem quiet_of_agents {s t : State} (h : t.agents = s.agents) : Quiet s t := by
  have hctx : t.ctx s.who = s.me := ctx_of_agents h s.who
  exact ⟨verdict_of_agents h, by rw [hctx], by rw [hctx], by rw [hctx]⟩

theorem agents_of_unsampled {s t : State} (h : t.unsampled = s.unsampled) : t.agents = s.agents := by have h' := congrArg State.agents h; exact h'

/-- A landing to come is one result in flight more. -/
theorem landing_ctx (t : State) (a : Agent) (e : Flight) (n : Nat) (v : Ev) :
    ((t.addFlight a e).after n v).ctx a = { t.ctx a with flight := (t.ctx a).flight ++ [e] } := by
  rw [ctx_of_agents (agents_after ..), State.addFlight, ctx_modCtx]

/-- A landing to come changes the results in flight alone. -/
theorem Quiet.lands {s t : State} (h : Quiet s t) (e : Flight) (n : Nat) (v : Ev) : Quiet s ((t.addFlight s.who e).after n v) := by
  obtain ⟨hverdict, hlive, hst, hheld⟩ := h
  have hctx := landing_ctx t s.who e n v
  exact ⟨hverdict, by rw [hctx]; exact hlive, by rw [hctx]; exact hst, by rw [hctx]; exact hheld⟩

theorem quiet_noted {s t : State} {i : Instr} (h : Quiet (s.noted i) t) : Quiet s t := h

/-- What a prefetch of a place brings: the line, to its home slice or to the core's L1 (04 R96). -/
def prefetched (u : State) (who : Agent) (home : Bool) (l : Loc) : State :=
  if home ∨ !who.onCore then u.touchSlice l else if u.l1Hit who.core l 128 then u else u.fillLine who.core l who

theorem agents_prefetched (u : State) (who : Agent) (home : Bool) (l : Loc) : (prefetched u who home l).agents = u.agents := by
  unfold prefetched
  split
  · exact agents_touchSlice u l
  · split
    · rfl
    · exact agents_fillLine u _ l who

/-- PREF, in the state of its slot. -/
def prefAct (home : Bool) (a off : BitVec 5) (u : State) : Res :=
  match resolve u u.who .load .m (BitVec.ofNat 64 ((effAddr u a off 128).toNat / 128 * 128)) 128 with
  | .error _ => .next u
  | .ok (l, v) =>
    if l.fabric ∨ l.host then .next v else
    .next (((prefetched v u.who home l).newId.2.addFlight u.who
        { id := (prefetched v u.who home l).ids, kind := .pref, dist := 0, cls := 2, arrived := false, waits := 1 }).after
      (latencyOf v u.who l (!home && u.who.onCore && v.l1Hit u.who.core l 128) + walkDelay u v u.who)
      (.loadLanding u.who (prefetched v u.who home l).ids))

theorem execPref_acts (h : Hdr) (home : Bool) (a off : BitVec 5) (s : State) : execPref h home a off s =
    slotOp (.pref h home a off) h s (prefAct home a off) := rfl

theorem prefAct_quiet (home : Bool) (a off : BitVec 5) (u : State) : ∃ t, prefAct home a off u = .next t ∧ Quiet u t := by
  unfold prefAct
  split
  · exact ⟨u, rfl, rfl, rfl, rfl, rfl⟩
  next l v hl =>
    have hv : v.agents = u.agents := agents_of_unsampled (resolve_translates _ _ _ _ _ _ _ _ hl)
    split
    · exact ⟨v, rfl, quiet_of_agents hv⟩
    · have hread : (prefetched v u.who home l).newId.2.agents = u.agents := (agents_prefetched ..).trans hv
      exact ⟨_, rfl, (quiet_of_agents hread).lands _ _ _⟩

theorem pref_quiet {s : State} {h : Hdr} {home : Bool} {a off : BitVec 5} (hi : Issues (.pref h home a off) h s) :
    ∃ t, execPref h home a off s = .next t ∧ Quiet s t := by
  obtain ⟨t, ht, hq⟩ := prefAct_quiet home a off (s.noted (.pref h home a off))
  exact ⟨t, by rw [execPref_acts, slotOp_issues hi, ht], quiet_noted hq⟩

section
variable {s : State} {h : Hdr} {a b : BitVec 5}

theorem chk_equal (hi : Issues (.chk h a b) h s) (hab : s.rs a = s.rs b) : execChk h a b s = .next (s.noted (.chk h a b)) := by
  rw [execChk, slotOp_issues hi, noted_rs, noted_rs, if_pos hab]

theorem chk_differs (hi : Issues (.chk h a b) h s) (hab : s.rs a ≠ s.rs b) : execChk h a b s =
    .next ((s.noted (.chk h a b)).raise ((s.noted (.chk h a b)).slotTrap 0x50 0 (BitVec.ofNat 64 (a.toNat + b.toNat * 2 ^ 8)))) := by
  rw [execChk, slotOp_issues hi, noted_rs, noted_rs, if_neg hab, trapAt]

theorem chkVec_equal (hi : Issues (.chkVec h a b) h s) (hab : s.rv a = s.rv b) : execChkVec h a b s = .next (s.noted (.chkVec h a b)) := by
  rw [execChkVec, slotOp_issues hi, noted_rv, noted_rv, if_pos hab]

theorem chkVec_differs (hi : Issues (.chkVec h a b) h s) (hab : s.rv a ≠ s.rv b) : execChkVec h a b s = .next ((s.noted (.chkVec h a b)).raise
    ((s.noted (.chkVec h a b)).slotTrap 0x50 0 (BitVec.ofNat 64 (a.toNat + b.toNat * 2 ^ 8 + 2 ^ 16)))) := by
  rw [execChkVec, slotOp_issues hi, noted_rv, noted_rv, if_neg hab, trapAt]

end

theorem prefetchAndChecks : Claims.PrefetchAndChecks := by
  intro s h home a b off
  refine ⟨fun hi => ?_, fun hi hab => ?_, fun hi hab => ?_, fun hi hab => ?_, fun hi hab => ?_⟩
  · have hx := pref_quiet hi
    unfold exec
    exact hx
  · have hx := chk_equal hi hab
    unfold exec
    exact hx
  · have hx := chk_differs hi hab
    unfold exec
    exact hx
  · have hx := chkVec_equal hi hab
    unfold exec
    exact hx
  · have hx := chkVec_differs hi hab
    unfold exec
    exact hx

/-! ## The claims -/

theorem noted_newId_me (s : State) (i : Instr) : (s.noted i).newId.2.ctx s.who = s.me := rfl
theorem landing_mem (s : State) (i : Instr) (a : Agent) (e : Flight) (n : Nat) (v : Ev) :
    (((s.noted i).newId.2.addFlight a e).after n v).mem = s.mem := rfl

/-- What LDVS leaves, of its entry and of memory. -/
theorem ldvs_lands {s : State} {h : Hdr} {d a off : BitVec 5} {lc : BitVec 3} (hi : Issues (.ldvs h d a lc off) h s)
    (hal : (effAddr s a off 128).toNat % 128 = 0) {segs : List (Loc × Nat)}
    (hfound : chunkSegs (s.noted (.ldvs h d a lc off)) (effAddr s a off 128) = .ok segs)
    (hno : segs.any (fun x => ownUnknown s s.who x.1 x.2) = false) :
    let e := chunkEntry (s.noted (.ldvs h d a lc off)) (effAddr s a off 128) d lc segs
    ∃ t, execLdvs h d a lc off s = .next t ∧ (t.ctx s.who).flight = s.me.flight ++ [e] ∧ t.mem = s.mem := by
  obtain ⟨n, v, ht⟩ := execLdvs_appends hi hal hfound hno
  exact ⟨_, ht, by rw [landing_ctx, noted_newId_me], landing_mem ..⟩

theorem loads : Claims.LoadResults := by
  intro s h d a ix off lc sp
  refine ⟨fun hi segs u hf hno => ?_, fun hi segs u hf hno => ?_, fun hi segs u hf hno => ?_, fun hi segs u hf hno => ?_,
    fun hi segs u hf hno => ?_, fun hi hal segs hf hno => ?_⟩
  · have hx := loadOp_lands (lc := lc) (shape := fun s => .s (physSV s.rot d) 8) (sh := .s (physSV s.rot d) 8) (fun _ => rfl) hi hf hno
    unfold exec
    exact hx
  · have hx := loadOp_lands (lc := lc) (shape := fun s => .pair (physSV s.rot d) (physSV s.rot (d + 1)))
      (sh := .pair (physSV s.rot d) (physSV s.rot (d + 1))) (fun _ => rfl) hi hf hno
    unfold exec
    exact hx
  · have hx := loadOp_lands (lc := lc) (shape := fun s => .bcast (physSV s.rot d)) (sh := .bcast (physSV s.rot d)) (fun _ => rfl) hi hf hno
    unfold exec
    exact hx
  · have hx := loadOp_lands (lc := lc) (shape := fun s => .vec (physSV s.rot d)) (sh := .vec (physSV s.rot d)) (fun _ => rfl) hi hf hno
    unfold exec
    exact hx
  · have hx := ldvx_lands hi hf hno
    unfold exec
    exact hx
  · obtain ⟨t, ht, hflight, hmem⟩ := ldvs_lands hi hal hf hno
    obtain ⟨hkind, harrived, hdist, hshape, herrors⟩ := chunkEntry_holds s (.ldvs h d a lc off) (effAddr s a off 128) d lc segs
    refine ⟨t, _, ?_, hflight, hkind, harrived, hdist, hshape, hmem, herrors⟩
    unfold exec
    exact ht

/-- Settles O23: reading changes neither an agent's record nor the verdict (`State.agents`), so a load leaves its entry alone. -/
theorem loadResults : Obligations.LoadResults := ⟨loads, prefetchAndChecks⟩

end Sys2Proof.Machine
end

section
/-!
SUPPORT. Steps without an encoding with their operands, a fold that reaches a fact, the agents' keys, and what taking front positions leaves alone.
PROOF. The life of a task (05 R99; 09 R193; 12 R234; 14 R249, R251, R254, R257): O50.
-/

namespace Sys2Proof.Machine

open State

/-! ## Steps without an encoding -/

/-- A step without an encoding acts on the operands that it is given. -/
theorem evStep_given (s : State) (e : Ev) {k : Ev → Option Res} {r : Res} (he : e.ok = true) (hk : k e = some r) : evStep (s.given e) k = r := by
  show (if e.ok then (k e).getD _ else _) = r
  rw [if_pos he, hk, Option.getD_some]

namespace State

@[simp] theorem given_cc (s : State) (e : Ev) : (s.given e).cc = s.cc := rfl
@[simp] theorem given_mem (s : State) (e : Ev) : (s.given e).mem = s.mem := rfl
@[simp] theorem given_ctxs (s : State) (e : Ev) : (s.given e).ctxs = s.ctxs := rfl
@[simp] theorem given_notices (s : State) (e : Ev) : (s.given e).notices = s.notices := rfl
@[simp] theorem given_ctx (s : State) (e : Ev) (a : Agent) : (s.given e).ctx a = s.ctx a := rfl
@[simp] theorem given_core (s : State) (e : Ev) (n : Nat) : (s.given e).core n = s.core n := rfl
@[simp] theorem given_cluster (s : State) (e : Ev) (n : Nat) : (s.given e).cluster n = s.cluster n := rfl
@[simp] theorem given_task (s : State) (e : Ev) (n : Nat) : (s.given e).task n = s.task n := rfl

end State

@[simp] theorem taskDone_given (s : State) (e : Ev) (tk : Nat) : taskDone (s.given e) tk = taskDone s tk := rfl

/-! ## Folds, keys and the agenda -/

/-- A fold over a list that has `x` reaches what the step of `x` reaches from a state that satisfies `Q`, where every step keeps `Q` and what is reached. -/
theorem foldl_reaches {α β : Type} {f : β → α → β} {P Q : β → Prop} {l : List α} {b : β} {x : α} (hx : x ∈ l) (hb : Q b)
    (hQ : ∀ b y, Q b → Q (f b y)) (hP : ∀ b y, P b → P (f b y)) (hfx : ∀ b, Q b → P (f b x)) : P (l.foldl f b) := by
  obtain ⟨l₁, l₂, rfl⟩ := List.append_of_mem hx
  rw [List.foldl_append, List.foldl_cons]
  have hmid : Q (l₁.foldl f b) := List.foldlRecOn l₁ f hb (fun b h y _ => hQ b y h)
  exact List.foldlRecOn l₂ f (hfx _ hmid) (fun b h y _ => hP b y h)

@[simp] theorem key_agentOf (k : Nat) : (agentOf k).key = k := by
  unfold agentOf
  split
  · exact Nat.div_add_mod k 8
  · split <;> simp only [Agent.key] <;> omega

/-- An agent's record is read by its key alone. -/
theorem ctx_of_key (s : State) {a b : Agent} (h : a.key = b.key) : s.ctx a = s.ctx b := by rw [State.ctx, h, State.ctx]

theorem ctx_modCtx_eq (s : State) (a b : Agent) (f : Ctx → Ctx) :
    (s.modCtx a f).ctx b = if a.key = b.key then f (s.ctx b) else s.ctx b := by
  split
  case isTrue h => rw [← ctx_of_key _ h, ctx_modCtx, ctx_of_key s h]
  case isFalse h => exact ctx_modCtx_ne s f h

theorem mem_agendaInsert {x : Nat × Ev} {due : Nat} {e : Ev} {l : List (Nat × Ev)} : x ∈ agendaInsert due e l ↔ x = (due, e) ∨ x ∈ l := by
  induction l with
  | nil => simp [agendaInsert]
  | cons y r ih =>
    unfold agendaInsert
    split
    · simp only [List.mem_cons, ih]; tauto
    · simp only [List.mem_cons]

/-! ## Front positions (14 R257, R258) -/

/-- A context that waits for a position, or holds one. -/
def Placed (c : Ctx) : Prop := c.st = .waiting ∨ c.st = .front

/-- What starting contexts and filling positions leave alone: the time, memory, every context's registers and stop request; and a context that waits goes
on to wait or takes a position. -/
structure Positions (s t : State) : Prop where
  cc : t.cc = s.cc
  mem : t.mem = s.mem
  live : ∀ a, (t.ctx a).live = (s.ctx a).live
  stopReq : ∀ a, (t.ctx a).stopReq = (s.ctx a).stopReq
  placed : ∀ a, Placed (s.ctx a) → Placed (t.ctx a)

theorem Positions.refl (s : State) : Positions s s := ⟨rfl, rfl, fun _ => rfl, fun _ => rfl, fun _ h => h⟩

section
variable {s t : State}

theorem Positions.trans {u : State} (h : Positions s t) (h' : Positions t u) : Positions s u where
  cc := h'.cc.trans h.cc
  mem := h'.mem.trans h.mem
  live a := (h'.live a).trans (h.live a)
  stopReq a := (h'.stopReq a).trans (h.stopReq a)
  placed a := h'.placed a ∘ h.placed a

theorem Positions.foldl {α : Type} {f : State → α → State} (h : Positions s t) (hf : ∀ u x, Positions u (f u x)) (l : List α) :
    Positions s (l.foldl f t) :=
  List.foldlRecOn l f h (fun u hu x _ => hu.trans (hf u x))

theorem Positions.modCtx (h : Positions s t) (a : Agent) {f : Ctx → Ctx} (hlive : ∀ c, (f c).live = c.live) (hreq : ∀ c, (f c).stopReq = c.stopReq)
    (hst : ∀ c, Placed c → Placed (f c)) : Positions s (t.modCtx a f) := by
  have hctx (b : Agent) := ctx_modCtx_eq t a b f
  refine h.trans ⟨rfl, rfl, fun b => ?_, fun b => ?_, fun b hb => ?_⟩ <;> rw [hctx b] <;> split
  · exact hlive _
  · rfl
  · exact hreq _
  · rfl
  · exact hst _ hb
  · exact hb

theorem Positions.modCore (h : Positions s t) (n : Nat) (f : CoreSt → CoreSt) : Positions s (t.modCore n f) :=
  h.trans ⟨rfl, rfl, fun _ => rfl, fun _ => rfl, fun _ h => h⟩
theorem Positions.at_ (h : Positions s t) (n : Nat) (e : Ev) : Positions s (t.at_ n e) :=
  h.trans ⟨rfl, rfl, fun _ => rfl, fun _ => rfl, fun _ h => h⟩

theorem Positions.takePosition (h : Positions s t) (core k : Nat) (posA : Bool) (from_ : Nat) : Positions s (takePosition t core k posA from_) := by
  unfold Machine.takePosition
  extract_lets skipped front seated
  have hskipped : Positions s skipped := h.foldl (fun u j => by
    split
    · exact (Positions.refl u).modCtx _ (fun _ => rfl) (fun _ => rfl) (fun _ hc => hc)
    · exact .refl u) _
  have hfront : Positions s front := hskipped.modCtx _ (fun _ => rfl) (fun _ => rfl) (fun _ _ => .inr rfl)
  exact (hfront.modCore ..).at_ ..

theorem Positions.fillVacancies (h : Positions s t) (core from_ : Nat) : Positions s (fillVacancies t core from_) := by
  unfold Machine.fillVacancies
  extract_lets cA tA cB
  have hA : Positions s tA := by
    unfold tA
    split
    · exact h
    · split
      · exact h.takePosition ..
      · exact h
  split
  · exact hA
  · split
    · exact hA.takePosition ..
    · exact hA

end

/-! ## A task becomes ready (14 R251) -/

/-- A member of a task that is free becomes waiting. -/
def startMember (tk : Nat) (s : State) (k : Nat) : State :=
  if (s.ctx (agentOf k)).task = some tk ∧ (s.ctx (agentOf k)).st = .free then
    s.modCtx (agentOf k) (fun c => { c with st := .waiting, skip := 0, waitFrom := s.cc })
  else s

/-- A member that was asked to stop stops in this cc (log 69). -/
def stopMember (s : State) (k : Nat) : State := if (s.ctx (agentOf k)).stopReq.isSome then s.at_ s.cc (.boundaryStop (agentOf k)) else s

/-- The members of a task started, and the vacancies of its core filled. -/
def membersPlaced (s : State) (tk : Nat) : State :=
  let u := (s.task tk).ctxs.foldl (startMember tk) s
  fillVacancies u (s.task tk).core u.cc

theorem exec_taskReady (s : State) (tk : Nat) : exec .taskReady (s.given (.taskReady tk)) =
    let u := (s.task tk).ctxs.foldl stopMember (membersPlaced (s.given (.taskReady tk)) tk)
    .next { u with turns := turnsOf u } := rfl

theorem positions_startMember (tk : Nat) (s : State) (k : Nat) : Positions s (startMember tk s k) := by
  unfold startMember
  split
  · exact (Positions.refl s).modCtx _ (fun _ => rfl) (fun _ => rfl) (fun _ _ => .inl rfl)
  · exact .refl s

theorem positions_stopMember (s : State) (k : Nat) : Positions s (stopMember s k) := by
  unfold stopMember
  split
  · exact (Positions.refl s).at_ ..
  · exact .refl s

theorem positions_membersPlaced (s : State) (tk : Nat) : Positions s (membersPlaced s tk) :=
  ((Positions.refl s).foldl (positions_startMember tk) _).fillVacancies ..

/-- A free member of a task. -/
def Joins (tk : Nat) (c : Ctx) : Prop := c.task = some tk ∧ c.st = .free

theorem startMember_placed {tk k : Nat} {s : State} (h : Joins tk (s.ctx (agentOf k))) : Placed ((startMember tk s k).ctx (agentOf k)) := by
  obtain ⟨htask, hfree⟩ := h
  rw [startMember, if_pos ⟨htask, hfree⟩, ctx_modCtx]
  exact .inl rfl

/-- Starting one member leaves every other's record alone. -/
theorem startMember_ctx_ne {j k : Nat} (h : j ≠ k) (tk : Nat) (s : State) : (startMember tk s j).ctx (agentOf k) = s.ctx (agentOf k) := by
  unfold startMember
  split
  · rw [ctx_modCtx_eq, key_agentOf, key_agentOf, if_neg h]
  · rfl

theorem placed_membersPlaced (s : State) {tk k : Nat} (hk : k ∈ (s.task tk).ctxs) (h : Joins tk (s.ctx (agentOf k))) :
    Placed ((membersPlaced s tk).ctx (agentOf k)) := by
  have hstay (u : State) (j : Nat) (hu : Placed (u.ctx (agentOf k))) := (positions_startMember tk u j).placed _ hu
  refine ((Positions.refl _).fillVacancies ..).placed _ (foldl_reaches (P := fun u => Placed (u.ctx (agentOf k)))
    (Q := fun u => Joins tk (u.ctx (agentOf k)) ∨ Placed (u.ctx (agentOf k))) hk (.inl h) (fun (u : State) j hu => ?_) hstay fun (u : State) hu => ?_)
  · rcases hu with hu | hu
    · rcases eq_or_ne j k with rfl | hj
      · exact .inr (startMember_placed hu)
      · exact .inl ((startMember_ctx_ne hj tk u).symm ▸ hu)
    · exact .inr (hstay u j hu)
  · exact hu.elim startMember_placed (hstay u k)

theorem stopMember_asked {s : State} {k : Nat} (h : (s.ctx (agentOf k)).stopReq.isSome = true) :
    stopMember s k = s.at_ s.cc (.boundaryStop (agentOf k)) := if_pos h

theorem agenda_stopMembers (s : State) {ks : List Nat} {k : Nat} (hk : k ∈ ks) (h : (s.ctx (agentOf k)).stopReq.isSome = true) :
    (s.cc, Ev.boundaryStop (agentOf k)) ∈ (ks.foldl stopMember s).agenda := by
  refine foldl_reaches (P := fun u => (s.cc, Ev.boundaryStop (agentOf k)) ∈ u.agenda) (Q := Positions s) hk (.refl s)
    (fun u j hu => hu.trans (positions_stopMember u j)) (fun u j hu => ?_) fun u hu => ?_
  · unfold stopMember
    split
    · exact mem_agendaInsert.mpr (.inr hu)
    · exact hu
  · rw [stopMember_asked (hu.stopReq _ ▸ h), hu.cc]
    exact mem_agendaInsert.mpr (.inl rfl)

theorem taskReady_places (s : State) (tk : Nat) : ∃ t, exec .taskReady (s.given (.taskReady tk)) = .next t ∧ t.mem = s.mem ∧
    ∀ k ∈ (s.task tk).ctxs, (s.ctx (agentOf k)).task = some tk → (s.ctx (agentOf k)).st = .free →
      ((t.ctx (agentOf k)).st = .waiting ∨ (t.ctx (agentOf k)).st = .front) ∧ (t.ctx (agentOf k)).live = (s.ctx (agentOf k)).live ∧
      ((s.ctx (agentOf k)).stopReq.isSome = true → (s.cc, Ev.boundaryStop (agentOf k)) ∈ t.agenda) := by
  have hplaced := positions_membersPlaced (s.given (.taskReady tk)) tk
  have hstops := (Positions.refl (membersPlaced (s.given (.taskReady tk)) tk)).foldl positions_stopMember (s.task tk).ctxs
  refine ⟨_, exec_taskReady s tk, (hplaced.trans hstops).mem, fun k hk htask hfree => ⟨?_, (hplaced.trans hstops).live _, fun hreq => ?_⟩⟩
  · exact hstops.placed _ (placed_membersPlaced (s.given (.taskReady tk)) hk ⟨htask, hfree⟩)
  · have hdue := agenda_stopMembers _ hk ((hplaced.stopReq _).symm ▸ hreq)
    rwa [hplaced.cc] at hdue

/-! ## A task completes (09 R193; 12 R234; 14 R251) -/

/-- A pane that a context holds is reserved, its operations going on (09 R193). -/
def reservePane (a : Agent) (s : State) (q : Nat) : State :=
  if (paneOf s a.core q).owner.map (·.1) = some a.ctxNo then modPane s a.core q (fun p => { ({ reserved := true } : Pane) with ops := p.ops }) else s

/-- A member of a task that has completed is free, and its panes are reserved. -/
def freeMember (s : State) (k : Nat) : State := ((List.range 4).foldl (reservePane (agentOf k)) s).modCtx (agentOf k) freedCtx

/-- A task that has completed gives up its banks of a cluster. -/
def dropTaskBanks (tk : Nat) (s : State) (cl : Nat) : State :=
  if (s.cluster cl).banks.any (fun b => b.2 == 2 * tk + 1) then giveBanks s cl (2 * tk + 1) (BitVec.allOnes 32) else s

/-- The members of a task freed, its banks given up, and the task gone. -/
def taskEnded (s : State) (tk : Nat) : State :=
  ((List.range 64).foldl (dropTaskBanks tk) ((s.task tk).ctxs.foldl freeMember s)).modTask tk (fun t => { t with gone := true })

theorem exec_taskComplete_done {s : State} {tk : Nat} (h : taskDone s tk = true) : exec .taskComplete (s.given (.taskComplete tk)) =
    let u := taskEnded (s.given (.taskComplete tk)) tk
    .next (if (s.task tk).walker then u.at_ u.cc .walkerEntryComplete else u) :=
  (show execTaskComplete _ = _ from evStep_given s (.taskComplete tk) rfl rfl).trans (if_neg (by simp [h]))

theorem exec_taskComplete_not_done {s : State} {tk : Nat} (h : taskDone s tk = false) :
    exec .taskComplete (s.given (.taskComplete tk)) = .next (s.given (.taskComplete tk)) :=
  (show execTaskComplete _ = _ from evStep_given s (.taskComplete tk) rfl rfl).trans (if_pos (by simp [h]))

theorem ctx_of_ctxs {s t : State} (h : t.ctxs = s.ctxs) (a : Agent) : t.ctx a = s.ctx a := by rw [State.ctx, h, State.ctx]

theorem reservePanes_keeps (a : Agent) (s : State) (qs : List Nat) :
    (qs.foldl (reservePane a) s).ctxs = s.ctxs ∧ (qs.foldl (reservePane a) s).mem = s.mem :=
  Prod.ext_iff.mp (foldl_keeps (p := fun u : State => (u.ctxs, u.mem)) (fun u q => by unfold reservePane; split <;> rfl) qs s)

theorem ctx_freeMember (s : State) (j k : Nat) :
    (freeMember s j).ctx (agentOf k) = if j = k then freedCtx (s.ctx (agentOf k)) else s.ctx (agentOf k) := by
  rw [freeMember, ctx_modCtx_eq, key_agentOf, key_agentOf, ctx_of_ctxs (reservePanes_keeps (agentOf j) s _).1]

/-- Freeing a context that is free changes nothing. -/
theorem freedCtx_freedCtx (c : Ctx) : freedCtx (freedCtx c) = freedCtx c := by simp [freedCtx]

theorem ctx_freeMembers (s : State) {ks : List Nat} {k : Nat} (hk : k ∈ ks) :
    (ks.foldl freeMember s).ctx (agentOf k) = freedCtx (s.ctx (agentOf k)) := by
  have hfreed (u : State) (j : Nat) (hu : u.ctx (agentOf k) = freedCtx (s.ctx (agentOf k))) :
      (freeMember u j).ctx (agentOf k) = freedCtx (s.ctx (agentOf k)) := by
    rw [ctx_freeMember, hu, freedCtx_freedCtx, ite_self]
  refine foldl_reaches (P := fun u => u.ctx (agentOf k) = freedCtx (s.ctx (agentOf k)))
    (Q := fun u => u.ctx (agentOf k) = s.ctx (agentOf k) ∨ u.ctx (agentOf k) = freedCtx (s.ctx (agentOf k))) hk (.inl rfl)
    (fun (u : State) j hu => ?_) hfreed fun (u : State) hu => ?_
  · rcases hu with hu | hu
    · rw [ctx_freeMember, hu]
      split
      · exact .inr rfl
      · exact .inl rfl
    · exact .inr (hfreed u j hu)
  · exact hu.elim (fun hu => by rw [ctx_freeMember, if_pos rfl, hu]) (hfreed u k)

theorem mem_freeMembers (s : State) (ks : List Nat) : (ks.foldl freeMember s).mem = s.mem :=
  foldl_keeps (p := State.mem) (fun u k => by rw [freeMember, modCtx_mem, (reservePanes_keeps (agentOf k) u _).2]) ks s

theorem dropAllBanks_keeps (tk : Nat) (s : State) (cls : List Nat) :
    (cls.foldl (dropTaskBanks tk) s).ctxs = s.ctxs ∧ (cls.foldl (dropTaskBanks tk) s).mem = s.mem :=
  Prod.ext_iff.mp (foldl_keeps (p := fun u : State => (u.ctxs, u.mem)) (fun u cl => by unfold dropTaskBanks; split <;> rfl) cls s)

/-- No bank of the cluster is the task's (12 R234). -/
def NoTaskBank (tk : Nat) (c : Cluster) : Prop := ∀ b ∈ c.banks, b.1 < 32 → b.2 ≠ 2 * tk + 1

theorem cluster_giveBanks (s : State) (cl owner : Nat) (m : BitVec 32) (n : Nat) : (giveBanks s cl owner m).cluster n =
    if cl = n then { s.cluster n with banks := (s.cluster n).banks.filter (fun b => !(m.getLsbD b.1 && b.2 == owner)) } else s.cluster n := by
  split
  case isTrue h => subst h; exact cluster_modCluster ..
  case isFalse h => exact cluster_modCluster_ne _ _ h

theorem dropTaskBanks_drops (tk : Nat) (s : State) (cl : Nat) : NoTaskBank tk ((dropTaskBanks tk s cl).cluster cl) := by
  unfold dropTaskBanks
  split
  case isTrue =>
    rw [cluster_giveBanks, if_pos rfl]
    intro b hb hlt heq
    have hkept := (List.mem_filter.mp hb).2
    rw [BitVec.getLsbD_allOnes, decide_eq_true hlt, heq, beq_self_eq_true] at hkept
    exact absurd hkept (by decide)
  case isFalse h =>
    intro b hb _ heq
    exact h (List.any_eq_true.mpr ⟨b, hb, by simp [heq]⟩)

theorem dropTaskBanks_keeps {tk : Nat} {s : State} {n : Nat} (cl : Nat) (h : NoTaskBank tk (s.cluster n)) :
    NoTaskBank tk ((dropTaskBanks tk s cl).cluster n) := by
  unfold dropTaskBanks
  split
  · rw [cluster_giveBanks]
    split
    · exact fun b hb => h b (List.mem_of_mem_filter hb)
    · exact h
  · exact h

/-- What an ended task leaves: its members freed, memory as it was, and no bank of its own. -/
theorem taskEnded_leaves (s : State) (tk : Nat) : ((taskEnded s tk).task tk).gone = true ∧ (taskEnded s tk).mem = s.mem ∧
    (∀ k ∈ (s.task tk).ctxs, (taskEnded s tk).ctx (agentOf k) = freedCtx (s.ctx (agentOf k))) ∧
    ∀ cl, cl < 64 → NoTaskBank tk ((taskEnded s tk).cluster cl) := by
  obtain ⟨hctxs, hmem⟩ := dropAllBanks_keeps tk ((s.task tk).ctxs.foldl freeMember s) (List.range 64)
  unfold taskEnded
  refine ⟨by rw [task_modTask], by rw [modTask_mem, hmem, mem_freeMembers], fun k hk => ?_, fun cl hcl => ?_⟩
  · rw [ctx_modTask, ctx_of_ctxs hctxs, ctx_freeMembers s hk]
  · rw [cluster_modTask_other]
    exact foldl_reaches (P := fun u : State => NoTaskBank tk (u.cluster cl)) (Q := fun _ => True) (List.mem_range.mpr hcl) trivial
      (fun _ _ _ => trivial) (fun _ j hu => dropTaskBanks_keeps j hu) fun u _ => dropTaskBanks_drops tk u cl

theorem taskComplete_frees {s : State} {tk : Nat} (h : taskDone s tk = true) : ∃ t, exec .taskComplete (s.given (.taskComplete tk)) = .next t ∧
    (t.task tk).gone = true ∧ t.mem = s.mem ∧ (∀ k ∈ (s.task tk).ctxs, t.ctx (agentOf k) = freedCtx (s.ctx (agentOf k))) ∧
    ∀ cl, cl < 64 → NoTaskBank tk (t.cluster cl) := by
  have hends := taskEnded_leaves (s.given (.taskComplete tk)) tk
  rw [exec_taskComplete_done h]
  generalize taskEnded (s.given (.taskComplete tk)) tk = u at hends ⊢
  refine ⟨_, rfl, ?_⟩
  split <;> exact hends

/-! ## Budgets and yields (14 R254, R257) -/

theorem budgetExpired_tells {s : State} {tk : Nat} (hst : (s.task tk).started = true) (hex : (s.task tk).expired = false) :
    ∃ t n, exec .budgetExpired (s.given (.budgetExpired tk)) = .next t ∧ (t.task tk).expired = true ∧ t.notices = s.notices ++ [n] ∧ n.cause = 0x75 ∧
      n.dest = .scribe ((s.task tk).core / 8) ∧ n.taskid = (s.task tk).taskid ∧ t.ctxs = s.ctxs ∧ t.mem = s.mem :=
  ⟨_, _, (show execBudgetExpired _ = _ from evStep_given s (.budgetExpired tk) rfl rfl).trans (if_neg (by simp [hst, hex])),
    by rw [task_notify_other, task_modTask], rfl, rfl, rfl, rfl, rfl, rfl⟩

theorem yieldOverrun_tells {s : State} {core k : Nat} (hcore : core < 512) (hk : k < 8) (hst : (s.ctx (.ctx core k)).st = .front)
    (hover : (s.ctx (.ctx core k)).overrun = false) (hrun : (s.ctx (.ctx core k)).runFrom + (s.core core).yq ≤ s.cc) :
    ∃ t n, exec .yieldOverrun (s.given (.yieldOverrun core k)) = .next t ∧ t.ctx (.ctx core k) = { s.ctx (.ctx core k) with overrun := true } ∧
      t.notices = s.notices ++ [n] ∧ n.cause = 0x77 ∧ n.dest = .scribe (core / 8) ∧ t.mem = s.mem :=
  have hok : (Ev.yieldOverrun core k).ok = true := by simp [Ev.ok, Ev.unitOk, Ev.hdrOk, Ev.message, hcore, hk]
  ⟨_, _, (show execYieldOverrun _ = _ from evStep_given s (.yieldOverrun core k) hok rfl).trans
    ((if_neg (by simp [hst, hover])).trans (if_neg (Nat.not_lt.mpr hrun))), by rw [event, ctx_notify, ctx_modCtx]; rfl, rfl, rfl, rfl, rfl⟩

/-! ## Scribes (05 R99; 14 R249) -/

/-- The address in a SCRIBE word: its bits [56:2]. -/
theorem scribeAddress_eq (x : BitVec 64) : BitVec.ofNat 64 (wbits x 56 2 * 4) = x &&& 0x1FFFFFFFFFFFFFC := by
  have hmask : (0x1FFFFFFFFFFFFFC : BitVec 64) = BitVec.ofNat 64 ((2 ^ 55 - 1) * 2 ^ 2) := rfl
  refine BitVec.eq_of_getLsbD_eq fun i hi => ?_
  rw [BitVec.getLsbD_and, hmask, BitVec.getLsbD_ofNat, BitVec.getLsbD_ofNat, show wbits x 56 2 * 4 = x.toNat / 2 ^ 2 % 2 ^ 55 * 2 ^ 2 from rfl,
    Nat.testBit_mul_two_pow, Nat.testBit_mul_two_pow, Nat.testBit_mod_two_pow, Nat.testBit_div_two_pow, Nat.testBit_two_pow_sub_one]
  by_cases h2 : 2 ≤ i
  · simp [h2, hi, Nat.sub_add_cancel h2, BitVec.getLsbD, Bool.and_comm]
  · simp [h2]

theorem exec_scribe {s : State} {cl : Nat} {x : BitVec 64} (hcl : cl < 64) (hst : (s.ctx (.scribe cl)).st ≠ .front) (hx : scribeWordBad x = false) :
    exec .scribe (s.given (.scribe cl x)) = .next (writeScribe (s.given (.scribe cl x)) cl x) :=
  have hok : (Ev.scribe cl x).ok = true := by simp [Ev.ok, Ev.unitOk, Ev.hdrOk, Ev.message, hcl]
  (show execScribe _ = _ from evStep_given s (.scribe cl x) hok rfl).trans (if_neg (by simp [hst, hx]))

/-- The record of a scribe that starts: it runs at the address from the second cc on, its counters at 0 (05 R99; 14 R249). -/
def startedScribe (cc : Nat) (x : BitVec 64) (c : Ctx) : Ctx :=
  let live := { c.live with c := { c.live.c with pc := x &&& 0x1FFFFFFFFFFFFFC } }
  { c with st := .front, wakeAt := cc + 2, empty := 0, post := none, icyc := 0, frz := 0, live := live, ckpt := live,
           ckBund := (x &&& 0x1FFFFFFFFFFFFFC).setWidth 57 }

theorem writeScribe_run (s : State) (cl : Nat) {x : BitVec 64} (hx : x.getLsbD 0 = true) : writeScribe s cl x =
    (s.modCluster cl (fun c => { c with scribeReg := x })).modCtx (.scribe cl) (startedScribe s.cc x) := by
  unfold writeScribe
  rw [scribeAddress_eq, hx]
  rfl

theorem writeScribe_stop (s : State) (cl : Nat) {x : BitVec 64} (hx : x.getLsbD 0 = false) :
    writeScribe s cl x = s.modCluster cl (fun c => { c with scribeReg := x }) := by
  unfold writeScribe
  rw [hx]
  rfl

theorem scribe_writes {s : State} {cl : Nat} {x : BitVec 64} (hcl : cl < 64) (hst : (s.ctx (.scribe cl)).st ≠ .front) (hx : scribeWordBad x = false) :
    ∃ t, exec .scribe (s.given (.scribe cl x)) = .next t ∧ (t.cluster cl).scribeReg = x ∧ t.mem = s.mem ∧
      (x.getLsbD 0 = true → t.ctx (.scribe cl) = startedScribe s.cc x (s.ctx (.scribe cl))) ∧ (x.getLsbD 0 = false → t.ctxs = s.ctxs) := by
  refine ⟨_, exec_scribe hcl hst hx, ?_⟩
  cases hrun : x.getLsbD 0 with
  | true =>
    rw [writeScribe_run _ _ hrun]
    exact ⟨by rw [cluster_modCtx_other, cluster_modCluster], rfl, fun _ => ctx_modCtx .., nofun⟩
  | false =>
    rw [writeScribe_stop _ _ hrun]
    exact ⟨by rw [cluster_modCluster], rfl, nofun, fun _ => rfl⟩

/-! ## The claims -/

/-- Settles O50: each event's outcome is its operation on the members, one after another, and no member's turn undoes another's. -/
theorem taskEventResults : Obligations.TaskEventResults := by
  refine fun s tk => ⟨taskReady_places s tk, fun hdone => ?_, exec_taskComplete_not_done, budgetExpired_tells,
    fun core k hcore hk hst hover hrun => ?_, fun cl x hcl hst hx => ?_⟩
  · obtain ⟨t, he, hgone, hmem, hctx, hbanks⟩ := taskComplete_frees hdone
    exact ⟨t, he, hgone, hmem, fun k hk => by rw [hctx k hk]; exact ⟨rfl, rfl, rfl, rfl, rfl⟩, hbanks⟩
  · obtain ⟨t, n, he, hctx, hnotices, hcause, hdest, hmem⟩ := yieldOverrun_tells hcore hk hst hover hrun
    exact ⟨t, n, he, by rw [hctx], by rw [hctx]; exact hst, by rw [hctx], hnotices, hcause, hdest, hmem⟩
  · obtain ⟨t, he, hreg, hmem, hruns, hstays⟩ := scribe_writes hcl hst hx
    exact ⟨t, he, hreg, hmem, fun hrun => by rw [hruns hrun]; exact ⟨rfl, rfl, rfl, rfl, rfl, rfl⟩, hstays⟩

end Sys2Proof.Machine
end

section
/-!
SUPPORT. What a rollback, a stop and a trap leave of an agent's record, of the dies and of the notices (06 R118, R121; 22 R366, R367).
CERTIFICATES. Taking a trap and returning from one (06 R121; 15 R291; 22 R366, R367, R371, R373; 23 R394): O15.
-/

namespace Sys2Proof.Machine

open State

/-! ## What the parts of a rollback leave alone -/

/-- The agents' records, the dies and the notices. -/
def State.ledger (s : State) := (s.ctxs, s.dies, s.notices)

theorem die_of_dies {s t : State} (h : t.dies = s.dies) (n : Nat) : t.die n = s.die n := by rw [State.die, h, State.die]

theorem ledger_unreserve (s : State) (e : Effect) : (s.unreserve e).ledger = s.ledger := by cases e <;> rfl

theorem ledger_poisonTile (s : State) (a : Agent) (t : Nat) : (s.poisonTile a t).ledger = s.ledger := by
  unfold poisonTile
  split
  · split <;> rfl
  · rfl

theorem ledger_resyncHeads (s : State) (a : Agent) : (s.resyncHeads a).ledger = s.ledger := by
  unfold resyncHeads
  exact foldl_keeps (p := State.ledger) (fun _ _ => by rfl) ..

theorem ledger_setWell (s : State) (key : Nat) (w : WellBind) : (s.setWell key w).ledger = s.ledger := by
  unfold setWell
  split <;> rfl

theorem ledger_resyncWells (s : State) (a : Agent) : (s.resyncWells a).ledger = s.ledger :=
  (foldl_keeps (p := State.ledger) (fun _ _ => ledger_setWell ..) ..).trans (foldl_keeps (p := State.ledger) (fun _ _ => ledger_setWell ..) ..)

/-- A changed record depends on the state through these alone. -/
theorem ledger_modCtx {s t : State} (h : t.ledger = s.ledger) (a : Agent) (f : Ctx → Ctx) : (t.modCtx a f).ledger = (s.modCtx a f).ledger := by
  simp only [ledger, Prod.mk.injEq] at h ⊢
  obtain ⟨hctxs, hdies, hnotices⟩ := h
  exact ⟨by rw [modCtx_ctxs, modCtx_ctxs, ctx_of_ctxs hctxs, hctxs], hdies, hnotices⟩

theorem ledger_modDie {s t : State} (h : t.ledger = s.ledger) (n : Nat) (f : Die → Die) : (t.modDie n f).ledger = (s.modDie n f).ledger := by
  simp only [ledger, Prod.mk.injEq] at h ⊢
  obtain ⟨hctxs, hdies, hnotices⟩ := h
  exact ⟨hctxs, by rw [modDie_dies, modDie_dies, hdies], hnotices⟩

/-! ## Rollback (06 R121; 23 R394) -/

/-- The record of an agent that has rolled back to its checkpoint. -/
def rolledBack (c : Ctx) : Ctx :=
  { c with live := c.ckpt, stage := c.ckpt.c, flight := rolledFlight c.flight, held := [], tiles := 0, tckpt := c.ckBund
           empty := 0, wait := none, waits := [] }

/-- An agent's record rolled back, and a command processor's HEAD at its next bundle again. -/
def State.rewound (s : State) (a : Agent) : State :=
  match a with
  | .cp d => (s.modCtx a rolledBack).modDie d (fun x => { x with head := (s.ctx a).ckpt.c.pc })
  | _ => s.modCtx a rolledBack

/-- Beside that, a rollback gives back reservations, poisons tiles, and makes bindings agree with the registers. -/
theorem ledger_rollback (s : State) (a : Agent) : (s.rollback a).ledger = (s.rewound a).ledger := by
  unfold rollback
  extract_lets c s1 s2 s3 s4
  have hs1 : s1.ledger = s.ledger := foldl_keeps (p := State.ledger) (fun _ _ => ledger_unreserve ..) ..
  have hs2 : s2.ledger = s.ledger :=
    (foldl_keeps (p := State.ledger) (fun u t => by split; exacts [ledger_poisonTile u a t, rfl]) ..).trans hs1
  have hs3 : s3.ledger = (s.modCtx a rolledBack).ledger := ledger_modCtx hs2 a rolledBack
  rw [ledger_resyncWells, ledger_resyncHeads]
  cases a with
  | cp d => exact ledger_modDie hs3 d _
  | _ => exact hs3

theorem ctx_rollback (s : State) (a : Agent) : (s.rollback a).ctx a = rolledBack (s.ctx a) := by
  rw [ctx_of_ctxs (congrArg Prod.fst (ledger_rollback s a))]
  cases a with
  | cp d => exact (ctx_modDie ..).trans (ctx_modCtx s _ rolledBack)
  | _ => exact ctx_modCtx s _ rolledBack

theorem notices_rollback (s : State) (a : Agent) : (s.rollback a).notices = s.notices := by
  have h : (s.rollback a).notices = (s.rewound a).notices := congrArg (fun l => l.2.2) (ledger_rollback s a)
  rw [h]
  cases a <;> rfl

/-- A command processor's HEAD is its next bundle again. -/
theorem head_rollback (s : State) (d : Nat) : ((s.rollback (.cp d)).die d).head = (s.ctx (.cp d)).ckpt.c.pc := by
  rw [die_of_dies (congrArg (fun l => l.2.1) (ledger_rollback s (.cp d))), rewound, die_modDie]

/-! ## Stops (14 R258, R264; 22 R366, R370) -/

theorem notices_vacate (s : State) (a : Agent) : (s.vacate a).notices = s.notices := by cases a <;> rfl

theorem head_vacate (s : State) (d : Nat) : ((s.vacate (.cp d)).die d).head = (s.die d).head := by
  rw [vacate, die_modDie]

/-- A core context holds no front position. -/
def OffFront (s : State) (a : Agent) : Prop := (s.core a.core).posA ≠ some a.ctxNo ∧ (s.core a.core).posB ≠ some a.ctxNo

theorem offFront_vacate (s : State) {a : Agent} (h : a.onCore = true) : OffFront (s.vacate a) a := by
  cases a with
  | ctx c k =>
    unfold OffFront vacate
    rw [show (Agent.ctx c k).core = c from rfl, core_modCore]
    dsimp only
    constructor <;> split <;> simp_all [Agent.ctxNo]
  | _ => cases h

/-- The record of an agent that a cause has stopped. -/
def stoppedWith (t : TrapRec) (c : Ctx) : Ctx :=
  { c with tcause := BitVec.ofNat 7 t.cause, tbund := t.bund, tdet := t.det, st := .stopped, step := false
           far := c.far.filter (fun f => f.use_ != .slot) }

/-- The notice about a stop: of the cause itself, or, of a boundary stop, that the target stopped for it (22 R370, R371). -/
def stopNotice (s : State) (a : Agent) (t : TrapRec) (kind : Nat) : Notice :=
  { s.noticeOf a (if kind = 2 then 0x70 else t.cause) kind (if kind = 2 then stopDet a t.cause else t.det) with
    bund := (s.ctx a).tbund.setWidth 64, ckpt := (s.ctx a).tckpt.setWidth 64 }

/-- A stop marks the agent's record, takes its front position, and raises one notice. -/
theorem stopWith_eq (s : State) (a : Agent) (t : TrapRec) (kind : Nat) : s.stopWith a t kind =
    ((s.modCtx a (stoppedWith t)).vacate a).notify (stopNotice ((s.modCtx a (stoppedWith t)).vacate a) a t kind) := rfl

/-! ## Traps (06 R121; 22 R366, R367) -/

/-- The record of an agent that has taken a trap. -/
def trapped (t : TrapRec) (c : Ctx) : Ctx := stoppedWith t { rolledBack c with stopReq := none }

/-- The state of a trap before its notices: the agent rolled back and stopped, and off its front position. -/
def State.trappedAt (s : State) (a : Agent) (t : TrapRec) : State :=
  (((s.rollback a).modCtx a (fun c => { c with stopReq := none })).modCtx a (stoppedWith t)).vacate a

theorem ctx_trappedAt (s : State) (a : Agent) (t : TrapRec) : (s.trappedAt a t).ctx a = trapped t (s.ctx a) := by
  rw [trappedAt, ctx_vacate, ctx_modCtx, ctx_modCtx, ctx_rollback, trapped]

theorem notices_trappedAt (s : State) (a : Agent) (t : TrapRec) : (s.trappedAt a t).notices = s.notices := by
  rw [trappedAt, notices_vacate, modCtx_notices, modCtx_notices, notices_rollback]

theorem head_trappedAt (s : State) (d : Nat) (t : TrapRec) : ((s.trappedAt (.cp d) t).die d).head = (s.ctx (.cp d)).ckpt.c.pc := by
  rw [trappedAt, head_vacate, die_modCtx_other, die_modCtx_other, head_rollback]

/-- The notice of a trap. -/
def trapNotice (s : State) (a : Agent) (t : TrapRec) : Notice := stopNotice s a t (if t.dfr then 1 else 0)

theorem trapNotice_kind (t : TrapRec) : ¬(if t.dfr then 1 else 0) = 2 := by split <;> decide

/-- The notice of a stop request that a trap satisfies (22 R367). -/
def satisfiedNotice (s : State) (a : Agent) (cause : Nat) : Notice :=
  { s.noticeOf a 0x70 2 (stopDet a cause) with bund := (s.ctx a).tbund.setWidth 64, ckpt := (s.ctx a).tckpt.setWidth 64 }

namespace State

/-- Raise notices in order. -/
def notifyAll (s : State) (ns : List Notice) : State := { s with notices := s.notices ++ ns }

@[simp] theorem notifyAll_ctx (s : State) (ns : List Notice) (a : Agent) : (s.notifyAll ns).ctx a = s.ctx a := rfl
@[simp] theorem notifyAll_core (s : State) (ns : List Notice) (n : Nat) : (s.notifyAll ns).core n = s.core n := rfl
@[simp] theorem notifyAll_die (s : State) (ns : List Notice) (n : Nat) : (s.notifyAll ns).die n = s.die n := rfl
@[simp] theorem notifyAll_notices (s : State) (ns : List Notice) : (s.notifyAll ns).notices = s.notices ++ ns := rfl

theorem notifyAll_notify (s : State) (ns : List Notice) (n : Notice) : (s.notifyAll ns).notify n = s.notifyAll (ns ++ [n]) :=
  congrArg (fun l => { s with notices := l }) (List.append_assoc ..)

end State

/-- The notices of a trap: its own, and behind it that of a stop request that it satisfies (22 R367, R371). -/
def trapNotices (s : State) (a : Agent) (t : TrapRec) : List Notice :=
  trapNotice (s.trappedAt a t) a t :: ((s.ctx a).stopReq.map (fun req => satisfiedNotice (s.trappedAt a t) a req.1)).toList

theorem takeTrap_eq (s : State) (a : Agent) (t : TrapRec) : s.takeTrap a t = (s.trappedAt a t).notifyAll (trapNotices s a t) := by
  have hreq : ((s.rollback a).ctx a).stopReq = (s.ctx a).stopReq := by rw [ctx_rollback, rolledBack]
  rw [takeTrap, hreq, trapNotices]
  cases (s.ctx a).stopReq with
  | none => rfl
  | some req => exact notifyAll_notify (s.trappedAt a t) [_] (satisfiedNotice (s.trappedAt a t) a req.1)

theorem ctx_takeTrap (s : State) (a : Agent) (t : TrapRec) : (s.takeTrap a t).ctx a = trapped t (s.ctx a) := by
  rw [takeTrap_eq, notifyAll_ctx, ctx_trappedAt]

theorem notices_takeTrap (s : State) (a : Agent) (t : TrapRec) : (s.takeTrap a t).notices = s.notices ++ trapNotices s a t := by
  rw [takeTrap_eq, notifyAll_notices, notices_trappedAt]

theorem offFront_takeTrap (s : State) {a : Agent} (t : TrapRec) (h : a.onCore = true) : OffFront (s.takeTrap a t) a := by
  rw [takeTrap_eq, OffFront, notifyAll_core]
  exact offFront_vacate _ h

theorem head_takeTrap (s : State) (d : Nat) (t : TrapRec) : ((s.takeTrap (.cp d) t).die d).head = (s.ctx (.cp d)).ckpt.c.pc := by
  rw [takeTrap_eq, notifyAll_die, head_trappedAt]

/-- What the notice of a trap says: its cause, bundle and details, to the agent's own place for notices. -/
theorem trapNotice_says (s : State) (a : Agent) (t : TrapRec) :
    let n := trapNotice (s.trappedAt a t) a t
    n.cause = t.cause ∧ n.bund = t.bund.setWidth 64 ∧ n.det = t.det ∧ n.dest = noticeDest a := by
  rw [trapNotice, stopNotice, if_neg (trapNotice_kind t), if_neg (trapNotice_kind t), ctx_trappedAt]
  exact ⟨rfl, rfl, rfl, rfl⟩

/-- What the notice of a satisfied stop request says: the request's cause, and the trap's bundle and checkpoint. -/
theorem satisfiedNotice_says (s : State) (a : Agent) (t : TrapRec) (cause : Nat) :
    let n := satisfiedNotice (s.trappedAt a t) a cause
    n.cause = 0x70 ∧ n.kind = 2 ∧ n.det.d2 = BitVec.ofNat 64 cause ∧ n.bund = t.bund.setWidth 64 ∧ n.ckpt = (s.ctx a).ckBund.setWidth 64 := by
  rw [satisfiedNotice, ctx_trappedAt]
  exact ⟨rfl, rfl, rfl, rfl, rfl⟩

theorem trapEntry : Claims.TrapEntry := by
  intro s a t u c
  have hc : c = trapped t (s.ctx a) := ctx_takeTrap s a t
  have hnotices : u.notices = s.notices ++ trapNotices s a t := notices_takeTrap s a t
  obtain ⟨hcause, hbund, hdet, hdest⟩ := trapNotice_says s a t
  clear_value c
  subst hc
  refine ⟨rfl, rfl, rfl, rfl, rfl, rfl, rfl, rfl, rfl, rfl, rfl, offFront_takeTrap s t, fun hreq => ?_, fun req hreq => ?_, ?_⟩
  · rw [trapNotices, hreq] at hnotices
    exact ⟨_, hnotices, hcause, hbund, hdet, hdest⟩
  · rw [trapNotices, hreq] at hnotices
    exact ⟨_, _, hnotices, hcause, satisfiedNotice_says s a t req.1⟩
  · rintro d rfl
    exact head_takeTrap s d t

/-! ## Returning from a trap (15 R291; 22 R373) -/

theorem targetOf_onCore {s : State} {w : Word} {top : Nat} {t : Agent} (h : targetOf s w top = some t) : t.onCore = true := by
  unfold targetOf at h
  split at h
  · cases h
  · obtain ⟨cl, -, rfl⟩ := Option.map_eq_some_iff.mp h
    rfl

theorem noted_targetOf (s : State) (i : Instr) (w : Word) (top : Nat) : targetOf (s.noted i) w top = targetOf s w top := rfl

/-- An operation on a target context acts on the context that the word names. -/
theorem onTarget_of {s : State} {w : Word} {t : Agent} (h : targetOf s w = some t) (k : Agent → Res) : onTarget s w k = k t := by
  rw [onTarget, h]

/-- A TRET that issues looks at the state of its target. -/
theorem exec_tret {s : State} {h : Hdr} {a : BitVec 5} {t : Agent} (ht : targetOf s (s.rs a) = some t) (hi : Issues (.tret h a) h s) :
    exec (.tret h a) s = if (s.ctx t).st ≠ .stopped then wrongState (s.noted (.tret h a)) (s.rs a) else .next ((s.noted (.tret h a)).resume t) := by
  show execTret h a s = _
  rw [execTret, slotOp_issues hi, noted_rs, onTarget_of ((noted_targetOf ..).trans ht), noted_ctx]

/-- The record of a core context that waits for a front position again. -/
def waitingAgain (cc : Nat) (c : Ctx) : Ctx := { c with st := .waiting, skip := 0, waitFrom := cc, savedAt := none }

theorem ctx_resume (s : State) {a : Agent} (h : a.onCore = true) : (s.resume a).ctx a = waitingAgain s.cc (s.ctx a) := by
  rw [resume, ctx_modCtx, h]
  rfl

theorem trapReturn : Claims.TrapReturn := fun s h a t ht hi => by
  rw [exec_tret ht hi]
  refine ⟨fun hst => ⟨_, if_neg (not_not.mpr hst), ?_⟩, fun hst => if_pos hst⟩
  rw [ctx_resume _ (targetOf_onCore ht), noted_ctx]
  exact ⟨rfl, rfl, rfl, rfl, rfl, (modCtx_mem ..).trans (noted_mem ..)⟩

/-- Settles O15: a trap leaves the record that `trapped` says, whatever the rollback does to bindings, tiles and reservations; TRET resumes a stopped target. -/
theorem trapEntryAndReturn : Obligations.TrapEntryAndReturn := ⟨trapEntry, trapReturn⟩

end Sys2Proof.Machine
end

section
/-!
SUPPORT. Vector registers built and read lane by lane (03 R56), and a slot with one vector result.
-/

namespace Sys2Proof.Machine

open State

/-! ## Lanes of a register that is given lane by lane -/

/-- A field of a bit vector that is given as a number. -/
theorem toNat_extractLsb'_ofNat {w k n : Nat} (h : k + n ≤ w) (x : Nat) :
    ((BitVec.ofNat w x).extractLsb' k n).toNat = x / 2 ^ k % 2 ^ n := by
  obtain ⟨r, rfl⟩ := Nat.exists_eq_add_of_le h
  rw [BitVec.extractLsb'_toNat, BitVec.toNat_ofNat, Nat.shiftRight_eq_div_pow, Nat.add_assoc, Nat.pow_add, Nat.mod_mul_right_div_self,
    Nat.mod_mod_of_dvd _ (Nat.pow_dvd_pow 2 (Nat.le_add_right n r))]

theorem lane_ofLanes (f : Nat → BitVec 32) {k : Nat} (hk : k < 128) : lane (ofLanes f) k = f k :=
  BitVec.eq_of_toNat_eq <| (toNat_extractLsb'_ofNat (by omega) _).trans (packNat_field (fun i _ => (f i).isLt) hk)

theorem lane64_ofLanes64 (f : Nat → BitVec 64) {k : Nat} (hk : k < 64) : lane64 (ofLanes64 f) k = f k :=
  BitVec.eq_of_toNat_eq <| (toNat_extractLsb'_ofNat (by omega) _).trans (packNat_field (fun i _ => (f i).isLt) hk)

/-- Four bytes of a lane in front of further bytes. -/
theorem ofBytes_lane_append (w : BitVec 32) (r : List Byte) : ofBytes (toBytes 4 w.toNat ++ r) = w.toNat + 2 ^ 32 * ofBytes r := by
  have := w.isLt
  simp only [toBytes, List.cons_append, List.nil_append, ofBytes, BitVec.toNat_ofNat]
  omega

/-- A lane's place in the bytes of a list of lanes. -/
theorem ofBytes_lanes (l : List (BitVec 32)) (k : Nat) :
    ofBytes (l.flatMap (fun w => toBytes 4 w.toNat)) / 2 ^ (32 * k) % 2 ^ 32 = (l.getD k 0).toNat := by
  induction l generalizing k with
  | nil => simp [ofBytes]
  | cons w l ih =>
    rw [List.flatMap_cons, ofBytes_lane_append]
    cases k with
    | zero => simpa [Nat.mod_eq_of_lt] using w.isLt
    | succ k =>
      rw [List.getD_cons_succ, ← ih, Nat.mul_succ, Nat.add_comm (32 * k), Nat.pow_add, ← Nat.div_div_eq_div_mul,
        Nat.add_mul_div_left _ _ (Nat.two_pow_pos 32), Nat.div_eq_of_lt w.isLt, Nat.zero_add]

theorem lane_ofLaneList (l : List (BitVec 32)) {k : Nat} (hk : k < 128) : lane (ofLaneList l) k = l.getD k 0 :=
  BitVec.eq_of_toNat_eq <| (toNat_extractLsb'_ofNat (by omega) _).trans (ofBytes_lanes l k)

/-- A lane of a register whose lanes are listed one after another. -/
theorem lane_ofLaneList_range (f : Nat → BitVec 32) {k : Nat} (hk : k < 128) : lane (ofLaneList ((List.range 128).map f)) k = f k := by
  rw [lane_ofLaneList _ hk, List.getD_eq_getElem?_getD, List.getElem?_map, List.getElem?_range hk]
  rfl

/-! ## A slot with one vector result -/

/-- A vector slot that issues leaves its function's register. -/
theorem vecOp_leaves {i : Instr} {h : Hdr} {s : State} {L : Nat} {d : BitVec 5} {f : State → VReg} {r : VReg}
    (hr : ∀ w, f { s with word := w } = r) (hi : Issues i h s) :
    vecOp i h L d s f = .next (s.leaves i L [s.wV d r]) :=
  slotOp_leaves (fun w => by rw [hr w]; rfl) hi

end Sys2Proof.Machine
end

section
/-!
SUPPORT. Exact values as rational numbers (07 R129), and what one rounding to nearest even into FP32 leaves of the distance.
-/

namespace Sys2Proof.Machine

/-! ## Exact values -/

/-- The rational number that a finite value is. -/
def FVal.toRat : FVal → ℚ
  | .fin a m e => finRat a m e
  | _ => 0

theorem exists_fin_of_isFin {x : FVal} (h : x.isFin = true) : ∃ a m e, x = .fin a m e := by
  cases x with
  | nan => cases h
  | inf a => cases h
  | fin a m e => exact ⟨a, m, e, rfl⟩

theorem finRat_neg (a : Bool) (m : Nat) (e : Int) : finRat (!a) m e = -finRat a m e := by cases a <;> simp [finRat]

theorem finRat_false (m : Nat) (e : Int) : finRat false m e = m * 2 ^ e := by simp [finRat]

theorem abs_finRat (a : Bool) (m : Nat) (e : Int) : |finRat a m e| = m * 2 ^ e := by
  have h : (0 : ℚ) ≤ m * 2 ^ e := by positivity
  cases a <;> simp [finRat, abs_of_nonneg h]

theorem abs_finRat_sub (a : Bool) (m n : Nat) (e k : Int) : |finRat a m e - finRat a n k| = |(m : ℚ) * 2 ^ e - n * 2 ^ k| := by
  cases a
  · simp [finRat]
  · rw [abs_sub_comm]
    simp [finRat, neg_add_eq_sub]

theorem isFin_ofScaled (x e : Int) (z : Bool) : (FVal.ofScaled x e z).isFin = true := by
  unfold FVal.ofScaled
  split <;> rfl

theorem toRat_ofScaled (x e : Int) (z : Bool) : (FVal.ofScaled x e z).toRat = x * 2 ^ e := by
  unfold FVal.ofScaled
  split
  next h => simp [FVal.toRat, finRat, h]
  next =>
    rcases lt_or_ge x 0 with h | h
    · simp [FVal.toRat, finRat, h, Nat.cast_natAbs, abs_of_neg]
    · simp [FVal.toRat, finRat, not_lt.mpr h, Nat.cast_natAbs, abs_of_nonneg h]

theorem toRat_ofInt (x : Int) : (FVal.ofInt x).toRat = x := by
  rcases lt_or_ge x 0 with h | h
  · simp [FVal.ofInt, FVal.toRat, finRat, h, Nat.cast_natAbs, abs_of_neg]
  · simp [FVal.ofInt, FVal.toRat, finRat, not_lt.mpr h, Nat.cast_natAbs, abs_of_nonneg h]

/-- The sum of finite values is exact (07 R129). -/
theorem toRat_add {x y : FVal} (dn : Bool) (hx : x.isFin = true) (hy : y.isFin = true) : (FVal.add dn x y).toRat = x.toRat + y.toRat := by
  obtain ⟨a, m, e, rfl⟩ := exists_fin_of_isFin hx
  obtain ⟨b, n, k, rfl⟩ := exists_fin_of_isFin hy
  have hl : (2 : ℚ) ^ min e k ≠ 0 := zpow_ne_zero _ two_ne_zero
  rw [FVal.add, toRat_ofScaled, Int.cast_add, scaled_eq a m (min_le_left e k), scaled_eq b n (min_le_right e k), add_mul,
    div_mul_cancel₀ _ hl, div_mul_cancel₀ _ hl]
  rfl

theorem isFin_add {x y : FVal} (dn : Bool) (hx : x.isFin = true) (hy : y.isFin = true) : (FVal.add dn x y).isFin = true := by
  obtain ⟨a, m, e, rfl⟩ := exists_fin_of_isFin hx
  obtain ⟨b, n, k, rfl⟩ := exists_fin_of_isFin hy
  exact isFin_ofScaled ..

theorem isFin_neg (x : FVal) : x.neg.isFin = x.isFin := by cases x <;> rfl

theorem toRat_neg (x : FVal) : x.neg.toRat = -x.toRat := by
  cases x with
  | nan => exact neg_zero.symm
  | inf a => exact neg_zero.symm
  | fin a m e => exact finRat_neg a m e

theorem isFin_abs (x : FVal) : x.abs.isFin = x.isFin := by cases x <;> rfl

theorem toRat_abs (x : FVal) : x.abs.toRat = |x.toRat| := by
  cases x with
  | nan => exact abs_zero.symm
  | inf a => exact abs_zero.symm
  | fin a m e => exact (finRat_false m e).trans (abs_finRat a m e).symm

theorem lt_iff_toRat {x y : FVal} (hx : x.isFin = true) (hy : y.isFin = true) : x.lt y = true ↔ x.toRat < y.toRat := by
  obtain ⟨a, m, e, rfl⟩ := exists_fin_of_isFin hx
  obtain ⟨b, n, k, rfl⟩ := exists_fin_of_isFin hy
  exact lt_fin_iff ..

/-- A distance that keeps a bound is not above it. -/
theorem bound_not_lt_distance {b r y : FVal} (hb : b.isFin = true) (hr : r.isFin = true) (hy : y.isFin = true)
    (h : |r.toRat - y.toRat| ≤ b.toRat) : FVal.lt b (FVal.sub false r y).abs = false := by
  have hy' : y.neg.isFin = true := (isFin_neg y).trans hy
  rw [FVal.sub, ← Bool.not_eq_true, lt_iff_toRat hb ((isFin_abs _).trans (isFin_add false hr hy')), toRat_abs, toRat_add false hr hy', toRat_neg,
    ← sub_eq_add_neg]
  exact not_lt.mpr h

/-- The larger of two finite values is finite, and not below the first. -/
theorem max_ge {x y : FVal} (hx : x.isFin = true) (hy : y.isFin = true) : (FVal.max x y).isFin = true ∧ x.toRat ≤ (FVal.max x y).toRat := by
  obtain ⟨a, m, e, rfl⟩ := exists_fin_of_isFin hx
  obtain ⟨b, n, k, rfl⟩ := exists_fin_of_isFin hy
  unfold FVal.max
  simp only [FVal.isNan, Bool.or_false, Bool.false_eq_true, if_false]
  split
  next h =>
    refine ⟨rfl, ?_⟩
    rcases Bool.or_eq_true _ _ |>.mp h with h | h
    · exact ((lt_fin_iff ..).mp h).le
    · rw [Bool.and_eq_true, Bool.and_eq_true] at h
      exact ((eq_fin_iff ..).mp h.1.1).le
  next => exact ⟨rfl, le_rfl⟩

/-! ## Magnitudes and their quantum -/

theorem log2Of_le {m : Nat} (hm : m ≠ 0) (e : Int) : (2 : ℚ) ^ log2Of m e ≤ m * 2 ^ e := by
  rw [log2Of, zpow_add₀ two_ne_zero, zpow_natCast]
  gcongr
  exact_mod_cast Nat.log2_self_le hm

theorem lt_log2Of_succ (m : Nat) (e : Int) : (m : ℚ) * 2 ^ e < 2 ^ (log2Of m e + 1) := by
  rw [log2Of, add_right_comm, zpow_add₀ two_ne_zero, ← Nat.cast_succ, zpow_natCast]
  gcongr
  exact_mod_cast Nat.lt_log2_self

/-- Rounding to nearest goes away from zero where the excess is at least half a quantum. -/
theorem roundsAway_ne (neg : Bool) (lo d D rb : Nat) :
    if roundsAway .ne neg lo d D rb then 2 ^ d ≤ 2 * D else 2 * D ≤ 2 ^ d := by
  unfold roundsAway
  by_cases hD : D = 0
  · simp [hD]
  · rw [if_neg hD]
    by_cases h : 2 ^ d < 2 * D
    · simp [h, h.le]
    · simp only [h, decide_false, Bool.false_or]
      split
      next ht =>
        rw [Bool.and_eq_true, decide_eq_true_iff] at ht
        exact ht.1.ge
      next => exact not_lt.mp h

/-- Rounding to nearest moves a magnitude by at most half a quantum (07 R129). -/
theorem roundMag_ne_error (rb : Nat) (neg : Bool) (m : Nat) (e q : Int) : |(roundMag .ne rb neg m e q : ℚ) - m * 2 ^ (e - q)| ≤ 1 / 2 := by
  unfold roundMag
  split
  next h =>
    rw [Nat.cast_mul, Nat.cast_pow, Nat.cast_ofNat, ← zpow_natCast, Int.toNat_of_nonneg (by omega), sub_self, abs_zero]
    norm_num
  next h =>
    obtain ⟨d, hd⟩ : ∃ d : Nat, q - e = d := ⟨(q - e).toNat, by omega⟩
    have hpos : (0 : ℚ) < 2 ^ d := by positivity
    have hval : (m : ℚ) * 2 ^ (e - q) = (m / 2 ^ d : Nat) + (m % 2 ^ d : Nat) / 2 ^ d := by
      have hdiv : (m : ℚ) = 2 ^ d * (m / 2 ^ d : Nat) + (m % 2 ^ d : Nat) := by exact_mod_cast (Nat.div_add_mod m (2 ^ d)).symm
      rw [← neg_sub, hd, zpow_neg, zpow_natCast, ← div_eq_mul_inv, div_eq_iff hpos.ne', add_mul, div_mul_cancel₀ _ hpos.ne', mul_comm _ (2 ^ d : ℚ)]
      exact hdiv
    have hlt : ((m % 2 ^ d : Nat) : ℚ) < 2 ^ d := by exact_mod_cast Nat.mod_lt m (Nat.two_pow_pos d)
    have haway := roundsAway_ne neg (m / 2 ^ d) d (m % 2 ^ d) rb
    simp only [hd, Int.toNat_natCast, hval]
    split at haway
    next ht =>
      have haway : (2 : ℚ) ^ d ≤ 2 * (m % 2 ^ d : Nat) := by exact_mod_cast haway
      have h1 : 1 / 2 ≤ ((m % 2 ^ d : Nat) : ℚ) / 2 ^ d := by rw [le_div_iff₀ hpos]; linarith
      have h2 : ((m % 2 ^ d : Nat) : ℚ) / 2 ^ d ≤ 1 := by rw [div_le_one hpos]; exact hlt.le
      rw [if_pos ht, Nat.cast_succ, add_sub_add_left_eq_sub, abs_of_nonneg (sub_nonneg.mpr h2)]
      linarith
    next ht =>
      have haway : 2 * ((m % 2 ^ d : Nat) : ℚ) ≤ 2 ^ d := by exact_mod_cast haway
      rw [if_neg ht, sub_add_cancel_left, abs_neg, abs_of_nonneg (by positivity), div_le_iff₀ hpos]
      linarith

/-! ## FP32 results -/

/-- A magnitude of `k` quanta 2^j as FP32 encodes it: normal, or with the subnormal quantum (03 R54). -/
def EncodedF32 (k : Nat) (j : Int) : Prop := k < 2 ^ 24 ∧ (j = -149 ∨ -149 ≤ j ∧ 2 ^ 23 ≤ k)

/-- The unit in the last place of an encoded magnitude is its quantum. -/
theorem toRat_ulpOf {k : Nat} {j : Int} (h : EncodedF32 k j) (n : Bool) : (ulpOf (.fin n k j)).toRat = 2 ^ j := by
  obtain ⟨hlt, hj⟩ := h
  have hexp : (if k = 0 then f32.emin else quantum 24 f32.emin k j) = j := by
    have hmin : f32.emin = -149 := rfl
    split
    next h0 => omega
    next h0 =>
      have h24 : k.log2 < 24 := (Nat.log2_lt h0).mpr hlt
      rw [quantum, log2Of, hmin]
      rcases hj with rfl | ⟨hj, hk⟩
      · omega
      · have h23 : 23 ≤ k.log2 := (Nat.le_log2 h0).mpr hk
        omega
  rw [ulpOf, hexp, FVal.toRat, finRat_false, Nat.cast_one, one_mul]

/-- The unit in the last place is small against the magnitude, or subnormal. -/
theorem ulpOf_le {k : Nat} {j : Int} (h : EncodedF32 k j) (n : Bool) :
    (ulpOf (.fin n k j)).toRat ≤ |finRat n k j| / 2 ^ 23 + 2 ^ (-149 : Int) := by
  rw [toRat_ulpOf h, abs_finRat]
  obtain ⟨-, rfl | ⟨-, hk⟩⟩ := h
  · exact le_add_of_nonneg_left (by positivity)
  · have hk' : (2 : ℚ) ^ 23 ≤ k := by exact_mod_cast hk
    have hle : (2 : ℚ) ^ j ≤ k * 2 ^ j / 2 ^ 23 := by
      rw [le_div_iff₀ (by positivity), mul_comm]
      gcongr
    exact hle.trans (le_add_of_nonneg_right (by positivity))

/-- Decoding an encoding below the infinities (03 R54). -/
theorem decode_signed (n : Bool) {x : Nat} (h : x < 255 * 2 ^ 23) :
    f32.decode (f32.signed n x) = if x / 2 ^ 23 = 0 then .fin n x (-149) else .fin n (x % 2 ^ 23 + 2 ^ 23) ((x / 2 ^ 23 : Nat) - 150) := by
  have hsign : f32.signed n x = n.toNat * 2 ^ 31 + x := by cases n <;> simp [FpFmt.signed, f32]
  have hn := n.toNat_le
  have hbit : bit (f32.signed n x) (f32.ew + f32.mw) = n := by
    have htop : f32.signed n x / 2 ^ 31 % 2 = n.toNat := by omega
    show (f32.signed n x / 2 ^ 31 % 2 == 1) = n
    rw [htop]
    cases n <;> rfl
  have hexp : bits (f32.signed n x) (f32.ew + f32.mw - 1) f32.mw = x / 2 ^ 23 := by
    show f32.signed n x / 2 ^ 23 % 2 ^ 8 = _
    omega
  have hman : f32.signed n x % 2 ^ f32.mw = x % 2 ^ 23 := by
    show f32.signed n x % 2 ^ 23 = _
    omega
  have htop : x / 2 ^ 23 ≠ 2 ^ f32.ew - 1 := by
    show x / 2 ^ 23 ≠ 255
    omega
  have hmin : f32.emin = -149 := rfl
  unfold FpFmt.decode
  simp only [hbit, hexp, hman, htop, false_and, if_false, hmin]
  split
  next h0 => rw [Nat.mod_eq_of_lt (by omega)]
  next h0 =>
    show FVal.fin n _ _ = _
    congr 1
    omega

/-- A packed encoding is below the infinities and decodes to what was packed. -/
theorem decode_pack {k : Nat} {j : Int} (h : EncodedF32 k j) {x : Nat} (hx : f32.pack k j = some x) (n : Bool) :
    f32.decode (f32.signed n x) = .fin n k j := by
  obtain ⟨hlt, hj⟩ := h
  have hmax : f32.maxBits = 255 * 2 ^ 23 - 1 := rfl
  have hmin : f32.emin = -149 := rfl
  have hmw : f32.mw = 23 := rfl
  have hcarry : k ≠ 2 ^ (23 + 1) := by omega
  simp only [FpFmt.pack, hmw, if_neg hcarry, hmax, hmin, Option.ite_none_left_eq_some, Option.some.injEq] at hx
  obtain ⟨hle, rfl⟩ := hx
  rw [decode_signed n (by omega)]
  by_cases hk : k < 2 ^ 23
  · have hj' : j = -149 := by omega
    rw [if_pos hk, if_pos (by omega), hj']
  · have hdiv : (((j - -149).toNat + 1) * 2 ^ 23 + (k - 2 ^ 23)) / 2 ^ 23 = (j - -149).toNat + 1 := by omega
    have hmod : (((j - -149).toNat + 1) * 2 ^ 23 + (k - 2 ^ 23)) % 2 ^ 23 + 2 ^ 23 = k := by omega
    have hexp : (((j - -149).toNat + 1 : Nat) : Int) - 150 = j := by omega
    rw [if_neg hk, hdiv, if_neg (Nat.succ_ne_zero _), hmod, hexp]

/-- A magnitude that carries into the next binade is packed there. -/
theorem pack_carry (j : Int) : f32.pack (2 ^ 24) j = f32.pack (2 ^ 23) (j + 1) := rfl

/-- An encoded magnitude, or one that carries, decodes to itself. -/
theorem exists_decode_pack {k : Nat} {j : Int} (hk : k ≤ 2 ^ 24) (hj : j = -149 ∨ -149 ≤ j ∧ 2 ^ 23 ≤ k) {x : Nat}
    (hx : f32.pack k j = some x) (n : Bool) :
    ∃ k' j', f32.decode (f32.signed n x) = .fin n k' j' ∧ EncodedF32 k' j' ∧ (k' : ℚ) * 2 ^ j' = k * 2 ^ j ∧ j ≤ j' := by
  rcases Nat.lt_or_eq_of_le hk with hlt | rfl
  · exact ⟨k, j, decode_pack ⟨hlt, hj⟩ hx n, ⟨hlt, hj⟩, rfl, le_rfl⟩
  · have henc : EncodedF32 (2 ^ 23) (j + 1) := ⟨by decide, .inr ⟨by omega, le_rfl⟩⟩
    refine ⟨2 ^ 23, j + 1, decode_pack henc (pack_carry j ▸ hx) n, henc, ?_, by omega⟩
    rw [zpow_add_one₀ two_ne_zero]
    push_cast
    ring

/-- The quanta of a rounded magnitude: at most 24 bits, and all of them above the subnormals. -/
theorem roundMag_quantum (n : Bool) {m : Nat} (hm : m ≠ 0) (e : Int) :
    let q := quantum 24 (-149) m e
    let k := roundMag .ne 0 n m e q
    k ≤ 2 ^ 24 ∧ (q = -149 ∨ -149 ≤ q ∧ 2 ^ 23 ≤ k) := by
  intro q k
  have herr : |(k : ℚ) - m * 2 ^ (e - q)| ≤ 1 / 2 := roundMag_ne_error 0 n m e q
  have hscale : (m : ℚ) * 2 ^ (e - q) = m * 2 ^ e / 2 ^ q := by rw [zpow_sub₀ two_ne_zero, mul_div_assoc]
  have hq : q = max (-149) (log2Of m e + 1 - 24) := rfl
  obtain ⟨hlo, hhi⟩ := abs_le.mp herr
  constructor
  · have hlt : (m : ℚ) * 2 ^ (e - q) < 2 ^ 24 := by
      rw [hscale, div_lt_iff₀ (by positivity), ← zpow_natCast, ← zpow_add₀ two_ne_zero]
      exact (lt_log2Of_succ m e).trans_le (zpow_le_zpow_right₀ one_le_two (by push_cast; omega))
    have : (k : ℚ) < (2 ^ 24 + 1 : Nat) := by push_cast; linarith
    exact Nat.lt_succ_iff.mp (by exact_mod_cast this)
  · rcases max_choice (-149) (log2Of m e + 1 - 24) with h | h
    · exact .inl (hq.trans h)
    · have hle : (2 : ℚ) ^ 23 ≤ m * 2 ^ (e - q) := by
        rw [hscale, le_div_iff₀ (by positivity), ← zpow_natCast, ← zpow_add₀ two_ne_zero]
        exact (zpow_le_zpow_right₀ one_le_two (by push_cast; omega)).trans (log2Of_le hm e)
      have : ((2 ^ 23 : Nat) : ℚ) < (k + 1 : Nat) := by push_cast; linarith
      exact .inr ⟨hq ▸ le_max_left .., Nat.lt_succ_iff.mp (by exact_mod_cast this)⟩

theorem decode_infBits (n : Bool) : f32.decode (f32.infBits n) = .inf n := by cases n <;> decide

/-- A value that rounds to nearest even into FP32 within its range: the result has an encoded magnitude, at most half a unit in the last place away (07 R129). -/
theorem rne_fin (n : Bool) (m : Nat) (e : Int) (h : (f32.decode (f32.rne (.fin n m e))).isFin = true) :
    ∃ k j, f32.decode (f32.rne (.fin n m e)) = .fin n k j ∧ EncodedF32 k j ∧ |finRat n k j - finRat n m e| ≤ 2 ^ j / 2 := by
  by_cases hm : m = 0
  · subst hm
    refine ⟨0, -149, decode_signed n (by decide), ⟨by decide, .inl rfl⟩, ?_⟩
    rw [abs_finRat_sub, Nat.cast_zero, zero_mul, zero_mul, sub_zero, abs_zero]
    positivity
  · obtain ⟨hk, hj⟩ := roundMag_quantum n hm e
    have herr := roundMag_ne_error 0 n m e (quantum 24 (-149) m e)
    have hround : f32.rne (.fin n m e) = (match f32.pack (roundMag .ne 0 n m e (quantum 24 (-149) m e)) (quantum 24 (-149) m e) with
        | some x => (f32.signed n x, false)
        | none => (f32.infBits n, true)).1 := by
      show (if m = 0 then _ else _ : Nat × Bool).1 = _
      rw [if_neg hm]
      rfl
    generalize quantum 24 (-149) m e = q at *
    generalize roundMag .ne 0 n m e q = k at *
    cases hp : f32.pack k q with
    | none =>
      rw [hround, hp, decode_infBits] at h
      cases h
    | some x =>
      rw [hp] at hround
      obtain ⟨k', j', hdec, henc, hval, hle⟩ := exists_decode_pack hk hj hp n
      refine ⟨k', j', hround ▸ hdec, henc, ?_⟩
      have hdiff : (k' : ℚ) * 2 ^ j' - m * 2 ^ e = (k - m * 2 ^ (e - q)) * 2 ^ q := by
        rw [hval, sub_mul, mul_assoc, ← zpow_add₀ two_ne_zero, sub_add_cancel]
      calc |finRat n k' j' - finRat n m e| = |(k : ℚ) - m * 2 ^ (e - q)| * 2 ^ q := by
            rw [abs_finRat_sub, hdiff, abs_mul, abs_of_pos (zpow_pos two_pos q : (0 : ℚ) < 2 ^ q)]
        _ ≤ 1 / 2 * 2 ^ q := by gcongr
        _ ≤ 1 / 2 * 2 ^ j' := by gcongr; exact one_le_two
        _ = 2 ^ j' / 2 := by ring

/-- Rounding to nearest even into FP32 moves a value by at most half a unit in the last place of the result (07 R129). -/
theorem rne_error {y : FVal} (h : (f32.decode (f32.rne y)).isFin = true) :
    y.isFin = true ∧ |(f32.decode (f32.rne y)).toRat - y.toRat| ≤ (ulpOf (f32.decode (f32.rne y))).toRat / 2 ∧
      (ulpOf (f32.decode (f32.rne y))).toRat ≤ |(f32.decode (f32.rne y)).toRat| / 2 ^ 23 + 2 ^ (-149 : Int) := by
  cases y with
  | nan => cases h
  | inf a => cases (decode_infBits a ▸ h : (FVal.inf a).isFin = true)
  | fin n m e =>
    obtain ⟨k, j, hdec, henc, herr⟩ := rne_fin n m e h
    rw [hdec]
    exact ⟨rfl, by rwa [toRat_ulpOf henc], ulpOf_le henc n⟩

end Sys2Proof.Machine
end

section
/-!
CERTIFICATES. The slots of reductions, dot products, keyed hashes and the optimiser update (07 R142, R143; 08 R156, R157, R164, R165), and of the
transform functions (08 R166).
-/

namespace Sys2Proof.Machine

open State

/-- A reduction that issues leaves the reduced word (08 R156). -/
theorem vredOp_leaves {i : Instr} {h : Hdr} {s : State} (o : Red) (d a : BitVec 5) (mk fmt : BitVec 4) (hi : Issues i h s) :
    vredOp i h o d a mk fmt s = .next (s.leaves i 8
      [s.wS d (if Fmt.int fmt then reduceInt fmt o (s.rm mk) (s.rv a) else reduceFp fmt o (s.rm mk) (s.rv a))]) :=
  slotOp_leaves (fun _ => rfl) hi

/-- The register that VHASH leaves (08 R164). -/
def hashReg (s : State) (a b : BitVec 5) (fmt : BitVec 4) (x : Bool) : VReg :=
  let key := fun n => mixer s.regs.c.seed.toNat (wbits (s.rs a) 47 16) n (wbits (s.rs a) 15 0)
  if fmt = Fmt.fp64 then
    ofLanes64 (fun j => BitVec.ofNat 64 (key (if x then (lane64 (s.rv b) j).toNat % 2 ^ 48 else ((s.rs b).toNat + j) % 2 ^ 48)))
  else ofLanes (fun i => BitVec.ofNat 32 (key (if x then (lane (s.rv b) i).toNat else ((s.rs b).toNat + i) % 2 ^ 48) / 2 ^ 32))

/-- The updated lane `k` of VUPD: the weight and the moments (08 R165). -/
def updAt (s : State) (d a b : BitVec 5) (fmt : BitVec 4) (x : Bool) (k : Nat) : FVal × FVal × FVal :=
  let lo := fun (r : BitVec 5) => f32.decode ((s.rs r).toNat % 2 ^ 32)
  let hi := fun (r : BitVec 5) => f32.decode ((s.rs r).toNat / 2 ^ 32)
  let at_ := fun (r : BitVec 5) => f32.decode (lane (s.rv r) k).toNat
  updLane x (lo b) (hi b) (lo (b + 1)) (hi (b + 1)) (lo (b + 2)) (hi (b + 2)) (lo (b + 3))
    (laneVal fmt (lane (s.rv a) k)) (at_ d) (at_ (d + 1)) (at_ (d + 2))

/-- The register that VUPD leaves of a part of its updated lanes. -/
def updReg (s : State) (d a b : BitVec 5) (fmt : BitVec 4) (x : Bool) (g : FVal × FVal × FVal → FVal) : VReg :=
  ofLaneList ((List.range 128).map (fun k => BitVec.ofNat 32 (f32.rne (g (updAt s d a b fmt x k)))))

theorem wbits_low (x : Word) : wbits x 31 0 = x.toNat % 2 ^ 32 := by simp [wbits, bits]

theorem wbits_high (x : Word) : wbits x 63 32 = x.toNat / 2 ^ 32 := by
  have := x.isLt
  simp only [wbits, bits]
  omega

theorem execVupd_leaves {s : State} {h : Hdr} {d a b : BitVec 5} {fmt : BitVec 4} {x : Bool} (hi : Issues (.vupd h d a b fmt x) h s) :
    execVupd h d a b fmt x s = .next (s.leaves (.vupd h d a b fmt x) 24 (s.wV d (updReg s d a b fmt x (·.1)) ::
      s.wV (d + 1) (updReg s d a b fmt x (·.2.1)) :: if x then [] else [s.wV (d + 2) (updReg s d a b fmt x (·.2.2))])) :=
  slotOp_leaves (fun _ => by simp only [wbits_low, wbits_high, List.map_map]; rfl) hi

theorem vectorReductionSlotResults : Claims.VectorReductionResults := fun s h d a b mk fmt x =>
  ⟨vredOp_leaves .sum d a mk fmt, vredOp_leaves .max d a mk fmt, vredOp_leaves .min d a mk fmt,
   fun hi => ⟨_, by unfold exec execVdot; exact vecOp_leaves (fun _ => rfl) hi, fun _ hk => lane_ofLanes _ hk⟩,
   fun hi => by
    refine ⟨hashReg s a b fmt x, by unfold exec execVhash; exact vecOp_leaves (fun _ => rfl) hi, ?_⟩
    by_cases hf : fmt = Fmt.fp64
    · simp only [hashReg, if_pos hf]
      exact fun _ hk => lane64_ofLanes64 _ hk
    · simp only [hashReg, if_neg hf]
      exact fun _ hk => lane_ofLanes _ hk,
   fun hi => ⟨_, _, _, execVupd_leaves hi, fun _ hk => ⟨lane_ofLaneList_range _ hk, lane_ofLaneList_range _ hk, lane_ofLaneList_range _ hk⟩⟩⟩

/-- A transform slot that issues leaves its function of every lane (08 R166). -/
theorem xfnOp_leaves {i : Instr} {h : Hdr} {s : State} {fn : Config.Fn} {L : Nat} {d a : BitVec 5} {fmt : BitVec 4} (hi : Issues i h s) :
    ∃ r, xfnOp i h fn L d a fmt s = .next (s.leaves i L [s.wV d r]) ∧ ∀ k, k < 128 → lane r k = transformLane fn fmt (lane (s.rv a) k) :=
  ⟨_, vecOp_leaves (fun _ => rfl) hi, fun _ hk => lane_ofLanes _ hk⟩

theorem transformResults : Claims.TransformResults := fun _ _ _ _ _ =>
  ⟨xfnOp_leaves, xfnOp_leaves, xfnOp_leaves, xfnOp_leaves, xfnOp_leaves, xfnOp_leaves, xfnOp_leaves, xfnOp_leaves⟩

end Sys2Proof.Machine
end

section
/-!
CERTIFICATES. What reductions and dot products of integers give (07 R142, R143).
-/

namespace Sys2Proof.Machine

/-! ## The pairwise tree (07 R142) -/

theorem length_pairUp {α : Type} (op : α → α → α) (l : List α) : (pairUp op l).length = (l.length + 1) / 2 := by
  induction l using pairUp.induct with
  | case1 a b r ih => simp only [pairUp, List.length_cons, ih]; omega
  | case2 l hl =>
    match l with
    | [] | [_] => simp [pairUp]
    | a :: b :: r => exact absurd rfl (hl a b r)

/-- As many levels as the list's length needs leave one result. -/
theorem length_treeFold {α : Type} (op : α → α → α) {n : Nat} {l : List α} (h : l.length = 2 ^ n) : (treeFold op n l).length = 1 := by
  induction n generalizing l with
  | zero => exact h
  | succ n ih => exact ih (by rw [length_pairUp, h]; omega)

theorem sum_pairUp (l : List Int) : (pairUp (· + ·) l).sum = l.sum := by
  induction l using pairUp.induct with
  | case1 a b r ih => simp only [pairUp, List.sum_cons, ih, Int.add_assoc]
  | case2 l hl => rw [pairUp]; exact hl

/-- The tree of additions gives the sum, whatever its order (07 R142). -/
theorem sum_treeFold (n : Nat) (l : List Int) : (treeFold (· + ·) n l).sum = l.sum := by
  induction n generalizing l with
  | zero => rfl
  | succ n ih => exact (ih _).trans (sum_pairUp l)

section Choice

variable {α : Type} {op : α → α → α}

/-- An operation that gives one of its operands gives, over a list, an element of the list. -/
theorem mem_of_mem_pairUp (hop : ∀ x y, op x y = x ∨ op x y = y) {l : List α} {z : α} (hz : z ∈ pairUp op l) : z ∈ l := by
  induction l using pairUp.induct with
  | case1 a b r ih =>
    rcases List.mem_cons.mp hz with rfl | hz
    · rcases hop a b with h | h <;> simp [h]
    · exact List.mem_cons_of_mem _ (List.mem_cons_of_mem _ (ih hz))
  | case2 l hl => rwa [pairUp] at hz; exact hl

theorem mem_of_mem_treeFold (hop : ∀ x y, op x y = x ∨ op x y = y) {n : Nat} {l : List α} {z : α} (hz : z ∈ treeFold op n l) : z ∈ l := by
  induction n generalizing l with
  | zero => exact hz
  | succ n ih => exact mem_of_mem_pairUp hop (ih hz)

/-- A bound of every result bounds every operand, where it bounds the operands of each operation. -/
theorem bound_of_bound_pairUp {p : α → Prop} (hop : ∀ x y, p (op x y) → p x ∧ p y) {l : List α} (h : ∀ z ∈ pairUp op l, p z) :
    ∀ x ∈ l, p x := by
  induction l using pairUp.induct with
  | case1 a b r ih =>
    rw [pairUp, List.forall_mem_cons] at h
    obtain ⟨ha, hb⟩ := hop a b h.1
    exact List.forall_mem_cons.mpr ⟨ha, List.forall_mem_cons.mpr ⟨hb, ih h.2⟩⟩
  | case2 l hl => rwa [pairUp] at h; exact hl

theorem bound_of_bound_treeFold {p : α → Prop} (hop : ∀ x y, p (op x y) → p x ∧ p y) {n : Nat} {l : List α}
    (h : ∀ z ∈ treeFold op n l, p z) : ∀ x ∈ l, p x := by
  induction n generalizing l with
  | zero => exact h
  | succ n ih => exact bound_of_bound_pairUp hop (ih h)

/-- An operation that gives the operand that `r` puts above the other gives, over a list, an element of it that `r` puts above all. -/
theorem headD_treeFold {r : α → α → Prop} (hrefl : ∀ x, r x x) (hop : ∀ x y, op x y = x ∨ op x y = y)
    (hr : ∀ x y z, r (op x y) z → r x z ∧ r y z) {n : Nat} {l : List α} (hl : l.length = 2 ^ n) (a : α) :
    (treeFold op n l).headD a ∈ l ∧ ∀ x ∈ l, r x ((treeFold op n l).headD a) := by
  obtain ⟨z, hz⟩ := List.length_eq_one_iff.mp (length_treeFold op hl)
  rw [hz, List.headD_cons]
  exact ⟨mem_of_mem_treeFold (n := n) hop (hz ▸ List.mem_singleton_self z), bound_of_bound_treeFold (n := n) (p := (r · z)) (fun x y => hr x y z)
    (hz ▸ List.forall_mem_singleton.mpr (hrefl z))⟩

end Choice

/-! ## Integer elements (03 R57) -/

/-- The element of each active lane, and the operation's identity in the others (07 R142). -/
def activeInts (f : BitVec 4) (m : Mask) (v : VReg) (ident : Int) : List Int :=
  (List.range 128).map (fun k => if m.getLsbD k then elemInt f v k else ident)

theorem length_activeInts (f : BitVec 4) (m : Mask) (v : VReg) (ident : Int) : (activeInts f m v ident).length = 2 ^ 7 := by
  simp [activeInts]

theorem mem_activeInts {f : BitVec 4} {m : Mask} {v : VReg} {ident z : Int} :
    z ∈ activeInts f m v ident ↔ ∃ k, k < 128 ∧ (if m.getLsbD k then elemInt f v k else ident) = z := by
  simp only [activeInts, List.mem_map, List.mem_range]

/-- An active lane's element is among the operands. -/
theorem elemInt_mem_activeInts {f : BitVec 4} {m : Mask} (v : VReg) (ident : Int) {k : Nat} (hk : k < 128) (hm : m.getLsbD k = true) :
    elemInt f v k ∈ activeInts f m v ident := mem_activeInts.mpr ⟨k, hk, if_pos hm⟩

theorem fmtBits_pos (f : BitVec 4) : 0 < fmtBits f := by revert f; decide

theorem fmtBits_le (f : BitVec 4) : fmtBits f ≤ 64 := by revert f; decide

/-- An integer element lies within its format's bounds. -/
theorem elemInt_bounds (f : BitVec 4) (v : VReg) (k : Nat) : intLo f ≤ elemInt f v k ∧ elemInt f v k ≤ intHi f := by
  have hlo := BitVec.le_toInt (BitVec.ofNat (fmtBits f) (elem f v k))
  have hhi := BitVec.toInt_lt (x := BitVec.ofNat (fmtBits f) (elem f v k))
  rw [elemInt, sext_eq_toInt _ _ (fmtBits_pos f), intLo, intHi]
  push_cast
  omega

theorem intLo_le_intHi (f : BitVec 4) : intLo f ≤ intHi f := (elemInt_bounds f 0 0).1.trans (elemInt_bounds f 0 0).2

theorem activeInts_bounds {f : BitVec 4} {m : Mask} {v : VReg} {ident : Int} (h : intLo f ≤ ident ∧ ident ≤ intHi f) {z : Int}
    (hz : z ∈ activeInts f m v ident) : intLo f ≤ z ∧ z ≤ intHi f := by
  obtain ⟨k, -, rfl⟩ := mem_activeInts.mp hz
  split
  · exact elemInt_bounds f v k
  · exact h

/-- A value within a format's bounds is read back from its word. -/
theorem toInt_wordOf {f : BitVec 4} {z : Int} (h : intLo f ≤ z ∧ z ≤ intHi f) : (wordOf z).toInt = z := by
  have hp : (2 : Int) ^ (fmtBits f - 1) ≤ 2 ^ 63 := pow_le_pow_right₀ (by decide) (Nat.sub_le_sub_right (fmtBits_le f) 1)
  rw [intLo, intHi] at h
  push_cast at h
  rw [wordOf, BitVec.toInt_ofInt_eq_self] <;> omega

/-! ## Reductions of integers (07 R142) -/

/-- The sum is exact before it wraps (07 R142). -/
theorem reduceInt_sum (f : BitVec 4) (m : Mask) (v : VReg) : reduceInt f .sum m v = BitVec.ofInt 64 (activeInts f m v 0).sum := by
  obtain ⟨z, hz⟩ := List.length_eq_one_iff.mp (length_treeFold (· + ·) (length_activeInts f m v 0))
  have hsum : (activeInts f m v 0).sum = z := by rw [← sum_treeFold 7, hz, List.sum_singleton]
  have hred : reduceInt f .sum m v = wordOf ((treeFold (· + ·) 7 (activeInts f m v 0)).headD 0) := rfl
  rw [hred, hz, hsum]
  rfl

/-- A reduction to the greatest gives one of the operands, and none of them is above it. -/
theorem reduceInt_max (f : BitVec 4) (m : Mask) (v : VReg) :
    (reduceInt f .max m v).toInt ∈ activeInts f m v (intLo f) ∧ ∀ z ∈ activeInts f m v (intLo f), z ≤ (reduceInt f .max m v).toInt := by
  obtain ⟨hmem, hle⟩ := headD_treeFold (op := fun x y : Int => if x < y then y else x) (r := (· ≤ ·)) le_refl
    (fun x y => by split <;> simp) (fun x y z h => by split at h <;> omega) (length_activeInts f m v (intLo f)) 0
  have hword : (reduceInt f .max m v).toInt = _ := toInt_wordOf (activeInts_bounds ⟨le_rfl, intLo_le_intHi f⟩ hmem)
  rw [hword]
  exact ⟨hmem, hle⟩

/-- A reduction to the least gives one of the operands, and none of them is below it. -/
theorem reduceInt_min (f : BitVec 4) (m : Mask) (v : VReg) :
    (reduceInt f .min m v).toInt ∈ activeInts f m v (intHi f) ∧ ∀ z ∈ activeInts f m v (intHi f), (reduceInt f .min m v).toInt ≤ z := by
  obtain ⟨hmem, hle⟩ := headD_treeFold (op := fun x y : Int => if y < x then y else x) (r := (· ≥ ·)) le_refl
    (fun x y => by split <;> simp) (fun x y z h => by split at h <;> omega) (length_activeInts f m v (intHi f)) 0
  have hword : (reduceInt f .min m v).toInt = _ := toInt_wordOf (activeInts_bounds ⟨intLo_le_intHi f, le_rfl⟩ hmem)
  rw [hword]
  exact ⟨hmem, hle⟩

/-- A result that is an operand is an active element, where the identity would be one of them all the same. -/
theorem active_of_mem_activeInts {f : BitVec 4} {m : Mask} {v : VReg} {ident z : Int} (hz : z ∈ activeInts f m v ident)
    (hid : z = ident → ∃ k, k < 128 ∧ m.getLsbD k = true ∧ z = elemInt f v k) : ∃ k, k < 128 ∧ m.getLsbD k = true ∧ z = elemInt f v k := by
  obtain ⟨k, hk, rfl⟩ := mem_activeInts.mp hz
  by_cases hm : m.getLsbD k = true
  · exact ⟨k, hk, hm, if_pos hm⟩
  · exact hid (if_neg hm)

/-- With no active lane every operand is the identity. -/
theorem eq_of_mem_activeInts_zero {f : BitVec 4} {v : VReg} {ident z : Int} (hz : z ∈ activeInts f 0 v ident) : z = ident := by
  obtain ⟨k, -, rfl⟩ := mem_activeInts.mp hz
  exact if_neg (by simp)

theorem reductionValues : Claims.ReductionValues := by
  intro f m v _
  obtain ⟨hmaxMem, hmaxLe⟩ := reduceInt_max f m v
  obtain ⟨hminMem, hminLe⟩ := reduceInt_min f m v
  refine ⟨reduceInt_sum f m v, ?_, ?_⟩
  · rintro ⟨k, hk, hm⟩
    have hmax := hmaxLe _ (elemInt_mem_activeInts v _ hk hm)
    have hmin := hminLe _ (elemInt_mem_activeInts v _ hk hm)
    have hb := elemInt_bounds f v k
    refine ⟨fun j hj hmj => ⟨hmaxLe _ (elemInt_mem_activeInts v _ hj hmj), hminLe _ (elemInt_mem_activeInts v _ hj hmj)⟩,
      active_of_mem_activeInts hmaxMem fun h => ⟨k, hk, hm, by omega⟩, active_of_mem_activeInts hminMem fun h => ⟨k, hk, hm, by omega⟩⟩
  · rintro rfl
    rw [eq_of_mem_activeInts_zero hmaxMem, eq_of_mem_activeInts_zero hminMem, intLo, intHi]
    push_cast
    exact ⟨rfl, rfl⟩

/-! ## Dot products of integers (07 R143) -/

/-- A signed field of a lane, read from its number. -/
theorem sext_bits_toNat (w : BitVec 32) (k : Nat) : sext 8 (bits w.toNat (8 * k + 7) (8 * k)) = (w.extractLsb' (8 * k) 8).toInt := by
  rw [sext_eq_toInt _ _ (by decide)]
  congr 1
  apply BitVec.eq_of_toNat_eq
  rw [BitVec.extractLsb'_toNat, Nat.shiftRight_eq_div_pow, BitVec.toNat_ofNat, bits, Nat.add_assoc, Nat.add_sub_cancel_left, Nat.mod_mod]

theorem dotProductValues : Claims.DotProductValues := by
  intro z x y acc e p
  have hp : ((List.range 4).map (fun k => sext 8 (bits x.toNat (8 * k + 7) (8 * k)) * sext 8 (bits y.toNat (8 * k + 7) (8 * k)))).sum = p := by
    simp only [sext_bits_toNat, p, e, List.range_succ_eq_map, List.range_zero, List.map_cons, List.map_nil, List.sum_cons, List.sum_nil]
    ring
  have hacc : sext 32 acc.toNat = acc.toInt := by
    rw [sext_eq_toInt _ _ (by decide), BitVec.ofNat_toNat, BitVec.setWidth_eq]
  have hdot : dotLane Fmt.i8 z x y acc = BitVec.ofInt 32 (clampInt (intLo Fmt.i32) (intHi Fmt.i32) ((if z then 0 else sext 32 acc.toNat) +
      ((List.range 4).map (fun k => sext 8 (bits x.toNat (8 * k + 7) (8 * k)) * sext 8 (bits y.toNat (8 * k + 7) (8 * k)))).sum)) := rfl
  rw [hdot, clampInt_eq (intLo_le_intHi _), hp, hacc]
  rfl

end Sys2Proof.Machine
end

section
/-!
CERTIFICATES. The exact and special results of the transform functions, and the bound that their other results keep (07 R140).
-/

namespace Sys2Proof.Machine

/-! ## Exact and special results (07 R140) -/

/-- An exact or special result is the function's result. -/
theorem transformFn_of_special {fn : Config.Fn} {x : FVal} {y : Nat} (h : specialResult fn x = some y) : transformFn fn x = y := by
  rw [transformFn, h, Option.getD_some]

/-- 2^k is a power of two. -/
theorem isPow2_one (k : Int) : isPow2 1 k = some k := congrArg some (Int.zero_add k)

theorem special_exp2_large {x : FVal} (h : x.lt (.fin false 128 0) = false) (hx : x.isNan = false) :
    specialResult .exp2 x = some (f32.infBits false) := by
  cases x with
  | nan => cases hx
  | inf a =>
    cases a with
    | false => rfl
    | true => cases h
  | fin n m e =>
    simp only [specialResult, h]
    rfl

theorem special_exp2_small {x : FVal} (h : x.lt (.fin true 150 0) = true) : specialResult .exp2 x = some 0 := by
  cases x with
  | nan => cases h
  | inf a =>
    cases a with
    | false => cases h
    | true => rfl
  | fin n m e =>
    have hlt : FVal.lt (.fin n m e) (.fin false 128 0) = true := by
      rw [lt_fin_iff] at h ⊢
      refine h.trans ?_
      norm_num [finRat]
    simp only [specialResult, h, hlt]
    rfl

/-- exp2 of an integer in range is the power of two. -/
theorem special_exp2_int {k : Int} (hlo : -149 ≤ k) (hhi : k < 128) : specialResult .exp2 (FVal.ofInt k) = some (f32.rne (.fin false 1 k)) := by
  have hlarge : FVal.lt (FVal.ofInt k) (.fin false 128 0) = true := by
    rw [lt_iff_toRat rfl rfl, toRat_ofInt, FVal.toRat, finRat_false, zpow_zero, mul_one]
    exact_mod_cast hhi
  have hsmall : FVal.lt (FVal.ofInt k) (.fin true 150 0) = false := by
    rw [← Bool.not_eq_true, lt_iff_toRat rfl rfl, toRat_ofInt, not_lt, FVal.toRat]
    have : ((-150 : Int) : ℚ) ≤ k := by exact_mod_cast (by omega : -150 ≤ k)
    simpa [finRat] using this
  have hint : asInt (decide (k < 0)) k.natAbs 0 = some k := by
    have : scaled (decide (k < 0)) k.natAbs 0 0 = k := by
      unfold scaled
      rcases lt_or_ge k 0 with h | h
      · simp [h, abs_of_neg]
      · simp [not_lt.mpr h, abs_of_nonneg h]
    rw [asInt, if_pos le_rfl, if_pos (by decide), this]
  unfold FVal.ofInt at *
  simp only [specialResult, hlarge, hsmall, hint]
  rfl

theorem special_rsqrt_even (k : Int) : specialResult .rsqrt (.fin false 1 (2 * k)) = some (f32.rne (.fin false 1 (-k))) := by
  have hmod : 2 * k % 2 = 0 := Int.mul_emod_right 2 k
  have hdiv : 2 * k / 2 = k := Int.mul_ediv_cancel_left k two_ne_zero
  simp only [specialResult, isPow2_one, hmod, hdiv]
  rfl

theorem special_log2_pow2 (k : Int) : specialResult .log2 (.fin false 1 k) = some (f32.rne (FVal.ofInt k)) := by
  simp only [specialResult, isPow2_one]
  rfl

theorem special_rcp_pow2 (n : Bool) (k : Int) : specialResult .rcp (.fin n 1 k) = some (f32.rne (.fin n 1 (-k))) := by
  simp only [specialResult, isPow2_one]
  rfl

theorem rne_one : f32.rne (.fin false 1 0) = 0x3F800000 := by decide

theorem rne_half : f32.rne (.fin false 1 (-1)) = 0x3F000000 := by decide

theorem transformSpecialResults : Claims.TransformSpecialResults := by
  have special {fn : Config.Fn} {x : FVal} {y : Nat} := @transformFn_of_special fn x y
  exact ⟨fun fn => special (by cases fn <;> rfl),
    fun n e => ⟨special rfl, special (congrArg some rne_one), special rfl, special rfl⟩,
    fun k hlo hhi => special (special_exp2_int hlo hhi), fun x h hx => special (special_exp2_large h hx),
    fun x h => special (special_exp2_small h), fun k => special (special_log2_pow2 k), fun n e => special rfl,
    fun m e hm => ⟨special (if_neg hm), special (if_neg hm)⟩, special rfl,
    fun n k => special (special_rcp_pow2 n k),
    fun n e => ⟨special rfl, special rfl, special rfl, special rfl, special (congrArg some rne_half)⟩,
    fun k => special (special_rsqrt_even k), special rfl,
    fun n => ⟨special rfl, special (by cases n; exacts [congrArg some rne_one, rfl])⟩⟩

/-! ## The bound (07 R140) -/

theorem toRat_ulps (k : Nat) (r : FVal) (hr : r.isFin = true) :
    (FVal.mul (.fin false k 0) (ulpOf r)).isFin = true ∧ (FVal.mul (.fin false k 0) (ulpOf r)).toRat = k * (ulpOf r).toRat := by
  obtain ⟨n, m, e, rfl⟩ := exists_fin_of_isFin hr
  refine ⟨rfl, ?_⟩
  simp [ulpOf, FVal.mul, FVal.toRat, finRat]

theorem toRat_ulpOf_nonneg (r : FVal) : 0 ≤ (ulpOf r).toRat := by
  cases r with
  | nan => simp [ulpOf, FVal.toRat, finRat]
  | inf a => simp [ulpOf, FVal.toRat, finRat]
  | fin n m e =>
    simp only [ulpOf, FVal.toRat, finRat_false]
    positivity

/-- Whether an operand of log2 lies in the middle range, where the bound of R140 is absolute. -/
def log2Middle (x : FVal) : Bool := !x.lt (.fin false 1 (-1)) && !FVal.lt (.fin false 2 0) x

/-- Away from the middle of log2, the bound of R140 is at least half a unit in the last place. -/
theorem fnBound_ge {fn : Config.Fn} {x r : FVal} (hr : r.isFin = true) (hx : fn = .log2 → log2Middle x = false) :
    (fnBound fn x r).isFin = true ∧ (ulpOf r).toRat / 2 ≤ (fnBound fn x r).toRat := by
  obtain ⟨hfin1, hone⟩ := toRat_ulps 1 r hr
  obtain ⟨hfin2, htwo⟩ := toRat_ulps 2 r hr
  have hpos := toRat_ulpOf_nonneg r
  have hone' : (ulpOf r).toRat / 2 ≤ (FVal.mul (.fin false 1 0) (ulpOf r)).toRat := by rw [hone]; push_cast; linarith
  have htwo' : (ulpOf r).toRat / 2 ≤ (FVal.mul (.fin false 2 0) (ulpOf r)).toRat := by rw [htwo]; push_cast; linarith
  have hmax (y : FVal) (hy : y.isFin = true) : (FVal.max (FVal.mul (.fin false 2 0) (ulpOf r)) y).isFin = true ∧
      (ulpOf r).toRat / 2 ≤ (FVal.max (FVal.mul (.fin false 2 0) (ulpOf r)) y).toRat :=
    ⟨(max_ge hfin2 hy).1, htwo'.trans (max_ge hfin2 hy).2⟩
  cases fn with
  | sin => exact hmax _ rfl
  | cos => exact hmax _ rfl
  | sigmoid => exact hmax _ rfl
  | exp2 => exact ⟨hfin1, hone'⟩
  | rcp => exact ⟨hfin1, hone'⟩
  | rsqrt => exact ⟨hfin1, hone'⟩
  | tanh => exact ⟨hfin2, htwo'⟩
  | log2 =>
    have hlog : fnBound .log2 x r = FVal.mul (.fin false 1 0) (ulpOf r) := if_neg (by rw [← log2Middle, hx rfl]; decide)
    rw [hlog]
    exact ⟨hfin1, hone'⟩

theorem log2Bits_lt (n r acc : Nat) : log2Bits n r acc < (acc + 1) * 2 ^ n := by
  induction n generalizing r acc with
  | zero => simp [log2Bits]
  | succ n ih =>
    have hodd := ih (r * r / 2 ^ 400 / 2) (2 * acc + 1)
    have heven := ih (r * r / 2 ^ 400) (2 * acc)
    have hpow : (acc + 1) * 2 ^ (n + 1) = (2 * acc + 2) * 2 ^ n := by ring
    rw [log2Bits, hpow]
    split
    · exact hodd
    · exact heven.trans_le (Nat.mul_le_mul_right _ (by omega))

/-- The exact logarithm of an operand in the middle range is small. -/
theorem exactFn_log2_middle {m : Nat} {e : Int} (hm : m ≠ 0) (hx : log2Middle (.fin false m e) = true) :
    |(exactFn .log2 (.fin false m e)).toRat| ≤ 2 := by
  have hy : exactFn .log2 (.fin false m e) = FVal.add false (FVal.ofInt (log2Of m e))
    (.fin false (2 * log2Bits 160 (m * 2 ^ 400 / 2 ^ m.log2) 0 + 1) (-161)) := rfl
  have hB := log2Bits_lt 160 (m * 2 ^ 400 / 2 ^ m.log2) 0
  generalize log2Bits 160 (m * 2 ^ 400 / 2 ^ m.log2) 0 = B at hy hB
  rw [hy, toRat_add false rfl rfl, toRat_ofInt]
  rw [log2Middle, Bool.and_eq_true, Bool.not_eq_true', Bool.not_eq_true', ← Bool.not_eq_true, ← Bool.not_eq_true, lt_fin_iff, lt_fin_iff, not_lt,
    not_lt, finRat_false, finRat_false, finRat_false] at hx
  obtain ⟨hlo, hhi⟩ := hx
  have hle : log2Of m e ≤ 1 := by
    rw [← zpow_le_zpow_iff_right₀ (one_lt_two (α := ℚ))]
    exact (log2Of_le hm e).trans (hhi.trans (by norm_num))
  have hge : -1 < log2Of m e + 1 := by
    rw [← zpow_lt_zpow_iff_right₀ (one_lt_two (α := ℚ))]
    exact (by simpa using hlo : (2 : ℚ) ^ (-1 : Int) ≤ m * 2 ^ e).trans_lt (lt_log2Of_succ m e)
  have hfrac : (FVal.fin false (2 * B + 1) (-161)).toRat ≤ 1 := by
    have hB' : ((2 * B + 1 : Nat) : ℚ) ≤ (2 ^ 161 : Nat) := by exact_mod_cast (by omega : 2 * B + 1 ≤ 2 ^ 161)
    rw [FVal.toRat, finRat_false, zpow_neg, ← div_eq_mul_inv, div_le_one (by positivity)]
    exact_mod_cast hB'
  have hpos : 0 ≤ (FVal.fin false (2 * B + 1) (-161)).toRat := by
    rw [FVal.toRat, finRat_false]
    positivity
  have hle' : (log2Of m e : ℚ) ≤ 1 := by exact_mod_cast hle
  have hge' : (-1 : ℚ) ≤ log2Of m e := by exact_mod_cast (by omega : -1 ≤ log2Of m e)
  exact abs_le.mpr ⟨by linarith, by linarith⟩

/-- A value of at most 2 moves by less than 2^-22 when it is rounded. -/
theorem rne_error_small {y : FVal} (h : (f32.decode (f32.rne y)).isFin = true) (hy : |y.toRat| ≤ 2) :
    |(f32.decode (f32.rne y)).toRat - y.toRat| ≤ 2 ^ (-22 : Int) := by
  obtain ⟨-, herr, hulp⟩ := rne_error h
  have htri := abs_sub_abs_le_abs_sub (f32.decode (f32.rne y)).toRat y.toRat
  norm_num at hulp ⊢
  linarith

/-- Where log2 has no exact or special result its operand is positive. -/
theorem positive_of_special_log2 {x : FVal} (h : specialResult .log2 x = none) : ∃ m e, m ≠ 0 ∧ x = .fin false m e := by
  match x with
  | .nan | .inf _ => cases h
  | .fin n m e =>
    by_cases hm : m = 0
    · simp [specialResult, hm] at h
    · cases n with
      | false => exact ⟨m, e, hm, rfl⟩
      | true => simp [specialResult, hm] at h

/-- The rounded exact result keeps the bound (07 R140). -/
theorem rne_exactFn_within {fn : Config.Fn} {x : FVal} (hx : specialResult fn x = none) (h : (f32.decode (f32.rne (exactFn fn x))).isFin = true) :
    FVal.lt (fnBound fn x (f32.decode (f32.rne (exactFn fn x)))) (FVal.sub false (f32.decode (f32.rne (exactFn fn x))) (exactFn fn x)).abs = false := by
  obtain ⟨hy, herr, -⟩ := rne_error h
  by_cases hmid : fn = .log2 ∧ log2Middle x = true
  · obtain ⟨rfl, hmid⟩ := hmid
    obtain ⟨m, e, hm, rfl⟩ := positive_of_special_log2 hx
    have hbound (r : FVal) : fnBound .log2 (.fin false m e) r = .fin false 1 (-22) := if_pos hmid
    rw [hbound]
    refine bound_not_lt_distance rfl h hy ((rne_error_small h (exactFn_log2_middle hm hmid)).trans_eq ?_)
    rw [FVal.toRat, finRat_false, Nat.cast_one, one_mul]
  · obtain ⟨hb, hge⟩ := fnBound_ge (fn := fn) (x := x) h (fun hfn => Bool.eq_false_iff.mpr fun hm => hmid ⟨hfn, hm⟩)
    exact bound_not_lt_distance hb h hy (herr.trans hge)

/-- Without an exact or special result, the result is a free one that keeps the bound, or the exact one rounded. -/
theorem transformFn_cases {fn : Config.Fn} {x : FVal} (hx : specialResult fn x = none) :
    keepsBound fn x (exactFn fn x) (f32.decode (transformFn fn x)) = true ∨ transformFn fn x = f32.rne (exactFn fn x) := by
  rw [transformFn, hx, Option.getD_none]
  dsimp only
  split
  next h => exact .inl h
  next => exact .inr rfl

theorem transformBound : Claims.TransformBound := by
  intro fn b _ hx r hr
  rcases transformFn_cases hx with h | h
  · rw [keepsBound, Bool.and_eq_true, Bool.not_eq_true'] at h
    exact h.2
  · simp only [r, h] at hr ⊢
    exact rne_exactFn_within hx hr

/-- Settles O33: a slot leaves its function's lanes, a tree of choices gives an extreme operand, and the rounding of an exact result to nearest even moves it by at
most half a unit in the last place, which is within every bound. -/
theorem vectorReductionResults : Obligations.VectorReductionResults :=
  ⟨vectorReductionSlotResults, reductionValues, dotProductValues, transformResults, transformSpecialResults, transformBound⟩

end Sys2Proof.Machine
end

section
/-!
CERTIFICATES. The elementwise vector families (08 R150), vector logic and shifts (08 R151), index sequences (08 R163), compares, selects and masks
(08 R152-R154) and the lane moves (08 R155).
-/

namespace Sys2Proof.Machine

open State

/-! ## Elements in lane form (08 R145, R150) -/

/-- An integer result as a bit vector of its format's width: clamped when `sat`, then wrapped (08 R150). -/
theorem ofNat_finishInt (f : BitVec 4) (sat : Bool) (x : Int) :
    BitVec.ofNat (fmtBits f) (finishInt f sat x) = BitVec.ofInt (fmtBits f) (if sat then clampInt (intLo f) (intHi f) x else x) := by
  have h := BitVec.toNat_ofInt (n := fmtBits f) (if sat then clampInt (intLo f) (intHi f) x else x)
  push_cast at h
  rw [finishInt, ← h, BitVec.ofNat_toNat, BitVec.setWidth_eq]

/-- An integer element in lane form carries copies of its sign (08 R145). -/
theorem laneOut_int {f : BitVec 4} (hf : Fmt.int f = true) (x : Nat) : laneOut f x = (BitVec.ofNat (fmtBits f) x).signExtend 32 := by
  rw [laneOut, if_pos (.inl hf), sext_eq_toInt _ _ (fmtBits_pos f)]
  rfl

theorem not_int_fp64 {f : BitVec 4} (hf : Fmt.int f = true) : f ≠ Fmt.fp64 := by
  rintro rfl
  exact absurd hf (by decide)

/-- What the elementwise operations of R150 leave, element by element. -/
theorem lanewise_elementwise {f : BitVec 4} {sat : Bool} (a b c : VReg) {opInt : Int → Int → Int → Int} {opFp : FVal → FVal → FVal → FVal}
    {onInt : Nat → Int} {onFp : Nat → FVal} (hint : ∀ k, opInt (elemInt f a k) (elemInt f b k) (elemInt f c k) = onInt k)
    (hfp : ∀ k, opFp (elemFp f a k) (elemFp f b k) (elemFp f c k) = onFp k) :
    Elementwise f sat (lanewise f sat a b c opInt opFp) onInt onFp := by
  simp only [Elementwise, lanewise, hint, hfp]
  by_cases hf : Fmt.int f = true
  · simp only [if_pos hf, ofElems, if_neg (not_int_fp64 hf)]
    intro k hk
    rw [lane_ofLanes _ hk, laneOut_int hf, ofNat_finishInt]
  · simp only [if_neg hf, ofElems]
    by_cases h64 : f = Fmt.fp64
    · subst h64
      exact fun k hk => lane64_ofLanes64 _ hk
    · simp only [if_neg h64]
      exact fun k hk => lane_ofLanes _ hk

/-- A slot of an elementwise family that issues leaves the family's operation on every element. -/
theorem lanewiseOp_leaves {i : Instr} {h : Hdr} {s : State} {L : Nat} {d a b c : BitVec 5} {f : BitVec 4} {sat : Bool}
    {opInt : Int → Int → Int → Int} {opFp : FVal → FVal → FVal → FVal} {onInt : Nat → Int} {onFp : Nat → FVal}
    (hint : ∀ k, opInt (elemInt f (s.rv a) k) (elemInt f (s.rv b) k) (elemInt f (s.rv c) k) = onInt k)
    (hfp : ∀ k, opFp (elemFp f (s.rv a) k) (elemFp f (s.rv b) k) (elemFp f (s.rv c) k) = onFp k) (hi : Issues i h s) :
    ∃ r, vecOp i h L d s (fun s => lanewise f sat (s.rv a) (s.rv b) (s.rv c) opInt opFp) = .next (s.leaves i L [s.wV d r]) ∧
      Elementwise f sat r onInt onFp :=
  ⟨_, vecOp_leaves (fun _ => rfl) hi, lanewise_elementwise _ _ _ hint hfp⟩

theorem tdiv_eq_ite (p q : Int) : p.tdiv q = if q = 0 then 0 else p.tdiv q := by
  split
  next h => rw [h, Int.tdiv_zero]
  next => rfl

/-- Settles O29: every elementwise family is its operation on the elements, finished as R150 says; a quotient by zero is the 0
that the division of integers gives. -/
theorem vectorArithmeticResults : Obligations.VectorArithmeticResults := fun _ _ _ _ _ _ _ =>
  ⟨lanewiseOp_leaves (fun _ => rfl) (fun _ => rfl),
   lanewiseOp_leaves (fun _ => rfl) (fun _ => rfl),
   lanewiseOp_leaves (fun _ => rfl) (fun _ => rfl),
   lanewiseOp_leaves (fun _ => rfl) (fun _ => rfl),
   lanewiseOp_leaves (fun _ => tdiv_eq_ite _ _) (fun _ => rfl),
   lanewiseOp_leaves (fun _ => (min_def_lt _ _).symm.trans (min_comm _ _)) (fun _ => rfl),
   lanewiseOp_leaves (fun _ => (max_def_lt _ _).symm) (fun _ => rfl),
   lanewiseOp_leaves (fun _ => (Int.abs_eq_natAbs _).symm) (fun _ => rfl),
   lanewiseOp_leaves (fun _ => rfl) (fun _ => rfl)⟩

/-! ## Logic, shifts and index sequences (08 R151, R163) -/

/-- A slot that issues leaves a register whose lanes are given one by one. -/
theorem lanesOp_leaves {i : Instr} {h : Hdr} {s : State} {L : Nat} {d : BitVec 5} {f : State → VReg} {g : Nat → BitVec 32}
    (hf : ∀ w, f { s with word := w } = ofLanes g) (hi : Issues i h s) :
    ∃ r, vecOp i h L d s f = .next (s.leaves i L [s.wV d r]) ∧ ∀ k, k < 128 → lane r k = g k :=
  ⟨_, vecOp_leaves hf hi, fun _ hk => lane_ofLanes _ hk⟩

/-- A register that is given by pairs in FP64 and by lanes in the other formats. -/
theorem pairsOrLanes_elems (f : BitVec 4) (pair : Nat → BitVec 64) (g : Nat → BitVec 32) :
    if f = Fmt.fp64 then ∀ k, k < 64 → lane64 (if f = Fmt.fp64 then ofLanes64 pair else ofLanes g) k = pair k
    else ∀ k, k < 128 → lane (if f = Fmt.fp64 then ofLanes64 pair else ofLanes g) k = g k := by
  by_cases hf : f = Fmt.fp64
  · simp only [if_pos hf]
    exact fun _ hk => lane64_ofLanes64 _ hk
  · simp only [if_neg hf]
    exact fun _ hk => lane_ofLanes _ hk

/-- A slot that issues leaves a register that is given by pairs in FP64 and by lanes in the other formats. -/
theorem pairsOrLanesOp_leaves {i : Instr} {h : Hdr} {s : State} {L : Nat} {d : BitVec 5} {fmt : BitVec 4} {f : State → VReg}
    {pair : Nat → BitVec 64} {g : Nat → BitVec 32}
    (hf : ∀ w, f { s with word := w } = if fmt = Fmt.fp64 then ofLanes64 pair else ofLanes g) (hi : Issues i h s) :
    ∃ r, vecOp i h L d s f = .next (s.leaves i L [s.wV d r]) ∧
      if fmt = Fmt.fp64 then ∀ k, k < 64 → lane64 r k = pair k else ∀ k, k < 128 → lane r k = g k :=
  ⟨_, vecOp_leaves hf hi, pairsOrLanes_elems fmt pair g⟩

theorem vectorLogicAndShiftResults : Claims.VectorLogicAndShiftResults := fun s h d a b x =>
  ⟨by unfold exec execVand; exact vecOp_leaves (fun _ => rfl),
   by unfold exec execVor; exact vecOp_leaves (fun _ => rfl),
   by unfold exec execVxor; exact vecOp_leaves (fun _ => rfl),
   by unfold exec execVandn; exact vecOp_leaves (fun _ => rfl),
   by unfold exec execVorn; exact vecOp_leaves (fun _ => rfl),
   by unfold exec execVxnor; exact vecOp_leaves (fun _ => rfl),
   by unfold exec execVshl; exact lanesOp_leaves (fun _ => rfl),
   by unfold exec execVshr; exact lanesOp_leaves (fun _ => rfl),
   by unfold exec execVsar; exact lanesOp_leaves (fun _ => rfl)⟩

theorem vectorIndexResults : Claims.VectorIndexResults := fun _ _ _ _ _ _ => by
  unfold exec execVidx
  exact pairsOrLanesOp_leaves (fun _ => rfl)

/-- Settles O30: the bitwise families are those of the whole register, the others are given lane by lane. -/
theorem laneOperationResults : Obligations.LaneOperationResults := ⟨vectorLogicAndShiftResults, vectorIndexResults⟩

/-! ## Lane moves (08 R155) -/

/-- Whether a permutation number is out of range, tested on the bit above it (08 R155). -/
theorem and_bit_iff (x : Bool) (w : BitVec 32) (n : Nat) : (x && bit w.toNat n) = true ↔ x = true ∧ w.getLsbD n = true := by
  rw [bit_toNat, Bool.and_eq_true]

theorem ite_and_bit {α : Type} (x : Bool) (w : BitVec 32) (n : Nat) (p q : α) :
    (if x && bit w.toNat n then p else q) = if x = true ∧ w.getLsbD n = true then p else q :=
  if_congr (and_bit_iff x w n) rfl rfl

/-- A broadcast of a lane counts modulo the number of elements (08 R155). -/
theorem ite_mod_lanes (fmt : BitVec 4) (n : Nat) : (if fmt = Fmt.fp64 then n % 64 else n % 128) = n % (if fmt = Fmt.fp64 then 64 else 128) :=
  (apply_ite (n % ·) (fmt = Fmt.fp64) 64 128).symm

/-- Settles O32: a move reads the element that its number names; a permutation number is out of range when the bit above it is set. -/
theorem vectorMoveResults : Obligations.VectorMoveResults := fun s h d a b c cols fmt x =>
  ⟨by unfold exec execVswz; exact pairsOrLanesOp_leaves (fun _ => rfl),
   by
    unfold exec execVbcLane
    exact pairsOrLanesOp_leaves (fun _ => congrArg (fun n => moveElems fmt (s.rv a) (fun _ => n)) (ite_mod_lanes fmt _)),
   by unfold exec execXtrn; exact pairsOrLanesOp_leaves (fun _ => rfl),
   by unfold exec execVperm; exact pairsOrLanesOp_leaves (fun _ => by simp only [ite_and_bit]; rfl),
   by unfold exec execVbc; exact pairsOrLanesOp_leaves (fun _ => rfl)⟩

/-! ## Compares, selects and masks (08 R152-R154) -/

/-- A slot that issues leaves a mask that is given bit by bit. -/
theorem maskOp_leaves {i : Instr} {h : Hdr} {s : State} {d : BitVec 4} {k : State → Res} {g : Nat → Bool}
    (hk : ∀ w, k { s with word := w } = .next (State.result { s with word := w } 2 [s.wM d (ofMask g)])) (hi : Issues i h s) :
    ∃ m, slotOp i h s k = .next (s.leaves i 2 [s.wM d m]) ∧ ∀ k, k < 128 → m.getLsbD k = g k :=
  ⟨_, slotOp_leaves hk hi, fun _ hk => getLsbD_ofMask _ hk⟩

/-- The conditions of VCMP on integers (08 R152). -/
theorem vcmpElem_int {fmt : BitVec 4} (hf : Fmt.int fmt = true) (va vb : VReg) (k : Nat) :
    vcmpElem 0 fmt va vb k = decide (elemInt fmt va k = elemInt fmt vb k) ∧
      vcmpElem 1 fmt va vb k = decide (elemInt fmt va k < elemInt fmt vb k) ∧
      vcmpElem 2 fmt va vb k = decide (elemInt fmt va k ≤ elemInt fmt vb k) ∧
      vcmpElem 3 fmt va vb k = decide (elemInt fmt va k ≠ elemInt fmt vb k) := by
  simp [vcmpElem, hf]

/-- The floating-point condition that each condition of VCMP stands for (08 R152; 04 R85). -/
theorem vcmpElem_fp {fmt : BitVec 4} (hf : Fmt.int fmt = false) (va vb : VReg) (k : Nat) :
    vcmpElem 0 fmt va vb k = fpCond 0 (elemFp fmt va k) (elemFp fmt vb k) ∧
      vcmpElem 1 fmt va vb k = fpCond 2 (elemFp fmt va k) (elemFp fmt vb k) ∧
      vcmpElem 2 fmt va vb k = fpCond 3 (elemFp fmt va k) (elemFp fmt vb k) ∧
      vcmpElem 3 fmt va vb k = fpCond 6 (elemFp fmt va k) (elemFp fmt vb k) := by
  simp [vcmpElem, hf]

/-- With a NaN only the fourth condition of VCMP holds (08 R152). -/
theorem vcmpElem_nan {fmt : BitVec 4} (hf : Fmt.int fmt = false) {va vb : VReg} {k : Nat} (h : elemFp fmt va k = .nan ∨ elemFp fmt vb k = .nan)
    {c : Nat} (hc : c < 4) : vcmpElem c fmt va vb k = decide (c = 3) := by
  obtain ⟨h0, h1, h2, h3⟩ := vcmpElem_fp hf va vb k
  simp only [fpCond_nan h] at h0 h1 h2 h3
  interval_cases c
  · exact h0
  · exact h1
  · exact h2
  · exact h3

/-- Without a NaN the conditions of VCMP order the values, and the fourth is false (08 R152). -/
theorem vcmpElem_ordered {fmt : BitVec 4} (hf : Fmt.int fmt = false) {va vb : VReg} {k : Nat} (ha : elemFp fmt va k ≠ .nan)
    (hb : elemFp fmt vb k ≠ .nan) :
    vcmpElem 0 fmt va vb k = (elemFp fmt va k).eq (elemFp fmt vb k) ∧ vcmpElem 1 fmt va vb k = (elemFp fmt va k).lt (elemFp fmt vb k) ∧
      vcmpElem 2 fmt va vb k = ((elemFp fmt va k).lt (elemFp fmt vb k) || (elemFp fmt va k).eq (elemFp fmt vb k)) ∧
      vcmpElem 3 fmt va vb k = false := by
  obtain ⟨h0, h1, h2, h3⟩ := vcmpElem_fp hf va vb k
  obtain ⟨heq, -, hlt, hle, -, -, hun, -⟩ := fpCond_ordered ha hb
  exact ⟨h0.trans heq, h1.trans hlt, h2.trans hle, h3.trans hun⟩

/-- The number of set bits fits a word (08 R154). -/
theorem toNat_maskCount (m : Mask) : (BitVec.ofNat 64 ((List.range 128).filter (fun k => m.getLsbD k)).length).toNat =
    ((List.range 128).filter (fun k => m.getLsbD k)).length := by
  have hle := List.length_filter_le (fun k => m.getLsbD k) (List.range 128)
  rw [List.length_range] at hle
  rw [BitVec.toNat_ofNat, Nat.mod_eq_of_lt (by omega)]

/-- The lowest set bit of a mask, 128 for an empty one, as a word (08 R154). -/
theorem firstSet_word (m : Mask) :
    let y : Word := BitVec.ofNat 64 (((List.range 128).find? (fun k => m.getLsbD k)).getD 128)
    y.toNat ≤ 128 ∧ (∀ k, k < y.toNat → m.getLsbD k = false) ∧ (y.toNat < 128 → m.getLsbD y.toNat = true) := by
  cases h : (List.range 128).find? (fun k => m.getLsbD k) with
  | none =>
    rw [List.find?_range_eq_none] at h
    exact ⟨le_rfl, fun k hk => by simpa using h k hk, fun hk => absurd hk (by decide)⟩
  | some n =>
    obtain ⟨hn, hr, hlow⟩ := List.find?_range_eq_some.mp h
    have hlt := List.mem_range.mp hr
    simp only [Option.getD_some, BitVec.toNat_ofNat, Nat.mod_eq_of_lt (hlt.trans (by decide : 128 < 2 ^ 64))]
    exact ⟨hlt.le, fun k hk => by simpa using hlow k hk, fun _ => hn⟩

/-- A mask of one predicate in every bit (08 R154). -/
theorem getLsbD_ite_allOnes (p : Bool) {k : Nat} (hk : k < 128) : (if p then BitVec.allOnes 128 else 0).getLsbD k = p := by
  cases p with
  | false => exact BitVec.getLsbD_zero
  | true => exact BitVec.getLsbD_allOnes.trans (decide_eq_true hk)

/-- The top bit of a lane, by its place in the register (08 R154). -/
theorem getLsbD_lane_top (v : VReg) (k : Nat) : (lane v k).getLsbD 31 = v.getLsbD (32 * k + 31) := by
  simp [lane]

/-- Settles O31: masks are given bit by bit, and VCMP's conditions are those of the compares of predicates (04 R85). -/
theorem vectorMaskResults : Obligations.VectorMaskResults := fun s h d a b d4 a4 mk fmt c1 x =>
  ⟨by unfold exec execVcmp; exact maskOp_leaves (fun _ => rfl),
   fun va vb k hf => vcmpElem_int hf va vb k,
   fun va vb k hf => ⟨fun hn c hc => vcmpElem_nan hf hn hc, fun ha hb => vcmpElem_ordered hf ha hb⟩,
   by unfold exec execVsel; exact lanesOp_leaves (fun _ => rfl),
   by unfold exec execVmaskPopc; exact fun hi => ⟨_, slotOp_leaves (fun _ => rfl) hi, toNat_maskCount _⟩,
   by unfold exec execVmaskFfs; exact fun hi => ⟨_, slotOp_leaves (fun _ => rfl) hi, firstSet_word (s.rm a4)⟩,
   by unfold exec execVmaskTov; exact lanesOp_leaves (fun _ => rfl),
   by unfold exec execVmaskFromv; simp only [getLsbD_lane_top]; exact maskOp_leaves (fun _ => rfl),
   by unfold exec execVmaskFromp; exact fun hi => ⟨_, slotOp_leaves (fun _ => rfl) hi, fun k hk => getLsbD_ite_allOnes _ hk⟩⟩

end Sys2Proof.Machine
end

section
/-!
SUPPORT. Numbers as bytes and back (00 R6), fields of byte strings, and the chunks of 128 elements (08 R169, R170): packing and expanding.
-/

namespace Sys2Proof.Machine

/-! ## Numbers and bytes (00 R6) -/

@[simp] theorem length_toBytes (n x : Nat) : (toBytes n x).length = n := by
  induction n generalizing x with
  | zero => rfl
  | succ n ih => exact congrArg (· + 1) (ih _)

/-- The number that the low bytes of a number hold. -/
theorem ofBytes_toBytes (n x : Nat) : ofBytes (toBytes n x) = x % 2 ^ (8 * n) := by
  induction n generalizing x with
  | zero => exact (Nat.mod_one x).symm
  | succ n ih => rw [toBytes, ofBytes, ih, BitVec.toNat_ofNat, Nat.mul_succ, Nat.add_comm (8 * n), Nat.pow_add, Nat.mod_mul]

/-- The bytes of the number that bytes hold. -/
theorem toBytes_ofBytes (bs : List Byte) : toBytes bs.length (ofBytes bs) = bs := by
  induction bs with
  | nil => rfl
  | cons b bs ih =>
    have hdiv : (b.toNat + 256 * ofBytes bs) / 256 = ofBytes bs := by omega
    have hmod : BitVec.ofNat 8 (b.toNat + 256 * ofBytes bs) = b := BitVec.eq_of_toNat_eq (by rw [BitVec.toNat_ofNat]; omega)
    rw [List.length_cons, ofBytes, toBytes, hdiv, hmod, ih]

theorem ofBytes_lt (bs : List Byte) : ofBytes bs < 2 ^ (8 * bs.length) := by
  induction bs with
  | nil => decide
  | cons b bs ih =>
    rw [ofBytes, List.length_cons, Nat.mul_succ, Nat.pow_add]
    omega

/-- A bit vector of as many bits as bytes gives them back. -/
theorem toBytes_ofNat_ofBytes {bs : List Byte} {n w : Nat} (hn : bs.length = n) (hw : 8 * n = w) :
    toBytes n (BitVec.ofNat w (ofBytes bs)).toNat = bs := by
  subst hn hw
  rw [BitVec.toNat_ofNat, Nat.mod_eq_of_lt (ofBytes_lt bs), toBytes_ofBytes]

/-! ## The parts of a chunk (08 R169) -/

/-- The elements as a chunk of width code `w` holds them. -/
def chunkElems (w : Nat) (els : List Nat) : List Nat := els.map (· % 2 ^ (8 * chunkBytes w))

/-- Bit by bit, which elements are not zero: MAP of a chunk. -/
def chunkMap (xs : List Nat) : Nat := packNat 1 (fun i => (decide (xs.getD i 0 ≠ 0)).toNat) 128

theorem chunkMap_eq (xs : List Nat) : chunkMap xs = packNat 1 (fun i => if xs.getD i 0 = 0 then 0 else 1) 128 := by
  unfold chunkMap
  congr 1
  funext i
  rw [decide_not]
  split
  next h => rw [decide_eq_true h]; rfl
  next h => rw [decide_eq_false h]; rfl

/-- The bytes of the elements that are not zero, in order. -/
def chunkData (w : Nat) (xs : List Nat) : List Byte := (xs.filter (· ≠ 0)).flatMap (toBytes (chunkBytes w))

/-- The header of a chunk (08 R169). -/
def chunkHeader (w : Nat) (xs : List Nat) : List Byte :=
  toBytes 16 (chunkMap xs) ++ [BitVec.ofNat 8 w, 0] ++ toBytes 2 (chunkLines (xs.filter (· ≠ 0)).length w) ++ List.replicate 12 0

@[simp] theorem length_chunkHeader (w : Nat) (xs : List Nat) : (chunkHeader w xs).length = 32 := by simp [chunkHeader]

theorem chunkBytes_le (w : Nat) : chunkBytes w ≤ 4 := by
  unfold chunkBytes
  split_ifs <;> decide

/-- The data of 128 elements end before the chunk does. -/
theorem length_chunkData_le {w : Nat} {xs : List Nat} (h : xs.length = 128) : (chunkData w xs).length ≤ 512 := by
  have hlen : (chunkData w xs).length = (xs.filter (· ≠ 0)).length * chunkBytes w := by simp [chunkData]
  rw [hlen]
  exact Nat.mul_le_mul ((List.length_filter_le _ _).trans_eq h) (chunkBytes_le w)

/-- A chunk is its header, its data and zeros. -/
theorem chunkOf_eq (w : Nat) {els : List Nat} (h : els.length = 128) : ∃ n, chunkOf w els =
    chunkHeader w (chunkElems w els) ++ (chunkData w (chunkElems w els) ++ List.replicate n 0) := by
  have hlen := length_chunkHeader w (chunkElems w els)
  have hdata : (chunkData w (chunkElems w els)).length ≤ 512 := length_chunkData_le (by rw [chunkElems, List.length_map, h])
  have hchunk : chunkOf w els = (chunkHeader w (chunkElems w els) ++ chunkData w (chunkElems w els) ++ List.replicate 1024 0).take 1024 := by
    rw [chunkHeader, chunkMap_eq]
    rfl
  refine ⟨1024 - (32 + (chunkData w (chunkElems w els)).length), ?_⟩
  rw [hchunk, List.take_append, List.take_of_length_le (by rw [List.length_append]; omega), List.take_replicate, List.length_append, hlen,
    Nat.min_eq_left (Nat.sub_le ..), List.append_assoc]

/-! ## The header's fields (08 R169) -/

/-- A bit of MAP says whether its element is not zero. -/
theorem bit_chunkMap (xs : List Nat) {k : Nat} (hk : k < 128) : bit (chunkMap xs) k = decide (xs.getD k 0 ≠ 0) := by
  rw [bit_eq_testBit, chunkMap, testBit_packNat hk]

theorem chunkMap_lt (xs : List Nat) : chunkMap xs < 2 ^ (8 * 16) :=
  packNat_lt (w := 1) (n := 128) fun _ _ => Bool.toNat_lt _

/-- MAP counts the elements that are not zero. -/
theorem popcount_chunkMap {xs : List Nat} (h : xs.length = 128) : chunkBad.popcountNat (chunkMap xs) = (xs.filter (· ≠ 0)).length := by
  have hxs : (List.range 128).map (fun i => xs.getD i 0) = xs :=
    List.ext_getElem (by simp [h]) (fun i _ hi => by rw [List.getElem_map, List.getElem_range, List.getD_eq_getElem _ _ hi])
  have hbits : (List.range 128).filter (bit (chunkMap xs)) = (List.range 128).filter (fun i => decide (xs.getD i 0 ≠ 0)) :=
    List.filter_congr fun i hi => bit_chunkMap xs (List.mem_range.mp hi)
  conv_rhs => rw [← hxs, List.filter_map, List.length_map]
  exact congrArg List.length hbits

/-- The lines of 128 elements fit LINES. -/
theorem chunkLines_lt {n : Nat} (hn : n ≤ 128) (w : Nat) : chunkLines n w < 2 ^ 16 := by
  have hmul : n * chunkBytes w ≤ 128 * 4 := Nat.mul_le_mul hn (chunkBytes_le w)
  rw [chunkLines, ceilDiv]
  omega

/-- The parts of a byte string that is laid out as a chunk is. -/
theorem header_fields {m l z : List Byte} (hm : m.length = 16) (hl : l.length = 2) (hz : z.length = 12) (b c : Byte) (r : List Byte) :
    field (m ++ [b, c] ++ l ++ z ++ r) 0 16 = ofBytes m ∧ field (m ++ [b, c] ++ l ++ z ++ r) 16 1 = b.toNat ∧
      field (m ++ [b, c] ++ l ++ z ++ r) 17 1 = c.toNat ∧ field (m ++ [b, c] ++ l ++ z ++ r) 18 2 = ofBytes l ∧
      ((m ++ [b, c] ++ l ++ z ++ r).drop 20).take 12 = z := by
  have hdrop {n : Nat} (hn : 16 ≤ n) : m.drop n = [] := List.drop_of_length_le (hm.trans_le hn)
  simp [field, List.drop_append, List.take_append, hm, hl, hz, hdrop, ofBytes]

/-- What the header of 128 elements says of them (08 R169). -/
theorem chunkHeader_fields {w : Nat} (hw : w < 3) {xs : List Nat} (hxs : xs.length = 128) (r : List Byte) :
    field (chunkHeader w xs ++ r) 0 16 = chunkMap xs ∧ field (chunkHeader w xs ++ r) 16 1 = w ∧ field (chunkHeader w xs ++ r) 17 1 = 0 ∧
      field (chunkHeader w xs ++ r) 18 2 = chunkLines (xs.filter (· ≠ 0)).length w ∧ zeroBytes (chunkHeader w xs ++ r) 20 12 = true := by
  obtain ⟨hmap, hwidth, hres, hlines, hzero⟩ := header_fields (length_toBytes 16 (chunkMap xs))
    (length_toBytes 2 (chunkLines (xs.filter (· ≠ 0)).length w)) (List.length_replicate (n := 12) (a := (0 : Byte))) (BitVec.ofNat 8 w) 0 r
  rw [ofBytes_toBytes, Nat.mod_eq_of_lt (chunkMap_lt xs)] at hmap
  rw [BitVec.toNat_ofNat, Nat.mod_eq_of_lt (by omega)] at hwidth
  rw [ofBytes_toBytes, Nat.mod_eq_of_lt (chunkLines_lt ((List.length_filter_le ..).trans_eq hxs) w)] at hlines
  exact ⟨hmap, hwidth, hres, hlines, by rw [zeroBytes, chunkHeader, hzero]; rfl⟩

/-! ## Expanding (08 R170) -/

/-- Expanding takes the elements that are not zero from the data, and zero where the bit of MAP is 0. -/
theorem chunkExpand_data {w map : Nat} (r : List Byte) {xs : List Nat} (hlen : xs.length ≤ 128) (hfit : ∀ x ∈ xs, x < 2 ^ (8 * chunkBytes w))
    (hmap : ∀ i, i < xs.length → bit map (128 - xs.length + i) = decide (xs.getD i 0 ≠ 0)) :
    chunkExpand map w xs.length (chunkData w xs ++ r) = xs.map (BitVec.ofNat 32) := by
  induction xs with
  | nil => rfl
  | cons x xs ih =>
    rw [List.length_cons] at hlen hmap ⊢
    have hbit : bit map (127 - xs.length) = decide (x ≠ 0) := by
      have := hmap 0 (by omega)
      rwa [List.getD_cons_zero, show 128 - (xs.length + 1) + 0 = 127 - xs.length by omega] at this
    have ih := ih (by omega) (fun y hy => hfit y (List.mem_cons_of_mem _ hy)) fun i hi => by
      have := hmap (i + 1) (by omega)
      rwa [List.getD_cons_succ, show 128 - (xs.length + 1) + (i + 1) = 128 - xs.length + i by omega] at this
    rw [chunkExpand, hbit, List.map_cons]
    by_cases hx : x = 0
    · have hdata : chunkData w (x :: xs) = chunkData w xs := by simp [chunkData, hx]
      rw [if_neg (by simpa using hx), hdata, ih, hx]
      rfl
    · have hdata : chunkData w (x :: xs) = toBytes (chunkBytes w) x ++ chunkData w xs := by simp [chunkData, hx]
      rw [if_pos (by simpa using hx), hdata, List.append_assoc, List.take_left' (length_toBytes ..), List.drop_left' (length_toBytes ..), ih,
        ofBytes_toBytes, Nat.mod_eq_of_lt (hfit x List.mem_cons_self)]

theorem chunkRoundTrip : Claims.ChunkRoundTrip := by
  intro w els hw hels
  have hlen : (chunkElems w els).length = 128 := by rw [chunkElems, List.length_map, hels]
  obtain ⟨n, hchunk⟩ := chunkOf_eq w hels
  rw [hchunk]
  obtain ⟨hmap, hwidth, hres, hlines, hzero⟩ := chunkHeader_fields hw hlen (chunkData w (chunkElems w els) ++ List.replicate n 0)
  refine ⟨?_, ?_⟩
  · have hw2 : ¬2 < w := by omega
    simp only [chunkBad, hmap, hwidth, hres, hlines, hzero, popcount_chunkMap hlen, decide_eq_false hw2]
    simp
  · rw [chunkLanes, hmap, hwidth, List.drop_left' (length_chunkHeader ..), ← hlen, chunkExpand_data]
    · rw [chunkElems, List.map_map]
      rfl
    · exact hlen.le
    · intro x hx
      obtain ⟨y, -, rfl⟩ := List.mem_map.mp hx
      exact Nat.mod_lt _ (Nat.two_pow_pos _)
    · intro i hi
      rw [hlen, Nat.sub_self, Nat.zero_add]
      exact bit_chunkMap _ (by omega)

end Sys2Proof.Machine
end

section
/-!
CERTIFICATES. The conversion families (08 R158-R162) and the slots of zero-run chunks (08 R170).
-/

namespace Sys2Proof.Machine

open State

theorem length_chunkOf (w : Nat) (els : List Nat) : (chunkOf w els).length = 1024 := by
  simp only [chunkOf, List.length_take, List.length_append, List.length_replicate]
  omega

/-- The two registers of a chunk that XCMP leaves hold its bytes (08 R170). -/
theorem chunk_registers (w : Nat) (els : List Nat) :
    toBytes 512 (BitVec.ofNat 4096 (ofBytes ((chunkOf w els).take 512))).toNat ++
      toBytes 512 (BitVec.ofNat 4096 (ofBytes ((chunkOf w els).drop 512))).toNat = chunkOf w els := by
  have hlen := length_chunkOf w els
  rw [toBytes_ofNat_ofBytes (by rw [List.length_take, hlen]; rfl) rfl, toBytes_ofNat_ofBytes (by rw [List.length_drop, hlen]) rfl,
    List.take_append_drop]

/-- A chunk that is not malformed expands (08 R170). -/
theorem execXexd_leaves {s : State} {h : Hdr} {d a : BitVec 5} (hi : Issues (.xexd h d a) h s)
    (hc : chunkBad (toBytes 512 (s.rv a).toNat ++ toBytes 512 (s.rv (a + 1)).toNat) = false) :
    execXexd h d a s = .next (s.leaves (.xexd h d a) 8
      [s.wV d (ofLaneList (chunkLanes (toBytes 512 (s.rv a).toNat ++ toBytes 512 (s.rv (a + 1)).toNat)))]) :=
  slotOp_leaves (fun _ => if_neg (Bool.eq_false_iff.mp hc)) hi

theorem vectorConversionSlotResults : Claims.VectorConversionResults := fun s h d a rnd fmt pl x =>
  ⟨by unfold exec execVcvt; exact vecOp_leaves (fun _ => rfl),
   by unfold exec execVcvf; exact vecOp_leaves (fun _ => rfl),
   by unfold exec execVsxp; exact vecOp_leaves (fun _ => rfl),
   by unfold exec execVplnSplit; exact vecOp_leaves (fun _ => rfl),
   by unfold exec execVplnJoin; exact vecOp_leaves (fun _ => rfl),
   by unfold exec execVrnd; exact vecOp_leaves (fun _ => rfl),
   by unfold exec execXcmp; exact fun hi => ⟨_, _, slotOp_leaves (fun _ => rfl) hi, chunk_registers _ _⟩,
   by unfold exec; exact execXexd_leaves⟩

/-! ## Lane by lane -/

/-- The random bits of a lane are its upper half (08 R158). -/
theorem rbLane_eq (v : VReg) (k : Nat) : rbLane v k = (lane v k).toNat / 2 ^ 16 := by
  have := (lane v k).isLt
  rw [rbLane, bits]
  omega

/-- A value as a lane of an integer format is clamped to the format's range (07 R134). -/
theorem valLane_int {f : BitVec 4} (hf : isInt f = true) (mode : Rnd) (rb : Nat) (x : FVal) :
    (valLane f mode rb x).1 = BitVec.ofInt 32 (x.toIntSat mode rb (-(2 ^ (fmtBits f - 1))) (2 ^ (fmtBits f - 1) - 1)).1 := by
  rw [valLane, if_pos hf, intLo, intHi]
  push_cast
  rfl

/-- A value as a lane of a floating-point format is rounded once (07 R129). -/
theorem valLane_fp {f : BitVec 4} (hf : ¬isInt f = true) (mode : Rnd) (rb : Nat) (x : FVal) :
    (valLane f mode rb x).1 = BitVec.ofNat 32 ((fpFmt f).round mode rb x) := by
  rw [valLane, if_neg hf]
  rfl

/-- What VCVT leaves, lane by lane or pair by pair (08 R159). -/
theorem vcvtReg_lanes (f : BitVec 4) (mode : Rnd) (v d : VReg) :
    if f = Fmt.fp64 then ∀ j, j < 64 → lane64 (vcvtReg f mode v d) j = BitVec.ofNat 64 (f64.rne (f32.decode (lane v (2 * j)).toNat))
    else if isInt f then ∀ k, k < 128 → lane (vcvtReg f mode v d) k = BitVec.ofInt 32 ((f32.decode (lane v k).toNat).toIntSat mode
      ((lane d k).toNat / 2 ^ 16) (-(2 ^ (fmtBits f - 1))) (2 ^ (fmtBits f - 1) - 1)).1
    else ∀ k, k < 128 → lane (vcvtReg f mode v d) k =
      BitVec.ofNat 32 ((fpFmt f).round mode ((lane d k).toNat / 2 ^ 16) (f32.decode (lane v k).toNat)) := by
  by_cases h64 : f = Fmt.fp64
  · simp only [vcvtReg, if_pos h64]
    exact fun j hj => lane64_ofLanes64 _ hj
  · simp only [vcvtReg, if_neg h64, ← rbLane_eq]
    by_cases hint : isInt f = true
    · rw [if_pos hint]
      exact fun k hk => (lane_ofLanes _ hk).trans (valLane_int hint ..)
    · rw [if_neg hint]
      exact fun k hk => (lane_ofLanes _ hk).trans (valLane_fp hint ..)

/-- The signed reading of low bits looks at no other bits. -/
theorem sext_mod (n x : Nat) : sext n (x % 2 ^ n) = sext n x := by
  rw [sext, Nat.mod_mod]
  rfl

/-- The value of a lane, by the kind of its format (03 R54, R57, R58). -/
theorem laneVal_eq {f : BitVec 4} (hf : f ≠ Fmt.fp64) (v : VReg) (k : Nat) : laneVal f (lane v k) =
    if Fmt.sx f then sxDecode f ((lane v k).extractLsb' 16 8).toNat ((lane v k).extractLsb' 8 2).toNat ((lane v k).getLsbD 7)
      ((lane v k).toNat % 2 ^ sxBits f)
    else if isInt f then FVal.ofInt (elemInt f v k) else elemFp f v k := by
  have hfield (hi lo : Nat) : bits (lane v k).toNat hi lo = ((lane v k).extractLsb' lo (hi + 1 - lo)).toNat := by
    rw [bits, BitVec.extractLsb'_toNat, Nat.shiftRight_eq_div_pow]
  rw [laneVal, sxLane, hfield, hfield, elemInt, elemFp, elem, if_neg hf, sext_mod]

/-- What VCVF leaves, lane by lane; of an FP64 value in the even lane of its pair (08 R159). -/
theorem vcvfReg_lanes (f : BitVec 4) (mode : Rnd) (v d : VReg) :
    if f = Fmt.fp64 then ∀ j, j < 64 → lane (vcvfReg f mode v d) (2 * j) =
        BitVec.ofNat 32 (f32.round mode ((lane d (2 * j)).toNat / 2 ^ 16) (f64.decode (lane64 v j).toNat)) ∧
      lane (vcvfReg f mode v d) (2 * j + 1) = 0
    else ∀ k, k < 128 → lane (vcvfReg f mode v d) k =
      BitVec.ofNat 32 (f32.round mode ((lane d k).toNat / 2 ^ 16) (laneVal f (lane v k))) := by
  by_cases h64 : f = Fmt.fp64
  · simp only [vcvfReg, if_pos h64, ← rbLane_eq]
    intro j hj
    rw [lane_ofLanes _ (by omega), lane_ofLanes _ (by omega), if_pos (by omega), if_neg (by omega), Nat.mul_div_cancel_left _ (by decide)]
    exact ⟨rfl, rfl⟩
  · simp only [vcvfReg, if_neg h64, ← rbLane_eq]
    exact fun k hk => lane_ofLanes _ hk

/-- What VRND leaves, element by element (08 R162). -/
theorem vrndReg_lanes (f : BitVec 4) (mode : Rnd) (v d : VReg) :
    let r := ofElems f (fun e => (fpFmt f).rne ((elemFp f v e).integral mode (rbLane d e)))
    if f = Fmt.fp64 then ∀ j, j < 64 → lane64 r j = BitVec.ofNat 64 (f64.rne ((elemFp f v j).integral mode ((lane d j).toNat / 2 ^ 16)))
    else ∀ k, k < 128 → lane r k = laneOut f ((fpFmt f).rne ((elemFp f v k).integral mode ((lane d k).toNat / 2 ^ 16))) := by
  simp only [← rbLane_eq]
  have h := pairsOrLanes_elems f (fun e => BitVec.ofNat 64 ((fpFmt f).rne ((elemFp f v e).integral mode (rbLane d e))))
    (fun e => laneOut f ((fpFmt f).rne ((elemFp f v e).integral mode (rbLane d e))))
  by_cases h64 : f = Fmt.fp64
  · subst h64
    exact h
  · rwa [if_neg h64] at h ⊢

theorem convertedLanes : Claims.ConvertedLanes := by
  intro s h d a rnd fmt
  obtain ⟨hvcvt, hvcvf, -, -, -, hvrnd, -, -⟩ := vectorConversionSlotResults s h d a rnd fmt 0 false
  refine ⟨fun hi => ⟨_, hvcvt hi, vcvtReg_lanes ..⟩, fun hi => ⟨_, hvcvf hi, ?_⟩, fun hi => ⟨_, hvrnd hi, vrndReg_lanes ..⟩⟩
  have hlanes := vcvfReg_lanes fmt (Rnd.ofCode rnd) (s.rv a) (s.rv d)
  by_cases h64 : fmt = Fmt.fp64
  · rwa [if_pos h64] at hlanes ⊢
  · rw [if_neg h64] at hlanes ⊢
    simpa only [laneVal_eq h64] using hlanes

/-- Settles O34: a register converted lane by lane reads back lane by lane, and a chunk's header and data are what expanding looks for. -/
theorem vectorConversionResults : Obligations.VectorConversionResults := ⟨vectorConversionSlotResults, convertedLanes, chunkRoundTrip⟩

end Sys2Proof.Machine
end

section
/-!
SUPPORT. The governor's tables, entries and layers after an update (11 R207-R209).
PROOF. Changes of the governor outside a slot (09 R188, R190; 11 R207, R209), queues that move and banks that are given up
(12 R225, R234; 14 R262, R263): O48.
-/

namespace Sys2Proof.Machine

open State

/-! ## Tables, entries and layers -/

theorem SMap.get_upd {α : Type} [DecidableEq α] (d : α) (t : SMap α) (k : Nat) (f : α → α) (j : Nat) :
    (t.upd d k f).get d j = if k = j then f (t.get d j) else t.get d j := by
  rw [SMap.upd, SMap.get_put]
  split
  case isTrue h => rw [h]
  case isFalse => rfl

theorem govTable_modGov (s : State) (t k : Nat) (f : GovTable → GovTable) :
    govTable (modGov s t f) k = if t = k then f (govTable s k) else govTable s k := SMap.get_upd ..

theorem govEntry_modEntry (s : State) (t x k m : Nat) (f : GovEntry → GovEntry) :
    govEntry (modEntry s t x f) k m = if t = k ∧ x = m then f (govEntry s k m) else govEntry s k m := by
  rw [govEntry, modEntry, govTable_modGov]
  by_cases ht : t = k
  · simp only [ht, if_true, true_and, SMap.get_upd]
    rfl
  · simp only [ht, if_false, false_and]
    rfl

theorem govEntry_modEntry_same (s : State) (t x : Nat) (f : GovEntry → GovEntry) : govEntry (modEntry s t x f) t x = f (govEntry s t x) := by
  rw [govEntry_modEntry, if_pos ⟨rfl, rfl⟩]

theorem govEntry_modEntry_ne (s : State) {t x k m : Nat} (f : GovEntry → GovEntry) (h : ¬(k = t ∧ m = x)) :
    govEntry (modEntry s t x f) k m = govEntry s k m := by
  rw [govEntry_modEntry, if_neg (fun he => h ⟨he.1.symm, he.2.symm⟩)]

theorem layers_modEntry (s : State) (t x k : Nat) (f : GovEntry → GovEntry) : (govTable (modEntry s t x f) k).layers = (govTable s k).layers := by
  rw [modEntry, govTable_modGov]
  split <;> rfl

/-! ## Assignment (11 R207, R209) -/

theorem exec_govtabAssign (s : State) {tb p : Nat} (htb : tb < 32) (hp : p < 1024) :
    exec .govtabAssign (s.given (.govtabAssign tb p)) = .next (govAssign (s.given (.govtabAssign tb p)) tb p) :=
  have hok : (Ev.govtabAssign tb p).ok = true := by simp [Ev.ok, Ev.unitOk, Ev.hdrOk, Ev.message, htb, hp]
  (show execGovtabAssign _ = _ from evStep_given s (.govtabAssign tb p) hok rfl)

theorem exec_govtabRelease (s : State) {tb p : Nat} (htb : tb < 32) (hp : p < 1024) :
    exec .govtabRelease (s.given (.govtabRelease tb p)) = .next (govRelease (s.given (.govtabRelease tb p)) tb p) :=
  have hok : (Ev.govtabRelease tb p).ok = true := by simp [Ev.ok, Ev.unitOk, Ev.hdrOk, Ev.message, htb, hp]
  (show execGovtabRelease _ = _ from evStep_given s (.govtabRelease tb p) hok rfl)

/-- An entry put where nothing else satisfies a test is what the test finds. -/
theorem find_insert {α : Type} {t : SMap α} {k : Nat} {x : α} {p : Nat × α → Bool} (hx : p (k, x) = true) (ht : ∀ e ∈ t, p e = false) :
    (t.insert k x).find? p = some (k, x) := by
  induction t with
  | nil => simp [SMap.insert, hx]
  | cons e r ih =>
    obtain ⟨j, y⟩ := e
    obtain ⟨he, hr⟩ := List.forall_mem_cons.mp ht
    unfold SMap.insert
    split
    · exact List.find?_cons_of_pos hx
    · split
      · exact List.find?_cons_of_pos hx
      · rw [List.find?_cons_of_neg (by simp [he]), ih hr]

theorem govAssign_assigns (s : State) (tb p : Nat) :
    govTable (govAssign s tb p) tb = { proc := some p } ∧ govTableOf (govAssign s tb p) p = some tb := by
  refine ⟨?_, ?_⟩
  · rw [govTable, govAssign, SMap.get_insert, if_pos rfl]
  · refine congrArg (Option.map (·.1)) (find_insert (p := fun t : Nat × GovTable => t.2.proc == some p) (x := { proc := some p })
      (beq_self_eq_true (some p)) fun e he => ?_)
    obtain ⟨d, -, rfl⟩ := List.mem_map.mp he
    split
    · rfl
    · next hne => exact beq_false_of_ne hne

theorem govRelease_releases {s : State} {tb p : Nat} (h : (govTable s tb).proc = some p) :
    govTable (govRelease s tb p) tb = {} ∧ (∀ k, k ≠ tb → govTable (govRelease s tb p) k = govTable s k) ∧
      (govRelease s tb p).ctxs = s.ctxs ∧ (govRelease s tb p).mem = s.mem := by
  rw [govRelease, if_pos h]
  refine ⟨?_, fun k hk => ?_, rfl, rfl⟩
  · rw [govTable, SMap.get_erase, if_pos rfl]
  · rw [govTable, SMap.get_erase, if_neg hk.symm]
    rfl

/-! ## Sets and clears at their effect cc (09 R187, R188) -/

/-- The state in which a change takes effect: it has left the queue of changes. -/
def govTaken (s : State) (e : Ev) (id : Nat) : State := { s.given e with govQ := s.govQ.erase id }

theorem govEntry_govTaken (s : State) (e : Ev) (id t x : Nat) : govEntry (govTaken s e id) t x = govEntry s t x := rfl
theorem govTable_govTaken (s : State) (e : Ev) (id t : Nat) : govTable (govTaken s e id) t = govTable s t := rfl

theorem exec_govEffect_set {s : State} {id tb x : Nat} {w : Word} (h : s.govQ.find? (fun e => e.1 == id) = some (id, .set tb x w)) :
    exec .govEffect (s.given (.govEffect id)) = .next (modEntry (govTaken s (.govEffect id) id) tb x (setEntry w)) := by
  refine (show execGovEffect _ = _ from evStep_given s (.govEffect id) rfl rfl).trans ?_
  rw [show (s.given (.govEffect id)).govQ = s.govQ from rfl, h]
  rfl

theorem exec_govEffect_clr {s : State} {id tb x : Nat} (h : s.govQ.find? (fun e => e.1 == id) = some (id, .clr tb x)) :
    exec .govEffect (s.given (.govEffect id)) = .next (modEntry (govTaken s (.govEffect id) id) tb x clearEntry) := by
  refine (show execGovEffect _ = _ from evStep_given s (.govEffect id) rfl rfl).trans ?_
  rw [show (s.given (.govEffect id)).govQ = s.govQ from rfl, h]
  rfl

/-- A set counts a revision exactly when the encoding changes (09 R188). -/
theorem setEntry_rev (w : Word) (g : GovEntry) :
    (setEntry w g).rev = if (setEntry w g).fmt = g.fmt ∧ (setEntry w g).bs32 = g.bs32 then g.rev else g.rev + 1 := by
  simp only [setEntry, clearEntry, Bool.or_eq_true, bne_iff_ne, ne_eq, ← not_and_or, ite_not]

/-! ## GSTEP at its effect cc (09 R190) -/

/-- The armed entries of a range. -/
def armedIn (tab : GovTable) (lo cnt : Nat) : List Nat := ((List.range cnt).map (· + lo)).filter (fun x => (tab.entries.get {} x).armed)

/-- The decision for an entry of a table, from the accumulators as they stand. -/
def decided (tab : GovTable) (kappa : BitVec 64) (hyst : BitVec 16) (x : Nat) : GovEntry × Bool :=
  stepEntry kappa hyst (tab.layers.get {} (x / 4)) (tab.entries.get {} x)

/-- The entries `xs` of a table are replaced. -/
def replaceEntries (s : State) (t : Nat) (g : Nat → GovEntry) (xs : List Nat) : State :=
  xs.foldl (fun (s : State) x => modEntry s t x (fun _ => g x)) s

/-- The layers of the entries `xs` are cleared. -/
def clearLayers (xs : List Nat) (ls : SMap GovLayer) : SMap GovLayer := xs.foldl (fun (ls : SMap GovLayer) x => ls.put {} (x / 4) {}) ls

/-- GSTEP over a range with a policy: the armed entries replaced and the layers that they used cleared. -/
def stepped (s : State) (t lo cnt : Nat) (kappa : BitVec 64) (hyst : BitVec 16) : State :=
  let xs := armedIn (govTable s t) lo cnt
  modGov (replaceEntries s t (fun x => (decided (govTable s t) kappa hyst x).1) xs) t (fun g => { g with layers := clearLayers xs g.layers })

theorem govStep_eq {s : State} {t : Nat} {kappa : BitVec 64} {hyst : BitVec 16} (h : (govTable s t).kappa = some (kappa, hyst)) (lo cnt : Nat) :
    govStep s t lo cnt =
      (stepped s t lo cnt kappa hyst, ((armedIn (govTable s t) lo cnt).filter (fun x => (decided (govTable s t) kappa hyst x).2)).length) := by
  unfold govStep
  dsimp only
  rw [h]
  dsimp only
  refine Prod.ext ?_ ?_
  · rw [List.foldl_map]
    rfl
  · exact (congrArg List.length List.filter_map).trans (List.length_map _)

theorem govEntry_replaceEntries (s : State) (t : Nat) (g : Nat → GovEntry) (xs : List Nat) (m : Nat) :
    govEntry (replaceEntries s t g xs) t m = if m ∈ xs then g m else govEntry s t m := by
  induction xs generalizing s with
  | nil => simp [replaceEntries]
  | cons x xs ih =>
    rw [show replaceEntries s t g (x :: xs) = replaceEntries (modEntry s t x (fun _ => g x)) t g xs from rfl, ih, govEntry_modEntry]
    by_cases hx : x = m
    · subst hx; simp
    · simp [hx, Ne.symm hx]

theorem layers_replaceEntries (s : State) (t : Nat) (g : Nat → GovEntry) (xs : List Nat) :
    (govTable (replaceEntries s t g xs) t).layers = (govTable s t).layers :=
  foldl_keeps (p := fun u : State => (govTable u t).layers) (fun _ _ => layers_modEntry ..) xs s

/-- What a replacement of entries leaves alone. -/
theorem replaceEntries_keeps (s : State) (t : Nat) (g : Nat → GovEntry) (xs : List Nat) :
    (replaceEntries s t g xs).ctxs = s.ctxs ∧ (replaceEntries s t g xs).mem = s.mem :=
  Prod.ext_iff.mp (foldl_keeps (f := fun (s : State) x => modEntry s t x (fun _ => g x)) (p := fun u : State => (u.ctxs, u.mem)) (fun _ _ => rfl) xs s)

theorem get_clearLayers (xs : List Nat) (ls : SMap GovLayer) (k : Nat) :
    (clearLayers xs ls).get {} k = if xs.any (fun x => x / 4 == k) then {} else ls.get {} k := by
  induction xs generalizing ls with
  | nil => rfl
  | cons x xs ih =>
    rw [show clearLayers (x :: xs) ls = clearLayers xs (ls.put {} (x / 4) {}) from rfl, ih, SMap.get_put, List.any_cons]
    by_cases hx : x / 4 = k <;> simp [hx]

theorem mem_armedIn {tab : GovTable} {lo cnt m : Nat} :
    m ∈ armedIn tab lo cnt ↔ (decide (lo ≤ m ∧ m < lo + cnt) && (tab.entries.get {} m).armed) = true := by
  rw [armedIn, List.mem_filter, List.mem_map, Bool.and_eq_true, decide_eq_true_iff]
  refine and_congr_left fun _ => ⟨?_, fun h => ⟨m - lo, List.mem_range.mpr (by omega), by omega⟩⟩
  rintro ⟨i, hi, rfl⟩
  have := List.mem_range.mp hi
  omega

/-- What holds of some armed entry of a range, counted from the range's first. -/
theorem any_armedIn (tab : GovTable) (lo cnt : Nat) (q : Nat → Bool) : (armedIn tab lo cnt).any q =
    (List.range cnt).any (fun i => decide (lo ≤ lo + i ∧ lo + i < lo + cnt) && (tab.entries.get {} (lo + i)).armed && q (lo + i)) := by
  rw [Bool.eq_iff_iff, List.any_eq_true, List.any_eq_true]
  constructor
  · rintro ⟨m, hm, hq⟩
    have hhit := mem_armedIn.mp hm
    obtain ⟨hlo, -⟩ := of_decide_eq_true (Bool.and_eq_true_iff.mp hhit).1
    obtain ⟨i, rfl⟩ := Nat.exists_eq_add_of_le hlo
    exact ⟨i, List.mem_range.mpr (by have := of_decide_eq_true (Bool.and_eq_true_iff.mp hhit).1; omega), Bool.and_eq_true_iff.mpr ⟨hhit, hq⟩⟩
  · rintro ⟨i, -, hi⟩
    obtain ⟨hhit, hq⟩ := Bool.and_eq_true_iff.mp hi
    exact ⟨lo + i, mem_armedIn.mpr hhit, hq⟩

/-- How many armed entries of a range satisfy a test. -/
theorem length_filter_armedIn (tab : GovTable) (lo cnt : Nat) (q : Nat → Bool) : ((armedIn tab lo cnt).filter q).length =
    ((List.range cnt).filter (fun i => decide (lo ≤ lo + i ∧ lo + i < lo + cnt) && (tab.entries.get {} (lo + i)).armed && q (lo + i))).length := by
  rw [armedIn, List.filter_filter, List.filter_map, List.length_map]
  refine congrArg List.length (List.filter_congr fun i hi => ?_)
  have hlt := List.mem_range.mp hi
  rw [Function.comp, Nat.add_comm i lo, decide_eq_true (by omega : lo ≤ lo + i ∧ lo + i < lo + cnt), Bool.true_and, Bool.and_comm]

theorem govEntry_stepped (s : State) (t lo cnt : Nat) (kappa : BitVec 64) (hyst : BitVec 16) (m : Nat) :
    govEntry (stepped s t lo cnt kappa hyst) t m =
      if decide (lo ≤ m ∧ m < lo + cnt) && (govEntry s t m).armed then (decided (govTable s t) kappa hyst m).1 else govEntry s t m := by
  rw [govEntry, stepped, govTable_modGov, if_pos rfl]
  exact (govEntry_replaceEntries ..).trans (if_congr mem_armedIn rfl rfl)

theorem layers_stepped (s : State) (t lo cnt : Nat) (kappa : BitVec 64) (hyst : BitVec 16) (k : Nat) :
    (govTable (stepped s t lo cnt kappa hyst) t).layers.get {} k =
      if (List.range cnt).any (fun i => decide (lo ≤ lo + i ∧ lo + i < lo + cnt) && (govEntry s t (lo + i)).armed && (lo + i) / 4 == k) then {}
      else (govTable s t).layers.get {} k := by
  rw [stepped, govTable_modGov, if_pos rfl]
  dsimp only
  rw [layers_replaceEntries, get_clearLayers, any_armedIn]
  rfl

theorem stepped_keeps (s : State) (t lo cnt : Nat) (kappa : BitVec 64) (hyst : BitVec 16) :
    (stepped s t lo cnt kappa hyst).ctxs = s.ctxs ∧ (stepped s t lo cnt kappa hyst).mem = s.mem := replaceEntries_keeps ..

theorem exec_gstepEffect {s : State} {id tb lo cnt ref : Nat} {a : Agent} (h : s.govQ.find? (fun e => e.1 == id) = some (id, .step tb lo cnt a ref)) :
    exec .gstepEffect (s.given (.gstepEffect id)) =
      let r := govStep (govTaken s (.gstepEffect id) id) tb lo cnt
      .next (fillResult r.1 a ref (BitVec.ofNat 64 r.2)) := by
  refine (show execGstepEffect _ = _ from evStep_given s (.gstepEffect id) rfl rfl).trans ?_
  rw [show (s.given (.gstepEffect id)).govQ = s.govQ from rfl, h]
  rfl

/-- The result whose value was to come is there. -/
theorem mem_fillResult (s : State) {a : Agent} {e : Flight} {ref : Nat} {r : BitVec 5} {y : Word} (x : Word) (he : e ∈ (s.ctx a).flight)
    (hid : e.id = ref) (hkind : e.kind = .fixed) (hwait : e.arrived = false) (hw : e.writes = [.s r y]) :
    { e with arrived := true, writes := [.s r x] } ∈ ((fillResult s a ref x).ctx a).flight := by
  rw [fillResult, ctx_modCtx]
  exact List.mem_map.mpr ⟨e, he, by rw [if_pos ⟨hid, hkind, by rw [hwait]; rfl⟩, hw]; rfl⟩

theorem live_fillResult (s : State) (a : Agent) (ref : Nat) (x : Word) : ((fillResult s a ref x).ctx a).live = (s.ctx a).live := by
  rw [fillResult, ctx_modCtx]

theorem gstepEffect_steps {s : State} {id tb lo cnt ref : Nat} {a : Agent} {kappa : BitVec 64} {hyst : BitVec 16}
    (h : s.govQ.find? (fun e => e.1 == id) = some (id, .step tb lo cnt a ref)) (hkappa : (govTable s tb).kappa = some (kappa, hyst)) :
    ∃ u, u.gov = (stepped (govTaken s (.gstepEffect id) id) tb lo cnt kappa hyst).gov ∧ u.ctxs = s.ctxs ∧ u.mem = s.mem ∧
      exec .gstepEffect (s.given (.gstepEffect id)) = .next (fillResult u a ref (BitVec.ofNat 64 ((List.range cnt).filter (fun i =>
        decide (lo ≤ lo + i ∧ lo + i < lo + cnt) && (govEntry s tb (lo + i)).armed && (decided (govTable s tb) kappa hyst (lo + i)).2)).length)) := by
  obtain ⟨hctxs, hmem⟩ := stepped_keeps (govTaken s (.gstepEffect id) id) tb lo cnt kappa hyst
  refine ⟨_, rfl, hctxs, hmem, (exec_gstepEffect h).trans ?_⟩
  rw [govStep_eq ((govTable_govTaken ..).symm ▸ hkappa), length_filter_armedIn]
  rfl

theorem governorEvents : Claims.GovernorEventResults := by
  intro s tb p x id w
  refine ⟨fun htb hp => ⟨?_, fun hproc => ?_⟩, fun hset => ?_, fun hclr => ?_, fun lo cnt a ref kappa hyst hq hkappa => ?_⟩
  · obtain ⟨htable, hof⟩ := govAssign_assigns (s.given (.govtabAssign tb p)) tb p
    exact ⟨_, exec_govtabAssign s htb hp, htable, hof, rfl, rfl⟩
  · exact ⟨_, exec_govtabRelease s htb hp, govRelease_releases hproc⟩
  · refine ⟨_, exec_govEffect_set hset, ?_, fun k m hne => govEntry_modEntry_ne _ _ hne, rfl, rfl⟩
    rw [govEntry_modEntry_same, govEntry_govTaken]
    exact ⟨rfl, rfl, rfl, rfl, rfl, rfl, rfl, rfl, rfl, rfl, setEntry_rev ..⟩
  · refine ⟨_, exec_govEffect_clr hclr, ?_, fun k m hne => govEntry_modEntry_ne _ _ hne, rfl, rfl⟩
    rw [govEntry_modEntry_same, govEntry_govTaken]
    rfl
  · obtain ⟨u, hgov, hctxs, hmem, he⟩ := gstepEffect_steps hq hkappa
    have hentry (m : Nat) := govEntry_stepped (govTaken s (.gstepEffect id) id) tb lo cnt kappa hyst m
    have hlayers (k : Nat) := layers_stepped (govTaken s (.gstepEffect id) id) tb lo cnt kappa hyst k
    rw [govTable, ← hgov] at hlayers
    simp only [govEntry, govTable, ← hgov] at hentry
    refine ⟨_, he, hentry, hlayers, fun e hf r y hid hkind hwait hw => mem_fillResult u _ ?_ hid hkind hwait hw, ?_, hmem⟩
    · rwa [ctx_of_ctxs hctxs]
    · rw [live_fillResult, ctx_of_ctxs hctxs]

/-! ## Queues that move (12 R225; 14 R263) -/

theorem bringIn_refused {s : State} {who : Agent} {p q home : Nat}
    (h : (s.queue (p * 4096 + q)).present = false ∨ (s.queue (p * 4096 + q)).home = none ∧ 64 ≤ residents s home ∨
      ∃ n, (s.queue (p * 4096 + q)).home = some n ∧ n ≠ home) : bringIn s who p q home = none := by
  rw [bringIn]
  cases hpresent : (s.queue (p * 4096 + q)).present with
  | false => rfl
  | true =>
    obtain ⟨hhome, hfull⟩ | ⟨n, hhome, hne⟩ := h.resolve_left (by simp [hpresent])
    · rw [hhome, if_neg (by decide), if_neg (by simp), if_pos (.inr hfull)]
    · rw [hhome, if_neg (by decide), if_neg (by simpa using hne), if_pos (.inl rfl)]

theorem bringIn_found {s s' : State} {who : Agent} {p q home : Nat} {es : List (BitVec 64 × Bool)}
    (hpresent : (s.queue (p * 4096 + q)).present = true) (hhome : (s.queue (p * 4096 + q)).home = none) (hroom : residents s home < 64)
    (hread : readElements s p (s.vfOf who) who (s.queue (p * 4096 + q)) ((s.queue (p * 4096 + q)).pushed - (s.queue (p * 4096 + q)).popped).toNat
      (s.queue (p * 4096 + q)).popped.toNat = .ok (es, s')) :
    bringIn s who p q home = some (.ok (s'.modQueue (p * 4096 + q) (fun y => { y with els := es, home := some home, missed := [] }))) := by
  rw [bringIn]
  rw [hread, hpresent, hhome, if_neg (by decide), if_neg (by simp), if_neg (by simpa using hroom)]

theorem takeOut_refused {s : State} {who : Agent} {p q : Nat}
    (h : (s.queue (p * 4096 + q)).home = none ∨ (s.queue (p * 4096 + q)).present = false ∨ pinned s (s.queue (p * 4096 + q)) = true ∨
      (s.queue (p * 4096 + q)).head.isSome = true ∨ 0 < (s.queue (p * 4096 + q)).resv ∨ popsHeld s (p * 4096 + q) = true) :
    takeOut s who p q = none := by
  rw [takeOut]
  obtain hhome | h := h
  · rw [hhome]
  · split
    · rfl
    · exact if_pos (h.imp_left (by simp [·]))

theorem takeOut_written {s s' : State} {who : Agent} {p q n : Nat} (hhome : (s.queue (p * 4096 + q)).home = some n)
    (hpresent : (s.queue (p * 4096 + q)).present = true) (hpin : pinned s (s.queue (p * 4096 + q)) = false)
    (hhead : (s.queue (p * 4096 + q)).head = none) (hresv : (s.queue (p * 4096 + q)).resv = 0) (hpops : popsHeld s (p * 4096 + q) = false)
    (hwrite : writeElements s p (s.vfOf who) who (s.queue (p * 4096 + q)) (s.queue (p * 4096 + q)).els (s.queue (p * 4096 + q)).popped.toNat = .ok s') :
    takeOut s who p q = some (.ok (s'.modQueue (p * 4096 + q) (fun y => { y with els := [], home := none, missed := [] }))) := by
  rw [takeOut]
  rw [hhome, hpresent, hpin, hhead, hresv, hpops]
  dsimp only
  rw [if_neg (by decide), hwrite]

section
variable {s t : State} {p q home : Nat} (hp : p < 1024) (hq : q < 4096)
include hp hq

theorem qresBringIn_ok (hhome : home < 64) : (Ev.qresBringIn p q home).ok = true := by
  simp [Ev.ok, Ev.unitOk, Ev.hdrOk, Ev.message, hp, hq, hhome]

theorem exec_qresBringIn (hhome : home < 64) (h : bringIn (s.given (.qresBringIn p q home)) (.scribe home) p q home = some (.ok t)) :
    exec .qresBringIn (s.given (.qresBringIn p q home)) = .next t :=
  (show execQresBringIn _ = _ from evStep_given s (.qresBringIn p q home) (qresBringIn_ok hp hq hhome) rfl).trans (by rw [h])

/-- Where the device refuses, nothing changes (14 R263). -/
theorem exec_qresBringIn_refused (hhome : home < 64) (h : bringIn (s.given (.qresBringIn p q home)) (.scribe home) p q home = none) :
    exec .qresBringIn (s.given (.qresBringIn p q home)) = .next (s.given (.qresBringIn p q home)) :=
  (show execQresBringIn _ = _ from evStep_given s (.qresBringIn p q home) (qresBringIn_ok hp hq hhome) rfl).trans (by rw [h])

theorem qresTakeOut_ok : (Ev.qresTakeOut p q).ok = true := by simp [Ev.ok, Ev.unitOk, Ev.hdrOk, Ev.message, hp, hq]

theorem exec_qresTakeOut (h : takeOut (s.given (.qresTakeOut p q)) (.scribe ((s.queue (p * 4096 + q)).home.getD 0)) p q = some (.ok t)) :
    exec .qresTakeOut (s.given (.qresTakeOut p q)) = .next t :=
  (show execQresTakeOut _ = _ from evStep_given s (.qresTakeOut p q) (qresTakeOut_ok hp hq) rfl).trans
    (congrArg Host.Outcome.next (by rw [show (s.given (.qresTakeOut p q)).queue (p * 4096 + q) = s.queue (p * 4096 + q) from rfl, h]))

theorem exec_qresTakeOut_refused (h : ∀ who, takeOut (s.given (.qresTakeOut p q)) who p q = none) :
    exec .qresTakeOut (s.given (.qresTakeOut p q)) = .next (s.given (.qresTakeOut p q)) :=
  (show execQresTakeOut _ = _ from evStep_given s (.qresTakeOut p q) (qresTakeOut_ok hp hq) rfl).trans (by rw [h])

end

theorem exec_bankGiveUp (s : State) {cl : Nat} (tk : Nat) (m : BitVec 32) (hcl : cl < 64) :
    exec .bankGiveUp (s.given (.bankGiveUp cl tk m)) = .next (giveBanks (s.given (.bankGiveUp cl tk m)) cl tk m) :=
  have hok : (Ev.bankGiveUp cl tk m).ok = true := by simp [Ev.ok, Ev.unitOk, Ev.hdrOk, Ev.message, hcl]
  (show execBankGiveUp _ = _ from evStep_given s (.bankGiveUp cl tk m) hok rfl)

theorem residencyEvents : Claims.ResidencyEventResults := by
  intro s p q home hp hq hhome
  refine ⟨fun es s' hpresent hnone hroom hread => ?_, fun h => ?_, fun n s' hsome hpresent hpin hhead hresv hpops hwrite => ?_, fun h => ?_,
    fun tk m => ⟨_, exec_bankGiveUp s tk m hhome, fun b => ?_, fun n hn => cluster_modCluster_ne _ _ hn.symm, rfl, rfl⟩⟩
  · exact ⟨_, exec_qresBringIn hp hq hhome (bringIn_found (s := s.given (.qresBringIn p q home)) hpresent hnone hroom hread), queue_modQueue .., rfl⟩
  · exact exec_qresBringIn_refused hp hq hhome (bringIn_refused h)
  · have hleaves := takeOut_written (s := s.given (.qresTakeOut p q)) hsome hpresent hpin hhead hresv hpops hwrite
    have he := exec_qresTakeOut hp hq (t := s'.modQueue (p * 4096 + q) (fun y => { y with els := [], home := none, missed := [] }))
      (by rw [hsome]; exact hleaves)
    exact ⟨_, he, queue_modQueue .., rfl⟩
  · exact exec_qresTakeOut_refused hp hq fun _ => takeOut_refused h
  · rw [giveBanks, cluster_modCluster, List.mem_filter]
    simp [imp_iff_not_or]

/-- Settles O48: a step of the governor is a fold of writes that meet no entry twice, and a queue moves when the device's own checks pass. -/
theorem governorEventResults : Obligations.GovernorEventResults := ⟨governorEvents, residencyEvents⟩

end Sys2Proof.Machine
end

section
/-!
SUPPORT. The physical panes of a core after a change of one of them, a tile and a bank after they are replaced (11 R202, R205).
PROOF. A pane's operations and grants (09 R175, R178, R180, R185; 11 R202, R206; 12 R222; 21 R363): O51.
-/

namespace Sys2Proof.Machine

open State

/-! ## Panes, tiles and banks -/

theorem getD_setIfInBounds {α : Type} {n : Nat} (v : Vector α n) {i : Nat} (hi : i < n) (x d : α) (k : Nat) :
    (v.setIfInBounds i x).getD k d = if i = k then x else v.getD k d := by
  rw [Vector.getD, Vector.toArray_setIfInBounds, Array.getD_eq_getD_getElem?, Array.getElem?_setIfInBounds, Vector.size_toArray, if_pos hi,
    apply_ite (Option.getD · d), ← Array.getD_eq_getD_getElem?]
  rfl

theorem paneOf_modPane (s : State) (core : Nat) {q : Nat} (hq : q < 4) (f : Pane → Pane) (k : Nat) :
    paneOf (modPane s core q f) core k = if q = k then f (paneOf s core q) else paneOf s core k := by
  rw [paneOf, modPane, core_modCore]
  exact getD_setIfInBounds _ hq ..

theorem paneOf_modPane_same (s : State) (core : Nat) {q : Nat} (hq : q < 4) (f : Pane → Pane) :
    paneOf (modPane s core q f) core q = f (paneOf s core q) := by rw [paneOf_modPane s core hq, if_pos rfl]

@[simp] theorem paneOf_at (s : State) (core q cc : Nat) (e : Ev) : paneOf (s.at_ cc e) core q = paneOf s core q := rfl
@[simp] theorem paneOf_after (s : State) (core q n : Nat) (e : Ev) : paneOf (s.after n e) core q = paneOf s core q := rfl
@[simp] theorem paneOf_given (s : State) (core q : Nat) (e : Ev) : paneOf (s.given e) core q = paneOf s core q := rfl
@[simp] theorem paneOf_modCtx (s : State) (core q : Nat) (a : Agent) (f : Ctx → Ctx) : paneOf (s.modCtx a f) core q = paneOf s core q := rfl

@[simp] theorem setTile_tile (p : Pane) (n : Nat) (t : Tile) : (p.setTile n t).tile n = t := by
  unfold Pane.setTile Pane.tile
  split <;> rfl

@[simp] theorem setTile_ops (p : Pane) (n : Nat) (t : Tile) : (p.setTile n t).ops = p.ops := by
  unfold Pane.setTile
  split <;> rfl

@[simp] theorem setBank_bank (p : Pane) (n : Nat) (b : Bank) : (p.setBank n b).bank n = b := by
  unfold Pane.setBank Pane.bank
  split <;> rfl

@[simp] theorem setBank_ops (p : Pane) (n : Nat) (b : Bank) : (p.setBank n b).ops = p.ops := by
  unfold Pane.setBank
  split <;> rfl

@[simp] theorem tile_withOps (p : Pane) (l : List PaneOp) (n : Nat) : Pane.tile { p with ops := l } n = p.tile n := rfl

section
variable {core q : Nat} (hcore : core < 512) (hq : q < 4)
include hcore hq

theorem paneOperationStart_ok : (Ev.paneOperationStart core q).ok = true := by simp [Ev.ok, Ev.unitOk, Ev.hdrOk, Ev.message, hcore, hq]
theorem paneOperationComplete_ok : (Ev.paneOperationComplete core q).ok = true := by simp [Ev.ok, Ev.unitOk, Ev.hdrOk, Ev.message, hcore, hq]
theorem paneReplay_ok : (Ev.paneReplay core q).ok = true := by simp [Ev.ok, Ev.unitOk, Ev.hdrOk, Ev.message, hcore, hq]
theorem paneFetchFailure_ok : (Ev.paneFetchFailure core q).ok = true := by simp [Ev.ok, Ev.unitOk, Ev.hdrOk, Ev.message, hcore, hq]

end

/-! ## An operation starts (09 R175, R180, R185) -/

/-- An operation that works on its tile itself (09 R180). -/
def WorksOnTile (o : PaneOp) : Prop := o.fam = .mxa ∨ o.fam = .mxrk ∨ o.fam = .restore

/-- An operation of a pane as it stands once it has started in cc `cc`. -/
def begun (cc : Nat) (p : Pane) (o : PaneOp) : PaneOp :=
  { o with started := true, doneCc := cc + o.lat, buf := if o.fam = .save then tileImage (p.tile o.tile) else o.buf }

theorem startOp_ops (s : State) (core : Nat) {q : Nat} (hq : q < 4) (ahead : List PaneOp) (o : PaneOp) (behind : List PaneOp) :
    (paneOf (startOp s core q ahead o behind) core q).ops = ahead ++ begun s.cc (paneOf s core q) o :: behind := by
  rw [startOp, paneOf_after, paneOf_modPane_same s core hq, begun]
  cases o.fam <;> simp

theorem startOp_tile (s : State) (core : Nat) {q : Nat} (hq : q < 4) (ahead : List PaneOp) {o : PaneOp} (behind : List PaneOp) (h : WorksOnTile o) :
    let p := paneOf (startOp s core q ahead o behind) core q
    p.shadow = some (o.tile, (paneOf s core q).tile o.tile) ∧
      p.tile o.tile = opTile (paneOf s core q) { o with started := true, doneCc := s.cc + o.lat } := by
  dsimp only
  rw [startOp, paneOf_after, paneOf_modPane_same s core hq]
  obtain hfam | hfam | hfam := h <;> simp only [hfam] <;> exact ⟨rfl, setTile_tile ..⟩

theorem mem_agenda_startOp (s : State) (core q : Nat) (ahead : List PaneOp) (o : PaneOp) (behind : List PaneOp) :
    (s.cc + o.lat, Ev.paneOperationComplete core q) ∈ (startOp s core q ahead o behind).agenda :=
  mem_agendaInsert.mpr (.inl rfl)

/-- A pane at work is looked at again in this cc while others wait in it. -/
def lookAgain (s : State) (core q : Nat) (ahead behind : List PaneOp) : State :=
  if behind.any (fun x => !x.started) || ahead.any (fun x => !x.started) then s.at_ s.cc (.paneOperationStart core q) else s

theorem lookAgain_keeps (s : State) (core q : Nat) (ahead behind : List PaneOp) :
    (lookAgain s core q ahead behind).cores = s.cores ∧ (∀ x ∈ s.agenda, x ∈ (lookAgain s core q ahead behind).agenda) ∧
      (lookAgain s core q ahead behind).ctxs = s.ctxs ∧ (lookAgain s core q ahead behind).mem = s.mem := by
  unfold lookAgain
  split
  · exact ⟨rfl, fun x hx => mem_agendaInsert.mpr (.inr hx), rfl, rfl⟩
  · exact ⟨rfl, fun x hx => hx, rfl, rfl⟩

/-- A pane's record is read from the cores alone. -/
theorem paneOf_of_cores {s t : State} (h : t.cores = s.cores) (core q : Nat) : paneOf t core q = paneOf s core q := by
  rw [paneOf, State.core, h]
  rfl

section
variable {s : State} {core q : Nat} {ahead behind : List PaneOp} {o : PaneOp} (hcore : core < 512) (hq : q < 4)
  (h : nextStart (s.given (.paneOperationStart core q)) [] (paneOf s core q).ops = some (ahead, o, behind))
include hcore hq h

theorem exec_paneOperationStart (hgood : o.fam = .restore → tileImageBad o.buf = false) :
    exec .paneOperationStart (s.given (.paneOperationStart core q)) =
      .next (lookAgain (startOp (s.given (.paneOperationStart core q)) core q ahead o behind) core q ahead behind) := by
  refine (show execPaneOperationStart _ = _ from evStep_given s _ (paneOperationStart_ok hcore hq) rfl).trans ?_
  rw [paneOf_given, h]
  exact if_neg fun hbad => Bool.noConfusion (hbad.2.symm.trans (hgood hbad.1))

theorem exec_paneOperationStart_badImage (hfam : o.fam = .restore) (hbad : tileImageBad o.buf = true) :
    exec .paneOperationStart (s.given (.paneOperationStart core q)) =
      .next ((modPane (s.given (.paneOperationStart core q)) core q
        (fun p => { p with ops := ahead ++ { o with fault := some (badImageTrap o) } :: behind })).at_ s.cc (.paneFetchFailure core q)) := by
  refine (show execPaneOperationStart _ = _ from evStep_given s _ (paneOperationStart_ok hcore hq) rfl).trans ?_
  rw [paneOf_given, h]
  exact if_pos ⟨hfam, hbad⟩

end

/-! ## An operation whose time has passed (09 R175, R178, R185) -/

/-- The first operation of a pane whose time has passed leaves it, when it is not a save that waits. -/
theorem find_ended {s : State} {ops : List PaneOp} {o : PaneOp} {past : PaneOp → Bool} (h : ops.find? past = some o) (hw : saveWaits s o = false) :
    (ops.filter past).find? (fun o => !saveWaits s o) = some o := by
  obtain ⟨r, hr⟩ := List.head?_eq_some_iff.mp (List.head?_filter.trans h)
  rw [hr, List.find?_cons_of_pos (by rw [hw]; rfl)]

/-- A pane's queue without one of its operations. -/
def withoutOp (s : State) (core q : Nat) (o : PaneOp) : State := modPane s core q (fun p => { p with ops := p.ops.filter (fun x => x != o) })

theorem paneOf_withoutOp (s : State) (core : Nat) {q : Nat} (hq : q < 4) (o : PaneOp) :
    paneOf (withoutOp s core q o) core q = { paneOf s core q with ops := (paneOf s core q).ops.filter (fun x => x != o) } := paneOf_modPane_same s core hq _

section
variable {s : State} {core q : Nat} {o : PaneOp} (hcore : core < 512) (hq : q < 4)
  (h : (paneOf s core q).ops.find? (fun o => o.started && o.replay.isNone && decide (o.doneCc ≤ (s.given (.paneOperationComplete core q)).cc)) = some o)
include hcore hq h

theorem exec_paneOperationComplete_mxld {r : TileReq} (hfam : o.fam = .mxld) (hreq : o.req = some r) :
    exec .paneOperationComplete (s.given (.paneOperationComplete core q)) =
      .next (modPane (withoutOp (s.given (.paneOperationComplete core q)) core q o) core q (fun p =>
        p.setBank o.bank { p.bank o.bank with valid := true, fmt := o.fmt, gang := o.gang, els := tileLanes r o.buf })) := by
  refine (show execPaneOperationComplete _ = _ from evStep_given s _ (paneOperationComplete_ok hcore hq) rfl).trans ?_
  dsimp only
  rw [paneOf_given, find_ended h (by simp [saveWaits, hfam])]
  simp only [hfam, hreq]
  rfl

theorem exec_paneOperationComplete_tile (hfam : WorksOnTile o) :
    exec .paneOperationComplete (s.given (.paneOperationComplete core q)) = .next (withoutOp (s.given (.paneOperationComplete core q)) core q o) := by
  refine (show execPaneOperationComplete _ = _ from evStep_given s _ (paneOperationComplete_ok hcore hq) rfl).trans ?_
  have hsave : o.fam ≠ .save := by obtain hf | hf | hf := hfam <;> simp [hf]
  dsimp only
  rw [paneOf_given, find_ended h (by simp [saveWaits, hsave])]
  obtain hf | hf | hf := hfam <;> simp only [hf] <;> rfl

theorem exec_paneOperationComplete_saveLater (hfam : o.fam = .save) (hw : saveWaits (s.given (.paneOperationComplete core q)) o = false)
    (hturn : s.turns.any (performsBefore core) = true) :
    exec .paneOperationComplete (s.given (.paneOperationComplete core q)) =
      .next { s.given (.paneOperationComplete core q) with turns := turnBehind (performsBefore core) (.save core q) s.turns } := by
  refine (show execPaneOperationComplete _ = _ from evStep_given s _ (paneOperationComplete_ok hcore hq) rfl).trans ?_
  dsimp only
  rw [paneOf_given, find_ended h hw]
  exact if_pos ⟨hfam, hturn⟩

theorem exec_paneOperationComplete_save (hfam : o.fam = .save) (hw : saveWaits (s.given (.paneOperationComplete core q)) o = false)
    (hturn : s.turns.any (performsBefore core) = false) :
    exec .paneOperationComplete (s.given (.paneOperationComplete core q)) =
      .next (saveImage (withoutOp (s.given (.paneOperationComplete core q)) core q o) o o.buf) := by
  refine (show execPaneOperationComplete _ = _ from evStep_given s _ (paneOperationComplete_ok hcore hq) rfl).trans ?_
  dsimp only
  rw [paneOf_given, find_ended h hw]
  refine (if_neg fun hlater => Bool.noConfusion (hlater.2.symm.trans hturn)).trans ?_
  simp only [hfam]
  rfl

end

/-! ## A replay (09 R180; 11 R202) -/

/-- A pane whose operation `o` is put back to start in cc `cc`, its tile restored from the shadow. -/
def putBack (cc : Nat) (o : PaneOp) (p : Pane) : Pane :=
  let p := { p with ops := p.ops.map (fun x => if x = o then { o with replay := none, started := false, startCc := cc } else x) }
  match p.shadow with
  | some (t, x) => if o.started ∧ t = o.tile ∧ o.fam ≠ .mxld ∧ o.fam ≠ .save then p.setTile t { x with
      poison := (p.tile t).poison, iRows := (p.tile t).iRows, iWidth := (p.tile t).iWidth, iKind := (p.tile t).iKind, done := (p.tile t).done } else p
  | none => p

theorem putBack_ops (cc : Nat) (o : PaneOp) (p : Pane) :
    (putBack cc o p).ops = p.ops.map (fun x => if x = o then { o with replay := none, started := false, startCc := cc } else x) := by
  unfold putBack
  dsimp only
  split
  · split
    · rw [setTile_ops]
    · rfl
  · rfl

theorem exec_paneReplay {s : State} {core q : Nat} {o : PaneOp} (hcore : core < 512) (hq : q < 4)
    (h : (paneOf s core q).ops.find? (fun o => o.replay == some (s.given (.paneReplay core q)).cc) = some o) :
    exec .paneReplay (s.given (.paneReplay core q)) =
      .next ((modPane (s.given (.paneReplay core q)) core q (putBack s.cc o)).at_ s.cc (.paneOperationStart core q)) := by
  refine (show execPaneReplay _ = _ from evStep_given s _ (paneReplay_ok hcore hq) rfl).trans ?_
  dsimp only
  rw [paneOf_given, h]
  rfl

/-! ## A failed fetch (09 R178, R180) -/

/-- A fold of steps that each keep the contexts, memory and a third part of the state keeps them. -/
theorem foldl_keeps_three {α β : Type} {c : State → β} {f : State → α → State}
    (h : ∀ s x, (f s x).ctxs = s.ctxs ∧ (f s x).mem = s.mem ∧ c (f s x) = c s) (l : List α) (s : State) :
    (l.foldl f s).ctxs = s.ctxs ∧ (l.foldl f s).mem = s.mem ∧ c (l.foldl f s) = c s :=
  ⟨foldl_keeps (p := fun u : State => u.ctxs) (fun s x => (h s x).1) l s, foldl_keeps (p := fun u : State => u.mem) (fun s x => (h s x).2.1) l s,
    foldl_keeps (fun s x => (h s x).2.2) l s⟩

/-- A change of every pane of a core that holds an operation of a fetch. -/
def dropFetch (s : State) (core id : Nat) (f : Pane → Pane) : State :=
  (List.range 4).foldl (fun (s : State) k => if (paneOf s core k).ops.any (fun x => x.id == id) then modPane s core k f else s) s

theorem paneOf_foldl_dropFetch (core id : Nat) (f : Pane → Pane) (k : Nat) (l : List Nat) (hl : l.Nodup) (h4 : ∀ n ∈ l, n < 4) (s : State) :
    paneOf (l.foldl (fun (s : State) k => if (paneOf s core k).ops.any (fun x => x.id == id) then modPane s core k f else s) s) core k =
      if k ∈ l ∧ (paneOf s core k).ops.any (fun x => x.id == id) then f (paneOf s core k) else paneOf s core k := by
  induction l generalizing s with
  | nil => simp
  | cons n l ih =>
    obtain ⟨hn, hnodup⟩ := List.nodup_cons.mp hl
    rw [List.foldl_cons, ih hnodup fun m hm => h4 m (List.mem_cons_of_mem _ hm)]
    by_cases hkn : n = k
    · subst hkn
      simp only [hn, false_and, if_false, List.mem_cons, true_or, true_and]
      split
      · rw [paneOf_modPane_same s core (h4 n List.mem_cons_self)]
      · rfl
    · have hsame : paneOf (if (paneOf s core n).ops.any (fun x => x.id == id) then modPane s core n f else s) core k = paneOf s core k := by
        split
        · rw [paneOf_modPane s core (h4 n List.mem_cons_self), if_neg hkn]
        · rfl
      simp only [hsame, List.mem_cons, Ne.symm hkn, false_or]

theorem paneOf_dropFetch (s : State) (core id : Nat) (f : Pane → Pane) {k : Nat} (hk : k < 4) (h : (paneOf s core k).ops.any (fun x => x.id == id) = true) :
    paneOf (dropFetch s core id f) core k = f (paneOf s core k) :=
  (paneOf_foldl_dropFetch core id f k _ List.nodup_range (fun _ hn => List.mem_range.mp hn) s).trans (if_pos ⟨List.mem_range.mpr hk, h⟩)

theorem dropFetch_keeps (s : State) (core id : Nat) (f : Pane → Pane) :
    (dropFetch s core id f).ctxs = s.ctxs ∧ (dropFetch s core id f).mem = s.mem ∧ (dropFetch s core id f).leases = s.leases :=
  foldl_keeps_three (c := fun u => u.leases) (fun _ _ => by split <;> exact ⟨rfl, rfl, rfl⟩) _ s

/-- The state in which the trap of a failed fetch has reached its context and its lease has ended. -/
def fetchReported (s : State) (q : Nat) (o : PaneOp) (f : TrapRec) : State :=
  (endLeases s .fetch o.id).deliver o.who (if f.dfr ∧ f.det.d0 = 4 then { f with det := { f.det with d0 := BitVec.ofNat 64 (4 + q * 2 ^ 8) } } else f)

/-- A pane without an MXLD whose fetch failed: its bank holds free values (log 4). -/
def withoutLoad (o : PaneOp) (els : List (BitVec 32)) (p : Pane) : Pane :=
  { p.setBank o.bank { p.bank o.bank with valid := true, fmt := o.fmt, gang := o.gang, els := els } with
    ops := p.ops.filter (fun x => x.id != o.id) }

/-- A pane without an operation whose fetch failed and those behind it, its tile restored from the shadow. -/
def withoutRest (o : PaneOp) (p : Pane) : Pane :=
  let p := match p.shadow with
    | some (t, x) => if o.started ∧ t = o.tile then p.setTile t { x with poison := (p.tile t).poison, done := (p.tile t).done } else p
    | none => p
  settlePane p (p.ops.takeWhile (fun x => x.id != o.id))

theorem withoutRest_ops (o : PaneOp) (p : Pane) : (withoutRest o p).ops = p.ops.takeWhile (fun x => x.id != o.id) := by
  unfold withoutRest settlePane
  dsimp only
  split
  · split
    · rw [setTile_ops]
    · rfl
  · rfl

/-- The leases of operations that no pane of a core holds any more end. -/
def endGone (s : State) (core : Nat) (gone : List PaneOp) : State :=
  gone.foldl (fun (s : State) x =>
    if (List.range 4).any (fun k => (paneOf s core k).ops.any (fun y => y.id == x.id)) then s else endLeases s .fetch x.id) s

theorem endGone_keeps (s : State) (core : Nat) (gone : List PaneOp) :
    (endGone s core gone).ctxs = s.ctxs ∧ (endGone s core gone).mem = s.mem ∧ (endGone s core gone).cores = s.cores :=
  foldl_keeps_three (c := fun u => u.cores) (fun _ _ => by split <;> exact ⟨rfl, rfl, rfl⟩) gone s

theorem mem_endLeases {s : State} {kind : LeaseKind} {ref : Nat} {x : Lease} (hx : x ∈ s.leases) (hne : x.ref ≠ ref) :
    x ∈ (endLeases s kind ref).leases :=
  List.mem_filter.mpr ⟨hx, by simp [hne]⟩

/-- A lease whose fetch a pane still holds goes on. -/
theorem mem_endGone {s : State} {core : Nat} {x : Lease} (hx : x ∈ s.leases) {k : Nat} (hk : k < 4) {y : PaneOp} (hy : y ∈ (paneOf s core k).ops)
    (hid : y.id = x.ref) (gone : List PaneOp) : x ∈ (endGone s core gone).leases := by
  induction gone generalizing s with
  | nil => exact hx
  | cons g gone ih =>
    show x ∈ (endGone (if _ then s else endLeases s .fetch g.id) core gone).leases
    split
    · exact ih hx hy
    · next hheld =>
      refine ih (mem_endLeases hx fun hg => hheld ?_) hy
      exact List.any_eq_true.mpr ⟨k, List.mem_range.mpr hk, List.any_eq_true.mpr ⟨y, hy, by simp [hid, hg]⟩⟩

theorem mem_insertArrival (t : TrapRec) (l : List TrapRec) : t ∈ insertArrival t l := by
  induction l with
  | nil => exact List.mem_singleton_self t
  | cons u r ih =>
    unfold insertArrival
    split
    · exact List.mem_cons_self
    · exact List.mem_cons_of_mem _ ih

/-- A cause that arrives changes no memory, no core and no lease. -/
theorem deliver_keeps (s : State) (a : Agent) (t : TrapRec) :
    (s.deliver a t).mem = s.mem ∧ (s.deliver a t).cores = s.cores ∧ (s.deliver a t).leases = s.leases := by
  unfold State.deliver
  dsimp only
  split
  · exact ⟨rfl, rfl, rfl⟩
  · split <;> exact ⟨rfl, rfl, rfl⟩

/-- A cause that arrives for a context at the front is taken at its next boundary (22 R366). -/
theorem pend_deliver {s : State} {a : Agent} (h : (s.ctx a).st = .front) (t : TrapRec) : { t with cc := s.cc } ∈ ((s.deliver a t).ctx a).pend := by
  rw [State.deliver, if_neg (by simp [h]), if_neg (by simp [h]), ctx_modCtx]
  exact mem_insertArrival ..

theorem fetchReported_keeps (s : State) (q : Nat) (o : PaneOp) (f : TrapRec) :
    (fetchReported s q o f).mem = s.mem ∧ (fetchReported s q o f).cores = s.cores ∧ (fetchReported s q o f).leases = (endLeases s .fetch o.id).leases :=
  deliver_keeps ..

theorem pend_fetchReported {s : State} {q : Nat} {o : PaneOp} {f : TrapRec} (h : (s.ctx o.who).st = .front) :
    ∃ r ∈ ((fetchReported s q o f).ctx o.who).pend, r.cause = f.cause ∧ r.bund = f.bund :=
  ⟨_, pend_deliver (s := endLeases s .fetch o.id) h _, by split <;> exact ⟨rfl, rfl⟩⟩

/-- The state after the failure of an MXLD's fetch was reported, its bank's free values drawn (log 4). -/
def valuesDrawn (s : State) (q : Nat) (o : PaneOp) (f : TrapRec) : State :=
  ((fetchReported s q o f).freeElems ((gangShape o.gang).1 * (gangShape o.gang).2)).2

/-- The state that the failure of an MXLD's fetch leaves. -/
def loadFailed (s : State) (core q : Nat) (o : PaneOp) (f : TrapRec) : State :=
  dropFetch (valuesDrawn s q o f) core o.id
    (withoutLoad o ((fetchReported s q o f).freeElems ((gangShape o.gang).1 * (gangShape o.gang).2)).1)

/-- The state that the failure of another fetch leaves. -/
def operandFailed (s : State) (core q : Nat) (o : PaneOp) (f : TrapRec) : State :=
  endGone (dropFetch (fetchReported s q o f) core o.id (withoutRest o)) core
    ((List.range 4).flatMap (fun k => (paneOf (fetchReported s q o f) core k).ops.dropWhile (fun x => x.id != o.id)))

/-- The state that the failure of a fetch leaves. -/
def fetchFailed (s : State) (core q : Nat) (o : PaneOp) (f : TrapRec) : State :=
  if o.fam = .mxld then loadFailed s core q o f else operandFailed s core q o f

theorem exec_paneFetchFailure {s : State} {core q : Nat} {o : PaneOp} {f : TrapRec} (hcore : core < 512) (hq : q < 4)
    (h : (paneOf s core q).ops.find? (fun o => o.fault.isSome) = some o) (hf : o.fault = some f) :
    exec .paneFetchFailure (s.given (.paneFetchFailure core q)) = .next (fetchFailed (s.given (.paneFetchFailure core q)) core q o f) := by
  refine (show execPaneFetchFailure _ = _ from evStep_given s _ (paneFetchFailure_ok hcore hq) rfl).trans ?_
  rw [paneOf_given, h]
  simp only [hf]
  exact (apply_ite Host.Outcome.next ..).symm

theorem loadFailed_keeps (s : State) (core q : Nat) (o : PaneOp) (f : TrapRec) :
    (loadFailed s core q o f).ctxs = (fetchReported s q o f).ctxs ∧ (loadFailed s core q o f).mem = (fetchReported s q o f).mem ∧
      (loadFailed s core q o f).leases = (fetchReported s q o f).leases := dropFetch_keeps (valuesDrawn s q o f) core o.id _

theorem operandFailed_keeps (s : State) (core q : Nat) (o : PaneOp) (f : TrapRec) :
    (operandFailed s core q o f).ctxs = (fetchReported s q o f).ctxs ∧ (operandFailed s core q o f).mem = (fetchReported s q o f).mem ∧
      (operandFailed s core q o f).cores = (dropFetch (fetchReported s q o f) core o.id (withoutRest o)).cores := by
  obtain ⟨hctxs, hmem, -⟩ := dropFetch_keeps (fetchReported s q o f) core o.id (withoutRest o)
  obtain ⟨hctxs', hmem', hcores⟩ := endGone_keeps (dropFetch (fetchReported s q o f) core o.id (withoutRest o)) core
    ((List.range 4).flatMap (fun k => (paneOf (fetchReported s q o f) core k).ops.dropWhile (fun x => x.id != o.id)))
  exact ⟨hctxs'.trans hctxs, hmem'.trans hmem, hcores⟩

theorem fetchFailed_keeps (s : State) (core q : Nat) (o : PaneOp) (f : TrapRec) :
    (fetchFailed s core q o f).ctxs = (fetchReported s q o f).ctxs ∧ (fetchFailed s core q o f).mem = s.mem := by
  obtain ⟨hmem, -, -⟩ := fetchReported_keeps s q o f
  unfold fetchFailed
  split
  · obtain ⟨hctxs, hdrop, -⟩ := loadFailed_keeps s core q o f
    exact ⟨hctxs, hdrop.trans hmem⟩
  · obtain ⟨hctxs, hdrop, -⟩ := operandFailed_keeps s core q o f
    exact ⟨hctxs, hdrop.trans hmem⟩

theorem fetchFailed_ops {s : State} {core q : Nat} {o : PaneOp} {f : TrapRec} (hq : q < 4) (ho : o ∈ (paneOf s core q).ops) :
    (paneOf (fetchFailed s core q o f) core q).ops =
      if o.fam = .mxld then (paneOf s core q).ops.filter (fun x => x.id != o.id) else (paneOf s core q).ops.takeWhile (fun x => x.id != o.id) := by
  have hsame : paneOf (fetchReported s q o f) core q = paneOf s core q := paneOf_of_cores (fetchReported_keeps s q o f).2.1 ..
  have hdrawn : paneOf (valuesDrawn s q o f) core q = paneOf s core q := hsame
  have hholds : (paneOf s core q).ops.any (fun x => x.id == o.id) = true := List.any_eq_true.mpr ⟨o, ho, beq_self_eq_true _⟩
  unfold fetchFailed
  split
  · rw [loadFailed, paneOf_dropFetch _ core o.id _ hq (hdrawn.symm ▸ hholds), hdrawn]
    rfl
  · rw [paneOf_of_cores (operandFailed_keeps s core q o f).2.2, paneOf_dropFetch _ core o.id _ hq (hsame.symm ▸ hholds), withoutRest_ops, hsame]

/-- The lease of a fetch that a pane still holds goes on when another fails (09 R179). -/
theorem mem_fetchFailed {s : State} {core q : Nat} {o : PaneOp} {f : TrapRec} {x : Lease} (hx : x ∈ s.leases) (hne : x.ref ≠ o.id) {k : Nat} (hk : k < 4)
    {y : PaneOp} (hy : y ∈ (paneOf (fetchFailed s core q o f) core k).ops) (hid : y.id = x.ref) : x ∈ (fetchFailed s core q o f).leases := by
  obtain ⟨-, -, hleases⟩ := fetchReported_keeps s q o f
  have hx' : x ∈ (fetchReported s q o f).leases := hleases ▸ mem_endLeases hx hne
  unfold fetchFailed at hy ⊢
  split
  · rwa [(loadFailed_keeps s core q o f).2.2]
  · next hfam =>
    rw [if_neg hfam, paneOf_of_cores (operandFailed_keeps s core q o f).2.2] at hy
    rw [← (dropFetch_keeps (fetchReported s q o f) core o.id (withoutRest o)).2.2] at hx'
    exact mem_endGone hx' hk hy hid _

theorem paneEvents : Claims.PaneEventResults := by
  intro s core q hcore hq p
  refine ⟨fun ahead o behind h => ⟨fun hgood => ?_, fun hfam hbad => ?_⟩,
      fun o h => ⟨fun r hfam hreq => ?_, fun hfam => ?_, fun hfam hrel hrem => ?_⟩,
    fun o h => ?_, fun o f h hf => ?_⟩
  · obtain ⟨hcores, hagenda, hctxs, hmem⟩ :=
      lookAgain_keeps (startOp (s.given (.paneOperationStart core q)) core q ahead o behind) core q ahead behind
    refine ⟨_, exec_paneOperationStart hcore hq h hgood, ?_, hagenda _ (mem_agenda_startOp ..), fun hworks => ?_, hctxs, hmem⟩
    · rw [paneOf_of_cores hcores, startOp_ops _ core hq]
      rfl
    · rw [paneOf_of_cores hcores]
      exact startOp_tile _ core hq ahead behind hworks
  · refine ⟨_, exec_paneOperationStart_badImage hcore hq h hfam hbad, ?_, mem_agendaInsert.mpr (.inl rfl), ?_⟩
    · rw [paneOf_at, paneOf_modPane_same _ core hq]
    · rw [paneOf_at, paneOf_modPane_same _ core hq]
      exact ⟨rfl, rfl, rfl, rfl⟩
  · refine ⟨_, exec_paneOperationComplete_mxld hcore hq h hfam hreq, ?_⟩
    rw [paneOf_modPane_same _ core hq, setBank_bank, setBank_ops, paneOf_withoutOp _ core hq]
    exact ⟨rfl, rfl, rfl, rfl, rfl, rfl⟩
  · refine ⟨_, exec_paneOperationComplete_tile hcore hq h hfam, ?_⟩
    rw [paneOf_withoutOp _ core hq]
    exact ⟨rfl, rfl, rfl, rfl, rfl⟩
  · have hw : saveWaits (s.given (.paneOperationComplete core q)) o = false := by
      rw [saveWaits, Bool.and_eq_false_iff, Bool.or_eq_false_iff]
      exact .inr ⟨hrel, hrem⟩
    refine ⟨exec_paneOperationComplete_saveLater hcore hq h hfam hw,
      fun hturn => ⟨_, _, exec_paneOperationComplete_save hcore hq h hfam hw hturn, rfl, rfl, ?_⟩⟩
    rw [paneOf_withoutOp _ core hq]
    rfl
  · refine ⟨_, exec_paneReplay hcore hq h, ?_, ?_, mem_agendaInsert.mpr (.inl rfl), rfl, rfl⟩
    · rw [paneOf_at, paneOf_modPane_same _ core hq, putBack_ops]
      exact List.mem_map.mpr ⟨o, List.mem_of_find?_eq_some h, if_pos rfl⟩
    · rw [paneOf_at, paneOf_modPane_same _ core hq, putBack_ops, List.length_map]
      rfl
  · obtain ⟨hctxs, hmem⟩ := fetchFailed_keeps (s.given (.paneFetchFailure core q)) core q o f
    refine ⟨_, exec_paneFetchFailure hcore hq h hf, hmem, fetchFailed_ops hq (List.mem_of_find?_eq_some h), fun x hx _ hne hheld => ?_, fun hst => ?_⟩
    · obtain ⟨k, hk, y, hy, hid⟩ := hheld
      exact mem_fetchFailed hx hne hk hy hid
    · rw [ctx_of_ctxs hctxs]
      exact pend_fetchReported hst

/-! ## Grants (11 R205, R206) -/

/-- A free pane has no owner and is not reserved (11 R205). -/
theorem eq_of_paneFree {s : State} {core n : Nat} (h : paneFree s core n = true) :
    paneOf s core n = { paneOf s core n with owner := none, reserved := false } := by
  rw [paneFree] at h
  revert h
  generalize paneOf s core n = p
  obtain ⟨owner, reserved⟩ := p
  simp +contextual

/-- The units in which physical panes are granted to a context: single panes, or the pairs of coverage level 3 (06 R126). -/
def grantUnits (s : State) (a : Agent) : List (List Nat) := if coverOf s a = 3 then [[0, 1], [2, 3]] else [[0], [1], [2], [3]]
/-- Whether a unit is free. -/
def unitFree (s : State) (core : Nat) (u : List Nat) : Bool := u.all (paneFree s core)
/-- The panes of a unit granted for logical pane `p` of a context. -/
def takeUnit (s : State) (a : Agent) (p : Nat) (u : List Nat) : State := u.foldl (fun (s : State) q => modPane s a.core q (fun _ => freshPane a.ctxNo p)) s

theorem grantOne_eq (s : State) (a : Agent) (p : Nat) : grantOne s a p = match (grantUnits s a).find? (unitFree s a.core) with
    | none => s
    | some u => (takeUnit s a p u).modCtx a (fun c => { c with panes := c.panes.setIfInBounds p u.head? }) := by
  have hpick : (if coverOf s a = 3 then
      ((List.range 2).find? (fun i => paneFree s a.core (2 * i) && paneFree s a.core (2 * i + 1))).map (fun i => [2 * i, 2 * i + 1])
      else ((List.range 4).find? (paneFree s a.core)).map (fun q => [q])) = (grantUnits s a).find? (unitFree s a.core) := by
    unfold grantUnits
    split
    · rw [show [[0, 1], [2, 3]] = (List.range 2).map (fun i => [2 * i, 2 * i + 1]) from rfl, List.find?_map]
      congr 2
      funext i
      simp [unitFree]
    · rw [show [[0], [1], [2], [3]] = (List.range 4).map (fun q => [q]) from rfl, List.find?_map]
      congr 2
      funext i
      simp [unitFree]
  rw [grantOne, hpick]
  rfl

theorem claimFits_eq (s : State) (a : Agent) (m : BitVec 4) :
    claimFits s a m = decide ((maskPanes m).length ≤ ((grantUnits s a).filter (unitFree s a.core)).length) := by
  unfold claimFits grantUnits
  dsimp only
  split
  · rw [show [[0, 1], [2, 3]] = (List.range 2).map (fun i => [2 * i, 2 * i + 1]) from rfl, List.filter_map, List.length_map]
    congr 3
    refine congrArg (fun p => List.filter p (List.range 2)) (funext fun i => ?_)
    simp [unitFree]
  · rw [show [[0], [1], [2], [3]] = (List.range 4).map (fun q => [q]) from rfl, List.filter_map, List.length_map]
    congr 3
    refine congrArg (fun p => List.filter p (List.range 4)) (funext fun i => ?_)
    simp [unitFree]

/-- The units of a context: pairwise without a common pane, none empty, of a core's four panes. -/
theorem grantUnits_apart (s : State) (a : Agent) : (grantUnits s a).Nodup ∧ (∀ u ∈ grantUnits s a, u ≠ [] ∧ ∀ n ∈ u, n < 4) ∧
    ∀ u ∈ grantUnits s a, ∀ v ∈ grantUnits s a, u ≠ v → ∀ n ∈ u, n ∉ v := by
  unfold grantUnits
  split <;> decide

theorem paneOf_takeUnit (s : State) (a : Agent) (p : Nat) {u : List Nat} (hu : ∀ n ∈ u, n < 4) (n : Nat) :
    paneOf (takeUnit s a p u) a.core n = if n ∈ u then freshPane a.ctxNo p else paneOf s a.core n := by
  induction u generalizing s with
  | nil => rfl
  | cons q u ih =>
    rw [show takeUnit s a p (q :: u) = takeUnit (modPane s a.core q (fun _ => freshPane a.ctxNo p)) a p u from rfl,
      ih _ fun m hm => hu m (List.mem_cons_of_mem _ hm), paneOf_modPane _ _ (hu q List.mem_cons_self)]
    by_cases hq : q = n
    · simp [hq]
    · simp [hq, Ne.symm hq]

/-- What granting a logical pane to a context leaves alone. -/
structure GrantKeeps (s t : State) (a : Agent) : Prop where
  mem : t.mem = s.mem
  tasks : t.tasks = s.tasks
  live : (t.ctx a).live = (s.ctx a).live
  task : (t.ctx a).task = (s.ctx a).task

theorem GrantKeeps.units {s t : State} {a : Agent} (h : GrantKeeps s t a) : grantUnits t a = grantUnits s a := by
  have hcover : coverOf t a = coverOf s a := by
    unfold coverOf
    rw [h.task]
    split
    · rw [State.task, h.tasks]
      rfl
    · rfl
  unfold grantUnits
  rw [hcover]

theorem takeUnit_keeps (s : State) (a : Agent) (p : Nat) (u : List Nat) : (takeUnit s a p u).ctxs = s.ctxs ∧ (takeUnit s a p u).mem = s.mem ∧
    (takeUnit s a p u).tasks = s.tasks := by
  unfold takeUnit
  exact foldl_keeps_three (f := fun s q => modPane s a.core q fun _ => freshPane a.ctxNo p) (c := fun u => u.tasks) (fun _ _ => ⟨rfl, rfl, rfl⟩) u s

/-- A free unit `u` of a context, granted for logical pane `p`. -/
theorem grantOne_grants {s : State} {a : Agent} {p : Nat} (hp : p < 4) (hfree : 0 < ((grantUnits s a).filter (unitFree s a.core)).length) :
    ∃ u n, u ∈ grantUnits s a ∧ n ∈ u ∧ unitFree s a.core u = true ∧ GrantKeeps s (grantOne s a p) a ∧
      (∀ k, paneOf (grantOne s a p) a.core k = if k ∈ u then freshPane a.ctxNo p else paneOf s a.core k) ∧
      ∀ j, ((grantOne s a p).ctx a).panes.getD j none = if p = j then some n else (s.ctx a).panes.getD j none := by
  cases hfind : (grantUnits s a).find? (unitFree s a.core) with
  | none =>
    obtain ⟨u, hu⟩ := List.exists_mem_of_length_pos hfree
    obtain ⟨hmem, hu⟩ := List.mem_filter.mp hu
    exact absurd hu (List.find?_eq_none.mp hfind u hmem)
  | some u =>
    have hmem := List.mem_of_find?_eq_some hfind
    obtain ⟨hne, h4⟩ := (grantUnits_apart s a).2.1 u hmem
    obtain ⟨hctxs, hmem', htasks⟩ := takeUnit_keeps s a p u
    have hctx := ctx_of_ctxs hctxs a
    refine ⟨u, u.head hne, hmem, List.head_mem hne, List.find?_some hfind, ?_, fun k => ?_, fun j => ?_⟩ <;> rw [grantOne_eq, hfind]
    · exact ⟨hmem', htasks, by rw [ctx_modCtx, hctx], by rw [ctx_modCtx, hctx]⟩
    · exact paneOf_takeUnit s a p h4 k
    · rw [ctx_modCtx, hctx, List.head?_eq_some_head hne]
      exact getD_setIfInBounds _ hp ..

/-- A grant takes one free unit away. -/
theorem freeUnits_after {s t : State} {a : Agent} {p : Nat} {u : List Nat} (hu : u ∈ grantUnits s a) (hunits : grantUnits t a = grantUnits s a)
    (hpane : ∀ k, paneOf t a.core k = if k ∈ u then freshPane a.ctxNo p else paneOf s a.core k) :
    ((grantUnits s a).filter (unitFree s a.core)).length ≤ ((grantUnits t a).filter (unitFree t a.core)).length + 1 := by
  obtain ⟨hnodup, -, hapart⟩ := grantUnits_apart s a
  refine ((List.subperm_of_subset (hnodup.filter _) fun v hv => ?_).length_le : _ ≤ (u :: (grantUnits t a).filter (unitFree t a.core)).length)
  obtain ⟨hv, hfree⟩ := List.mem_filter.mp hv
  by_cases hvu : v = u
  · exact hvu ▸ List.mem_cons_self
  · refine List.mem_cons_of_mem _ (List.mem_filter.mpr ⟨hunits ▸ hv, List.all_eq_true.mpr fun n hn => ?_⟩)
    rw [paneFree, hpane, if_neg (hapart v hv u hu hvu n hn)]
    exact List.all_eq_true.mp hfree n hn

/-- A claim's logical panes, each granted a physical pane that was free and that no later grant of the claim takes. -/
theorem grants {a : Agent} {ps : List Nat} (hps : ps.Nodup) (h4 : ∀ p ∈ ps, p < 4) {s : State}
    (hfit : ps.length ≤ ((grantUnits s a).filter (unitFree s a.core)).length) :
    let t := ps.foldl (fun (s : State) p => grantOne s a p) s
    GrantKeeps s t a ∧ (∀ n, paneFree s a.core n = false → paneOf t a.core n = paneOf s a.core n) ∧
      (∀ j, j ∉ ps → (t.ctx a).panes.getD j none = (s.ctx a).panes.getD j none) ∧
      ∀ p ∈ ps, ∃ n, (t.ctx a).panes.getD p none = some n ∧ paneFree s a.core n = true ∧ paneOf t a.core n = freshPane a.ctxNo p := by
  induction ps generalizing s with
  | nil => exact ⟨⟨rfl, rfl, rfl, rfl⟩, fun _ _ => rfl, fun _ _ => rfl, fun p hp => absurd hp List.not_mem_nil⟩
  | cons p ps ih =>
    obtain ⟨hp, hnodup⟩ := List.nodup_cons.mp hps
    obtain ⟨hp4, h4'⟩ := List.forall_mem_cons.mp h4
    obtain ⟨u, n, hu, hn, hfree, hkeeps, hpane, hlog⟩ := grantOne_grants hp4 (Nat.lt_of_lt_of_le (Nat.succ_pos _) hfit)
    have hcount := freeUnits_after hu hkeeps.units hpane
    obtain ⟨hkeeps', hothers, hlogs, hgrants⟩ := ih hnodup h4' (Nat.le_of_succ_le_succ (Nat.le_trans hfit hcount))
    have hwas (k : Nat) (hk : paneFree (grantOne s a p) a.core k = true) : k ∉ u ∧ paneFree s a.core k = true := by
      rw [paneFree, hpane] at hk
      split at hk
      · exact absurd hk (by simp [freshPane])
      · next hku => exact ⟨hku, hk⟩
    have hused (k : Nat) (hk : k ∈ u) : paneFree s a.core k = true := List.all_eq_true.mp hfree k hk
    refine ⟨⟨hkeeps'.mem.trans hkeeps.mem, hkeeps'.tasks.trans hkeeps.tasks, hkeeps'.live.trans hkeeps.live, hkeeps'.task.trans hkeeps.task⟩,
      fun k hk => ?_, fun j hj => ?_, fun j hj => ?_⟩
    · have hku : k ∉ u := fun hku => Bool.noConfusion (hk.symm.trans (hused k hku))
      rw [List.foldl_cons, hothers k, hpane, if_neg hku]
      exact Bool.eq_false_iff.mpr fun h => Bool.noConfusion (hk.symm.trans (hwas k h).2)
    · rw [List.mem_cons, not_or] at hj
      rw [List.foldl_cons, hlogs j hj.2, hlog, if_neg (Ne.symm hj.1)]
    · obtain rfl | hj := List.mem_cons.mp hj
      · refine ⟨n, ?_, hused n hn, ?_⟩
        · rw [List.foldl_cons, hlogs j hp, hlog, if_pos rfl]
        · rw [List.foldl_cons, hothers n (Bool.eq_false_iff.mpr fun h => (hwas n h).1 hn), hpane, if_pos hn]
      · obtain ⟨k, hk, hkfree, hkpane⟩ := hgrants j hj
        exact ⟨k, hk, (hwas k hkfree).2, hkpane⟩

/-- The grant of a core with one claim. -/
theorem grantClaims_one {s : State} {core k : Nat} (hk : k < 8) (hclaim : (s.ctx (.ctx core k)).claim ≠ 0)
    (hothers : ∀ j, j < 8 → j ≠ k → (s.ctx (.ctx core j)).claim = 0) :
    grantClaims s core = if claimFits s (.ctx core k) (s.ctx (.ctx core k)).claim then
        ((maskPanes (s.ctx (.ctx core k)).claim).foldl (fun (s : State) p => grantOne s (.ctx core k) p) s).modCtx (.ctx core k)
          (fun c => { c with claim := 0 })
      else s := by
  have honly : (List.range 8).filter (fun k => (s.ctx (.ctx core k)).claim != 0) = [k] := by
    rw [List.filter_congr (q := fun j => j == k), List.filter_beq, List.count_range, if_pos hk, List.replicate_one]
    intro j hj
    obtain rfl | hjk := eq_or_ne j k
    · rw [beq_self_eq_true, bne_iff_ne.mpr hclaim]
    · rw [beq_false_of_ne hjk, hothers j (List.mem_range.mp hj) hjk]
      rfl
  unfold grantClaims
  dsimp only
  rw [honly, List.mergeSort_singleton]
  dsimp only [List.foldl_cons, List.foldl_nil]
  rw [Bool.true_and]
  split <;> rfl

theorem maskPanes_nodup (m : BitVec 4) : (maskPanes m).Nodup := List.nodup_range.filter _

theorem mem_maskPanes {m : BitVec 4} {p : Nat} : p ∈ maskPanes m ↔ p < 4 ∧ m.getLsbD p = true := by
  rw [maskPanes, List.mem_filter, List.mem_range]

theorem exec_paneGrant (s : State) {core : Nat} (hcore : core < 512) :
    exec .paneGrant (s.given (.paneGrant core)) = .next (grantClaims (s.given (.paneGrant core)) core) :=
  have hok : (Ev.paneGrant core).ok = true := by simp [Ev.ok, Ev.unitOk, Ev.hdrOk, Ev.message, hcore]
  (show execPaneGrant _ = _ from evStep_given s (.paneGrant core) hok rfl)

theorem paneGrants : Claims.PaneGrantResults := by
  intro s core k hcore hk a m hm hothers
  have hgrant := grantClaims_one (s := s.given (.paneGrant core)) hk hm hothers
  refine ⟨fun hfull => ?_, fun hfits => ?_⟩
  · exact (exec_paneGrant s hcore).trans (congrArg _ (hgrant.trans (if_neg (ne_true_of_eq_false hfull))))
  · have hfit : (maskPanes m).length ≤ ((grantUnits s a).filter (unitFree s core)).length := of_decide_eq_true ((claimFits_eq s a m).symm.trans hfits)
    obtain ⟨hkeeps, -, hlogs, hgrants⟩ := grants (a := a) (s := s.given (.paneGrant core)) (maskPanes_nodup m)
      (fun p hp => (mem_maskPanes.mp hp).1) hfit
    refine ⟨_, (exec_paneGrant s hcore).trans (congrArg _ (hgrant.trans (if_pos hfits))), ?_, fun p hp hset => ?_, fun p hp hclear => ?_, ?_, hkeeps.mem⟩
    · rw [ctx_modCtx]
    · obtain ⟨n, hn, hfree, hpane⟩ := hgrants p (mem_maskPanes.mpr ⟨hp, hset⟩)
      refine ⟨n, ?_, eq_of_paneFree hfree, ?_⟩
      · rw [ctx_modCtx]
        exact hn
      · rw [paneOf_modCtx]
        exact ⟨congrArg Pane.owner hpane, congrArg Pane.ops hpane⟩
    · rw [ctx_modCtx]
      exact hlogs p fun h => Bool.noConfusion (hclear.symm.trans (mem_maskPanes.mp h).2)
    · rw [ctx_modCtx]
      exact hkeeps.live

/-- Settles O51: an event of a pane is one change of that pane, and a claim that fits finds a free unit for each of its logical panes. -/
theorem paneEventResults : Obligations.PaneEventResults := ⟨paneEvents, paneGrants⟩

end Sys2Proof.Machine
end

section
/-!
SUPPORT. The checks that every slot of a pane passes through, and the grant word bit by bit (09 R172, R176, R186).
PROOF. Tile reads and pane grants (09 R176, R184-R186; 06 R126): O41.
-/

namespace Sys2Proof.Machine

open State

/-! ## The checks of a pane slot (09 R172, R176, R186; 06 R126) -/

theorem panesOp_granted {s : State} {ps : List Nat} (h : ∀ p ∈ ps, (s.me.panes.getD p none).isSome = true) (k : Res) : panesOp s ps k = k :=
  if_pos (List.all_eq_true.mpr h)

theorem panesOp_one {s : State} {p : Nat} (h : (s.me.panes.getD p none).isSome = true) (k : Res) : panesOp s [p] k = k :=
  panesOp_granted (List.forall_mem_singleton.mpr h) k

theorem tileOp_due {s : State} {z : Nat} (hdone : ((paneOf s s.who.core (mainPane s (z / 2))).tile (z % 2)).done ≤ s.me.icyc.toNat)
    (hops : (paneOf s s.who.core (mainPane s (z / 2))).ops.all (fun o => o.fam == .mxld || o.tile != z % 2) = true) (k : Res) : tileOp s z k = k := by
  refine (if_neg (Nat.not_lt.mpr hdone)).trans (if_neg ?_)
  rw [List.any_eq_true]
  rintro ⟨o, ho, hbad⟩
  have hok := List.all_eq_true.mp hops o ho
  simp only [Bool.and_eq_true, bne_iff_ne, beq_iff_eq, Bool.or_eq_true] at hbad hok
  exact hok.elim hbad.1 fun hne => hne hbad.2

theorem maskOp_fits {s : State} {m : BitVec 4} (h : coverOf s s.who = 3 → m.toNat < 4) (k : Res) : maskOp s m k = k :=
  if_neg fun hbad => absurd (h hbad.1) (Nat.not_lt.mpr hbad.2)

/-! ## The grant word (09 R186) -/

theorem panesWord_lt (c : Ctx) : panesWord c < 2 ^ 4 := packNat_lt (w := 1) (n := 4) fun _ _ => Bool.toNat_lt _

theorem testBit_panesWord (c : Ctx) {k : Nat} (hk : k < 4) : (panesWord c).testBit k = (c.panes.getD k none).isSome := testBit_packNat hk

/-- %panes, bit by bit. -/
theorem getLsbD_grantedWord (c : Ctx) {k : Nat} (hk : k < 4) : ((grantedWord c).setWidth 4).getLsbD k = (c.panes.getD k none).isSome := by
  rw [BitVec.getLsbD_setWidth, grantedWord, BitVec.getLsbD_ofNat, testBit_panesWord c hk]
  simp [hk, show k < 64 by omega]

/-- The physical panes of a context's logical panes, two bits each from bit 0 on. -/
def physWord (c : Ctx) : Nat := packNat 2 (fun p => (c.panes.getD p none).getD 0) 4

theorem grantWord_eq (c : Ctx) : grantWord c = grantedWord c ||| BitVec.ofNat 64 (c.claim.toNat * 16 + physWord c * 256) := by
  have hsum : ((List.range 4).map (fun p => (c.panes.getD p none).getD 0 * 2 ^ (8 + 2 * p))).sum = physWord c * 256 := by
    simp only [physWord, packNat, List.range_succ, List.range_zero, List.map_append, List.sum_append, List.map_cons, List.map_nil, List.sum_cons, List.sum_nil,
      List.nil_append]
    ring
  rw [← hsum]
  rfl

theorem testBit_grantWord (c : Ctx) {k : Nat} (hk : k < 64) :
    (grantWord c).getLsbD k = ((panesWord c).testBit k || (c.claim.toNat * 16 + physWord c * 256).testBit k) := by
  rw [grantWord_eq, BitVec.getLsbD_or, grantedWord, BitVec.getLsbD_ofNat, BitVec.getLsbD_ofNat, decide_eq_true hk, Bool.true_and, Bool.true_and]

/-- The fields of physical panes lie above %panes and the claims that wait. -/
theorem grantWord_field (c : Ctx) (hlt : physWord c < 2 ^ (2 * 4)) (k : Nat) : (grantWord c).toNat / 2 ^ (8 + 2 * k) = physWord c / 2 ^ (2 * k) := by
  have hpanes := panesWord_lt c
  have hclaim := c.claim.isLt
  have hlow : panesWord c / 2 ^ (8 + 2 * k) = 0 :=
    Nat.div_eq_of_lt (Nat.lt_of_lt_of_le hpanes (Nat.pow_le_pow_right (by decide) (by omega)))
  have hhigh : (c.claim.toNat * 16 + physWord c * 256) / 2 ^ (8 + 2 * k) = physWord c / 2 ^ (2 * k) := by
    rw [Nat.pow_add, ← Nat.div_div_eq_div_mul, show (c.claim.toNat * 16 + physWord c * 256) / 2 ^ 8 = physWord c by omega]
  rw [grantWord_eq, BitVec.toNat_or, grantedWord, BitVec.toNat_ofNat, BitVec.toNat_ofNat, Nat.mod_eq_of_lt (by omega), Nat.mod_eq_of_lt (by omega),
    ← Nat.shiftRight_eq_div_pow, Nat.shiftRight_or_distrib, Nat.shiftRight_eq_div_pow, Nat.shiftRight_eq_div_pow, hlow, hhigh, Nat.zero_or]

theorem grantWords : Claims.GrantWords := by
  intro c k hk w
  have hpanes := panesWord_lt c
  refine ⟨?_, ?_, fun q hq hsome hall => ?_⟩
  · have hlow : (c.claim.toNat * 16 + physWord c * 256).testBit k = false := by
      rw [show c.claim.toNat * 16 + physWord c * 256 = 2 ^ 4 * (c.claim.toNat + physWord c * 16) by ring, Nat.testBit_two_pow_mul]
      simp [Nat.not_le.mpr hk]
    rw [testBit_grantWord c (by omega), hlow, Bool.or_false, testBit_panesWord c hk]
  · have hhigh : (panesWord c).testBit (4 + k) = false := Nat.testBit_lt_two_pow (Nat.lt_of_lt_of_le hpanes (Nat.pow_le_pow_right (by decide) (by omega)))
    rw [testBit_grantWord c (by omega), hhigh, Bool.false_or, show c.claim.toNat * 16 + physWord c * 256 = 2 ^ 4 * (c.claim.toNat + physWord c * 16) by ring,
      Nat.testBit_two_pow_mul, Nat.add_sub_cancel_left, decide_eq_true (by omega), Bool.true_and, Nat.add_comm, Nat.mul_comm,
      show (16 : Nat) = 2 ^ 4 from rfl, Nat.testBit_two_pow_mul_add _ c.claim.isLt, if_pos hk]
    rfl
  · have hphys (p : Nat) (hp : p < 4) : (c.panes.getD p none).getD 0 < 2 ^ 2 := by
      cases h : c.panes.getD p none with
      | none => decide
      | some r => exact hall p r hp h
    rw [grantWord_field c (packNat_lt hphys) k]
    refine (packNat_field hphys hk).trans ?_
    rw [hsome]
    rfl

/-! ## Tile reads (09 R176, R184, R185) -/

section
variable {s : State} {h : Hdr} {z rnd : BitVec 3} {a b d : BitVec 5} {f mk : BitVec 4}

theorem exec_mxsvSt (hi : Issues (.mxsvSt h z d) h s) (hgrant : (s.me.panes.getD (z.toNat / 2) none).isSome = true)
    (hdone : ((paneOf s s.who.core (mainPane s (z.toNat / 2))).tile (z.toNat % 2)).done ≤ s.me.icyc.toNat)
    (hops : (paneOf s s.who.core (mainPane s (z.toNat / 2))).ops.all (fun o => o.fam == .mxld || o.tile != z.toNat % 2) = true) :
    exec (.mxsvSt h z d) s = .next (s.leaves (.mxsvSt h z d) 2
      [s.wS d (BitVec.ofNat 64 (tileStatus ((paneOf s s.who.core (mainPane s (z.toNat / 2))).tile (z.toNat % 2))))]) := by
  show execMxsvSt h z d s = _
  unfold execMxsvSt
  exact slotOp_leaves (fun w => (panesOp_one (s := { s with word := w }) hgrant _).trans (tileOp_due (s := { s with word := w }) hdone hops _)) hi

theorem exec_mxrd (hi : Issues (.mxrd h z a b f rnd) h s) (hgrant : (s.me.panes.getD (z.toNat / 2) none).isSome = true)
    (hdone : ((paneOf s s.who.core (mainPane s (z.toNat / 2))).tile (z.toNat % 2)).done ≤ s.me.icyc.toNat)
    (hops : (paneOf s s.who.core (mainPane s (z.toNat / 2))).ops.all (fun o => o.fam == .mxld || o.tile != z.toNat % 2) = true)
    (hpoison : ((paneOf s s.who.core (mainPane s (z.toNat / 2))).tile (z.toNat % 2)).poison = false)
    (hpair : coverOf s s.who = 3 → tilesDiffer ((paneOf s s.who.core (mainPane s (z.toNat / 2))).tile (z.toNat % 2))
      ((paneOf s s.who.core (mainPane s (z.toNat / 2) / 2 * 2 + 1 - mainPane s (z.toNat / 2) % 2)).tile (z.toNat % 2)) = false)
    (hlow : wbits (s.rs b) 15 14 = 0) (hhigh : wbits (s.rs b) 63 20 = 0) :
    exec (.mxrd h z a b f rnd) s = .next (s.leaves (.mxrd h z a b f rnd) 6 [s.wV a
      (readout ((paneOf s s.who.core (mainPane s (z.toNat / 2))).tile (z.toNat % 2)) (paneOf s s.who.core (mainPane s (z.toNat / 2))).c f
        (if rnd = 4 then Rnd.st (wbits (s.rs b) 19 16 + 1) else Rnd.ofCode (rnd.setWidth 5)) (wbits (s.rs b) 13 0) (s.rv a))]) := by
  show execMxrd h z a b f rnd s = _
  unfold execMxrd
  refine slotOp_leaves (fun w => (panesOp_one (s := { s with word := w }) hgrant _).trans
    ((if_neg ?_).trans ((tileOp_due (s := { s with word := w }) hdone hops _).trans ((if_neg ?_).trans (if_neg ?_))))) hi
  · exact fun hbad => hbad.elim (· hlow) (· hhigh)
  · exact ne_true_of_eq_false hpoison
  · intro hbad
    obtain ⟨hcover, hdiff⟩ := Bool.and_eq_true_iff.mp hbad
    exact Bool.noConfusion ((hpair (of_decide_eq_true hcover)).symm.trans hdiff)

theorem exec_mxpnRd (hi : Issues (.mxpnRd h d) h s) : exec (.mxpnRd h d) s = .next (s.leaves (.mxpnRd h d) 2 [s.wS d (grantWord s.me)]) := by
  show execMxpnRd h d s = _
  unfold execMxpnRd
  exact slotOp_leaves (fun _ => rfl) hi

/-- A slot that issues and whose action ends it in one way. -/
theorem slotOp_acts {i : Instr} {h : Hdr} {s : State} {k : State → Res} {f : State → State}
    (hk : ∀ w, k { s with word := w } = .next (f { s with word := w })) (hi : Issues i h s) : slotOp i h s k = .next (f (s.noted i)) :=
  (slotOp_issues hi k).trans (hk _)

/-! ## Claims and releases (09 R186; 11 R206) -/

/-- The panes of a mask that a claim adds: those that the context lacks and does not claim yet. -/
def newClaim (c : Ctx) (mk : BitVec 4) : BitVec 4 := mk &&& ~~~((grantedWord c).setWidth 4) &&& ~~~c.claim

/-- The panes of a mask that a release names: those that the context has. -/
def ownMask (c : Ctx) (mk : BitVec 4) : BitVec 4 := mk &&& (grantedWord c).setWidth 4

theorem getLsbD_newClaim (c : Ctx) (mk : BitVec 4) {k : Nat} (hk : k < 4) :
    (c.claim ||| newClaim c mk).getLsbD k = (c.claim.getLsbD k || (mk.getLsbD k && !(c.panes.getD k none).isSome)) := by
  rw [newClaim, BitVec.getLsbD_or, BitVec.getLsbD_and, BitVec.getLsbD_and, BitVec.getLsbD_not, BitVec.getLsbD_not, getLsbD_grantedWord c hk, decide_eq_true hk]
  cases c.claim.getLsbD k <;> simp

theorem getLsbD_ownMask (c : Ctx) (mk : BitVec 4) {k : Nat} (hk : k < 4) :
    (ownMask c mk).getLsbD k = (mk.getLsbD k && (c.panes.getD k none).isSome) := by
  rw [ownMask, BitVec.getLsbD_and, getLsbD_grantedWord c hk]

/-- A claim recorded for the grant of this cc. -/
def layClaim (s : State) (m : BitVec 4) : State :=
  (s.modMe (fun c => { c with claim := c.claim ||| m, claimCc := if c.claim = 0 then s.cc else c.claimCc })).at_ s.cc (.paneGrant s.who.core)

/-- What a claim leaves: the grant word, and a claim on the panes that the context lacks. -/
def claimed (s : State) (d : BitVec 5) (mk : BitVec 4) : State :=
  if newClaim s.me mk = 0 then s.result 2 [s.wS d (grantWord s.me)] else layClaim (s.result 2 [s.wS d (grantWord s.me)]) (newClaim s.me mk)

/-- What a release leaves: the grant word, and the panes to leave the context at the boundary. -/
def released (s : State) (d : BitVec 5) (mk : BitVec 4) : State :=
  (s.result 2 [s.wS d (grantWord s.me)]).modMe (fun c => { c with rel := c.rel ||| ownMask s.me mk })

theorem exec_mxpnClaim (hi : Issues (.mxpnClaim h d mk) h s) (hfits : coverOf s s.who = 3 → mk.toNat < 4) :
    exec (.mxpnClaim h d mk) s = .next (claimed (s.noted (.mxpnClaim h d mk)) d mk) := by
  show execMxpnClaim h d mk s = _
  unfold execMxpnClaim
  exact slotOp_acts (f := fun u => claimed u d mk)
    (fun w => (maskOp_fits (s := { s with word := w }) hfits _).trans (apply_ite Host.Outcome.next ..).symm) hi

theorem ctx_layClaim (s : State) (m : BitVec 4) :
    (layClaim s m).ctx s.who = { s.me with claim := s.me.claim ||| m, claimCc := if s.me.claim = 0 then s.cc else s.me.claimCc } :=
  ctx_modCtx s s.who (fun c => { c with claim := c.claim ||| m, claimCc := if c.claim = 0 then s.cc else c.claimCc })

theorem layClaim_mem (s : State) (m : BitVec 4) : (layClaim s m).mem = s.mem := rfl

theorem mem_agenda_layClaim (s : State) (m : BitVec 4) : (s.cc, Ev.paneGrant s.who.core) ∈ (layClaim s m).agenda := mem_agendaInsert.mpr (.inl rfl)

theorem claimed_ctx (s : State) (d : BitVec 5) (mk : BitVec 4) :
    let t := claimed s d mk
    (t.ctx s.who).flight = s.me.flight ++ [{ id := 0, writes := [s.wS d (grantWord s.me)], dist := 2 }] ∧
      (t.ctx s.who).panes = s.me.panes ∧ (t.ctx s.who).live = s.me.live ∧ t.mem = s.mem ∧ (t.ctx s.who).claim = s.me.claim ||| newClaim s.me mk ∧
      ((t.ctx s.who).claim ≠ s.me.claim → (s.cc, Ev.paneGrant s.who.core) ∈ t.agenda) := by
  have hresult : (s.result 2 [s.wS d (grantWord s.me)]).ctx s.who = _ := me_result s 2 _
  unfold claimed
  dsimp only
  split
  · next hnone =>
    rw [hresult, hnone]
    exact ⟨rfl, rfl, rfl, rfl, BitVec.or_zero.symm, fun hne => absurd rfl hne⟩
  · have hctx := ctx_layClaim (s.result 2 [s.wS d (grantWord s.me)]) (newClaim s.me mk)
    rw [me_result] at hctx
    rw [show State.ctx _ s.who = _ from hctx]
    have hagenda := mem_agenda_layClaim (s.result 2 [s.wS d (grantWord s.me)]) (newClaim s.me mk)
    rw [result_cc, result_who] at hagenda
    exact ⟨rfl, rfl, rfl, (layClaim_mem ..).trans (result_mem ..), rfl, fun _ => hagenda⟩

/-- The slot's own word, noted before it claims, changes nothing of that. -/
theorem claimed_noted (s : State) (i : Instr) (d : BitVec 5) (mk : BitVec 4) :
    let t := claimed (s.noted i) d mk
    (t.ctx s.who).flight = s.me.flight ++ [{ id := 0, writes := [s.wS d (grantWord s.me)], dist := 2 }] ∧
      (t.ctx s.who).panes = s.me.panes ∧ (t.ctx s.who).live = s.me.live ∧ t.mem = s.mem ∧ (t.ctx s.who).claim = s.me.claim ||| newClaim s.me mk ∧
      ((t.ctx s.who).claim ≠ s.me.claim → (s.cc, Ev.paneGrant s.who.core) ∈ t.agenda) := claimed_ctx (s.noted i) d mk

theorem released_ctx (s : State) (d : BitVec 5) (mk : BitVec 4) :
    let t := released s d mk
    (t.ctx s.who).flight = s.me.flight ++ [{ id := 0, writes := [s.wS d (grantWord s.me)], dist := 2 }] ∧
      (t.ctx s.who).panes = s.me.panes ∧ (t.ctx s.who).live = s.me.live ∧ t.mem = s.mem ∧ (t.ctx s.who).rel = s.me.rel ||| ownMask s.me mk := by
  have hresult : (s.result 2 [s.wS d (grantWord s.me)]).ctx s.who = _ := me_result s 2 _
  dsimp only
  rw [show (released s d mk).ctx s.who = _ from ctx_modCtx _ s.who _, hresult]
  exact ⟨rfl, rfl, rfl, rfl, rfl⟩

theorem released_noted (s : State) (i : Instr) (d : BitVec 5) (mk : BitVec 4) :
    let t := released (s.noted i) d mk
    (t.ctx s.who).flight = s.me.flight ++ [{ id := 0, writes := [s.wS d (grantWord s.me)], dist := 2 }] ∧
      (t.ctx s.who).panes = s.me.panes ∧ (t.ctx s.who).live = s.me.live ∧ t.mem = s.mem ∧ (t.ctx s.who).rel = s.me.rel ||| ownMask s.me mk :=
  released_ctx (s.noted i) d mk

/-- A release that names no pane at work is recorded for the boundary. -/
theorem exec_mxpnRel (hi : Issues (.mxpnRel h d mk) h s) (hfits : coverOf s s.who = 3 → mk.toNat < 4)
    (hidle : ∀ k ∈ maskPanes (ownMask s.me mk), (paneOf s s.who.core (mainPane s k)).ops = [] ∧
      ∀ n < 2, ((paneOf s s.who.core (mainPane s k)).tile n).done ≤ s.me.icyc.toNat) :
    exec (.mxpnRel h d mk) s = .next (released (s.noted (.mxpnRel h d mk)) d mk) := by
  have hdue : ((maskPanes (ownMask s.me mk)).flatMap (fun p => [2 * p, 2 * p + 1])).find?
      (fun z => decide (s.me.icyc.toNat < ((paneOf s s.who.core (mainPane s (z / 2))).tile (z % 2)).done)) = none := by
    refine List.find?_eq_none.mpr fun z hz => ?_
    obtain ⟨p, hp, hz⟩ := List.mem_flatMap.mp hz
    have hpz : z / 2 = p := by
      simp only [List.mem_cons, List.not_mem_nil, or_false] at hz
      omega
    rw [decide_eq_true_iff, Nat.not_lt, hpz]
    exact (hidle p hp).2 _ (Nat.mod_lt _ (by decide))
  show execMxpnRel h d mk s = _
  unfold execMxpnRel
  refine slotOp_acts (f := fun u => released u d mk) (fun w => (maskOp_fits (s := { s with word := w }) hfits _).trans ?_) hi
  have hidle' : ¬(maskPanes (ownMask s.me mk)).any (fun p => !((paneOf s s.who.core (mainPane s p)).ops.isEmpty)) = true := by
    rw [List.any_eq_true]
    rintro ⟨p, hp, hops⟩
    simp [(hidle p hp).1] at hops
  dsimp only
  split
  · next z hz => exact absurd (hdue.symm.trans hz) (by simp)
  · exact if_neg hidle'

end

theorem tileReads : Claims.TileReadResults := by
  intro s h z rnd a b d f mk q p t maskFits granted
  refine ⟨fun hgrant hdone hops => ⟨fun hi => exec_mxsvSt hi hgrant hdone hops,
      fun hi hpoison hpair hlow hhigh => exec_mxrd hi hgrant hdone hops hpoison hpair hlow hhigh⟩,
    exec_mxpnRd, fun hi hfits => ⟨_, exec_mxpnClaim hi hfits, ?_⟩, fun hi hfits hidle => ?_⟩
  · obtain ⟨hflight, hpanes, hlive, hmem, hclaim, hagenda⟩ := claimed_noted s (.mxpnClaim h d mk) d mk
    refine ⟨hflight, hpanes, hlive, hmem, fun k hk => ?_, hagenda⟩
    exact (congrArg (BitVec.getLsbD · k) hclaim).trans (getLsbD_newClaim s.me mk hk)
  · have hown (k : Nat) (hk : k ∈ maskPanes (ownMask s.me mk)) : k < 4 ∧ mk.getLsbD k = true ∧ granted k = true := by
      obtain ⟨hk4, hset⟩ := mem_maskPanes.mp hk
      rw [getLsbD_ownMask s.me mk hk4, Bool.and_eq_true] at hset
      exact ⟨hk4, hset⟩
    refine ⟨_, exec_mxpnRel hi hfits fun k hk => ?_, ?_⟩
    · obtain ⟨hk4, hset, hgrant⟩ := hown k hk
      obtain ⟨hops, h0, h1⟩ := hidle k hk4 hset hgrant
      exact ⟨hops, fun n hn => by interval_cases n <;> assumption⟩
    · obtain ⟨hflight, hpanes, hlive, hmem, hrel⟩ := released_noted s (.mxpnRel h d mk) d mk
      exact ⟨hflight, hpanes, hlive, hmem,
        fun k hk => by rw [hrel, BitVec.getLsbD_or, getLsbD_ownMask s.me mk hk]⟩

/-- Settles O41: each slot of a pane passes its checks and leaves one result, and the fields of the grant word do not overlap. -/
theorem tileReadResults : Obligations.TileReadResults := ⟨tileReads, grantWords⟩

end Sys2Proof.Machine
end

section
/-!
PROOF. Governor slots and governed conversion (09 R187-R190; 08 R167, R168): O40, which a policy block at a fabric address refutes.
-/

namespace Sys2Proof.Machine

/-- A command processor whose process has a governor table and whose page 0 lies at the first fabric address (17 R332; 22 R387). -/
def farPolicy : State :=
  { who := .cp 0, gov := [(0, { proc := some 0 })], dies := [(0, { tlb := [{ proc := 0, vf := 0, page := 0, size := 16, pa := 2 ^ 51, pte := 4 }] })] }

/-- An unguarded slot. -/
def plainSlot : Hdr := { stop := false, g := 0 }

theorem farPolicy_issues : Issues (.govPol plainSlot 0) plainSlot farPolicy := by unfold Issues; decide +kernel

/-- Whether an address resolves to a place at a fabric address. -/
def resolvesFar (r : Except AFault (Loc × State)) : Bool := match r with
  | .ok (l, _) => l.fabric
  | .error _ => false

/-- The policy block lies at a fabric address. -/
theorem farPolicy_resolves :
    resolvesFar (resolve (farPolicy.noted (.govPol plainSlot 0)) farPolicy.who .load .m (farPolicy.rs 0) 16) = true := by decide +kernel

/-- The slot asks for the policy block and waits for its bytes (17 R408): it takes no trap. -/
theorem farPolicy_waits : causeOf (.cp 0) (exec (.govPol plainSlot 0) farPolicy) = some 0 := by decide +kernel

/-- Refutes O40: the claim has GOV pol of a block at a fabric address stop with cause 0x21; the model asks for the 16 bytes and holds the slot until they
come, as it does for every read that a slot needs before it acts. -/
theorem not_governorResults : ¬ Obligations.GovernorResults := by
  rintro ⟨hgov, -⟩
  obtain ⟨-, -, -, hpol⟩ := hgov farPolicy plainSlot 0 0 0 0 (by decide +kernel)
  have hfar := farPolicy_resolves
  cases hresolve : resolve (farPolicy.noted (.govPol plainSlot 0)) farPolicy.who .load .m (farPolicy.rs 0) 16 with
  | error f =>
    rw [hresolve] at hfar
    exact absurd hfar Bool.false_ne_true
  | ok r =>
    obtain ⟨l, s'⟩ := r
    rw [hresolve] at hfar
    obtain ⟨hrefused, -⟩ := hpol l s' (by decide +kernel) farPolicy_issues hresolve
    obtain ⟨t, ht, hcause, -⟩ := hrefused hfar
    have hwaits := farPolicy_waits
    rw [ht, causeOf, show (t.ctx (.cp 0)).tcause = 0x21 from hcause] at hwaits
    exact absurd hwaits (by decide)

end Sys2Proof.Machine
end

section
/-!
SUPPORT. What the fetch of a tile leaves alone (09 R174, R179): the bundle's agent (`State.who`), which `State.agents` leaves out, the agents' records and the
verdict; the same of the plan that a slot makes of its descriptor.
-/

namespace Sys2Proof.Machine

open State

/-! ## The bundle's agent -/

@[simp] theorem who_touchMeta (s : State) (sort no : Nat) : (s.touchMeta sort no).who = s.who := rfl
@[simp] theorem who_setPoison (s : State) (k n : Nat) : (s.setPoison k n).who = s.who := rfl
@[simp] theorem who_codecEvent (s : State) (a : Agent) (c : CodedLoc) (reason sats : Nat) : (codecEvent s a c reason sats).who = s.who := rfl

@[simp] theorem who_storeAt (s : State) (k : Nat) (bs : List Byte) : (s.storeAt k bs).who = s.who := by
  unfold State.storeAt State.unpoison
  split <;> rfl

@[simp] theorem who_storeNum (s : State) (k n x : Nat) : (s.storeNum k n x).who = s.who := who_storeAt ..

@[simp] theorem who_readBlock (s : State) (a : Agent) (c : CodedLoc) : (readBlock s a c).2.who = s.who := by
  unfold readBlock
  dsimp only
  split <;> rfl

@[simp] theorem who_mergeBlock (s : State) (a : Agent) (c : CodedLoc) (bs : List (Option Byte)) : (mergeBlock s a c bs).who = s.who := by
  unfold mergeBlock
  simp only [apply_ite State.who, who_codecEvent, who_touchMeta, who_setPoison, who_storeNum, who_readBlock, ite_self]

theorem who_mergeBytes (a : Agent) (fuel : Nat) : ∀ (s : State) (c : CodedLoc) (bs : List Byte), (mergeBytes s a fuel c bs).who = s.who := by
  induction fuel with
  | zero => exact fun s c bs => rfl
  | succ fuel ih =>
    intro s c bs
    rw [mergeBytes]
    split
    · rfl
    · exact (ih ..).trans (who_mergeBlock ..)

theorem who_codedBytesAt (a : Agent) (fuel : Nat) : ∀ (s : State) (c : CodedLoc) (n : Nat), (codedBytesAt s a fuel c n).2.who = s.who := by
  induction fuel with
  | zero => exact fun s c n => rfl
  | succ fuel ih =>
    intro s c n
    rw [codedBytesAt]
    split
    · rfl
    · exact (ih ..).trans (who_readBlock ..)

theorem who_homeRead (s : State) (a : Agent) (l : Loc) (n : Nat) : (s.homeRead a l n).2.who = s.who := by
  unfold State.homeRead
  split
  · dsimp only
    split <;> rfl
  · exact who_codedBytesAt ..

theorem who_homeWrite (s : State) (a : Agent) (l : Loc) (bs : List Byte) : (s.homeWrite a l bs).who = s.who := by
  unfold State.homeWrite
  split
  · dsimp only
    split <;> exact who_storeAt ..
  · exact who_mergeBytes ..

theorem who_writeBackLine (s : State) (core key : Nat) (a : Agent) : (s.writeBackLine core key a).who = s.who := by
  unfold State.writeBackLine
  extract_lets ln loc bs runs s1
  split
  · rfl
  · refine (modCore_who s1 core _).trans ?_
    unfold s1
    split
    · refine foldl_keeps (p := State.who) (fun s r => (foldl_keeps (p := State.who) (fun s o => ?_) ..).trans (who_homeWrite ..)) ..
      split <;> rfl
    · refine foldl_keeps (p := State.who) (fun s o => ?_) ..
      dsimp only
      split
      · rfl
      · split <;> exact who_mergeBlock ..

theorem who_recallLine (s : State) (but : Option Nat) (key : Nat) : (s.recallLine but key).who = s.who := by
  unfold State.recallLine
  refine foldl_keeps (p := State.who) (fun s e => ?_) ..
  split
  · exact who_writeBackLine ..
  · rfl

theorem who_beforeStrong (s : State) (a : Agent) (l : Loc) : (s.beforeStrong a l).who = s.who := by
  unfold State.beforeStrong
  refine (who_recallLine ..).trans ?_
  split
  · exact who_writeBackLine ..
  · rfl

theorem who_sendStep (s : State) (n pkg tag : Nat) (e : Ev) : (s.sendStep n pkg tag e).who = s.who := by
  unfold State.sendStep
  split
  · rfl
  · split <;> rfl

/-! ## What a fetch leaves alone -/

/-- The bundle's agent, every agent's record and the verdict are as they were. -/
structure Reads (s t : State) : Prop where
  who : t.who = s.who
  agents : t.agents = s.agents

theorem Reads.refl (s : State) : Reads s s := ⟨rfl, rfl⟩
theorem Reads.trans {s t u : State} (h : Reads s t) (h' : Reads t u) : Reads s u := ⟨h'.who.trans h.who, h'.agents.trans h.agents⟩
theorem Reads.of_unsampled {s t : State} (h : t.unsampled = s.unsampled) : Reads s t := ⟨who_of_unsampled h, agents_of_unsampled h⟩
theorem Reads.me {s t : State} (h : Reads s t) : t.me = s.me := by rw [State.me, h.who, ctx_of_agents h.agents, State.me]
theorem Reads.verdict {s t : State} (h : Reads s t) : t.verdict = s.verdict := verdict_of_agents h.agents

/-- A fold of steps that only read only reads. -/
theorem reads_foldl {α : Type} {f : State → α → State} (h : ∀ s x, Reads s (f s x)) (l : List α) (s : State) : Reads s (l.foldl f s) :=
  ⟨foldl_keeps (p := State.who) (fun s x => (h s x).who) l s, foldl_keeps (p := State.agents) (fun s x => (h s x).agents) l s⟩

theorem reads_fetchSeg (s : State) (a : Agent) (l : Loc) (n : Nat) : Reads s (fetchSeg s a l n).2.2.2 := by
  have hhome : Reads s ((s.beforeStrong a l).homeRead a l n).2 :=
    ⟨(who_homeRead ..).trans (who_beforeStrong ..), (agents_homeRead ..).trans (agents_beforeStrong ..)⟩
  unfold fetchSeg
  dsimp only
  split
  · exact .refl s
  · exact .refl s
  · split
    · exact .refl s
    · exact hhome

theorem reads_openBytes (s : State) (l : Loc) (bs : List Byte) : Reads s (openBytes s l bs).2 := by
  unfold openBytes
  split <;> exact ⟨rfl, rfl⟩

theorem reads_fetchSegs (a : Agent) (segs : List (Loc × Nat)) : ∀ s : State, Reads s (fetchSegs s a segs).2.2.2 := by
  induction segs with
  | nil => exact .refl
  | cons x r ih =>
    intro s
    have hseg : Reads s (if x.1.fabric then (List.replicate x.2 0, false, 0, s) else fetchSeg s a x.1 x.2 : List Byte × Bool × Nat × State).2.2.2 := by
      split
      · exact .refl s
      · exact reads_fetchSeg ..
    rw [fetchSegs]
    exact (hseg.trans (reads_openBytes ..)).trans (ih _)

theorem reads_remoteRead (s : State) (rem : Remote) (pa n vf : Nat) : Reads s (s.remoteRead rem pa n vf) := ⟨who_sendStep .., agents_remoteRead ..⟩

theorem reads_fetchFar (s : State) (a : Agent) (id : Nat) (eas : List Nat) (segs : List (Loc × Nat)) : Reads s (fetchFar s a id eas segs) := by
  refine reads_foldl (fun s x => ?_) ..
  split
  · exact reads_remoteRead ..
  · exact .refl s

theorem resolve_reads {s t : State} {a : Agent} {acc : Acc} {sp : Space} {ea : BitVec 64} {n : Nat} {l : Loc} (h : resolve s a acc sp ea n = .ok (l, t)) :
    Reads s t := .of_unsampled (resolve_translates _ _ _ _ _ _ _ _ h)

theorem resolveRange_reads {s t : State} {a : Agent} {acc : Acc} {sp : Space} {fuel : Nat} {ea : BitVec 64} {n : Nat} {segs : List (Loc × Nat)}
    (h : resolveRange s a acc sp fuel ea n = .ok (segs, t)) : Reads s t := .of_unsampled (resolveRange_translates _ _ _ _ _ _ _ _ _ h)

theorem resolvePieces_reads {a : Agent} {acc : Acc} {sp : Space} {ps : List (Nat × Nat)} :
    ∀ {s t : State} {segs : List (Loc × Nat)}, resolvePieces s a acc sp ps = .ok (segs, t) → Reads s t := by
  induction ps with
  | nil =>
    intro s t segs h
    obtain ⟨-, rfl⟩ : [] = segs ∧ s = t := by simpa [resolvePieces] using h
    exact .refl s
  | cons p r ih =>
    intro s t segs h
    rw [resolvePieces] at h
    split at h
    · exact nomatch h
    next l u hl =>
      split at h
      · exact nomatch h
      next l' v hr =>
        obtain ⟨-, rfl⟩ : l ++ l' = segs ∧ v = t := by simpa using h
        exact (resolveRange_reads hl).trans (ih hr)

theorem reads_touchTags (s : State) (a : Agent) (d : RegionDesc) (f : BitVec 4) (b32 : Bool) : Reads s (touchTags s a d f b32) := by
  refine reads_foldl (fun s x => ?_) ..
  split
  · exact ⟨rfl, rfl⟩
  · exact .refl s

theorem fetchHead_reads {s t : State} {a : Agent} {ea : BitVec 64} {l : Loc} {bs : List Byte} (h : fetchHead s a ea l = .ok (bs, t)) : Reads s t := by
  unfold fetchHead at h
  split at h
  · cases hfar : farRead s a .slot .engRd ea l 64 with
    | error f => rw [hfar] at h; exact nomatch h
    | ok b =>
      rw [hfar] at h
      obtain ⟨-, rfl⟩ : b = bs ∧ s = t := by simpa [Except.map] using h
      exact .refl s
  · dsimp only at h
    split at h
    · exact nomatch h
    · obtain ⟨-, rfl⟩ : _ ∧ (fetchSegs s a [(l, 64)]).2.2.2 = t := by simpa using h
      exact reads_fetchSegs ..

/-- The plan of a fetch that goes on has only read. -/
theorem planFetch_reads {s t : State} {daddr coord : Word} {f : BitVec 4} {nr nc : Nat} {tr : Bool} {q : TileReq} {d : RegionDesc} {seg : List (Loc × Nat)}
    {stale : Option (Nat × Nat)} (h : planFetch s daddr coord f nr nc tr = .go q d seg stale t) : Reads s t := by
  unfold planFetch at h
  dsimp only at h
  split at h
  · exact nomatch h
  split at h
  · exact nomatch h
  next l s1 hl =>
    split at h
    · exact nomatch h
    split at h
    · split at h <;> exact nomatch h
    next bs s2 hhead =>
      have hread := (resolve_reads hl).trans (fetchHead_reads hhead)
      split at h
      · exact nomatch h
      split at h
      · split at h
        · exact nomatch h
        split at h
        · exact nomatch h
        · cases h
          exact hread
      split at h
      · exact nomatch h
      split at h
      · exact nomatch h
      split at h
      · exact nomatch h
      split at h
      · exact nomatch h
      · cases h
        exact hread.trans (reads_touchTags ..)

end Sys2Proof.Machine
end

section
/-!
SUPPORT. The queue of a pane: the operation that was queued last is its last (09 R175); what queueing one leaves of its context.
PROOF. Operations given to panes (09 R174, R175, R178, R181, R182, R185): O42.
-/

namespace Sys2Proof.Machine

open State

/-! ## What issuing an operation leaves of its context -/

/-- The bundle's agent, the verdict, and the issuing context's registers and panes are as they were. -/
structure Issuing (s t : State) : Prop where
  who : t.who = s.who
  verdict : t.verdict = s.verdict
  live : (t.ctx s.who).live = s.me.live
  panes : (t.ctx s.who).panes = s.me.panes

theorem Issuing.refl (s : State) : Issuing s s := ⟨rfl, rfl, rfl, rfl⟩

theorem Issuing.trans {s t u : State} (h : Issuing s t) (h' : Issuing t u) : Issuing s u :=
  ⟨h'.who.trans h.who, h'.verdict.trans h.verdict, by rw [← h.live, ← h.who]; exact h'.live, by rw [← h.panes, ← h.who]; exact h'.panes⟩

/-- A state in which a slot's own word is noted. -/
def State.worded (s : State) (w : SlotWord) : State := { s with word := w }

/-- A slot that issues acts on a state that differs from `s` in its own word alone, whatever that is. -/
theorem slotOp_goes {i : Instr} {h : Hdr} {s : State} {k : State → Res} {P Q : State → Prop} (hi : Issues i h s) (hQ : Q (s.noted i))
    (hk : ∀ w, Q (s.worded w) → ∃ t, k (s.worded w) = .next t ∧ P t) : ∃ t, slotOp i h s k = .next t ∧ P t := by
  rw [slotOp_issues hi]
  exact hk (encode i) hQ

theorem Issuing.of_worded {s t : State} {w : SlotWord} (h : Issuing (s.worded w) t) : Issuing s t := ⟨h.who, h.verdict, h.live, h.panes⟩

theorem Issuing.of_reads {s t : State} (h : Reads s t) : Issuing s t :=
  ⟨h.who, h.verdict, by rw [ctx_of_agents h.agents]; rfl, by rw [ctx_of_agents h.agents]; rfl⟩

/-- A change of the issuing context that keeps its registers and panes. -/
theorem issuing_modCtx (s : State) {f : Ctx → Ctx} (hlive : (f s.me).live = s.me.live) (hpanes : (f s.me).panes = s.me.panes) :
    Issuing s (s.modCtx s.who f) :=
  ⟨rfl, rfl, by rw [ctx_modCtx]; exact hlive, by rw [ctx_modCtx]; exact hpanes⟩

theorem Issuing.reads {s t u : State} (h : Issuing s t) (h' : Reads t u) : Issuing s u := h.trans (.of_reads h')

theorem Issuing.addTraffic {s t : State} (h : Issuing s t) (n : Nat) : Issuing s (addTraffic t s.who n) := by
  have hnext : Issuing t (Machine.addTraffic t t.who n) := ⟨rfl, rfl, by rw [addTraffic_keeps]; rfl, by rw [addTraffic_keeps]; rfl⟩
  rw [← h.who]
  exact h.trans hnext

theorem Issuing.addFlight {s t : State} (h : Issuing s t) (e : Flight) : Issuing s (t.addFlight s.who e) := by
  rw [← h.who]
  exact h.trans (issuing_modCtx t rfl rfl)

theorem Issuing.addLeases {s t : State} (h : Issuing s t) (k : LeaseKind) (a : Agent) (ref : Nat) (segs : List (Loc × Nat)) :
    Issuing s (addLeases t k a ref segs) := h.trans ⟨rfl, rfl, rfl, rfl⟩

theorem Issuing.after {s t : State} (h : Issuing s t) (n : Nat) (e : Ev) : Issuing s (t.after n e) := h.trans ⟨rfl, rfl, rfl, rfl⟩

theorem issuing_foldl {α : Type} {f : State → α → State} (h : ∀ s x, Issuing s (f s x)) (l : List α) (s : State) : Issuing s (l.foldl f s) := by
  induction l generalizing s with
  | nil => exact .refl s
  | cons x l ih => exact (h s x).trans (ih _)

theorem Issuing.mainPane {s t : State} (h : Issuing s t) (p : Nat) : mainPane t p = mainPane s p := by
  rw [Machine.mainPane, Machine.mainPane, State.me, h.who, h.panes]

/-! ## The last operation of a pane -/

/-- The last operation in the queue of a pane satisfies a test. -/
def LastOp (s : State) (core q : Nat) (ok : PaneOp → Bool) : Prop := (paneOf s core q).ops.getLast?.map ok = some true

theorem paneOf_modPane_ne (s : State) (core : Nat) {y q : Nat} (h : y ≠ q) (f : Pane → Pane) : paneOf (modPane s core y f) core q = paneOf s core q := by
  rw [paneOf, modPane, core_modCore, Vector.getD, Vector.toArray_setIfInBounds, Array.getD_eq_getD_getElem?, Array.getElem?_setIfInBounds, if_neg h,
    ← Array.getD_eq_getD_getElem?]
  rfl

/-- A change that keeps the queues of panes keeps their last operations. -/
theorem lastOp_modPane {s : State} {core q : Nat} {ok : PaneOp → Bool} (h : LastOp s core q ok) (hq : q < 4) (y : Nat) {f : Pane → Pane}
    (hf : ∀ p, (f p).ops = p.ops) : LastOp (modPane s core y f) core q ok := by
  unfold LastOp
  obtain rfl | hne := eq_or_ne y q
  · rw [paneOf_modPane_same s core hq, hf]
    exact h
  · rw [paneOf_modPane_ne s core hne]
    exact h

theorem issuing_queueOp (s : State) (core y : Nat) (o : PaneOp) : Issuing s (queueOp s core y o) := ⟨rfl, rfl, rfl, rfl⟩

/-- An operation queued is the last of its pane, and the last operations of other panes stay. -/
theorem lastOp_queueOp {s : State} {core y q : Nat} {o : PaneOp} {ok : PaneOp → Bool} (hq : q < 4) (hok : ok o = true) (h : y = q ∨ LastOp s core q ok) :
    LastOp (queueOp s core y o) core q ok := by
  rw [LastOp, queueOp, paneOf_at]
  obtain rfl | hne := eq_or_ne y q
  · rw [paneOf_modPane_same s core hq, List.getLast?_concat, Option.map_some, hok]
  · rw [paneOf_modPane_ne s core hne]
    exact h.resolve_left hne

/-- What queues on one pane of a list, and keeps the last operations of the others, leaves a last operation on each. -/
theorem lastOp_foldl {f : State → Nat → State} {q : Nat} {ok : PaneOp → Bool} (hkeep : ∀ s y, Issuing s (f s y))
    (hstep : ∀ s y, y = q ∨ LastOp s s.who.core q ok → LastOp (f s y) s.who.core q ok) (qs : List Nat) (s : State)
    (h : q ∈ qs ∨ LastOp s s.who.core q ok) : LastOp (qs.foldl f s) s.who.core q ok := by
  induction qs generalizing s with
  | nil => exact h.resolve_left List.not_mem_nil
  | cons y qs ih =>
    have hwho := (hkeep s y).who
    rw [List.foldl_cons, ← hwho]
    refine ih _ ?_
    rw [hwho]
    obtain hmem | hlast := h
    · obtain rfl | hmem := List.mem_cons.mp hmem
      · exact .inr (hstep s q (.inl rfl))
      · exact .inl hmem
    · exact .inr (hstep s y (.inr hlast))

/-- A logical pane runs on its main physical pane (06 R126). -/
theorem mainPane_mem_physPanes {s : State} {p : Nat} (h : (s.me.panes.getD p none).isSome = true) : mainPane s p ∈ physPanes s s.who p := by
  obtain ⟨q, hq⟩ := Option.isSome_iff_exists.mp h
  have hctx : (s.ctx s.who).panes.getD p none = some q := hq
  rw [mainPane, physPanes, hq, hctx]
  dsimp only [Option.getD_some]
  split
  · simp only [List.mem_cons, List.not_mem_nil, or_false]
    omega
  · exact List.mem_singleton_self q

/-- An operation queued on one physical pane; one that will replay does so after its walk. -/
def queueAt (o : PaneOp) (s : State) (q : Nat) : State := match o.replay with
  | some cc => (queueOp s s.who.core q o).at_ cc (.paneReplay s.who.core q)
  | none => queueOp s s.who.core q o

theorem issuing_queueAt (o : PaneOp) (s : State) (q : Nat) : Issuing s (queueAt o s q) := by
  unfold queueAt
  split <;> exact ⟨rfl, rfl, rfl, rfl⟩

theorem lastOp_queueAt {s : State} {y q : Nat} {o : PaneOp} {ok : PaneOp → Bool} (hq : q < 4) (hok : ok o = true)
    (h : y = q ∨ LastOp s s.who.core q ok) : LastOp (queueAt o s y) s.who.core q ok := by
  unfold queueAt
  split <;> exact lastOp_queueOp hq hok h

/-- A failed operation is taken in the next cc. -/
def failNext (o : PaneOp) (p : Nat) (s : State) : State := match o.fault with
  | some _ => s.after 1 (.paneFetchFailure s.who.core (mainPane s p))
  | none => s

theorem queueOn_eq (s : State) (p : Nat) (o : PaneOp) : queueOn s p o = failNext o p ((physPanes s s.who p).foldl (queueAt o) s) := rfl

theorem issuing_queueOn (s : State) (p : Nat) (o : PaneOp) : Issuing s (queueOn s p o) := by
  rw [queueOn_eq]
  refine (issuing_foldl (issuing_queueAt o) (physPanes s s.who p) s).trans ?_
  unfold failNext
  split <;> exact ⟨rfl, rfl, rfl, rfl⟩

theorem lastOp_queueOn {s : State} {p q : Nat} {o : PaneOp} {ok : PaneOp → Bool} (hq : q < 4) (hok : ok o = true)
    (h : q ∈ physPanes s s.who p ∨ LastOp s s.who.core q ok) : LastOp (queueOn s p o) s.who.core q ok := by
  have hlast := lastOp_foldl (issuing_queueAt o) (fun _ _ => lastOp_queueAt hq hok) (physPanes s s.who p) s h
  rw [queueOn_eq]
  unfold failNext
  split <;> exact hlast

theorem issuing_modLogical (s : State) (p : Nat) (f : Pane → Pane) : Issuing s (modLogical s p f) :=
  issuing_foldl (f := fun s q => modPane s s.who.core q f) (fun _ _ => ⟨rfl, rfl, rfl, rfl⟩) _ s

theorem lastOp_modAll {core q : Nat} {ok : PaneOp → Bool} (hq : q < 4) {f : Pane → Pane} (hf : ∀ p, (f p).ops = p.ops) (qs : List Nat) :
    ∀ s : State, s.who.core = core → LastOp s core q ok → LastOp (qs.foldl (fun (s : State) y => modPane s s.who.core y f) s) core q ok := by
  induction qs with
  | nil => exact fun s _ h => h
  | cons y qs ih =>
    intro s hcore h
    exact ih (modPane s s.who.core y f) hcore (hcore.symm ▸ lastOp_modPane h hq y hf)

theorem lastOp_modLogical {s : State} {p q : Nat} {ok : PaneOp → Bool} (h : LastOp s s.who.core q ok) (hq : q < 4) {f : Pane → Pane}
    (hf : ∀ p, (f p).ops = p.ops) : LastOp (modLogical s p f) s.who.core q ok := lastOp_modAll hq hf (physPanes s s.who p) s rfl h

/-! ## Products, rankings and stationary tiles given to a pane (09 R175, R178, R181, R182) -/

/-- What a slot that gives pane operations leaves: its context's registers and panes, and on pane `q` a last operation that satisfies a test. -/
def Gives (s t : State) (q : Nat) (ok : PaneOp → Bool) : Prop := Issuing s t ∧ LastOp t s.who.core q ok

/-- A pane to which a product or ranking that starts at `S` and is done at `D` is given. -/
def accPane (o : PaneOp) (z S D : Nat) (k : TileKind) (pn : Pane) : Pane :=
  let pn := { pn with f := Nat.max pn.f (S + o.occ) }
  let pn := if o.fam = .mxrk then pn else if o.bank = 0 then { pn with u0 := Nat.max pn.u0 (S + o.occ) } else { pn with u1 := Nat.max pn.u1 (S + o.occ) }
  pn.setTile (z % 2) (issueTile (pn.tile (z % 2)) o.zs o.rows o.width k D)

theorem accPane_ops (o : PaneOp) (z S D : Nat) (k : TileKind) (p : Pane) : (accPane o z S D k p).ops = p.ops := by
  unfold accPane
  dsimp only
  rw [setTile_ops]
  split
  · rfl
  · split <;> rfl

/-- A change of the panes of a logical pane that keeps their queues keeps what was given. -/
theorem Gives.modLogical {s t : State} {q : Nat} {ok : PaneOp → Bool} (h : Gives s t q ok) (hq : q < 4) (p : Nat) {f : Pane → Pane}
    (hf : ∀ p, (f p).ops = p.ops) : Gives s (modLogical t p f) q ok := by
  obtain ⟨hkeep, hlast⟩ := h
  rw [← hkeep.who] at hlast
  have hlast' := lastOp_modLogical (p := p) hlast hq hf
  rw [hkeep.who] at hlast'
  exact ⟨hkeep.trans (issuing_modLogical ..), hlast'⟩

theorem Issuing.mainPane_mem {s u : State} (h : Issuing s u) {p : Nat} (hgrant : (s.me.panes.getD p none).isSome = true) :
    Machine.mainPane s p ∈ physPanes u u.who p := by
  have hpanes : u.me.panes = s.me.panes := by rw [State.me, h.who, h.panes]
  exact h.mainPane p ▸ mainPane_mem_physPanes (hpanes.symm ▸ hgrant)

/-- An operation queued on the panes of a logical pane, whose records then change in something else, in a state that keeps the context. -/
theorem queueOn_gives {s u : State} (hkeep : Issuing s u) {p : Nat} {o : PaneOp} {ok : PaneOp → Bool}
    (hgrant : (s.me.panes.getD p none).isSome = true) (hq : mainPane s p < 4) (hok : ok o = true) {f : Pane → Pane} (hf : ∀ p, (f p).ops = p.ops) :
    Gives s (modLogical (queueOn u p o) p f) (mainPane s p) ok := by
  have hlast := lastOp_queueOn hq hok (.inl (hkeep.mainPane_mem hgrant))
  rw [hkeep.who] at hlast
  exact Gives.modLogical ⟨hkeep.trans (issuing_queueOn u p o), hlast⟩ hq p hf

/-- A change of the issuing context that keeps its registers and panes keeps what was given. -/
theorem Gives.modMe {s t : State} {q : Nat} {ok : PaneOp → Bool} (h : Gives s t q ok) {g : Ctx → Ctx} (hlive : ∀ c, (g c).live = c.live)
    (hpanes : ∀ c, (g c).panes = c.panes) : Gives s (t.modMe g) q ok := ⟨h.1.trans (issuing_modCtx t (hlive _) (hpanes _)), h.2⟩

theorem accOn_gives {s u : State} (hkeep : Issuing s u) {z d : Nat} {o : PaneOp} {ok : PaneOp → Bool}
    (hgrant : (s.me.panes.getD (z / 2) none).isSome = true) (hq : mainPane s (z / 2) < 4)
    (hok : ∀ S lat, ok { o with tile := z % 2, startCc := S, lat := lat } = true) : Gives s (accOn u z d o) (mainPane s (z / 2)) ok := by
  unfold accOn
  extract_lets p pn y S D v k t
  have ht : Gives s t (mainPane s (z / 2)) ok := queueOn_gives hkeep hgrant hq (hok _ _) (accPane_ops o z S D k)
  exact ht.modMe (fun _ => rfl) (fun _ => rfl)

/-! ## A fetch that resolves (09 R179; 11 R201) -/

/-- A number taken, traffic and flight entries are what a fetch leaves of its context. -/
theorem issuing_newId (s : State) : Issuing s s.newId.2 := ⟨rfl, rfl, rfl, rfl⟩

theorem issueFetch_goes {s s0 s2 : State} {q : TileReq} {d : RegionDesc} {desc segs : List (Loc × Nat)}
    {ops : Nat → TileReq → Option TrapRec → Option Nat → State → State}
    (hres : resolvePieces s.newId.2 s.who .engRd d.space (tilePieces d q) = .ok (segs, s2))
    (hno : segs.any (fun x => ownUnknown s2 s.who x.1 x.2) = false) :
    ∃ u rep, issueFetch s q d desc none s0 ops = .next (ops s.ids q none rep u) ∧ Issuing s u := by
  have hread : Issuing s s2 := (issuing_newId s).trans (.of_reads (resolvePieces_reads hres))
  have hsegs : Issuing s (fetchSegs s2 s.who segs).2.2.2 := hread.trans (.of_reads (reads_fetchSegs ..))
  unfold issueFetch
  dsimp only [State.newId] at hres ⊢
  rw [hres]
  dsimp only
  rw [hno, if_neg (by decide)]
  exact ⟨_, _, rfl, ((((hsegs.addLeases ..).addTraffic _).addFlight _).reads (reads_fetchFar ..)).after ..⟩

/-! ## The checks of an accumulating operation (06 R123; 09 R181) -/

theorem shapeOp_fits {s : State} {z : Nat} {zs : Bool} {rows width : Nat} {k : TileKind}
    (h : zs = true ∨ (((paneOf s s.who.core (mainPane s (z / 2))).tile (z % 2)).poison = false ∧
      ((paneOf s s.who.core (mainPane s (z / 2))).tile (z % 2)).iRows = rows ∧ ((paneOf s s.who.core (mainPane s (z / 2))).tile (z % 2)).iWidth = width ∧
      ((paneOf s s.who.core (mainPane s (z / 2))).tile (z % 2)).iKind = k)) (go : Res) : shapeOp s z zs rows width k go = go := by
  unfold shapeOp
  dsimp only
  obtain rfl | ⟨hpoison, hshape⟩ := h
  · exact if_pos rfl
  · rw [hpoison, if_neg (by decide : ¬ false = true), if_pos hshape, ite_self]

/-- The inner length of a product (09 R181). -/
def innerOf (s : State) (z : Nat) (qb rv : Bool) (f : BitVec 4) : Nat :=
  if rv then (gangShape (bankPlan s z qb f).2).2 else (gangShape (bankPlan s z qb f).2).1
/-- The width of a product (09 R181). -/
def widthOf (s : State) (z : Nat) (qb rv : Bool) (f : BitVec 4) : Nat :=
  if rv then (gangShape (bankPlan s z qb f).2).1 else (gangShape (bankPlan s z qb f).2).2

@[simp] theorem worded_innerOf (s : State) (w : SlotWord) (z : Nat) (qb rv : Bool) (f : BitVec 4) : innerOf (s.worded w) z qb rv f = innerOf s z qb rv f := rfl
@[simp] theorem worded_widthOf (s : State) (w : SlotWord) (z : Nat) (qb rv : Bool) (f : BitVec 4) : widthOf (s.worded w) z qb rv f = widthOf s z qb rv f := rfl
@[simp] theorem worded_rs (s : State) (w : SlotWord) (a : BitVec 5) : (s.worded w).rs a = s.rs a := rfl

theorem gangOp_fits {s : State} {z : Nat} {qb rv : Bool} {f : BitVec 4} (hgang : Fmt.gangOf f ≤ (bankPlan s z qb f).2)
    (hkind : fmtKind f = fmtKind (bankPlan s z qb f).1) (k : Nat → Nat → Res) :
    gangOp s z qb rv f k = k (innerOf s z qb rv f) (widthOf s z qb rv f) :=
  if_neg fun hbad => hbad.elim (Nat.not_lt.mpr hgang) fun hne => hne hkind

/-- The fetch of a slot is planned, resolves, and meets no bytes that its context has yet to write. -/
def FetchGoes (s : State) (who : Agent) (daddr coord : Word) (f : BitVec 4) (nr nc : Nat) (tr : Bool) : Prop :=
  ∃ q d seg s1, planFetch s daddr coord f nr nc tr = .go q d seg none s1 ∧
    ∃ segs s2, resolvePieces { s1 with ids := s1.ids + 1 } who .engRd d.space (tilePieces d q) = .ok (segs, s2) ∧
      segs.any (fun x => ownUnknown s2 who x.1 x.2) = false

/-- A fetch that goes on gives its operations to their panes. -/
theorem FetchGoes.issues {s : State} {daddr coord : Word} {f : BitVec 4} {nr nc : Nat} {tr : Bool} (h : FetchGoes s s.who daddr coord f nr nc tr) :
    ∃ q d seg s1, planFetch s daddr coord f nr nc tr = .go q d seg none s1 ∧
      ∀ (s0 : State) (ops : Nat → TileReq → Option TrapRec → Option Nat → State → State),
        ∃ u id rep, issueFetch s1 q d seg none s0 ops = .next (ops id q none rep u) ∧ Issuing s u := by
  obtain ⟨q, d, seg, s1, hplan, segs, s2, hres, hno⟩ := h
  have hread := planFetch_reads hplan
  rw [← hread.who] at hres hno
  refine ⟨q, d, seg, s1, hplan, fun s0 ops => ?_⟩
  obtain ⟨u, rep, hgo, hkeep⟩ := issueFetch_goes (s0 := s0) (desc := seg) (ops := ops) hres hno
  exact ⟨u, s1.ids, rep, hgo, (Issuing.of_reads hread).trans hkeep⟩

/-- A slot goes on with one operation more, which satisfies a test, at the end of the queue of a logical pane. -/
def Queued (s : State) (i : Instr) (p : Nat) (ok : PaneOp → Bool) : Prop :=
  ∃ t, exec i s = .next t ∧ t.verdict = s.verdict ∧ (t.ctx s.who).live = s.me.live ∧
    ((paneOf t s.who.core (mainPane s p)).ops.getLast?.map (fun o => o.who == s.who && ok o)) = some true

/-- An operation of the issuing context that satisfies a test. -/
def mineAnd (s : State) (ok : PaneOp → Bool) (o : PaneOp) : Bool := o.who == s.who && ok o

theorem mineAnd_of {s : State} {ok : PaneOp → Bool} {o : PaneOp} (hwho : o.who = s.who) (hok : ok o = true) : mineAnd s ok o = true := by
  rw [mineAnd, hwho, beq_self_eq_true, hok, Bool.true_and]

theorem queued_of_gives {s : State} {i : Instr} {p : Nat} {ok : PaneOp → Bool}
    (h : ∃ t, exec i s = .next t ∧ Gives s t (mainPane s p) (mineAnd s ok)) : Queued s i p ok := by
  obtain ⟨t, he, hkeep, hlast⟩ := h
  exact ⟨t, he, hkeep.verdict, hkeep.live, hlast⟩

/-! ## Products and rankings (09 R174, R181, R182) -/

section
variable {s : State} {h : Hdr} {z : BitVec 3} {a b : BitVec 5} {f : BitVec 4} {qb rv zs : Bool}
  (hgrant : (s.me.panes.getD (z.toNat / 2) none).isSome = true) (hq : mainPane s (z.toNat / 2) < 4)

/-- The shape of an accumulating operation fits its tile, or it starts from zero (09 R181). -/
def Fits (s : State) (z : Nat) (zs : Bool) (rows width : Nat) (k : TileKind) : Prop :=
  let t := (paneOf s s.who.core (mainPane s (z / 2))).tile (z % 2)
  zs = true ∨ (t.poison = false ∧ t.iRows = rows ∧ t.iWidth = width ∧ t.iKind = k)

include hgrant hq

theorem mxa_queues (hi : Issues (.mxa h z a b f qb rv zs) h s) (hgang : Fmt.gangOf f ≤ (bankPlan s z.toNat qb f).2)
    (hkind : fmtKind f = fmtKind (bankPlan s z.toNat qb f).1) (hword : wbits (s.rs b) 63 52 = 0)
    (hsize : (wbits (s.rs b) 48 40 + 1) * widthOf s z.toNat qb rv f ≤ 9216)
    (hfits : Fits s z.toNat zs (wbits (s.rs b) 48 40 + 1) (widthOf s z.toNat qb rv f) (fmtKind f))
    (hfetch : FetchGoes (s.noted (.mxa h z a b f qb rv zs)) s.who (s.rs a) (s.rs b) f (wbits (s.rs b) 48 40 + 1) (innerOf s z.toNat qb rv f) false) :
    Queued s (.mxa h z a b f qb rv zs) (z.toNat / 2) (fun o => o.fam == .mxa && o.tile == z.toNat % 2 && o.rows == wbits (s.rs b) 48 40 + 1 &&
      o.width == widthOf s z.toNat qb rv f && o.kin == innerOf s z.toNat qb rv f && o.req.isSome) := by
  refine queued_of_gives (show ∃ t, execMxa h z a b f qb rv zs s = .next t ∧ _ from ?_)
  unfold execMxa
  refine slotOp_goes (Q := fun v => FetchGoes v s.who (s.rs a) (s.rs b) f _ _ false) hi hfetch fun w hfetch => ?_
  obtain ⟨q, d, seg, s1, hplan, hgo⟩ := FetchGoes.issues (s := s.worded w) hfetch
  dsimp only
  rw [panesOp_one (s := s.worded w) hgrant, if_neg (fun hne => hne hword), gangOp_fits (s := s.worded w) hgang hkind]
  rw [show planFetch (s.worded w) ((s.worded w).rs a) ((s.worded w).rs b) f (wbits ((s.worded w).rs b) 48 40 + 1) (innerOf (s.worded w) z.toNat qb rv f)
    false = .go q d seg none s1 from hplan]
  dsimp only
  rw [if_neg (show ¬9216 < (wbits ((s.worded w).rs b) 48 40 + 1) * widthOf (s.worded w) z.toNat qb rv f from Nat.not_lt.mpr hsize),
    shapeOp_fits (s := s.worded w) (rows := wbits ((s.worded w).rs b) 48 40 + 1) (width := widthOf (s.worded w) z.toNat qb rv f) hfits]
  obtain ⟨u, id, rep, he, hkeep⟩ := hgo (s.worded w) _
  refine ⟨_, he, accOn_gives hkeep.of_worded hgrant hq fun S lat => mineAnd_of hkeep.who ?_⟩
  simp

theorem mxav_queues (hi : Issues (.mxav h z a f qb rv zs) h s) (hgang : Fmt.gangOf f ≤ (bankPlan s z.toNat qb f).2)
    (hkind : fmtKind f = fmtKind (bankPlan s z.toNat qb f).1) (hreg : ¬(128 < innerOf s z.toNat qb rv f ∧ a = 31))
    (hfits : Fits s z.toNat zs 1 (widthOf s z.toNat qb rv f) (fmtKind f)) :
    Queued s (.mxav h z a f qb rv zs) (z.toNat / 2) (fun o => o.fam == .mxa && o.tile == z.toNat % 2 && o.rows == 1 &&
      o.width == widthOf s z.toNat qb rv f && o.kin == innerOf s z.toNat qb rv f && o.req.isNone) := by
  refine queued_of_gives (show ∃ t, execMxav h z a f qb rv zs s = .next t ∧ _ from ?_)
  unfold execMxav
  refine slotOp_goes (Q := fun _ => True) hi trivial fun w _ => ?_
  dsimp only
  rw [panesOp_one (s := s.worded w) hgrant, gangOp_fits (s := s.worded w) hgang hkind,
    if_neg (show ¬(128 < innerOf (s.worded w) z.toNat qb rv f ∧ a = 31) from hreg),
    shapeOp_fits (s := s.worded w) (width := widthOf (s.worded w) z.toNat qb rv f) hfits]
  have hkeep : Issuing s (s.worded w).newId.2 := ⟨rfl, rfl, rfl, rfl⟩
  refine ⟨_, rfl, accOn_gives hkeep hgrant hq fun S lat => mineAnd_of rfl ?_⟩
  simp [opBase]

theorem mxrk_queues (hi : Issues (.mxrk h z a b f zs) h s) (hword : wbits (s.rs b) 63 60 = 0) (hwidth : wbits (s.rs b) 59 52 + 1 ≤ 192)
    (hsize : (wbits (s.rs b) 48 40 + 1) * (wbits (s.rs b) 59 52 + 1) ≤ 9216)
    (hfits : Fits s z.toNat zs (wbits (s.rs b) 48 40 + 1) (wbits (s.rs b) 59 52 + 1) .rank)
    (hfetch : FetchGoes (s.noted (.mxrk h z a b f zs)) s.who (s.rs a) (s.rs b) f (wbits (s.rs b) 48 40 + 1) (wbits (s.rs b) 59 52 + 1) false) :
    Queued s (.mxrk h z a b f zs) (z.toNat / 2) (fun o => o.fam == .mxrk && o.tile == z.toNat % 2 && o.rows == wbits (s.rs b) 48 40 + 1 &&
      o.width == wbits (s.rs b) 59 52 + 1) := by
  refine queued_of_gives (show ∃ t, execMxrk h z a b f zs s = .next t ∧ _ from ?_)
  unfold execMxrk
  refine slotOp_goes (Q := fun v => FetchGoes v s.who (s.rs a) (s.rs b) f _ _ false) hi hfetch fun w hfetch => ?_
  obtain ⟨q, d, seg, s1, hplan, hgo⟩ := FetchGoes.issues (s := s.worded w) hfetch
  dsimp only
  rw [panesOp_one (s := s.worded w) hgrant, if_neg (fun hbad => hbad.elim (fun hne => hne hword) (Nat.not_lt.mpr hwidth)),
    show planFetch (s.worded w) ((s.worded w).rs a) ((s.worded w).rs b) f (wbits ((s.worded w).rs b) 48 40 + 1) (wbits ((s.worded w).rs b) 59 52 + 1)
      false = .go q d seg none s1 from hplan]
  dsimp only
  rw [if_neg (show ¬9216 < (wbits ((s.worded w).rs b) 48 40 + 1) * (wbits ((s.worded w).rs b) 59 52 + 1) from Nat.not_lt.mpr hsize),
    shapeOp_fits (s := s.worded w) (rows := wbits ((s.worded w).rs b) 48 40 + 1) (width := wbits ((s.worded w).rs b) 59 52 + 1) hfits]
  obtain ⟨u, id, rep, he, hkeep⟩ := hgo (s.worded w) _
  refine ⟨_, he, accOn_gives hkeep.of_worded hgrant hq fun S lat => mineAnd_of hkeep.who ?_⟩
  simp

end

/-! ## Saves and restores (09 R185) -/

/-- A save has operations on every pane of its logical pane, of which the main one alone writes. -/
def saveAt (p : Nat) (o : PaneOp) (s : State) (q : Nat) : State :=
  queueOp s s.who.core q (if q = mainPane s p then o else { o with segs := [] })

theorem saveAt_gives {s u : State} (hkeep : Issuing s u) {p : Nat} {o : PaneOp} {ok : PaneOp → Bool}
    (hgrant : (s.me.panes.getD p none).isSome = true) (hq : mainPane s p < 4) (hok : ∀ l, ok { o with segs := l } = true)
    {f : Pane → Pane} (hf : ∀ p, (f p).ops = p.ops) :
    Gives s (modLogical ((physPanes u u.who p).foldl (saveAt p o) u) p f) (mainPane s p) ok := by
  have hqueue := hkeep.trans (issuing_foldl (f := saveAt p o) (fun s y => issuing_queueOp ..) (physPanes u u.who p) u)
  have hlast : LastOp ((physPanes u u.who p).foldl (saveAt p o) u) u.who.core (mainPane s p) ok := by
    refine lastOp_foldl (fun s y => issuing_queueOp ..) (fun s y h => lastOp_queueOp hq ?_ h) _ u (.inl (hkeep.mainPane_mem hgrant))
    split
    · exact hok o.segs
    · exact hok []
  exact Gives.modLogical ⟨hqueue, hkeep.who ▸ hlast⟩ hq p hf

/-- The tile that a slot names. -/
abbrev namedTile (s : State) (z : Nat) : Tile := (paneOf s s.who.core (mainPane s (z / 2))).tile (z % 2)

/-- The head of a tile image that lies at no fabric address is read at issue (09 R174, R185). -/
theorem fetchHead_near {s : State} {a : Agent} {ea : BitVec 64} {l : Loc} (h : l.fabric = false) : fetchHead s a ea l =
    if (fetchSegs s a [(l, 64)]).2.1 then .error { cause := 0x51, d1 := BitVec.ofNat 64 (Loc.addr s l), d2 := ea }
    else .ok ((fetchSegs s a [(l, 64)]).1, (fetchSegs s a [(l, 64)]).2.2.2) := if_neg (ne_true_of_eq_false h)

/-- The elements of the image that a header announces; none for a malformed one. -/
abbrev imageSize (hd : List Byte) : Nat := if tileImageBad hd then 0 else bits (field hd 0 8) 9 0 * bits (field hd 0 8) 17 10

section
variable {s : State} {h : Hdr} {z : BitVec 3} {a b : BitVec 5}
  (hgrant : (s.me.panes.getD (z.toNat / 2) none).isSome = true) (hq : mainPane s (z.toNat / 2) < 4)
  (hdone : (namedTile s z.toNat).done ≤ s.me.icyc.toNat)
  (hops : (paneOf s s.who.core (mainPane s (z.toNat / 2))).ops.all (fun o => o.fam == .mxld || o.tile != z.toNat % 2) = true)
  (hal : (s.rs a).toNat % 64 = 0)
include hgrant hq hdone hops hal

theorem mxsvSave_queues {segs : List (Loc × Nat)} {s' : State} (hi : Issues (.mxsvSave h z a b) h s) (hword : wbits (s.rs b) 63 2 = 0)
    (hpoison : (namedTile s z.toNat).poison = false)
    (hres : resolveRange (s.noted (.mxsvSave h z a b)) s.who .store (Space.ofCode ((s.rs b).extractLsb' 0 2))
      ((namedTile s z.toNat).rows * (namedTile s z.toNat).width / 16 + 3) (s.rs a)
      (64 + 8 * ((namedTile s z.toNat).rows * (namedTile s z.toNat).width)) = .ok (segs, s')) :
    Queued s (.mxsvSave h z a b) (z.toNat / 2) (fun o => o.fam == .save && o.tile == z.toNat % 2) := by
  refine queued_of_gives (show ∃ t, execMxsvSave h z a b s = .next t ∧ _ from ?_)
  unfold execMxsvSave
  refine slotOp_goes (Q := fun v => resolveRange v _ _ _ _ _ _ = .ok (segs, s')) hi hres fun w hres => ?_
  have hread := resolveRange_reads hres
  dsimp only
  rw [panesOp_one (s := s.worded w) hgrant, if_neg (fun hne => hne hword), tileOp_due (s := s.worded w) hdone hops,
    if_neg (show ¬(namedTile (s.worded w) z.toNat).poison = true from ne_true_of_eq_false hpoison),
    if_neg (fun hne => hne hal), show resolveRange (s.worded w) (s.worded w).who .store (Space.ofCode (((s.worded w).rs b).extractLsb' 0 2))
      ((namedTile (s.worded w) z.toNat).rows * (namedTile (s.worded w) z.toNat).width / 16 + 3) ((s.worded w).rs a)
      (64 + 8 * ((namedTile (s.worded w) z.toNat).rows * (namedTile (s.worded w) z.toNat).width)) = .ok (segs, s') from hres]
  have hkeep : Issuing s s'.newId.2 := ((Issuing.of_reads hread).of_worded).trans (issuing_newId s')
  exact ⟨_, rfl, saveAt_gives hkeep hgrant hq (fun _ => mineAnd_of hread.who (by simp)) fun p => setTile_ops ..⟩

theorem mxsvLd_queues {l : Loc} {s1 s2 : State} {segs : List (Loc × Nat)} (hi : Issues (.mxsvLd h z a b) h s) (hword : wbits (s.rs b) 63 7 = 0)
    (hbits : wbits (s.rs b) 3 2 = 0)
    (hres : resolve (s.noted (.mxsvLd h z a b)) s.who .engRd (Space.ofCode ((s.rs b).extractLsb' 0 2)) (s.rs a) 64 = .ok (l, s1))
    (hown : ownUnknown s1 s.who l 64 = false) (hnear : l.fabric = false)
    (hrange : resolveRange s1 s.who .engRd (Space.ofCode ((s.rs b).extractLsb' 0 2)) (imageSize (fetchSegs s1 s.who [(l, 64)]).1 / 16 + 3) (s.rs a)
      (64 + 8 * imageSize (fetchSegs s1 s.who [(l, 64)]).1) = .ok (segs, s2))
    (hknown : segs.any (fun x => ownUnknown s2 s.who x.1 x.2 || x.1.fabric) = false) :
    Queued s (.mxsvLd h z a b) (z.toNat / 2) (fun o => o.fam == .restore && o.tile == z.toNat % 2 && o.occ == 145) := by
  refine queued_of_gives (show ∃ t, execMxsvLd h z a b s = .next t ∧ _ from ?_)
  unfold execMxsvLd
  refine slotOp_goes (Q := fun v => resolve v _ _ _ _ _ = .ok (l, s1)) hi hres fun w hres => ?_
  have hread := resolve_reads hres
  have hkeep : Issuing s s1 := (Issuing.of_reads hread).of_worded
  dsimp only
  rw [panesOp_one (s := s.worded w) hgrant, if_neg (fun hbad => hbad.elim (fun hne => hne hword) (fun hne => hne hbits)),
    tileOp_due (s := s.worded w) hdone hops, if_neg (fun hne => hne hal),
    show resolve (s.worded w) (s.worded w).who .engRd (Space.ofCode (((s.worded w).rs b).extractLsb' 0 2)) ((s.worded w).rs a) 64 = .ok (l, s1) from hres]
  dsimp only
  rw [if_neg (show ¬ownUnknown s1 (s.worded w).who l 64 = true from ne_true_of_eq_false hown)]
  have hf (S : Nat) (t : Tile) (p : Pane) : ({ (p.setTile (z.toNat % 2) (issueTile (p.tile (z.toNat % 2)) true t.rows t.width t.kind (S + 149))) with
      f := Nat.max p.f (S + 145) } : Pane).ops = p.ops := setTile_ops ..
  cases hpoison : (fetchSegs s1 s.who [(l, 64)]).2.1 with
  | true =>
    rw [show fetchHead s1 (s.worded w).who ((s.worded w).rs a) l = .error _ from (fetchHead_near hnear).trans (if_pos hpoison)]
    dsimp only
    rw [if_neg (by decide)]
    have hnext := hkeep.trans (issuing_newId s1)
    refine ⟨_, rfl, ((queueOn_gives hnext hgrant hq ?_ (hf _ _)).modMe (fun _ => rfl) (fun _ => rfl))⟩
    exact mineAnd_of hnext.who (by simp)
  | false =>
    have hknown' : segs.any (fun x => ownUnknown s2 s.who x.1 x.2) = false := by
      rw [List.any_eq_false] at hknown ⊢
      exact fun x hx hbad => hknown x hx (by rw [hbad, Bool.true_or])
    rw [show fetchHead s1 (s.worded w).who ((s.worded w).rs a) l = .ok _ from
      (fetchHead_near hnear).trans (if_neg (ne_true_of_eq_false hpoison))]
    dsimp only
    rw [show resolveRange s1 (s.worded w).who .engRd (Space.ofCode (((s.worded w).rs b).extractLsb' 0 2))
      (imageSize (fetchSegs s1 (s.worded w).who [(l, 64)]).1 / 16 + 3) ((s.worded w).rs a)
      (64 + 8 * imageSize (fetchSegs s1 (s.worded w).who [(l, 64)]).1) = .ok (segs, s2) from hrange]
    dsimp only
    rw [if_neg (show ¬segs.any (fun x => ownUnknown s2 (s.worded w).who x.1 x.2) = true from ne_true_of_eq_false hknown')]
    have hnext : Issuing s (fetchSegs s2 s.who segs).2.2.2.newId.2 :=
      ((hkeep.reads (resolveRange_reads hrange)).reads (reads_fetchSegs ..)).trans (issuing_newId _)
    have hfar (e : Flight) (id : Nat) (eas : List Nat) := (hnext.addFlight e).reads (reads_fetchFar _ s.who id eas segs)
    refine ⟨_, rfl, ((queueOn_gives ((hfar _ _ _).after _ _) hgrant hq ?_ (hf _ _)).modMe (fun _ => rfl) (fun _ => rfl))⟩
    exact mineAnd_of (hfar _ _ _).who (by simp)

end

/-! ## MXLD (09 R178) -/

/-- A pane to which an MXLD that starts at `S` is given. -/
def mxldPane (o : PaneOp) (S : Nat) (pn : Pane) : Pane :=
  let pn := if o.bank = 0 then { pn with y0 := S + 24 } else { pn with y1 := S + 24 }
  pn.setBank o.bank { pn.bank o.bank with iset := true, iFmt := o.fmt, iGang := o.gang }

theorem mxldPane_ops (o : PaneOp) (S : Nat) (p : Pane) : (mxldPane o S p).ops = p.ops := by
  unfold mxldPane
  dsimp only
  rw [setBank_ops]
  split <;> rfl

theorem issuing_mxldOn (s : State) (p d : Nat) (o : PaneOp) : Issuing s (mxldOn s p d o) := (issuing_queueOn ..).trans (issuing_modLogical ..)

theorem lastOp_mxldOn {s : State} {p q d : Nat} {o : PaneOp} {ok : PaneOp → Bool} (hq : q < 4)
    (hok : ∀ S lat, ok { o with startCc := S, lat := lat } = true) (h : q ∈ physPanes s s.who p ∨ LastOp s s.who.core q ok) :
    LastOp (mxldOn s p d o) s.who.core q ok := by
  unfold mxldOn
  extract_lets pn S u
  exact (Gives.modLogical ⟨issuing_queueOn .., lastOp_queueOn hq (hok _ _) h⟩ hq p (mxldPane_ops o S)).2

/-- An MXLD queues on each logical pane that it names; panes that it names later keep it the last of its own. -/
theorem mxldOn_gives {s u : State} (hkeep : Issuing s u) {ps : List Nat} {p d : Nat} (hp : p ∈ ps) {mk : State → PaneOp} {ok : PaneOp → Bool}
    (hgrant : (s.me.panes.getD p none).isSome = true) (hq : mainPane s p < 4)
    (hok : ∀ v, v.who = s.who → ∀ S lat, ok { mk v with startCc := S, lat := lat } = true) :
    Gives s (ps.foldl (fun (v : State) y => mxldOn v y d (mk v)) u) (mainPane s p) ok := by
  have hstep (v : State) (y : Nat) (hv : Issuing s v) (h : mainPane s p ∈ physPanes v v.who y ∨ LastOp v s.who.core (mainPane s p) ok) :
      LastOp (mxldOn v y d (mk v)) s.who.core (mainPane s p) ok := by
    have hlast := lastOp_mxldOn (d := d) hq (hok v hv.who) (by rw [hv.who]; rw [hv.who] at h; exact h)
    rwa [hv.who] at hlast
  refine foldl_reaches (P := fun v => Gives s v (mainPane s p) ok) (Q := Issuing s) hp hkeep (fun v y hv => hv.trans (issuing_mxldOn ..))
    (fun v y hv => ⟨hv.1.trans (issuing_mxldOn ..), hstep v y hv.1 (.inr hv.2)⟩)
    (fun v hv => ⟨hv.trans (issuing_mxldOn ..), hstep v p hv (.inl (hv.mainPane_mem hgrant))⟩)

theorem mxld_queues {s : State} {h : Hdr} {a : BitVec 5} {f pnm : BitVec 4} {lc : BitVec 3} {gw : BitVec 2} {qb tr : Bool}
    (hi : Issues (.mxld h pnm a f lc gw qb tr) h s) (hword : wbits (s.rs (a + 1)) 63 40 = 0)
    (hpanes : ∀ p ∈ maskPanes pnm, (s.me.panes.getD p none).isSome = true ∧ mainPane s p < 4)
    (hfetch : FetchGoes (s.noted (.mxld h pnm a f lc gw qb tr)) s.who (s.rs a) (s.rs (a + 1)) f (gangShape (if gw = 0 then Fmt.gangOf f else gw.toNat + 1)).1
      (gangShape (if gw = 0 then Fmt.gangOf f else gw.toNat + 1)).2 tr) {p : Nat} (hp : p ∈ maskPanes pnm) :
    Queued s (.mxld h pnm a f lc gw qb tr) p
      (fun o => o.fam == .mxld && o.bank == qb.toNat && o.fmt == f && o.gang == if gw = 0 then Fmt.gangOf f else gw.toNat + 1) := by
  obtain ⟨hgrant, hq⟩ := hpanes p hp
  refine queued_of_gives (show ∃ t, execMxld h pnm a f lc gw qb tr s = .next t ∧ _ from ?_)
  unfold execMxld
  refine slotOp_goes (Q := fun v => FetchGoes v s.who (s.rs a) (s.rs (a + 1)) f _ _ tr) hi hfetch fun w hfetch => ?_
  obtain ⟨q, d, seg, s1, hplan, hgo⟩ := FetchGoes.issues (s := s.worded w) hfetch
  dsimp only
  rw [panesOp_granted (s := s.worded w) (fun p hp => (hpanes p hp).1), if_neg (fun hne => hne hword),
    show planFetch (s.worded w) ((s.worded w).rs a) ((s.worded w).rs (a + 1)) f _ _ tr = .go q d seg none s1 from hplan]
  dsimp only
  obtain ⟨u, id, rep, he, hkeep⟩ := hgo (s.worded w) _
  exact ⟨_, he, mxldOn_gives hkeep.of_worded hp hgrant hq fun v hv S lat => mineAnd_of hv (by simp)⟩

/-! ## MXSC (09 R183) -/

theorem noted_physPanes (s : State) (i : Instr) : physPanes (s.noted i) (s.noted i).who = physPanes s s.who := rfl

theorem mxsc_lands {s s' : State} {h : Hdr} {a : BitVec 5} {pnm : BitVec 4} {lc : BitVec 3} {sp : BitVec 2} {segs : List (Loc × Nat)}
    (hi : Issues (.mxsc h pnm a lc sp) h s) (hpanes : ∀ p ∈ maskPanes pnm, (s.me.panes.getD p none).isSome = true)
    (hres : resolveAccess (s.noted (.mxsc h pnm a lc sp)) .load (Space.ofCode sp) (s.rs a) 8 8 = .ok (segs, s'))
    (hno : segs.any (fun x => ownUnknown s' s.who x.1 x.2) = false) :
    Lands s (exec (.mxsc h pnm a lc sp) s) s' segs lc (.scale ((maskPanes pnm).flatMap (physPanes s s.who))) := by
  show Lands s (execMxsc h pnm a lc sp s) s' segs lc _
  have hgranted : ∀ p ∈ maskPanes pnm, ((s.noted (.mxsc h pnm a lc sp)).me.panes.getD p none).isSome = true := by
    rw [noted_me]
    exact hpanes
  unfold execMxsc
  rw [slotOp_issues hi, panesOp_granted hgranted, noted_rs, hres, noted_physPanes]
  exact issueLoad_lands (resolveAccess_translates _ _ _ _ _ _ _ _ hres) hno

/-- Settles O42: a slot whose checks pass queues its operation last, and what it reads first changes neither its context's panes nor its agent. -/
theorem paneOperationsQueue : Obligations.PaneOperationsQueue := by
  intro s h z a b f pnm lc gw sp qb rv zs tr queued zn pn plan fetches
  refine ⟨fun hgrant hq => ⟨fun hgang hkind => ⟨fun hi hword hsize hfits hfetch => ?_, fun hi hreg hfits => ?_⟩,
      fun hi hword hwidth hsize hfits hfetch => ?_,
      fun hdone hops hal => ⟨fun segs s' hi hword hpoison hres => ?_, fun l s1 segs s2 hi hword hbits hres hown hnear hrange hknown => ?_⟩⟩,
    fun hi hword hpanes hfetch p hp => ?_, fun segs s' hi hpanes hres hno => ?_⟩
  · exact mxa_queues hgrant hq hi hgang hkind hword hsize hfits hfetch
  · exact mxav_queues hgrant hq hi hgang hkind hreg hfits
  · exact mxrk_queues hgrant hq hi hword hwidth hsize hfits hfetch
  · exact mxsvSave_queues hgrant hq hdone hops hal hi hword hpoison hres
  · exact mxsvLd_queues hgrant hq hdone hops hal hi hword hbits hres hown hnear hrange hknown
  · exact mxld_queues hi hword hpanes hfetch hp
  · obtain ⟨t, e, he, hflight, -, -, hkind, -, hdist, hshape, -⟩ := mxsc_lands hi hpanes hres hno
    exact ⟨t, e, he, hflight, hkind, hshape, hdist⟩

end Sys2Proof.Machine
end

section
/-!
PROOF. Re-encodes (11 R214-R216): O52, whose claim of the bytes that are written a tile across two ranges of the physical map refutes.
-/

namespace Sys2Proof.Machine

/-- One row of 32 SX8 elements in one block of 32: its planes 2, 3 and 0 lie one behind another in pages 0, 1 and 2 (11 R199). -/
def straddlingRegion : RegionDesc :=
  { rows := 1, rowlen := 32, gov := some 0, ifmt := Fmt.sx8, ib32 := true, space := .m, tid := 0, seed := 0, bases := [8192, 0, 0, 4096] }

/-- The re-encode of that region to FP16, from its descriptor's bytes. -/
def straddlingReenc : Reenc :=
  { desc := [1, 0, 0, 0, 32, 0, 0, 0, 0, 0x80, 0x16, 0] ++ List.replicate 20 0 ++ [8192, 0, 0, 4096].flatMap (toBytes 8), fmt := Fmt.fp16 }

/-- Die 0 holds a translation to a base that no page has, so that the tile of plane 0 begins 32 bytes below the first fabric address (17 R303). The only byte that
is not zero is the shared exponent of a NaN block. -/
def straddling : State :=
  { reencs := [(0, straddlingReenc)], mem := [(2 ^ 51 - 8224, 0xFF)]
    dies := [(0, { tlb := [{ proc := 0, vf := 0, page := 0, size := 16, pa := 2 ^ 51 - 8224, pte := 0xC }] })] }

/-- The state in which the re-encode's end resolves its planes. -/
def straddlingEnd : State := endLeases (straddling.given (.reencodeEnd 0)) .reenc 0

/-- The encoding that the region's bytes have. -/
def straddlingSource : BitVec 4 × Bool := sourceEnc straddlingEnd straddlingReenc straddlingRegion

/-- The place of the SX8 elements and of the FP16 elements, of which the latter take 32 bytes more. -/
def straddlingPlane : Loc := { space := .m, key := 2 ^ 51 - 32 }

/-- The planes of the source as they resolve: all in host memory. -/
def straddlingReads : List (Loc × Nat) :=
  [(straddlingPlane, 32), ({ space := .m, key := 2 ^ 51 - 8224 }, 1), ({ space := .m, key := 2 ^ 51 - 4128 }, 2)]

/-- The elements in their new encoding. -/
def straddlingLanes : List (BitVec 32) :=
  (reencodeLanes straddlingReenc straddlingRegion straddlingSource.1 (regionLanes straddlingEnd (reencAgent straddlingEnd straddlingReads) straddlingRegion
    straddlingSource.1 straddlingSource.2 (encTiles straddlingRegion straddlingSource.1 straddlingSource.2) straddlingReads).1).1

/-- A byte of memory as a step leaves it. -/
def byteLeft (k : Nat) : Res → Option Byte
  | .next t => some (t.byteAt k)
  | _ => none

theorem straddling_parses : parseDesc straddlingReenc.desc = some straddlingRegion := by decide +kernel

theorem straddling_reads :
    asIdent straddlingEnd straddlingReenc.who straddlingReenc.id (fun s => resolveTiles s straddlingReenc.who .engRd straddlingRegion.space
      ((encTiles straddlingRegion straddlingSource.1 straddlingSource.2).map (·.2))) = .ok (straddlingReads, straddlingEnd) := by decide +kernel

theorem straddling_writes :
    asIdent straddlingEnd straddlingReenc.who straddlingReenc.id (fun s => resolveTiles s straddlingReenc.who .engWr straddlingRegion.space
      ((encTiles straddlingRegion straddlingReenc.fmt straddlingReenc.b32).map (·.2))) = .ok ([(straddlingPlane, 64)], straddlingEnd) := by decide +kernel

/-- An element of a NaN block becomes FP16's canonical NaN, 0x7E00 (11 R214). -/
theorem straddling_image : (planeImageBytes straddlingReenc.fmt straddlingReenc.b32 0 straddlingLanes).getD 33 0 = 0x7E := by decide +kernel

/-- The upper byte of element 16 leaves for its fabric address with a remote write: in this package's memory it stays as it was. -/
theorem straddling_keeps : byteLeft (2 ^ 51 + 1) (exec .reencodeEnd (straddling.given (.reencodeEnd 0))) = some 0 := by decide +kernel

/-- Refutes O52: where a new tile begins in host memory and goes on at fabric addresses, the bytes beyond the border leave as a remote write and do not stand in
memory when the step ends. The model lets only a tile that begins at a fabric address fail; the claim's other premises leave this state in, although no walk installs
its translation (22 R385). -/
theorem not_reencodeEventResults : ¬ Obligations.ReencodeEventResults := by
  rintro ⟨-, hwritten⟩
  obtain ⟨t, ht, hbytes⟩ := hwritten straddling 0 straddlingReenc straddlingRegion rfl straddling_parses rfl (fun _ => rfl) straddlingReads straddlingEnd
    [(straddlingPlane, 64)] straddlingEnd straddling_reads straddling_writes (by simp [straddlingPlane]) (List.pairwise_singleton ..)
  have hbyte : t.byteAt (2 ^ 51 + 1) = (planeImageBytes straddlingReenc.fmt straddlingReenc.b32 0 straddlingLanes).getD 33 0 :=
    hbytes ((0, 8192, 64), straddlingPlane, 64) (by decide +kernel) 33 (by decide)
  have hleft := straddling_keeps
  rw [ht, byteLeft, hbyte, straddling_image] at hleft
  exact absurd hleft (by decide)

end Sys2Proof.Machine
end

section
/-!
PROOF. Traps and stops at a boundary, released effects and landings (12 R218; 04 R98; 06 R120): O49, whose claim of what a ring semaphore's addition leaves in
its queue two entries of one number refute.
-/

namespace Sys2Proof.Machine

/-- A released effect of command processor 0. -/
def releasedOf (id : Nat) (e : Effect) : Released :=
  { id := id, who := .cp 0, w := { pos := 0, word := 0, bund := 0, eff := e } }

/-- The release queue of command processor 0 holds a ring semaphore's addition, a giving up of banks and a drain, of which the last two have one number. -/
def twinReleases : State :=
  { relqs := [((Agent.cp 0).relKey, [releasedOf 0 (.rsem 0 0 true 1), releasedOf 1 (.bankRel 0 0), releasedOf 1 .drain])] }

/-- The effects that a step leaves in a release queue. -/
def releasesLeft (k : Nat) : Res → Option (List Released)
  | .next t => some (t.relqs.get [] k)
  | _ => none

theorem twinReleases_next : nextEffect (twinReleases.given (.releasedEffectPerform (.cp 0))) [] (twinReleases.relqs.get [] (Agent.cp 0).relKey) =
    some (releasedOf 0 (.rsem 0 0 true 1)) := by decide +kernel

/-- The addition performs, and the banks that are then given up take every entry of their number with them. -/
theorem twinReleases_left :
    releasesLeft (Agent.cp 0).relKey (exec .releasedEffectPerform (twinReleases.given (.releasedEffectPerform (.cp 0)))) = some [] := by decide +kernel

/-- Refutes O49: the claim has every other entry that gives up no banks stay in the queue when a ring semaphore's addition performs; the model then settles the
givings up of banks and removes entries by their number, which the claim does not take to be distinct. -/
theorem not_boundaryEventResults : ¬ Obligations.BoundaryEventResults := by
  rintro ⟨-, harrivals⟩
  obtain ⟨-, hperforms, -⟩ := harrivals twinReleases (.cp 0) 0 (by decide)
  obtain ⟨-, hadds, -⟩ := hperforms _ twinReleases_next
  obtain ⟨t, ht, -, hstays, -⟩ := hadds 0 0 1 rfl
  have hdrain : releasedOf 1 .drain ∈ t.relqs.get [] (Agent.cp 0).relKey := hstays _ (by decide +kernel) (by decide) rfl
  have hleft := twinReleases_left
  rw [ht, releasesLeft, Option.some.injEq] at hleft
  rw [hleft] at hdrain
  exact absurd hdrain List.not_mem_nil

end Sys2Proof.Machine
end

section
/-!
PROOF. Claims, tokens and remote accesses (12 R242; 13 R245; 19 R347): O56, whose claim of the remote requests that a refusal leaves a refusal queue with its
storage at a fabric address refutes.
-/

namespace Sys2Proof.Machine

/-- Queue 0 of process 0 is resident and empty, and its storage lies at the first fabric address. -/
def farStorage : State :=
  { queues := [(0, { present := true, home := some 0 })], dies := [(0, { tlb := [{ proc := 0, vf := 0, page := 0, size := 16, pa := 2 ^ 51, pte := 0xC }] })] }

/-- A header of package 0 and die 0, whose tag nothing awaits. -/
def strayTag : MsgHdr := { pkg := 0, die := 0, dest := 0, tag := 1 }

/-- The remote requests that a step leaves, counted. -/
def remotesLeft : Res → Option Nat
  | .next t => some t.remotes.length
  | _ => none

/-- The refusal's element leaves for the queue's storage as a remote write (18 R316; 19 R346). -/
theorem farStorage_asks :
    remotesLeft (exec .routeRefusal (farStorage.given (.routeRefusal strayTag (.cp 0) 0 0 1 0))) = some 1 := by decide +kernel

/-- Refutes O56: the claim has a refusal take its own request out of the remote requests and add none; the model writes the element to the storage of the refusal
queue, and where that lies at a fabric address the write is a new remote request. -/
theorem not_routingEventResults : ¬ Obligations.RoutingEventResults := by
  rintro ⟨hrouting, -⟩
  obtain ⟨-, -, hrefusals⟩ := hrouting farStorage { who := .cp 0, obj := 0, tid := 0, cnt := 0, ref := 0 }
    { who := .cp 0, pkg := 0, die := 0, dest := 0, obj := 0, tid := 0, rq := 0, tag := 0, vf := 0, far := false, payload := 0 }
  obtain ⟨t, n, ht, -, -, hremotes, -⟩ := hrefusals strayTag (.cp 0) 0 0 1 0 (by decide) (by decide)
  have hasks := farStorage_asks
  rw [ht, remotesLeft, hremotes] at hasks
  exact absurd hasks (by decide)

end Sys2Proof.Machine
end

section
/-!
PROOF. Wells (12 R229-R232): O36. What a change of a block's bindings leaves, and then the seven slots.
-/

namespace Sys2Proof.Machine

open State

/-! ## The issuing agent's record -/

theorem ctx_modStage (s : State) (f : Ctl → Ctl) : (s.modStage f).ctx s.who = { s.me with stage := f s.me.stage } := ctx_modCtx ..

theorem ctx_addHeld (s : State) (e : Effect) (r : List Word) :
    (s.addHeld e r).ctx s.who =
      { s.me with held := s.me.held ++ [{ pos := s.pos, word := s.word, bund := s.bpc.setWidth 57, regs := r, eff := e }] } := ctx_modCtx ..

theorem room_modStage {s : State} (h : s.room) (f : Ctl → Ctl) : (s.modStage f).room := by
  rw [State.room, State.me, State.modStage, modMe_who, ← State.modStage, ctx_modStage]
  exact h

/-- The test of an unbound handle or head fails at a bound one. -/
theorem bang_false {b : Bool} (h : b = true) : ¬(!b) = true := by rw [h]; decide

/-! ## The bindings of a block (12 R229) -/

/-- A block records the bindings that it is given. -/
theorem well_setWell (s : State) (key : Nat) (w : WellBind) : (s.setWell key w).well key = w := by
  unfold setWell
  split
  next hsame => exact hsame.symm
  next => exact SMap.get_put_same ..

theorem agents_setWell (s : State) (key : Nat) (w : WellBind) : (s.setWell key w).agents = s.agents := by
  unfold setWell
  split <;> rfl

theorem who_setWell (s : State) (key : Nat) (w : WellBind) : (s.setWell key w).who = s.who := by
  unfold setWell
  split <;> rfl

theorem me_setWell (s : State) (key : Nat) (w : WellBind) : (s.setWell key w).me = s.me := by
  rw [State.me, who_setWell, ctx_of_agents (agents_setWell ..), State.me]

/-- A change of bindings writes no byte but those of BIND, 0x20 to 0x3F of the block (log 4). -/
theorem byteAt_setWell {key k : Nat} (s : State) (w : WellBind) (hk : ¬(key + 0x20 ≤ k ∧ k < key + 0x40)) : (s.setWell key w).byteAt k = s.byteAt k := by
  unfold setWell
  split
  next => rfl
  next =>
    refine readMem_writeRange_out _ _ _ _ ?_
    have hlen : (if w = {} then List.replicate 32 0 else (List.range 32).map (fun i => Config.freeByte (s.fresh + i))).length = 32 := by
      split <;> simp
    omega

/-- Who holds a role of a block. -/
def roleOf (w : WellBind) (prod : Bool) : Option Binder := if prod then w.prod else w.cons
/-- The bindings of a block with a role given to a binder. -/
def withRole (w : WellBind) (prod : Bool) (b : Binder) : WellBind := if prod then { w with prod := some b } else { w with cons := some b }

theorem roleOf_withRole (w : WellBind) (prod : Bool) (b : Binder) : roleOf (withRole w prod b) prod = some b := by
  cases prod <;> rfl

/-! ## WBIND (12 R231) -/

/-- The handle that a bind of the block at `ea` makes: its own pointer is the block's, past this context's advances that have not performed (log 32). -/
def boundHandle (s : State) (prod vault : Bool) (ea : Word) (key : Nat) : WHandle :=
  { bound := true, prod := prod, vault := vault, blk := ea
    own := (if prod then wellP s key else wellC s key) + BitVec.ofNat 32 (advancesPending s s.who key prod) }

/-- What a bind of handle `k` to the block at `key` leaves. -/
def bindHandle (s : State) (k : BitVec 4) (prod : Bool) (key : Nat) (x : WHandle) : State :=
  (s.setWell key (withRole (s.well key) prod (.handle s.who k.toNat))).modStage (fun c => { c with w := c.w.set k.toNat x k.isLt })

/-- An unbound handle has no binding to end. -/
theorem dropHandle_unbound {s : State} {k : BitVec 4} (h : (handle s k).bound = false) : dropHandle s k = s := by
  unfold dropHandle
  exact if_neg (ne_true_of_eq_false h)

theorem bindOp_binds {s s' : State} {k : BitVec 4} {prod : Bool} {sp : BitVec 2} {ea : Word} {l : Loc} (hal : ea.toNat % 64 = 0)
    (hres : resolve s s.who .atomic (Space.ofCode sp) ea 64 = .ok (l, s')) (hpoison : s'.poisoned l.key 64 = false) (hwell : wellBad s' l.key = none)
    (hrole : roleOf (s'.well l.key) prod = none) (hfree : (handle s' k).bound = false) :
    bindOp s k prod sp ea = .next (bindHandle s' k prod l.key (boundHandle s' prod (sp == 3) ea l.key)) := by
  have hnone : (if prod then (s'.well l.key).prod else (s'.well l.key).cons) = none := hrole
  unfold bindOp
  simp only [hal, hres, hpoison, hwell, hnone, dropHandle_unbound hfree, ne_eq, not_true_eq_false, if_false, Bool.false_eq_true, Option.isSome_none, false_and]
  rfl

theorem bindHandle_binds (s : State) (k : BitVec 4) (prod : Bool) (key : Nat) (x : WHandle) :
    roleOf ((bindHandle s k prod key x).well key) prod = some (.handle s.who k.toNat) ∧
      ((bindHandle s k prod key x).ctx s.who).stage.w.get k.toFin = x ∧ ((bindHandle s k prod key x).ctx s.who).live = s.me.live ∧
      (∀ j, ¬(key + 0x20 ≤ j ∧ j < key + 0x40) → (bindHandle s k prod key x).byteAt j = s.byteAt j) := by
  have hctx := ctx_modStage (s.setWell key (withRole (s.well key) prod (.handle s.who k.toNat))) (fun c => { c with w := c.w.set k.toNat x k.isLt })
  rw [who_setWell, me_setWell] at hctx
  refine ⟨?_, ?_, ?_, fun j hj => byteAt_setWell s _ hj⟩
  · exact (congrArg (roleOf · prod) (well_setWell s key _)).trans (roleOf_withRole ..)
  · rw [bindHandle, hctx]
    exact Vector.getElem_set_self ..
  · rw [bindHandle, hctx]

/-- What O36 says of a bind of handle `w` to the block at `key`. -/
structure Binds (s : State) (w : BitVec 4) (prod vault : Bool) (ea : Word) (key : Nat) (t : State) : Prop where
  role : roleOf (t.well key) prod = some (.handle s.who w.toNat)
  handle : (t.ctx s.who).stage.w.get w.toFin = boundHandle s prod vault ea key
  live : (t.ctx s.who).live = s.me.live
  bytes : ∀ k, ¬(key + 0x20 ≤ k ∧ k < key + 0x40) → t.byteAt k = s.byteAt k

/-- A bind looks at the block and its bindings in a state that the translation of its address leaves alike. -/
theorem bindOp_leaves {s s' : State} {w : BitVec 4} {prod : Bool} {sp : BitVec 2} {ea : Word} {l : Loc} (hal : ea.toNat % 64 = 0)
    (hfree : (handle s w).bound = false) (hpoison : s.poisoned l.key 64 = false) (hwell : wellBad s l.key = none) (hrole : roleOf (s.well l.key) prod = none)
    (hres : resolve s s.who .atomic (Space.ofCode sp) ea 64 = .ok (l, s')) : ∃ t, bindOp s w prod sp ea = .next t ∧ Binds s w prod (sp == 3) ea l.key t := by
  have hu : s'.unsampled = s.unsampled := resolve_translates _ _ _ _ _ _ _ _ hres
  have hwell' : wellBad s' l.key = none := (congrArg (fun u : State => wellBad u l.key) hu).trans hwell
  have hpoison' : s'.poisoned l.key 64 = false := (congrArg (fun u : State => u.poisoned l.key 64) hu).trans hpoison
  have hrole' : roleOf (s'.well l.key) prod = none := (congrArg (fun u : State => roleOf (u.well l.key) prod) hu).trans hrole
  have hfree' : (handle s' w).bound = false := (congrArg (fun u : State => (handle u w).bound) hu).trans hfree
  have hown : boundHandle s' prod (sp == 3) ea l.key = boundHandle s prod (sp == 3) ea l.key := by
    have hsame := congrArg (fun u : State => boundHandle u prod (sp == 3) ea l.key) hu
    exact hsame
  obtain ⟨hheld, hstage, hlive, hbytes⟩ := bindHandle_binds s' w prod l.key (boundHandle s' prod (sp == 3) ea l.key)
  rw [who_of_unsampled hu] at hheld hstage hlive
  refine ⟨_, bindOp_binds hal hres hpoison' hwell' hrole' hfree', hheld, hstage.trans hown, hlive.trans (congrArg Ctx.live (me_of_unsampled hu)),
    fun k hk => (hbytes k hk).trans ?_⟩
  rw [State.byteAt, mem_of_unsampled hu, State.byteAt]

theorem wellBinding : Claims.WellBinding := by
  intro s h w a sp prod i hi hal hfree l s' hres hpoison hwell hrole
  have hgoes : ∀ (j : Instr), Issues j h s → resolve (s.noted j) s.who .atomic (Space.ofCode sp) (s.rs a) 64 = .ok (l, s') →
      ∃ t, slotOp j h s (fun s => bindOp s w prod sp (s.rs a)) = .next t ∧ Binds s w prod (sp == 3) (s.rs a) l.key t := fun j hj hresolves =>
    slotOp_goes (Q := fun u => resolve u s.who .atomic (Space.ofCode sp) (s.rs a) 64 = .ok (l, s')) hj hresolves fun v hv => by
      obtain ⟨t, ht, hrecords, hhandle, hlive, hbytes⟩ := bindOp_leaves (s := s.worded v) hal hfree hpoison hwell hrole hv
      exact ⟨t, ht, hrecords, hhandle, hlive, hbytes⟩
  cases prod with
  | true =>
    obtain ⟨t, ht, hrecords, hhandle, hlive, hbytes⟩ := hgoes _ hi hres
    exact ⟨t, ht, hrecords, hhandle, hlive, hbytes⟩
  | false =>
    obtain ⟨t, ht, hrecords, hhandle, hlive, hbytes⟩ := hgoes _ hi hres
    exact ⟨t, ht, hrecords, hhandle, hlive, hbytes⟩

/-! ## WOP, WADV, WUNBIND, WSTAT and WADDR (12 R231, R232) -/

/-- A wait for a count that the handle has goes on. -/
theorem wellWait_goes {s : State} {k : BitVec 4} {cnt : BitVec 6} (hb : (handle s k).bound = true) (hc : cnt.toNat ≤ (wellCount s (handle s k)).toNat)
    (lim : BitVec 10) (go : WHandle → Res) : wellWait s k cnt lim go = go (handle s k) := by
  unfold wellWait
  simp only [hb, Bool.not_true, Bool.false_eq_true, if_false, if_neg (Nat.not_lt.mpr hc)]

/-- What WADV withholds for a handle (12 R220). -/
def advanceOf (x : WHandle) (key cnt : Nat) : Effect := if x.prod then .wadv key cnt else .wcons key cnt

/-- A handle for the next bundle, and an effect that is withheld. -/
def moveHandle (s : State) (w : BitVec 4) (x : WHandle) (e : Effect) : State :=
  (s.modStage (fun c => { c with w := c.w.set w.toNat x w.isLt })).addHeld e []

theorem ctx_moveHandle (s : State) (w : BitVec 4) (x : WHandle) (e : Effect) :
    (moveHandle s w x e).ctx s.who = { s.me with
      stage := { s.me.stage with w := s.me.stage.w.set w.toNat x w.isLt }
      held := s.me.held ++ [{ pos := s.pos, word := s.word, bund := s.bpc.setWidth 57, regs := [], eff := e }] } := by
  have hme : (s.modStage (fun c => { c with w := c.w.set w.toNat x w.isLt })).me = _ := ctx_modStage ..
  have h := ctx_addHeld (s.modStage (fun c => { c with w := c.w.set w.toNat x w.isLt })) e []
  rw [hme] at h
  exact h

section
variable {s : State} {h : Hdr} {w : BitVec 4} {cnt : BitVec 6} {lim : BitVec 10}

theorem exec_wop (hi : Issues (.wop h w cnt lim) h s) (hb : (handle s w).bound = true) (hc : cnt.toNat ≤ (wellCount s (handle s w)).toNat) :
    exec (.wop h w cnt lim) s = .next (s.noted (.wop h w cnt lim)) := by
  show execWop h w cnt lim s = _
  unfold execWop
  exact slotOp_acts (f := id) (fun v => wellWait_goes (s := s.worded v) hb hc lim _) hi

theorem exec_wadv (hi : Issues (.wadv h w cnt lim) h s) (hb : (handle s w).bound = true) (hc : cnt.toNat ≤ (wellCount s (handle s w)).toNat)
    (hroom : s.room) (h0 : cnt ≠ 0) :
    exec (.wadv h w cnt lim) s = .next (moveHandle (s.noted (.wadv h w cnt lim)) w { handle s w with own := (handle s w).own + cnt.setWidth 32 }
      (advanceOf (handle s w) (s.wellKey s.who (handle s w)) cnt.toNat)) := by
  show execWadv h w cnt lim s = _
  unfold execWadv
  refine slotOp_acts (f := fun u => moveHandle u w { handle s w with own := (handle s w).own + cnt.setWidth 32 }
    (advanceOf (handle s w) (s.wellKey s.who (handle s w)) cnt.toNat)) (fun v => ?_) hi
  exact (wellWait_goes (s := s.worded v) hb hc lim _).trans ((if_neg h0).trans (withhold_room (room_modStage (s := s.worded v) hroom _) _ _))

theorem exec_wadv_zero (hi : Issues (.wadv h w cnt lim) h s) (hb : (handle s w).bound = true) (hc : cnt.toNat ≤ (wellCount s (handle s w)).toNat)
    (h0 : cnt = 0) : exec (.wadv h w cnt lim) s = .next (s.noted (.wadv h w cnt lim)) := by
  show execWadv h w cnt lim s = _
  unfold execWadv
  exact slotOp_acts (f := id) (fun v => (wellWait_goes (s := s.worded v) hb hc lim _).trans (if_pos h0)) hi

theorem exec_wunbind (hi : Issues (.wunbind h w) h s) (hb : (handle s w).bound = true) (hroom : s.room) :
    exec (.wunbind h w) s = .next (s.withholds (.wunbind h w) (.wunbind (s.wellKey s.who (handle s w)) (handle s w).prod) []) := by
  show execWunbind h w s = _
  unfold execWunbind
  refine slotOp_acts (f := fun u => u.addHeld (.wunbind (s.wellKey s.who (handle s w)) (handle s w).prod) []) (fun v => ?_) hi
  exact (if_neg (bang_false hb)).trans (withhold_room (s := s.worded v) hroom _ _)

theorem exec_wstat {d : BitVec 5} (hi : Issues (.wstat h d w) h s) (hb : (handle s w).bound = true) :
    exec (.wstat h d w) s = .next (s.leaves (.wstat h d w) 2
      [s.wS d (BitVec.ofNat 64 ((handle s w).own.toNat + (wellCount s (handle s w)).toNat * 2 ^ 32))]) := by
  show execWstat h d w s = _
  unfold execWstat
  exact slotOp_leaves (fun v => if_neg (bang_false hb)) hi

theorem exec_waddr {d : BitVec 5} (hi : Issues (.waddr h d w) h s) (hb : (handle s w).bound = true) :
    exec (.waddr h d w) s = .next (s.leaves (.waddr h d w) 2
      [s.wS d (BitVec.ofNat 64 (wellBase s (s.wellKey s.who (handle s w)) + (handle s w).own.toNat % wellSlots s (s.wellKey s.who (handle s w)) *
        wellSlotB s (s.wellKey s.who (handle s w))))]) := by
  show execWaddr h d w s = _
  unfold execWaddr
  exact slotOp_leaves (fun v => if_neg (bang_false hb)) hi

end

/-- What O36 says of a move of a handle that is withheld. -/
theorem moveHandle_leaves (s : State) (w : BitVec 4) (x : WHandle) (e : Effect) :
    ((moveHandle s w x e).ctx s.who).stage.w.get w.toFin = x ∧ ((moveHandle s w x e).ctx s.who).live = s.me.live ∧
      ((moveHandle s w x e).ctx s.who).held.getLast?.map (·.eff) = some e ∧ (moveHandle s w x e).mem = s.mem := by
  rw [ctx_moveHandle]
  exact ⟨Vector.getElem_set_self .., rfl, by rw [List.getLast?_concat]; rfl, rfl⟩

theorem wellSlotResults : Claims.WellResults := by
  intro s h w cnt lim d x key hb hroom
  refine ⟨fun hc => ⟨fun hi => exec_wop hi hb hc, fun hi h0 => ⟨_, exec_wadv hi hb hc hroom h0, ?_⟩, fun hi h0 => exec_wadv_zero hi hb hc h0⟩,
    fun hi => exec_wunbind hi hb hroom, fun hi => exec_wstat hi hb, fun hi => exec_waddr hi hb⟩
  have hleaves := moveHandle_leaves (s.noted (.wadv h w cnt lim)) w { x with own := x.own + cnt.setWidth 32 } (advanceOf x key cnt.toNat)
  rw [noted_who, noted_me, noted_mem] at hleaves
  exact hleaves

/-- Settles O36: each slot by its own case; a bind writes only the bytes of BIND. -/
theorem wellResults : Obligations.WellResults := ⟨wellSlotResults, wellBinding⟩

end Sys2Proof.Machine
end

section
/-!
PROOF. Queue slots (12 R226, R227): O35.
-/

namespace Sys2Proof.Machine

open State

/-- The field above a word's value is zero. -/
theorem wbits_above {x : Word} {lo : Nat} (hi : Nat) (h : x.toNat < 2 ^ lo) : wbits x hi lo = 0 := by
  rw [wbits, bits, Nat.div_eq_of_lt h, Nat.zero_mod]

/-- A slot that issues acts on a state that differs from `s` in its own word alone, whatever that is (`slotOp_acts`, `State.worded`). -/
theorem slotOp_worded {i : Instr} {h : Hdr} {s : State} {k : State → Res} {f : State → State} (hk : ∀ w, k (s.worded w) = .next (f (s.worded w)))
    (hi : Issues i h s) : slotOp i h s k = .next (f (s.noted i)) := slotOp_acts hk hi

/-! ## Pushes (12 R226) -/

/-- A slot goes on at a queue that is resident. -/
theorem touchQueue_goes {s : State} {key : Nat} (hp : (s.queue key).present = true) (hh : (s.queue key).home.isSome = true) (k : Nat) (go : Res) :
    touchQueue s key k go = go := by
  have hnone : ¬(s.queue key).home.isNone = true := by rw [Option.isNone_iff_eq_none]; exact Option.isSome_iff_ne_none.mp hh
  exact (if_neg (bang_false hp)).trans (if_neg hnone)

/-- What a push leaves: a reserved element, and itself withheld. -/
def pushed (s : State) (key : Nat) (x : Word) (eos : Bool) (rd : List Word) : State :=
  (s.modQueue key (fun u => { u with resv := u.resv + 1 })).addHeld (.qpush key x eos) rd

theorem pushOp_pushes {s : State} {b : Word} (hroom : s.room) (hb : b.toNat < 4096) (hp : (s.queue (s.queueKey s.who (wbits b 11 0))).present = true)
    (hh : (s.queue (s.queueKey s.who (wbits b 11 0))).home.isSome = true) (hspace : 0 < (s.queue (s.queueKey s.who (wbits b 11 0))).space)
    (k : Nat) (x : Word) (eos : Bool) (rd : List Word) :
    pushOp s b k x eos rd = .next (pushed s (s.queueKey s.who (wbits b 11 0)) x eos rd) := by
  unfold pushOp pushChecks
  rw [if_neg (not_not_intro (wbits_above (lo := 12) 63 hb))]
  refine (if_neg (bang_false hp)).trans ((touchQueue_goes hp hh k _).trans ((if_neg (Nat.ne_of_gt hspace)).trans ?_))
  exact withhold_room (s := s.modQueue _ _) hroom _ _

section
variable {s : State} {h : Hdr} {a b d : BitVec 5} {k : BitVec 2} {eos : Bool} {e : BitVec 64 × Bool}

theorem exec_qpush (hi : Issues (.qpush h a b eos) h s) (hroom : s.room) (hb : (s.rs b).toNat < 4096)
    (hp : (s.queue (s.queueKey s.who (wbits (s.rs b) 11 0))).present = true)
    (hh : (s.queue (s.queueKey s.who (wbits (s.rs b) 11 0))).home.isSome = true)
    (hspace : 0 < (s.queue (s.queueKey s.who (wbits (s.rs b) 11 0))).space) :
    exec (.qpush h a b eos) s = .next (pushed (s.noted (.qpush h a b eos)) (s.queueKey s.who (wbits (s.rs b) 11 0)) (s.rs a) eos [s.rs a, s.rs b]) := by
  show execQpush h a b eos s = _
  unfold execQpush
  exact slotOp_acts (f := fun u => pushed u (s.queueKey s.who (wbits (s.rs b) 11 0)) (s.rs a) eos [s.rs a, s.rs b])
    (fun v => pushOp_pushes (s := s.worded v) hroom hb hp hh hspace _ _ _ _) hi

theorem exec_qpushFwd (hi : Issues (.qpushFwd h k b) h s) (hbound : (s.head k).bound = true) (he : s.latched s.who (s.head k) = some e)
    (hroom : s.room) (hb : (s.rs b).toNat < 4096) (hp : (s.queue (s.queueKey s.who (wbits (s.rs b) 11 0))).present = true)
    (hh : (s.queue (s.queueKey s.who (wbits (s.rs b) 11 0))).home.isSome = true)
    (hspace : 0 < (s.queue (s.queueKey s.who (wbits (s.rs b) 11 0))).space) :
    exec (.qpushFwd h k b) s = .next (pushed (s.noted (.qpushFwd h k b)) (s.queueKey s.who (wbits (s.rs b) 11 0)) e.1 e.2 [e.1, s.rs b]) := by
  show execQpushFwd h k b s = _
  unfold execQpushFwd
  refine slotOp_worded (f := fun u => pushed u (s.queueKey s.who (wbits (s.rs b) 11 0)) e.1 e.2 [e.1, s.rs b]) (fun v => (if_neg (bang_false hbound)).trans ?_) hi
  rw [show (s.worded v).latched (s.worded v).who ((s.worded v).head k) = some e from he]
  exact pushOp_pushes (s := s.worded v) hroom hb hp hh hspace _ _ _ _

/-! ## Bindings (12 R227) -/

/-- An unbound head has no binding to end. -/
theorem dropHead_unbound (hfree : (s.head k).bound = false) : dropHead s k = s := by
  unfold dropHead
  exact if_neg (ne_true_of_eq_false hfree)

/-- The head that a bind to queue `n` makes: it begins past this context's pops that have not performed (log 32). -/
def boundHead (s : State) (n : Nat) : QHead :=
  { bound := true, queue := BitVec.ofNat 12 n
    pos := (s.queue (s.queueKey s.who n)).popped + BitVec.ofNat 32 (popsPending s s.who (s.queueKey s.who n)) }

/-- What a bind of head `k` to queue `n` leaves. -/
def bindHead (s : State) (k : BitVec 2) (n : Nat) : State :=
  (s.modQueue (s.queueKey s.who n) (fun q => { q with head := some (s.who, k.toNat) })).modStage
    (fun c => { c with qh := c.qh.set k.toNat (boundHead s n) k.isLt })

/-- What O35 says of a bind of head `k` to queue `n`. -/
structure BindsHead (s : State) (k : BitVec 2) (n : Nat) (t : State) : Prop where
  queue : (t.queue (s.queueKey s.who n)).head = some (s.who, k.toNat)
  head : (t.ctx s.who).stage.qh.get k.toFin = boundHead s n
  live : (t.ctx s.who).live = s.me.live
  mem : t.mem = s.mem

theorem bindHead_binds (s : State) (k : BitVec 2) (n : Nat) : BindsHead s k n (bindHead s k n) := by
  have hctx : (bindHead s k n).ctx s.who = { s.me with stage := { s.me.stage with qh := s.me.stage.qh.set k.toNat (boundHead s n) k.isLt } } :=
    ctx_modStage (s.modQueue (s.queueKey s.who n) (fun q => { q with head := some (s.who, k.toNat) })) _
  have hqueue : (bindHead s k n).queue (s.queueKey s.who n) = { s.queue (s.queueKey s.who n) with head := some (s.who, k.toNat) } :=
    queue_modQueue s (s.queueKey s.who n) (fun q => { q with head := some (s.who, k.toNat) })
  constructor
  · rw [hqueue]
  · rw [hctx]
    exact Vector.getElem_set_self ..
  · rw [hctx]
  · rfl

theorem qbind_binds (hi : Issues (.qbind h k a) h s) (hp : (s.queue (s.queueKey s.who (wbits (s.rs a) 11 0))).present = true)
    (hh : (s.queue (s.queueKey s.who (wbits (s.rs a) 11 0))).home.isSome = true) (hnone : (s.queue (s.queueKey s.who (wbits (s.rs a) 11 0))).head = none)
    (hfree : (s.head k).bound = false) : ∃ t, exec (.qbind h k a) s = .next t ∧ BindsHead s k (wbits (s.rs a) 11 0) t := by
  show ∃ t, execQbind h k a s = .next t ∧ _
  unfold execQbind
  refine slotOp_goes (Q := fun _ => True) hi trivial (fun v _ => ⟨bindHead (s.worded v) k (wbits (s.rs a) 11 0), ?_, ?_⟩)
  · have hdrop : dropHead (s.worded v) k = s.worded v := dropHead_unbound hfree
    have hfirst : ((s.worded v).queue ((s.worded v).queueKey (s.worded v).who (wbits ((s.worded v).rs a) 11 0))).head = none := hnone
    refine (touchQueue_goes (s := s.worded v) hp hh _ _).trans ?_
    rw [hfirst, hdrop]
    exact if_neg Bool.false_ne_true
  · obtain ⟨hqueue, hhead, hlive, hmem⟩ := bindHead_binds (s.worded v) k (wbits (s.rs a) 11 0)
    exact ⟨hqueue, hhead, hlive, hmem⟩

theorem exec_qunbind (hi : Issues (.qunbind h k) h s) (hbound : (s.head k).bound = true) (hroom : s.room) :
    exec (.qunbind h k) s = .next (s.withholds (.qunbind h k) (.qunbind (s.queueKey s.who (s.head k).queue.toNat)) []) := by
  show execQunbind h k s = _
  unfold execQunbind
  exact slotOp_acts (f := fun u => u.addHeld (.qunbind (s.queueKey s.who (s.head k).queue.toNat)) [])
    (fun v => (if_neg (bang_false hbound)).trans (withhold_room (s := s.worded v) hroom _ _)) hi

/-! ## Reads of a head (12 R227, R228) -/

theorem exec_qrd (hi : Issues (.qrd h d k) h s) (hbound : (s.head k).bound = true) (he : s.latched s.who (s.head k) = some e) :
    exec (.qrd h d k) s = .next (s.leaves (.qrd h d k) 2 [s.wS d e.1]) := by
  show execQrd h d k s = _
  unfold execQrd
  refine slotOp_worded (f := fun u => u.result 2 [s.wS d e.1]) (fun v => (if_neg (bang_false hbound)).trans ?_) hi
  rw [show (s.worded v).latched (s.worded v).who ((s.worded v).head k) = some e from he]
  rfl

/-- The word of QBIND stat: whether an element is latched, its end of stream and the elements available. -/
def statWord (s : State) (e : Option (BitVec 64 × Bool)) (q : QHead) : Nat :=
  e.isSome.toNat + (match e with
    | some y => y.2.toNat * 2
    | none => 0) + s.available s.who q * 2 ^ 16

theorem exec_qstat (hi : Issues (.qstat h d k) h s) (hbound : (s.head k).bound = true) :
    exec (.qstat h d k) s =
      .next (s.leaves (.qstat h d k) 2 [s.wS d (BitVec.ofNat 64 (statWord s (s.latched s.who (s.head k)) (s.head k)))]) := by
  show execQstat h d k s = _
  unfold execQstat
  exact slotOp_leaves (fun v => if_neg (bang_false hbound)) hi

end

theorem statWord_eq (s : State) (e : Option (BitVec 64 × Bool)) (q : QHead) :
    statWord s e q = e.isSome.toNat + ((e.map (·.2)).getD false).toNat * 2 + s.available s.who q * 2 ^ 16 := by
  cases e <;> rfl

/-- The fields of two bits and of a count that lies above them. -/
theorem fields_two_bits {n : Nat} (b0 b1 : Bool) (hn : n < 2 ^ 32) :
    (BitVec.ofNat 64 (b0.toNat + b1.toNat * 2 + n * 2 ^ 16)).getLsbD 0 = b0 ∧ (BitVec.ofNat 64 (b0.toNat + b1.toNat * 2 + n * 2 ^ 16)).getLsbD 1 = b1 ∧
      (BitVec.ofNat 64 (b0.toNat + b1.toNat * 2 + n * 2 ^ 16)).toNat / 2 ^ 16 = n := by
  have h0 := b0.toNat_le
  have h1 := b1.toNat_le
  have hlt : b0.toNat + b1.toNat * 2 + n * 2 ^ 16 < 2 ^ 64 := by omega
  have hval : (BitVec.ofNat 64 (b0.toNat + b1.toNat * 2 + n * 2 ^ 16)).toNat = b0.toNat + b1.toNat * 2 + n * 2 ^ 16 :=
    (BitVec.toNat_ofNat ..).trans (Nat.mod_eq_of_lt hlt)
  refine ⟨?_, ?_, by rw [hval]; omega⟩
  · rw [← bit_toNat, hval, bit, show (b0.toNat + b1.toNat * 2 + n * 2 ^ 16) / 2 ^ 0 % 2 = b0.toNat by omega]
    cases b0 <;> rfl
  · rw [← bit_toNat, hval, bit, show (b0.toNat + b1.toNat * 2 + n * 2 ^ 16) / 2 ^ 1 % 2 = b1.toNat by omega]
    cases b1 <;> rfl

/-- Settles O35, slot by slot. -/
theorem queueResults : Obligations.QueueResults := by
  intro s h a b d k eos hroom key pushes
  refine ⟨fun hi hb hp hh hspace => exec_qpush hi hroom hb hp hh hspace, fun e hbound he hi hb hp hh hspace => exec_qpushFwd hi hbound he hroom hb hp hh hspace,
    fun hi hp hh hnone hfree => ?_, fun hbound =>
      ⟨fun hi => exec_qunbind hi hbound hroom, fun e he hi => exec_qrd hi hbound he, fun hi => ⟨_, exec_qstat hi hbound, ?_⟩⟩⟩
  · obtain ⟨t, ht, hqueue, hhead, hlive, hmem⟩ := qbind_binds hi hp hh hnone hfree
    exact ⟨t, ht, hqueue, hhead, hlive, hmem⟩
  · rw [statWord_eq]
    exact fields_two_bits _ _ (BitVec.isLt _)

end Sys2Proof.Machine
end

section
/-!
PROOF. Atomics (12 R235, R236): O37.
-/

namespace Sys2Proof.Machine

open State

/-! ## The entry and the withheld effect (12 R236) -/

/-- An operand of an atomic: its low 32 bits for a 4-byte datum. -/
def atomDatum (w4 : Bool) (x : Word) : Word := if w4 then x &&& 0xFFFFFFFF else x

/-- The landing entry of an atomic. -/
def atomEntry (s : State) (d : BitVec 5) (lc : BitVec 3) (sp : BitVec 2) : Flight :=
  { id := s.newId.1, kind := .load, dist := Nat.max (s.regs.c.lc.get lc.toFin).toNat 1, cls := spaceClass (Space.ofCode sp), arrived := false
    shape := .s (physSV s.rot d) 8, waits := 1, born := s.cc }

/-- The effect that an atomic withholds. -/
def atomEffect (s : State) (op : AtomOp) (d : BitVec 5) (w4 : Bool) (l : Loc) : Effect :=
  .atom op w4 l (atomDatum w4 (s.rs d)) (if op = .cas then atomDatum w4 (s.rs (d + 1)) else 0) s.newId.1

/-- The state with the landing entry of an atomic. -/
def atomLanding (s : State) (d : BitVec 5) (lc : BitVec 3) (sp : BitVec 2) : State := s.newId.2.addFlight s.who (atomEntry s d lc sp)

/-- The registers that an atomic reads, as its withheld effect notes them. -/
def atomRegs (s : State) (op : AtomOp) (d a : BitVec 5) : List Word := [s.rs a, s.rs d, if op = .cas then s.rs (d + 1) else 0]

/-- What an atomic leaves whose address has resolved. -/
def atomLeft (s : State) (op : AtomOp) (d a : BitVec 5) (lc : BitVec 3) (sp : BitVec 2) (w4 : Bool) (l : Loc) : State :=
  (atomLanding s d lc sp).addHeld (atomEffect s op d w4 l) (atomRegs (atomLanding s d lc sp) op d a)

/-- A landing entry and a withheld effect of the issuing agent. -/
theorem ctx_addFlight_addHeld (s : State) (f : Flight) (e : Effect) (r : List Word) :
    ((s.addFlight s.who f).addHeld e r).ctx s.who = { s.me with
      flight := s.me.flight ++ [f]
      held := s.me.held ++ [{ pos := s.pos, word := s.word, bund := s.bpc.setWidth 57, regs := r, eff := e }] } := by
  have hme : (s.addFlight s.who f).me = { s.me with flight := s.me.flight ++ [f] } := ctx_modCtx s s.who (fun c => { c with flight := c.flight ++ [f] })
  have hctx := ctx_addHeld (s.addFlight s.who f) e r
  rw [hme] at hctx
  exact hctx

theorem room_addFlight {s : State} (h : s.room) (f : Flight) : (s.addFlight s.who f).room := by
  have hme : (s.addFlight s.who f).me = { s.me with flight := s.me.flight ++ [f] } := ctx_modCtx s s.who (fun c => { c with flight := c.flight ++ [f] })
  rw [State.room, hme]
  exact h

/-- What O37 says of an atomic at place `l`. -/
def AtomIssued (s : State) (op : AtomOp) (d : BitVec 5) (lc : BitVec 3) (w4 : Bool) (l : Loc) (t : State) : Prop :=
  ∃ (e : Flight) (x : Withheld), (t.ctx s.who).flight = s.me.flight ++ [e] ∧ e.kind = .load ∧ e.arrived = false ∧ e.shape = .s (physSV s.rot d) 8 ∧
    e.dist = max (s.regs.c.lc.get lc.toFin).toNat 1 ∧ (t.ctx s.who).held = s.me.held ++ [x] ∧
    x.eff = .atom op w4 l (atomDatum w4 (s.rs d)) (if op = .cas then atomDatum w4 (s.rs (d + 1)) else 0) e.id ∧
    (t.ctx s.who).live = s.me.live ∧ t.mem = s.mem

theorem atomLeft_issued {s s' : State} (hu : s'.unsampled = s.unsampled) (op : AtomOp) (d a : BitVec 5) (lc : BitVec 3) (sp : BitVec 2) (w4 : Bool)
    (l : Loc) : AtomIssued s op d lc w4 l (atomLeft s' op d a lc sp w4 l) := by
  have hme : s'.me = s.me := me_of_unsampled hu
  have hregs : s'.regs = s.regs := congrArg Ctx.live hme
  have hrs : ∀ n, s'.rs n = s.rs n := fun n => by rw [State.rs, State.rot, hregs, State.rs, State.rot]
  have hctx := ctx_addFlight_addHeld s'.newId.2 (atomEntry s' d lc sp) (atomEffect s' op d w4 l) (atomRegs (atomLanding s' d lc sp) op d a)
  have hleft : (atomLeft s' op d a lc sp w4 l).ctx s.who = { s.me with
      flight := s.me.flight ++ [atomEntry s' d lc sp]
      held := s.me.held ++ [{ pos := s'.pos, word := s'.word, bund := s'.bpc.setWidth 57
                              regs := atomRegs (atomLanding s' d lc sp) op d a, eff := atomEffect s' op d w4 l }] } := by
    rw [← who_of_unsampled hu, ← hme]
    exact hctx
  refine ⟨atomEntry s' d lc sp, _, by rw [hleft], rfl, rfl, ?_, ?_, by rw [hleft], ?_, by rw [hleft],
    (show s'.mem = s.mem from mem_of_unsampled hu)⟩
  · rw [atomEntry, State.rot, hregs, State.rot]
  · rw [atomEntry, hregs]
  · rw [atomEffect, hrs d, hrs (d + 1)]
    rfl

theorem atomOp_issues {i : Instr} {h : Hdr} {s s' : State} {op : AtomOp} {d a : BitVec 5} {lc : BitVec 3} {sp : BitVec 2} {w4 : Bool} {l : Loc}
    (hi : Issues i h s) (hroom : s.room) (hal : (s.rs a).toNat % (if w4 then 4 else 8) = 0)
    (hres : resolve (s.noted i) s.who .atomic (Space.ofCode sp) (s.rs a) (if w4 then 4 else 8) = .ok (l, s')) (hcoded : l.coded = none)
    (hnear : l.fabric = false) : ∃ t, atomOp i h op d a lc sp w4 s = .next t ∧ AtomIssued s op d lc w4 l t := by
  unfold atomOp
  refine slotOp_goes (Q := fun u => resolve u u.who .atomic (Space.ofCode sp) (u.rs a) (if w4 then 4 else 8) = .ok (l, s')) hi hres
    (fun v hv => ⟨atomLeft s' op d a lc sp w4 l, ?_, ?_⟩)
  · have hu : s'.unsampled = (s.worded v).unsampled := resolve_translates _ _ _ _ _ _ _ _ hv
    have hroom' : s'.newId.2.room := by
      have hme : s'.me = (s.worded v).me := me_of_unsampled hu
      show withheldEntries s'.me < 256
      rw [hme]
      exact hroom
    refine (if_neg (not_not_intro hal)).trans ?_
    rw [hv]
    refine (if_neg (by rw [hcoded]; decide)).trans ((if_neg (ne_true_of_eq_false hnear)).trans ?_)
    exact withhold_room (room_addFlight hroom' (atomEntry s' d lc sp)) (atomEffect s' op d w4 l) (atomRegs (atomLanding s' d lc sp) op d a)
  · have hissued := atomLeft_issued (resolve_translates _ _ _ _ _ _ _ _ hv) op d a lc sp w4 l
    exact hissued

/-- Each of the eleven slots is an atomic operation of its own. -/
theorem atomicSlots : Claims.AtomicResults := by
  intro s h d a lc sp w4 p hp hi hroom hal l s' hres hcoded hnear
  have hslot : exec p.1 s = atomOp p.1 h p.2 d a lc sp w4 s := by
    simp only [List.mem_cons, List.not_mem_nil, or_false] at hp
    rcases hp with rfl | rfl | rfl | rfl | rfl | rfl | rfl | rfl | rfl | rfl | rfl <;> rfl
  rw [hslot]
  obtain ⟨t, ht, e, x, hissued⟩ := atomOp_issues (op := p.2) (d := d) (lc := lc) hi hroom hal hres hcoded hnear
  exact ⟨t, e, x, ht, hissued⟩

/-! ## The values (12 R235) -/

/-- The signed reading of a datum. -/
theorem sext_of_lt {n y : Nat} (h : y < 2 ^ n) : sext n y = if y < 2 ^ (n - 1) then (y : Int) else y - 2 ^ n := by
  rw [sext, Nat.mod_eq_of_lt h]

/-- A choice by signed comparison reads as the lesser. -/
theorem sext_min (n x d : Nat) : sext n (if sext n d < sext n x then d else x) = min (sext n x) (sext n d) := by
  split
  next h => exact (min_eq_right h.le).symm
  next h => exact (min_eq_left (not_lt.mp h)).symm

/-- A choice by signed comparison reads as the greater. -/
theorem sext_max (n x d : Nat) : sext n (if sext n x < sext n d then d else x) = max (sext n x) (sext n d) := by
  split
  next h => exact (max_eq_right h.le).symm
  next h => exact (max_eq_left (not_lt.mp h)).symm

theorem atomicValues : Claims.AtomicValues := by
  intro w4 x d e n toS hx hd he
  have hS : ∀ y, y < 2 ^ n → toS y = sext n y := fun y hy => (sext_of_lt hy).symm
  have hpick : ∀ c : Prop, [Decidable c] → (if c then d else x) < 2 ^ n := fun c _ => by split <;> assumption
  refine ⟨rfl, rfl, rfl, rfl, rfl, ?_, ?_, rfl, rfl, rfl⟩
  · rw [hS x hx, hS d hd, ← sext_min]
    exact hS _ (hpick _)
  · rw [hS x hx, hS d hd, ← sext_max]
    exact hS _ (hpick _)

/-- Settles O37: the slots through the one operation that they share, the values by the signed reading of a datum. -/
theorem atomicResults : Obligations.AtomicResults := ⟨atomicSlots, atomicValues⟩

end Sys2Proof.Machine
end

section
/-!
PROOF. Barriers, drains, semaphores (12 R237-R240), pad banks (12 R234) and tokens (12 R242): O38.
-/

namespace Sys2Proof.Machine

open State

/-! ## The withheld-store buffer -/

theorem room_of_held {s u : State} (h : s.room) (hheld : u.me.held = s.me.held) : u.room := by
  rw [State.room, withheldEntries, hheld]
  exact h

/-- An effect that is withheld in a state whose issuing agent's record is known. -/
theorem ctx_addHeld_of {u : State} {a : Agent} {c : Ctx} (hwho : u.who = a) (hc : u.me = c) (e : Effect) (r : List Word) :
    (u.addHeld e r).ctx a = { c with held := c.held ++ [{ pos := u.pos, word := u.word, bund := u.bpc.setWidth 57, regs := r, eff := e }] } := by
  rw [← hwho, ← hc]
  exact ctx_addHeld u e r

theorem me_postBar (s : State) (kind : PostKind) (l : Loc) (ea : Word) (want : BitVec 32) (sc : Nat) : (postBar s kind l ea want sc).me = { s.me with
    post := some { kind := kind, loc := l, ea := ea, want := want, scope := sc, pos := s.pos, word := s.word, bund := s.bpc.setWidth 57 } } := me_modMe ..

/-! ## BAR (12 R237, R238) -/

/-- The place of a barrier object that resolves outside the fabric. -/
theorem objectOp_goes {s s' : State} {acc : Acc} {sp : BitVec 2} {ea : Word} {l : Loc} (hal : ea.toNat % 64 = 0)
    (hres : resolve s s.who acc (Space.ofCode sp) ea 64 = .ok (l, s')) (hnear : l.fabric = false) (k : Loc → State → Res) : objectOp s acc sp ea k = k l s' := by
  unfold objectOp
  rw [if_neg (not_not_intro hal), hres]
  exact if_neg (ne_true_of_eq_false hnear)

/-- What O38 says of an arrival at the object `l`, which resolved in `s'`. -/
def Arrives (s s' : State) (l : Loc) (idx : Nat) (sync : Bool) (sc : Nat) (t : State) : Prop :=
  ∃ x, (t.ctx s.who).held = s.me.held ++ [x] ∧ x.eff = .arrive l idx sync sc ∧ x.pos = s.pos ∧ x.bund = s.bpc.setWidth 57 ∧
    (sync = true → ∃ p, (t.ctx s.who).post = some p ∧ p.kind = .sync ∧ p.loc = l ∧ p.r = none ∧ awaits x p = true) ∧
    (sync = false → (t.ctx s.who).post = s.me.post) ∧ t.mem = s'.mem

theorem addHeld_arrives {s s' : State} (hu : s'.unsampled = s.unsampled) (l : Loc) (idx sc : Nat) (r : List Word) :
    Arrives s s' l idx false sc (s'.addHeld (.arrive l idx false sc) r) := by
  have hctx := ctx_addHeld_of (who_of_unsampled hu) (me_of_unsampled hu) (.arrive l idx false sc) r
  rw [Arrives, hctx]
  exact ⟨_, rfl, rfl, (congrArg State.pos hu :), congrArg (BitVec.setWidth 57) (congrArg State.bpc hu :), fun h => absurd h Bool.false_ne_true,
    fun _ => rfl, rfl⟩

theorem postBar_arrives {s s' : State} (hu : s'.unsampled = s.unsampled) (l : Loc) (ea : Word) (idx sc : Nat) (r : List Word) :
    Arrives s s' l idx true sc ((postBar s' .sync l ea 0 sc).addHeld (.arrive l idx true sc) r) := by
  have hme := me_postBar s' .sync l ea 0 sc
  rw [me_of_unsampled hu] at hme
  have hctx := ctx_addHeld_of (u := postBar s' .sync l ea 0 sc) (show s'.who = s.who from who_of_unsampled hu) hme (.arrive l idx true sc) r
  rw [Arrives, hctx]
  refine ⟨_, rfl, rfl, (congrArg State.pos hu :), congrArg (BitVec.setWidth 57) (congrArg State.bpc hu :), fun _ => ⟨_, rfl, rfl, rfl, rfl, ?_⟩,
    fun h => absurd h.symm Bool.false_ne_true, rfl⟩
  simp [awaits, postBar]

theorem arriveOp_arrives {i : Instr} {h : Hdr} {s s' : State} {a b : BitVec 5} {sc : BitVec 3} {l : Loc} (sync : Bool) (hi : Issues i h s) (hroom : s.room)
    (hal : (s.rs a).toNat % 64 = 0) (hb : (s.rs b).toNat < 2 ^ 10)
    (hres : resolve (s.noted i) s.who .atomic (Space.ofCode ((s.rs b).extractLsb' 8 2)) (s.rs a) 64 = .ok (l, s')) (hnear : l.fabric = false) :
    ∃ t, arriveOp i h a b sc sync s = .next t ∧ Arrives s s' l (wbits (s.rs b) 7 0) sync sc.toNat t := by
  unfold arriveOp
  refine slotOp_goes (Q := fun u => resolve u u.who .atomic (Space.ofCode ((u.rs b).extractLsb' 8 2)) (u.rs a) 64 = .ok (l, s')) hi hres fun v hv => ?_
  have hu : s'.unsampled = (s.worded v).unsampled := resolve_translates _ _ _ _ _ _ _ _ hv
  have hheld : s'.me.held = (s.worded v).me.held := congrArg Ctx.held (me_of_unsampled hu)
  rw [if_neg (not_not_intro (wbits_above 63 (x := (s.worded v).rs b) hb)), objectOp_goes (ea := (s.worded v).rs a) hal hv hnear]
  cases sync with
  | true =>
    refine ⟨_, withhold_room (s := postBar s' .sync l (s'.rs a) 0 sc.toNat) (room_of_held (s := s.worded v) hroom ?_) _ _, postBar_arrives hu ..⟩
    rw [me_postBar, ← hheld]
  | false => exact ⟨_, withhold_room (s := s') (room_of_held (s := s.worded v) hroom hheld) _ _, addHeld_arrives hu ..⟩

/-- What O38 says of a wait at the object `l`, which resolved in `s'`. -/
def Waits (s s' : State) (l : Loc) (want : BitVec 32) (sc : Nat) (t : State) : Prop :=
  ∃ (p : PostWait) (x : Withheld), (t.ctx s.who).post = some p ∧ p.kind = .wt ∧ p.loc = l ∧ p.want = want ∧ p.r = none ∧
    (t.ctx s.who).held = s.me.held ++ [x] ∧ x.eff = .barWait sc ∧ awaits x p = true ∧ t.mem = s'.mem

theorem postBar_waits {s s' : State} (hu : s'.unsampled = s.unsampled) (l : Loc) (ea : Word) (want : BitVec 32) (sc : Nat) (r : List Word) :
    Waits s s' l want sc ((postBar s' .wt l ea want sc).addHeld (.barWait sc) r) := by
  have hme := me_postBar s' .wt l ea want sc
  rw [me_of_unsampled hu] at hme
  have hctx := ctx_addHeld_of (u := postBar s' .wt l ea want sc) (show s'.who = s.who from who_of_unsampled hu) hme (.barWait sc) r
  rw [Waits, hctx]
  refine ⟨_, _, rfl, rfl, rfl, rfl, rfl, rfl, rfl, ?_, rfl⟩
  simp [awaits, postBar]

theorem barWt_waits {h : Hdr} {s s' : State} {a b : BitVec 5} {sc : BitVec 3} {l : Loc} (hi : Issues (.barWt h a b sc) h s) (hroom : s.room)
    (hal : (s.rs a).toNat % 64 = 0) (hb : (s.rs b).toNat < 2 ^ 34)
    (hres : resolve (s.noted (.barWt h a b sc)) s.who .load (Space.ofCode ((s.rs b).extractLsb' 32 2)) (s.rs a) 64 = .ok (l, s')) (hnear : l.fabric = false) :
    ∃ t, exec (.barWt h a b sc) s = .next t ∧ Waits s s' l ((s.rs b).setWidth 32) sc.toNat t := by
  show ∃ t, execBarWt h a b sc s = .next t ∧ _
  unfold execBarWt
  refine slotOp_goes (Q := fun u => resolve u u.who .load (Space.ofCode ((u.rs b).extractLsb' 32 2)) (u.rs a) 64 = .ok (l, s')) hi ?_ fun v hv => ?_
  · rw [noted_who, noted_rs, noted_rs]
    exact hres
  have hu : s'.unsampled = (s.worded v).unsampled := resolve_translates _ _ _ _ _ _ _ _ hv
  have hheld : s'.me.held = (s.worded v).me.held := congrArg Ctx.held (me_of_unsampled hu)
  rw [if_neg (not_not_intro (wbits_above 63 (x := (s.worded v).rs b) hb)), objectOp_goes (ea := (s.worded v).rs a) hal hv hnear]
  refine ⟨_, withhold_room (s := postBar s' .wt l (s'.rs a) ((s.rs b).setWidth 32) sc.toNat) (room_of_held (s := s.worded v) hroom ?_) _ _, postBar_waits hu ..⟩
  rw [me_postBar, ← hheld]

theorem agents_writeBackFor (s : State) (a : Agent) (sc : Nat) : (writeBackFor s a sc).agents = s.agents := by
  unfold writeBackFor
  split
  · exact foldl_keeps (p := State.agents) (fun _ _ => agents_writeBackLine ..) ..
  · rfl

/-- A wait whose release performs knows the ROUNDS value that it waits to see changed. -/
theorem performBarWait_knows {t : State} {a : Agent} {w : Withheld} {p : PostWait} (hp : (t.ctx a).post = some p) (hw : awaits w p = true) (n : Nat) :
    ((performBarWait t a w n).ctx a).post.bind (·.r) = some p.want := by
  unfold performBarWait barActed
  dsimp only
  rw [ctx_modCtx, ctx_of_agents (agents_writeBackFor ..), hp, Option.map_some, if_pos hw]
  rfl

/-! ## DRAIN (12 R239) -/

/-- The landing entry of a DRAIN, which receives the failed effects. -/
def drainEntry (s : State) (d : BitVec 5) : Flight := { id := s.newId.1, writes := [s.wS d 0], dist := 1, arrived := false }
/-- The wait that a DRAIN leaves. -/
def drainWait (s : State) (sc : BitVec 3) : PostWait :=
  { kind := .drain, scope := sc.toNat, ref := s.newId.1, pos := s.pos, word := s.word, bund := s.bpc.setWidth 57 }

/-- The state in which a DRAIN is withheld. -/
def drainPosted (s : State) (d : BitVec 5) (sc : BitVec 3) : State :=
  (s.newId.2.addFlight s.who (drainEntry s d)).modMe (fun c => { c with post := some (drainWait s sc) })

theorem me_drainPosted (s : State) (d : BitVec 5) (sc : BitVec 3) :
    (drainPosted s d sc).me = { s.me with flight := s.me.flight ++ [drainEntry s d], post := some (drainWait s sc) } := by
  have hme : (s.newId.2.addFlight s.who (drainEntry s d)).me = { s.me with flight := s.me.flight ++ [drainEntry s d] } :=
    ctx_modCtx s.newId.2 s.who (fun c => { c with flight := c.flight ++ [drainEntry s d] })
  rw [drainPosted, me_modMe, hme]

/-- What O38 says of a DRAIN. -/
def Drains (s : State) (d : BitVec 5) (sc : BitVec 3) (t : State) : Prop :=
  ∃ (e : Flight) (p : PostWait), (t.ctx s.who).flight = s.me.flight ++ [e] ∧ e.arrived = false ∧ e.writes = [s.wS d 0] ∧ (t.ctx s.who).post = some p ∧
    p.kind = .drain ∧ p.scope = sc.toNat ∧ p.ref = e.id ∧ ((t.ctx s.who).held.getLast?.map (·.eff)) = some .drain ∧ t.mem = s.mem

theorem drainPosted_drains (s : State) (d : BitVec 5) (sc : BitVec 3) : Drains s d sc ((drainPosted s d sc).addHeld .drain []) := by
  have hctx := ctx_addHeld_of (u := drainPosted s d sc) (a := s.who) rfl (me_drainPosted ..) .drain []
  rw [Drains, hctx]
  exact ⟨drainEntry s d, drainWait s sc, rfl, rfl, rfl, rfl, rfl, rfl, rfl, by rw [List.getLast?_concat]; rfl, rfl⟩

theorem drain_drains {h : Hdr} {s : State} {d : BitVec 5} {sc : BitVec 3} (hi : Issues (.drain h d sc) h s) (hroom : s.room) :
    ∃ t, exec (.drain h d sc) s = .next t ∧ Drains s d sc t := by
  show ∃ t, execDrain h d sc s = .next t ∧ _
  unfold execDrain
  refine slotOp_goes (Q := fun _ => True) hi trivial fun v _ => ⟨_, ?_, drainPosted_drains (s.worded v) d sc⟩
  exact withhold_room (s := drainPosted (s.worded v) d sc) (room_of_held (s := s.worded v) hroom (by rw [me_drainPosted])) _ _

/-! ## EVT (12 R240) -/

section
variable {s : State} {h : Hdr} {a b d : BitVec 5} {cl : Nat}

theorem ownCluster_goes (hcl : s.who.cluster? = some cl) (ea : Word) (k : Nat → Res) : ownCluster s ea k = k cl := by
  rw [ownCluster, hcl]

theorem evtOwn_goes {x : Word} (hcl : s.who.cluster? = some cl) (hx : wbits x 21 16 = 0 ∨ wbits x 21 16 = cl) (k : Nat → Res) : evtOwn s x k = k cl := by
  rw [evtOwn, ownCluster_goes hcl, if_neg]
  rintro ⟨hzero, hne⟩
  exact hx.elim hzero hne

theorem exec_evtSig (hi : Issues (.evtSig h a) h s) (hroom : s.room) (hgood : evtBad (s.rs a) true = false)
    (hcl : s.who.cluster? = some (wbits (s.rs a) 21 16)) :
    exec (.evtSig h a) s = .next (s.withholds (.evtSig h a) (.evtSig (wbits (s.rs a) 21 16) (wbits (s.rs a) 5 0) (wbits (s.rs a) 15 8)) [s.rs a]) := by
  show execEvtSig h a s = _
  unfold execEvtSig
  refine slotOp_worded (f := fun u => u.addHeld (.evtSig (wbits (s.rs a) 21 16) (wbits (s.rs a) 5 0) (wbits (s.rs a) 15 8)) [s.rs a]) (fun v => ?_) hi
  exact (if_neg (ne_true_of_eq_false hgood)).trans ((if_neg (fun hfar => hfar.2.1 hcl)).trans (withhold_room (s := s.worded v) hroom _ _))

/-- What O38 says of an EVT wait that finds its counts. -/
def Takes (s : State) (cl k n : Nat) (t : State) : Prop :=
  ((t.ctx s.who).held.getLast?.map (·.eff)) = some (.evtTake cl k n) ∧ (semOf t cl k).resv = (semOf s cl k).resv + n ∧
    (semOf t cl k).count = (semOf s cl k).count

theorem modSem_takes (s : State) (cl k n : Nat) (r : List Word) :
    Takes s cl k n ((modSem s cl k (fun m => { m with resv := m.resv + n })).addHeld (.evtTake cl k n) r) := by
  have hctx := ctx_addHeld_of (u := modSem s cl k (fun m => { m with resv := m.resv + n })) (a := s.who) rfl rfl (.evtTake cl k n) r
  have hsem : semOf ((modSem s cl k (fun m => { m with resv := m.resv + n })).addHeld (.evtTake cl k n) r) cl k =
      { semOf s cl k with resv := (semOf s cl k).resv + n } := by
    rw [semOf, addHeld, cluster_modMe_other, modSem, cluster_modCluster, SMap.get_upd_same, semOf]
  rw [Takes, hctx, hsem]
  exact ⟨by rw [List.getLast?_concat]; rfl, rfl, rfl⟩

theorem evtWait_takes (hi : Issues (.evtWait h a b) h s) (hroom : s.room) (hgood : evtBad (s.rs a) true = false) (hcl : s.who.cluster? = some cl)
    (hx : wbits (s.rs a) 21 16 = 0 ∨ wbits (s.rs a) 21 16 = cl)
    (hcount : (semOf s cl (wbits (s.rs a) 5 0)).resv + wbits (s.rs a) 15 8 ≤ (semOf s cl (wbits (s.rs a) 5 0)).count.toNat) :
    ∃ t, exec (.evtWait h a b) s = .next t ∧ Takes s cl (wbits (s.rs a) 5 0) (wbits (s.rs a) 15 8) t := by
  show ∃ t, execEvtWait h a b s = .next t ∧ _
  unfold execEvtWait
  refine slotOp_goes (Q := fun _ => True) hi trivial fun v _ => ⟨_, ?_, modSem_takes (s.worded v) cl (wbits (s.rs a) 5 0) (wbits (s.rs a) 15 8) [s.rs a, s.rs b]⟩
  refine (if_neg (ne_true_of_eq_false hgood)).trans ((evtOwn_goes (s := s.worded v) hcl hx _).trans ((if_neg (Nat.not_lt.mpr hcount)).trans ?_))
  exact withhold_room (s := modSem (s.worded v) cl _ _) (room_of_held hroom rfl) _ _

theorem exec_evtRd (hi : Issues (.evtRd h d a) h s) (hgood : evtBad (s.rs a) false = false) (hcl : s.who.cluster? = some cl)
    (hx : wbits (s.rs a) 21 16 = 0 ∨ wbits (s.rs a) 21 16 = cl) :
    exec (.evtRd h d a) s = .next (s.leaves (.evtRd h d a) 2 [s.wS d ((semOf s cl (wbits (s.rs a) 5 0)).count.setWidth 64)]) := by
  show execEvtRd h d a s = _
  unfold execEvtRd
  exact slotOp_leaves (fun v => (if_neg (ne_true_of_eq_false hgood)).trans (evtOwn_goes (s := s.worded v) hcl hx _)) hi

end

theorem synchronisations : Claims.SynchronisationResults := by
  intro s h d a b sc hroom
  refine ⟨?_, fun l s' hi hal hb hres hnear => ?_, fun t w p n hp hw => performBarWait_knows hp hw n, fun hi => ?_,
    fun hgood => ⟨fun hi hcl => exec_evtSig hi hroom hgood hcl, fun cl hcl hx hcount hi => evtWait_takes hi hroom hgood hcl hx hcount⟩,
    fun cl hgood hcl hx hi => exec_evtRd hi hgood hcl hx⟩
  · rintro l s' i (rfl | rfl) hi hal hb hres hnear
    · obtain ⟨t, ht, x, hheld, heff, hpos, hbund, -, hpost, hmem⟩ := arriveOp_arrives (sc := sc) false hi hroom hal hb hres hnear
      have hne : (Instr.barArr h a b sc == Instr.barSync h a b sc) = false := beq_eq_false_iff_ne.mpr (fun heq => nomatch heq)
      exact ⟨t, x, ht, hheld, by rw [hne]; exact heff, hpos, hbund, fun heq => (nomatch heq), fun _ => hpost rfl, hmem⟩
    · obtain ⟨t, ht, x, hheld, heff, hpos, hbund, hpost, -, hmem⟩ := arriveOp_arrives (sc := sc) true hi hroom hal hb hres hnear
      exact ⟨t, x, ht, hheld, by rw [beq_self_eq_true]; exact heff, hpos, hbund, fun _ => hpost rfl, fun heq => (nomatch heq), hmem⟩
  · obtain ⟨t, ht, p, x, hwaits⟩ := barWt_waits hi hroom hal hb hres hnear
    exact ⟨t, p, x, ht, hwaits⟩
  · obtain ⟨t, ht, e, p, hdrains⟩ := drain_drains hi hroom
    exact ⟨t, e, p, ht, hdrains⟩

/-! ## Pad banks (12 R234) -/

/-- Bit `k` of the banks that satisfy a test. -/
theorem testBit_banksWhere (s : State) (cl : Nat) (p : Nat → Bool) {k : Nat} (hk : k < 32) :
    (banksWhere s cl p).testBit k = p ((s.cluster cl).banks.get 0 k) := testBit_packNat (f := fun k => p ((s.cluster cl).banks.get 0 k)) hk

theorem banksWhere_lt (s : State) (cl : Nat) (p : Nat → Bool) : banksWhere s cl p < 2 ^ 32 :=
  packNat_lt (w := 1) (n := 32) fun _ _ => Bool.toNat_lt _

/-- A table in which the keys of a list that satisfy a test have been put. -/
theorem get_foldl_put {p : Nat → Bool} {v : Nat} (l : List Nat) (t : SMap Nat) (k : Nat) :
    (l.foldl (fun bs j => if p j then bs.put 0 j v else bs) t).get 0 k = if k ∈ l ∧ p k = true then v else t.get 0 k := by
  induction l generalizing t with
  | nil => simp
  | cons j l ih =>
    rw [List.foldl_cons, ih]
    by_cases hj : p j = true
    · rw [if_pos hj, SMap.get_put]
      by_cases hjk : j = k
      · subst hjk
        simp [hj]
      · simp [hjk, Ne.symm hjk]
    · rw [if_neg hj]
      by_cases hjk : j = k
      · subst hjk
        simp [hj]
      · simp [Ne.symm hjk]

section
variable {s : State} {h : Hdr} {a b d : BitVec 5} {cl : Nat}

/-- The banks of a mask go to an owner. -/
def takeBanks (s : State) (cl m me : Nat) : State :=
  s.modCluster cl (fun c => { c with banks := (List.range 32).foldl (fun bs k => if bit m k then bs.put 0 k me else bs) c.banks })

theorem takeBanks_takes (s : State) (cl me : Nat) (x : Word) {k : Nat} (hk : k < 32) :
    ((takeBanks s cl x.toNat me).cluster cl).banks.get 0 k = if x.getLsbD k then me else (s.cluster cl).banks.get 0 k := by
  rw [takeBanks, cluster_modCluster, get_foldl_put (p := bit x.toNat), bit_toNat]
  simp [hk]

/-- No bank of the mask is held by another. -/
theorem noneHeld {x : Word} {me : Nat} (hx : x.toNat < 2 ^ 32)
    (hfree : ∀ k, x.getLsbD k = true → (s.cluster cl).banks.get 0 k = 0 ∨ (s.cluster cl).banks.get 0 k = me) :
    x.toNat &&& banksWhere s cl (fun o => o != 0 && o != me) = 0 := by
  refine Nat.eq_of_testBit_eq fun k => ?_
  rw [Nat.testBit_and, Nat.zero_testBit, Bool.and_eq_false_iff]
  by_cases hk : k < 32
  · refine (Bool.eq_false_or_eq_true (x.toNat.testBit k)).symm.imp_right fun hbit => ?_
    rw [testBit_banksWhere s cl _ hk]
    rcases hfree k hbit with h0 | hme
    · simp [h0]
    · simp [hme]
  · exact Or.inl (Nat.testBit_lt_two_pow (hx.trans_le (Nat.pow_le_pow_right (by decide) (Nat.le_of_not_lt hk))))

theorem bankAcq_takes (hi : Issues (.bankAcq h a b) h s) (hcl : s.who.cluster? = some cl) (ha : (s.rs a).toNat < 2 ^ 32) (hb : (s.rs b).toNat < 2 ^ 24)
    (hfree : ∀ k, (s.rs a).getLsbD k = true → (s.cluster cl).banks.get 0 k = 0 ∨ (s.cluster cl).banks.get 0 k = s.bankOwner s.who) :
    ∃ t, exec (.bankAcq h a b) s = .next t ∧ (∀ k, k < 32 → (t.cluster cl).banks.get 0 k =
      if (s.rs a).getLsbD k then s.bankOwner s.who else (s.cluster cl).banks.get 0 k) ∧ t.ctx s.who = s.me ∧ t.mem = s.mem := by
  have hmask : wbits (s.rs a) 31 0 = (s.rs a).toNat := (wbits_low _).trans (Nat.mod_eq_of_lt ha)
  show ∃ t, execBankAcq h a b s = .next t ∧ _
  unfold execBankAcq
  refine slotOp_goes (Q := fun _ => True) hi trivial fun v _ =>
    ⟨takeBanks (s.worded v) cl (s.rs a).toNat (s.bankOwner s.who), ?_, fun k hk => takeBanks_takes (s.worded v) cl _ (s.rs a) hk, rfl, rfl⟩
  rw [if_neg (not_not_intro (wbits_above 63 (x := (s.worded v).rs a) ha)), if_neg (not_not_intro (wbits_above 63 (x := (s.worded v).rs b) hb)),
    ownCluster_goes (s := s.worded v) hcl, show wbits ((s.worded v).rs a) 31 0 = (s.rs a).toNat from hmask]
  exact if_neg (not_not_intro (noneHeld (s := s.worded v) ha hfree))

theorem exec_bankRel (hi : Issues (.bankRel h a) h s) (hcl : s.who.cluster? = some cl) (hck : s.ckb = true) :
    exec (.bankRel h a) s = .next (s.withholds (.bankRel h a) (.bankRel cl ((s.rs a).setWidth 32)) []) := by
  show execBankRel h a s = _
  unfold execBankRel
  exact slotOp_worded (f := fun u => u.addHeld (.bankRel cl ((s.rs a).setWidth 32)) [])
    (fun v => (if_neg (bang_false hck)).trans (ownCluster_goes (s := s.worded v) hcl _ _)) hi

theorem exec_bankRel_early (hi : Issues (.bankRel h a) h s) (hck : s.ckb = false) :
    exec (.bankRel h a) s = .next ((s.noted (.bankRel h a)).raise ((s.noted (.bankRel h a)).slotTrap 0x02)) := by
  show execBankRel h a s = _
  unfold execBankRel
  have hnot : (!s.ckb) = true := by rw [hck]; rfl
  exact slotOp_worded (f := fun u => u.raise (u.slotTrap 0x02)) (fun v => if_pos hnot) hi

/-- The word of BANK rd: the banks that the agent holds, and above them the free ones. -/
def banksWord (s : State) (cl : Nat) : Word :=
  BitVec.ofNat 64 (banksWhere s cl (· == s.bankOwner s.who) + banksWhere s cl (· == 0) * 2 ^ 32)

theorem exec_bankRd (hi : Issues (.bankRd h d) h s) (hcl : s.who.cluster? = some cl) :
    exec (.bankRd h d) s = .next (s.leaves (.bankRd h d) 2 [s.wS d (banksWord s cl)]) := by
  show execBankRd h d s = _
  unfold execBankRd
  exact slotOp_leaves (fun v => ownCluster_goes (s := s.worded v) hcl _ _) hi

theorem getLsbD_banksWord (s : State) (cl : Nat) {k : Nat} (hk : k < 32) :
    (banksWord s cl).getLsbD k = decide ((s.cluster cl).banks.get 0 k = s.bankOwner s.who) ∧
      (banksWord s cl).getLsbD (32 + k) = decide ((s.cluster cl).banks.get 0 k = 0) := by
  have hbit : ∀ j, j < 64 → (banksWord s cl).getLsbD j =
      if j < 32 then (banksWhere s cl (· == s.bankOwner s.who)).testBit j else (banksWhere s cl (· == 0)).testBit (j - 32) := fun j hj => by
    rw [banksWord, BitVec.getLsbD_ofNat, decide_eq_true hj, Bool.true_and, Nat.add_comm, Nat.mul_comm, Nat.testBit_two_pow_mul_add _ (banksWhere_lt ..)]
  rw [hbit k (by omega), hbit (32 + k) (by omega), if_pos hk, if_neg (by omega), Nat.add_sub_cancel_left, testBit_banksWhere s cl _ hk,
    testBit_banksWhere s cl _ hk]
  exact ⟨rfl, rfl⟩

end

theorem bankResults : Claims.BankResults := by
  intro s h a b d cl hcl own me
  refine ⟨fun hi ha hb hfree => bankAcq_takes hi hcl ha hb hfree,
    fun hi hck => exec_bankRel hi hcl hck, fun hi hck => exec_bankRel_early hi hck, fun hi => ⟨_, exec_bankRd hi hcl, fun k hk => getLsbD_banksWord s cl hk⟩⟩

/-! ## RTE (12 R242) -/

section
variable {s : State} {h : Hdr} {a b d : BitVec 5}

/-- The landing entry of a claim. -/
def clmEntry (s : State) (d : BitVec 5) : Flight :=
  { id := s.newId.1, kind := .load, dist := Nat.max (s.regs.c.lc.getD 7 0).toNat 1, cls := 1, arrived := false, shape := .s (physSV s.rot d) 8, waits := 1 }

/-- What RTE clm leaves: its entry, and its claim withheld. -/
def clmLeft (s : State) (d a b : BitVec 5) : State :=
  (s.newId.2.addFlight s.who (clmEntry s d)).addHeld (.clm (s.rs a) ((s.rs b).setWidth 32) (wbits (s.rs b) 47 32) s.newId.1) [s.rs a, s.rs b]

/-- What O38 says of a claim. -/
def ClaimLeft (s : State) (d a b : BitVec 5) (t : State) : Prop :=
  ∃ (e : Flight) (x : Withheld), (t.ctx s.who).flight = s.me.flight ++ [e] ∧ e.kind = .load ∧ e.shape = .s (physSV s.rot d) 8 ∧
    e.dist = max (s.regs.c.lc.get 7).toNat 1 ∧ (t.ctx s.who).held = s.me.held ++ [x] ∧
    x.eff = .clm (s.rs a) ((s.rs b).setWidth 32) (wbits (s.rs b) 47 32) e.id ∧ t.mem = s.mem

theorem clmLeft_claimed (s : State) (d a b : BitVec 5) : ClaimLeft s d a b (clmLeft s d a b) := by
  have hctx := ctx_addFlight_addHeld s.newId.2 (clmEntry s d) (.clm (s.rs a) ((s.rs b).setWidth 32) (wbits (s.rs b) 47 32) s.newId.1)
    [s.rs a, s.rs b]
  have hdist : s.regs.c.lc.getD 7 0 = s.regs.c.lc.get 7 := by simp [Vector.getD, Vector.get]
  refine ⟨clmEntry s d, _, congrArg Ctx.flight hctx, rfl, rfl, ?_, congrArg Ctx.held hctx, rfl, rfl⟩
  rw [clmEntry, hdist]

theorem rteClm_claims (hi : Issues (.rteClm h d a b) h s) (hroom : s.room) (hal : (s.rs a).toNat % 64 = 0)
    (hpass : vaultPasses s s.who (s.rs a).toNat 64 = true) (hdie : bits (s.rs a).toNat 32 27 / 16 = s.who.die) (hhigh : wbits (s.rs b) 63 48 = 0)
    (hcnt : wbits (s.rs b) 47 32 ≠ 0) : ∃ t, exec (.rteClm h d a b) s = .next t ∧ ClaimLeft s d a b t := by
  show ∃ t, execRteClm h d a b s = .next t ∧ _
  unfold execRteClm
  refine slotOp_goes (Q := fun _ => True) hi trivial fun v _ => ⟨clmLeft (s.worded v) d a b, ?_, clmLeft_claimed (s.worded v) d a b⟩
  refine (if_neg (not_not_intro hal)).trans ((if_neg ?_).trans ((if_neg ?_).trans ?_))
  · exact fun hout => hout.elim (bang_false hpass) (fun hne => hne hdie)
  · exact fun hbad => hbad.elim (fun hne => hne hhigh) hcnt
  · exact withhold_room (room_addFlight (s := (s.worded v).newId.2) hroom (clmEntry (s.worded v) d)) _ _

theorem exec_rteSnd (hi : Issues (.rteSnd h d a b) h s) (hroom : s.room) (hal : (s.rs a).toNat % 64 = 0) (hhigh : wbits (s.rs b) 63 61 = 0)
    (ha : (s.rs a).toNat < 2 ^ 33) (hpass : (s.rs b).getLsbD 60 = false → vaultPasses s s.who (s.rs a).toNat 64 = true) :
    exec (.rteSnd h d a b) s = .next (s.withholds (.rteSnd h d a b)
      (.snd (s.rs a) ((s.rs b).setWidth 32) (wbits (s.rs b) 43 32) (wbits (s.rs b) 59 44) ((s.rs b).getLsbD 60) (s.rv d)) [s.rs a, s.rs b]) := by
  show execRteSnd h d a b s = _
  unfold execRteSnd
  refine slotOp_worded (f := fun u => u.addHeld (.snd (s.rs a) ((s.rs b).setWidth 32) (wbits (s.rs b) 43 32) (wbits (s.rs b) 59 44) ((s.rs b).getLsbD 60)
    (s.rv d)) [s.rs a, s.rs b]) (fun v => ?_) hi
  refine (if_neg (not_not_intro hal)).trans ((if_neg (not_not_intro hhigh)).trans ((if_neg ?_).trans (withhold_room (s := s.worded v) hroom _ _)))
  rintro (hne | hout)
  · exact hne (wbits_above 63 ha)
  · rw [Bool.and_eq_true, Bool.not_eq_true', Bool.not_eq_true'] at hout
    exact absurd (hpass hout.1) (ne_true_of_eq_false hout.2)

end

theorem routeResults : Claims.RouteResults := by
  intro s h d a b hroom hal
  refine ⟨fun hi hpass hdie hhigh hcnt => ?_, fun hi hhigh ha hpass => exec_rteSnd hi hroom hal hhigh ha hpass⟩
  obtain ⟨t, ht, e, x, hclaimed⟩ := rteClm_claims hi hroom hal hpass hdie hhigh hcnt
  exact ⟨t, e, x, ht, hclaimed⟩

/-- Settles O38: slot by slot, the banks bit by bit. -/
theorem synchronisationResults : Obligations.SynchronisationResults := ⟨synchronisations, bankResults, routeResults⟩

end Sys2Proof.Machine
end

section
/-!
PROOF. Heads without a queue (12 R227), panes not granted (09 R172) and tiles read too early (09 R176): O14.
-/

namespace Sys2Proof.Machine

open State

/-- A slot that issues and traps. -/
theorem slotOp_traps {i : Instr} {h : Hdr} {s : State} {k : State → Res} {c : Nat} {x y : BitVec 64}
    (hk : ∀ w, k (s.worded w) = trapAt (s.worded w) c 0 x y) (hi : Issues i h s) :
    slotOp i h s k = .next ((s.noted i).raise ((s.noted i).slotTrap c 0 x y)) := slotOp_worded (f := fun u => u.raise (u.slotTrap c 0 x y)) hk hi

/-! ## Heads without a queue (12 R227) -/

theorem unboundHeadTraps : Claims.UnboundHeadTraps := by
  intro s h b d k hfree
  have hnot : (!(s.head k).bound) = true := by rw [hfree]; rfl
  simp only [List.forall_mem_cons, List.not_mem_nil, false_implies, implies_true, and_true]
  refine ⟨fun hi => ?_, fun hi => ?_, fun hi => ?_, fun hi => ?_⟩
  · show execQpushFwd h k b s = _
    exact slotOp_traps (fun w => if_pos hnot) hi
  · show execQunbind h k s = _
    exact slotOp_traps (fun w => if_pos hnot) hi
  · show execQrd h d k s = _
    exact slotOp_traps (fun w => if_pos hnot) hi
  · show execQstat h d k s = _
    exact slotOp_traps (fun w => if_pos hnot) hi

/-! ## Panes that are not granted (09 R172) -/

/-- One pane of a slot that is not granted stops it. -/
theorem panesOp_missing {s : State} {ps : List Nat} {p : Nat} (hp : p ∈ ps) (hnone : s.me.panes.getD p none = none) (k : Res) :
    panesOp s ps k = trapAt s 0x08 0 (grantedWord s.me) := by
  refine if_neg fun hall => ?_
  have hsome := List.all_eq_true.mp hall p hp
  rw [hnone] at hsome
  exact Bool.false_ne_true hsome

theorem ungrantedPaneTraps : Claims.UngrantedPaneTraps := by
  intro s h z a b d f qb rv zs rnd traps
  refine ⟨fun hnone => ?_, ?_⟩
  · have hmissing : ∀ (w : SlotWord) (k : Res), panesOp (s.worded w) [z.toNat / 2] k = trapAt (s.worded w) 0x08 0 (grantedWord s.me) :=
      fun w => panesOp_missing (s := s.worded w) (List.mem_singleton.mpr rfl) hnone
    simp only [List.forall_mem_cons, List.not_mem_nil, false_implies, implies_true, and_true]
    refine ⟨fun hi => ?_, fun hi => ?_, fun hi => ?_, fun hi => ?_, fun hi => ?_, fun hi => ?_, fun hi => ?_⟩
    · show execMxa h z a b f qb rv zs s = _
      exact slotOp_traps (fun w => hmissing w _) hi
    · show execMxav h z a f qb rv zs s = _
      exact slotOp_traps (fun w => hmissing w _) hi
    · show execMxrk h z a b f zs s = _
      exact slotOp_traps (fun w => hmissing w _) hi
    · show execMxrd h z a b f rnd s = _
      exact slotOp_traps (fun w => hmissing w _) hi
    · show execMxsvSt h z d s = _
      exact slotOp_traps (fun w => hmissing w _) hi
    · show execMxsvSave h z a b s = _
      exact slotOp_traps (fun w => hmissing w _) hi
    · show execMxsvLd h z a b s = _
      exact slotOp_traps (fun w => hmissing w _) hi
  · rintro pnm lc gw sp tr ⟨p, hp, hset, hnone⟩
    have hmissing : ∀ (w : SlotWord) (k : Res), panesOp (s.worded w) (maskPanes pnm) k = trapAt (s.worded w) 0x08 0 (grantedWord s.me) :=
      fun w => panesOp_missing (s := s.worded w) (mem_maskPanes.mpr ⟨hp, hset⟩) hnone
    simp only [List.forall_mem_cons, List.not_mem_nil, false_implies, implies_true, and_true]
    refine ⟨fun hi => ?_, fun hi => ?_⟩
    · show execMxld h pnm a f lc gw qb tr s = _
      exact slotOp_traps (fun w => hmissing w _) hi
    · show execMxsc h pnm a lc sp s = _
      exact slotOp_traps (fun w => hmissing w _) hi

/-! ## Tiles read too early (09 R176) -/

/-- The done position of a tile. -/
def tileDone (s : State) (n : Nat) : Nat := ((paneOf s s.who.core (mainPane s (n / 2))).tile (n % 2)).done

theorem tileOp_early {s : State} {n : Nat} (h : s.me.icyc.toNat < tileDone s n) (k : Res) :
    tileOp s n k = trapAt s 0x06 0 (BitVec.ofNat 64 n) (BitVec.ofNat 64 (tileDone s n - s.me.icyc.toNat)) := if_pos h

/-- The tiles of the panes of a mask, in their order. -/
theorem tiles_maskPanes : ∀ m : BitVec 4, (maskPanes m).flatMap (fun p => [2 * p, 2 * p + 1]) = (List.range 8).filter (fun n => m.getLsbD (n / 2)) := by decide

/-- The first tile of a release that is not done. -/
theorem firstEarly {s : State} {mk : BitVec 4} {n : Nat} (hn : n < 8) (hset : mk.getLsbD (n / 2) = true)
    (hgrant : (s.me.panes.getD (n / 2) none).isSome = true) (hearly : s.me.icyc.toNat < tileDone s n)
    (hfirst : ∀ m, m < n → mk.getLsbD (m / 2) = true → (s.me.panes.getD (m / 2) none).isSome = true → tileDone s m ≤ s.me.icyc.toNat) :
    ((maskPanes (ownMask s.me mk)).flatMap (fun p => [2 * p, 2 * p + 1])).find? (fun z => decide (s.me.icyc.toNat < tileDone s z)) = some n := by
  rw [tiles_maskPanes, List.find?_filter, List.find?_range_eq_some]
  simp only [decide_eq_true_eq, Bool.not_eq_true', decide_eq_false_iff_not, not_and]
  refine ⟨⟨?_, hearly⟩, List.mem_range.mpr hn, fun m hm hown => ?_⟩
  · rw [getLsbD_ownMask _ _ (by omega), hset, hgrant]
    rfl
  · rw [getLsbD_ownMask _ _ (by omega), Bool.and_eq_true] at hown
    exact Nat.not_lt.mpr (hfirst m hm hown.1 hown.2)

theorem mxpnRel_early {s : State} {h : Hdr} {d : BitVec 5} {mk : BitVec 4} {n : Nat} (hi : Issues (.mxpnRel h d mk) h s)
    (hfits : coverOf s s.who = 3 → mk.toNat < 4)
    (hfirst : ((maskPanes (ownMask s.me mk)).flatMap (fun p => [2 * p, 2 * p + 1])).find? (fun z => decide (s.me.icyc.toNat < tileDone s z)) = some n) :
    exec (.mxpnRel h d mk) s = .next ((s.noted (.mxpnRel h d mk)).raise
      ((s.noted (.mxpnRel h d mk)).slotTrap 0x06 0 (BitVec.ofNat 64 n) (BitVec.ofNat 64 (tileDone s n - s.me.icyc.toNat)))) := by
  show execMxpnRel h d mk s = _
  unfold execMxpnRel
  refine slotOp_traps (fun w => (maskOp_fits (s := s.worded w) hfits _).trans ?_) hi
  dsimp only
  rw [show ((maskPanes (mk &&& (grantedWord (s.worded w).me).setWidth 4)).flatMap (fun p => [2 * p, 2 * p + 1])).find?
    (fun z => decide ((s.worded w).me.icyc.toNat < ((paneOf (s.worded w) (s.worded w).who.core (mainPane (s.worded w) (z / 2))).tile (z % 2)).done)) = some n
    from hfirst]
  rfl

theorem earlyTileReadTraps : Claims.EarlyTileReadTraps := by
  intro s h z rnd a b d f mk doneOf traps
  refine ⟨fun hgrant hearly => ?_, fun n hn hset hgrant hfits hearly hfirst hi => mxpnRel_early hi hfits (firstEarly hn hset hgrant hearly hfirst)⟩
  have htile : ∀ (w : SlotWord) (k : Res), tileOp (s.worded w) z.toNat k =
      trapAt (s.worded w) 0x06 0 (BitVec.ofNat 64 z.toNat) (BitVec.ofNat 64 (doneOf z.toNat - s.me.icyc.toNat)) := fun w => tileOp_early (s := s.worded w) hearly
  have hpane : ∀ (w : SlotWord) (k : Res), panesOp (s.worded w) [z.toNat / 2] k = k := fun w => panesOp_one (s := s.worded w) hgrant
  refine ⟨fun hi => ?_, fun hlow hhigh hi => ?_, fun hword hi => ?_, fun hword hbits hi => ?_⟩
  · show execMxsvSt h z d s = _
    exact slotOp_traps (fun w => (hpane w _).trans (htile w _)) hi
  · show execMxrd h z a b f rnd s = _
    exact slotOp_traps (fun w => (hpane w _).trans ((if_neg (fun hbad => hbad.elim (· hlow) (· hhigh))).trans (htile w _))) hi
  · show execMxsvSave h z a b s = _
    exact slotOp_traps (fun w => (hpane w _).trans ((if_neg (not_not_intro hword)).trans (htile w _))) hi
  · show execMxsvLd h z a b s = _
    exact slotOp_traps (fun w => (hpane w _).trans ((if_neg (fun hbad => hbad.elim (· hword) (· hbits))).trans (htile w _))) hi

/-- Settles O14: each check stands first in its slots. -/
theorem operandTraps : Obligations.OperandTraps := ⟨unboundHeadTraps, ungrantedPaneTraps, earlyTileReadTraps⟩

end Sys2Proof.Machine
end

section
/-!
SUPPORT AND PROOF. What reset leaves (14 R249, R252, R256; 17 R301; 22 R370; 23 R399): every table but memory, its leases and its well bindings is empty;
memory holds the notice wells' blocks, read by their offsets in a cluster's pad.
-/

namespace Sys2Proof.Machine

open State

/-! ## Tables after each other -/

/-- Where two tables stand one after the other, the second is what the first reads as where it lists nothing. -/
theorem SMap.get_append {α : Type} (d : α) (t u : SMap α) (k : Nat) : SMap.get d (t ++ u) k = SMap.get (SMap.get d u k) t k := by
  induction t with
  | nil => rfl
  | cons e t ih => simp only [List.cons_append, SMap.get, ih]

theorem SMap.get_get {α : Type} (d : α) (t : SMap α) (k : Nat) : SMap.get (SMap.get d t k) t k = SMap.get d t k := by
  induction t with
  | nil => rfl
  | cons e t ih =>
    simp only [SMap.get]
    split
    · rfl
    · exact ih

/-! ## The notice wells' blocks (22 R370) -/

/-- The cells of a notice well's block that are not zero, by their offsets in the pad. -/
def noticeOffsets : List Host.Cell := [(0x3FBF81, 0xC0), (0x3FBF82, 0x3F), (0x3FBF88, 0x80), (0x3FBF8C, 0x80)]

theorem mem_noticeBlockCells {cl : Nat} {e : Host.Cell} : e ∈ noticeBlockCells cl ↔ ∃ x ∈ noticeOffsets, (padKey cl x.1, x.2) = e :=
  List.mem_map (f := fun x : Host.Cell => (padKey cl x.1, x.2)) (l := noticeOffsets)

theorem padKey_eq_iff {c d off o : Nat} (hoff : off < 2 ^ 22) (ho : o < 2 ^ 22) : padKey c off = padKey d o ↔ c = d ∧ off = o := by
  unfold padKey
  omega

/-- The block of one cluster, read at an offset of any cluster's pad. -/
theorem get_noticeBlockCells (d : Byte) (cl c : Nat) {off : Nat} (hoff : off < 2 ^ 22) :
    SMap.get d (noticeBlockCells cl) (padKey c off) = if cl = c then SMap.get d noticeOffsets off else d := by
  have hkey {o : Nat} (ho : o < 2 ^ 22) := padKey_eq_iff (c := cl) (d := c) ho hoff
  simp only [noticeBlockCells, noticeOffsets, SMap.get, hkey (show 0x3FBF81 < 2 ^ 22 by decide), hkey (show 0x3FBF82 < 2 ^ 22 by decide),
    hkey (show 0x3FBF88 < 2 ^ 22 by decide), hkey (show 0x3FBF8C < 2 ^ 22 by decide)]
  by_cases hc : cl = c <;> simp [hc]

theorem get_noticeBlocks (d : Byte) (cls : List Nat) (c : Nat) {off : Nat} (hoff : off < 2 ^ 22) :
    SMap.get d (cls.flatMap noticeBlockCells) (padKey c off) = if c ∈ cls then SMap.get d noticeOffsets off else d := by
  induction cls with
  | nil => rfl
  | cons cl cls ih =>
    rw [List.flatMap_cons, SMap.get_append, ih, get_noticeBlockCells _ _ _ hoff]
    by_cases hc : cl = c
    · subst hc
      rw [if_pos rfl, if_pos List.mem_cons_self]
      split
      · exact SMap.get_get ..
      · rfl
    · rw [if_neg hc]
      exact if_congr (by rw [List.mem_cons, or_iff_right (Ne.symm hc)]) rfl rfl

/-- The blocks of clusters in a row are in the canonical order. -/
theorem rising_noticeBlocks (n : Nat) {a lo : Nat} (h : lo ≤ padKey a 0) : SMap.rising lo ((List.range' a n).flatMap noticeBlockCells) = true := by
  induction n generalizing a lo with
  | zero => rfl
  | succ n ih =>
    have hnext : padKey a 0x3FBF8C + 1 ≤ padKey (a + 1) 0 := by unfold padKey; omega
    rw [List.range'_succ, List.flatMap_cons]
    simp only [noticeBlockCells, List.cons_append, List.nil_append, SMap.rising, ih hnext, Bool.and_true, Bool.and_eq_true, decide_eq_true_eq]
    unfold padKey at h ⊢
    omega

theorem wf_mem_reset : Memory.wf State.reset.mem = true := by
  refine SMap.wf_iff.mpr ⟨?_, fun e he => ?_⟩
  · show SMap.rising 0 ((List.range 64).flatMap noticeBlockCells) = true
    rw [List.range_eq_range']
    exact rising_noticeBlocks 64 (Nat.zero_le _)
  · obtain ⟨cl, -, he⟩ := List.mem_flatMap.mp he
    obtain ⟨x, hx, rfl⟩ := mem_noticeBlockCells.mp he
    exact (by decide : ∀ x ∈ noticeOffsets, x.2 ≠ memDefault) x hx

/-- Bytes of a cluster's pad after reset. -/
theorem bytesAt_reset {c : Nat} (hc : c < 64) (off n : Nat) (hoff : off + n ≤ 2 ^ 22) :
    State.reset.bytesAt (padKey c off) n = readRange noticeOffsets off n := by
  show readRange ((List.range 64).flatMap noticeBlockCells) _ n = _
  induction n generalizing off with
  | zero => rfl
  | succ n ih =>
    have hhead := get_noticeBlocks memDefault (List.range 64) c (show off < 2 ^ 22 by omega)
    rw [if_pos (List.mem_range.mpr hc)] at hhead
    exact congrArg₂ List.cons hhead (ih (off + 1) (by omega))

theorem numAt_reset {c : Nat} (hc : c < 64) {off n : Nat} (hoff : off + n ≤ 2 ^ 22) :
    State.reset.numAt (padKey c off) n = ofBytes (readRange noticeOffsets off n) := congrArg ofBytes (bytesAt_reset hc off n hoff)

/-! ## Agents (14 R249, R256; 23 R399) -/

theorem ctx_reset (a : Agent) : State.reset.ctx a = ctxDefault a.key := rfl

theorem ctx_reset_core {core j : Nat} (hj : j < 8) (hcore : core < 512) : State.reset.ctx (.ctx core j) = {} :=
  if_pos (show 8 * core + j < 4096 by omega)
theorem ctx_reset_scribe (c : Nat) : State.reset.ctx (.scribe c) = Ctx.stoppedReset := if_neg (Nat.not_lt.mpr (Nat.le_add_right ..))
theorem ctx_reset_cp (d : Nat) : State.reset.ctx (.cp d) = Ctx.stoppedReset := if_neg (show ¬4160 + d < 4096 by omega)

theorem windows_reset (a : Agent) : (State.reset.ctx a).padwin = 0 ∧ (State.reset.ctx a).vaultwin = 0 := by
  rw [ctx_reset, ctxDefault]
  split <;> exact ⟨rfl, rfl⟩

/-- Settles O6: the empty tables read as their defaults, and each notice well's block by its offsets. -/
theorem resetState : Obligations.ResetState := by
  refine ⟨wf_mem_reset, rfl, fun core j hj hcore => ?_, fun c => ⟨?_, rfl, rfl⟩, fun d => ⟨?_, rfl, rfl, rfl, rfl⟩, fun n => ⟨rfl, rfl, rfl, rfl⟩,
    windows_reset, fun c hc => ⟨?_, ?_, ?_, ?_⟩⟩
  · rw [ctx_reset_core hj hcore]
  · rw [ctx_reset_scribe]; rfl
  · rw [ctx_reset_cp]; rfl
  all_goals
    rw [numAt_reset hc (by decide)]
    rfl

end Sys2Proof.Machine
end
section
/-!
SUPPORT. What the host reads of its windows: a window is a row of fields, and a byte that no field covers reads 0 (23 R389, R394-R396, R402).
-/

namespace Sys2Proof.Machine

open State

/-! ## Windows as rows of fields -/

/-- The fields of a window stand one behind the other. -/
def FieldsApart (fs : List (Nat × List Byte)) : Prop := fs.Pairwise (fun f g => f.1 + f.2.length ≤ g.1)

theorem windowByte_cons (a : Nat) (bs : List Byte) (fs : List (Nat × List Byte)) (off : Nat) :
    windowByte ((a, bs) :: fs) off = if a ≤ off ∧ off < a + bs.length then bs.getD (off - a) 0 else windowByte fs off := by
  unfold windowByte
  rw [List.find?_cons]
  by_cases h : a ≤ off ∧ off < a + bs.length <;> simp [h]

/-- A byte that a field lists is the field's. -/
theorem windowByte_of_mem {fs : List (Nat × List Byte)} (hfs : FieldsApart fs) {a : Nat} {bs : List Byte} (hmem : (a, bs) ∈ fs) {i : Nat}
    (hi : i < bs.length) : windowByte fs (a + i) = bs.getD i 0 := by
  induction fs with
  | nil => cases hmem
  | cons f fs ih =>
    obtain ⟨hhead, htail⟩ := List.pairwise_cons.mp hfs
    rw [windowByte_cons]
    rcases List.mem_cons.mp hmem with rfl | hmem
    · rw [if_pos ⟨Nat.le_add_right .., Nat.add_lt_add_left hi a⟩, Nat.add_sub_cancel_left]
    · have := hhead _ hmem
      rw [if_neg (by omega), ih htail hmem]

/-- A byte behind every field reads 0. -/
theorem windowByte_of_beyond {fs : List (Nat × List Byte)} {off : Nat} (h : ∀ f ∈ fs, f.1 + f.2.length ≤ off) : windowByte fs off = 0 := by
  induction fs with
  | nil => rfl
  | cons f fs ih =>
    have hf := h f List.mem_cons_self
    rw [windowByte_cons, if_neg (by omega), ih (fun g hg => h g (List.mem_cons_of_mem _ hg))]

/-- Where every piece has `n` bytes, byte `n k + i` is byte `i` of piece `k`. -/
theorem getD_flatMap_pieces {α : Type} {n : Nat} {g : α → List Byte} (hg : ∀ x, (g x).length = n) (l : List α) {k i : Nat} (hk : k < l.length) (hi : i < n) :
    (l.flatMap g).getD (n * k + i) 0 = (g l[k]).getD i 0 := by
  induction l generalizing k with
  | nil => cases hk
  | cons x l ih =>
    rw [List.flatMap_cons]
    cases k with
    | zero => rw [Nat.mul_zero, Nat.zero_add, List.getD_append _ _ _ _ (by rw [hg]; exact hi), List.getElem_cons_zero]
    | succ k =>
      rw [List.getD_append_right _ _ _ _ (by rw [hg, Nat.mul_succ]; omega), hg, Nat.mul_succ, show n * k + n + i - n = n * k + i by omega,
        ih (Nat.lt_of_succ_lt_succ hk), List.getElem_cons_succ]

theorem length_flatMap_pieces {α : Type} {n : Nat} {g : α → List Byte} (hg : ∀ x, (g x).length = n) (l : List α) : (l.flatMap g).length = l.length * n := by
  rw [List.length_flatMap, List.map_congr_left (fun x _ => hg x), List.map_const', List.sum_replicate, smul_eq_mul]

/-! ## The fields of the two windows (23 R394, R395) -/

section
variable (s : State)

@[simp] theorem length_idBytes : idBytes.length = 8 := rfl
@[simp] theorem length_bootstatBytes : (bootstatBytes s).length = 8 := length_toBytes ..
@[simp] theorem length_mailboxBytes (m : Mailbox) : (mailboxBytes m).length = 16 := by simp [mailboxBytes]
@[simp] theorem length_perDie (n : Nat) (f : Die → Nat) : (perDie s n f).length = 4 * n := length_flatMap_pieces (fun _ => length_toBytes ..) _

/-- FABCNT takes 64 bytes for each of the 48 ports. -/
@[simp] theorem length_fabcnt : (fabcnt s).length = 0xC00 :=
  length_flatMap_pieces (n := 64) (fun p => by
    rw [List.length_append, length_toBytes, length_flatMap_pieces (fun _ => length_toBytes ..)]
    rfl) (List.range 48)

theorem pfFields_apart : FieldsApart (pfFields s) := by simp [FieldsApart, pfFields]

theorem vfFields_apart (v : Nat) : FieldsApart (vfFields s v) := by
  cases h : s.host.vfRights.getLsbD v <;> simp [FieldsApart, vfFields, h]

/-- The fields of either window end before 0x1C00. -/
theorem fields_end (f : Option Nat) : ∀ x ∈ (f.map (vfFields s)).getD (pfFields s), x.1 + x.2.length ≤ 0x1C00 := by
  cases f with
  | none => simp [pfFields]
  | some v => cases h : s.host.vfRights.getLsbD v <;> simp [vfFields, h]

/-- Without fabric rights a function's window ends before FABCNT. -/
theorem vfFields_end {v : Nat} (h : s.host.vfRights.getLsbD v = false) : ∀ x ∈ vfFields s v, x.1 + x.2.length ≤ 0x1000 := by simp [vfFields, h]

variable {s}

theorem getD_perDie {n : Nat} {f : Die → Nat} {d i : Nat} (hd : d < 4) (hi : i < n) : (perDie s n f).getD (n * d + i) 0 = (toBytes n (f (s.die d))).getD i 0 := by
  rw [perDie, getD_flatMap_pieces (fun _ => length_toBytes ..) _ (by rw [List.length_range]; exact hd) hi, List.getElem_range]

/-! ## Reads (23 R389, R402) -/

/-- Where the package answers, a read receives its window's byte (23 R389, R402). -/
theorem hostByte_answers {f : Option Nat} {off : Nat} (hp : s.powered = true) (h : s.host.boot = 3 → off < if f.isSome then 8 else 16) :
    hostByte s f off = some (windowByte ((f.map (vfFields s)).getD (pfFields s)) off) :=
  if_neg (not_or.mpr ⟨by rw [hp]; decide, fun ⟨hb, hoff⟩ => absurd (h hb) (Nat.not_lt.mpr hoff)⟩)

theorem hostByte_silent {f : Option Nat} {off : Nat} (h : s.powered = false ∨ s.host.boot = 3 ∧ 16 ≤ off) : hostByte s f off = none :=
  if_pos (h.imp (fun hp => by rw [hp]; rfl) (fun hb => ⟨hb.1, by have := hb.2; split <;> omega⟩))

/-- A byte of a field of the PF window. -/
theorem hostByte_pf {a i : Nat} {bs : List Byte} (hmem : (a, bs) ∈ pfFields s) (hi : i < bs.length) (hp : s.powered = true)
    (hboot : s.host.boot = 3 → a + i < 16) : hostByte s none (a + i) = some (bs.getD i 0) := by
  rw [hostByte_answers hp hboot]
  exact congrArg some (windowByte_of_mem (pfFields_apart s) hmem hi)

/-- A byte of a field of a VF window. -/
theorem hostByte_vf {v a i : Nat} {bs : List Byte} (hmem : (a, bs) ∈ vfFields s v) (hi : i < bs.length) (hp : s.powered = true)
    (hboot : s.host.boot = 3 → a + i < 8) : hostByte s (some v) (a + i) = some (bs.getD i 0) := by
  rw [hostByte_answers hp hboot]
  exact congrArg some (windowByte_of_mem (vfFields_apart s v) hmem hi)

/-- A byte of a register that each die has. -/
theorem hostByte_perDie {a d i : Nat} {f : Die → Nat} (hmem : (a, perDie s 8 f) ∈ pfFields s) (hd : d < 4) (hi : i < 8) (hp : s.powered = true)
    (hboot : s.host.boot ≠ 3) : hostByte s none (a + 8 * d + i) = some ((toBytes 8 (f (s.die d))).getD i 0) := by
  rw [Nat.add_assoc, hostByte_pf hmem (by rw [length_perDie]; omega) hp (fun h => absurd h hboot), getD_perDie hd hi]

theorem idBytes_eq : idBytes = toBytes 4 0x90001A9E ++ [Config.stepping, 2, 0, 0] := rfl

/-- ID stands first in either window. -/
theorem hostByte_id {f : Option Nat} {i : Nat} (hi : i < 4) (hp : s.powered = true) : hostByte s f i = some ((toBytes 4 0x90001A9E).getD i 0) := by
  have hlen : i < idBytes.length := Nat.lt_of_lt_of_le hi (by decide)
  have hid : hostByte s f (0 + i) = some (idBytes.getD i 0) := by
    cases f with
    | none => exact hostByte_pf (by simp [pfFields]) hlen hp (fun _ => by omega)
    | some v => exact hostByte_vf (v := v) (by simp [vfFields]) hlen hp (fun _ => by omega)
  rwa [Nat.zero_add, idBytes_eq, List.getD_append _ _ _ _ hi] at hid

section
variable {i d v : Nat} (hp : s.powered = true) (hb : s.host.boot ≠ 3) (hi : i < 8)
include hp hi

/-- BOOTSTAT is read in every boot state. -/
theorem hostByte_bootstat : hostByte s none (8 + i) = some ((bootstatBytes s).getD i 0) :=
  hostByte_pf (by simp [pfFields]) (by rwa [length_bootstatBytes]) hp (fun _ => by omega)

include hb

theorem hostByte_proctab : hostByte s none (0x50 + i) = some ((toBytes 8 s.host.proctab.toNat).getD i 0) :=
  hostByte_pf (by simp [pfFields]) (by rwa [length_toBytes]) hp (absurd · hb)

theorem hostByte_quiesce : hostByte s none (0x58 + i) = some ((toBytes 8 (s.host.quiesce.toNat + s.host.quiesced.toNat * 2)).getD i 0) :=
  hostByte_pf (by simp [pfFields]) (by rwa [length_toBytes]) hp (absurd · hb)

theorem hostByte_tail (hd : d < 4) : hostByte s none (0x10 + 8 * d + i) = some ((toBytes 8 (s.die d).tail.toNat).getD i 0) :=
  hostByte_perDie (f := (·.tail.toNat)) (by simp [pfFields]) hd hi hp hb

theorem hostByte_head (hd : d < 4) : hostByte s none (0x30 + 8 * d + i) = some ((toBytes 8 (s.die d).head.toNat).getD i 0) :=
  hostByte_perDie (f := (·.head.toNat)) (by simp [pfFields]) hd hi hp hb

/-- A VF window's second register names the function and its fabric rights (23 R395). -/
theorem hostByte_vfStatus : hostByte s (some v) (8 + i) = some ((toBytes 8 (v + (s.host.vfRights.getLsbD v).toNat * 2 ^ 5)).getD i 0) :=
  hostByte_vf (by simp [vfFields]) (by rwa [length_toBytes]) hp (absurd · hb)

end

/-- A byte behind every field of a window. -/
theorem hostByte_beyond {f : Option Nat} {off : Nat} (hp : s.powered = true) (hboot : s.host.boot ≠ 3)
    (h : ∀ x ∈ (f.map (vfFields s)).getD (pfFields s), x.1 + x.2.length ≤ off) : hostByte s f off = some 0 := by
  rw [hostByte_answers hp (fun hb => absurd hb hboot), windowByte_of_beyond h]

end

end Sys2Proof.Machine
end

section
/-!
PROOFS. Host steps: command streams and writes to the registers of the host's windows (14 R247; 23 R394-R396, R399, R400, R402).
-/

namespace Sys2Proof.Machine

open State

/-! ## Steps of the host (23 R402) -/

@[simp] theorem State.given_die (s : State) (e : Ev) (n : Nat) : (s.given e).die n = s.die n := rfl

/-- A step of a die of the package, which is no message, has operands that the package can meet. -/
theorem ok_of_die {e : Ev} {d : Nat} (hd : d < 4) (hunit : e.unitOk = decide (d < 4)) (hmsg : e.message = none) : e.ok = true := by
  rw [Ev.ok, Ev.hdrOk, hunit, hmsg, decide_eq_true hd]
  rfl

theorem exec_tail (s : State) {d : Nat} (hd : d < 4) (x : BitVec 64) : exec .tail (s.given (.tail d x)) =
    .next (if s.host.boot = 3 then s.given (.tail d x) else writeTail (s.given (.tail d x)) d x) :=
  (show execTail _ = _ from evStep_given s (.tail d x) (ok_of_die hd rfl rfl) rfl)

theorem exec_stream (s : State) {d : Nat} (hd : d < 4) (x : BitVec 64) : exec .stream (s.given (.stream d x)) =
    .next (if s.host.boot = 3 then s.given (.stream d x) else writeStream (s.given (.stream d x)) d x) :=
  (show execStream _ = _ from evStep_given s (.stream d x) (ok_of_die hd rfl rfl) rfl)

theorem exec_cpctlRun (s : State) {d : Nat} (hd : d < 4) : exec .cpctlRun (s.given (.cpctlRun d)) =
    .next (if s.host.boot = 3 then s.given (.cpctlRun d) else runStream (s.given (.cpctlRun d)) d) :=
  (show execCpctlRun _ = _ from evStep_given s (.cpctlRun d) (ok_of_die hd rfl rfl) rfl)

theorem exec_cpctlStop (s : State) {d : Nat} (hd : d < 4) : exec .cpctlStop (s.given (.cpctlStop d)) =
    .next (if s.host.boot = 3 then s.given (.cpctlStop d) else stopStream (s.given (.cpctlStop d)) d) :=
  (show execCpctlStop _ = _ from evStep_given s (.cpctlStop d) (ok_of_die hd rfl rfl) rfl)

/-- What a command processor knows of its tail once it has seen a write of it. -/
def seeTail (x : BitVec 64) (e : Die) : Die := if e.seen.toNat < x.toNat ∧ x.toNat ≤ e.tail.toNat then { e with seen := x } else e

theorem exec_streamWake (s : State) {d : Nat} (hd : d < 4) (x : BitVec 64) :
    exec .streamWake (s.given (.streamWake d x)) = .next ((s.given (.streamWake d x)).modDie d (seeTail x)) :=
  (show execStreamWake _ = _ from evStep_given s (.streamWake d x) (ok_of_die hd rfl rfl) rfl)

theorem exec_hostRegisterWrite_pf {s t : State} {off : Nat} {x : BitVec 64} (hb : s.host.boot ≠ 3) (ht : writePf (s.given (.hostRegisterWrite none off x)) off x = t) :
    exec .hostRegisterWrite (s.given (.hostRegisterWrite none off x)) = .next t :=
  (show execHostRegisterWrite _ = _ from evStep_given s (.hostRegisterWrite none off x) rfl rfl).trans (congrArg _ ((if_neg hb).trans ht))

/-- A write to the mailbox block of a virtual function. -/
def writeVf (s : State) (v off : Nat) (x : BitVec 64) : State :=
  s.modHost (fun h => { h with vfMbox := h.vfMbox.put {} v (writeMailbox (h.vfMbox.get {} v) off x) })

theorem exec_hostRegisterWrite_vf (s : State) {v : Nat} (hv : v < 32) (off : Nat) (x : BitVec 64) (hb : s.host.boot ≠ 3) :
    exec .hostRegisterWrite (s.given (.hostRegisterWrite (some v) off x)) = .next (writeVf (s.given (.hostRegisterWrite (some v) off x)) v off x) :=
  (show execHostRegisterWrite _ = _ from
    evStep_given s (.hostRegisterWrite (some v) off x) (by simp [Ev.ok, Ev.unitOk, Ev.hdrOk, Ev.message, hv]) rfl).trans (congrArg _ (if_neg hb))

/-! ## Command streams (14 R247; 23 R399, R400) -/

section
variable {s : State} {d : Nat} {x : BitVec 64}

/-- The 57-bit bundle address in a word written to STREAM. -/
theorem streamAddr_eq_and (x : BitVec 64) : BitVec.ofNat 64 (wbits x 56 2 * 4) = x &&& 0x1FFFFFFFFFFFFFC := by
  have hbits : x.toNat / 2 ^ 2 % 2 ^ 55 * 2 ^ 2 = x.toNat &&& (2 ^ 55 - 1) * 2 ^ 2 := by
    refine Nat.eq_of_testBit_eq (fun i => ?_)
    simp only [Nat.testBit_mul_two_pow, Nat.testBit_mod_two_pow, Nat.testBit_div_two_pow, Nat.testBit_and, Nat.testBit_two_pow_sub_one]
    by_cases hi : 2 ≤ i
    · simp [hi, Bool.and_comm]
    · simp [hi]
  refine BitVec.eq_of_toNat_eq ?_
  rw [BitVec.toNat_and, BitVec.toNat_ofNat]
  exact (Nat.mod_eq_of_lt (by unfold wbits bits; omega)).trans hbits

theorem writeTail_higher (h : (s.die d).tail.toNat < x.toNat) :
    writeTail s d x = (s.modDie d (fun e => { e with tail := x })).after 2 (.streamWake d x) := if_neg (Nat.not_le.mpr h)

theorem writeTail_lower (h : x.toNat ≤ (s.die d).tail.toNat) : writeTail s d x = s := if_pos h

/-- A write of STREAM to a command processor that does not run. -/
theorem writeStream_stopped (h : (s.ctx (.cp d)).st ≠ .front) : ∃ p, writeStream s d x = (s.unschedule p).modDie d (fun e =>
    { e with stream := x &&& 0x1FFFFFFFFFFFFFC, head := x &&& 0x1FFFFFFFFFFFFFC, tail := x &&& 0x1FFFFFFFFFFFFFC, seen := x &&& 0x1FFFFFFFFFFFFFC, moved := true }) := by
  rw [writeStream, streamAddr_eq_and, if_neg h]
  exact ⟨_, rfl⟩

/-- The next bundle of a command processor that its run bit starts. -/
def runPc (s : State) (d : Nat) : BitVec 64 := if (s.die d).moved then (s.die d).stream else (s.ctx (.cp d)).live.c.pc

theorem runStream_stopped (h : (s.ctx (.cp d)).st ≠ .front) :
    ((runStream s d).ctx (.cp d)).st = .front ∧ ((runStream s d).ctx (.cp d)).live.c.pc = runPc s d ∧
      ((runStream s d).ctx (.cp d)).live.s = (s.ctx (.cp d)).live.s ∧
      (runStream s d).die d = { s.die d with run := true, moved := false, head := runPc s d } ∧ (runStream s d).mem = s.mem := by
  rw [runStream, if_neg h, runPc]
  cases hm : (s.die d).moved <;> simp [resume, Agent.onCore]

theorem stopStream_running (h : (s.ctx (.cp d)).st = .front) :
    stopStream s d = s.modCtx (.cp d) (fun c => { c with stopReq := c.stopReq.or (some (0x70, 0)) }) := by
  rw [stopStream, if_pos h, requestStop, if_pos (by rw [h]; decide)]

theorem seeTail_sees {e : Die} (hseen : e.seen.toNat < x.toNat) (htail : x.toNat ≤ e.tail.toNat) : seeTail x e = { e with seen := x } := if_pos ⟨hseen, htail⟩

end

theorem streamEventResults : Claims.StreamEventResults := by
  intro s d x hd a
  refine ⟨fun hb => ⟨fun htail => ?_, fun htail => ?_, fun hst => ⟨?_, ?_⟩, fun hst => ?_⟩, fun hb e he => ?_, fun hseen htail => ?_⟩
  · refine ⟨_, (exec_tail s hd x).trans (congrArg _ ((if_neg hb).trans (writeTail_higher htail))), ?_, mem_agendaInsert.mpr (.inl rfl), rfl, rfl⟩
    rw [die_after_other, die_modDie]
  · exact (exec_tail s hd x).trans (congrArg _ ((if_neg hb).trans (writeTail_lower htail)))
  · obtain ⟨p, hp⟩ := writeStream_stopped (s := s.given (.stream d x)) (x := x) hst
    refine ⟨_, (exec_stream s hd x).trans (congrArg _ ((if_neg hb).trans hp)), ?_⟩
    rw [die_modDie]
    exact ⟨rfl, rfl, rfl, rfl, rfl, rfl, rfl⟩
  · obtain ⟨hfront, hpc, hregs, hdie, hmem⟩ := runStream_stopped (s := s.given (.cpctlRun d)) hst
    refine ⟨_, (exec_cpctlRun s hd).trans (congrArg _ (if_neg hb)), hfront, ?_, ?_, hpc, ?_, hregs, hmem⟩
    all_goals rw [hdie]
    exact hpc.symm
  · refine ⟨_, (exec_cpctlStop s hd).trans (congrArg _ ((if_neg hb).trans (stopStream_running (s := s.given (.cpctlStop d)) hst))), ?_⟩
    rw [ctx_modCtx]
    exact ⟨hst, rfl, rfl, rfl⟩
  · simp only [List.mem_cons, List.not_mem_nil, or_false] at he
    rcases he with rfl | rfl | rfl | rfl
    · exact (exec_tail s hd x).trans (congrArg _ (if_pos hb))
    · exact (exec_stream s hd x).trans (congrArg _ (if_pos hb))
    · exact (exec_cpctlRun s hd).trans (congrArg _ (if_pos hb))
    · exact (exec_cpctlStop s hd).trans (congrArg _ (if_pos hb))
  · refine ⟨_, exec_streamWake s hd x, ?_⟩
    rw [die_modDie, given_die, seeTail_sees hseen htail]
    exact ⟨rfl, rfl, rfl, rfl⟩

/-! ## Writes to the windows (23 R394-R396) -/

section
variable (s : State) {d : Nat} (x : BitVec 64)

/-- The bits of a base register: [51:lo] and the enable bit. -/
theorem baseBits_eq (lo : Nat) (hlo : lo ≤ 52) : baseBits x lo = BitVec.ofNat 64 (x.toNat % 2 ^ 52 / 2 ^ lo * 2 ^ lo + x.toNat % 2) := by
  rw [baseBits, wbits, wbits, bits, bits, ← Nat.mod_mul_right_div_self, ← Nat.pow_add, Nat.add_sub_cancel' hlo, Nat.pow_zero, Nat.div_one,
    Nat.zero_add, Nat.sub_zero, Nat.pow_one]

/-- The die of a register at its place in a row. -/
theorem die_of_offset (base d : Nat) {w : Nat} (hw : 0 < w) : (base + w * d - base) / w = d := by
  rw [Nat.add_sub_cancel_left, Nat.mul_div_cancel_left _ hw]

theorem writePf_tail (hd : d < 4) : writePf s (0x10 + 8 * d) x = s.at_ s.cc (.tail d x) := by
  rw [writePf, if_pos (by omega)]
  exact congrArg (fun k => s.at_ s.cc (.tail k x)) (die_of_offset _ d (by decide))

theorem writePf_proctab : writePf s 0x50 x = s.modHost (fun h => { h with proctab := baseBits x 13 }) := rfl

theorem writePf_quiesce : writePf s 0x58 x = s.at_ s.cc (if x.getLsbD 0 then .quiesceRequest else .quiesceWithdraw) := rfl

theorem writePf_cpring (hd : d < 4) : writePf s (0x60 + 8 * d) x = s.modDie d (fun e => { e with cpring := baseBits x 15 }) := by
  rw [writePf, if_neg (by omega), if_neg (by omega), if_neg (by omega), if_pos (by omega)]
  exact congrArg (s.modDie · _) (die_of_offset _ d (by decide))

theorem writePf_cpcons (hd : d < 4) : writePf s (0x90 + 4 * d) x = s.modDie d (fun e => { e with cpcons := x.setWidth 32 }) := by
  rw [writePf, if_neg (by omega), if_neg (by omega), if_neg (by omega), if_neg (by omega), if_pos (by omega)]
  exact congrArg (s.modDie · _) (die_of_offset _ d (by decide))

theorem writePf_stream (hd : d < 4) : writePf s (0xC0 + 8 * d) x = s.at_ s.cc (.stream d x) := by
  rw [writePf, if_neg (by omega), if_neg (by omega), if_neg (by omega), if_neg (by omega), if_neg (by omega), if_neg (by omega), if_pos (by omega)]
  exact congrArg (fun k => s.at_ s.cc (.stream k x)) (die_of_offset _ d (by decide))

/-- Schedule a step in this cc for every die whose bit is set. -/
def atBits (s : State) (b : Nat → Bool) (e : Nat → Ev) : State := (List.range 4).foldl (fun (s : State) d => if b d then s.at_ s.cc (e d) else s) s

theorem writePf_cpctl : writePf s 0xB0 x = atBits (atBits s x.getLsbD .cpctlRun) (fun d => x.getLsbD (4 + d)) .cpctlStop := rfl

/-- The mailbox block lies between the registers of the dies. -/
theorem writePf_mailbox {off : Nat} (hoff : 0xA0 ≤ off ∧ off < 0xB0) : writePf s off x = s.modHost (fun h => { h with mbox := writeMailbox h.mbox off x }) := by
  rw [writePf, if_neg (by omega), if_neg (by omega), if_neg (by omega), if_neg (by omega), if_neg (by omega), if_neg (by omega), if_neg (by omega)]

/-- What scheduling in this cc leaves: time and dies, and every step that was scheduled. -/
structure AgendaGrows (s t : State) : Prop where
  cc : t.cc = s.cc
  dies : t.dies = s.dies
  agenda : ∀ y ∈ s.agenda, y ∈ t.agenda

variable {s}

theorem AgendaGrows.at_ {t : State} (h : AgendaGrows s t) (n : Nat) (e : Ev) : AgendaGrows s (t.at_ n e) :=
  ⟨h.cc, h.dies, fun y hy => mem_agendaInsert.mpr (.inr (h.agenda y hy))⟩

theorem agendaGrows_atBits (b : Nat → Bool) (e : Nat → Ev) : AgendaGrows s (atBits s b e) :=
  List.foldlRecOn _ _ ⟨rfl, rfl, fun _ h => h⟩ (fun u hu d _ => by
    split
    · exact hu.at_ ..
    · exact hu)

theorem mem_agenda_atBits {b : Nat → Bool} {e : Nat → Ev} (hd : d < 4) (hb : b d = true) : (s.cc, e d) ∈ (atBits s b e).agenda := by
  refine foldl_reaches (P := fun t : State => (s.cc, e d) ∈ t.agenda) (Q := fun t : State => t.cc = s.cc) (List.mem_range.mpr hd) rfl
    (fun t k ht => ?_) (fun t k ht => ?_) (fun t ht => ?_)
  · split
    · exact ht
    · exact ht
  · split
    · exact mem_agendaInsert.mpr (.inr ht)
    · exact ht
  · rw [if_pos hb, ht]
    exact mem_agendaInsert.mpr (.inl rfl)

end

theorem writeMailbox_base (m : Mailbox) (x : BitVec 64) : writeMailbox m 0xA0 x =
    { m with base := BitVec.ofNat 64 (x.toNat % 2 ^ 52 / 2 ^ 13 * 2 ^ 13 + x.toNat % 2) } := by
  rw [← baseBits_eq x 13 (by decide)]
  rfl

theorem writeMailbox_cons (m : Mailbox) (x : BitVec 64) : writeMailbox m 0xAC x = { m with cons := x.setWidth 32 } := rfl

/-- A VF window's write changes that function's mailbox block alone. -/
theorem vfMbox_writeVf (s : State) (v off : Nat) (x : BitVec 64) :
    (writeVf s v off x).host.vfMbox.get {} v = writeMailbox (s.host.vfMbox.get {} v) off x ∧
      (∀ u, u ≠ v → (writeVf s v off x).host.vfMbox.get {} u = s.host.vfMbox.get {} u) ∧ (writeVf s v off x).host.mbox = s.host.mbox ∧
      (writeVf s v off x).dies = s.dies ∧ (writeVf s v off x).ctxs = s.ctxs ∧ (writeVf s v off x).mem = s.mem :=
  ⟨SMap.get_put_same .., fun _ hu => SMap.get_put_ne _ _ _ hu.symm, rfl, rfl, rfl, rfl⟩

theorem hostRegisterResults : Claims.HostRegisterResults := by
  refine ⟨fun s x d vf hb hd hvf => ?writes, fun s f off i => ⟨fun hp => hostByte_silent (.inl hp), fun hp => ?reads⟩⟩
  case reads =>
    refine ⟨fun hi => hostByte_id hi hp, hostByte_bootstat hp, fun hb hoff => hostByte_silent (.inr ⟨hb, hoff⟩), fun hb => ⟨fun hi => ?_, fun hi d hd => ?_, ?_,
      fun hoff => hostByte_beyond hp hb (fun x hx => (fields_end s f x hx).trans hoff)⟩⟩
    · exact ⟨hostByte_proctab hp hb hi, hostByte_quiesce hp hb hi⟩
    · exact ⟨hostByte_tail hp hb hi hd, hostByte_head hp hb hi hd⟩
    · rintro v rfl
      exact ⟨hostByte_vfStatus (i := 0) hp hb (by decide),
        fun hrights hoff => hostByte_beyond hp hb (fun x hx => (vfFields_end s hrights x hx).trans hoff)⟩
  intro w base
  refine ⟨⟨_, exec_hostRegisterWrite_pf hb (writePf_proctab ..), baseBits_eq x 13 (by decide), rfl, rfl⟩,
    ⟨_, exec_hostRegisterWrite_pf hb (writePf_cpring _ x hd), ?_, rfl, rfl⟩,
    ⟨_, exec_hostRegisterWrite_pf hb (writePf_cpcons _ x hd), ?_, rfl, rfl⟩,
    ⟨_, exec_hostRegisterWrite_pf hb (writePf_mailbox _ x (by decide)), writeMailbox_base .., rfl, rfl⟩,
    ⟨_, exec_hostRegisterWrite_pf hb (writePf_mailbox _ x (by decide)), writeMailbox_cons .., rfl, rfl⟩,
    ⟨_, exec_hostRegisterWrite_pf hb (writePf_tail _ x hd), mem_agendaInsert.mpr (.inl rfl), rfl⟩,
    ⟨_, exec_hostRegisterWrite_pf hb (writePf_stream _ x hd), mem_agendaInsert.mpr (.inl rfl), rfl⟩,
    ⟨_, exec_hostRegisterWrite_pf hb (writePf_quiesce ..), mem_agendaInsert.mpr (.inl rfl), rfl⟩, ?_, ?_, ?_⟩
  · rw [die_modDie]
    exact baseBits_eq x 15 (by decide)
  · rw [die_modDie]
  · have hruns : AgendaGrows (w none 0xB0) _ := agendaGrows_atBits x.getLsbD .cpctlRun
    have hcc : (atBits (w none 0xB0) x.getLsbD .cpctlRun).cc = s.cc := hruns.cc
    have hstops := agendaGrows_atBits (s := atBits (w none 0xB0) x.getLsbD .cpctlRun) (fun k => x.getLsbD (4 + k)) .cpctlStop
    refine ⟨_, exec_hostRegisterWrite_pf hb (writePf_cpctl ..), fun hrun => ?_, fun hstop => ?_, hstops.dies.trans hruns.dies⟩
    · exact hstops.agenda _ (mem_agenda_atBits (s := w none 0xB0) (e := .cpctlRun) hd hrun)
    · exact hcc ▸ mem_agenda_atBits (e := .cpctlStop) hd hstop
  · obtain ⟨hown, hframe⟩ := vfMbox_writeVf (w (some vf) 0xA0) vf 0xA0 x
    exact ⟨_, exec_hostRegisterWrite_vf s hvf 0xA0 x hb, hown.trans (writeMailbox_base ..), hframe⟩
  · obtain ⟨hown, hframe⟩ := vfMbox_writeVf (w (some vf) 0xAC) vf 0xAC x
    exact ⟨_, exec_hostRegisterWrite_vf s hvf 0xAC x hb, hown.trans (writeMailbox_cons ..), hframe⟩

/-- Settles O58: a host step is its operation unless BOOTSTAT is 3; a write finds its register by its place, and a read finds the one field that covers its byte. -/
theorem hostEventResults : Obligations.HostEventResults := ⟨streamEventResults, hostRegisterResults⟩

end Sys2Proof.Machine
end

section
/-!
PROOF. Copy channels (15 R273, R275, R276): O53, whose claim that a halt changes no memory a channel with a destination well refutes.
-/

namespace Sys2Proof.Machine

/-- The key of the well block at offset 0 of cluster 0's pad. -/
def haltedWell : Nat := padKey 0 0

/-- Channel 0 of cluster 0 runs and holds the producer role of a well; a byte of the block's BIND field is not zero (12 R229). -/
def copyToWell : State :=
  { clusters := [(0, { chans := [(0, { st := .running, well := some haltedWell })] })]
    wells := [(haltedWell, { prod := some (.chan 0 0) })], mem := [(haltedWell + 0x20, 1)] }

/-- The halt ends the role, and the unbound block's BIND field is zero. -/
theorem copyToWell_unbinds : byteLeft (haltedWell + 0x20) (exec .copyChannelHalt (copyToWell.given (.copyChannelHalt 0 0 0x40 4 0 0))) = some 0 := by
  decide +kernel

/-- Refutes O53: the claim has a channel's halt change no memory. A channel that delivers into a well holds the well's producer role; its halt ends that role, and
the BIND field of a block whose roles have ended becomes zero (12 R229, R231; 15 R273). -/
theorem not_copyEventResults : ¬ Obligations.CopyEventResults := by
  rintro ⟨hcopy, -⟩
  obtain ⟨-, -, hhalt⟩ := hcopy copyToWell 0 0 (by decide) (by decide)
  obtain ⟨t, ht, hmem, -⟩ := hhalt 0x40 4 0 0 (by decide)
  have hleft := copyToWell_unbinds
  rw [ht, byteLeft, State.byteAt, hmem] at hleft
  exact absurd hleft (by decide +kernel)

end Sys2Proof.Machine
end

section
/-!
PROOF. Engine slots (15 R267-R287): starts that are withheld, reads that freeze: O39.
-/

namespace Sys2Proof.Machine

open State

/-- The low field of a word that it holds is the word. -/
theorem wbits_below {x : Word} {n : Nat} (h : x.toNat < 2 ^ (n + 1)) : wbits x n 0 = x.toNat := by
  rw [wbits, bits, Nat.pow_zero, Nat.div_one, Nat.sub_zero, Nat.mod_eq_of_lt h]

theorem wbits_half (x : Word) : wbits x 15 0 = x.toNat % 65536 := by
  rw [wbits, bits, Nat.pow_zero, Nat.div_one]
  norm_num

section
variable {s : State} {h : Hdr} {a b d : BitVec 5} {cl : Nat}

/-- A slot that issues and whose action withholds an effect, while the buffer has room. -/
theorem slotOp_withholds {i : Instr} {k : State → Res} {e : Effect} {r : List Word} (hroom : s.room)
    (hk : ∀ w, k (s.worded w) = withhold (s.worded w) e r) (hi : Issues i h s) : slotOp i h s k = .next (s.withholds i e r) :=
  slotOp_worded (f := fun u => u.addHeld e r) (fun w => (hk w).trans (withhold_room (s := s.worded w) hroom e r)) hi

/-- A slot that issues has its action's outcome, where that follows from a fact about the state with its word noted, whatever the word. -/
theorem slotOp_ends_in {i : Instr} {k : State → Res} {r : Res} {Q : State → Prop} (hi : Issues i h s) (hQ : Q (s.noted i))
    (hk : ∀ w, Q (s.worded w) → k (s.worded w) = r) : slotOp i h s k = r := (slotOp_issues hi k).trans (hk _ hQ)

/-! ## Copy channels and the carve (15 R272, R275, R277) -/

theorem exec_cpchGo (hroom : s.room) (hcl : s.who.cluster? = some cl) (hy : (s.rs b).toNat < 32) (hal : (s.rs a).toNat % 64 = 0)
    (hch : chanCode (chanOf s cl (wbits (s.rs b) 3 0)) ≠ 1) (hi : Issues (.cpchGo h a b) h s) :
    exec (.cpchGo h a b) s = .next ((modChan (s.noted (.cpchGo h a b)) cl (wbits (s.rs b) 3 0) (fun c => { c with reserved := some s.who })).addHeld
      (.cpchGo cl (wbits (s.rs b) 3 0) (s.rs a) ((s.rs b).getLsbD 4)) [s.rs a, s.rs b]) := by
  show execCpchGo h a b s = _
  unfold execCpchGo
  refine slotOp_worded (f := fun u => (modChan u cl (wbits (s.rs b) 3 0) (fun c => { c with reserved := some s.who })).addHeld
      (.cpchGo cl (wbits (s.rs b) 3 0) (s.rs a) ((s.rs b).getLsbD 4)) [s.rs a, s.rs b]) (fun w => ?_) hi
  refine (if_neg (not_not_intro (wbits_above (lo := 5) 63 hy))).trans ((ownCluster_goes (s := s.worded w) hcl _ _).trans ?_)
  refine (if_neg hch).trans ((if_neg (not_not_intro hal)).trans ?_)
  exact withhold_room (s := modChan (s.worded w) _ _ _) hroom _ _

theorem exec_cpchStop (hroom : s.room) (hcl : s.who.cluster? = some cl) (hmine : otherTask s (chanOf s cl (wbits (s.rs a) 3 0)) = false)
    (hi : Issues (.cpchStop h a) h s) :
    exec (.cpchStop h a) s = .next (s.withholds (.cpchStop h a) (.cpchStop cl (wbits (s.rs a) 3 0)) [s.rs a]) := by
  show execCpchStop h a s = _
  unfold execCpchStop
  exact slotOp_withholds hroom (fun w => (ownCluster_goes (s := s.worded w) hcl _ _).trans (if_neg (ne_true_of_eq_false hmine))) hi

theorem exec_cpchSt (hcl : s.who.cluster? = some cl) (hi : Issues (.cpchSt h d a) h s) :
    exec (.cpchSt h d a) s = .next (s.leaves (.cpchSt h d a) 2 [s.wS d
      (let c := chanOf s cl (wbits (s.rs a) 3 0)
       BitVec.ofNat 64 (chanCode c + c.cause * 2 ^ 2 + c.reason * 2 ^ 9 + c.done % 2 ^ 48 * 2 ^ 16))]) := by
  show execCpchSt h d a s = _
  unfold execCpchSt
  exact slotOp_leaves (fun w => ownCluster_goes (s := s.worded w) hcl _ _) hi

theorem exec_memcPhase (hroom : s.room) (hcl : s.who.cluster? = some cl) (hx : (s.rs a).toNat ≤ 12) (hy : (s.rs b).toNat < 128)
    (hwin : s.who.onCore = true → s.me.vaultwin.getLsbD 48 = true) (hi : Issues (.memcPhase h a b) h s) :
    exec (.memcPhase h a b) s = .next (s.withholds (.memcPhase h a b)
      (.phase cl (s.rs a).toNat (if (s.rs b).getLsbD 6 then some (wbits (s.rs b) 5 0) else none)) [s.rs a, s.rs b]) := by
  show execMemcPhase h a b s = _
  unfold execMemcPhase
  refine slotOp_withholds hroom (fun w => (if_neg (Nat.not_lt.mpr hx)).trans ((if_neg (not_not_intro (wbits_above (lo := 7) 63 hy))).trans ?_)) hi
  refine (ownCluster_goes (s := s.worded w) hcl _ _).trans (if_neg ?_)
  exact fun hshut => bang_false (hwin hshut.1) hshut.2

/-! ## Invalidations and coded regions (15 R278-R280) -/

theorem exec_memcRinv {sc : BitVec 3} (hroom : s.room) (hy : (s.rs b).toNat < 2 ^ 50) (hbar : s.rs d = 0) (hi : Issues (.memcRinv h d a b sc) h s) :
    exec (.memcRinv h d a b sc) s = .next (s.withholds (.memcRinv h d a b sc)
      (.rinv sc.toNat (s.rs a) (wbits (s.rs b) 39 0) none 0 (wbits (s.rs b) 47 40)) [s.rs d, s.rs a, s.rs b]) := by
  show execMemcRinv h d a b sc s = _
  unfold execMemcRinv
  exact slotOp_withholds hroom (fun w => (if_neg (not_not_intro (wbits_above (lo := 50) 63 hy))).trans (if_pos hbar)) hi

/-- A translation leaves the withheld-store buffer as it was. -/
theorem room_of_unsampled {t : State} (hroom : s.room) (hu : t.unsampled = s.unsampled) : t.room :=
  room_of_held hroom (congrArg Ctx.held (me_of_unsampled hu))

/-- A translation leaves the scalar registers as they were. -/
theorem rs_of_unsampled {t : State} (hu : t.unsampled = s.unsampled) (r : BitVec 5) : t.rs r = s.rs r := by
  simp only [State.rs, State.regs, State.rot]
  rw [me_of_unsampled hu]

theorem exec_memcRinv_arrives {sc : BitVec 3} {l : Loc} {s' : State} (hroom : s.room) (hy : (s.rs b).toNat < 2 ^ 50) (hbar : s.rs d ≠ 0)
    (hal : (s.rs d).toNat % 64 = 0) (hi : Issues (.memcRinv h d a b sc) h s)
    (hres : resolve (s.noted (.memcRinv h d a b sc)) s.who .atomic (Space.ofCode ((s.rs b).extractLsb' 48 2)) (s.rs d) 64 = .ok (l, s'))
    (hnear : l.fabric = false) :
    exec (.memcRinv h d a b sc) s = .next (s'.addHeld
      (.rinv sc.toNat (s.rs a) (wbits (s.rs b) 39 0) (some l) (s.rs d) (wbits (s.rs b) 47 40)) [s.rs d, s.rs a, s.rs b]) := by
  show execMemcRinv h d a b sc s = _
  unfold execMemcRinv
  refine slotOp_ends_in (Q := fun u => resolve u s.who .atomic (Space.ofCode ((s.rs b).extractLsb' 48 2)) (s.rs d) 64 = .ok (l, s')) hi hres
    (fun w hres => ?_)
  refine (if_neg (not_not_intro (wbits_above (lo := 50) 63 hy))).trans ((if_neg hbar).trans ((objectOp_goes hal hres hnear _).trans ?_))
  have hu : s'.unsampled = (s.worded w).unsampled := resolve_translates _ _ _ _ _ _ _ _ hres
  rw [rs_of_unsampled hu]
  exact withhold_room (room_of_unsampled (s := s.worded w) hroom hu) _ _

theorem exec_memcCreg (hroom : s.room) (hx : (s.rs a).toNat < 64) (hy : (s.rs b).toNat < 8) (hi : Issues (.memcCreg h a b) h s) :
    exec (.memcCreg h a b) s = .next (s.withholds (.memcCreg h a b) (.creg (s.procOf s.who * 64 + (s.rs a).toNat) (s.rs b)) [s.rs a, s.rs b]) := by
  have hlow : wbits (s.rs a) 5 0 = (s.rs a).toNat := wbits_below hx
  show execMemcCreg h a b s = _
  unfold execMemcCreg
  rw [← hlow]
  exact slotOp_withholds hroom
    (fun w => (if_neg (not_not_intro (wbits_above (lo := 6) 63 hx))).trans (if_neg (not_not_intro (wbits_above (lo := 3) 63 hy)))) hi

theorem exec_memcCerr {segs : List (Loc × Nat)} {s' : State} (hroom : s.room) (hhigh : wbits (s.rs a) 63 10 = 0) (hmid : wbits (s.rs a) 7 6 = 0)
    (hi : Issues (.memcCerr h a b) h s)
    (hres : resolveAccess (s.noted (.memcCerr h a b)) .store (Space.ofCode ((s.rs a).extractLsb' 8 2)) (s.rs b) 32 32 = .ok (segs, s')) :
    exec (.memcCerr h a b) s = .next (s'.addHeld
      (.cerr (s.procOf s.who * 64 + wbits (s.rs a) 5 0) (cutPieces segs (List.replicate 32 0))) [s.rs a, s.rs b]) := by
  show execMemcCerr h a b s = _
  unfold execMemcCerr
  refine slotOp_ends_in
    (Q := fun u => resolveAccess u .store (Space.ofCode ((s.rs a).extractLsb' 8 2)) (s.rs b) 32 32 = .ok (segs, s')) hi hres (fun w hres => ?_)
  have hu : s'.unsampled = (s.worded w).unsampled := resolveAccess_translates _ _ _ _ _ _ _ _ hres
  have hproc : s'.procOf s'.who = s.procOf s.who := by
    unfold State.procOf
    rw [who_of_unsampled hu, ctx_of_unsampled hu]
    rfl
  refine (if_neg (fun hbad => hbad.elim (· hhigh) (· hmid))).trans ?_
  have hres' : resolveAccess (s.worded w) .store (Space.ofCode (((s.worded w).rs a).extractLsb' 8 2)) ((s.worded w).rs b) 32 32 = .ok (segs, s') := hres
  rw [hres']
  show withhold s' (.cerr (s'.procOf s'.who * 64 + wbits (s.rs a) 5 0) (cutPieces segs (List.replicate 32 0))) [s.rs a, s.rs b] = _
  rw [hproc]
  exact withhold_room (room_of_unsampled (s := s.worded w) hroom hu) _ _

/-! ## Ring engines and the schedule table (15 R282-R287) -/

/-- An engine start whose block is aligned is withheld. -/
theorem blockStart_withholds {i : Instr} {al : Nat} (hroom : s.room) (hal : (s.rs a).toNat % al = 0) (e : BitVec 64 → Effect) (hi : Issues i h s) :
    blockStart i h a al s e = .next (s.withholds i (e (s.rs a)) [s.rs a]) := by
  unfold blockStart
  exact slotOp_withholds hroom (fun w => if_neg (not_not_intro hal)) hi

theorem exec_rsemSet (hroom : s.room) (hx : (s.rs a).toNat < 256) (hi : Issues (.rsemSet h a b) h s) :
    exec (.rsemSet h a b) s = .next (s.withholds (.rsemSet h a b)
      (.rsem s.who.die (s.rs a).toNat false ((s.rs b).toNat % 65536)) [s.rs a, s.rs b]) := by
  have hlow : wbits (s.rs a) 7 0 = (s.rs a).toNat := wbits_below hx
  show execRsemSet h a b s = _
  unfold execRsemSet
  rw [← hlow, ← wbits_half]
  exact slotOp_withholds hroom (fun w => if_neg (not_not_intro (wbits_above (lo := 8) 63 hx))) hi

theorem exec_rsemAdd (hroom : s.room) (hx : (s.rs a).toNat < 256) (hi : Issues (.rsemAdd h a b) h s) :
    exec (.rsemAdd h a b) s = .next (s.withholds (.rsemAdd h a b)
      (.rsem s.who.die (s.rs a).toNat true ((s.rs b).toNat % 65536)) [s.rs a, s.rs b]) := by
  have hlow : wbits (s.rs a) 7 0 = (s.rs a).toNat := wbits_below hx
  show execRsemAdd h a b s = _
  unfold execRsemAdd
  rw [← hlow, ← wbits_half]
  exact slotOp_withholds hroom (fun w => if_neg (not_not_intro (wbits_above (lo := 8) 63 hx))) hi

theorem exec_stabWr (hroom : s.room) (hal : (s.rs a).toNat % 32 = 0) (hy : (s.rs b).toNat < 256) (hi : Issues (.stabWr h a b) h s) :
    exec (.stabWr h a b) s = .next (s.withholds (.stabWr h a b) (.stabWr (s.rs b).toNat (s.rs a)) [s.rs a, s.rs b]) := by
  show execStabWr h a b s = _
  unfold execStabWr
  exact slotOp_withholds hroom (fun w => (if_neg (not_not_intro (wbits_above (lo := 8) 63 hy))).trans (if_neg (not_not_intro hal))) hi

theorem exec_stabGo (hroom : s.room) (hx : (s.rs a).toNat < 256) (hi : Issues (.stabGo h a) h s) :
    exec (.stabGo h a) s = .next (s.withholds (.stabGo h a) (.stabGo (s.rs a).toNat) [s.rs a]) := by
  show execStabGo h a s = _
  unfold execStabGo
  exact slotOp_withholds hroom (fun w => if_neg (not_not_intro (wbits_above (lo := 8) 63 hx))) hi

theorem exec_stabStop (hroom : s.room) (hi : Issues (.stabStop h) h s) : exec (.stabStop h) s = .next (s.withholds (.stabStop h) .stabStop []) := by
  show execStabStop h s = _
  unfold execStabStop
  exact slotOp_withholds hroom (fun w => rfl) hi

theorem exec_stabLink (hroom : s.room) (hx : (s.rs a).toNat < 2) (hhigh : wbits (s.rs b) 63 32 = 0) (hmid : wbits (s.rs b) 30 18 = 0)
    (hi : Issues (.stabLink h a b) h s) :
    exec (.stabLink h a b) s = .next (s.withholds (.stabLink h a b) (.stabLink ((s.rs a).getLsbD 0) (s.rs b)) [s.rs a, s.rs b]) := by
  show execStabLink h a b s = _
  unfold execStabLink
  exact slotOp_withholds hroom (fun w => (if_neg (not_not_intro (wbits_above (lo := 1) 63 hx))).trans (if_neg (fun hbad => hbad.elim (· hhigh) (· hmid)))) hi

theorem exec_stabClr (hroom : s.room) (hi : Issues (.stabClr h) h s) : exec (.stabClr h) s = .next (s.withholds (.stabClr h) .stabClr []) := by
  show execStabClr h s = _
  unfold execStabClr
  exact slotOp_withholds hroom (fun w => rfl) hi

end

theorem engineSlots : Claims.EngineSlotResults := fun _ _ _ _ _ _ hroom =>
  ⟨fun _ hcl => ⟨exec_cpchGo hroom hcl, exec_cpchStop hroom hcl, exec_cpchSt hcl, exec_memcPhase hroom hcl⟩,
    exec_memcRinv hroom, fun _ _ => exec_memcRinv_arrives hroom, exec_memcCreg hroom,
    fun _ _ hhigh hmid hi hres => exec_memcCerr hroom hhigh hmid hi hres,
    fun hal => blockStart_withholds hroom hal .coll, fun hal => blockStart_withholds hroom hal .ring,
    fun hx => ⟨exec_rsemSet hroom hx, exec_rsemAdd hroom hx⟩, exec_stabWr hroom, exec_stabGo hroom, exec_stabStop hroom,
    exec_stabLink hroom, exec_stabClr hroom⟩

/-! ## Reads that freeze (15 R285-R287) -/

/-- A slot that freezes before it acts (`freezeFor`) waits while its count is below its time, and then acts. -/
theorem slotOp_freezes {i : Instr} {h : Hdr} {s : State} {n : Nat} {k : State → Res} {f : State → State}
    (hk : ∀ w, k (s.worded w) = if waitCount s.me.waits s.pos < n then .next ((s.worded w).hold {}) else .next (f (s.worded w)))
    (hi : Issues i h s) :
    (n ≤ waitCount s.me.waits s.pos → slotOp i h s k = .next (f (s.noted i))) ∧
    (waitCount s.me.waits s.pos < n → slotOp i h s k = .next ((s.noted i).hold {})) :=
  ⟨fun hn => slotOp_worded (fun w => (hk w).trans (if_neg (Nat.not_lt.mpr hn))) hi,
    fun hn => slotOp_worded (f := fun u => u.hold {}) (fun w => (hk w).trans (if_pos hn)) hi⟩

theorem walkerReg_numbered {w : Walker} {n : Nat} {v : Word} (h : walkerReg w n = some v) : n ≤ 9 := by
  by_contra hn
  have hnone : walkerReg w n = none := by
    unfold walkerReg
    repeat rw [if_neg (by omega)]
  rw [hnone] at h
  cases h

theorem frozenReads : Claims.FrozenReads := by
  intro s h d a b x y reads
  refine ⟨fun hx hi => ?_, fun hx hy hi => ?_, fun v hv hi => ?_⟩
  · have hlow : wbits (s.rs a) 7 0 = x.toNat := wbits_below hx
    show (_ → execRsemRd h d a s = _) ∧ (_ → execRsemRd h d a s = _)
    unfold execRsemRd
    rw [← hlow]
    exact slotOp_freezes (f := fun u => u.result 1 [s.wS d ((ringSem s s.who.die (wbits (s.rs a) 7 0)).setWidth 64)])
      (fun w => if_neg (not_not_intro (wbits_above (x := s.rs a) (lo := 8) 63 hx))) hi
  · show (_ → execStabRd h d a b s = _) ∧ (_ → execStabRd h d a b s = _)
    unfold execStabRd
    exact slotOp_freezes (f := fun u => u.result 1 [s.wS d ((s.walker.table.get 0 (s.rs a).toNat).extractLsb' (64 * (s.rs b).toNat) 64)])
      (fun w => (if_neg (not_not_intro (wbits_above (x := s.rs a) (lo := 8) 63 hx))).trans
        (if_neg (not_not_intro (wbits_above (x := s.rs b) (lo := 2) 63 hy)))) hi
  · have hval : v = (walkerReg s.walker (s.rs a).toNat).getD 0 := by rw [hv, Option.getD_some]
    show (_ → execStabReg h d a s = _) ∧ (_ → execStabReg h d a s = _)
    unfold execStabReg
    rw [hval]
    exact slotOp_freezes (f := fun u => u.result 1 [s.wS d ((walkerReg s.walker (s.rs a).toNat).getD 0)])
      (fun w => if_neg (Nat.not_lt.mpr (walkerReg_numbered hv))) hi

/-- Settles O39: a start that passes its checks is its withheld effect; a read that freezes is its result once its count has reached its time. -/
theorem engineSlotResults : Obligations.EngineSlotResults := ⟨engineSlots, frozenReads⟩

end Sys2Proof.Machine
end

section
/-!
PROOF. Configuration registers (15 R296): O47.
-/

namespace Sys2Proof.Machine

open State

section
variable {s : State} {a b d : BitVec 5} {r : CfgReg} {t : Agent} {h : Hdr}

/-- A CFG slot that its issuer may use acts on its register and target. -/
theorem cfgOp_goes (hr : cfgReg (s.rs b).toNat = some r) (hden : cfgDenied s r = false)
    (ht : if r.targeted then targetOf s (s.rs a) = some t else t = s.who) (k : CfgReg → Agent → Res) : cfgOp s a b k = k r t := by
  rw [cfgOp, hr]
  refine (if_neg (ne_true_of_eq_false hden)).trans ?_
  by_cases htg : r.targeted = true
  · rw [if_pos htg] at ht
    exact (if_neg (fun hbad => bang_false htg hbad)).trans (onTarget_of ht _)
  · rw [if_neg htg] at ht
    rw [Bool.not_eq_true] at htg
    rw [htg, ht]
    rfl

/-- A reading's value is its result; only the source of unspecified words may move on (log 4). -/
theorem exec_cfgRd (hr : cfgReg (s.rs b).toNat = some r) (hden : cfgDenied s r = false)
    (ht : if r.targeted then targetOf s (s.rs a) = some t else t = s.who) (hi : Issues (.cfgRd h d a b) h s) :
    ∃ u, exec (.cfgRd h d a b) s = .next u ∧
      (u.ctx s.who).flight = s.me.flight ++ [{ id := 0, writes := [s.wS d (cfgValue s r t)], dist := 4 }] ∧ u.mem = s.mem := by
  show ∃ u, execCfgRd h d a b s = .next u ∧ _
  unfold execCfgRd
  refine slotOp_goes (Q := fun _ => True) hi trivial (fun w _ => ?_)
  rw [cfgOp_goes (s := s.worded w) hr hden ht]
  refine ⟨_, rfl, ?_, ?_⟩
  · by_cases hfree : r = .govtab ∨ r = .qres
    · rw [if_pos hfree]
      exact congrArg Ctx.flight (ctx_modCtx ..)
    · rw [if_neg hfree]
      exact congrArg Ctx.flight (ctx_modCtx ..)
  · by_cases hfree : r = .govtab ∨ r = .qres
    · rw [if_pos hfree]
      rfl
    · rw [if_neg hfree]
      rfl

/-! ## Values that their fields hold whole -/

/-- A word without bits from `n` up is its low `n` bits. -/
theorem setWidth_of_wbits {x : Word} {n : Nat} (hn : n ≤ 63) (hx : wbits x 63 n = 0) : (x.setWidth n).setWidth 64 = x := by
  have hlt : x.toNat < 2 ^ n := by
    have hcut : x.toNat / 2 ^ n % 2 ^ (64 - n) = 0 := hx
    have hpow : 2 ^ n * 2 ^ (64 - n) = 2 ^ 64 := by rw [← Nat.pow_add, Nat.add_sub_cancel' (by omega)]
    have hsmall : x.toNat / 2 ^ n < 2 ^ (64 - n) := Nat.div_lt_of_lt_mul (by rw [hpow]; exact x.isLt)
    rw [Nat.mod_eq_of_lt hsmall] at hcut
    exact (Nat.div_eq_zero_iff_lt (Nat.two_pow_pos n)).mp hcut
  apply BitVec.eq_of_toNat_eq
  rw [BitVec.toNat_setWidth, BitVec.toNat_setWidth, Nat.mod_eq_of_lt hlt, Nat.mod_eq_of_lt x.isLt]

/-- SHARE holds the share and the yield quantum, its other bits being reserved. -/
theorem share_word {x : Word} (hmid : wbits x 15 4 = 0) (hhigh : wbits x 63 40 = 0) : BitVec.ofNat 64 (wbits x 3 0 + wbits x 39 16 * 2 ^ 16) = x := by
  have hlt := x.isLt
  apply BitVec.eq_of_toNat_eq
  rw [BitVec.toNat_ofNat]
  simp only [wbits, bits] at *
  omega

/-! ## Writes -/

/-- Watching yields anew only adds events to the agenda. -/
theorem watchYields_keeps (s : State) (core : Nat) : ∃ l, watchYields s core = { s with agenda := l } := by
  unfold watchYields
  generalize (s.core core).posA.toList ++ (s.core core).posB.toList = ks
  suffices ∀ u : State, (∃ l, u = { s with agenda := l }) → ∃ l, ks.foldl (fun (s : State) k =>
      s.at_ (Nat.max s.cc ((s.ctx (.ctx core k)).runFrom + (s.core core).yq)) (.yieldOverrun core k)) u = { s with agenda := l } from
    this s ⟨s.agenda, rfl⟩
  induction ks with
  | nil => exact fun u hu => hu
  | cons k ks ih =>
    rintro u ⟨l, rfl⟩
    exact ih _ ⟨_, rfl⟩

/-- A window or owner of a stopped context takes its value. -/
theorem whileIdle_stopped (hst : (s.ctx t).st = .stopped) (w : Word) (f : Ctx → Ctx) : whileIdle s w t f = .next (s.modCtx t f) := by
  unfold whileIdle
  exact if_pos (.inl hst)

/-- What O47 says of a write: the register reads the value, the target's registers and memory are as they were. -/
def TakesConfig (s u : State) (r : CfgReg) (t : Agent) (x : Word) : Prop :=
  cfgValue u r t = x ∧ (u.ctx t).live = (s.ctx t).live ∧ u.mem = s.mem

/-- A window or owner that keeps the register set of its context. -/
theorem takesConfig_modCtx {f : Ctx → Ctx} {x : Word} (hlive : ∀ c, (f c).live = c.live) (hval : cfgValue (s.modCtx t f) r t = x) :
    TakesConfig s (s.modCtx t f) r t x := ⟨hval, by rw [ctx_modCtx, hlive], rfl⟩

theorem TakesConfig.watchYields {u : State} {x : Word} (ht : TakesConfig s u r t x) (core : Nat) : TakesConfig s (watchYields u core) r t x := by
  obtain ⟨l, hl⟩ := watchYields_keeps u core
  rw [hl]
  exact ht

/-- A share and quantum are the core's. -/
theorem takesConfig_share {x : Word} (hok : cfgValueOk .share x = true) :
    TakesConfig s (s.modCore t.core (fun c => { c with share := wbits x 3 0, yq := wbits x 39 16 })) .share t x := by
  simp only [cfgValueOk, Bool.and_eq_true, beq_iff_eq] at hok
  obtain ⟨⟨⟨hmid, hhigh⟩, _⟩, _⟩ := hok
  refine ⟨?_, rfl, rfl⟩
  rw [cfgValue, core_modCore]
  exact share_word hmid hhigh

/-- A value that its register takes is what the register then reads. -/
theorem exec_cfgWr (hr : cfgReg (s.rs b).toNat = some r) (hden : cfgDenied s r = false)
    (ht : if r.targeted then targetOf s (s.rs a) = some t else t = s.who) (hi : Issues (.cfgWr h d a b) h s) (hok : cfgValueOk r (s.rs d) = true)
    (hmem : r ∈ [CfgReg.share, .owner, .padwin, .vaultwin, .metaName, .pkgid] ∨ ∃ g, r = .group g)
    (hst : r ∈ [CfgReg.owner, .padwin, .vaultwin] → (s.ctx t).st = .stopped) :
    ∃ u, exec (.cfgWr h d a b) s = .next u ∧ TakesConfig s u r t (s.rs d) := by
  show ∃ u, execCfgWr h d a b s = .next u ∧ _
  unfold execCfgWr
  refine slotOp_goes (Q := fun _ => True) hi trivial (fun w _ => ?_)
  rw [cfgOp_goes (s := s.worded w) hr hden ht]
  have htag : r ≠ .metaTag := by
    rintro rfl
    simp at hmem
  have hval : ¬(!cfgValueOk r (s.rs d)) = true := fun hbad => bang_false hok hbad
  have hidle := whileIdle_stopped (s := s.worded w) (t := t)
  have hctx := ctx_modCtx (s.worded w) t
  have hx : (s.worded w).rs d = s.rs d := rfl
  simp only [hx, if_neg htag, if_neg hval]
  cases r with
  | share => exact ⟨_, rfl, (takesConfig_share (s := s.worded w) hok).watchYields t.core⟩
  | owner =>
    simp only [cfgValueOk, Bool.and_eq_true, beq_iff_eq] at hok
    refine ⟨_, hidle (hst (by simp)) _ _, takesConfig_modCtx (s := s.worded w) (fun _ => rfl) ?_⟩
    rw [cfgValue, hctx]
    exact setWidth_of_wbits (by omega) hok.2
  | padwin =>
    simp only [cfgValueOk, Bool.and_eq_true, beq_iff_eq] at hok
    refine ⟨_, hidle (hst (by simp)) _ _, takesConfig_modCtx (s := s.worded w) (fun _ => rfl) ?_⟩
    rw [cfgValue, hctx]
    exact setWidth_of_wbits (by omega) hok.1.2
  | vaultwin =>
    simp only [cfgValueOk, Bool.and_eq_true, beq_iff_eq] at hok
    refine ⟨_, hidle (hst (by simp)) _ _, takesConfig_modCtx (s := s.worded w) (fun _ => rfl) ?_⟩
    rw [cfgValue, hctx]
    exact setWidth_of_wbits (by omega) hok.2
  | metaName => exact ⟨_, rfl, rfl, rfl, rfl⟩
  | pkgid =>
    simp only [cfgValueOk, beq_iff_eq] at hok
    exact ⟨_, rfl, setWidth_of_wbits (by omega) hok, rfl, rfl⟩
  | group g =>
    refine ⟨_, rfl, ?_, rfl, rfl⟩
    show (((s.worded w).modDie s.who.die _).die s.who.die).group.get 0 g = s.rs d
    rw [die_modDie]
    exact SMap.get_put_same ..
  | scribe => simp at hmem
  | govtab => simp at hmem
  | qres => simp at hmem
  | metaTag => exact absurd rfl htag

end

/-- Settles O47: each register's write and reading name one field, which holds the value whole. -/
theorem configurationResults : Obligations.ConfigurationResults := fun _ _ _ _ _ _ _ hr hden ht =>
  ⟨exec_cfgRd hr hden ht, exec_cfgWr hr hden ht⟩

end Sys2Proof.Machine
end

section
/-!
PROOF. Translation invalidation and monitors (15 R292, R293; 22 R387): O45.
-/

namespace Sys2Proof.Machine

open State

/-! ## What TLBI forgets (15 R292) -/

/-- A map that keeps the keys changes the value at each listed key. -/
theorem SMap.get_map {α : Type} (d : α) (f : Nat → α → α) (t : SMap α) (k : Nat) :
    SMap.get d (t.map (fun c => (c.1, f c.1 c.2))) k = if k ∈ t.map (·.1) then f k (t.get d k) else d := by
  induction t with
  | nil => rfl
  | cons c r ih =>
    obtain ⟨j, x⟩ := c
    by_cases hj : j = k
    · subst hj
      simp [SMap.get]
    · rw [List.map_cons, SMap.get, if_neg hj, ih, SMap.get, if_neg hj]
      simp only [List.map_cons, List.mem_cons, Ne.symm hj, false_or]

theorem SMap.get_unlisted {α : Type} (d : α) (t : SMap α) (k : Nat) (hk : k ∉ t.map (·.1)) : t.get d k = d := by
  induction t with
  | nil => rfl
  | cons c r ih =>
    obtain ⟨j, x⟩ := c
    simp only [List.map_cons, List.mem_cons, not_or] at hk
    rw [SMap.get, if_neg (Ne.symm hk.1), ih hk.2]

/-- The part of a list that a test spares, where it is applied. -/
def spared {α : Type} (named : Bool) (p : α → Bool) (l : List α) : List α := if named then l.filter (fun e => !p e) else l

theorem spared_spared {α : Type} (m n : Bool) (p : α → Bool) (l : List α) : spared m p (spared n p l) = spared (n || m) p l := by
  cases m <;> cases n <;> simp [spared, List.filter_filter]

/-- `t` is `s` without the translations and pointer entries that satisfy the tests on the dies that `named` names. -/
structure Forgets (s t : State) (p : TlbEntry → Bool) (q : WalkNode → Bool) (named : Nat → Bool) : Prop where
  ctxs : t.ctxs = s.ctxs
  mem : t.mem = s.mem
  tlb (n : Nat) : (t.die n).tlb = spared (named n) p (s.die n).tlb
  wcache (n : Nat) : (t.die n).wcache = spared (named n) q (s.die n).wcache
  dtlb (c : Nat) : (t.core c).dtlb = spared (named (c / 128)) p (s.core c).dtlb
  ftlb (c : Nat) : (t.core c).ftlb = spared (named (c / 128)) p (s.core c).ftlb

section
variable {s t u : State} {p : TlbEntry → Bool} {q : WalkNode → Bool} {m n : Nat → Bool}

theorem Forgets.refl : Forgets s s p q (fun _ => false) := ⟨rfl, rfl, fun _ => rfl, fun _ => rfl, fun _ => rfl, fun _ => rfl⟩

theorem Forgets.trans (h1 : Forgets s t p q m) (h2 : Forgets t u p q n) : Forgets s u p q (fun d => m d || n d) where
  ctxs := h2.ctxs.trans h1.ctxs
  mem := h2.mem.trans h1.mem
  tlb d := by rw [h2.tlb, h1.tlb, spared_spared]
  wcache d := by rw [h2.wcache, h1.wcache, spared_spared]
  dtlb c := by rw [h2.dtlb, h1.dtlb, spared_spared]
  ftlb c := by rw [h2.ftlb, h1.ftlb, spared_spared]

/-- A core's own TLBs after its die has forgotten. -/
theorem core_forgetOn (s : State) (p : TlbEntry → Bool) (q : WalkNode → Bool) (die c : Nat) :
    (forgetOn s p q die).core c =
      if c / 128 = die then { s.core c with dtlb := (s.core c).dtlb.filter (fun e => !p e), ftlb := (s.core c).ftlb.filter (fun e => !p e) } else s.core c := by
  have hmap := SMap.get_map {} (fun k (x : CoreSt) =>
    if k / 128 = die then { x with dtlb := x.dtlb.filter (fun e => !p e), ftlb := x.ftlb.filter (fun e => !p e) } else x) s.cores c
  have hcell : (fun c : Nat × CoreSt => (c.1, if c.1 / 128 = die then
        { c.2 with dtlb := c.2.dtlb.filter (fun e => !p e), ftlb := c.2.ftlb.filter (fun e => !p e) } else c.2)) =
      (fun c => if c.1 / 128 = die then (c.1, { c.2 with dtlb := c.2.dtlb.filter (fun e => !p e), ftlb := c.2.ftlb.filter (fun e => !p e) }) else c) := by
    funext c
    split_ifs <;> rfl
  rw [hcell] at hmap
  refine hmap.trans ?_
  by_cases hk : c ∈ s.cores.map (·.1)
  · rw [if_pos hk]
    rfl
  · have hd : s.core c = {} := SMap.get_unlisted _ _ _ hk
    rw [if_neg hk, hd]
    split_ifs <;> rfl

theorem forgets_forgetOn (s : State) (p : TlbEntry → Bool) (q : WalkNode → Bool) (die : Nat) :
    Forgets s (forgetOn s p q die) p q (fun d => decide (die = d)) := by
  have hdie (n : Nat) : (forgetOn s p q die).die n =
      if die = n then { s.die n with tlb := (s.die n).tlb.filter (fun e => !p e), wcache := (s.die n).wcache.filter (fun w => !q w) } else s.die n :=
    SMap.get_upd ({} : Die) s.dies die (fun d => { d with tlb := d.tlb.filter (fun e => !p e), wcache := d.wcache.filter (fun w => !q w) }) n
  refine ⟨rfl, rfl, fun n => ?_, fun n => ?_, fun c => ?_, fun c => ?_⟩
  · rw [hdie, spared]
    by_cases h : die = n <;> simp [h]
  · rw [hdie, spared]
    by_cases h : die = n <;> simp [h]
  · rw [core_forgetOn, spared]
    by_cases h : c / 128 = die
    · simp [h]
    · simp [h, Ne.symm h]
  · rw [core_forgetOn, spared]
    by_cases h : c / 128 = die
    · simp [h]
    · simp [h, Ne.symm h]

theorem forgets_foldl (p : TlbEntry → Bool) (q : WalkNode → Bool) (ds : List Nat) (s : State) :
    Forgets s (ds.foldl (fun s d => forgetOn s p q d) s) p q (fun n => ds.contains n) := by
  induction ds generalizing s with
  | nil => exact Forgets.refl
  | cons d ds ih =>
    have h := (forgets_forgetOn s p q d).trans (ih _)
    have hnamed : (fun n => decide (d = n) || ds.contains n) = (fun n => (d :: ds).contains n) := by
      funext n
      rw [List.contains_cons, Bool.beq_comm, Bool.beq_eq_decide_eq]
    rw [hnamed] at h
    exact h

/-- The dies of a TLBI (15 R292): its own, or all. -/
theorem tlbiDies_contains (s : State) (pkg : Bool) {n : Nat} (hn : n < 4) : (tlbiDies s pkg).contains n = (pkg || decide (n = s.who.die)) := by
  rw [Bool.eq_iff_iff]
  cases pkg <;> simp [tlbiDies, hn]

/-- A TLBI whose operand is well formed: it waits for the walks that had begun, and then forgets. -/
theorem slotOp_forgets {i : Instr} {h : Hdr} {pkg : Bool} {k : State → Res} (hi : Issues i h s) (hk : ∀ w, k (s.worded w) = forgetTlb (s.worded w) pkg p q) :
    let waits := (tlbiDies s pkg).any (walkRuns s (s.cc - waitCount s.me.waits s.pos))
    (waits = true → slotOp i h s k = .next ((s.noted i).hold {})) ∧
    (waits = false → ∃ t, slotOp i h s k = .next t ∧ Forgets s t p q (fun n => (tlbiDies s pkg).contains n)) := by
  intro waits
  refine ⟨fun hw => slotOp_worded (f := fun u => u.hold {}) (fun w => (hk w).trans (if_pos hw)) hi, fun hw => ?_⟩
  refine slotOp_goes (Q := fun _ => True) hi trivial (fun w _ => ⟨_, (hk w).trans (if_neg (ne_true_of_eq_false hw)), ?_⟩)
  obtain ⟨hctxs, hmem, htlb, hwcache, hdtlb, hftlb⟩ := forgets_foldl p q (tlbiDies s pkg) (s.worded w)
  exact ⟨hctxs, hmem, htlb, hwcache, hdtlb, hftlb⟩

end

theorem invalidations : Claims.InvalidationResults := by
  intro s h a b pkg n hn _ waits named forgets
  have hforgets {i : Instr} {k : State → Res} {p : TlbEntry → Bool} {q : WalkNode → Bool} (hexec : exec i s = slotOp i h s k)
      (hk : ∀ w, k (s.worded w) = forgetTlb (s.worded w) pkg p q) : forgets i p q := by
    intro hi
    obtain ⟨hwait, hgo⟩ := slotOp_forgets hi hk
    rw [hexec]
    refine ⟨hwait, fun hw => ?_⟩
    obtain ⟨t, ht, hf⟩ := hgo hw
    have hnamed : (tlbiDies s pkg).contains n = named n := tlbiDies_contains s pkg hn
    refine ⟨t, ht, hf.ctxs, hf.mem, (hf.tlb n).trans ?_, (hf.wcache n).trans ?_, fun c hc => ⟨(hf.dtlb c).trans ?_, (hf.ftlb c).trans ?_⟩⟩
    · rw [hnamed, spared]
    · rw [hnamed, spared]
    · rw [hc, hnamed, spared]
    · rw [hc, hnamed, spared]
  refine ⟨hforgets (k := fun u => forgetTlb u pkg (fun _ => true) (fun _ => true)) rfl (fun _ => rfl), fun ha => ?_⟩
  have hlow : wbits (s.rs a) 4 0 = (s.rs a).toNat := wbits_below ha
  have hhigh : ¬wbits (s.rs a) 63 5 ≠ 0 := not_not_intro (wbits_above (lo := 5) 63 ha)
  constructor
  · have hexec : exec (.tlbiVf h a pkg) s = execTlbiVf h a pkg s := rfl
    unfold execTlbiVf at hexec
    refine hforgets hexec (fun w => (if_neg hhigh).trans ?_)
    show forgetTlb (s.worded w) pkg (fun e => e.vf == wbits (s.rs a) 4 0) (fun n => n.vf == wbits (s.rs a) 4 0) = _
    simp only [hlow, beq_eq_decide]
  · have hexec : exec (.tlbiPg h a b pkg) s = execTlbiPg h a b pkg s := rfl
    unfold execTlbiPg at hexec
    refine hforgets hexec (fun w => (if_neg hhigh).trans ?_)
    show forgetTlb (s.worded w) pkg (fun e => e.vf == wbits (s.rs a) 4 0 && e.page == (s.rs b).toNat % 2 ^ 57 / 2 ^ e.size)
      (fun n => n.vf == wbits (s.rs a) 4 0 && n.path == (s.rs b).toNat % 2 ^ 57 / 2 ^ (55 - 13 * n.level)) = _
    simp only [hlow, Bool.decide_and, beq_eq_decide]

/-! ## Monitors (15 R293; 23 R405) -/

section
variable {s : State} {a : BitVec 5} {m : MonSel}

/-- A MON slot acts on the counter that its selector names. -/
theorem monOp_goes (hm : monSel s (s.rs a) = some m) (k : MonSel → Res) : monOp s a k = k m := by rw [monOp, hm]

/-- The counters that a selector can name. -/
def MonSel.wf : MonSel → Prop
  | .core _ k => k < 4
  | .die _ k => k < 16

theorem monSel_wf {w : Word} (hm : monSel s w = some m) : m.wf := by
  unfold monSel at hm
  split at hm
  · cases hm
  obtain ⟨cl, _, hsel⟩ := Option.bind_eq_some_iff.mp hm
  by_cases hdie : w.getLsbD 4 = true
  · rw [if_pos hdie] at hsel
    cases hsel
    exact Nat.mod_lt _ (by decide)
  · rw [if_neg hdie] at hsel
    by_cases hk : wbits w 3 0 < 4
    · rw [if_pos hk] at hsel
      cases hsel
      exact hk
    · rw [if_neg hk] at hsel
      cases hsel

/-- A counter that was replaced. -/
theorem counterAt_setCounter (hm : m.wf) (c : Counter) : counterAt (setCounter s m c) m = c := by
  cases m with
  | core n k =>
    rw [setCounter, counterAt, core_modCore, getD_setIfInBounds _ hm, if_pos rfl]
  | die n k =>
    rw [setCounter, counterAt, die_modDie, getD_setIfInBounds _ hm, if_pos rfl]

theorem ctxs_setCounter (s : State) (m : MonSel) (c : Counter) : (setCounter s m c).ctxs = s.ctxs := by cases m <;> rfl
theorem mem_setCounter (s : State) (m : MonSel) (c : Counter) : (setCounter s m c).mem = s.mem := by cases m <;> rfl

/-- A slot that replaces its counter. -/
theorem slotOp_counts {i : Instr} {h : Hdr} {k : State → Res} {c : Counter} (hi : Issues i h s) (hm : m.wf)
    (hk : ∀ w, k (s.worded w) = .next (setCounter (s.worded w) m c)) :
    ∃ t, slotOp i h s k = .next t ∧ counterAt t m = c ∧ t.ctxs = s.ctxs ∧ t.mem = s.mem :=
  slotOp_goes (Q := fun _ => True) hi trivial
    (fun w _ => ⟨_, hk w, counterAt_setCounter hm c, ctxs_setCounter .., mem_setCounter ..⟩)

end

theorem monitors : Claims.MonitorResults := by
  intro s h d a b m hm
  have hwf := monSel_wf hm
  refine ⟨fun hi hx hlo hhi => ?_, fun hi => ?_, fun hi => ?_⟩
  · have hev : wbits (s.rs b) 7 0 = (s.rs b).toNat % 256 := by
      rw [wbits, bits, Nat.pow_zero, Nat.div_one]
      norm_num
    have hok : ¬(wbits (s.rs b) 63 16 ≠ 0 ∨ wbits (s.rs b) 7 0 = 0 ∨ 7 < wbits (s.rs b) 7 0) := by
      rw [hev, wbits_above (lo := 16) 63 hx]
      omega
    show ∃ t, execMonCfg h a b s = _ ∧ _
    unfold execMonCfg
    exact slotOp_counts hi hwf (fun w => (monOp_goes (s := s.worded w) hm _).trans (if_neg hok))
  · show ∃ t, execMonClr h a s = _ ∧ _
    unfold execMonClr
    exact slotOp_counts hi hwf (fun w => monOp_goes (s := s.worded w) hm _)
  · show execMonRd h d a s = _
    unfold execMonRd
    exact slotOp_leaves (fun w => monOp_goes (s := s.worded w) hm _) hi

/-- Settles O45: the fold over the dies forgets on each what it names; a counter read after its write is what was written. -/
theorem invalidationResults : Obligations.InvalidationResults := ⟨invalidations, monitors⟩

end Sys2Proof.Machine
end

section
/-!
SUPPORT. What memory traffic leaves alone (17 R299, R308-R311; 18 R316, R331; 21 R358): it changes memory with its marks, cores, clusters, regions' counters and
notices, and a write that crosses to a fabric address leaves as a message. The registers of the dies, the agents and the time are as they were.
-/

namespace Sys2Proof.Machine

open State

/-- A state without what memory traffic inside the package may change. -/
def State.unhomed (s : State) : State := { s with mem := [], poison := [], cores := [], clusters := [], regions := [], notices := [], fresh := 0 }

/-! ## The home and its codec -/

@[simp] theorem unhomed_touchSlice (s : State) (l : Loc) : (s.touchSlice l).unhomed = s.unhomed := rfl
@[simp] theorem unhomed_touchMeta (s : State) (sort no : Nat) : (s.touchMeta sort no).unhomed = s.unhomed := rfl
@[simp] theorem unhomed_setPoison (s : State) (k n : Nat) : (s.setPoison k n).unhomed = s.unhomed := rfl
@[simp] theorem unhomed_modCore (s : State) (n : Nat) (f : CoreSt → CoreSt) : (s.modCore n f).unhomed = s.unhomed := rfl
@[simp] theorem unhomed_codecEvent (s : State) (a : Agent) (c : CodedLoc) (reason sats : Nat) : (codecEvent s a c reason sats).unhomed = s.unhomed := rfl

@[simp] theorem unhomed_storeAt (s : State) (k : Nat) (bs : List Byte) : (s.storeAt k bs).unhomed = s.unhomed := by
  unfold State.storeAt State.unpoison
  split <;> rfl

@[simp] theorem unhomed_storeNum (s : State) (k n x : Nat) : (s.storeNum k n x).unhomed = s.unhomed := unhomed_storeAt ..

@[simp] theorem unhomed_readBlock (s : State) (a : Agent) (c : CodedLoc) : (readBlock s a c).2.unhomed = s.unhomed := by
  unfold readBlock
  simp only [apply_ite State.unhomed, unhomed_codecEvent, ite_self]

theorem unhomed_regions (s : State) (r : SMap Region) : State.unhomed { s with regions := r } = s.unhomed := rfl

@[simp] theorem unhomed_mergeBlock (s : State) (a : Agent) (c : CodedLoc) (bs : List (Option Byte)) : (mergeBlock s a c bs).unhomed = s.unhomed := by
  unfold mergeBlock
  simp only [apply_ite State.unhomed, unhomed_codecEvent, unhomed_touchMeta, unhomed_regions, unhomed_setPoison, unhomed_storeNum, unhomed_readBlock,
    ite_self]

@[simp] theorem unhomed_mergeBytes (a : Agent) (fuel : Nat) (s : State) (c : CodedLoc) (bs : List Byte) :
    (mergeBytes s a fuel c bs).unhomed = s.unhomed := by
  induction fuel generalizing s c bs with
  | zero => rfl
  | succ fuel ih => simp only [mergeBytes, apply_ite State.unhomed, ih, unhomed_mergeBlock, ite_self]

@[simp] theorem unhomed_codedBytesAt (a : Agent) (fuel : Nat) (s : State) (c : CodedLoc) (n : Nat) : (codedBytesAt s a fuel c n).2.unhomed = s.unhomed := by
  induction fuel generalizing s c n with
  | zero => rfl
  | succ fuel ih =>
    rw [codedBytesAt]
    split
    · rfl
    · exact (ih ..).trans (unhomed_readBlock ..)

@[simp] theorem unhomed_homeRead (s : State) (a : Agent) (l : Loc) (n : Nat) : (s.homeRead a l n).2.unhomed = s.unhomed := by
  unfold State.homeRead
  split
  · simp only [apply_ite State.unhomed, unhomed_touchSlice, ite_self]
  · simp only [unhomed_touchSlice, unhomed_codedBytesAt]

@[simp] theorem unhomed_homeWrite (s : State) (a : Agent) (l : Loc) (bs : List Byte) : (s.homeWrite a l bs).unhomed = s.unhomed := by
  unfold State.homeWrite
  split
  · simp only [apply_ite State.unhomed, unhomed_touchSlice, unhomed_storeAt, ite_self]
  · simp only [unhomed_touchSlice, unhomed_mergeBytes]

/-! ## The L1 -/

@[simp] theorem unhomed_writeBackLine (s : State) (core key : Nat) (a : Agent) : (s.writeBackLine core key a).unhomed = s.unhomed := by
  unfold State.writeBackLine
  extract_lets ln loc bs runs s1
  have h1 : s1.unhomed = s.unhomed := by
    unfold s1
    split
    · refine foldl_keeps (p := State.unhomed) (fun s r => (foldl_keeps (p := State.unhomed) (fun s o => ?_) ..).trans (unhomed_homeWrite ..)) ..
      simp only [apply_ite State.unhomed, unhomed_setPoison, ite_self]
    · refine foldl_keeps (p := State.unhomed) (fun s o => ?_) ..
      simp only [apply_ite State.unhomed, unhomed_setPoison, unhomed_mergeBlock, ite_self]
  split
  · rfl
  · exact h1

@[simp] theorem unhomed_evictLine (s : State) (core key : Nat) (a : Agent) : (s.evictLine core key a).unhomed = s.unhomed := unhomed_writeBackLine ..

@[simp] theorem unhomed_recallLine (s : State) (but : Option Nat) (key : Nat) : (s.recallLine but key).unhomed = s.unhomed := by
  unfold State.recallLine
  refine foldl_keeps (p := State.unhomed) (fun s e => ?_) ..
  simp only [apply_ite State.unhomed, unhomed_modCore, unhomed_writeBackLine, ite_self]

@[simp] theorem unhomed_installLine (s : State) (core key : Nat) (ln : L1Line) (a : Agent) : (s.installLine core key ln a).unhomed = s.unhomed := by
  unfold State.installLine
  extract_lets ways s1
  refine (unhomed_modCore s1 core _).trans ?_
  unfold s1
  split
  · rfl
  · cases ways with
    | nil => rfl
    | cons e r => exact unhomed_evictLine ..

@[simp] theorem unhomed_fillLine (s : State) (core : Nat) (l : Loc) (a : Agent) : (s.fillLine core l a).unhomed = s.unhomed := by
  simp only [State.fillLine, unhomed_installLine, unhomed_homeRead, unhomed_recallLine]

@[simp] theorem unhomed_l1Read (s : State) (core : Nat) (l : Loc) (n : Nat) (a : Agent) : (s.l1Read core l n a).2.2.unhomed = s.unhomed := by
  simp only [State.l1Read, apply_ite State.unhomed, unhomed_fillLine, ite_self]

@[simp] theorem unhomed_beforeStrong (s : State) (a : Agent) (l : Loc) : (s.beforeStrong a l).unhomed = s.unhomed := by
  simp only [State.beforeStrong, unhomed_recallLine, apply_ite State.unhomed, unhomed_writeBackLine, ite_self]

/-! ## Loads and engine accesses -/

@[simp] theorem unhomed_readTarget (s : State) (a : Agent) (l : Loc) (n : Nat) : (readTarget s a l n).2.2.2.unhomed = s.unhomed := by
  unfold readTarget
  split
  · rfl
  · rfl
  · split
    · rfl
    · split
      · exact unhomed_l1Read ..
      · exact (unhomed_homeRead ..).trans (unhomed_beforeStrong ..)

@[simp] theorem unhomed_openBytes (s : State) (l : Loc) (bs : List Byte) : (openBytes s l bs).2.unhomed = s.unhomed := by
  unfold openBytes
  split <;> rfl

@[simp] theorem unhomed_readSegs (a : Agent) (segs : List (Loc × Nat)) (s : State) : (readSegs s a segs).2.2.2.unhomed = s.unhomed := by
  induction segs generalizing s with
  | nil => rfl
  | cons x r ih => simp only [readSegs, ih, unhomed_openBytes, unhomed_readTarget]

@[simp] theorem unhomed_engineRead (s : State) (a : Agent) (l : Loc) (n : Nat) : (engineRead s a l n).2.2.unhomed = s.unhomed := by
  unfold engineRead
  split
  · rfl
  · rfl
  · split
    · rfl
    · exact (unhomed_homeRead ..).trans (unhomed_recallLine ..)

theorem unhomed_engReadAll (s : State) (a : Agent) (segs : List (Loc × Nat)) : (engReadAll s a segs).2.unhomed = s.unhomed :=
  foldl_keeps (p := fun r : List Byte × State => r.2.unhomed) (fun r g => unhomed_engineRead r.2 a g.1 g.2) ..

/-! ## Traffic of an engine: translations, reads, writes, messages -/

/-- A die's registers without what its translations fill. -/
def Die.unwalked (d : Die) : Die := { d with tlb := [], wcache := [], walks := [] }

/-- What an engine's traffic leaves alone: the time, the agents, the package's own registers and the dies' but their translations. Messages only join
those on their way. -/
structure Moves (s t : State) : Prop where
  cc : t.cc = s.cc
  who : t.who = s.who
  pos : t.pos = s.pos
  ctxs : t.ctxs = s.ctxs
  pkgid : t.pkgid = s.pkgid
  host : t.host = s.host
  die (d : Nat) : (t.die d).unwalked = (s.die d).unwalked
  agenda : ∀ x ∈ s.agenda, x ∈ t.agenda
  outbox : ∀ m ∈ s.outbox, m ∈ t.outbox

section
variable {s t u : State}

theorem Moves.refl (s : State) : Moves s s := ⟨rfl, rfl, rfl, rfl, rfl, rfl, fun _ => rfl, fun _ hx => hx, fun _ hm => hm⟩

theorem Moves.trans (h : Moves s t) (h' : Moves t u) : Moves s u where
  cc := h'.cc.trans h.cc
  who := h'.who.trans h.who
  pos := h'.pos.trans h.pos
  ctxs := h'.ctxs.trans h.ctxs
  pkgid := h'.pkgid.trans h.pkgid
  host := h'.host.trans h.host
  die d := (h'.die d).trans (h.die d)
  agenda x hx := h'.agenda x (h.agenda x hx)
  outbox m hm := h'.outbox m (h.outbox m hm)

/-- Two states that agree when a part of them is erased agree in what the erasure keeps. -/
theorem field_of_erased {α : Type} {e : State → State} (h : e t = e s) (p : State → α) (hp : ∀ u, p (e u) = p u) : p t = p s := by rw [← hp t, h, hp s]

/-- What differs in what memory traffic changes alone is such traffic. -/
theorem Moves.of_unhomed (h : t.unhomed = s.unhomed) : Moves s t := by
  have hdies : t.dies = s.dies := field_of_erased h State.dies (fun _ => rfl)
  have hagenda : t.agenda = s.agenda := field_of_erased h State.agenda (fun _ => rfl)
  have houtbox : t.outbox = s.outbox := field_of_erased h State.outbox (fun _ => rfl)
  exact ⟨field_of_erased h State.cc (fun _ => rfl), field_of_erased h State.who (fun _ => rfl), field_of_erased h State.pos (fun _ => rfl),
    field_of_erased h State.ctxs (fun _ => rfl), field_of_erased h State.pkgid (fun _ => rfl), field_of_erased h State.host (fun _ => rfl),
    fun d => by rw [State.die, hdies, State.die], fun x hx => hagenda ▸ hx, fun m hm => houtbox ▸ hm⟩

/-- What differs in cores, dies and notices alone and keeps the dies' registers. -/
theorem Moves.of_unsampled (h : t.unsampled = s.unsampled) (hdie : ∀ d, (t.die d).unwalked = (s.die d).unwalked) : Moves s t := by
  have hagenda : t.agenda = s.agenda := field_of_erased h State.agenda (fun _ => rfl)
  have houtbox : t.outbox = s.outbox := field_of_erased h State.outbox (fun _ => rfl)
  exact ⟨field_of_erased h State.cc (fun _ => rfl), field_of_erased h State.who (fun _ => rfl), field_of_erased h State.pos (fun _ => rfl),
    field_of_erased h State.ctxs (fun _ => rfl), field_of_erased h State.pkgid (fun _ => rfl), field_of_erased h State.host (fun _ => rfl),
    hdie, fun x hx => hagenda ▸ hx, fun m hm => houtbox ▸ hm⟩

theorem Moves.ctx (h : Moves s t) (a : Agent) : t.ctx a = s.ctx a := by rw [State.ctx, h.ctxs, State.ctx]
theorem Moves.me (h : Moves s t) : t.me = s.me := by rw [State.me, h.ctx, h.who, State.me]

/-! ### Translations -/

/-- A walk's translation fills a die's TLBs and walker cache alone. -/
theorem die_finishWalk (s : State) (a : Agent) (acc : Acc) (e : TlbEntry) (ns : List WalkNode) (d : Nat) :
    ((finishWalk s a acc e ns).die d).unwalked = (s.die d).unwalked := by
  have hown (v : State) : (fillOwn v a acc e).die d = v.die d := by
    unfold fillOwn
    split <;> rfl
  rw [finishWalk, hown]
  by_cases hd : a.die = d
  · subst hd
    rw [die_modDie]
    rfl
  · rw [die_modDie_ne _ _ hd]

theorem die_fillOwn (s : State) (a : Agent) (acc : Acc) (e : TlbEntry) (d : Nat) : (fillOwn s a acc e).die d = s.die d := by
  unfold fillOwn
  split <;> rfl

/-- A result whose state keeps the dies' registers. -/
def KeepsDies {α : Type} (s : State) (r : Except AFault (α × State)) : Prop := ∀ x t, r = .ok (x, t) → ∀ d, (t.die d).unwalked = (s.die d).unwalked

theorem keepsDies_error {α : Type} (s : State) (f : AFault) : KeepsDies (α := α) s (.error f) := fun _ _ h => nomatch h

theorem keepsDies_ok {α : Type} (x : α) (h : ∀ d, (t.die d).unwalked = (s.die d).unwalked) : KeepsDies s (.ok (x, t)) := by
  intro y u hu
  cases hu
  exact h

theorem keepsDies_map (r : Except AFault Loc) (h : ∀ d, (t.die d).unwalked = (s.die d).unwalked) : KeepsDies s (r.map (fun l => (l, t))) := by
  cases r with
  | error f => exact keepsDies_error s f
  | ok l => exact keepsDies_ok l h

theorem keepsDies_translate (s : State) (a : Agent) (proc vf : Nat) (acc : Acc) (sp : Space) (va : BitVec 64) :
    KeepsDies s (translate s a proc vf acc sp va) := by
  unfold translate
  split
  · exact keepsDies_error s _
  · dsimp only
    split
    · exact keepsDies_map _ (fun _ => rfl)
    · split
      · exact keepsDies_map _ (fun d => congrArg Die.unwalked (die_fillOwn ..))
      · split
        · exact keepsDies_error s _
        · exact keepsDies_ok _ (die_finishWalk s a acc _ _)

theorem moves_translate {a : Agent} {proc vf : Nat} {acc : Acc} {sp : Space} {va : BitVec 64} {l : Loc}
    (h : translate s a proc vf acc sp va = .ok (l, t)) : Moves s t :=
  .of_unsampled (translate_translates _ _ _ _ _ _ _ _ _ h) (keepsDies_translate _ _ _ _ _ _ _ _ _ h)

theorem keepsDies_resolve (s : State) (a : Agent) (acc : Acc) (sp : Space) (ea : BitVec 64) (n : Nat) : KeepsDies s (resolve s a acc sp ea n) := by
  unfold resolve
  split
  · split
    · exact keepsDies_ok _ (fun _ => rfl)
    · exact keepsDies_error s _
  · split
    · exact keepsDies_ok _ (fun _ => rfl)
    · exact keepsDies_error s _
  · exact keepsDies_translate s a _ _ acc sp ea

theorem moves_resolve {a : Agent} {acc : Acc} {sp : Space} {ea : BitVec 64} {n : Nat} {l : Loc} (h : resolve s a acc sp ea n = .ok (l, t)) : Moves s t :=
  .of_unsampled (resolve_translates _ _ _ _ _ _ _ _ h) (keepsDies_resolve _ _ _ _ _ _ _ _ h)

theorem moves_resolveRange {a : Agent} {acc : Acc} {sp : Space} {fuel : Nat} {ea : BitVec 64} {n : Nat} {segs : List (Loc × Nat)}
    (h : resolveRange s a acc sp fuel ea n = .ok (segs, t)) : Moves s t := by
  induction fuel generalizing s ea n segs with
  | zero =>
    cases h
    exact .refl _
  | succ fuel ih =>
    rw [resolveRange] at h
    split at h
    · cases h
      exact .refl _
    · dsimp only at h
      split at h
      · cases h
      · rename_i l s' hl
        split at h
        · cases h
        · rename_i r s'' hr
          cases h
          exact (moves_resolve hl).trans (ih hr)

/-! ### Messages -/

theorem moves_at (s : State) (due : Nat) (e : Ev) : Moves s (s.at_ due e) :=
  ⟨rfl, rfl, rfl, rfl, rfl, rfl, fun _ => rfl, fun _ hx => mem_agendaInsert.mpr (.inr hx), fun _ hm => hm⟩

theorem moves_after (s : State) (n : Nat) (e : Ev) : Moves s (s.after n e) := moves_at ..

theorem moves_sendStep (s : State) (n pkg tag : Nat) (e : Ev) : Moves s (s.sendStep n pkg tag e) := by
  unfold State.sendStep
  split
  · exact moves_after ..
  · split
    · exact ⟨rfl, rfl, rfl, rfl, rfl, rfl, fun _ => rfl, fun _ hx => hx, fun _ hm => List.mem_append_left _ hm⟩
    · exact moves_after ..

/-- A number for a tag is taken, and what awaits an answer is recorded. -/
theorem moves_tagged (s : State) (r : SMap Remote) : Moves s { s with ids := s.ids + 1, remotes := r } :=
  ⟨rfl, rfl, rfl, rfl, rfl, rfl, fun _ => rfl, fun _ hx => hx, fun _ hm => hm⟩

theorem moves_sendAwaited (s : State) (n : Nat) (rem : Remote) (from_ pkg die : Nat) (e : MsgHdr → Ev) : Moves s (s.sendAwaited n rem from_ pkg die e) :=
  (moves_tagged s _).trans (moves_sendStep (n := n) (pkg := pkg) ..)

theorem moves_sendAway (s : State) (n : Nat) (rem : Remote) (from_ pkg die : Nat) (e : MsgHdr → Ev) : Moves s (s.sendAway n rem from_ pkg die e) := by
  unfold State.sendAway
  split
  · exact (moves_tagged s s.remotes).trans (moves_after ..)
  · exact moves_sendAwaited ..

/-! ### Writes -/

theorem moves_engineWrite (s : State) (a : Agent) (l : Loc) (bs : List Byte) (rem : Remote) : Moves s (engineWrite s a l bs rem) := by
  unfold engineWrite
  split
  · exact .of_unhomed (unhomed_storeAt ..)
  · exact .of_unhomed (unhomed_storeAt ..)
  · split
    · exact .of_unhomed (unhomed_storeAt ..)
    · split
      · exact moves_sendAwaited ..
      · exact .of_unhomed ((unhomed_homeWrite ..).trans (unhomed_recallLine ..))

theorem moves_engWriteAll (s : State) (a : Agent) (segs : List (Loc × Nat)) (bs : List Byte) (rem : Remote) : Moves s (engWriteAll s a segs bs rem) := by
  unfold engWriteAll
  generalize segs.flatMap (fun g => lineCut g.1 g.2) = cuts
  suffices ∀ r : State × List Byte, Moves s r.1 → Moves s (cuts.foldl (fun (r : State × List Byte) g =>
      (engineWrite r.1 a g.1 (r.2.take g.2) { rem with va := rem.va + BitVec.ofNat 64 (bs.length - r.2.length) }, r.2.drop g.2)) r).1 from
    this (s, bs) (.refl s)
  induction cuts with
  | nil => exact fun _ h => h
  | cons g gs ih => exact fun r h => ih _ (h.trans (moves_engineWrite ..))

end

end Sys2Proof.Machine
end

section
/-!
PROOF. World switches and debugging (15 R294, R295; 22 R388; 23 R405): O46.
-/

namespace Sys2Proof.Machine

open State

/-! ## Requests to stop (15 R294; 22 R366) -/

/-- The record of a context that has been asked to stop: an earlier request stands. -/
def askedToStop (cause : Nat) (x : BitVec 64) (c : Ctx) : Ctx := { c with stopReq := c.stopReq.or (some (cause, x)) }

section
variable {s : State} {t : Agent}

theorem requestStop_eq (s : State) (a : Agent) (cause : Nat) (x : BitVec 64) : requestStop s a cause x =
    if (s.ctx a).st ≠ .waiting then s.modCtx a (askedToStop cause x)
    else (s.modCtx a (askedToStop cause x)).at_ s.cc
      (if (s.ctx a).pendHeld.isSome ∨ (s.ctx a).pend.any (causeDue s.cc) then .deferredTrap a else .boundaryStop a) := rfl

theorem ctxs_requestStop (s : State) (a : Agent) (cause : Nat) (x : BitVec 64) : (requestStop s a cause x).ctxs = (s.modCtx a (askedToStop cause x)).ctxs := by
  rw [requestStop_eq]
  split <;> rfl

theorem ctx_requestStop (s : State) (a b : Agent) (cause : Nat) (x : BitVec 64) :
    (requestStop s a cause x).ctx b = if a.key = b.key then askedToStop cause x (s.ctx b) else s.ctx b := by
  rw [← ctx_modCtx_eq s a b (askedToStop cause x), State.ctx, ctxs_requestStop, State.ctx]

theorem mem_requestStop (s : State) (a : Agent) (cause : Nat) (x : BitVec 64) : (requestStop s a cause x).mem = s.mem := by
  rw [requestStop_eq]
  split <;> rfl

/-- A context that waits for a position, with no cause that has arrived, stops in this cc (log 69). -/
theorem requestStop_waiting (cause : Nat) (x : BitVec 64) (hst : (s.ctx t).st = .waiting) (hheld : (s.ctx t).pendHeld = none) (hpend : (s.ctx t).pend = []) :
    (s.cc, Ev.boundaryStop t) ∈ (requestStop s t cause x).agenda := by
  have hnow : requestStop s t cause x = (s.modCtx t (askedToStop cause x)).at_ s.cc (.boundaryStop t) := by
    rw [requestStop_eq, hst, hheld, hpend]
    rfl
  rw [hnow]
  exact mem_agendaInsert.mpr (.inl rfl)

/-- Every context of the function in reach that has no request yet gets that of a world switch. -/
theorem stopFunction_asks {who : Agent} {vf : Nat} (ht : t ∈ reached who) (hlive : live s t = true) (hvf : s.vfOf t = vf) (hnone : (s.ctx t).stopReq = none) :
    ((stopFunction s who vf).ctx t).stopReq = some (0x74, BitVec.ofNat 64 vf) := by
  have hmem : t ∈ liveReached s who vf := by
    rw [liveReached, List.mem_filter, hlive, hvf]
    simp [ht]
  have hstep (u : State) (a : Agent) : ((if (u.ctx a).stopReq.isSome then u else requestStop u a 0x74 (BitVec.ofNat 64 vf)).ctx t).stopReq =
      if a.key = t.key then (u.ctx t).stopReq.or (some (0x74, BitVec.ofNat 64 vf)) else (u.ctx t).stopReq := by
    by_cases hkey : a.key = t.key
    · rw [if_pos hkey]
      split
      next hsome =>
        rw [ctx_of_key u hkey] at hsome
        rw [Option.or_of_isSome hsome]
      next => rw [ctx_requestStop, if_pos hkey, askedToStop]
    · rw [if_neg hkey]
      split
      · rfl
      · rw [ctx_requestStop, if_neg hkey]
  unfold stopFunction
  refine foldl_reaches (P := fun u : State => (u.ctx t).stopReq = some (0x74, BitVec.ofNat 64 vf))
    (Q := fun u : State => (u.ctx t).stopReq = none ∨ (u.ctx t).stopReq = some (0x74, BitVec.ofNat 64 vf)) hmem (.inl hnone) ?_ ?_ ?_
  · intro u a hu
    rw [hstep]
    rcases hu with hu | hu <;> rw [hu] <;> split <;> simp
  · intro u a hu
    rw [hstep, hu]
    split <;> rfl
  · intro u hu
    rw [hstep, if_pos rfl]
    rcases hu with hu | hu <;> rw [hu] <;> rfl

/-! ## Monitor images (23 R405) -/

/-- A slot that waits out the time of a world switch. -/
theorem exec_wswOut_waits {h : Hdr} {a b : BitVec 5} (ha : (s.rs a).toNat < 32) (hi : Issues (.wswOut h a b) h s)
    (hwait : waitCount s.me.waits s.pos < worldSwitchTime ∨ liveReached s s.who (s.rs a).toNat ≠ []) :
    exec (.wswOut h a b) s = .next ((s.noted (.wswOut h a b)).hold { stops := some (s.rs a).toNat }) := by
  have hlow : wbits (s.rs a) 4 0 = (s.rs a).toNat := wbits_below ha
  rw [← hlow] at hwait ⊢
  have hbusy : waitCount s.me.waits s.pos < worldSwitchTime ∨ (!(liveReached s s.who (wbits (s.rs a) 4 0)).isEmpty) = true := by
    simpa [List.isEmpty_iff] using hwait
  show execWswOut h a b s = _
  unfold execWswOut
  exact slotOp_worded (f := fun u => u.hold { stops := some (wbits (s.rs a) 4 0) })
    (fun w => (if_neg (not_not_intro (wbits_above (x := s.rs a) (lo := 5) 63 ha))).trans (if_pos hbusy)) hi

/-- Writing an image keeps the bundle's agent. -/
theorem moves_putImage {s1 : State} {ea : BitVec 64} {bs : List Byte} (h : putImage s ea bs = .ok s1) : Moves s s1 := by
  unfold putImage at h
  split at h
  · cases h
  · rename_i segs s' hres
    split at h
    · cases h
    · cases h
      exact (moves_resolveRange hres).trans (moves_engWriteAll ..)

/-- The counters that hold a function's samples are gone. -/
theorem dropCounters_gone (s : State) (die vf : Nat) {k : Nat} (hk : k < 16) (hc : countsFor ((s.die die).mon.getD k {}).cfg vf = true) :
    ((dropCounters s die vf).die die).mon.getD k {} = {} := by
  have hget (v : Vector Counter 16) (x : Counter) : v.getD k x = v[k] := by
    rw [Vector.getD, Array.getD_eq_getD_getElem?, Array.getElem?_eq_getElem (by simpa using hk)]
    rfl
  rw [hget] at hc
  rw [dropCounters, die_modDie, hget, Vector.getElem_map, if_pos hc]

theorem exec_wswOut_saves {h : Hdr} {a b : BitVec 5} {s1 : State} (ha : (s.rs a).toNat < 32) (hi : Issues (.wswOut h a b) h s)
    (hwait : worldSwitchTime ≤ waitCount s.me.waits s.pos) (hdone : liveReached s s.who (s.rs a).toNat = [])
    (hput : putImage (s.noted (.wswOut h a b)) (s.rs b) (monitorImage s s.who.die (s.rs a).toNat) = .ok s1) :
    ∃ u, exec (.wswOut h a b) s = .next u ∧ u.mem = s1.mem ∧
      ∀ k, k < 16 → countsFor ((s1.die s.who.die).mon.getD k {}).cfg (s.rs a).toNat = true → (u.die s.who.die).mon.getD k {} = {} := by
  have hlow : wbits (s.rs a) 4 0 = (s.rs a).toNat := wbits_below ha
  rw [← hlow] at hdone hput ⊢
  have hidle : ¬(waitCount s.me.waits s.pos < worldSwitchTime ∨ (!(liveReached s s.who (wbits (s.rs a) 4 0)).isEmpty) = true) := by
    rw [hdone]
    simpa using hwait
  show ∃ u, execWswOut h a b s = _ ∧ _
  unfold execWswOut
  refine slotOp_goes (Q := fun u => putImage u (s.rs b) (monitorImage s s.who.die (wbits (s.rs a) 4 0)) = .ok s1) hi hput (fun w hput => ?_)
  have hwho : s1.who = s.who := (moves_putImage hput).who
  have hput' : putImage (s.worded w) ((s.worded w).rs b) (monitorImage (s.worded w) (s.worded w).who.die (wbits ((s.worded w).rs a) 4 0)) = .ok s1 := hput
  refine ⟨dropCounters s1 s.who.die (wbits (s.rs a) 4 0), ?_, rfl, fun k hk hc => dropCounters_gone s1 _ _ hk hc⟩
  refine (if_neg (not_not_intro (wbits_above (x := s.rs a) (lo := 5) 63 ha))).trans ((if_neg hidle).trans ?_)
  rw [hput']
  show Host.Outcome.next (dropCounters s1 s1.who.die (wbits (s.rs a) 4 0)) = _
  rw [hwho]

theorem moves_imageParts {who : Agent} {u : FarUse} {ea : Nat} {segs : List (Loc × Nat)} {s1 : State} {bs : List Byte}
    (h : imageParts s who u ea segs = .ok (bs, s1)) : Moves s s1 := by
  induction segs generalizing s ea bs with
  | nil =>
    cases h
    exact .refl _
  | cons x r ih =>
    obtain ⟨l, n⟩ := x
    rw [imageParts] at h
    split at h
    · cases h
    · rename_i bs' s' hpart
      have hs' : Moves s s' := by
        by_cases hfab : l.fabric = true
        · rw [if_pos hfab] at hpart
          cases hfar : farRead s who u .load (BitVec.ofNat 64 ea) l n with
          | error f =>
            rw [hfar] at hpart
            cases hpart
          | ok y =>
            rw [hfar] at hpart
            cases hpart
            exact .refl _
        · rw [if_neg hfab] at hpart
          split at hpart
          · cases hpart
          · cases hpart
            exact .of_unhomed (unhomed_readSegs ..)
      cases hrest : imageParts s' who u (ea + n) r with
      | error f =>
        rw [hrest] at h
        cases h
      | ok y =>
        rw [hrest] at h
        cases h
        exact hs'.trans (ih hrest)

theorem moves_readImage {who : Agent} {u : FarUse} {ea n : Nat} {s1 : State} {bs : List Byte} (h : readImage s who ea n u = .ok (bs, s1)) : Moves s s1 := by
  unfold readImage at h
  split at h
  · cases h
  · rename_i segs s' hres
    exact (moves_resolveRange hres).trans (moves_imageParts h)

theorem ctxs_loadCounters (s : State) (vf : Nat) (bs : List Byte) : (loadCounters s vf bs).ctxs = s.ctxs := by
  unfold loadCounters
  refine foldl_keeps (p := fun u : State => u.ctxs) (fun u i => ?_) ..
  dsimp only
  split <;> rfl

theorem exec_wswIn {h : Hdr} {a b : BitVec 5} {s1 : State} {bs : List Byte} (ha : (s.rs a).toNat < 32)
    (hwait : worldSwitchTime ≤ waitCount s.me.waits s.pos) (hi : Issues (.wswIn h a b) h s)
    (hread : readImage (s.noted (.wswIn h a b)) s.who (s.rs b).toNat 8192 = .ok (bs, s1)) : ∃ u, exec (.wswIn h a b) s = .next u ∧ u.ctxs = s.ctxs := by
  show ∃ u, execWswIn h a b s = _ ∧ _
  unfold execWswIn
  refine slotOp_goes (Q := fun u => readImage u s.who (s.rs b).toNat 8192 = .ok (bs, s1)) hi hread (fun w hread => ?_)
  have hm := moves_readImage hread
  have hread' : readImage (s.worded w) (s.worded w).who ((s.worded w).rs b).toNat 8192 = .ok (bs, s1) := hread
  have hpast : ¬waitCount s1.me.waits s1.pos < worldSwitchTime := by
    rw [hm.me, hm.pos]
    exact Nat.not_lt.mpr hwait
  refine ⟨loadCounters s1 (wbits (s.rs a) 4 0) bs, ?_, (ctxs_loadCounters ..).trans hm.ctxs⟩
  refine (if_neg (not_not_intro (wbits_above (x := s.rs a) (lo := 5) 63 ha))).trans ?_
  rw [hread']
  exact if_neg hpast

/-! ## DBG (15 R295) -/

theorem exec_dbgStep {h : Hdr} {a : BitVec 5} (ht : targetOf s (s.rs a) = some t) (hi : Issues (.dbgStep h a) h s) (hst : (s.ctx t).st = .stopped) :
    ∃ u, exec (.dbgStep h a) s = .next u ∧ (u.ctx t).st = .waiting ∧ (u.ctx t).step = true ∧ (u.ctx t).live = (s.ctx t).live ∧ u.mem = s.mem := by
  show ∃ u, execDbgStep h a s = _ ∧ _
  unfold execDbgStep
  refine slotOp_goes (Q := fun _ => True) hi trivial (fun w _ => ⟨_, (onTarget_of (s := s.worded w) ht _).trans (if_neg (not_not_intro hst)), ?_⟩)
  rw [ctx_modCtx, ctx_resume _ (targetOf_onCore ht)]
  exact ⟨rfl, rfl, rfl, rfl⟩

theorem exec_dbgStop {h : Hdr} {a : BitVec 5} (ht : targetOf s (s.rs a) = some t) (hi : Issues (.dbgStop h a) h s) (hrun : running s t = true) :
    ∃ u, exec (.dbgStop h a) s = .next u ∧ (u.ctx t).st = (s.ctx t).st ∧ (u.ctx t).stopReq = ((s.ctx t).stopReq.or (some (0x72, 0x2000))) ∧
      ((s.ctx t).st = .waiting → (s.ctx t).pendHeld = none → (s.ctx t).pend = [] → (s.cc, Ev.boundaryStop t) ∈ u.agenda) ∧
      (u.ctx t).live = (s.ctx t).live ∧ u.mem = s.mem := by
  show ∃ u, execDbgStop h a s = _ ∧ _
  unfold execDbgStop
  refine slotOp_goes (Q := fun _ => True) hi trivial
    (fun w _ => ⟨requestStop (s.worded w) t 0x72 0x2000, (onTarget_of (s := s.worded w) ht _).trans (if_neg (bang_false hrun)), ?_⟩)
  rw [ctx_requestStop, if_pos rfl]
  exact ⟨rfl, rfl, requestStop_waiting (s := s.worded w) _ _, rfl, mem_requestStop ..⟩

theorem exec_dbgBrk {h : Hdr} {a b : BitVec 5} (ht : targetOf s (s.rs a) 11 = some t) (hi : Issues (.dbgBrk h a b) h s)
    (hres : (s.rs b).getLsbD 1 = false) (hhigh : wbits (s.rs b) 63 57 = 0) :
    ∃ u, exec (.dbgBrk h a b) s = .next u ∧ (u.ctx t).brk.getD (wbits (s.rs a) 10 10) 0 = s.rs b ∧ (u.ctx t).live = (s.ctx t).live ∧ u.mem = s.mem := by
  have hbit : wbits (s.rs a) 10 10 < 2 := Nat.mod_lt _ (by decide)
  have hok : ¬((s.rs b).getLsbD 1 = true ∨ wbits (s.rs b) 63 57 ≠ 0) := fun hbad => hbad.elim (ne_true_of_eq_false hres) (· hhigh)
  show ∃ u, execDbgBrk h a b s = _ ∧ _
  unfold execDbgBrk
  refine slotOp_goes (Q := fun _ => True) hi trivial
    (fun w _ => ⟨(s.worded w).modCtx t (fun c => { c with brk := c.brk.setIfInBounds (wbits (s.rs a) 10 10) (s.rs b) }), ?_, ?_⟩)
  · have ht' : targetOf (s.worded w) ((s.worded w).rs a) 11 = some t := ht
    simp only [ht']
    exact if_neg hok
  · rw [ctx_modCtx]
    exact ⟨(getD_setIfInBounds _ hbit _ _ _).trans (if_pos rfl), rfl, rfl⟩

end

/-- Settles O46: each slot's action under its conditions; WSW out and in keep the agent through the image's traffic (`Moves`). -/
theorem switchAndDebugResults : Obligations.SwitchAndDebugResults := fun _ _ _ _ _ =>
  ⟨fun ha => ⟨fun hi hwait => exec_wswOut_waits ha hi hwait, stopFunction_asks, fun _ hi => exec_wswOut_saves ha hi,
      fun hwait _ _ hi => exec_wswIn ha hwait hi⟩,
    fun ht => ⟨exec_dbgStep ht, exec_dbgStop ht⟩, exec_dbgBrk⟩

end Sys2Proof.Machine
end

section
/-!
PROOF. Reading, writing, saving and freeing contexts (15 R289, R290; 20 R351; 22 R374-R378): O44.
-/

namespace Sys2Proof.Machine

open State

section
variable {s : State} {t : Agent} {h : Hdr} {d a b : BitVec 5}

/-! ## CTX (15 R289) -/

theorem exec_ctxRd (ht : targetOf s (s.rs a) = some t) (hb : (s.rs b).toNat < 2 ^ 16) (hok : ctxIndexOk (wbits (s.rs b) 15 12) (wbits (s.rs b) 11 0) = true)
    (hi : Issues (.ctxRd h d a b) h s) : exec (.ctxRd h d a b) s =
      .next (s.leaves (.ctxRd h d a b) (if isCp s.who then 16 else 4) [s.wS d (ctxItem s t (wbits (s.rs b) 15 12) (wbits (s.rs b) 11 0))]) := by
  have hgood : ¬(wbits (s.rs b) 63 16 ≠ 0 ∨ (!ctxIndexOk (wbits (s.rs b) 15 12) (wbits (s.rs b) 11 0)) = true) :=
    fun hbad => hbad.elim (· (wbits_above (lo := 16) 63 hb)) (bang_false hok)
  show execCtxRd h d a b s = _
  unfold execCtxRd
  exact slotOp_leaves (fun w => (onTarget_of (s := s.worded w) ht _).trans (if_neg hgood)) hi

/-- The outcome of a write that passes its checks. -/
theorem exec_ctxWr (ht : targetOf s (s.rs a) = some t) (hb : (s.rs b).toNat < 2 ^ 16)
    (hok : ctxIndexOk (wbits (s.rs b) 15 12) (wbits (s.rs b) 11 0) = true) (hi : Issues (.ctxWr h d a b) h s) (h7 : wbits (s.rs b) 15 12 ≠ 7)
    (hsr : wbits (s.rs b) 15 12 = 4 → srWriteDenied false (BitVec.ofNat 10 (wbits (s.rs b) 11 0)) = false)
    (hval : ctxValueOk (wbits (s.rs b) 15 12) (wbits (s.rs b) 11 0) (s.rs d) = true) :
    ((s.ctx t).st = .stopped → exec (.ctxWr h d a b) s =
      .next ((s.noted (.ctxWr h d a b)).setCtx t (putCtxItem (s.ctx t) (wbits (s.rs b) 15 12) (wbits (s.rs b) 11 0) (s.rs d)))) ∧
    ((s.ctx t).st ≠ .stopped → exec (.ctxWr h d a b) s =
      .next ((s.noted (.ctxWr h d a b)).raise ((s.noted (.ctxWr h d a b)).slotTrap 0x78 0 (s.rs a)))) := by
  have hgood : ¬(wbits (s.rs b) 63 16 ≠ 0 ∨ (!ctxIndexOk (wbits (s.rs b) 15 12) (wbits (s.rs b) 11 0)) = true ∨ wbits (s.rs b) 15 12 = 7 ∨
      (wbits (s.rs b) 15 12 = 4 ∧ srWriteDenied false (BitVec.ofNat 10 (wbits (s.rs b) 11 0)) = true)) := by
    rintro (hbad | hbad | hbad | ⟨h4, hbad⟩)
    · exact hbad (wbits_above (lo := 16) 63 hb)
    · exact bang_false hok hbad
    · exact h7 hbad
    · exact ne_true_of_eq_false (hsr h4) hbad
  show (_ → execCtxWr h d a b s = _) ∧ (_ → execCtxWr h d a b s = _)
  unfold execCtxWr
  refine ⟨fun hst => ?_, fun hst => ?_⟩
  · refine slotOp_worded (f := fun u => u.setCtx t (putCtxItem (s.ctx t) (wbits (s.rs b) 15 12) (wbits (s.rs b) 11 0) (s.rs d))) (fun w => ?_) hi
    exact (onTarget_of (s := s.worded w) ht _).trans ((if_neg hgood).trans ((if_neg (bang_false hval)).trans (if_neg (not_not_intro hst))))
  · refine slotOp_worded (f := fun u => u.raise (u.slotTrap 0x78 0 (s.rs a))) (fun w => ?_) hi
    exact (onTarget_of (s := s.worded w) ht _).trans ((if_neg hgood).trans ((if_neg (bang_false hval)).trans (if_pos hst)))

/-- A scalar register that was written reads back; s0 is not one. -/
theorem getS_putCtxItem {n : Nat} (c : Ctx) (x : Word) (hn : n < 32) (hn0 : n ≠ 0) : (putCtxItem c 0 n x).live.getS (BitVec.ofNat 5 n) = x := by
  have hne : BitVec.ofNat 5 n ≠ 0 := by
    intro hzero
    have hnat := congrArg BitVec.toNat hzero
    rw [BitVec.toNat_ofNat, Nat.mod_eq_of_lt hn] at hnat
    exact hn0 hnat
  refine (Regs.getS_put c.live (.s (BitVec.ofNat 5 n) x) hne).trans ?_
  simp

end

theorem contextAccesses : Claims.ContextAccessResults := by
  intro s h d a b t ht hb f n hok
  refine ⟨exec_ctxRd ht hb hok, fun hi h7 hsr hval => exec_ctxWr ht hb hok hi h7 hsr hval, fun hf hn0 => ?_⟩
  have hlt : n < 32 := by
    rw [hf] at hok
    exact of_decide_eq_true hok
  rw [hf]
  exact getS_putCtxItem _ _ hlt hn0

/-! ## CSV save (15 R290; 22 R374) -/

section
variable {s : State} {t : Agent} {h : Hdr} {a b : BitVec 5}

/-- A slot that names an aligned image goes on. -/
theorem onImage_goes {ea : Word} (hal : ea.toNat % 4096 = 0) (k : Res) : onImage s ea k = k := if_neg (not_not_intro hal)

/-- The mark of a context whose image another save overwrites. -/
def lostTo (ea : Word) (c : Ctx) : Ctx := if c.savedAt = some ea then { c with lostImage := true } else c

theorem noteSave_eq (s : State) (t : Agent) (ea : Word) : noteSave s t ea =
    State.modCtx { s with saved := s.saved.map (fun (m : Saved) => if m.image = ea then { m with lostImage := true } else m)
                          ctxs := s.ctxs.map (fun e => (e.1, lostTo ea e.2)) } t (fun c => { c with savedAt := some ea, lostImage := false }) := by
  have hcell : (fun e : Nat × Ctx => if e.2.savedAt = some ea then (e.1, { e.2 with lostImage := true }) else e) = fun e => (e.1, lostTo ea e.2) := by
    funext e
    unfold lostTo
    split <;> rfl
  unfold noteSave
  rw [hcell]

/-- The marks of a save change no context's state. -/
theorem st_ctx_lostTo (s : State) (l : List Saved) (ea : Word) (t : Agent) :
    (State.ctx { s with saved := l, ctxs := s.ctxs.map (fun e => (e.1, lostTo ea e.2)) } t).st = (s.ctx t).st := by
  have hget := SMap.get_map (ctxDefault t.key) (fun _ => lostTo ea) s.ctxs t.key
  rw [State.ctx, hget]
  by_cases hk : t.key ∈ s.ctxs.map (·.1)
  · rw [if_pos hk, lostTo]
    split <;> rfl
  · rw [if_neg hk, State.ctx, SMap.get_unlisted _ _ _ hk]

theorem noteSave_saves (s : State) (t : Agent) (ea : Word) :
    ((noteSave s t ea).ctx t).savedAt = some ea ∧ ((noteSave s t ea).ctx t).st = (s.ctx t).st ∧ (noteSave s t ea).mem = s.mem := by
  rw [noteSave_eq, ctx_modCtx]
  exact ⟨rfl, st_ctx_lostTo .., rfl⟩

theorem exec_csvSave (ht : targetOf s (s.rs a) = some t) (hal : (s.rs b).toNat % 4096 = 0) (hi : Issues (.csvSave h a b) h s) (hst : (s.ctx t).st = .stopped) :
    (saveReady s t = false → exec (.csvSave h a b) s = .next ((s.noted (.csvSave h a b)).hold {})) ∧
    (saveReady s t = true → ∀ s1 s2,
      s1 = landErrors ((settleScales (s.noted (.csvSave h a b)) t).writeBackAll t.core t) t (fun e => e.kind == .load && e.arrived && e.fault.isSome) →
      putImage s1 (s.rs b) (contextImage s1 t) = .ok s2 →
      ∃ u, exec (.csvSave h a b) s = .next u ∧ (u.ctx t).savedAt = some (s.rs b) ∧ (u.ctx t).st = (s2.ctx t).st ∧ u.mem = s2.mem) := by
  show (_ → execCsvSave h a b s = _) ∧ (_ → ∀ s1 s2, _ → _ → ∃ u, execCsvSave h a b s = _ ∧ _)
  unfold execCsvSave
  refine ⟨fun hno => ?_, fun hyes s1 s2 hs1 hput => ?_⟩
  · refine slotOp_worded (f := fun u => u.hold {}) (fun w => ?_) hi
    refine (onTarget_of (s := s.worded w) ht _).trans ((onImage_goes (s := s.worded w) hal _).trans ((if_neg (not_not_intro hst)).trans (if_pos ?_)))
    exact congrArg (!·) hno
  · refine slotOp_goes (Q := fun u => s1 = landErrors ((settleScales u t).writeBackAll t.core t) t (fun e => e.kind == .load && e.arrived && e.fault.isSome))
      hi hs1 (fun w hs1 => ⟨noteSave s2 t (s.rs b), ?_, noteSave_saves ..⟩)
    refine (onTarget_of (s := s.worded w) ht _).trans ((onImage_goes (s := s.worded w) hal _).trans ((if_neg (not_not_intro hst)).trans
      ((if_neg (bang_false hyes)).trans ?_)))
    rw [← hs1]
    have hput' : putImage s1 ((s.worded w).rs b) (contextImage s1 t) = .ok s2 := hput
    simp only [hput']
    rfl

/-! ## CSV end (15 R290; 20 R351) -/

/-- A task that may be done has its completion scheduled: nothing else changes. -/
theorem checkTask_keeps (s : State) (tk : Option Nat) : ∃ l, checkTask s tk = { s with agenda := l } := by
  unfold checkTask
  split
  · split
    · exact ⟨_, rfl⟩
    · exact ⟨_, rfl⟩
  · exact ⟨_, rfl⟩

theorem unreserve_keeps (s : State) (e : Effect) : ((s.unreserve e).saved, (s.unreserve e).mem) = (s.saved, s.mem) := by cases e <;> rfl

/-- A removed member is no longer recorded; discarding its effects changes no memory. -/
theorem endSaved_removes (s : State) (m : Saved) : (endSaved s m).saved = s.saved.erase m ∧ (endSaved s m).mem = s.mem := by
  have hfold := foldl_keeps (p := fun u : State => (u.saved, u.mem)) (fun u (w : Withheld) => unreserve_keeps u w.eff) m.kept.held s
  have hbase : ((if m.restored then s else m.kept.held.foldl (fun (s : State) w => s.unreserve w.eff) s).saved,
      (if m.restored then s else m.kept.held.foldl (fun (s : State) w => s.unreserve w.eff) s).mem) = (s.saved, s.mem) := by
    split
    · rfl
    · exact hfold
  obtain ⟨hsaved, hmem⟩ := Prod.mk.inj hbase
  unfold endSaved
  obtain ⟨l, hl⟩ := checkTask_keeps { (if m.restored then s else m.kept.held.foldl (fun (s : State) w => s.unreserve w.eff) s) with
    saved := (if m.restored then s else m.kept.held.foldl (fun (s : State) w => s.unreserve w.eff) s).saved.erase m } (some m.task)
  refine ⟨(congrArg State.saved hl).trans ?_, (congrArg State.mem hl).trans hmem⟩
  exact congrArg (List.erase · m) hsaved

theorem exec_csvEnd {m : Saved} (hal : (s.rs b).toNat % 4096 = 0) (hi : Issues (.csvEnd h b) h s) (hm : memberAt s (s.rs b) = some m) :
    ∃ u, exec (.csvEnd h b) s = .next u ∧ u.saved = s.saved.erase m ∧ u.mem = s.mem := by
  show ∃ u, execCsvEnd h b s = _ ∧ _
  unfold execCsvEnd
  refine slotOp_goes (Q := fun _ => True) hi trivial (fun w _ => ⟨endSaved (s.worded w) m, (onImage_goes (s := s.worded w) hal _).trans ?_, endSaved_removes ..⟩)
  have hm' : memberAt (s.worded w) ((s.worded w).rs b) = some m := hm
  rw [hm']

/-! ## CSV ld and free (15 R290; 22 R378) -/

theorem exec_csvLd {m : Saved} {i : Image} {s1 s2 : State} (ht : targetOf s (s.rs a) = some t) (hal : (s.rs b).toNat % 4096 = 0)
    (hi : Issues (.csvLd h a b) h s) (hst : (s.ctx t).st = .free) (htask : (s.ctx t).task = none) (hm : restorable s (s.rs b) = some m)
    (hload : loadImage (s.noted (.csvLd h a b)) (s.rs b) = .ok (i, s1)) (hput : restoreImage s1 t m i (s.rs a) = .ok s2) :
    exec (.csvLd h a b) s = .next s2 := by
  have hfree : ¬((s.ctx t).st ≠ .free ∨ (s.ctx t).task.isSome = true) := by
    rw [hst, htask]
    simp
  show execCsvLd h a b s = _
  unfold execCsvLd
  refine slotOp_ends_in (Q := fun u => loadImage u (s.rs b) = .ok (i, s1)) hi hload (fun w hload => ?_)
  have hm' : restorable (s.worded w) ((s.worded w).rs b) = some m := hm
  have hload' : loadImage (s.worded w) ((s.worded w).rs b) = .ok (i, s1) := hload
  have hput' : restoreImage s1 t m i ((s.worded w).rs a) = .ok s2 := hput
  refine (onTarget_of (s := s.worded w) ht _).trans ((onImage_goes (s := s.worded w) hal _).trans ((if_neg hfree).trans ?_))
  simp only [hm', hload', hput']

/-- A member leaves its task: no context changes. -/
theorem ctx_leaveTask (s : State) (tk : Nat) (f : Task → Task) (x : Option Nat) (t : Agent) : (checkTask (s.modTask tk f) x).ctx t = s.ctx t := by
  obtain ⟨l, hl⟩ := checkTask_keeps (s.modTask tk f) x
  rw [hl]
  rfl

/-- A context that is freed holds what a free one holds (log 20). -/
theorem freeContext_frees (s : State) (t : Agent) : ∃ c, (freeContext s t).ctx t = freedCtx c := by
  unfold freeContext
  extract_lets c s1 s2 s3
  have h3 : s3.ctx t = freedCtx (s2.ctx t) := ctx_modCtx ..
  split
  · exact ⟨_, h3⟩
  · exact ⟨_, (ctx_leaveTask ..).trans h3⟩

theorem exec_csvFree (ht : targetOf s (s.rs a) = some t) (hi : Issues (.csvFree h a) h s) (hst : (s.ctx t).st = .stopped) :
    ∃ u, exec (.csvFree h a) s = .next u ∧ (u.ctx t).st = .free ∧ (u.ctx t).task = none ∧ (u.ctx t).live.s = Vector.replicate 32 0 := by
  show ∃ u, execCsvFree h a s = _ ∧ _
  unfold execCsvFree
  refine slotOp_goes (Q := fun _ => True) hi trivial
    (fun w _ => ⟨freeContext (s.worded w) t, (onTarget_of (s := s.worded w) ht _).trans (if_neg (not_not_intro hst)), ?_⟩)
  obtain ⟨c, hc⟩ := freeContext_frees (s.worded w) t
  rw [hc]
  exact ⟨rfl, rfl, rfl⟩

end

theorem contextSaves : Claims.ContextSaveResults := fun _ _ _ _ _ ht =>
  ⟨fun hal => ⟨fun hi hst => exec_csvSave ht hal hi hst, fun hi _ hm => exec_csvEnd hal hi hm,
    fun hi hst htask _ _ _ _ hm hload hput => exec_csvLd ht hal hi hst htask hm hload hput⟩, fun hi hst => exec_csvFree ht hi hst⟩

/-- Settles O44: each slot's action on the target that its word names, the marks of a save and the removal of a member followed through. -/
theorem contextResults : Obligations.ContextResults := ⟨contextAccesses, contextSaves⟩

end Sys2Proof.Machine
end

section
/-!
SUPPORT. Ring engines: messages that leave and answers, the groups' registers, places of an operation, halts and completions (15 R281-R285; 19 R347-R349).
-/

namespace Sys2Proof.Machine

open State

/-! ## Messages (19 R346-R348) -/

/-- The time, the package and its routes are as they were, and messages on their way stay so. -/
structure Posts (s t : State) : Prop where
  cc : t.cc = s.cc
  pkgid : t.pkgid = s.pkgid
  host : t.host = s.host
  agenda : ∀ x ∈ s.agenda, x ∈ t.agenda
  outbox : ∀ m ∈ s.outbox, m ∈ t.outbox

section
variable {s t u v : State}

theorem Posts.refl (s : State) : Posts s s := ⟨rfl, rfl, rfl, fun _ hx => hx, fun _ hm => hm⟩

theorem Posts.trans (h : Posts s t) (h' : Posts t u) : Posts s u :=
  ⟨h'.cc.trans h.cc, h'.pkgid.trans h.pkgid, h'.host.trans h.host, fun x hx => h'.agenda x (h.agenda x hx), fun m hm => h'.outbox m (h.outbox m hm)⟩

theorem Moves.posts (h : Moves s t) : Posts s t := ⟨h.cc, h.pkgid, h.host, h.agenda, h.outbox⟩

theorem posts_modDie (s : State) (d : Nat) (f : Die → Die) : Posts s (s.modDie d f) := ⟨rfl, rfl, rfl, fun _ hx => hx, fun _ hm => hm⟩
theorem moves_given (s : State) (e : Ev) : Moves s (s.given e) := ⟨rfl, rfl, rfl, rfl, rfl, rfl, fun _ => rfl, fun _ hx => hx, fun _ hm => hm⟩

theorem Posts.routeUp (h : Posts s t) (pkg : Nat) : t.routeUp pkg = s.routeUp pkg := by simp only [State.routeUp, h.host]

theorem mem_after (s : State) (n : Nat) (e : Ev) : (s.cc + n, e) ∈ (s.after n e).agenda := mem_agendaInsert.mpr (.inl rfl)

theorem Posts.mem_after (h : Posts s t) (n : Nat) (e : Ev) : (s.cc + n, e) ∈ (t.after n e).agenda := by
  rw [← h.cc]
  exact Machine.mem_after t n e

section
variable {n from_ : Nat} {dst : Nat × Nat} {e : MsgHdr → Ev}

/-- A message that left stays so. -/
theorem Sent.mono (h : Sent s t n from_ dst e) (hp : Posts t u) : Sent s u n from_ dst e := by
  obtain ⟨tag, h⟩ := h
  refine ⟨tag, ?_⟩
  dsimp only at h ⊢
  split
  next hself =>
    rw [if_pos hself] at h
    exact hp.agenda _ h
  next hself =>
    rw [if_neg hself] at h
    exact fun hup => hp.outbox _ (h hup)

/-- A message that left after a step which keeps the time and the routes. -/
theorem Sent.since (h : Sent t u n from_ dst e) (hp : Posts s t) : Sent s u n from_ dst e := by
  obtain ⟨tag, h⟩ := h
  rw [hp.cc, hp.pkgid, hp.routeUp] at h
  exact ⟨tag, h⟩

/-- A message to a package: its step there. -/
theorem sent_sendStep (s : State) (n pkg tag : Nat) (e : Ev) :
    if pkg = s.pkgid.toNat then (s.cc + n, e) ∈ (s.sendStep n pkg tag e).agenda
    else s.routeUp pkg = true → Msg.sem pkg e ∈ (s.sendStep n pkg tag e).outbox := by
  unfold State.sendStep
  split
  · exact mem_after ..
  · intro hup
    rw [if_pos hup]
    exact List.mem_append_right _ (List.mem_singleton.mpr rfl)

/-- The record of a message that awaits its answer, with where it went. -/
def Remote.towards (rem : Remote) (s : State) (dst : Nat × Nat) : Remote := { rem with pkg := dst.1, die := dst.2, away := dst.1 != s.pkgid.toNat }

theorem sent_sendAwaited (s : State) (n : Nat) (rem : Remote) (from_ : Nat) (dst : Nat × Nat) (e : MsgHdr → Ev) :
    Sent s (s.sendAwaited n rem from_ dst.1 dst.2 e) n from_ dst e :=
  ⟨s.ids % 2 ^ 32, sent_sendStep { s with ids := s.ids + 1, remotes := s.remotes.insert (s.ids % 2 ^ 32) (rem.towards s dst) } n dst.1 (s.ids % 2 ^ 32) _⟩

theorem sent_sendAway (s : State) (n : Nat) (rem : Remote) (from_ : Nat) (dst : Nat × Nat) (e : MsgHdr → Ev) :
    Sent s (s.sendAway n rem from_ dst.1 dst.2 e) n from_ dst e := by
  unfold State.sendAway
  by_cases hself : dst.1 = s.pkgid.toNat
  · rw [if_pos hself]
    refine ⟨s.ids % 2 ^ 32, ?_⟩
    dsimp only
    rw [if_pos hself, hself]
    exact mem_after ..
  · rw [if_neg hself]
    exact sent_sendAwaited ..

end

section
variable {pkg die dest n : Nat} {e : Ev}

/-- An answer that left stays so. -/
theorem Answered.mono (h : Answered s t pkg die dest n e) (hp : Posts t u) (hn : ∀ m ∈ t.notices, m ∈ u.notices) : Answered s u pkg die dest n e := by
  unfold Answered at *
  split
  next hself =>
    rw [if_pos hself] at h
    exact hp.agenda _ h
  next hself =>
    rw [if_neg hself] at h
    split
    next hup =>
      rw [if_pos hup] at h
      exact hp.outbox _ h
    next hup =>
      rw [if_neg hup] at h
      obtain ⟨m, hm, hcause⟩ := h
      exact ⟨m, hn m hm, hcause⟩

theorem Answered.since (h : Answered t u pkg die dest n e) (hp : Posts s t) : Answered s u pkg die dest n e := by
  unfold Answered at h
  rw [hp.cc, hp.pkgid, hp.routeUp] at h
  exact h

/-- What answers a message leaves for its package. -/
theorem answered_reply (s : State) (h : MsgHdr) (n : Nat) (e : Ev) : Answered s (s.reply h n e) h.pkg h.die h.dest n e := by
  unfold Answered State.reply
  split
  · exact mem_after ..
  · split
    · exact List.mem_append_right _ (List.mem_singleton.mpr rfl)
    · exact ⟨_, List.mem_append_right _ (List.mem_singleton.mpr rfl), rfl, rfl, rfl⟩

theorem answered_done (s : State) (h : MsgHdr) : Answered s (answer s h 0 []) h.pkg h.die h.dest 1 (.remoteResponse (hdrBack s h) []) := answered_reply ..

theorem answered_refused (s : State) (h : MsgHdr) {cause : Nat} (hc : cause ≠ 0) (info : Nat) :
    Answered s (answer s h cause [] info) h.pkg h.die h.dest 1 (.messageFailure h.tag cause info) := by
  unfold answer
  rw [if_neg hc]
  exact answered_reply ..

end

/-! ### What messages leave alone -/

/-- A state without its messages and what records them. -/
def State.unsent (s : State) : State := { s with ids := 0, remotes := [], agenda := [], outbox := [] }
/-- A state without its messages and notices. -/
def State.unanswered (s : State) : State := { s.unsent with notices := [] }

theorem unsent_after (s : State) (n : Nat) (e : Ev) : (s.after n e).unsent = s.unsent := rfl

theorem unsent_sendStep (s : State) (n pkg tag : Nat) (e : Ev) : (s.sendStep n pkg tag e).unsent = s.unsent := by
  unfold State.sendStep
  split
  · rfl
  · split <;> rfl

theorem unsent_sendAwaited (s : State) (n : Nat) (rem : Remote) (from_ pkg die : Nat) (e : MsgHdr → Ev) :
    (s.sendAwaited n rem from_ pkg die e).unsent = s.unsent := unsent_sendStep ..

theorem unsent_sendAway (s : State) (n : Nat) (rem : Remote) (from_ pkg die : Nat) (e : MsgHdr → Ev) :
    (s.sendAway n rem from_ pkg die e).unsent = s.unsent := by
  unfold State.sendAway
  split
  · rfl
  · exact unsent_sendAwaited ..

theorem unanswered_reply (s : State) (h : MsgHdr) (n : Nat) (e : Ev) : (s.reply h n e).unanswered = s.unanswered := by
  unfold State.reply
  split
  · rfl
  · split <;> rfl

theorem posts_reply (s : State) (h : MsgHdr) (n : Nat) (e : Ev) : Posts s (s.reply h n e) := by
  unfold State.reply
  split
  · exact (moves_after ..).posts
  · split
    · exact ⟨rfl, rfl, rfl, fun _ hx => hx, fun _ hm => List.mem_append_left _ hm⟩
    · exact ⟨rfl, rfl, rfl, fun _ hx => hx, fun _ hm => hm⟩

/-! ## The registers of a die's ring engine (15 R282, R296) -/

/-- A field of a die that translations do not fill. -/
theorem Moves.dieField {α : Type} (h : Moves s t) (p : Die → α) (hp : ∀ d, p d.unwalked = p d) (d : Nat) : p (t.die d) = p (s.die d) := by
  rw [← hp, h.die, hp]

theorem Moves.ring (h : Moves s t) (d : Nat) : (t.die d).ring = (s.die d).ring := h.dieField Die.ring (fun _ => rfl) d
theorem Moves.ringQ (h : Moves s t) (d : Nat) : (t.die d).ringQ = (s.die d).ringQ := h.dieField Die.ringQ (fun _ => rfl) d
theorem Moves.rsem (h : Moves s t) (d : Nat) : (t.die d).rsem = (s.die d).rsem := h.dieField Die.rsem (fun _ => rfl) d
theorem Moves.group (h : Moves s t) (d : Nat) : (t.die d).group = (s.die d).group := h.dieField Die.group (fun _ => rfl) d

theorem groupOf_congr {d : Nat} (h : (t.die d).group = (s.die d).group) (g : Nat) : groupOf t d g = groupOf s d g := by unfold groupOf; rw [h]

theorem Moves.groupOf (h : Moves s t) (d g : Nat) : groupOf t d g = groupOf s d g := groupOf_congr (h.group d) g

/-- A change of a die's running operation. -/
theorem group_modRing (s : State) (die : Nat) (f : Option RingOp → Option RingOp) (d : Nat) :
    ((s.modDie die (fun x => { x with ring := f x.ring })).die d).group = (s.die d).group := by
  by_cases hd : die = d
  · subst hd
    rw [die_modDie]
  · rw [die_modDie_ne _ _ hd]

theorem groupOf_modRing (s : State) (die : Nat) (f : Option RingOp → Option RingOp) (d g : Nat) :
    groupOf (s.modDie die (fun x => { x with ring := f x.ring })) d g = groupOf s d g := groupOf_congr (group_modRing s die f d) g

theorem ringLinked_congr (hdies : t.dies = s.dies) (hpkg : t.pkgid = s.pkgid) (grp a b : Nat) : ringLinked t grp a b = ringLinked s grp a b := by
  have hgroup (d : Nat) : groupOf t d grp = groupOf s d grp := groupOf_congr (by rw [State.die, hdies, State.die]) grp
  rw [ringLinked, hgroup, hgroup, hpkg, ringLinked]

theorem ringMembers_congr (hdies : t.dies = s.dies) (hpkg : t.pkgid = s.pkgid) (die grp : Nat) : ringMembers t die grp = ringMembers s die grp := by
  simp only [ringMembers, ringLinked_congr hdies hpkg]

theorem wroteAll_congr {d : Nat} (h : (t.die d).ring = (s.die d).ring) (grp no : Nat) : wroteAll t d grp no = wroteAll s d grp no := by
  unfold wroteAll
  rw [h]

/-! ## Places of an operation (15 R269) -/

/-- A translation: cores' and dies' translations alone differ. -/
structure Walked (s t : State) : Prop where
  unsampled : t.unsampled = s.unsampled
  moves : Moves s t

theorem Walked.refl (s : State) : Walked s s := ⟨rfl, .refl s⟩
theorem Walked.trans (h : Walked s t) (h' : Walked t u) : Walked s u := ⟨h'.unsampled.trans h.unsampled, h.moves.trans h'.moves⟩
theorem Walked.mem (h : Walked s t) : t.mem = s.mem := mem_of_unsampled h.unsampled
theorem Walked.clusters (h : Walked s t) : t.clusters = s.clusters := field_of_erased h.unsampled State.clusters (fun _ => rfl)

theorem walked_pageSegs {who : Agent} {proc vf : Nat} {acc : Acc} {fuel ea n : Nat} {segs : List (Loc × Nat)}
    (h : pageSegs s who proc vf acc fuel ea n = .ok (segs, t)) : Walked s t := by
  induction fuel generalizing s ea n segs with
  | zero =>
    cases h
    exact .refl _
  | succ fuel ih =>
    rw [pageSegs] at h
    split at h
    · cases h
      exact .refl _
    · dsimp only at h
      split at h
      · cases h
      · rename_i l s' hl
        split at h
        · cases h
        · split at h
          · cases h
          · rename_i r s'' hr
            cases h
            exact Walked.trans ⟨translate_translates _ _ _ _ _ _ _ _ _ hl, moves_translate hl⟩ (ih hr)

theorem walked_opSegs {o : RingOp} {acc : Acc} {ea n : Nat} {segs : List (Loc × Nat)} (h : opSegs s o acc ea n = .ok (segs, t)) : Walked s t :=
  walked_pageSegs h

theorem walked_bufferSegs {o : RingOp} {bs : List (Nat × Nat)} {segs : List (Loc × Nat)} (h : bufferSegs s o bs = .ok (segs, t)) : Walked s t := by
  induction bs generalizing s segs with
  | nil =>
    cases h
    exact .refl _
  | cons b r ih =>
    obtain ⟨ea, n⟩ := b
    rw [bufferSegs] at h
    split at h
    · cases h
    · rename_i hrd
      split at h
      · cases h
      · rename_i hwr
        split at h
        · cases h
        · rename_i hr
          cases h
          exact ((walked_opSegs hrd).trans (walked_opSegs hwr)).trans (ih hr)

/-! ## Halts (15 R282) -/

/-- A state without the agents' records and the notices: what a cause that arrives leaves alone. -/
def State.untold (s : State) : State := { s with ctxs := [], notices := [] }

theorem untold_deliver (s : State) (a : Agent) (t : TrapRec) : (s.deliver a t).untold = s.untold := by
  unfold State.deliver
  dsimp only
  split
  · rfl
  · split <;> rfl

theorem untold_engineTrap (s : State) (a : Agent) (task : Option Nat) (dest : NoticeTo) (t : TrapRec) : (s.engineTrap a task dest t).untold = s.untold := by
  unfold State.engineTrap
  extract_lets b c
  split
  · exact untold_deliver ..
  · rfl

theorem posts_of_untold (h : t.untold = s.untold) : Posts s t := by
  have hagenda : t.agenda = s.agenda := field_of_erased h State.agenda (fun _ => rfl)
  have houtbox : t.outbox = s.outbox := field_of_erased h State.outbox (fun _ => rfl)
  exact ⟨field_of_erased h State.cc (fun _ => rfl), field_of_erased h State.pkgid (fun _ => rfl), field_of_erased h State.host (fun _ => rfl),
    fun x hx => hagenda ▸ hx, fun m hm => houtbox ▸ hm⟩

/-- The cause of an engine whose starter is at the front and belongs to no task arrives there (15 R268; 22 R366). -/
theorem pend_engineTrap {a : Agent} {dest : NoticeTo} (ht : (s.ctx a).task = none) (hst : (s.ctx a).st = .front) (r : TrapRec) :
    { r with cc := s.cc, dfr := true } ∈ ((s.engineTrap a none dest r).ctx a).pend := by
  have hdeliver : s.engineTrap a none dest r = s.deliver a { r with dfr := true } := by
    unfold State.engineTrap
    exact if_pos ⟨ht, by rw [hst]; decide, by rw [hst]; decide⟩
  rw [hdeliver]
  exact pend_deliver hst _

theorem unsent_sendMember (s : State) (n die : Nat) (o : RingOp) (dst : Nat × Nat) (e : MsgHdr → Ev) : (sendMember s n die o dst e).unsent = s.unsent :=
  unsent_sendAway ..
theorem moves_sendMember (s : State) (n die : Nat) (o : RingOp) (dst : Nat × Nat) (e : MsgHdr → Ev) : Moves s (sendMember s n die o dst e) :=
  moves_sendAway ..
theorem sent_sendMember (s : State) (n die : Nat) (o : RingOp) (dst : Nat × Nat) (e : MsgHdr → Ev) : Sent s (sendMember s n die o dst e) n die dst e :=
  sent_sendAway ..

theorem posts_dropRing (s : State) (die : Nat) : Posts s (dropRing s die) := ⟨rfl, rfl, rfl, fun _ hx => hx, fun _ hm => hm⟩

theorem ring_dropRing (s : State) (die : Nat) : ((dropRing s die).die die).ring = none := by
  unfold dropRing
  rw [die_modDie]

theorem ringQ_dropRing (s : State) (die : Nat) : ((dropRing s die).die die).ringQ = (s.die die).ringQ := by
  unfold dropRing
  rw [die_modDie]
  rfl

/-- The cause that a halt tells the starter. -/
def haltCause (s : State) (die : Nat) (o : RingOp) (cause reason chunk under : Nat) : TrapRec :=
  { cause := cause, det := ringDet s die o cause reason chunk under, bund := o.bund }

/-- A halt: the operation is dropped, the starter told, then the notices leave. -/
theorem haltTelling_eq (s : State) (die : Nat) (o : RingOp) (ns : List (Nat × Nat)) (cause reason chunk under : Nat) :
    haltTelling s die o ns cause reason chunk under =
      ns.foldl (fun (s : State) n => sendHalt s die o cause reason n)
        ((dropRing s die).engineTrap o.who o.task (.scribe (opCluster o)) (haltCause s die o cause reason chunk under)) := rfl

theorem unsent_sendHalts (s : State) (die : Nat) (o : RingOp) (ns : List (Nat × Nat)) (cause reason : Nat) :
    (ns.foldl (fun (s : State) n => sendHalt s die o cause reason n) s).unsent = s.unsent := foldl_keeps (fun _ _ => unsent_sendMember ..) ..

/-- The notice of a halt leaves for every member that it names. -/
theorem sent_sendHalts (s : State) (die : Nat) (o : RingOp) {ns : List (Nat × Nat)} (cause reason : Nat) {n : Nat × Nat} (hn : n ∈ ns) :
    Sent s (ns.foldl (fun (s : State) n => sendHalt s die o cause reason n) s) 1 die n
      (fun h => .collectiveHaltNotice h o.coll o.grp o.no cause reason) :=
  foldl_reaches (P := fun t => Sent s t 1 die n (fun h => .collectiveHaltNotice h o.coll o.grp o.no cause reason)) (Q := Posts s) hn (.refl s)
    (fun _ _ h => h.trans (moves_sendMember ..).posts) (fun _ _ h => h.mono (moves_sendMember ..).posts)
    (fun _ h => (sent_sendMember ..).since h)

/-- What a halt does: memory stays, the engine is free, its queue as it was, the starter told and the notices on their way. -/
structure Halts (s t : State) (die : Nat) (o : RingOp) (ns : List (Nat × Nat)) (cause reason chunk under : Nat) : Prop where
  mem : t.mem = s.mem
  ring : (t.die die).ring = none
  ringQ : (t.die die).ringQ = (s.die die).ringQ
  told : o.task = none → (s.ctx o.who).task = none → (s.ctx o.who).st = .front →
    { haltCause s die o cause reason chunk under with cc := s.cc, dfr := true } ∈ (t.ctx o.who).pend
  sent : ∀ n ∈ ns, Sent s t 1 die n (fun h => .collectiveHaltNotice h o.coll o.grp o.no cause reason)

theorem halts_haltTelling (s : State) (die : Nat) (o : RingOp) (ns : List (Nat × Nat)) (cause reason chunk under : Nat) :
    Halts s (haltTelling s die o ns cause reason chunk under) die o ns cause reason chunk under := by
  rw [haltTelling_eq]
  have hu := unsent_sendHalts ((dropRing s die).engineTrap o.who o.task (.scribe (opCluster o)) (haltCause s die o cause reason chunk under))
    die o ns cause reason
  have htold := untold_engineTrap (dropRing s die) o.who o.task (.scribe (opCluster o)) (haltCause s die o cause reason chunk under)
  have hdies := (field_of_erased hu State.dies (fun _ => rfl)).trans (field_of_erased htold State.dies (fun _ => rfl))
  have hdie := congrArg (fun l => SMap.get {} l die) hdies
  refine ⟨?_, ?_, ?_, fun htask hctx hst => ?_, fun n hn => ?_⟩
  · exact (field_of_erased hu State.mem (fun _ => rfl)).trans (field_of_erased htold State.mem (fun _ => rfl))
  · exact (congrArg Die.ring hdie).trans (ring_dropRing s die)
  · exact (congrArg Die.ringQ hdie).trans (ringQ_dropRing s die)
  · have hctxs := field_of_erased hu State.ctxs (fun _ => rfl)
    rw [State.ctx, hctxs, htask]
    exact pend_engineTrap (s := dropRing s die) hctx hst _
  · exact (sent_sendHalts _ die o cause reason hn).since ((posts_dropRing s die).trans (posts_of_untold htold))

theorem halts_haltRing (s : State) (die : Nat) (o : RingOp) (cause reason chunk under : Nat) :
    Halts s (haltRing s die o cause reason chunk under) die o (neighbours s die o) cause reason chunk under := halts_haltTelling ..

/-- With nothing in the queue, no operation follows. -/
theorem nextRing_idle {die : Nat} (hq : (s.die die).ringQ = []) : nextRing s die = s := by
  unfold nextRing
  simp only [hq]
  cases (s.die die).ring <;> rfl

/-! ## Completions (15 R269) -/

theorem semOf_modSem (s : State) (cl k : Nat) (f : Sem → Sem) : semOf (modSem s cl k f) cl k = f (semOf s cl k) := by
  unfold semOf modSem
  rw [cluster_modCluster]
  exact SMap.get_upd_same ..

/-- A signal adds to the count, which holds at its maximum (12 R240). -/
theorem count_semSignal (s : State) (cl k n : Nat) :
    (semOf (semSignal s cl k n) cl k).count.toNat = min (2 ^ 32 - 1) ((semOf s cl k).count.toNat + n) := by
  rw [semSignal, semOf_modSem, BitVec.toNat_ofNat]
  exact Nat.mod_eq_of_lt (Nat.lt_of_le_of_lt (Nat.min_le_left ..) (by decide))

/-- What a completion without a barrier leaves: agents, memory and cores as they were, the engine free, its semaphore signalled. -/
structure Completes (s t : State) (die : Nat) (o : RingOp) : Prop where
  ctxs : t.ctxs = s.ctxs
  mem : t.mem = s.mem
  cores : t.cores = s.cores
  ring : (t.die die).ring = none
  signal : bit o.sem 6 = true → (semOf t (opCluster o) (o.sem % 64)).count.toNat = min (2 ^ 32 - 1) ((semOf s (opCluster o) (o.sem % 64)).count.toNat + 1)

theorem completes_finishRing {die : Nat} {o : RingOp} (hbar : o.bar = none) (hq : (s.die die).ringQ = []) : Completes s (finishRing s die o) die o := by
  have hfin (x : Loc → EngArrival) : engineFinish (dropRing s die) { cl := opCluster o, sem := o.sem, bar := o.bar } x =
      if bit o.sem 6 then semSignal (dropRing s die) (opCluster o) (o.sem % 64) 1 else dropRing s die := by
    unfold engineFinish
    rw [hbar]
  have hdone (u : State) (hu : u = if bit o.sem 6 then semSignal (dropRing s die) (opCluster o) (o.sem % 64) 1 else dropRing s die) :
      Completes s u die o ∧ (u.die die).ringQ = [] := by
    subst hu
    by_cases hb : bit o.sem 6 = true
    · rw [if_pos hb]
      exact ⟨⟨rfl, rfl, rfl, ring_dropRing s die, fun _ => count_semSignal ..⟩, (ringQ_dropRing s die).trans hq⟩
    · rw [if_neg hb]
      exact ⟨⟨rfl, rfl, rfl, ring_dropRing s die, fun h => absurd h hb⟩, (ringQ_dropRing s die).trans hq⟩
  unfold finishRing
  obtain ⟨hcomplete, hempty⟩ := hdone _ (hfin _)
  rw [nextRing_idle hempty]
  exact hcomplete

end

end Sys2Proof.Machine
end

section
/-!
PROOF. Collectives and ring transfers (15 R281-R285; 18 R324, R329, R332; 19 R347, R349): O54.
-/

namespace Sys2Proof.Machine

open State

/-! ## A chunk at a member (15 R282; 19 R349) -/

/-- The operation with the member that a chunk came from. -/
def RingOp.heard (o : RingOp) (ck : CollChunk) : RingOp := { o with pred := some (ck.pkg, ck.die) }
/-- A die whose operation has heard from the member that a chunk came from. -/
def State.heard (s : State) (die : Nat) (ck : CollChunk) : State := s.modDie die (fun d => { d with ring := d.ring.map (fun o => o.heard ck) })

/-- A chunk agrees with the operation of a member whose group register is `g`. -/
def Agrees (g : Nat × Nat × Nat × Nat) (o : RingOp) (ck : CollChunk) : Prop :=
  ck.grp = o.grp ∧ ck.op = o.op ∧ ck.fmt = o.fmt ∧ ck.nbuf = o.nbuf ∧ ck.lens = o.lens ∧ (ck.rank + 1) % g.1 = g.2.1

/-- The chunk that a member with group register `g` on a die of package `pkg` sends on. -/
def onwardChunk (ck : CollChunk) (g : Nat × Nat × Nat × Nat) (pkg die tag idx : Nat) (result : Bool) (bytes : List Byte) : CollChunk :=
  { ck with rank := g.2.1, pkg := pkg, die := die, tag := tag, idx := idx, result := result, bytes := bytes }

section
variable {s w t : State} {die : Nat} {o : RingOp} {ck : CollChunk}

theorem ring_heard (h : (s.die die).ring = some o) : ((s.heard die ck).die die).ring = some (o.heard ck) := by
  rw [State.heard, die_modDie, h]
  rfl

theorem groupOf_heard (s : State) (die : Nat) (ck : CollChunk) (d g : Nat) : groupOf (s.heard die ck) d g = groupOf s d g := groupOf_modRing ..

theorem posts_heard (s : State) (die : Nat) (ck : CollChunk) : Posts s (s.heard die ck) := posts_modDie ..

@[simp] theorem grp_heard (o : RingOp) (ck : CollChunk) : (o.heard ck).grp = o.grp := rfl

/-! ### Sending on -/

theorem sent_sendColl (s : State) (die : Nat) (o : RingOp) (idx : Nat) (result : Bool) (bytes : List Byte) :
    Sent s (sendColl s die o idx result bytes) hopTime die (groupOf s die o.grp).2.2
      (fun h => .collectiveChunk (groupOf s die o.grp).2.2.2 (mkChunk s die o idx result bytes h.tag)) := sent_sendMember ..
theorem unsent_sendColl (s : State) (die : Nat) (o : RingOp) (idx : Nat) (result : Bool) (bytes : List Byte) :
    (sendColl s die o idx result bytes).unsent = s.unsent := unsent_sendMember ..
theorem moves_sendColl (s : State) (die : Nat) (o : RingOp) (idx : Nat) (result : Bool) (bytes : List Byte) :
    Moves s (sendColl s die o idx result bytes) := moves_sendMember ..
theorem mem_sendColl (s : State) (die : Nat) (o : RingOp) (idx : Nat) (result : Bool) (bytes : List Byte) :
    (sendColl s die o idx result bytes).mem = s.mem := field_of_erased (unsent_sendColl ..) State.mem (fun _ => rfl)

/-- What a member with the operation's fields makes of an agreeing chunk. -/
theorem mkChunk_agrees (h : Agrees (groupOf s die o.grp) o ck) (hno : ck.no = o.no) (hbad : ck.bad = false) (hp : Posts s w)
    (hg : groupOf w die o.grp = groupOf s die o.grp) (idx : Nat) (result : Bool) (bytes : List Byte) (tag : Nat) :
    mkChunk w die (o.heard ck) idx result bytes tag = onwardChunk ck (groupOf s die o.grp) s.pkgid.toNat die tag idx result bytes := by
  obtain ⟨hgrp, hop, hfmt, hnbuf, hlens, -⟩ := h
  unfold mkChunk onwardChunk
  rw [grp_heard, hg, hp.pkgid, ← hgrp, hno, hop, hfmt, hnbuf, hlens, hbad]
  rfl

/-- An agreeing chunk that is sent on reaches the successor after one hop. -/
theorem sent_onward (h : Agrees (groupOf s die o.grp) o ck) (hno : ck.no = o.no) (hbad : ck.bad = false) (hp : Posts s w)
    (hg : groupOf w die o.grp = groupOf s die o.grp) (idx : Nat) (result : Bool) (bytes : List Byte) :
    Sent s (sendColl w die (o.heard ck) idx result bytes) hopTime die (groupOf s die o.grp).2.2 (fun h =>
      .collectiveChunk (groupOf s die o.grp).2.2.2 (onwardChunk ck (groupOf s die o.grp) s.pkgid.toNat die h.tag idx result bytes)) := by
  have hsent := (sent_sendColl w die (o.heard ck) idx result bytes).since hp
  simp only [grp_heard, mkChunk_agrees h hno hbad hp hg, hg] at hsent
  exact hsent

/-! ### What becomes of it -/

theorem agrees_guard (h : Agrees (groupOf s die o.grp) o ck) :
    ¬(ck.grp ≠ o.grp ∨ ck.op ≠ o.op ∨ ck.fmt ≠ o.fmt ∨ ck.nbuf ≠ o.nbuf ∨ ck.lens ≠ o.lens ∨
      (ck.rank + 1) % (groupOf s die o.grp).1 ≠ (groupOf s die o.grp).2.1) := by
  unfold Agrees at h
  tauto

/-- A partial sum that has further ranks before it is folded and sent on. -/
theorem takeChunk_passes {c : Nat × Nat × Nat × Nat} (h : Agrees (groupOf s die o.grp) o ck) (hbad : ck.bad = false)
    (hc : (chunkTable o.lens)[ck.idx]? = some c) (hres : ck.result = false) (hr : (groupOf s die o.grp).2.1 + 1 < (groupOf s die o.grp).1) :
    takeChunk s die o ck = sendColl (s.heard die ck) die (o.heard ck) ck.idx false (collBytes o.op o.fmt ck.bytes ((o.own.drop c.2.2.2).take c.2.2.1)) := by
  unfold takeChunk
  refine (if_neg (ne_true_of_eq_false hbad)).trans ((if_neg (agrees_guard h)).trans ?_)
  simp only [hc]
  exact (if_neg (ne_true_of_eq_false hres)).trans (if_pos hr)

theorem takeChunk_passed {c : Nat × Nat × Nat × Nat} (hring : (s.die die).ring = some o) (h : Agrees (groupOf s die o.grp) o ck) (hno : ck.no = o.no)
    (hbad : ck.bad = false) (hc : (chunkTable o.lens)[ck.idx]? = some c) (hres : ck.result = false)
    (hr : (groupOf s die o.grp).2.1 + 1 < (groupOf s die o.grp).1) :
    Sent s (takeChunk s die o ck) hopTime die (groupOf s die o.grp).2.2 (fun h => .collectiveChunk (groupOf s die o.grp).2.2.2
      (onwardChunk ck (groupOf s die o.grp) s.pkgid.toNat die h.tag ck.idx false
        (collBytes o.op o.fmt ck.bytes ((o.own.drop c.2.2.2).take c.2.2.1)))) ∧
    (takeChunk s die o ck).mem = s.mem ∧ ((takeChunk s die o ck).die die).ring = some (o.heard ck) := by
  rw [takeChunk_passes h hbad hc hres hr]
  exact ⟨sent_onward h hno hbad (posts_heard ..) (groupOf_heard ..) _ _ _, mem_sendColl .., ((moves_sendColl ..).ring die).trans (ring_heard hring)⟩

/-- The result of a chunk at a member: what came round, or the last rank's sum. -/
def resultBytes (o : RingOp) (ck : CollChunk) (c : Nat × Nat × Nat × Nat) : List Byte :=
  if ck.result then ck.bytes else collBytes o.op o.fmt ck.bytes ((o.own.drop c.2.2.2).take c.2.2.1)

/-- A result is sent on until the member before its sender has it, and written. -/
theorem takeChunk_writes {c : Nat × Nat × Nat × Nat} (h : Agrees (groupOf s die o.grp) o ck) (hbad : ck.bad = false)
    (hc : (chunkTable o.lens)[ck.idx]? = some c) (hr : ck.result = true ∨ (groupOf s die o.grp).1 ≤ (groupOf s die o.grp).2.1 + 1) :
    takeChunk s die o ck = writeChunk (if ck.result = false ∨ (groupOf s die o.grp).2.1 + 2 < (groupOf s die o.grp).1
      then sendColl (s.heard die ck) die (o.heard ck) ck.idx true (resultBytes o ck c) else s.heard die ck) die (o.heard ck) c ck.idx (resultBytes o ck c) := by
  unfold takeChunk
  refine (if_neg (ne_true_of_eq_false hbad)).trans ((if_neg (agrees_guard h)).trans ?_)
  simp only [hc]
  unfold resultBytes
  by_cases hres : ck.result = true
  · simp only [hres, if_true, Bool.true_eq_false, false_or]
    rfl
  · have hlast : ¬(groupOf s die o.grp).2.1 + 1 < (groupOf s die o.grp).1 := Nat.not_lt.mpr (hr.resolve_left hres)
    refine (if_neg hres).trans ((if_neg hlast).trans ?_)
    simp only [Bool.not_eq_true] at hres
    simp only [hres, true_or, if_true, Bool.false_eq_true, if_false]
    rfl

/-- A member learns that the result has reached every member. -/
theorem takeChunk_ends (h : Agrees (groupOf s die o.grp) o ck) (hbad : ck.bad = false) (hres : ck.result = true)
    (hidx : ck.idx = (chunkTable o.lens).length) (hall : wroteAll (s.heard die ck) die o.grp o.no = true) :
    takeChunk s die o ck = takeDone (s.heard die ck) die (o.heard ck) ck := by
  unfold takeChunk
  refine (if_neg (ne_true_of_eq_false hbad)).trans ((if_neg (agrees_guard h)).trans ?_)
  have hc : (chunkTable o.lens)[ck.idx]? = none := by rw [hidx, List.getElem?_eq_none (Nat.le_refl _)]
  simp only [hc]
  exact if_pos ⟨hres, hidx, hall⟩

/-- A chunk that met an error or disagrees halts the operation. -/
theorem takeChunk_halts (h : ck.bad = true ∨ ¬Agrees (groupOf s die o.grp) o ck) :
    takeChunk s die o ck = haltRing (s.heard die ck) die (o.heard ck) 0x45 (if ck.bad then 3 else 2) ck.idx := by
  unfold takeChunk
  by_cases hbad : ck.bad = true
  · rw [hbad]
    rfl
  · have hno : ck.grp ≠ o.grp ∨ ck.op ≠ o.op ∨ ck.fmt ≠ o.fmt ∨ ck.nbuf ≠ o.nbuf ∨ ck.lens ≠ o.lens ∨
        (ck.rank + 1) % (groupOf s die o.grp).1 ≠ (groupOf s die o.grp).2.1 := by
      have hdis := h.resolve_left hbad
      unfold Agrees at hdis
      tauto
    have hreason : (if ck.bad then 3 else 2) = 2 := if_neg hbad
    rw [hreason]
    exact (if_neg hbad).trans (if_pos hno)

/-! ### The last chunk (15 R282; 18 R332) -/

theorem unsent_sendDone (s : State) (die : Nat) (o : RingOp) : (sendDone s die o).unsent = s.unsent := by
  unfold sendDone
  dsimp only
  split
  · exact unsent_sendColl ..
  · exact unsent_sendColl ..

/-- A member tells its successor: the message is the empty chunk past the last. -/
theorem moves_sendDone_of_sendColl (s : State) (die : Nat) (o : RingOp) : Moves (sendColl s die o (chunkTable o.lens).length true []) (sendDone s die o) := by
  unfold sendDone
  dsimp only
  split
  · exact moves_after ..
  · exact .refl _

theorem moves_sendDone (s : State) (die : Nat) (o : RingOp) : Moves s (sendDone s die o) := (moves_sendColl ..).trans (moves_sendDone_of_sendColl s die o)

theorem sendDone_completes (s : State) (die : Nat) (o : RingOp) (h : (groupOf s die o.grp).2.2.1 = s.pkgid.toNat) :
    (s.cc + 1, Ev.collectiveComplete die) ∈ (sendDone s die o).agenda := by
  unfold sendDone
  dsimp only
  rw [if_pos h]
  exact (moves_sendColl ..).posts.mem_after 1 _

theorem sent_sendDone (h : Agrees (groupOf s die o.grp) o ck) (hno : ck.no = o.no) (hbad : ck.bad = false) (hp : Posts s w)
    (hg : groupOf w die o.grp = groupOf s die o.grp) :
    Sent s (sendDone w die (o.heard ck)) hopTime die (groupOf s die o.grp).2.2 (fun h =>
      .collectiveChunk (groupOf s die o.grp).2.2.2 (onwardChunk ck (groupOf s die o.grp) s.pkgid.toNat die h.tag (chunkTable o.lens).length true [])) :=
  (sent_onward h hno hbad hp hg _ _ _).mono (moves_sendDone_of_sendColl ..).posts

theorem unsent_completeAll (ms : List Nat) (s : State) : (ms.foldl (fun (s : State) d => s.after 1 (.collectiveComplete d)) s).unsent = s.unsent :=
  foldl_keeps (p := State.unsent) (fun s d => unsent_after s 1 (.collectiveComplete d)) ms s

theorem posts_completeAll (ms : List Nat) (s : State) : Posts s (ms.foldl (fun (s : State) d => s.after 1 (.collectiveComplete d)) s) :=
  List.foldlRecOn (motive := Posts s) ms _ (.refl s) (fun _ h _ _ => h.trans (moves_after ..).posts)

theorem completeAll_completes {ms : List Nat} {d : Nat} (hd : d ∈ ms) (s : State) :
    (s.cc + 1, Ev.collectiveComplete d) ∈ (ms.foldl (fun (s : State) d => s.after 1 (.collectiveComplete d)) s).agenda :=
  foldl_reaches (P := fun t : State => (s.cc + 1, Ev.collectiveComplete d) ∈ t.agenda) (Q := Posts s) hd (.refl s)
    (fun _ _ h => h.trans (moves_after ..).posts) (fun _ _ h => (moves_after ..).agenda _ h) (fun _ h => h.mem_after 1 _)

theorem unsent_doneIf (s : State) (die : Nat) (o : RingOp) : (doneIf s die o).unsent = s.unsent := by
  unfold doneIf
  dsimp only
  split
  · split
    · exact unsent_completeAll ..
    · rfl
  · split
    · exact unsent_sendDone ..
    · rfl

theorem posts_doneIf (s : State) (die : Nat) (o : RingOp) : Posts s (doneIf s die o) := by
  unfold doneIf
  dsimp only
  split
  · split
    · exact posts_completeAll ..
    · exact .refl s
  · split
    · exact (moves_sendDone ..).posts
    · exact .refl s

theorem doneIf_all (hn : (ringMembers s die o.grp).length = (groupOf s die o.grp).1) (hall : ∀ d ∈ ringMembers s die o.grp, wroteAll s d o.grp o.no = true)
    {d : Nat} (hd : d ∈ ringMembers s die o.grp) : (s.cc + 1, Ev.collectiveComplete d) ∈ (doneIf s die o).agenda := by
  unfold doneIf
  dsimp only
  rw [if_pos hn, if_pos (List.all_eq_true.mpr hall)]
  exact completeAll_completes hd s

theorem doneIf_last (hn : (ringMembers s die o.grp).length ≠ (groupOf s die o.grp).1) (hr : (groupOf s die o.grp).2.1 + 2 = (groupOf s die o.grp).1)
    (hall : wroteAll s die o.grp o.no = true) : doneIf s die o = sendDone s die o := by
  unfold doneIf
  dsimp only
  rw [if_neg hn, if_pos ⟨hr, hall⟩]

/-- What a member's result leaves: its bytes written and counted, the chunk sent on, and with the last chunk of the last member the completions (15 R282). -/
structure ResultWritten (s t : State) (die : Nat) (o : RingOp) (ck : CollChunk) (mem : List Host.Cell) (bytes : List Byte) : Prop where
  mem : t.mem = mem
  ring : (t.die die).ring = some { o.heard ck with wrote := o.wrote + 1 }
  onward : ck.result = false ∨ (groupOf s die o.grp).2.1 + 2 < (groupOf s die o.grp).1 → Sent s t hopTime die (groupOf s die o.grp).2.2 (fun h =>
    .collectiveChunk (groupOf s die o.grp).2.2.2 (onwardChunk ck (groupOf s die o.grp) s.pkgid.toNat die h.tag ck.idx true bytes))
  together : (ringMembers t die o.grp).length = (groupOf s die o.grp).1 → (∀ d ∈ ringMembers t die o.grp, wroteAll t d o.grp o.no = true) →
    ∀ d ∈ ringMembers t die o.grp, (s.cc + 1, Ev.collectiveComplete d) ∈ t.agenda
  last : (ringMembers t die o.grp).length ≠ (groupOf s die o.grp).1 → (groupOf s die o.grp).2.1 + 2 = (groupOf s die o.grp).1 →
    wroteAll t die o.grp o.no = true →
    Sent s t hopTime die (groupOf s die o.grp).2.2 (fun h =>
      .collectiveChunk (groupOf s die o.grp).2.2.2 (onwardChunk ck (groupOf s die o.grp) s.pkgid.toNat die h.tag (chunkTable o.lens).length true [])) ∧
    ((groupOf s die o.grp).2.2.1 = s.pkgid.toNat → (s.cc + 1, Ev.collectiveComplete die) ∈ t.agenda)

/-- A written chunk is counted, and the completion looked at (`doneIf`). -/
def counted (s : State) (die : Nat) : State := s.modDie die (fun d => { d with ring := d.ring.map (fun o => { o with wrote := o.wrote + 1 }) })

theorem writeChunk_ok {c : Nat × Nat × Nat × Nat} {idx : Nat} {bytes : List Byte} {segs : List (Loc × Nat)} {s1 : State}
    (h : opSegs s o .engWr (o.bufs.getD c.1 0 + c.2.1) c.2.2.1 = .ok (segs, s1)) :
    writeChunk s die o c idx bytes = doneIf (counted (engWriteAll s1 (.cp die) segs bytes) die) die o := by
  unfold writeChunk
  rw [h]
  rfl

/-- A result that is written in a state that follows on the chunk's arrival. -/
theorem resultWritten {c : Nat × Nat × Nat × Nat} {bytes : List Byte} {segs : List (Loc × Nat)} {s1 : State} (hring : (s.die die).ring = some o)
    (h : Agrees (groupOf s die o.grp) o ck) (hno : ck.no = o.no) (hbad : ck.bad = false) (hw : Moves (s.heard die ck) w)
    (hsent : ck.result = false ∨ (groupOf s die o.grp).2.1 + 2 < (groupOf s die o.grp).1 → Sent s w hopTime die (groupOf s die o.grp).2.2 (fun h =>
      .collectiveChunk (groupOf s die o.grp).2.2.2 (onwardChunk ck (groupOf s die o.grp) s.pkgid.toNat die h.tag ck.idx true bytes)))
    (hseg : opSegs w (o.heard ck) .engWr (o.bufs.getD c.1 0 + c.2.1) c.2.2.1 = .ok (segs, s1)) :
    ResultWritten s (writeChunk w die (o.heard ck) c ck.idx bytes) die o ck (engWriteAll s1 (.cp die) segs bytes).mem bytes := by
  rw [writeChunk_ok (o := o.heard ck) hseg]
  have hx : Moves w (engWriteAll s1 (.cp die) segs bytes) := (walked_opSegs hseg).moves.trans (moves_engWriteAll ..)
  generalize engWriteAll s1 (.cp die) segs bytes = x at hx ⊢
  have hux := hw.trans hx
  have hy : Posts w (counted x die) := hx.posts.trans (posts_modDie ..)
  have hsy : Posts s (counted x die) := ((posts_heard s die ck).trans hux.posts).trans (posts_modDie ..)
  have hyring : ((counted x die).die die).ring = some { o.heard ck with wrote := o.wrote + 1 } := by
    rw [counted, die_modDie]
    simp only [hux.ring, ring_heard hring]
    rfl
  have hyg : groupOf (counted x die) die o.grp = groupOf s die o.grp :=
    (groupOf_modRing ..).trans ((hux.groupOf die o.grp).trans (groupOf_heard ..))
  have hymem : (counted x die).mem = x.mem := rfl
  generalize counted x die = y at hy hsy hyring hyg hymem ⊢
  have hu := unsent_doneIf y die (o.heard ck)
  have hdies : (doneIf y die (o.heard ck)).dies = y.dies := field_of_erased hu State.dies (fun _ => rfl)
  have hdie (d : Nat) : (doneIf y die (o.heard ck)).die d = y.die d := by rw [State.die, hdies, State.die]
  have hmembers : ringMembers (doneIf y die (o.heard ck)) die o.grp = ringMembers y die o.grp :=
    ringMembers_congr hdies (field_of_erased hu State.pkgid (fun _ => rfl)) die o.grp
  have hwrote (d : Nat) : wroteAll (doneIf y die (o.heard ck)) d o.grp o.no = wroteAll y d o.grp o.no := wroteAll_congr (congrArg Die.ring (hdie d)) ..
  refine ⟨(field_of_erased hu State.mem (fun _ => rfl)).trans hymem, (congrArg Die.ring (hdie die)).trans hyring,
    fun hon => (hsent hon).mono (hy.trans (posts_doneIf ..)), fun hn hall d hd => ?_, fun hn hr hall => ?_⟩
  · simp only [hmembers, hwrote] at hn hall hd
    rw [← hyg] at hn
    rw [← hsy.cc]
    exact doneIf_all (o := o.heard ck) hn hall hd
  · rw [hmembers, ← hyg] at hn
    rw [hwrote] at hall
    have hlast := doneIf_last (o := o.heard ck) hn (by rw [grp_heard, hyg]; exact hr) hall
    rw [hlast]
    refine ⟨sent_sendDone h hno hbad hsy hyg, fun hself => ?_⟩
    rw [← hsy.cc]
    exact sendDone_completes y die (o.heard ck) (by rw [grp_heard, hyg, hsy.pkgid]; exact hself)

/-- A result chunk at a member whose buffer takes it. -/
theorem takeChunk_written {c : Nat × Nat × Nat × Nat} {segs : List (Loc × Nat)} {s1 : State} (hring : (s.die die).ring = some o)
    (h : Agrees (groupOf s die o.grp) o ck) (hno : ck.no = o.no) (hbad : ck.bad = false) (hc : (chunkTable o.lens)[ck.idx]? = some c)
    (hr : ck.result = true ∨ (groupOf s die o.grp).1 ≤ (groupOf s die o.grp).2.1 + 1)
    (hseg : opSegs (if ck.result = false ∨ (groupOf s die o.grp).2.1 + 2 < (groupOf s die o.grp).1
        then sendColl (s.heard die ck) die (o.heard ck) ck.idx true (resultBytes o ck c) else s.heard die ck)
      (o.heard ck) .engWr (o.bufs.getD c.1 0 + c.2.1) c.2.2.1 = .ok (segs, s1)) :
    ResultWritten s (takeChunk s die o ck) die o ck (engWriteAll s1 (.cp die) segs (resultBytes o ck c)).mem (resultBytes o ck c) := by
  rw [takeChunk_writes h hbad hc hr]
  by_cases hon : ck.result = false ∨ (groupOf s die o.grp).2.1 + 2 < (groupOf s die o.grp).1
  · rw [if_pos hon] at hseg ⊢
    exact resultWritten hring h hno hbad (moves_sendColl ..) (fun _ => sent_onward h hno hbad (posts_heard ..) (groupOf_heard ..) _ _ _) hseg
  · rw [if_neg hon] at hseg ⊢
    exact resultWritten hring h hno hbad (.refl _) (fun h => absurd h hon) hseg

/-- What a member that learns of the last result leaves: the answer, its own completion, the message to its successor (15 R282; 19 R407). -/
structure DoneTaken (s t : State) (die : Nat) (o : RingOp) (ck : CollChunk) : Prop where
  mem : t.mem = s.mem
  ring : (t.die die).ring = some (o.heard ck)
  answer : Answered s t ck.pkg ck.die die 1 (.remoteResponse { pkg := s.pkgid.toNat, die := die, dest := ck.die, tag := ck.tag } [])
  first : ((groupOf s die o.grp).2.1 + 1) % (groupOf s die o.grp).1 + 2 = (groupOf s die o.grp).1 → (s.cc + 1, Ev.collectiveComplete die) ∈ t.agenda
  others : ((groupOf s die o.grp).2.1 + 1) % (groupOf s die o.grp).1 + 2 ≠ (groupOf s die o.grp).1 →
    Sent s t hopTime die (groupOf s die o.grp).2.2 (fun h =>
      .collectiveChunk (groupOf s die o.grp).2.2.2 (onwardChunk ck (groupOf s die o.grp) s.pkgid.toNat die h.tag (chunkTable o.lens).length true [])) ∧
    ((groupOf s die o.grp).2.2.1 = s.pkgid.toNat → (s.cc + 1, Ev.collectiveComplete die) ∈ t.agenda)

/-- The header that answers a chunk. -/
def chunkHdr (ck : CollChunk) (die : Nat) : MsgHdr := { pkg := ck.pkg, die := ck.die, dest := die, tag := ck.tag }

theorem doneTaken (hring : (s.die die).ring = some o) (h : Agrees (groupOf s die o.grp) o ck) (hno : ck.no = o.no) (hbad : ck.bad = false) :
    DoneTaken s (takeDone (s.heard die ck) die (o.heard ck) ck) die o ck := by
  have ha : Answered s (answer (s.heard die ck) (chunkHdr ck die) 0 []) ck.pkg ck.die die 1
      (.remoteResponse { pkg := s.pkgid.toNat, die := die, dest := ck.die, tag := ck.tag } []) :=
    (answered_done (s.heard die ck) (chunkHdr ck die)).since (posts_heard ..)
  have hu : (answer (s.heard die ck) (chunkHdr ck die) 0 []).unanswered = (s.heard die ck).unanswered := unanswered_reply ..
  have hp : Posts (s.heard die ck) (answer (s.heard die ck) (chunkHdr ck die) 0 []) := posts_reply ..
  have htake : takeDone (s.heard die ck) die (o.heard ck) ck =
      if ((groupOf (s.heard die ck) die o.grp).2.1 + 1) % (groupOf (s.heard die ck) die o.grp).1 + 2 = (groupOf (s.heard die ck) die o.grp).1
      then (answer (s.heard die ck) (chunkHdr ck die) 0 []).after 1 (.collectiveComplete die)
      else sendDone (answer (s.heard die ck) (chunkHdr ck die) 0 []) die (o.heard ck) := rfl
  rw [htake, groupOf_heard]
  generalize answer (s.heard die ck) (chunkHdr ck die) 0 [] = y at ha hu hp ⊢
  have hsy : Posts s y := (posts_heard ..).trans hp
  have hdies : y.dies = (s.heard die ck).dies := field_of_erased hu State.dies (fun _ => rfl)
  have hdie (d : Nat) : y.die d = (s.heard die ck).die d := by rw [State.die, hdies, State.die]
  have hyg : groupOf y die o.grp = groupOf s die o.grp := (groupOf_congr (congrArg Die.group (hdie die)) _).trans (groupOf_heard ..)
  have hymem : y.mem = s.mem := field_of_erased hu State.mem (fun _ => rfl)
  have hyring : (y.die die).ring = some (o.heard ck) := (congrArg Die.ring (hdie die)).trans (ring_heard hring)
  by_cases hfirst : ((groupOf s die o.grp).2.1 + 1) % (groupOf s die o.grp).1 + 2 = (groupOf s die o.grp).1
  · rw [if_pos hfirst]
    exact ⟨hymem, hyring, ha.mono (moves_after ..).posts (fun _ hm => hm), fun _ => hsy.mem_after 1 _, fun hn => absurd hfirst hn⟩
  · rw [if_neg hfirst]
    have hd := unsent_sendDone y die (o.heard ck)
    have hddie : (sendDone y die (o.heard ck)).die die = y.die die := by
      rw [State.die, field_of_erased hd State.dies (fun _ => rfl), State.die]
    have hnotices : (sendDone y die (o.heard ck)).notices = y.notices := field_of_erased hd State.notices (fun _ => rfl)
    refine ⟨(field_of_erased hd State.mem (fun _ => rfl)).trans hymem, (congrArg Die.ring hddie).trans hyring,
      ha.mono (moves_sendDone ..).posts (fun m hm => hnotices ▸ hm), fun hf => absurd hf hfirst,
      fun _ => ⟨sent_sendDone h hno hbad hsy hyg, fun hself => ?_⟩⟩
    rw [← hsy.cc]
    exact sendDone_completes y die (o.heard ck) (by rw [grp_heard, hyg, hsy.pkgid]; exact hself)

/-! ### The step of a chunk -/

/-- With no operation, a chunk waits for the one that it names, or is nothing. -/
theorem exec_collectiveChunk_idle (hok : (Ev.collectiveChunk die ck).ok = true) (hring : (s.die die).ring = none) :
    exec .collectiveChunk (s.given (.collectiveChunk die ck)) = .next (if ringCount s die true ck.grp ≤ ck.no
      then (s.given (.collectiveChunk die ck)).after 1 (.collectiveChunk die ck) else s.given (.collectiveChunk die ck)) := by
  show execCollectiveChunk (s.given (.collectiveChunk die ck)) = _
  unfold execCollectiveChunk
  refine evStep_given s _ hok ?_
  simp only [State.given_die, hring]
  by_cases hearly : ringCount s die true ck.grp ≤ ck.no
  · rw [if_pos hearly]
    exact congrArg (fun x => some (Host.Outcome.next x)) (if_pos (decide_eq_true hearly))
  · rw [if_neg hearly]
    exact congrArg (fun x => some (Host.Outcome.next x)) (if_neg (ne_true_of_eq_false (decide_eq_false hearly)))

/-- A chunk that reaches the collective of its group, or one that names another group and whose own may yet start. -/
theorem exec_collectiveChunk (hok : (Ev.collectiveChunk die ck).ok = true) (hring : (s.die die).ring = some o) (hcoll : o.coll = true)
    (hthis : if o.grp = ck.grp then o.no = ck.no else ringCount s die true ck.grp ≤ ck.no) :
    exec .collectiveChunk (s.given (.collectiveChunk die ck)) = .next (takeChunk (s.given (.collectiveChunk die ck)) die o ck) := by
  show execCollectiveChunk (s.given (.collectiveChunk die ck)) = _
  unfold execCollectiveChunk
  refine evStep_given s _ hok ?_
  simp only [State.given_die, hring]
  refine congrArg some (if_pos ⟨hcoll, ?_⟩)
  split
  next hg => exact (if_pos hg).mp hthis
  next hg =>
    rw [if_neg hg] at hthis
    exact decide_eq_true hthis

/-- A member of rank 0 at its step of a chunk (19 R349). -/
theorem exec_ringChunk_coll (hok : (Ev.ringChunk die).ok = true) (hring : (s.die die).ring = some o) (hcoll : o.coll = true) (hcc : o.nextCc ≤ s.cc) :
    exec .ringChunk (s.given (.ringChunk die)) = .next (collTurn (s.given (.ringChunk die)) die o) := by
  show execRingChunk (s.given (.ringChunk die)) = _
  unfold execRingChunk
  refine evStep_given s _ hok ?_
  simp only [State.given_die, hring]
  refine congrArg some ((if_neg (Nat.not_lt.mpr hcc)).trans ?_)
  rw [if_pos hcoll]

/-! ### Rank 0's chunks (19 R349) -/

/-- An engine that has sent its chunk: the next one follows a hop later. -/
def State.stepped (s : State) (die cc : Nat) : State :=
  s.modDie die (fun d => { d with ring := d.ring.map (fun o => { o with next := o.next + 1, nextCc := cc + hopTime }) })

theorem ring_stepped (h : (s.die die).ring = some o) (cc : Nat) :
    ((s.stepped die cc).die die).ring = some { o with next := o.next + 1, nextCc := cc + hopTime } := by
  rw [State.stepped, die_modDie, h]
  rfl

theorem groupOf_stepped (s : State) (die cc d g : Nat) : groupOf (s.stepped die cc) d g = groupOf s d g := groupOf_modRing ..
theorem posts_stepped (s : State) (die cc : Nat) : Posts s (s.stepped die cc) := posts_modDie ..

theorem mkChunk_stepped (s : State) (die cc : Nat) (o : RingOp) (idx : Nat) (result : Bool) (bytes : List Byte) (tag : Nat) :
    mkChunk (s.stepped die cc) die o idx result bytes tag = mkChunk s die o idx result bytes tag := by
  unfold mkChunk
  rw [groupOf_stepped, (posts_stepped s die cc).pkgid]

/-- Rank 0's turn: alone it has its result at once. -/
theorem collTurn_sends {c : Nat × Nat × Nat × Nat} (hc : (chunkTable o.lens)[o.next]? = some c) (hr : (groupOf s die o.grp).2.1 = 0) :
    collTurn s die o = if (groupOf s die o.grp).1 = 1
      then (s.stepped die s.cc).at_ s.cc (.collectiveChunk die (mkChunk (s.stepped die s.cc) die o o.next true ((o.own.drop c.2.2.2).take c.2.2.1) 0))
      else sendColl (s.stepped die s.cc) die o o.next false ((o.own.drop c.2.2.2).take c.2.2.1) := by
  have hsome : ¬(chunkTable o.lens).isEmpty = true := by
    intro hempty
    rw [List.isEmpty_iff.mp hempty] at hc
    cases hc
  unfold collTurn
  refine (if_neg hsome).trans ?_
  simp only [hc]
  exact if_neg (not_not_intro hr)

theorem collTurn_result {c : Nat × Nat × Nat × Nat} (hring : (s.die die).ring = some o) (hc : (chunkTable o.lens)[o.next]? = some c)
    (hr : (groupOf s die o.grp).2.1 = 0) :
    (collTurn s die o).mem = s.mem ∧ ((collTurn s die o).die die).ring = some { o with next := o.next + 1, nextCc := s.cc + hopTime } ∧
    (if (groupOf s die o.grp).1 = 1
      then (s.cc, Ev.collectiveChunk die (mkChunk s die o o.next true ((o.own.drop c.2.2.2).take c.2.2.1) 0)) ∈ (collTurn s die o).agenda
      else Sent s (collTurn s die o) hopTime die (groupOf s die o.grp).2.2
        (fun h => .collectiveChunk (groupOf s die o.grp).2.2.2 (mkChunk s die o o.next false ((o.own.drop c.2.2.2).take c.2.2.1) h.tag))) := by
  rw [collTurn_sends hc hr]
  by_cases hone : (groupOf s die o.grp).1 = 1
  · rw [if_pos hone, if_pos hone, mkChunk_stepped]
    exact ⟨rfl, ring_stepped hring _, mem_agendaInsert.mpr (.inl rfl)⟩
  · rw [if_neg hone, if_neg hone]
    have hsent := (sent_sendColl (s.stepped die s.cc) die o o.next false ((o.own.drop c.2.2.2).take c.2.2.1)).since (posts_stepped s die s.cc)
    simp only [mkChunk_stepped, groupOf_stepped] at hsent
    exact ⟨mem_sendColl .., ((moves_sendColl ..).ring die).trans (ring_stepped hring _), hsent⟩

/-! ### Completion (15 R269, R282) -/

theorem SMap.get_filter_dropped {α : Type} (d : α) (p : Nat × α → Bool) (m : SMap α) (k : Nat) (hk : ∀ x, p (k, x) = false) :
    SMap.get d (m.filter p) k = d := by
  refine SMap.get_unlisted d _ k (fun hmem => ?_)
  obtain ⟨⟨j, x⟩, hx, rfl⟩ := List.mem_map.mp hmem
  exact ne_true_of_eq_false (hk x) (List.mem_filter.mp hx).2

/-- A core's L1 without the lines of places. -/
def purgeLines (segs : List (Loc × Nat)) (c : CoreSt) : CoreSt :=
  { c with l1 := c.l1.filter (fun e =>
      !(segs.map (fun g => (linOf g.1 / 128, (linOf g.1 + g.2 + 127) / 128))).any (fun r => decide (r.1 ≤ e.1 ∧ e.1 < r.2))) }

/-- A line of a place is not held after the purge. -/
theorem purgeLines_drops {segs : List (Loc × Nat)} {x : Loc × Nat} (hx : x ∈ segs) {k : Nat} (hlo : linOf x.1 / 128 ≤ k) (hhi : k * 128 < linOf x.1 + x.2)
    (c : CoreSt) : (purgeLines segs c).l1.get {} k = {} := by
  refine SMap.get_filter_dropped _ _ _ _ (fun _ => ?_)
  have hany : (segs.map (fun g => (linOf g.1 / 128, (linOf g.1 + g.2 + 127) / 128))).any (fun r => decide (r.1 ≤ k ∧ k < r.2)) = true :=
    List.any_eq_true.mpr ⟨_, List.mem_map.mpr ⟨x, hx, rfl⟩, decide_eq_true ⟨hlo, by show k < (linOf x.1 + x.2 + 127) / 128; omega⟩⟩
  rw [hany]
  rfl

/-- The state in which a collective completes: its buffers' lines have left its starter's L1. -/
def purged (s : State) (o : RingOp) : State :=
  if !o.who.onCore then s else
    match bufferSegs s o (o.bufs.zip o.lens) with
    | .error _ => s
    | .ok (segs, s) => s.modCore o.who.core (purgeLines segs)

theorem purged_of_bufferSegs {segs : List (Loc × Nat)} {s1 : State} (hcore : o.who.onCore = true)
    (h : bufferSegs s o (o.bufs.zip o.lens) = .ok (segs, s1)) : purged s o = s1.modCore o.who.core (purgeLines segs) := by
  unfold purged
  rw [if_neg (bang_false hcore), h]

/-- What the purge leaves alone. -/
theorem purged_keeps (s : State) (o : RingOp) : (purged s o).ctxs = s.ctxs ∧ (purged s o).mem = s.mem ∧ (purged s o).clusters = s.clusters ∧
    ∀ d, ((purged s o).die d).ringQ = (s.die d).ringQ := by
  unfold purged
  split
  · exact ⟨rfl, rfl, rfl, fun _ => rfl⟩
  · split
    · exact ⟨rfl, rfl, rfl, fun _ => rfl⟩
    · rename_i h
      have hw := walked_bufferSegs h
      exact ⟨hw.moves.ctxs, hw.mem, hw.clusters, hw.moves.ringQ⟩

theorem exec_collectiveComplete (hok : (Ev.collectiveComplete die).ok = true) (hring : (s.die die).ring = some o) (hcoll : o.coll = true)
    (hall : (chunkTable o.lens).length ≤ o.wrote) :
    exec .collectiveComplete (s.given (.collectiveComplete die)) = .next (finishRing (purged (s.given (.collectiveComplete die)) o) die o) := by
  show execCollectiveComplete (s.given (.collectiveComplete die)) = _
  unfold execCollectiveComplete
  refine evStep_given s _ hok ?_
  have hgo : ¬((!o.coll) = true ∨ o.wrote < (chunkTable o.lens).length) := fun h => h.elim (bang_false hcoll) (Nat.not_lt.mpr hall)
  simp only [State.given_die, hring]
  exact congrArg some (if_neg hgo)

/-- A collective completes: its semaphore signalled, its buffers' lines purged. -/
theorem collective_completes {e : Ev} (hbar : o.bar = none) (hq : (s.die die).ringQ = []) :
    let t := finishRing (purged (s.given e) o) die o
    (t.die die).ring = none ∧ t.ctxs = s.ctxs ∧ t.mem = s.mem ∧
    (bit o.sem 6 = true → (semOf t (opCluster o) (o.sem % 64)).count.toNat = min (2 ^ 32 - 1) ((semOf s (opCluster o) (o.sem % 64)).count.toNat + 1)) ∧
    ∀ segs s1, o.who.onCore = true → bufferSegs (s.given e) o (o.bufs.zip o.lens) = .ok (segs, s1) →
      ∀ x ∈ segs, ∀ k, linOf x.1 / 128 ≤ k → k * 128 < linOf x.1 + x.2 → (t.core o.who.core).l1.get {} k = {} := by
  intro t
  obtain ⟨hctxs, hmem, hclusters, hringQ⟩ := purged_keeps (s.given e) o
  have hdone : Completes (purged (s.given e) o) t die o := completes_finishRing hbar ((hringQ die).trans hq)
  have hsem : semOf (purged (s.given e) o) (opCluster o) (o.sem % 64) = semOf s (opCluster o) (o.sem % 64) := by
    rw [semOf, State.cluster, hclusters]
    rfl
  refine ⟨hdone.ring, hdone.ctxs.trans hctxs, hdone.mem.trans hmem, fun hb => ?_, fun segs s1 hcore hsegs x hx k hlo hhi => ?_⟩
  · rw [hdone.signal hb, hsem]
  · have hcores : t.core o.who.core = purgeLines segs (s1.core o.who.core) := by
      rw [State.core, hdone.cores, purged_of_bufferSegs hcore hsegs]
      exact core_modCore ..
    rw [hcores]
    exact purgeLines_drops hx hlo hhi _

end

/-! ### Halts (15 R282) -/

section
variable {s : State} {die : Nat} {o : RingOp} {ck : CollChunk}

theorem neighbours_heard (s : State) (die : Nat) (o : RingOp) (ck : CollChunk) {n : Nat × Nat} (hn : n = (groupOf s die o.grp).2.2 ∨ n = (ck.pkg, ck.die))
    (hself : n ≠ (s.pkgid.toNat, die)) : n ∈ neighbours (s.heard die ck) die (o.heard ck) := by
  have hmem : n ∈ ((groupOf (s.heard die ck) die o.grp).2.2 :: [(ck.pkg, ck.die)]).dedup := by
    rw [List.mem_dedup, groupOf_heard]
    simpa using hn
  exact List.mem_filter.mpr ⟨hmem, bne_iff_ne.mpr hself⟩

/-- A chunk that halts the operation: the starter learns the reason, the successor and the sender the halt. -/
theorem collective_halts (h : ck.bad = true ∨ ¬Agrees (groupOf s die o.grp) o ck) (hcoll : o.coll = true) :
    let t := takeChunk s die o ck
    (t.die die).ring = none ∧ t.mem = s.mem ∧
    (o.task = none → (s.ctx o.who).task = none → (s.ctx o.who).st = .front → ∃ r ∈ (t.ctx o.who).pend, r.cause = 0x45 ∧ r.bund = o.bund ∧
      r.det.d1 = BitVec.ofNat 64 (o.grp + (if ck.bad then 3 else 2) * 2 ^ 8) ∧ r.det.d2 = BitVec.ofNat 64 ck.idx) ∧
    ∀ n, n = (groupOf s die o.grp).2.2 ∨ n = (ck.pkg, ck.die) → n ≠ (s.pkgid.toNat, die) →
      Sent s t 1 die n (fun h => .collectiveHaltNotice h true o.grp o.no 0x45 (if ck.bad then 3 else 2)) := by
  intro t
  have hhalt : Halts (s.heard die ck) t die (o.heard ck) (neighbours (s.heard die ck) die (o.heard ck)) 0x45 (if ck.bad then 3 else 2) ck.idx 0 := by
    rw [show t = _ from takeChunk_halts h]
    exact halts_haltRing ..
  refine ⟨hhalt.ring, hhalt.mem, fun htask hctx hst => ⟨_, hhalt.told htask hctx hst, rfl, rfl, rfl, rfl⟩, fun n hn hself => ?_⟩
  have hsent := (hhalt.sent n (neighbours_heard s die o ck hn hself)).since (posts_heard ..)
  rw [show (o.heard ck).coll = true from hcoll] at hsent
  exact hsent

/-- A member that receives the notice of its own operation halts alike. -/
theorem haltNotice_halts {h : MsgHdr} {coll : Bool} {grp no cause reason : Nat} (hh : h.ok = true) (hdest : h.dest = die)
    (hring : (s.die die).ring.filter (fun o => o.coll == coll && o.grp == grp && o.no == no) = some o) (hq : (s.die die).ringQ = []) :
    ∃ t, exec .collectiveHaltNotice (s.given (.collectiveHaltNotice h coll grp no cause reason)) = .next t ∧ (t.die die).ring = none ∧ t.mem = s.mem ∧
      (o.task = none → (s.ctx o.who).task = none → (s.ctx o.who).st = .front → Told t o.who cause o.bund) ∧
      ∀ n ∈ neighbours s die o, Sent s t 1 die n (fun h => .collectiveHaltNotice h coll grp no cause reason) := by
  have hexec : exec .collectiveHaltNotice (s.given (.collectiveHaltNotice h coll grp no cause reason)) =
      .next (nextRing (haltRing (s.given (.collectiveHaltNotice h coll grp no cause reason)) die o cause reason) die) := by
    show execCollectiveHaltNotice (s.given (.collectiveHaltNotice h coll grp no cause reason)) = _
    unfold execCollectiveHaltNotice
    refine evStep_given s _ hh ?_
    simp only [hdest, State.given_die, hring]
  have hhalt := halts_haltRing (s.given (.collectiveHaltNotice h coll grp no cause reason)) die o cause reason 0 0
  rw [nextRing_idle (hhalt.ringQ.trans hq)] at hexec
  obtain ⟨-, hkind⟩ := Option.filter_eq_some_iff.mp hring
  simp only [Bool.and_eq_true, beq_iff_eq] at hkind
  obtain ⟨⟨hcoll, hgrp⟩, hno⟩ := hkind
  refine ⟨_, hexec, hhalt.ring, hhalt.mem, fun htask hctx hst => ⟨_, hhalt.told htask hctx hst, rfl, rfl⟩, fun n hn => ?_⟩
  have hsent := hhalt.sent n hn
  rw [hcoll, hgrp, hno] at hsent
  exact hsent

/-- A notice that names no operation that runs waits for the collective that it names, or is nothing. -/
theorem haltNotice_waits {h : MsgHdr} {coll : Bool} {grp no cause reason : Nat} (hh : h.ok = true) (hdest : h.dest = die)
    (hring : (s.die die).ring.filter (fun o => o.coll == coll && o.grp == grp && o.no == no) = none) :
    exec .collectiveHaltNotice (s.given (.collectiveHaltNotice h coll grp no cause reason)) =
      .next (if coll = true ∧ ringCount s die true grp ≤ no
        then (s.given (.collectiveHaltNotice h coll grp no cause reason)).after 1 (.collectiveHaltNotice h coll grp no cause reason)
        else s.given (.collectiveHaltNotice h coll grp no cause reason)) := by
  show execCollectiveHaltNotice (s.given (.collectiveHaltNotice h coll grp no cause reason)) = _
  unfold execCollectiveHaltNotice
  refine evStep_given s _ hh ?_
  simp only [hdest, State.given_die, hring, Bool.and_eq_true, decide_eq_true_eq]
  rfl

end

theorem collectives : Claims.RingEventResults := by
  intro s die ck hdie hok
  have hcomplete : (Ev.collectiveComplete die).ok = true := by simp [Ev.ok, Ev.unitOk, Ev.hdrOk, Ev.message, hdie]
  have hturn : (Ev.ringChunk die).ok = true := by simp [Ev.ok, Ev.unitOk, Ev.hdrOk, Ev.message, hdie]
  refine ⟨exec_collectiveChunk_idle hok, fun o hring hcoll => ?_, fun h coll grp no cause reason hh hdest => ?_⟩
  · intro g o' u same next done
    have hgo := fun hthis => exec_collectiveChunk hok hring hcoll hthis
    have hmine (hsame : same) (hno : ck.no = o.no) := hgo (by rw [if_pos hsame.1.symm]; exact hno.symm)
    refine ⟨fun c hsame hbad hno hc => ?_, fun hsame hbad hno hres hidx hall => ?_, fun hthis hbad => ?_, fun c hcc hc hr => ?_, fun hall hbar hq => ?_⟩
    · intro sum
      refine ⟨fun hres hr => ?_, fun hr => ?_⟩
      · exact ⟨_, hmine hsame hno, takeChunk_passed (s := s.given (.collectiveChunk die ck)) hring hsame hno hbad hc hres hr⟩
      · intro bytes on segs s1 hseg
        have hw := takeChunk_written (s := s.given (.collectiveChunk die ck)) hring hsame hno hbad hc hr hseg
        exact ⟨_, hmine hsame hno, hw.mem, hw.ring, hw.onward, hw.together, hw.last⟩
    · have hheard : wroteAll ((s.given (.collectiveChunk die ck)).heard die ck) die o.grp o.no = true := by
        unfold wroteAll at hall ⊢
        rw [hring] at hall
        rw [ring_heard (s := s.given (.collectiveChunk die ck)) hring]
        exact hall
      have hd := doneTaken (s := s.given (.collectiveChunk die ck)) hring hsame hno hbad
      refine ⟨_, (hmine hsame hno).trans (congrArg Host.Outcome.next (takeChunk_ends hsame hbad hres hidx hheard)), hd.mem,
        hd.ring, hd.answer, hd.first, hd.others⟩
    · exact ⟨_, hgo hthis, collective_halts hbad hcoll⟩
    · exact ⟨_, exec_ringChunk_coll hturn hring hcoll hcc, collTurn_result (s := s.given (.ringChunk die)) hring hc hr⟩
    · exact ⟨_, exec_collectiveComplete hcomplete hring hcoll hall, collective_completes hbar hq⟩
  · intro e
    split
    next o hring => exact fun hq => haltNotice_halts hh hdest hring hq
    next hring => exact haltNotice_waits hh hdest hring

/-! ## Ring transfers: the sender (15 R284) -/

section
variable {s t u : State} {die : Nat} {o : RingOp}

theorem exec_ringChunk_ring (hok : (Ev.ringChunk die).ok = true) (hring : (s.die die).ring = some o) (hcoll : o.coll = false) (hcc : o.nextCc ≤ s.cc) :
    exec .ringChunk (s.given (.ringChunk die)) = .next (ringTurn (s.given (.ringChunk die)) die o) := by
  show execRingChunk (s.given (.ringChunk die)) = _
  unfold execRingChunk
  refine evStep_given s _ hok ?_
  simp only [State.given_die, hring]
  refine congrArg some ((if_neg (Nat.not_lt.mpr hcc)).trans ?_)
  rw [if_neg (ne_true_of_eq_false hcoll)]

/-- The chunk of a transfer, with the header that it travels under (15 R284). -/
def transferChunk (o : RingOp) (bytes : List Byte) (h : MsgHdr) : RingChunk :=
  { pkg := h.pkg, die := h.die, tag := h.tag, proc := idProc o.who o.id, vf := idVf o.id, op := o.op, fmt := o.fmt, sem := o.first + o.next
    dst := BitVec.ofNat 64 (o.dst + 65536 * o.next), bytes := bytes }
/-- What a transfer's message is sent for. -/
def transferRemote (die : Nat) (o : RingOp) : Remote := { who := o.who, purpose := .ring die o.grp o.no, bund := o.bund }

/-- The next chunk's semaphore is taken. -/
def semTaken (s : State) (die : Nat) (o : RingOp) : State := setRingSem s die (o.first + o.next) ((ringSem s die (o.first + o.next)).toNat - 1)

theorem posts_semTaken (s : State) (die : Nat) (o : RingOp) : Posts s (semTaken s die o) := posts_modDie ..
theorem die_semTaken (s : State) (die : Nat) (o : RingOp) : (semTaken s die o).die die = { s.die die with
    rsem := (s.die die).rsem.put 0 (o.first + o.next) (BitVec.ofNat 16 ((ringSem s die (o.first + o.next)).toNat - 1)) } := die_modDie ..
theorem group_semTaken (s : State) (die : Nat) (o : RingOp) : ((semTaken s die o).die die).group = (s.die die).group := by rw [die_semTaken]
theorem ringSem_semTaken (s : State) (die : Nat) (o : RingOp) :
    (ringSem (semTaken s die o) die (o.first + o.next)).toNat = (ringSem s die (o.first + o.next)).toNat - 1 := by
  rw [ringSem, die_semTaken, SMap.get_put_same, BitVec.toNat_ofNat]
  exact Nat.mod_eq_of_lt (Nat.lt_of_le_of_lt (Nat.sub_le ..) (ringSem s die (o.first + o.next)).isLt)

/-- A transfer with a chunk yet to send waits for the chunk's semaphore. -/
theorem ringTurn_waits (hw : o.wrote ≠ o.nch) (hn : o.next < o.nch) (hm : ringSem s die (o.first + o.next) = 0) : ringTurn s die o = s := by
  unfold ringTurn
  exact (if_neg hw).trans ((if_neg (Nat.not_le.mpr hn)).trans (if_pos hm))

theorem ringTurn_faults {f : AFault} (hw : o.wrote ≠ o.nch) (hn : o.next < o.nch) (hm : ringSem s die (o.first + o.next) ≠ 0)
    (hf : opSegs (semTaken s die o) o .engRd (o.src + 65536 * o.next) 65536 = .error f) :
    ringTurn s die o = nextRing (haltRing (semTaken s die o) die o 0x45 4 o.next f.cause) die := by
  unfold ringTurn
  refine (if_neg hw).trans ((if_neg (Nat.not_le.mpr hn)).trans ((if_neg hm).trans ?_))
  unfold semTaken at hf ⊢
  simp only [hf]

/-- A chunk that the engine can read. -/
theorem ringTurn_reads {segs : List (Loc × Nat)} {s1 : State} (hw : o.wrote ≠ o.nch) (hn : o.next < o.nch) (hm : ringSem s die (o.first + o.next) ≠ 0)
    (hseg : opSegs (semTaken s die o) o .engRd (o.src + 65536 * o.next) 65536 = .ok (segs, s1)) :
    ringTurn s die o = if segs.any (fun x => s1.poisonedAt x.1 x.2) then nextRing (haltRing s1 die o 0x45 3 o.next) die else
      ((engReadAll s1 (.cp die) segs).2.stepped die s1.cc).sendAwaited hopTime (transferRemote die o) die (groupOf s1 die o.grp).2.2.1
        (groupOf s1 die o.grp).2.2.2 (fun h => .ringChunkReceive (groupOf s1 die o.grp).2.2.2 (transferChunk o (engReadAll s1 (.cp die) segs).1 h)) := by
  unfold ringTurn
  refine (if_neg hw).trans ((if_neg (Nat.not_le.mpr hn)).trans ((if_neg hm).trans ?_))
  unfold semTaken at hseg
  simp only [hseg]
  rfl

/-- A transfer that halts, from a state that keeps what the halt depends on. -/
theorem transfer_halts {v : State} (hctx : v.ctx o.who = s.ctx o.who) (hmem : v.mem = s.mem) (hq : (v.die die).ringQ = []) (reason chunk under : Nat)
    (htask : o.task = none) (hfree : (s.ctx o.who).task = none) (hst : (s.ctx o.who).st = .front) :
    let t := nextRing (haltRing v die o 0x45 reason chunk under) die
    (t.die die).ring = none ∧ Told t o.who 0x45 o.bund ∧ t.mem = s.mem := by
  intro t
  have hhalt := halts_haltRing v die o 0x45 reason chunk under
  have ht : t = haltRing v die o 0x45 reason chunk under := nextRing_idle (hhalt.ringQ.trans hq)
  rw [ht]
  exact ⟨hhalt.ring, ⟨_, hhalt.told htask (by rw [hctx]; exact hfree) (by rw [hctx]; exact hst), rfl, rfl⟩, hhalt.mem.trans hmem⟩

/-- A chunk that is sent: the count of its semaphore taken, the next chunk a hop later. -/
theorem transfer_sends {segs : List (Loc × Nat)} {s1 : State} (hring : (s.die die).ring = some o) (hw : o.wrote ≠ o.nch) (hn : o.next < o.nch)
    (hm : ringSem s die (o.first + o.next) ≠ 0) (hseg : opSegs (semTaken s die o) o .engRd (o.src + 65536 * o.next) 65536 = .ok (segs, s1))
    (hclean : ∀ x ∈ segs, s1.poisonedAt x.1 x.2 = false) :
    (ringSem (ringTurn s die o) die (o.first + o.next)).toNat = (ringSem s die (o.first + o.next)).toNat - 1 ∧
    ((ringTurn s die o).die die).ring = some { o with next := o.next + 1, nextCc := s.cc + hopTime } ∧
    Sent s (ringTurn s die o) hopTime die (groupOf s die o.grp).2.2
      (fun h => .ringChunkReceive (groupOf s die o.grp).2.2.2 (transferChunk o (engReadAll s1 (.cp die) segs).1 h)) ∧
    (ringTurn s die o).ctxs = s1.ctxs := by
  have hwalk := walked_opSegs hseg
  have hread : Moves s1 (engReadAll s1 (.cp die) segs).2 := .of_unhomed (unhomed_engReadAll ..)
  have hmove := hwalk.moves.trans hread
  have hgroup : groupOf s1 die o.grp = groupOf s die o.grp :=
    (hwalk.moves.groupOf die o.grp).trans (groupOf_congr (group_semTaken s die o) o.grp)
  have hcc : s1.cc = s.cc := hwalk.moves.cc
  have hnone : ¬segs.any (fun x => s1.poisonedAt x.1 x.2) = true := by
    simpa using hclean
  rw [ringTurn_reads hw hn hm hseg, if_neg hnone, hgroup, hcc]
  generalize engReadAll s1 (.cp die) segs = r at hread hmove ⊢
  have hv : Posts s (r.2.stepped die s.cc) := ((posts_semTaken s die o).trans hmove.posts).trans (posts_stepped ..)
  have hsent := (sent_sendAwaited (r.2.stepped die s.cc) hopTime (transferRemote die o) die (groupOf s die o.grp).2.2
    (fun h => .ringChunkReceive (groupOf s die o.grp).2.2.2 (transferChunk o r.1 h))).since hv
  have hu := unsent_sendAwaited (r.2.stepped die s.cc) hopTime (transferRemote die o) die (groupOf s die o.grp).2.2.1 (groupOf s die o.grp).2.2.2
    (fun h => .ringChunkReceive (groupOf s die o.grp).2.2.2 (transferChunk o r.1 h))
  have hdie := congrArg (fun l => SMap.get {} l die) (field_of_erased hu State.dies (fun _ => rfl))
  refine ⟨?_, (congrArg Die.ring hdie).trans (ring_stepped ?_ _), hsent, (field_of_erased hu State.ctxs (fun _ => rfl)).trans hread.ctxs⟩
  · have hrsem : ((r.2.stepped die s.cc).die die).rsem = ((semTaken s die o).die die).rsem := by
      rw [State.stepped, die_modDie]
      exact hmove.rsem die
    have hsem : ringSem (r.2.stepped die s.cc) die (o.first + o.next) = ringSem (semTaken s die o) die (o.first + o.next) :=
      congrArg (SMap.get 0 · (o.first + o.next)) hrsem
    rw [← ringSem_semTaken s die o, ← hsem]
    exact congrArg (fun d : Die => (d.rsem.get 0 (o.first + o.next)).toNat) hdie
  · rw [hmove.ring, die_semTaken]
    exact hring

theorem ringTurn_finishes (hw : o.wrote = o.nch) : ringTurn s die o = finishRing s die o := by
  unfold ringTurn
  exact if_pos hw

end

/-! ## Ring transfers: the destination (15 R284; 18 R329) -/

section
variable {s t u : State} {die : Nat} {rc : RingChunk}

/-- The header that answers a transfer's chunk. -/
def transferHdr (rc : RingChunk) (die : Nat) : MsgHdr := { pkg := rc.pkg, die := rc.die, dest := die, tag := rc.tag }

/-- What a refusal leaves: the sender learns the cause; memory and the semaphores are as they were. -/
theorem refuses {v : State} (hp : Posts s v) (hmem : v.mem = s.mem) (hrsem : (v.die die).rsem = (s.die die).rsem) {cause : Nat} (hc : cause ≠ 0) (info : Nat) :
    let t := answer v (transferHdr rc die) cause [] info
    Answered s t rc.pkg rc.die die 1 (.messageFailure rc.tag cause info) ∧ t.mem = s.mem ∧ (t.die die).rsem = (s.die die).rsem := by
  intro t
  have hu : t.unanswered = v.unanswered := unanswered_reply ..
  have hdie := congrArg (fun l => (SMap.get {} l die).rsem) (field_of_erased hu State.dies (fun _ => rfl))
  exact ⟨(answered_refused v (transferHdr rc die) hc info).since hp, (field_of_erased hu State.mem (fun _ => rfl)).trans hmem, hdie.trans hrsem⟩

/-- The count of a ring semaphore rises, held at 65,535 (15 R285). -/
theorem ringSem_performRsem (s : State) (die k : Nat) : (ringSem (performRsem s die k true 1) die k).toNat = min 65535 ((ringSem s die k).toNat + 1) := by
  rw [performRsem, setRingSem, ringSem, die_modDie]
  show (SMap.get 0 (SMap.put 0 (s.die die).rsem k _) k).toNat = _
  rw [SMap.get_put_same, BitVec.toNat_ofNat]
  exact Nat.mod_eq_of_lt (Nat.lt_of_le_of_lt (Nat.min_le_left ..) (by decide))

/-- A chunk whose writes have performed: its semaphore rises, its sender has the answer. -/
theorem transfer_answers (s : State) (die : Nat) (rc : RingChunk) :
    let t := answer (performRsem s die rc.sem true 1) (transferHdr rc die) 0 []
    Answered s t rc.pkg rc.die die 1 (.remoteResponse { pkg := s.pkgid.toNat, die := die, dest := rc.die, tag := rc.tag } []) ∧ t.mem = s.mem ∧
    t.ctxs = s.ctxs ∧ (ringSem t die rc.sem).toNat = min 65535 ((ringSem s die rc.sem).toNat + 1) := by
  intro t
  have hp : Posts s (performRsem s die rc.sem true 1) := posts_modDie ..
  have hu : t.unanswered = (performRsem s die rc.sem true 1).unanswered := unanswered_reply ..
  have hsem : ringSem t die rc.sem = ringSem (performRsem s die rc.sem true 1) die rc.sem :=
    congrArg (fun l => (SMap.get {} l die).rsem.get 0 rc.sem) (field_of_erased hu State.dies (fun _ => rfl))
  refine ⟨(answered_done (performRsem s die rc.sem true 1) (transferHdr rc die)).since hp, field_of_erased hu State.mem (fun _ => rfl),
    field_of_erased hu State.ctxs (fun _ => rfl), ?_⟩
  rw [hsem]
  exact ringSem_performRsem s die rc.sem

/-- The step of a chunk at its destination, in the order of its conditions. -/
theorem exec_ringChunkReceive (hok : (Ev.ringChunkReceive die rc).ok = true) :
    exec .ringChunkReceive (s.given (.ringChunkReceive die rc)) =
      if rc.written then .next (answer (performRsem (s.given (.ringChunkReceive die rc)) die rc.sem true 1) (transferHdr rc die) 0 [])
      else if rc.bad then .next (answer (s.given (.ringChunkReceive die rc)) (transferHdr rc die) 0x51 [])
      else match pageSegs (s.given (.ringChunkReceive die rc)) (.cp die) rc.proc rc.vf .engWr 3 rc.dst.toNat rc.bytes.length with
        | .error f => .next (answer (s.given (.ringChunkReceive die rc)) (transferHdr rc die) f.cause [])
        | .ok (segs, s) =>
          match leaseOver s (fun _ => true) segs with
          | some (x, _) => .next (answer s (transferHdr rc die) 0x34 [] (leaseHolder x).toNat)
          | none =>
            if rc.op ≠ 3 ∧ segs.any (fun x => s.poisonedAt x.1 x.2) then .next (answer s (transferHdr rc die) 0x51 [])
            else
              let r := if rc.op = 3 then (rc.bytes, s) else
                (collBytes rc.op rc.fmt (engReadAll s (.cp die) segs).1 rc.bytes, (engReadAll s (.cp die) segs).2)
              .next ((engWriteAll r.2 (.cp die) segs r.1).after 1 (.ringChunkReceive die { rc with written := true })) := by
  show execRingChunkReceive (s.given (.ringChunkReceive die rc)) = _
  unfold execRingChunkReceive
  exact evStep_given s _ hok rfl

/-- A chunk that its destination takes: written, or folded; then its step after the writes (15 R284). -/
theorem transfer_writes {v : State} (hv : Moves s v) (segs : List (Loc × Nat)) (bs : List Byte) (e : Ev) :
    let t := (engWriteAll v (.cp die) segs bs).after 1 e
    t.mem = (engWriteAll v (.cp die) segs bs).mem ∧ (s.cc + 1, e) ∈ t.agenda ∧ (t.die die).rsem = (s.die die).rsem := by
  intro t
  have hm : Moves s (engWriteAll v (.cp die) segs bs) := hv.trans (moves_engWriteAll ..)
  exact ⟨rfl, hm.posts.mem_after 1 e, hm.rsem die⟩

end

theorem ringTransfers : Claims.RingTransferResults := by
  intro s die hdie
  have hturn : (Ev.ringChunk die).ok = true := by simp [Ev.ok, Ev.unitOk, Ev.hdrOk, Ev.message, hdie]
  refine ⟨fun o hring hcoll hcc => ?_, fun rc hok => ?_⟩
  · intro m dst u
    have hexec := exec_ringChunk_ring hturn hring hcoll hcc
    have hq (hq : (s.die die).ringQ = []) : (u.die die).ringQ = [] :=
      (congrArg Die.ringQ (die_semTaken (s.given (.ringChunk die)) die o)).trans hq
    refine ⟨fun hw hn => ⟨fun hm => ?_, fun hm => ⟨fun segs s1 hseg => ⟨fun hclean => ?_, fun hbad htask hfree hst hempty => ?_⟩,
      fun f hf htask hfree hst hempty => ?_⟩⟩, fun hw hbar hempty => ?_⟩
    · exact hexec.trans (congrArg Host.Outcome.next (ringTurn_waits (s := s.given (.ringChunk die)) hw hn hm))
    · exact ⟨_, hexec, transfer_sends (s := s.given (.ringChunk die)) hring hw hn hm hseg hclean⟩
    · have hwalk := walked_opSegs hseg
      have hany : segs.any (fun x => s1.poisonedAt x.1 x.2) = true := List.any_eq_true.mpr hbad
      refine ⟨_, hexec.trans (congrArg Host.Outcome.next ((ringTurn_reads (s := s.given (.ringChunk die)) hw hn hm hseg).trans (if_pos hany))),
        transfer_halts (s := s) (v := s1) (hwalk.moves.ctx o.who) hwalk.mem ((hwalk.moves.ringQ die).trans (hq hempty)) 3 o.next 0 htask hfree hst⟩
    · exact ⟨_, hexec.trans (congrArg Host.Outcome.next (ringTurn_faults (s := s.given (.ringChunk die)) hw hn hm hf)),
        transfer_halts (s := s) (v := u) rfl rfl (hq hempty) 4 o.next f.cause htask hfree hst⟩
    · have hdone := completes_finishRing (s := s.given (.ringChunk die)) hbar hempty
      exact ⟨_, hexec.trans (congrArg Host.Outcome.next (ringTurn_finishes hw)), hdone.ring, hdone.mem, hdone.signal⟩
  · intro e back answered refused
    have hexec := exec_ringChunkReceive (s := s) hok
    refine ⟨fun hw => ?_, fun hw hbad => ?_, fun hw hbad => ⟨fun f hf hc => ?_, fun segs s1 hseg => ?_⟩⟩
    · exact ⟨_, hexec.trans (if_pos hw), transfer_answers (s.given e) die rc⟩
    · exact ⟨_, hexec.trans ((if_neg (ne_true_of_eq_false hw)).trans (if_pos hbad)),
        refuses (moves_given s e).posts rfl rfl (by decide) 0⟩
    · refine ⟨_, hexec.trans ((if_neg (ne_true_of_eq_false hw)).trans ((if_neg (ne_true_of_eq_false hbad)).trans ?_)),
        refuses (moves_given s e).posts rfl rfl hc 0⟩
      rw [hf]
    · rw [if_neg (ne_true_of_eq_false hw), if_neg (ne_true_of_eq_false hbad), hseg] at hexec
      have hwalk := walked_pageSegs hseg
      have hp : Posts s s1 := (moves_given s e).posts.trans hwalk.moves.posts
      refine ⟨fun x l hl => ?_, fun hl => ⟨fun hop hbad => ?_, fun hclean => ?_⟩⟩
      · simp only [hl] at hexec
        exact ⟨_, hexec, refuses hp hwalk.mem (hwalk.moves.rsem die) (by decide) _⟩
      · simp only [hl] at hexec
        exact ⟨_, hexec.trans (if_pos ⟨hop, List.any_eq_true.mpr hbad⟩), refuses hp hwalk.mem (hwalk.moves.rsem die) (by decide) 0⟩
      · have hnone : ¬(rc.op ≠ 3 ∧ segs.any (fun x => s1.poisonedAt x.1 x.2) = true) := by
          rintro ⟨hop, hany⟩
          obtain ⟨x, hx, hpois⟩ := List.any_eq_true.mp hany
          exact ne_true_of_eq_false (hclean.resolve_left hop x hx) hpois
        simp only [hl] at hexec
        intro r
        have hr : Moves s r.2 := by
          refine ((moves_given s e).trans hwalk.moves).trans ?_
          unfold r
          split
          · exact .refl _
          · exact .of_unhomed (unhomed_engReadAll ..)
        exact ⟨_, hexec.trans (if_neg hnone), transfer_writes hr segs r.1 _⟩

/-- Settles O54: each step's branch by its conditions; what the engine's traffic, messages and halts leave alone is kept by `Moves`, `Posts` and `Halts`. -/
theorem ringEventResults : Obligations.RingEventResults := ⟨collectives, ringTransfers⟩

end Sys2Proof.Machine
end
